-- ==== Sys2Proof/Word.lean ====
section
/-! DEFINITION. The plain words of the machine: the 32-bit instruction word and lane register, the byte, the
64-bit value, and the two shapes of finite table that the state is built from. -/

namespace Sys2Proof

/-- An instruction word or a lane register (R60, R99). -/
abbrev Word := BitVec 32

/-- A byte of any memory. -/
abbrev Byte := BitVec 8

/-- A uniform register or a 64-bit value (R65). -/
abbrev Dword := BitVec 64

/-- A finite table: keys strictly rising, at most one entry for a key. -/
abbrev Table (α : Type) := List (Nat × α)

/-- A total table held sparsely: keys strictly rising, and no entry equal to the value an unlisted key reads as. -/
abbrev Sparse (α : Type) := List (Nat × α)

/-- A one-bit field as a truth value. -/
def bit1 (b : BitVec 1) : Bool := b == 1#1

/-- A truth value as a one-bit field. -/
def ofBit (b : Bool) : BitVec 1 := if b then 1#1 else 0#1

end Sys2Proof
end

