-- ==== Sys2Proof/Syntax.lean ====
section
/-! DEFINITION. The instructions: one constructor for each row of the opcode table. The rows with bits are the words of
the thread engine (chapters 04 to 22) and the two custom words of the attendant cores (chapter 20); the rows
without bits are the events of the engines, the host link, the fabric and the power controller, and their arguments
name the object the event acts on and the data that comes from outside the module. -/

namespace Sys2Proof

/-- One instruction word or one event of the IK-960. The rule in each line is the one the opcode table names. -/
inductive Instr where
  /-- ADD_I32 (R131). -/
  | addI32 (vd va vb : BitVec 7) (tr : Bool)
  /-- SUB_I32 (R131). -/
  | subI32 (vd va vb : BitVec 7) (tr : Bool)
  /-- NEG_I32 (R131). -/
  | negI32 (vd va : BitVec 7) (tr : Bool)
  /-- ABS_I32 (R131). -/
  | absI32 (vd va : BitVec 7) (tr : Bool)
  /-- AVG_I32 (R131). -/
  | avgI32 (vd va vb : BitVec 7) (tr : Bool)
  /-- AVG_N32 (R131). -/
  | avgN32 (vd va vb : BitVec 7) (tr : Bool)
  /-- ADIFF_I32 (R131). -/
  | adiffI32 (vd va vb : BitVec 7) (tr : Bool)
  /-- ADIFF_N32 (R131). -/
  | adiffN32 (vd va vb : BitVec 7) (tr : Bool)
  /-- ADD_I64 (R131). -/
  | addI64 (vd va vb : BitVec 7) (tr : Bool)
  /-- SUB_I64 (R131). -/
  | subI64 (vd va vb : BitVec 7) (tr : Bool)
  /-- NEG_I64 (R131). -/
  | negI64 (vd va : BitVec 7) (tr : Bool)
  /-- ABS_I64 (R131). -/
  | absI64 (vd va : BitVec 7) (tr : Bool)
  /-- ADDW_I64_I32 (R131). -/
  | addwI64I32 (vd va vb : BitVec 7) (tr : Bool)
  /-- ADDW_N64_N32 (R131). -/
  | addwN64N32 (vd va vb : BitVec 7) (tr : Bool)
  /-- ADDSAT_I32 (R131). -/
  | addsatI32 (vd va vb : BitVec 7) (tr : Bool)
  /-- SUBSAT_I32 (R131). -/
  | subsatI32 (vd va vb : BitVec 7) (tr : Bool)
  /-- ADDSAT_N32 (R131). -/
  | addsatN32 (vd va vb : BitVec 7) (tr : Bool)
  /-- SUBSAT_N32 (R131). -/
  | subsatN32 (vd va vb : BitVec 7) (tr : Bool)
  /-- NEGSAT_I32 (R131). -/
  | negsatI32 (vd va : BitVec 7) (tr : Bool)
  /-- ABSSAT_I32 (R131). -/
  | abssatI32 (vd va : BitVec 7) (tr : Bool)
  /-- MUL_I32 (R131). -/
  | mulI32 (vd va vb : BitVec 7) (tr : Bool)
  /-- MULHI_I32 (R131). -/
  | mulhiI32 (vd va vb : BitVec 7) (tr : Bool)
  /-- MULHI_N32 (R131). -/
  | mulhiN32 (vd va vb : BitVec 7) (tr : Bool)
  /-- MAD_I32 (R131). -/
  | madI32 (vd va vb : BitVec 7) (tr : Bool)
  /-- MULW_I32 (R131). -/
  | mulwI32 (vd va vb : BitVec 7) (tr : Bool)
  /-- MULW_N32 (R131). -/
  | mulwN32 (vd va vb : BitVec 7) (tr : Bool)
  /-- DIV_I32 (R132). -/
  | divI32 (vd va vb : BitVec 7) (tr : Bool)
  /-- DIV_N32 (R132). -/
  | divN32 (vd va vb : BitVec 7) (tr : Bool)
  /-- REM_I32 (R132). -/
  | remI32 (vd va vb : BitVec 7) (tr : Bool)
  /-- REM_N32 (R132). -/
  | remN32 (vd va vb : BitVec 7) (tr : Bool)
  /-- DIV_I64 (R132). -/
  | divI64 (vd va vb : BitVec 7) (tr : Bool)
  /-- DIV_N64 (R132). -/
  | divN64 (vd va vb : BitVec 7) (tr : Bool)
  /-- REM_I64 (R132). -/
  | remI64 (vd va vb : BitVec 7) (tr : Bool)
  /-- REM_N64 (R132). -/
  | remN64 (vd va vb : BitVec 7) (tr : Bool)
  /-- MIN_I32 (R131). -/
  | minI32 (vd va vb : BitVec 7) (tr : Bool)
  /-- MAX_I32 (R131). -/
  | maxI32 (vd va vb : BitVec 7) (tr : Bool)
  /-- MIN_N32 (R131). -/
  | minN32 (vd va vb : BitVec 7) (tr : Bool)
  /-- MAX_N32 (R131). -/
  | maxN32 (vd va vb : BitVec 7) (tr : Bool)
  /-- MIN_I64 (R131). -/
  | minI64 (vd va vb : BitVec 7) (tr : Bool)
  /-- MAX_I64 (R131). -/
  | maxI64 (vd va vb : BitVec 7) (tr : Bool)
  /-- MIN_N64 (R131). -/
  | minN64 (vd va vb : BitVec 7) (tr : Bool)
  /-- MAX_N64 (R131). -/
  | maxN64 (vd va vb : BitVec 7) (tr : Bool)
  /-- AND_N32 (R131). -/
  | andN32 (vd va vb : BitVec 7) (tr : Bool)
  /-- OR_N32 (R131). -/
  | orN32 (vd va vb : BitVec 7) (tr : Bool)
  /-- XOR_N32 (R131). -/
  | xorN32 (vd va vb : BitVec 7) (tr : Bool)
  /-- ANDN_N32 (R131). -/
  | andnN32 (vd va vb : BitVec 7) (tr : Bool)
  /-- ORN_N32 (R131). -/
  | ornN32 (vd va vb : BitVec 7) (tr : Bool)
  /-- XNOR_N32 (R131). -/
  | xnorN32 (vd va vb : BitVec 7) (tr : Bool)
  /-- NOT_N32 (R131). -/
  | notN32 (vd va : BitVec 7) (tr : Bool)
  /-- SHL_N32 (R133). -/
  | shlN32 (vd va vb : BitVec 7) (tr : Bool)
  /-- SHR_N32 (R133). -/
  | shrN32 (vd va vb : BitVec 7) (tr : Bool)
  /-- SHR_I32 (R133). -/
  | shrI32 (vd va vb : BitVec 7) (tr : Bool)
  /-- ROL_N32 (R131). -/
  | rolN32 (vd va vb : BitVec 7) (tr : Bool)
  /-- ROR_N32 (R131). -/
  | rorN32 (vd va vb : BitVec 7) (tr : Bool)
  /-- POPC_N32 (R131). -/
  | popcN32 (vd va : BitVec 7) (tr : Bool)
  /-- CLZ_N32 (R131). -/
  | clzN32 (vd va : BitVec 7) (tr : Bool)
  /-- CTZ_N32 (R131). -/
  | ctzN32 (vd va : BitVec 7) (tr : Bool)
  /-- BREV_N32 (R131). -/
  | brevN32 (vd va : BitVec 7) (tr : Bool)
  /-- BSWAP_N32 (R131). -/
  | bswapN32 (vd va : BitVec 7) (tr : Bool)
  /-- POPC_N64 (R131). -/
  | popcN64 (vd va : BitVec 7) (tr : Bool)
  /-- CLZ_N64 (R131). -/
  | clzN64 (vd va : BitVec 7) (tr : Bool)
  /-- BFE_N32 (R134). -/
  | bfeN32 (vd va vb : BitVec 7) (tr : Bool)
  /-- BFE_I32 (R134). -/
  | bfeI32 (vd va vb : BitVec 7) (tr : Bool)
  /-- BFI_N32 (R134). -/
  | bfiN32 (vd va vb : BitVec 7) (tr : Bool)
  /-- CMP_I32 (R135). -/
  | cmpI32 (pk : BitVec 3) (va vb : BitVec 7) (cc : BitVec 3)
  /-- SEL_N32 (R136). -/
  | selN32 (vd va vb : BitVec 7) (pk : BitVec 3) (tr : Bool)
  /-- MOV_N32 (R136). -/
  | movN32 (vd va : BitVec 7) (tr : Bool)
  /-- SHADD_N32 (R131). -/
  | shaddN32 (vd va vb : BitVec 7) (sh : BitVec 2) (tr : Bool)
  /-- SHADD_N64 (R131). -/
  | shaddN64 (vd va vb : BitVec 7) (sh : BitVec 2) (tr : Bool)
  /-- ADD_I16 (R131). -/
  | addI16 (vd va vb : BitVec 7) (tr : Bool)
  /-- SUB_I16 (R131). -/
  | subI16 (vd va vb : BitVec 7) (tr : Bool)
  /-- ADD_I8 (R131). -/
  | addI8 (vd va vb : BitVec 7) (tr : Bool)
  /-- SUB_I8 (R131). -/
  | subI8 (vd va vb : BitVec 7) (tr : Bool)
  /-- ADDSAT_I16 (R131). -/
  | addsatI16 (vd va vb : BitVec 7) (tr : Bool)
  /-- SUBSAT_I16 (R131). -/
  | subsatI16 (vd va vb : BitVec 7) (tr : Bool)
  /-- ADDSAT_N8 (R131). -/
  | addsatN8 (vd va vb : BitVec 7) (tr : Bool)
  /-- DOT_I8 (R131). -/
  | dotI8 (vd va vb : BitVec 7) (tr : Bool)
  /-- PAND (R137). -/
  | pand (vd va vb : BitVec 3)
  /-- POR (R137). -/
  | por (vd va vb : BitVec 3)
  /-- PXOR (R137). -/
  | pxor (vd va vb : BitVec 3)
  /-- PANDN (R137). -/
  | pandn (vd va vb : BitVec 3)
  /-- PNOT (R137). -/
  | pnot (vd va : BitVec 3)
  /-- PTOV_N32 (R137). -/
  | ptovN32 (vd : BitVec 7) (tr : Bool)
  /-- VTOP_N32 (R137). -/
  | vtopN32 (va : BitVec 7)
  /-- MUL_I64 (R131). -/
  | mulI64 (vd va vb : BitVec 7) (tr : Bool)
  /-- SHL_N64 (R133). -/
  | shlN64 (vd va vb : BitVec 7) (tr : Bool)
  /-- SHR_N64 (R133). -/
  | shrN64 (vd va vb : BitVec 7) (tr : Bool)
  /-- SHR_I64 (R133). -/
  | shrI64 (vd va vb : BitVec 7) (tr : Bool)
  /-- CMP_EQ_I64 (R135). -/
  | cmpEqI64 (pk : BitVec 3) (va vb : BitVec 7)
  /-- CMP_LT_I64 (R135). -/
  | cmpLtI64 (pk : BitVec 3) (va vb : BitVec 7)
  /-- CMP_LT_N64 (R135). -/
  | cmpLtN64 (pk : BitVec 3) (va vb : BitVec 7)
  /-- MOV_N64 (R131). -/
  | movN64 (vd va : BitVec 7) (tr : Bool)
  /-- ADD_I32_IMM (R138). -/
  | addI32Imm (vd : BitVec 7) (imm : BitVec 16)
  /-- ADD_I64_IMM (R138). -/
  | addI64Imm (vd : BitVec 7) (imm : BitVec 16)
  /-- ADDSAT_I32_IMM (R138). -/
  | addsatI32Imm (vd : BitVec 7) (imm : BitVec 16)
  /-- ADDSAT_N32_IMM (R138). -/
  | addsatN32Imm (vd : BitVec 7) (imm : BitVec 16)
  /-- AND_N32_IMM (R138). -/
  | andN32Imm (vd : BitVec 7) (imm : BitVec 16)
  /-- OR_N32_IMM (R138). -/
  | orN32Imm (vd : BitVec 7) (imm : BitVec 16)
  /-- XOR_N32_IMM (R138). -/
  | xorN32Imm (vd : BitVec 7) (imm : BitVec 16)
  /-- SHL_N32_IMM (R138). -/
  | shlN32Imm (vd : BitVec 7) (imm : BitVec 16)
  /-- SHR_N32_IMM (R138). -/
  | shrN32Imm (vd : BitVec 7) (imm : BitVec 16)
  /-- SHR_I32_IMM (R138). -/
  | shrI32Imm (vd : BitVec 7) (imm : BitVec 16)
  /-- ROR_N32_IMM (R138). -/
  | rorN32Imm (vd : BitVec 7) (imm : BitVec 16)
  /-- SET_EQ_I32 (R138). -/
  | setEqI32 (vd : BitVec 7) (imm : BitVec 16)
  /-- SET_NE_I32 (R138). -/
  | setNeI32 (vd : BitVec 7) (imm : BitVec 16)
  /-- SET_LT_I32 (R138). -/
  | setLtI32 (vd : BitVec 7) (imm : BitVec 16)
  /-- SET_LT_N32 (R138). -/
  | setLtN32 (vd : BitVec 7) (imm : BitVec 16)
  /-- MOVL_N32 (R138). -/
  | movlN32 (vd : BitVec 7) (imm : BitVec 16)
  /-- MOVH_N32 (R138). -/
  | movhN32 (vd : BitVec 7) (imm : BitVec 16)
  /-- MOV_I32_IMM (R138). -/
  | movI32Imm (vd : BitVec 7) (imm : BitVec 16)
  /-- MOV_N32_IMM (R138). -/
  | movN32Imm (vd : BitVec 7) (imm : BitVec 16)
  /-- MUL_I32_IMM (R138). -/
  | mulI32Imm (vd : BitVec 7) (imm : BitVec 16)
  /-- MUL_I64_IMM (R138). -/
  | mulI64Imm (vd : BitVec 7) (imm : BitVec 16)
  /-- MIN_I32_IMM (R138). -/
  | minI32Imm (vd : BitVec 7) (imm : BitVec 16)
  /-- MAX_I32_IMM (R138). -/
  | maxI32Imm (vd : BitVec 7) (imm : BitVec 16)
  /-- MIN_N32_IMM (R138). -/
  | minN32Imm (vd : BitVec 7) (imm : BitVec 16)
  /-- MAX_N32_IMM (R138). -/
  | maxN32Imm (vd : BitVec 7) (imm : BitVec 16)
  /-- FADD_F32 (R139). -/
  | faddF32 (vd va vb : BitVec 7) (tr : Bool)
  /-- FSUB_F32 (R139). -/
  | fsubF32 (vd va vb : BitVec 7) (tr : Bool)
  /-- FMUL_F32 (R139). -/
  | fmulF32 (vd va vb : BitVec 7) (tr : Bool)
  /-- FMA_F32 (R139). -/
  | fmaF32 (vd va vb : BitVec 7) (tr : Bool)
  /-- FMS_F32 (R139). -/
  | fmsF32 (vd va vb : BitVec 7) (tr : Bool)
  /-- FNMA_F32 (R139). -/
  | fnmaF32 (vd va vb : BitVec 7) (tr : Bool)
  /-- FMIN_F32 (R140). -/
  | fminF32 (vd va vb : BitVec 7) (tr : Bool)
  /-- FMAX_F32 (R140). -/
  | fmaxF32 (vd va vb : BitVec 7) (tr : Bool)
  /-- FCMP_F32 (R140). -/
  | fcmpF32 (pk : BitVec 3) (va vb : BitVec 7) (cc : BitVec 3)
  /-- FADD_F64 (R139). -/
  | faddF64 (vd va vb : BitVec 7) (tr : Bool)
  /-- FSUB_F64 (R139). -/
  | fsubF64 (vd va vb : BitVec 7) (tr : Bool)
  /-- FMUL_F64 (R139). -/
  | fmulF64 (vd va vb : BitVec 7) (tr : Bool)
  /-- FMA_F64 (R139). -/
  | fmaF64 (vd va vb : BitVec 7) (tr : Bool)
  /-- FMS_F64 (R139). -/
  | fmsF64 (vd va vb : BitVec 7) (tr : Bool)
  /-- FNMA_F64 (R139). -/
  | fnmaF64 (vd va vb : BitVec 7) (tr : Bool)
  /-- FMIN_F64 (R140). -/
  | fminF64 (vd va vb : BitVec 7) (tr : Bool)
  /-- FMAX_F64 (R140). -/
  | fmaxF64 (vd va vb : BitVec 7) (tr : Bool)
  /-- FCMP_F64 (R140). -/
  | fcmpF64 (pk : BitVec 3) (va vb : BitVec 7) (cc : BitVec 3)
  /-- FADD_F16 (R139). -/
  | faddF16 (vd va vb : BitVec 7) (tr : Bool)
  /-- FMUL_F16 (R139). -/
  | fmulF16 (vd va vb : BitVec 7) (tr : Bool)
  /-- FMA_F16 (R139). -/
  | fmaF16 (vd va vb : BitVec 7) (tr : Bool)
  /-- FADD_BF16 (R139). -/
  | faddBf16 (vd va vb : BitVec 7) (tr : Bool)
  /-- FMUL_BF16 (R139). -/
  | fmulBf16 (vd va vb : BitVec 7) (tr : Bool)
  /-- FMA_BF16 (R139). -/
  | fmaBf16 (vd va vb : BitVec 7) (tr : Bool)
  /-- FMAX_F16 (R140). -/
  | fmaxF16 (vd va vb : BitVec 7) (tr : Bool)
  /-- FMAX_BF16 (R140). -/
  | fmaxBf16 (vd va vb : BitVec 7) (tr : Bool)
  /-- FADD_E4M3 (R139). -/
  | faddE4m3 (vd va vb : BitVec 7) (tr : Bool)
  /-- FMUL_E4M3 (R139). -/
  | fmulE4m3 (vd va vb : BitVec 7) (tr : Bool)
  /-- FADD_E5M2 (R139). -/
  | faddE5m2 (vd va vb : BitVec 7) (tr : Bool)
  /-- FMUL_E5M2 (R139). -/
  | fmulE5m2 (vd va vb : BitVec 7) (tr : Bool)
  /-- FDOT_F32_E4M3 (R141). -/
  | fdotF32E4m3 (vd va vb : BitVec 7) (tr : Bool)
  /-- FDOT_F32_E5M2 (R141). -/
  | fdotF32E5m2 (vd va vb : BitVec 7) (tr : Bool)
  /-- CVT_F16_E4M3 (R141). -/
  | cvtF16E4m3 (vd va : BitVec 7) (tr : Bool)
  /-- CVT_F16_E5M2 (R141). -/
  | cvtF16E5m2 (vd va : BitVec 7) (tr : Bool)
  /-- FDIV_F32 (R142). -/
  | fdivF32 (vd va vb : BitVec 7) (tr : Bool)
  /-- FSQRT_F32 (R142). -/
  | fsqrtF32 (vd va : BitVec 7) (tr : Bool)
  /-- RCP_F32 (R142). -/
  | rcpF32 (vd va : BitVec 7) (tr : Bool)
  /-- RSQRT_F32 (R142). -/
  | rsqrtF32 (vd va : BitVec 7) (tr : Bool)
  /-- EXP2_F32 (R142). -/
  | exp2F32 (vd va : BitVec 7) (tr : Bool)
  /-- LOG2_F32 (R142). -/
  | log2F32 (vd va : BitVec 7) (tr : Bool)
  /-- SINPI_F32 (R142). -/
  | sinpiF32 (vd va : BitVec 7) (tr : Bool)
  /-- COSPI_F32 (R142). -/
  | cospiF32 (vd va : BitVec 7) (tr : Bool)
  /-- FDIV_F64 (R142). -/
  | fdivF64 (vd va vb : BitVec 7) (tr : Bool)
  /-- FSQRT_F64 (R142). -/
  | fsqrtF64 (vd va : BitVec 7) (tr : Bool)
  /-- FABS_F32 (R143). -/
  | fabsF32 (vd va : BitVec 7) (tr : Bool)
  /-- FNEG_F32 (R143). -/
  | fnegF32 (vd va : BitVec 7) (tr : Bool)
  /-- FCOPYSIGN_F32 (R143). -/
  | fcopysignF32 (vd va vb : BitVec 7) (tr : Bool)
  /-- FCLASS_F32 (R143). -/
  | fclassF32 (vd va : BitVec 7) (tr : Bool)
  /-- FABS_F64 (R143). -/
  | fabsF64 (vd va : BitVec 7) (tr : Bool)
  /-- FNEG_F64 (R143). -/
  | fnegF64 (vd va : BitVec 7) (tr : Bool)
  /-- FCOPYSIGN_F64 (R143). -/
  | fcopysignF64 (vd va vb : BitVec 7) (tr : Bool)
  /-- FCLASS_F64 (R143). -/
  | fclassF64 (vd va : BitVec 7) (tr : Bool)
  /-- FADD_F32_IMM (R144). -/
  | faddF32Imm (vd : BitVec 7) (imm : BitVec 16)
  /-- FMUL_F32_IMM (R144). -/
  | fmulF32Imm (vd : BitVec 7) (imm : BitVec 16)
  /-- FMAX_F32_IMM (R144). -/
  | fmaxF32Imm (vd : BitVec 7) (imm : BitVec 16)
  /-- FMIN_F32_IMM (R144). -/
  | fminF32Imm (vd : BitVec 7) (imm : BitVec 16)
  /-- FADD_F64_IMM (R144). -/
  | faddF64Imm (vd : BitVec 7) (imm : BitVec 16)
  /-- FMUL_F64_IMM (R144). -/
  | fmulF64Imm (vd : BitVec 7) (imm : BitVec 16)
  /-- FMAX_F64_IMM (R144). -/
  | fmaxF64Imm (vd : BitVec 7) (imm : BitVec 16)
  /-- FMIN_F64_IMM (R144). -/
  | fminF64Imm (vd : BitVec 7) (imm : BitVec 16)
  /-- FMUL_F16_IMM (R144). -/
  | fmulF16Imm (vd : BitVec 7) (imm : BitVec 16)
  /-- FMUL_BF16_IMM (R144). -/
  | fmulBf16Imm (vd : BitVec 7) (imm : BitVec 16)
  /-- FMUL_E4M3_IMM (R367). -/
  | fmulE4m3Imm (vd : BitVec 7) (imm : BitVec 16)
  /-- FMUL_E5M2_IMM (R367). -/
  | fmulE5m2Imm (vd : BitVec 7) (imm : BitVec 16)
  /-- CVT_F32_I32 (R145). -/
  | cvtF32I32 (vd va : BitVec 7) (tr : Bool)
  /-- CVT_F32_N32 (R145). -/
  | cvtF32N32 (vd va : BitVec 7) (tr : Bool)
  /-- CVT_I32_F32 (R145). -/
  | cvtI32F32 (vd va : BitVec 7) (tr : Bool)
  /-- CVT_N32_F32 (R145). -/
  | cvtN32F32 (vd va : BitVec 7) (tr : Bool)
  /-- CVT_F64_I64 (R145). -/
  | cvtF64I64 (vd va : BitVec 7) (tr : Bool)
  /-- CVT_I64_F64 (R145). -/
  | cvtI64F64 (vd va : BitVec 7) (tr : Bool)
  /-- CVT_F64_I32 (R145). -/
  | cvtF64I32 (vd va : BitVec 7) (tr : Bool)
  /-- CVT_I32_F64 (R145). -/
  | cvtI32F64 (vd va : BitVec 7) (tr : Bool)
  /-- CVT_F64_F32 (R145). -/
  | cvtF64F32 (vd va : BitVec 7) (tr : Bool)
  /-- CVT_F32_F64 (R145). -/
  | cvtF32F64 (vd va : BitVec 7) (tr : Bool)
  /-- CVT_F32_F16 (R145). -/
  | cvtF32F16 (vd va : BitVec 7) (tr : Bool)
  /-- CVT_F16_F32 (R145). -/
  | cvtF16F32 (vd va : BitVec 7) (tr : Bool)
  /-- CVT_F32_BF16 (R145). -/
  | cvtF32Bf16 (vd va : BitVec 7) (tr : Bool)
  /-- CVT_BF16_F32 (R145). -/
  | cvtBf16F32 (vd va : BitVec 7) (tr : Bool)
  /-- CVT_E4M3_F32 (R145). -/
  | cvtE4m3F32 (vd va vb : BitVec 7) (tr : Bool)
  /-- CVT_E5M2_F32 (R145). -/
  | cvtE5m2F32 (vd va vb : BitVec 7) (tr : Bool)
  /-- CVT_SX2_F32 (R146). -/
  | cvtSx2F32 (vd va : BitVec 7)
  /-- CVT_SX4_F32 (R146). -/
  | cvtSx4F32 (vd va : BitVec 7)
  /-- CVT_SX7_F32 (R146). -/
  | cvtSx7F32 (vd va : BitVec 7)
  /-- CVT_F32_SX2 (R146). -/
  | cvtF32Sx2 (vd va : BitVec 7)
  /-- CVT_F32_SX4 (R146). -/
  | cvtF32Sx4 (vd va : BitVec 7)
  /-- CVT_F32_SX7 (R146). -/
  | cvtF32Sx7 (vd va : BitVec 7)
  /-- XL_IDX_N32 (R147). -/
  | xlIdxN32 (vd va vb : BitVec 7) (tr : Bool)
  /-- XL_XOR_N32 (R147). -/
  | xlXorN32 (vd va vb : BitVec 7) (tr : Bool)
  /-- XL_UP_N32 (R147). -/
  | xlUpN32 (vd va vb : BitVec 7) (tr : Bool)
  /-- XL_DOWN_N32 (R147). -/
  | xlDownN32 (vd va vb : BitVec 7) (tr : Bool)
  /-- XL_IDX_N64 (R147). -/
  | xlIdxN64 (vd va vb : BitVec 7) (tr : Bool)
  /-- XL_BALLOT_N64 (R148). -/
  | xlBallotN64 (vd : BitVec 7) (pk : BitVec 3) (tr : Bool)
  /-- XL_ADD_I32 (R148). -/
  | xlAddI32 (vd va : BitVec 7) (tr : Bool)
  /-- LD_STK (R152). -/
  | ldStk (vd : BitVec 7) (sz : BitVec 2) (va la : BitVec 4) (off : BitVec 7)
  /-- ST_STK (R152). -/
  | stStk (vs : BitVec 7) (sz : BitVec 2) (va : BitVec 4) (off : BitVec 7)
  /-- LD_SH (R152). -/
  | ldSh (vd : BitVec 7) (sz : BitVec 2) (va la : BitVec 4) (off : BitVec 7)
  /-- ST_SH (R152). -/
  | stSh (vs : BitVec 7) (sz : BitVec 2) (va : BitVec 4) (off : BitVec 7)
  /-- LD_DIE (R152). -/
  | ldDie (vd : BitVec 7) (sz : BitVec 2) (va la : BitVec 4) (off : BitVec 7)
  /-- ST_DIE (R152). -/
  | stDie (vs : BitVec 7) (sz : BitVec 2) (va : BitVec 4) (off : BitVec 7)
  /-- LD_FL (R218). -/
  | ldFl (vd : BitVec 7) (sz : BitVec 2) (va la : BitVec 4) (off : BitVec 7)
  /-- ST_FL (R219). -/
  | stFl (vs : BitVec 7) (sz : BitVec 2) (va : BitVec 4) (off : BitVec 7)
  /-- LD_ACQ (R154). -/
  | ldAcq (vd : BitVec 7) (va la : BitVec 4) (sp sz : BitVec 2)
  /-- ST_REL (R154). -/
  | stRel (vs : BitVec 7) (va : BitVec 4) (sp sz : BitVec 2)
  /-- ST_NT (R58). -/
  | stNt (vs : BitVec 7) (va : BitVec 4) (sp sz : BitVec 2)
  /-- ATOM_ADD (R156). -/
  | atomAdd (vd : BitVec 7) (va : BitVec 4) (sz : BitVec 1) (ord : BitVec 2) (la : BitVec 4) (sp : BitVec 2)
  /-- ATOM_AND (R156). -/
  | atomAnd (vd : BitVec 7) (va : BitVec 4) (sz : BitVec 1) (ord : BitVec 2) (la : BitVec 4) (sp : BitVec 2)
  /-- ATOM_OR (R156). -/
  | atomOr (vd : BitVec 7) (va : BitVec 4) (sz : BitVec 1) (ord : BitVec 2) (la : BitVec 4) (sp : BitVec 2)
  /-- ATOM_XOR (R156). -/
  | atomXor (vd : BitVec 7) (va : BitVec 4) (sz : BitVec 1) (ord : BitVec 2) (la : BitVec 4) (sp : BitVec 2)
  /-- ATOM_MIN_I (R156). -/
  | atomMinI (vd : BitVec 7) (va : BitVec 4) (sz : BitVec 1) (ord : BitVec 2) (la : BitVec 4) (sp : BitVec 2)
  /-- ATOM_MAX_I (R156). -/
  | atomMaxI (vd : BitVec 7) (va : BitVec 4) (sz : BitVec 1) (ord : BitVec 2) (la : BitVec 4) (sp : BitVec 2)
  /-- ATOM_MIN_N (R156). -/
  | atomMinN (vd : BitVec 7) (va : BitVec 4) (sz : BitVec 1) (ord : BitVec 2) (la : BitVec 4) (sp : BitVec 2)
  /-- ATOM_MAX_N (R156). -/
  | atomMaxN (vd : BitVec 7) (va : BitVec 4) (sz : BitVec 1) (ord : BitVec 2) (la : BitVec 4) (sp : BitVec 2)
  /-- ATOM_EXCH (R156). -/
  | atomExch (vd : BitVec 7) (va : BitVec 4) (sz : BitVec 1) (ord : BitVec 2) (la : BitVec 4) (sp : BitVec 2)
  /-- ATOM_CAS (R156). -/
  | atomCas (vd : BitVec 7) (va : BitVec 4) (sz : BitVec 1) (ord : BitVec 2) (la : BitVec 4) (sp : BitVec 2)
  /-- BR (R158). -/
  | br (cc : BitVec 4) (off : BitVec 21)
  /-- CALL (R159). -/
  | call (off : BitVec 21)
  /-- LOOP (R160). -/
  | loopBr (cc : BitVec 4) (off : BitVec 21)
  /-- NOP (R161). -/
  | nop
  /-- RET (R159). -/
  | ret
  /-- BR_IND (R159). -/
  | brInd (va : BitVec 7)
  /-- CALL_IND (R159). -/
  | callInd (va : BitVec 7)
  /-- RGN (R122). -/
  | rgn (hi lo : BitVec 7)
  /-- IX_SET (R163). -/
  | ixSet (va : BitVec 7) (k : BitVec 2)
  /-- IX_GET (R163). -/
  | ixGet (vd : BitVec 7) (k : BitVec 2) (la : BitVec 4)
  /-- ROT_SET (R164). -/
  | rotSet (vB size : BitVec 7)
  /-- FENCE (R166). -/
  | fence (sc : BitVec 7)
  /-- NT_DRAIN (R58). -/
  | ntDrain
  /-- SR_RD (R165). -/
  | srRd (vd sr : BitVec 7) (la : BitVec 4)
  /-- SP_GET (R161). -/
  | spGet (vd : BitVec 7) (la : BitVec 4)
  /-- SP_SET (R165). -/
  | spSet (va : BitVec 7)
  /-- TB_JOIN (R170). -/
  | tbJoin (k : BitVec 4)
  /-- TB_SIGN (R170). -/
  | tbSign (k : BitVec 4) (vd : BitVec 7) (la : BitVec 4)
  /-- TB_WAIT (R170). -/
  | tbWait (k : BitVec 4) (va : BitVec 7)
  /-- WELD (R108). -/
  | weld (k : BitVec 4)
  /-- LT_ARRIVE (R171). -/
  | ltArrive (va : BitVec 7)
  /-- LT_WAIT (R171). -/
  | ltWait (va : BitVec 7) (ph : BitVec 1)
  /-- LT_PHASE (R171). -/
  | ltPhase (va vd : BitVec 7) (la : BitVec 4)
  /-- TL_WAIT (R172). -/
  | tlWait (va : BitVec 7) (sc : BitVec 3) (k : BitVec 4)
  /-- TL_RD (R172). -/
  | tlRd (vd : BitVec 7) (k la : BitVec 4)
  /-- BAR_CREW (R173). -/
  | barCrew
  /-- UNJOIN (R110). -/
  | unjoin (m0 m1 : BitVec 7) (m2 : BitVec 2)
  /-- END (R174). -/
  | endThread
  /-- TRAP (R175). -/
  | trap (hi lo : BitVec 7)
  /-- TRET (R178). -/
  | tret
  /-- CP_T (R198). -/
  | cpT (va vb : BitVec 7) (k : BitVec 3)
  /-- CP_WAIT (R199). -/
  | cpWait (k : BitVec 3)
  /-- CP_CNT (R199). -/
  | cpCnt (vd : BitVec 7) (k : BitVec 3) (la : BitVec 4)
  /-- CP_WAIT_ALL (R199). -/
  | cpWaitAll
  /-- KICK (R204). -/
  | kick (va : BitVec 7)
  /-- KICK_N (R204). -/
  | kickN (vd va : BitVec 7) (la : BitVec 4)
  /-- ATOM_FAR_ADD (R210). -/
  | atomFarAdd (vd : BitVec 7) (ord : BitVec 2) (pr : BitVec 5) (la : BitVec 4) (sz sc : BitVec 1)
  /-- ATOM_FAR_AND (R210). -/
  | atomFarAnd (vd : BitVec 7) (ord : BitVec 2) (pr : BitVec 5) (la : BitVec 4) (sz sc : BitVec 1)
  /-- ATOM_FAR_OR (R210). -/
  | atomFarOr (vd : BitVec 7) (ord : BitVec 2) (pr : BitVec 5) (la : BitVec 4) (sz sc : BitVec 1)
  /-- ATOM_FAR_XOR (R210). -/
  | atomFarXor (vd : BitVec 7) (ord : BitVec 2) (pr : BitVec 5) (la : BitVec 4) (sz sc : BitVec 1)
  /-- ATOM_FAR_MIN_I (R210). -/
  | atomFarMinI (vd : BitVec 7) (ord : BitVec 2) (pr : BitVec 5) (la : BitVec 4) (sz sc : BitVec 1)
  /-- ATOM_FAR_MAX_I (R210). -/
  | atomFarMaxI (vd : BitVec 7) (ord : BitVec 2) (pr : BitVec 5) (la : BitVec 4) (sz sc : BitVec 1)
  /-- ATOM_FAR_MIN_N (R210). -/
  | atomFarMinN (vd : BitVec 7) (ord : BitVec 2) (pr : BitVec 5) (la : BitVec 4) (sz sc : BitVec 1)
  /-- ATOM_FAR_MAX_N (R210). -/
  | atomFarMaxN (vd : BitVec 7) (ord : BitVec 2) (pr : BitVec 5) (la : BitVec 4) (sz sc : BitVec 1)
  /-- ATOM_FAR_EXCH (R210). -/
  | atomFarExch (vd : BitVec 7) (ord : BitVec 2) (pr : BitVec 5) (la : BitVec 4) (sz sc : BitVec 1)
  /-- ATOM_FAR_CAS (R210). -/
  | atomFarCas (vd : BitVec 7) (ord : BitVec 2) (pr : BitVec 5) (la : BitVec 4) (sz sc : BitVec 1)
  /-- FL_BIRTH (R222). -/
  | flBirth (va : BitVec 7)
  /-- FL_BIRTH_Z (R222). -/
  | flBirthZ (va : BitVec 7)
  /-- FL_RENEW (R222). -/
  | flRenew (va : BitVec 7)
  /-- FL_LIFE (R222). -/
  | flLife (vd va : BitVec 7) (la : BitVec 4)
  /-- FL_FREE (R222). -/
  | flFree (va : BitVec 7)
  /-- FL_STAT (R222). -/
  | flStat (vd va : BitVec 7) (la : BitVec 4)
  /-- FL_STAT_CLR (R222). -/
  | flStatClr (vd va : BitVec 7)
  /-- MMA (R242). -/
  | mma (va : BitVec 7) (acc : BitVec 3) (ob tb : BitVec 4) (keep : Bool)
  /-- MMA_ZERO (R242). -/
  | mmaZero (va : BitVec 7) (acc : BitVec 3) (ob tb : BitVec 4) (keep : Bool)
  /-- MX_LEASE (R233). -/
  | mxLease (vd va : BitVec 7) (la : BitVec 4)
  /-- MX_RELEASE (R236). -/
  | mxRelease
  /-- OB_RESV (R237). -/
  | obResv (va : BitVec 7) (k : BitVec 4)
  /-- OB_FREE (R238). -/
  | obFree (k : BitVec 4)
  /-- OB_LD (R240). -/
  | obLd (va : BitVec 7) (die : BitVec 1) (k : BitVec 4)
  /-- ACC_RD (R245). -/
  | accRd (vd va : BitVec 7) (la : BitVec 4)
  /-- ACC_WAIT (R246). -/
  | accWait (role acc : BitVec 3)
  /-- MX_FREEZE (R248). -/
  | mxFreeze (unit : BitVec 2)
  /-- MX_THAW (R248). -/
  | mxThaw (unit : BitVec 2)
  /-- ACC_DRAIN (R249). -/
  | accDrain (va : BitVec 7) (slot : BitVec 3) (unit : BitVec 2)
  /-- ACC_FILL (R250). -/
  | accFill (va : BitVec 7) (slot : BitVec 3) (unit : BitVec 2)
  /-- OB_DRAIN (R251). -/
  | obDrain (va : BitVec 7) (slot : BitVec 5) (unit : BitVec 2)
  /-- OB_FILL (R251). -/
  | obFill (va : BitVec 7) (slot : BitVec 5) (unit : BitVec 2)
  /-- IT_RANGE (R263). -/
  | itRange (va : BitVec 7) (k : BitVec 3)
  /-- IT_LIST (R263). -/
  | itList (va : BitVec 7) (k : BitVec 3)
  /-- IT_BITS (R263). -/
  | itBits (va : BitVec 7) (k : BitVec 3)
  /-- IT_QUEUE (R263). -/
  | itQueue (va : BitVec 7) (k : BitVec 3)
  /-- IT_MAP (R263). -/
  | itMap (va : BitVec 7) (k : BitVec 3)
  /-- IT_FILTER (R263). -/
  | itFilter (va : BitVec 7) (k : BitVec 3)
  /-- IT_ZIP (R263). -/
  | itZip (va : BitVec 7) (k : BitVec 3)
  /-- IT_CHAIN (R263). -/
  | itChain (va : BitVec 7) (k : BitVec 3)
  /-- IT_FLAT (R263). -/
  | itFlat (va : BitVec 7) (k : BitVec 3)
  /-- IT_NEXT (R265). -/
  | itNext (vd vn : BitVec 7) (la : BitVec 4) (k : BitVec 3)
  /-- IT_ENOUGH (R270). -/
  | itEnough (k : BitVec 3)
  /-- IT_FREE (R271). -/
  | itFree (k : BitVec 3)
  /-- IT_STAT (R264). -/
  | itStat (vd : BitVec 7) (k : BitVec 3) (la : BitVec 4)
  /-- IT_RD (R264). -/
  | itRd (va : BitVec 7) (depth k : BitVec 3)
  /-- Q_PUSH (R289). -/
  | qPush (va sz : BitVec 7)
  /-- Q_PUSH_NB (R289). -/
  | qPushNb (va sz : BitVec 7)
  /-- Q_POP (R289). -/
  | qPop (vd va : BitVec 7) (la : BitVec 4)
  /-- Q_POP_NB (R289). -/
  | qPopNb (vd va : BitVec 7) (la : BitVec 4)
  /-- Q_STAT (R293). -/
  | qStat (vd va : BitVec 7) (la : BitVec 4)
  /-- EMIT (R295). -/
  | emit (va sz : BitVec 7)
  /-- HCALL (R323). -/
  | hcall (vd va : BitVec 7)
  /-- COL_SEND (R339). -/
  | colSend (va vb : BitVec 7)
  /-- COL_RECV (R339). -/
  | colRecv (va vb : BitVec 7)
  /-- COL_RED (R339). -/
  | colRed (va vb : BitVec 7)
  /-- COL_GANGBAR (R342). -/
  | colGangbar
  /-- COL_ABORT (R340). -/
  | colAbort (va : BitVec 7)
  /-- COL_STAT (R341). -/
  | colStat (vd va : BitVec 7)
  /-- PREFIX (R66). -/
  | pfx (pred : BitVec 3) (mz : Bool) (rnd : BitVec 3) (vc : BitVec 7) (neg : Bool)
  /-- G_ADD_I64 (R149). -/
  | gAddI64 (gd ga gb : BitVec 6)
  /-- G_SUB_I64 (R149). -/
  | gSubI64 (gd ga gb : BitVec 6)
  /-- G_NEG_I64 (R149). -/
  | gNegI64 (gd ga : BitVec 6)
  /-- G_ABS_I64 (R149). -/
  | gAbsI64 (gd ga : BitVec 6)
  /-- G_MUL_I64 (R149). -/
  | gMulI64 (gd ga gb : BitVec 6)
  /-- G_MULHI_I64 (R149). -/
  | gMulhiI64 (gd ga gb : BitVec 6)
  /-- G_MULHI_N64 (R149). -/
  | gMulhiN64 (gd ga gb : BitVec 6)
  /-- G_DIV_I64 (R149). -/
  | gDivI64 (gd ga gb : BitVec 6)
  /-- G_DIV_N64 (R149). -/
  | gDivN64 (gd ga gb : BitVec 6)
  /-- G_REM_I64 (R149). -/
  | gRemI64 (gd ga gb : BitVec 6)
  /-- G_REM_N64 (R149). -/
  | gRemN64 (gd ga gb : BitVec 6)
  /-- G_AND_N64 (R149). -/
  | gAndN64 (gd ga gb : BitVec 6)
  /-- G_OR_N64 (R149). -/
  | gOrN64 (gd ga gb : BitVec 6)
  /-- G_XOR_N64 (R149). -/
  | gXorN64 (gd ga gb : BitVec 6)
  /-- G_ANDN_N64 (R149). -/
  | gAndnN64 (gd ga gb : BitVec 6)
  /-- G_NOT_N64 (R149). -/
  | gNotN64 (gd ga : BitVec 6)
  /-- G_SHL_N64 (R149). -/
  | gShlN64 (gd ga gb : BitVec 6)
  /-- G_SHR_N64 (R149). -/
  | gShrN64 (gd ga gb : BitVec 6)
  /-- G_SHR_I64 (R149). -/
  | gShrI64 (gd ga gb : BitVec 6)
  /-- G_ROL_N64 (R149). -/
  | gRolN64 (gd ga gb : BitVec 6)
  /-- G_ROR_N64 (R149). -/
  | gRorN64 (gd ga gb : BitVec 6)
  /-- G_SET_EQ_I64 (R149). -/
  | gSetEqI64 (gd ga gb : BitVec 6)
  /-- G_SET_NE_I64 (R149). -/
  | gSetNeI64 (gd ga gb : BitVec 6)
  /-- G_SET_LT_I64 (R149). -/
  | gSetLtI64 (gd ga gb : BitVec 6)
  /-- G_SET_LE_I64 (R149). -/
  | gSetLeI64 (gd ga gb : BitVec 6)
  /-- G_SET_LT_N64 (R149). -/
  | gSetLtN64 (gd ga gb : BitVec 6)
  /-- G_SET_LE_N64 (R149). -/
  | gSetLeN64 (gd ga gb : BitVec 6)
  /-- G_MIN_I64 (R149). -/
  | gMinI64 (gd ga gb : BitVec 6)
  /-- G_MAX_I64 (R149). -/
  | gMaxI64 (gd ga gb : BitVec 6)
  /-- G_MIN_N64 (R149). -/
  | gMinN64 (gd ga gb : BitVec 6)
  /-- G_MAX_N64 (R149). -/
  | gMaxN64 (gd ga gb : BitVec 6)
  /-- G_MOV_N64 (R149). -/
  | gMovN64 (gd ga : BitVec 6)
  /-- G_MOVNZ_N64 (R149). -/
  | gMovnzN64 (gd ga gb : BitVec 6)
  /-- G_MOVZ_N64 (R149). -/
  | gMovzN64 (gd ga gb : BitVec 6)
  /-- G_POPC_N64 (R149). -/
  | gPopcN64 (gd ga : BitVec 6)
  /-- G_CLZ_N64 (R149). -/
  | gClzN64 (gd ga : BitVec 6)
  /-- G_CTZ_N64 (R149). -/
  | gCtzN64 (gd ga : BitVec 6)
  /-- G_BREV_N64 (R149). -/
  | gBrevN64 (gd ga : BitVec 6)
  /-- G_ADD_I64_IMM (R150). -/
  | gAddI64Imm (gd : BitVec 6) (imm : BitVec 16)
  /-- G_MUL_I64_IMM (R150). -/
  | gMulI64Imm (gd : BitVec 6) (imm : BitVec 16)
  /-- G_MIN_I64_IMM (R150). -/
  | gMinI64Imm (gd : BitVec 6) (imm : BitVec 16)
  /-- G_MAX_I64_IMM (R150). -/
  | gMaxI64Imm (gd : BitVec 6) (imm : BitVec 16)
  /-- G_AND_N64_IMM (R150). -/
  | gAndN64Imm (gd : BitVec 6) (imm : BitVec 16)
  /-- G_OR_N64_IMM (R150). -/
  | gOrN64Imm (gd : BitVec 6) (imm : BitVec 16)
  /-- G_XOR_N64_IMM (R150). -/
  | gXorN64Imm (gd : BitVec 6) (imm : BitVec 16)
  /-- G_AND_I64_IMM (R150). -/
  | gAndI64Imm (gd : BitVec 6) (imm : BitVec 16)
  /-- G_SHL_N64_IMM (R150). -/
  | gShlN64Imm (gd : BitVec 6) (imm : BitVec 16)
  /-- G_SHR_N64_IMM (R150). -/
  | gShrN64Imm (gd : BitVec 6) (imm : BitVec 16)
  /-- G_SHR_I64_IMM (R150). -/
  | gShrI64Imm (gd : BitVec 6) (imm : BitVec 16)
  /-- G_ROL_N64_IMM (R150). -/
  | gRolN64Imm (gd : BitVec 6) (imm : BitVec 16)
  /-- G_MOV_I64_IMM (R150). -/
  | gMovI64Imm (gd : BitVec 6) (imm : BitVec 16)
  /-- G_MOV_N64_IMM (R150). -/
  | gMovN64Imm (gd : BitVec 6) (imm : BitVec 16)
  /-- G_MOVK16 (R150). -/
  | gMovk16 (gd : BitVec 6) (imm : BitVec 16)
  /-- G_MOVK32 (R150). -/
  | gMovk32 (gd : BitVec 6) (imm : BitVec 16)
  /-- G_MOVK48 (R150). -/
  | gMovk48 (gd : BitVec 6) (imm : BitVec 16)
  /-- G_LD_SH (R157). -/
  | gLdSh (gd ga : BitVec 6) (sz : BitVec 2) (la : BitVec 4) (off : BitVec 7)
  /-- G_ST_SH (R157). -/
  | gStSh (gd ga : BitVec 6) (sz : BitVec 2) (off : BitVec 7)
  /-- G_LD_DIE (R157). -/
  | gLdDie (gd ga : BitVec 6) (sz : BitVec 2) (la : BitVec 4) (off : BitVec 7)
  /-- G_ST_DIE (R157). -/
  | gStDie (gd ga : BitVec 6) (sz : BitVec 2) (off : BitVec 7)
  /-- G_BR (R167). -/
  | gBr (cc : BitVec 3) (ga : BitVec 6) (off : BitVec 16)
  /-- G_RDSR (R168). -/
  | gRdsr (gd ga : BitVec 6)
  /-- G_UCONF_CLR (R168). -/
  | gUconfClr
  /-- G_RDV_N32 (R151). -/
  | gRdvN32 (gd ga : BitVec 6)
  /-- G_WRV_N32 (R151). -/
  | gWrvN32 (gd ga : BitVec 6)
  /-- G_WRV_N64 (R151). -/
  | gWrvN64 (gd ga : BitVec 6)
  /-- XSF_VLD (R332). -/
  | xsfVld (nf : BitVec 3) (rs2 rs1 vd : BitVec 5)
  /-- XSF_VST (R332). -/
  | xsfVst (nf : BitVec 3) (rs2 rs1 vd : BitVec 5)
  /-- MMA_ACCEPT (R243). -/
  | mmaAccept (die cluster unit : Nat)
  /-- MMA_COMPLETE (R243). -/
  | mmaComplete (die cluster unit : Nat)
  /-- OVERLAY_FETCH_COMPLETE (R192). -/
  | overlayFetchComplete (die cluster obj group : Nat)
  /-- COPY_ELEMENT_WRITE (R205). -/
  | copyElementWrite (copy elem : Nat)
  /-- PAGE_RESPONSE (R35). -/
  | pageResponse (req : Nat) (success : Bool)
  /-- CPT_ELEMENT_PERFORM (R198). -/
  | cptElementPerform (elem : Nat)
  /-- FAR_ATOMIC_RESPONSE (R210). -/
  | farAtomicResponse (req : Nat)
  /-- ATOMICOP_UR_COMPLETION (R211). -/
  | atomicopUrCompletion (req : Nat)
  /-- ATS_INVALIDATION (R33). -/
  | atsInvalidation (pasid page bytes : Nat)
  /-- FLEETING_TICK (R214). -/
  | fleetingTick
  /-- CREW_START (R282). -/
  | crewStart (launch die cluster : Nat) (node : Option Nat) (homes : List Nat)
  /-- LAUNCH_COMPLETE (R279). -/
  | launchComplete (launch : Nat)
  /-- NODE_FLUSH_TIMER (R295). -/
  | nodeFlushTimer (launch die node cluster : Nat) (homes : List Nat)
  /-- CHURN_MOVE (R290). -/
  | churnMove (launch die queue : Nat)
  /-- PULL_RESUME (R267). -/
  | pullResume (crew stack : Nat)
  /-- SLICE_EXPIRY (R298). -/
  | sliceExpiry
  /-- SAVE_DRAIN_COMPLETE (R301). -/
  | saveDrainComplete (crew : Nat)
  /-- DRAIN_LIMIT_EXPIRY (R301). -/
  | drainLimitExpiry (crew : Nat)
  /-- RESTORE_INSTALL (R308). -/
  | restoreInstall (ctx saved die cluster : Nat) (homes : List Nat)
  /-- HOST_LINK_TRAIN (R313). -/
  | hostLinkTrain (cxl : Bool)
  /-- SLOT_TAKE (R315). -/
  | slotTake (fn : Nat)
  /-- CTX_NEW (R318). -/
  | ctxNew (fn slot : Nat)
  /-- CTX_END (R318). -/
  | ctxEnd (fn slot : Nat)
  /-- MAP (R366). -/
  | map (fn slot : Nat)
  /-- UNMAP (R366). -/
  | unmap (fn slot : Nat)
  /-- LOAD (R189). -/
  | load (fn slot : Nat)
  /-- UNLOAD (R190). -/
  | unload (fn slot : Nat)
  /-- LAUNCH (R277). -/
  | launch (fn slot : Nat)
  /-- QWEIGHT (R277). -/
  | qweight (fn slot : Nat)
  /-- DUTY (R21). -/
  | duty (fn slot : Nat)
  /-- QUANTUM (R297). -/
  | quantum (fn slot : Nat)
  /-- SAVE (R299). -/
  | save (fn slot : Nat)
  /-- RESTORE (R308). -/
  | restore (fn slot : Nat)
  /-- TL_WAIT_RECORD (R318). -/
  | tlWaitRecord (fn slot : Nat)
  /-- TL_READ (R318). -/
  | tlRead (fn slot : Nat)
  /-- WORKER_ADD (R321). -/
  | workerAdd (fn slot : Nat)
  /-- WORKER_DEL (R329). -/
  | workerDel (fn slot : Nat)
  /-- RECORD_COMPLETION (R317). -/
  | recordCompletion (fn slot : Nat)
  /-- CALL_DISPATCH (R326). -/
  | callDispatch (ctx cls : Nat)
  /-- REPLY_PAIL (R326). -/
  | replyPail (fn worker : Nat)
  /-- CALL_DEADLINE (R327). -/
  | callDeadline (call : Nat)
  /-- DUTY_DEADLINE (R22). -/
  | dutyDeadline (req : Nat)
  /-- COL_TRANSFER_RECEIVE (R339); `gen` is GID and GEN, which name the generation. -/
  | colTransferReceive (ctx : Nat) (gen : BitVec 32 × BitVec 32) (src dst kind k unitIx len op : Nat) (data : List (BitVec 8))
  /-- COL_TIMEOUT_EXPIRY (R340). -/
  | colTimeoutExpiry (colop : Nat)
  /-- ABORT_FLIT (R340). -/
  | abortFlit (gid gen : BitVec 32)
  /-- GANG_ACK (R342). -/
  | gangAck (gang member : Nat)
  /-- GANG_WINDOW_EXPIRY (R342). -/
  | gangWindowExpiry (gang : Nat)
  /-- GANG_FAIL_FLIT (R342). -/
  | gangFailFlit (gang member : Nat)
  /-- BUDGET_TICK (R343). -/
  | budgetTick (draw : Nat)
  /-- BUDGET_MESSAGE (R343). -/
  | budgetMessage (msg : BitVec 128)
  /-- POWER_CONTROL_APPLY (R359). -/
  | powerControlApply (die cluster : Nat) (ratios : List Nat) (passes : Nat)
  /-- BALLAST_STEP (R360). -/
  | ballastStep (die cluster unit rate : Nat)
  /-- FLIT_CRC_REPLAY (R335). -/
  | flitCrcReplay (port : Nat)
  /-- LANE_FAILURE (R336). -/
  | laneFailure (port : Nat)
  /-- HOST_LINK_DOWN (R348). -/
  | hostLinkDown
  /-- MODULE_RESET (R362). -/
  | moduleReset
  /-- POD_IMAGE_RECEIVE (R363). -/
  | podImageReceive (port stage : Nat) (image : List (BitVec 8))
  /-- PARENT_SILENCE_TIMEOUT (R363). -/
  | parentSilenceTimeout
  /-- ATTEST_QUOTE (R364). -/
  | attestQuote (nonce : BitVec 256)
  /-- CLUSTER_WAKE (R356). -/
  | clusterWake (die cluster : Nat) (passed : Bool)
  /-- UNASSIGNED_ENCODING (R75). -/
  | unassignedEncoding (word : BitVec 32)
  /-- HOST_ACCESS (R320). -/
  | hostAccess (ctx addr : Nat) (write : Bool) (data : List (BitVec 8))
  /-- PEER_REQUEST (R210). -/
  | peerRequest (port addr kind aop : Nat) (wide : Bool) (x c : BitVec 64) (data : List (BitVec 8))
  /-- ATS_COMPLETION (R35). -/
  | atsCompletion (req : Nat) (success : Bool)
  /-- UNRECOVERED_LINK (R345). -/
  | unrecoveredLink
  /-- RECEIVER_CONFIRMATION (R339). -/
  | receiverConfirmation (colop : Nat)
  /-- GANGBAR_ARRIVAL (R342). -/
  | gangbarArrival (gang member : Nat)
  /-- IMAGE_REQUEST (R363). -/
  | imageRequest (port stage : Nat)
deriving DecidableEq, Repr

end Sys2Proof
end

