-- ==== Sys2Proof/WellFormed.lean ====
section
/-! DEFINITION. Which terms of Instr stand for a word of the chapters: the operand values that an encoding admits. -/

namespace Sys2Proof

/-- What carries an instruction out: a thread-engine word, an attendant core's custom word, or an event of an engine
(an opcode-table row without bits). -/
inductive InstrKind where
  | thread
  | attendant
  | event
deriving DecidableEq, Repr

/-- The kind of each instruction. -/
def Instr.kind : Instr → InstrKind
  | .addI32 _ _ _ _ => .thread
  | .subI32 _ _ _ _ => .thread
  | .negI32 _ _ _ => .thread
  | .absI32 _ _ _ => .thread
  | .avgI32 _ _ _ _ => .thread
  | .avgN32 _ _ _ _ => .thread
  | .adiffI32 _ _ _ _ => .thread
  | .adiffN32 _ _ _ _ => .thread
  | .addI64 _ _ _ _ => .thread
  | .subI64 _ _ _ _ => .thread
  | .negI64 _ _ _ => .thread
  | .absI64 _ _ _ => .thread
  | .addwI64I32 _ _ _ _ => .thread
  | .addwN64N32 _ _ _ _ => .thread
  | .addsatI32 _ _ _ _ => .thread
  | .subsatI32 _ _ _ _ => .thread
  | .addsatN32 _ _ _ _ => .thread
  | .subsatN32 _ _ _ _ => .thread
  | .negsatI32 _ _ _ => .thread
  | .abssatI32 _ _ _ => .thread
  | .mulI32 _ _ _ _ => .thread
  | .mulhiI32 _ _ _ _ => .thread
  | .mulhiN32 _ _ _ _ => .thread
  | .madI32 _ _ _ _ => .thread
  | .mulwI32 _ _ _ _ => .thread
  | .mulwN32 _ _ _ _ => .thread
  | .divI32 _ _ _ _ => .thread
  | .divN32 _ _ _ _ => .thread
  | .remI32 _ _ _ _ => .thread
  | .remN32 _ _ _ _ => .thread
  | .divI64 _ _ _ _ => .thread
  | .divN64 _ _ _ _ => .thread
  | .remI64 _ _ _ _ => .thread
  | .remN64 _ _ _ _ => .thread
  | .minI32 _ _ _ _ => .thread
  | .maxI32 _ _ _ _ => .thread
  | .minN32 _ _ _ _ => .thread
  | .maxN32 _ _ _ _ => .thread
  | .minI64 _ _ _ _ => .thread
  | .maxI64 _ _ _ _ => .thread
  | .minN64 _ _ _ _ => .thread
  | .maxN64 _ _ _ _ => .thread
  | .andN32 _ _ _ _ => .thread
  | .orN32 _ _ _ _ => .thread
  | .xorN32 _ _ _ _ => .thread
  | .andnN32 _ _ _ _ => .thread
  | .ornN32 _ _ _ _ => .thread
  | .xnorN32 _ _ _ _ => .thread
  | .notN32 _ _ _ => .thread
  | .shlN32 _ _ _ _ => .thread
  | .shrN32 _ _ _ _ => .thread
  | .shrI32 _ _ _ _ => .thread
  | .rolN32 _ _ _ _ => .thread
  | .rorN32 _ _ _ _ => .thread
  | .popcN32 _ _ _ => .thread
  | .clzN32 _ _ _ => .thread
  | .ctzN32 _ _ _ => .thread
  | .brevN32 _ _ _ => .thread
  | .bswapN32 _ _ _ => .thread
  | .popcN64 _ _ _ => .thread
  | .clzN64 _ _ _ => .thread
  | .bfeN32 _ _ _ _ => .thread
  | .bfeI32 _ _ _ _ => .thread
  | .bfiN32 _ _ _ _ => .thread
  | .cmpI32 _ _ _ _ => .thread
  | .selN32 _ _ _ _ _ => .thread
  | .movN32 _ _ _ => .thread
  | .shaddN32 _ _ _ _ _ => .thread
  | .shaddN64 _ _ _ _ _ => .thread
  | .addI16 _ _ _ _ => .thread
  | .subI16 _ _ _ _ => .thread
  | .addI8 _ _ _ _ => .thread
  | .subI8 _ _ _ _ => .thread
  | .addsatI16 _ _ _ _ => .thread
  | .subsatI16 _ _ _ _ => .thread
  | .addsatN8 _ _ _ _ => .thread
  | .dotI8 _ _ _ _ => .thread
  | .pand _ _ _ => .thread
  | .por _ _ _ => .thread
  | .pxor _ _ _ => .thread
  | .pandn _ _ _ => .thread
  | .pnot _ _ => .thread
  | .ptovN32 _ _ => .thread
  | .vtopN32 _ => .thread
  | .mulI64 _ _ _ _ => .thread
  | .shlN64 _ _ _ _ => .thread
  | .shrN64 _ _ _ _ => .thread
  | .shrI64 _ _ _ _ => .thread
  | .cmpEqI64 _ _ _ => .thread
  | .cmpLtI64 _ _ _ => .thread
  | .cmpLtN64 _ _ _ => .thread
  | .movN64 _ _ _ => .thread
  | .addI32Imm _ _ => .thread
  | .addI64Imm _ _ => .thread
  | .addsatI32Imm _ _ => .thread
  | .addsatN32Imm _ _ => .thread
  | .andN32Imm _ _ => .thread
  | .orN32Imm _ _ => .thread
  | .xorN32Imm _ _ => .thread
  | .shlN32Imm _ _ => .thread
  | .shrN32Imm _ _ => .thread
  | .shrI32Imm _ _ => .thread
  | .rorN32Imm _ _ => .thread
  | .setEqI32 _ _ => .thread
  | .setNeI32 _ _ => .thread
  | .setLtI32 _ _ => .thread
  | .setLtN32 _ _ => .thread
  | .movlN32 _ _ => .thread
  | .movhN32 _ _ => .thread
  | .movI32Imm _ _ => .thread
  | .movN32Imm _ _ => .thread
  | .mulI32Imm _ _ => .thread
  | .mulI64Imm _ _ => .thread
  | .minI32Imm _ _ => .thread
  | .maxI32Imm _ _ => .thread
  | .minN32Imm _ _ => .thread
  | .maxN32Imm _ _ => .thread
  | .faddF32 _ _ _ _ => .thread
  | .fsubF32 _ _ _ _ => .thread
  | .fmulF32 _ _ _ _ => .thread
  | .fmaF32 _ _ _ _ => .thread
  | .fmsF32 _ _ _ _ => .thread
  | .fnmaF32 _ _ _ _ => .thread
  | .fminF32 _ _ _ _ => .thread
  | .fmaxF32 _ _ _ _ => .thread
  | .fcmpF32 _ _ _ _ => .thread
  | .faddF64 _ _ _ _ => .thread
  | .fsubF64 _ _ _ _ => .thread
  | .fmulF64 _ _ _ _ => .thread
  | .fmaF64 _ _ _ _ => .thread
  | .fmsF64 _ _ _ _ => .thread
  | .fnmaF64 _ _ _ _ => .thread
  | .fminF64 _ _ _ _ => .thread
  | .fmaxF64 _ _ _ _ => .thread
  | .fcmpF64 _ _ _ _ => .thread
  | .faddF16 _ _ _ _ => .thread
  | .fmulF16 _ _ _ _ => .thread
  | .fmaF16 _ _ _ _ => .thread
  | .faddBf16 _ _ _ _ => .thread
  | .fmulBf16 _ _ _ _ => .thread
  | .fmaBf16 _ _ _ _ => .thread
  | .fmaxF16 _ _ _ _ => .thread
  | .fmaxBf16 _ _ _ _ => .thread
  | .faddE4m3 _ _ _ _ => .thread
  | .fmulE4m3 _ _ _ _ => .thread
  | .faddE5m2 _ _ _ _ => .thread
  | .fmulE5m2 _ _ _ _ => .thread
  | .fdotF32E4m3 _ _ _ _ => .thread
  | .fdotF32E5m2 _ _ _ _ => .thread
  | .cvtF16E4m3 _ _ _ => .thread
  | .cvtF16E5m2 _ _ _ => .thread
  | .fdivF32 _ _ _ _ => .thread
  | .fsqrtF32 _ _ _ => .thread
  | .rcpF32 _ _ _ => .thread
  | .rsqrtF32 _ _ _ => .thread
  | .exp2F32 _ _ _ => .thread
  | .log2F32 _ _ _ => .thread
  | .sinpiF32 _ _ _ => .thread
  | .cospiF32 _ _ _ => .thread
  | .fdivF64 _ _ _ _ => .thread
  | .fsqrtF64 _ _ _ => .thread
  | .fabsF32 _ _ _ => .thread
  | .fnegF32 _ _ _ => .thread
  | .fcopysignF32 _ _ _ _ => .thread
  | .fclassF32 _ _ _ => .thread
  | .fabsF64 _ _ _ => .thread
  | .fnegF64 _ _ _ => .thread
  | .fcopysignF64 _ _ _ _ => .thread
  | .fclassF64 _ _ _ => .thread
  | .faddF32Imm _ _ => .thread
  | .fmulF32Imm _ _ => .thread
  | .fmaxF32Imm _ _ => .thread
  | .fminF32Imm _ _ => .thread
  | .faddF64Imm _ _ => .thread
  | .fmulF64Imm _ _ => .thread
  | .fmaxF64Imm _ _ => .thread
  | .fminF64Imm _ _ => .thread
  | .fmulF16Imm _ _ => .thread
  | .fmulBf16Imm _ _ => .thread
  | .fmulE4m3Imm _ _ => .thread
  | .fmulE5m2Imm _ _ => .thread
  | .cvtF32I32 _ _ _ => .thread
  | .cvtF32N32 _ _ _ => .thread
  | .cvtI32F32 _ _ _ => .thread
  | .cvtN32F32 _ _ _ => .thread
  | .cvtF64I64 _ _ _ => .thread
  | .cvtI64F64 _ _ _ => .thread
  | .cvtF64I32 _ _ _ => .thread
  | .cvtI32F64 _ _ _ => .thread
  | .cvtF64F32 _ _ _ => .thread
  | .cvtF32F64 _ _ _ => .thread
  | .cvtF32F16 _ _ _ => .thread
  | .cvtF16F32 _ _ _ => .thread
  | .cvtF32Bf16 _ _ _ => .thread
  | .cvtBf16F32 _ _ _ => .thread
  | .cvtE4m3F32 _ _ _ _ => .thread
  | .cvtE5m2F32 _ _ _ _ => .thread
  | .cvtSx2F32 _ _ => .thread
  | .cvtSx4F32 _ _ => .thread
  | .cvtSx7F32 _ _ => .thread
  | .cvtF32Sx2 _ _ => .thread
  | .cvtF32Sx4 _ _ => .thread
  | .cvtF32Sx7 _ _ => .thread
  | .xlIdxN32 _ _ _ _ => .thread
  | .xlXorN32 _ _ _ _ => .thread
  | .xlUpN32 _ _ _ _ => .thread
  | .xlDownN32 _ _ _ _ => .thread
  | .xlIdxN64 _ _ _ _ => .thread
  | .xlBallotN64 _ _ _ => .thread
  | .xlAddI32 _ _ _ => .thread
  | .ldStk _ _ _ _ _ => .thread
  | .stStk _ _ _ _ => .thread
  | .ldSh _ _ _ _ _ => .thread
  | .stSh _ _ _ _ => .thread
  | .ldDie _ _ _ _ _ => .thread
  | .stDie _ _ _ _ => .thread
  | .ldFl _ _ _ _ _ => .thread
  | .stFl _ _ _ _ => .thread
  | .ldAcq _ _ _ _ _ => .thread
  | .stRel _ _ _ _ => .thread
  | .stNt _ _ _ _ => .thread
  | .atomAdd _ _ _ _ _ _ => .thread
  | .atomAnd _ _ _ _ _ _ => .thread
  | .atomOr _ _ _ _ _ _ => .thread
  | .atomXor _ _ _ _ _ _ => .thread
  | .atomMinI _ _ _ _ _ _ => .thread
  | .atomMaxI _ _ _ _ _ _ => .thread
  | .atomMinN _ _ _ _ _ _ => .thread
  | .atomMaxN _ _ _ _ _ _ => .thread
  | .atomExch _ _ _ _ _ _ => .thread
  | .atomCas _ _ _ _ _ _ => .thread
  | .br _ _ => .thread
  | .call _ => .thread
  | .loopBr _ _ => .thread
  | .nop => .thread
  | .ret => .thread
  | .brInd _ => .thread
  | .callInd _ => .thread
  | .rgn _ _ => .thread
  | .ixSet _ _ => .thread
  | .ixGet _ _ _ => .thread
  | .rotSet _ _ => .thread
  | .fence _ => .thread
  | .ntDrain => .thread
  | .srRd _ _ _ => .thread
  | .spGet _ _ => .thread
  | .spSet _ => .thread
  | .tbJoin _ => .thread
  | .tbSign _ _ _ => .thread
  | .tbWait _ _ => .thread
  | .weld _ => .thread
  | .ltArrive _ => .thread
  | .ltWait _ _ => .thread
  | .ltPhase _ _ _ => .thread
  | .tlWait _ _ _ => .thread
  | .tlRd _ _ _ => .thread
  | .barCrew => .thread
  | .unjoin _ _ _ => .thread
  | .endThread => .thread
  | .trap _ _ => .thread
  | .tret => .thread
  | .cpT _ _ _ => .thread
  | .cpWait _ => .thread
  | .cpCnt _ _ _ => .thread
  | .cpWaitAll => .thread
  | .kick _ => .thread
  | .kickN _ _ _ => .thread
  | .atomFarAdd _ _ _ _ _ _ => .thread
  | .atomFarAnd _ _ _ _ _ _ => .thread
  | .atomFarOr _ _ _ _ _ _ => .thread
  | .atomFarXor _ _ _ _ _ _ => .thread
  | .atomFarMinI _ _ _ _ _ _ => .thread
  | .atomFarMaxI _ _ _ _ _ _ => .thread
  | .atomFarMinN _ _ _ _ _ _ => .thread
  | .atomFarMaxN _ _ _ _ _ _ => .thread
  | .atomFarExch _ _ _ _ _ _ => .thread
  | .atomFarCas _ _ _ _ _ _ => .thread
  | .flBirth _ => .thread
  | .flBirthZ _ => .thread
  | .flRenew _ => .thread
  | .flLife _ _ _ => .thread
  | .flFree _ => .thread
  | .flStat _ _ _ => .thread
  | .flStatClr _ _ => .thread
  | .mma _ _ _ _ _ => .thread
  | .mmaZero _ _ _ _ _ => .thread
  | .mxLease _ _ _ => .thread
  | .mxRelease => .thread
  | .obResv _ _ => .thread
  | .obFree _ => .thread
  | .obLd _ _ _ => .thread
  | .accRd _ _ _ => .thread
  | .accWait _ _ => .thread
  | .mxFreeze _ => .thread
  | .mxThaw _ => .thread
  | .accDrain _ _ _ => .thread
  | .accFill _ _ _ => .thread
  | .obDrain _ _ _ => .thread
  | .obFill _ _ _ => .thread
  | .itRange _ _ => .thread
  | .itList _ _ => .thread
  | .itBits _ _ => .thread
  | .itQueue _ _ => .thread
  | .itMap _ _ => .thread
  | .itFilter _ _ => .thread
  | .itZip _ _ => .thread
  | .itChain _ _ => .thread
  | .itFlat _ _ => .thread
  | .itNext _ _ _ _ => .thread
  | .itEnough _ => .thread
  | .itFree _ => .thread
  | .itStat _ _ _ => .thread
  | .itRd _ _ _ => .thread
  | .qPush _ _ => .thread
  | .qPushNb _ _ => .thread
  | .qPop _ _ _ => .thread
  | .qPopNb _ _ _ => .thread
  | .qStat _ _ _ => .thread
  | .emit _ _ => .thread
  | .hcall _ _ => .thread
  | .colSend _ _ => .thread
  | .colRecv _ _ => .thread
  | .colRed _ _ => .thread
  | .colGangbar => .thread
  | .colAbort _ => .thread
  | .colStat _ _ => .thread
  | .pfx _ _ _ _ _ => .thread
  | .gAddI64 _ _ _ => .thread
  | .gSubI64 _ _ _ => .thread
  | .gNegI64 _ _ => .thread
  | .gAbsI64 _ _ => .thread
  | .gMulI64 _ _ _ => .thread
  | .gMulhiI64 _ _ _ => .thread
  | .gMulhiN64 _ _ _ => .thread
  | .gDivI64 _ _ _ => .thread
  | .gDivN64 _ _ _ => .thread
  | .gRemI64 _ _ _ => .thread
  | .gRemN64 _ _ _ => .thread
  | .gAndN64 _ _ _ => .thread
  | .gOrN64 _ _ _ => .thread
  | .gXorN64 _ _ _ => .thread
  | .gAndnN64 _ _ _ => .thread
  | .gNotN64 _ _ => .thread
  | .gShlN64 _ _ _ => .thread
  | .gShrN64 _ _ _ => .thread
  | .gShrI64 _ _ _ => .thread
  | .gRolN64 _ _ _ => .thread
  | .gRorN64 _ _ _ => .thread
  | .gSetEqI64 _ _ _ => .thread
  | .gSetNeI64 _ _ _ => .thread
  | .gSetLtI64 _ _ _ => .thread
  | .gSetLeI64 _ _ _ => .thread
  | .gSetLtN64 _ _ _ => .thread
  | .gSetLeN64 _ _ _ => .thread
  | .gMinI64 _ _ _ => .thread
  | .gMaxI64 _ _ _ => .thread
  | .gMinN64 _ _ _ => .thread
  | .gMaxN64 _ _ _ => .thread
  | .gMovN64 _ _ => .thread
  | .gMovnzN64 _ _ _ => .thread
  | .gMovzN64 _ _ _ => .thread
  | .gPopcN64 _ _ => .thread
  | .gClzN64 _ _ => .thread
  | .gCtzN64 _ _ => .thread
  | .gBrevN64 _ _ => .thread
  | .gAddI64Imm _ _ => .thread
  | .gMulI64Imm _ _ => .thread
  | .gMinI64Imm _ _ => .thread
  | .gMaxI64Imm _ _ => .thread
  | .gAndN64Imm _ _ => .thread
  | .gOrN64Imm _ _ => .thread
  | .gXorN64Imm _ _ => .thread
  | .gAndI64Imm _ _ => .thread
  | .gShlN64Imm _ _ => .thread
  | .gShrN64Imm _ _ => .thread
  | .gShrI64Imm _ _ => .thread
  | .gRolN64Imm _ _ => .thread
  | .gMovI64Imm _ _ => .thread
  | .gMovN64Imm _ _ => .thread
  | .gMovk16 _ _ => .thread
  | .gMovk32 _ _ => .thread
  | .gMovk48 _ _ => .thread
  | .gLdSh _ _ _ _ _ => .thread
  | .gStSh _ _ _ _ => .thread
  | .gLdDie _ _ _ _ _ => .thread
  | .gStDie _ _ _ _ => .thread
  | .gBr _ _ _ => .thread
  | .gRdsr _ _ => .thread
  | .gUconfClr => .thread
  | .gRdvN32 _ _ => .thread
  | .gWrvN32 _ _ => .thread
  | .gWrvN64 _ _ => .thread
  | .xsfVld _ _ _ _ => .attendant
  | .xsfVst _ _ _ _ => .attendant
  | .mmaAccept _ _ _ => .event
  | .mmaComplete _ _ _ => .event
  | .overlayFetchComplete _ _ _ _ => .event
  | .copyElementWrite _ _ => .event
  | .pageResponse _ _ => .event
  | .cptElementPerform _ => .event
  | .farAtomicResponse _ => .event
  | .atomicopUrCompletion _ => .event
  | .atsInvalidation _ _ _ => .event
  | .fleetingTick => .event
  | .crewStart _ _ _ _ _ => .event
  | .launchComplete _ => .event
  | .nodeFlushTimer _ _ _ _ _ => .event
  | .churnMove _ _ _ => .event
  | .pullResume _ _ => .event
  | .sliceExpiry => .event
  | .saveDrainComplete _ => .event
  | .drainLimitExpiry _ => .event
  | .restoreInstall _ _ _ _ _ => .event
  | .hostLinkTrain _ => .event
  | .slotTake _ => .event
  | .ctxNew _ _ => .event
  | .ctxEnd _ _ => .event
  | .map _ _ => .event
  | .unmap _ _ => .event
  | .load _ _ => .event
  | .unload _ _ => .event
  | .launch _ _ => .event
  | .qweight _ _ => .event
  | .duty _ _ => .event
  | .quantum _ _ => .event
  | .save _ _ => .event
  | .restore _ _ => .event
  | .tlWaitRecord _ _ => .event
  | .tlRead _ _ => .event
  | .workerAdd _ _ => .event
  | .workerDel _ _ => .event
  | .recordCompletion _ _ => .event
  | .callDispatch _ _ => .event
  | .replyPail _ _ => .event
  | .callDeadline _ => .event
  | .dutyDeadline _ => .event
  | .colTransferReceive _ _ _ _ _ _ _ _ _ _ => .event
  | .colTimeoutExpiry _ => .event
  | .abortFlit _ _ => .event
  | .gangAck _ _ => .event
  | .gangWindowExpiry _ => .event
  | .gangFailFlit _ _ => .event
  | .budgetTick _ => .event
  | .budgetMessage _ => .event
  | .powerControlApply _ _ _ _ => .event
  | .ballastStep _ _ _ _ => .event
  | .flitCrcReplay _ => .event
  | .laneFailure _ => .event
  | .hostLinkDown => .event
  | .moduleReset => .event
  | .podImageReceive _ _ _ => .event
  | .parentSilenceTimeout => .event
  | .attestQuote _ => .event
  | .clusterWake _ _ _ => .event
  | .unassignedEncoding _ => .event
  | .hostAccess _ _ _ _ => .event
  | .peerRequest _ _ _ _ _ _ _ _ => .event
  | .atsCompletion _ _ => .event
  | .unrecoveredLink => .event
  | .receiverConfirmation _ => .event
  | .gangbarArrival _ _ => .event
  | .imageRequest _ _ => .event

/-- The field values that the chapters admit whatever the state: sp = 00 is reserved and st.nt reaches only sh and
die (R62); cond 0xF is no br and no loop (R72); the scope codes of R166 and R172; the system registers of Table 8.2;
the uniform conditions of R71; sel on p7 with vb = 0 is written mov.n32 (R136). Every other field of a constructor
admits every value of its width; what depends on the register budget or on the state is checked at execution. -/
def Instr.wellFormed : Instr → Bool
  | .addI32 _ _ _ _ => true
  | .subI32 _ _ _ _ => true
  | .negI32 _ _ _ => true
  | .absI32 _ _ _ => true
  | .avgI32 _ _ _ _ => true
  | .avgN32 _ _ _ _ => true
  | .adiffI32 _ _ _ _ => true
  | .adiffN32 _ _ _ _ => true
  | .addI64 _ _ _ _ => true
  | .subI64 _ _ _ _ => true
  | .negI64 _ _ _ => true
  | .absI64 _ _ _ => true
  | .addwI64I32 _ _ _ _ => true
  | .addwN64N32 _ _ _ _ => true
  | .addsatI32 _ _ _ _ => true
  | .subsatI32 _ _ _ _ => true
  | .addsatN32 _ _ _ _ => true
  | .subsatN32 _ _ _ _ => true
  | .negsatI32 _ _ _ => true
  | .abssatI32 _ _ _ => true
  | .mulI32 _ _ _ _ => true
  | .mulhiI32 _ _ _ _ => true
  | .mulhiN32 _ _ _ _ => true
  | .madI32 _ _ _ _ => true
  | .mulwI32 _ _ _ _ => true
  | .mulwN32 _ _ _ _ => true
  | .divI32 _ _ _ _ => true
  | .divN32 _ _ _ _ => true
  | .remI32 _ _ _ _ => true
  | .remN32 _ _ _ _ => true
  | .divI64 _ _ _ _ => true
  | .divN64 _ _ _ _ => true
  | .remI64 _ _ _ _ => true
  | .remN64 _ _ _ _ => true
  | .minI32 _ _ _ _ => true
  | .maxI32 _ _ _ _ => true
  | .minN32 _ _ _ _ => true
  | .maxN32 _ _ _ _ => true
  | .minI64 _ _ _ _ => true
  | .maxI64 _ _ _ _ => true
  | .minN64 _ _ _ _ => true
  | .maxN64 _ _ _ _ => true
  | .andN32 _ _ _ _ => true
  | .orN32 _ _ _ _ => true
  | .xorN32 _ _ _ _ => true
  | .andnN32 _ _ _ _ => true
  | .ornN32 _ _ _ _ => true
  | .xnorN32 _ _ _ _ => true
  | .notN32 _ _ _ => true
  | .shlN32 _ _ _ _ => true
  | .shrN32 _ _ _ _ => true
  | .shrI32 _ _ _ _ => true
  | .rolN32 _ _ _ _ => true
  | .rorN32 _ _ _ _ => true
  | .popcN32 _ _ _ => true
  | .clzN32 _ _ _ => true
  | .ctzN32 _ _ _ => true
  | .brevN32 _ _ _ => true
  | .bswapN32 _ _ _ => true
  | .popcN64 _ _ _ => true
  | .clzN64 _ _ _ => true
  | .bfeN32 _ _ _ _ => true
  | .bfeI32 _ _ _ _ => true
  | .bfiN32 _ _ _ _ => true
  | .cmpI32 _ _ _ _ => true
  | .selN32 _ _ vb pk _ => decide (¬ (pk = 7#3 ∧ vb = 0#7))
  | .movN32 _ _ _ => true
  | .shaddN32 _ _ _ _ _ => true
  | .shaddN64 _ _ _ _ _ => true
  | .addI16 _ _ _ _ => true
  | .subI16 _ _ _ _ => true
  | .addI8 _ _ _ _ => true
  | .subI8 _ _ _ _ => true
  | .addsatI16 _ _ _ _ => true
  | .subsatI16 _ _ _ _ => true
  | .addsatN8 _ _ _ _ => true
  | .dotI8 _ _ _ _ => true
  | .pand _ _ _ => true
  | .por _ _ _ => true
  | .pxor _ _ _ => true
  | .pandn _ _ _ => true
  | .pnot _ _ => true
  | .ptovN32 _ _ => true
  | .vtopN32 _ => true
  | .mulI64 _ _ _ _ => true
  | .shlN64 _ _ _ _ => true
  | .shrN64 _ _ _ _ => true
  | .shrI64 _ _ _ _ => true
  | .cmpEqI64 _ _ _ => true
  | .cmpLtI64 _ _ _ => true
  | .cmpLtN64 _ _ _ => true
  | .movN64 _ _ _ => true
  | .addI32Imm _ _ => true
  | .addI64Imm _ _ => true
  | .addsatI32Imm _ _ => true
  | .addsatN32Imm _ _ => true
  | .andN32Imm _ _ => true
  | .orN32Imm _ _ => true
  | .xorN32Imm _ _ => true
  | .shlN32Imm _ _ => true
  | .shrN32Imm _ _ => true
  | .shrI32Imm _ _ => true
  | .rorN32Imm _ _ => true
  | .setEqI32 _ _ => true
  | .setNeI32 _ _ => true
  | .setLtI32 _ _ => true
  | .setLtN32 _ _ => true
  | .movlN32 _ _ => true
  | .movhN32 _ _ => true
  | .movI32Imm _ _ => true
  | .movN32Imm _ _ => true
  | .mulI32Imm _ _ => true
  | .mulI64Imm _ _ => true
  | .minI32Imm _ _ => true
  | .maxI32Imm _ _ => true
  | .minN32Imm _ _ => true
  | .maxN32Imm _ _ => true
  | .faddF32 _ _ _ _ => true
  | .fsubF32 _ _ _ _ => true
  | .fmulF32 _ _ _ _ => true
  | .fmaF32 _ _ _ _ => true
  | .fmsF32 _ _ _ _ => true
  | .fnmaF32 _ _ _ _ => true
  | .fminF32 _ _ _ _ => true
  | .fmaxF32 _ _ _ _ => true
  | .fcmpF32 _ _ _ _ => true
  | .faddF64 _ _ _ _ => true
  | .fsubF64 _ _ _ _ => true
  | .fmulF64 _ _ _ _ => true
  | .fmaF64 _ _ _ _ => true
  | .fmsF64 _ _ _ _ => true
  | .fnmaF64 _ _ _ _ => true
  | .fminF64 _ _ _ _ => true
  | .fmaxF64 _ _ _ _ => true
  | .fcmpF64 _ _ _ _ => true
  | .faddF16 _ _ _ _ => true
  | .fmulF16 _ _ _ _ => true
  | .fmaF16 _ _ _ _ => true
  | .faddBf16 _ _ _ _ => true
  | .fmulBf16 _ _ _ _ => true
  | .fmaBf16 _ _ _ _ => true
  | .fmaxF16 _ _ _ _ => true
  | .fmaxBf16 _ _ _ _ => true
  | .faddE4m3 _ _ _ _ => true
  | .fmulE4m3 _ _ _ _ => true
  | .faddE5m2 _ _ _ _ => true
  | .fmulE5m2 _ _ _ _ => true
  | .fdotF32E4m3 _ _ _ _ => true
  | .fdotF32E5m2 _ _ _ _ => true
  | .cvtF16E4m3 _ _ _ => true
  | .cvtF16E5m2 _ _ _ => true
  | .fdivF32 _ _ _ _ => true
  | .fsqrtF32 _ _ _ => true
  | .rcpF32 _ _ _ => true
  | .rsqrtF32 _ _ _ => true
  | .exp2F32 _ _ _ => true
  | .log2F32 _ _ _ => true
  | .sinpiF32 _ _ _ => true
  | .cospiF32 _ _ _ => true
  | .fdivF64 _ _ _ _ => true
  | .fsqrtF64 _ _ _ => true
  | .fabsF32 _ _ _ => true
  | .fnegF32 _ _ _ => true
  | .fcopysignF32 _ _ _ _ => true
  | .fclassF32 _ _ _ => true
  | .fabsF64 _ _ _ => true
  | .fnegF64 _ _ _ => true
  | .fcopysignF64 _ _ _ _ => true
  | .fclassF64 _ _ _ => true
  | .faddF32Imm _ _ => true
  | .fmulF32Imm _ _ => true
  | .fmaxF32Imm _ _ => true
  | .fminF32Imm _ _ => true
  | .faddF64Imm _ _ => true
  | .fmulF64Imm _ _ => true
  | .fmaxF64Imm _ _ => true
  | .fminF64Imm _ _ => true
  | .fmulF16Imm _ _ => true
  | .fmulBf16Imm _ _ => true
  | .fmulE4m3Imm _ _ => true
  | .fmulE5m2Imm _ _ => true
  | .cvtF32I32 _ _ _ => true
  | .cvtF32N32 _ _ _ => true
  | .cvtI32F32 _ _ _ => true
  | .cvtN32F32 _ _ _ => true
  | .cvtF64I64 _ _ _ => true
  | .cvtI64F64 _ _ _ => true
  | .cvtF64I32 _ _ _ => true
  | .cvtI32F64 _ _ _ => true
  | .cvtF64F32 _ _ _ => true
  | .cvtF32F64 _ _ _ => true
  | .cvtF32F16 _ _ _ => true
  | .cvtF16F32 _ _ _ => true
  | .cvtF32Bf16 _ _ _ => true
  | .cvtBf16F32 _ _ _ => true
  | .cvtE4m3F32 _ _ _ _ => true
  | .cvtE5m2F32 _ _ _ _ => true
  | .cvtSx2F32 _ _ => true
  | .cvtSx4F32 _ _ => true
  | .cvtSx7F32 _ _ => true
  | .cvtF32Sx2 _ _ => true
  | .cvtF32Sx4 _ _ => true
  | .cvtF32Sx7 _ _ => true
  | .xlIdxN32 _ _ _ _ => true
  | .xlXorN32 _ _ _ _ => true
  | .xlUpN32 _ _ _ _ => true
  | .xlDownN32 _ _ _ _ => true
  | .xlIdxN64 _ _ _ _ => true
  | .xlBallotN64 _ _ _ => true
  | .xlAddI32 _ _ _ => true
  | .ldStk _ _ _ _ _ => true
  | .stStk _ _ _ _ => true
  | .ldSh _ _ _ _ _ => true
  | .stSh _ _ _ _ => true
  | .ldDie _ _ _ _ _ => true
  | .stDie _ _ _ _ => true
  | .ldFl _ _ _ _ _ => true
  | .stFl _ _ _ _ => true
  | .ldAcq _ _ _ sp _ => decide (sp ≠ 0#2)
  | .stRel _ _ sp _ => decide (sp ≠ 0#2)
  | .stNt _ _ sp _ => decide (sp ≠ 0#2 ∧ sp ≠ 3#2)
  | .atomAdd _ _ _ _ _ sp => decide (sp ≠ 0#2)
  | .atomAnd _ _ _ _ _ sp => decide (sp ≠ 0#2)
  | .atomOr _ _ _ _ _ sp => decide (sp ≠ 0#2)
  | .atomXor _ _ _ _ _ sp => decide (sp ≠ 0#2)
  | .atomMinI _ _ _ _ _ sp => decide (sp ≠ 0#2)
  | .atomMaxI _ _ _ _ _ sp => decide (sp ≠ 0#2)
  | .atomMinN _ _ _ _ _ sp => decide (sp ≠ 0#2)
  | .atomMaxN _ _ _ _ _ sp => decide (sp ≠ 0#2)
  | .atomExch _ _ _ _ _ sp => decide (sp ≠ 0#2)
  | .atomCas _ _ _ _ _ sp => decide (sp ≠ 0#2)
  | .br cc _ => decide (cc ≠ 15#4)
  | .call _ => true
  | .loopBr cc _ => decide (cc ≠ 15#4)
  | .nop => true
  | .ret => true
  | .brInd _ => true
  | .callInd _ => true
  | .rgn _ _ => true
  | .ixSet _ _ => true
  | .ixGet _ _ _ => true
  | .rotSet _ _ => true
  | .fence sc => decide (sc ≠ 0#7 ∧ sc ≤ 5#7)
  | .ntDrain => true
  | .srRd _ sr _ => decide (sr ≤ 11#7)
  | .spGet _ _ => true
  | .spSet _ => true
  | .tbJoin _ => true
  | .tbSign _ _ _ => true
  | .tbWait _ _ => true
  | .weld _ => true
  | .ltArrive _ => true
  | .ltWait _ _ => true
  | .ltPhase _ _ _ => true
  | .tlWait _ sc _ => decide (sc ≤ 5#3)
  | .tlRd _ _ _ => true
  | .barCrew => true
  | .unjoin _ _ _ => true
  | .endThread => true
  | .trap _ _ => true
  | .tret => true
  | .cpT _ _ _ => true
  | .cpWait _ => true
  | .cpCnt _ _ _ => true
  | .cpWaitAll => true
  | .kick _ => true
  | .kickN _ _ _ => true
  | .atomFarAdd _ _ _ _ _ _ => true
  | .atomFarAnd _ _ _ _ _ _ => true
  | .atomFarOr _ _ _ _ _ _ => true
  | .atomFarXor _ _ _ _ _ _ => true
  | .atomFarMinI _ _ _ _ _ _ => true
  | .atomFarMaxI _ _ _ _ _ _ => true
  | .atomFarMinN _ _ _ _ _ _ => true
  | .atomFarMaxN _ _ _ _ _ _ => true
  | .atomFarExch _ _ _ _ _ _ => true
  | .atomFarCas _ _ _ _ _ _ => true
  | .flBirth _ => true
  | .flBirthZ _ => true
  | .flRenew _ => true
  | .flLife _ _ _ => true
  | .flFree _ => true
  | .flStat _ _ _ => true
  | .flStatClr _ _ => true
  | .mma _ _ _ _ _ => true
  | .mmaZero _ _ _ _ _ => true
  | .mxLease _ _ _ => true
  | .mxRelease => true
  | .obResv _ _ => true
  | .obFree _ => true
  | .obLd _ _ _ => true
  | .accRd _ _ _ => true
  | .accWait _ _ => true
  | .mxFreeze _ => true
  | .mxThaw _ => true
  | .accDrain _ _ _ => true
  | .accFill _ _ _ => true
  | .obDrain _ _ _ => true
  | .obFill _ _ _ => true
  | .itRange _ _ => true
  | .itList _ _ => true
  | .itBits _ _ => true
  | .itQueue _ _ => true
  | .itMap _ _ => true
  | .itFilter _ _ => true
  | .itZip _ _ => true
  | .itChain _ _ => true
  | .itFlat _ _ => true
  | .itNext _ _ _ _ => true
  | .itEnough _ => true
  | .itFree _ => true
  | .itStat _ _ _ => true
  | .itRd _ _ _ => true
  | .qPush _ _ => true
  | .qPushNb _ _ => true
  | .qPop _ _ _ => true
  | .qPopNb _ _ _ => true
  | .qStat _ _ _ => true
  | .emit _ _ => true
  | .hcall _ _ => true
  | .colSend _ _ => true
  | .colRecv _ _ => true
  | .colRed _ _ => true
  | .colGangbar => true
  | .colAbort _ => true
  | .colStat _ _ => true
  | .pfx _ _ _ _ _ => true
  | .gAddI64 _ _ _ => true
  | .gSubI64 _ _ _ => true
  | .gNegI64 _ _ => true
  | .gAbsI64 _ _ => true
  | .gMulI64 _ _ _ => true
  | .gMulhiI64 _ _ _ => true
  | .gMulhiN64 _ _ _ => true
  | .gDivI64 _ _ _ => true
  | .gDivN64 _ _ _ => true
  | .gRemI64 _ _ _ => true
  | .gRemN64 _ _ _ => true
  | .gAndN64 _ _ _ => true
  | .gOrN64 _ _ _ => true
  | .gXorN64 _ _ _ => true
  | .gAndnN64 _ _ _ => true
  | .gNotN64 _ _ => true
  | .gShlN64 _ _ _ => true
  | .gShrN64 _ _ _ => true
  | .gShrI64 _ _ _ => true
  | .gRolN64 _ _ _ => true
  | .gRorN64 _ _ _ => true
  | .gSetEqI64 _ _ _ => true
  | .gSetNeI64 _ _ _ => true
  | .gSetLtI64 _ _ _ => true
  | .gSetLeI64 _ _ _ => true
  | .gSetLtN64 _ _ _ => true
  | .gSetLeN64 _ _ _ => true
  | .gMinI64 _ _ _ => true
  | .gMaxI64 _ _ _ => true
  | .gMinN64 _ _ _ => true
  | .gMaxN64 _ _ _ => true
  | .gMovN64 _ _ => true
  | .gMovnzN64 _ _ _ => true
  | .gMovzN64 _ _ _ => true
  | .gPopcN64 _ _ => true
  | .gClzN64 _ _ => true
  | .gCtzN64 _ _ => true
  | .gBrevN64 _ _ => true
  | .gAddI64Imm _ _ => true
  | .gMulI64Imm _ _ => true
  | .gMinI64Imm _ _ => true
  | .gMaxI64Imm _ _ => true
  | .gAndN64Imm _ _ => true
  | .gOrN64Imm _ _ => true
  | .gXorN64Imm _ _ => true
  | .gAndI64Imm _ _ => true
  | .gShlN64Imm _ _ => true
  | .gShrN64Imm _ _ => true
  | .gShrI64Imm _ _ => true
  | .gRolN64Imm _ _ => true
  | .gMovI64Imm _ _ => true
  | .gMovN64Imm _ _ => true
  | .gMovk16 _ _ => true
  | .gMovk32 _ _ => true
  | .gMovk48 _ _ => true
  | .gLdSh _ _ _ _ _ => true
  | .gStSh _ _ _ _ => true
  | .gLdDie _ _ _ _ _ => true
  | .gStDie _ _ _ _ => true
  | .gBr cc _ _ => decide (cc ≤ 4#3)
  | .gRdsr _ ga => decide (ga ≤ 11#6)
  | .gUconfClr => true
  | .gRdvN32 _ _ => true
  | .gWrvN32 _ _ => true
  | .gWrvN64 _ _ => true
  | .xsfVld _ _ _ _ => true
  | .xsfVst _ _ _ _ => true
  | .mmaAccept _ _ _ => true
  | .mmaComplete _ _ _ => true
  | .overlayFetchComplete _ _ _ _ => true
  | .copyElementWrite _ _ => true
  | .pageResponse _ _ => true
  | .cptElementPerform _ => true
  | .farAtomicResponse _ => true
  | .atomicopUrCompletion _ => true
  | .atsInvalidation _ _ _ => true
  | .fleetingTick => true
  | .crewStart _ _ _ _ _ => true
  | .launchComplete _ => true
  | .nodeFlushTimer _ _ _ _ _ => true
  | .churnMove _ _ _ => true
  | .pullResume _ _ => true
  | .sliceExpiry => true
  | .saveDrainComplete _ => true
  | .drainLimitExpiry _ => true
  | .restoreInstall _ _ _ _ _ => true
  | .hostLinkTrain _ => true
  | .slotTake _ => true
  | .ctxNew _ _ => true
  | .ctxEnd _ _ => true
  | .map _ _ => true
  | .unmap _ _ => true
  | .load _ _ => true
  | .unload _ _ => true
  | .launch _ _ => true
  | .qweight _ _ => true
  | .duty _ _ => true
  | .quantum _ _ => true
  | .save _ _ => true
  | .restore _ _ => true
  | .tlWaitRecord _ _ => true
  | .tlRead _ _ => true
  | .workerAdd _ _ => true
  | .workerDel _ _ => true
  | .recordCompletion _ _ => true
  | .callDispatch _ _ => true
  | .replyPail _ _ => true
  | .callDeadline _ => true
  | .dutyDeadline _ => true
  | .colTransferReceive _ _ _ _ _ _ _ _ _ _ => true
  | .colTimeoutExpiry _ => true
  | .abortFlit _ _ => true
  | .gangAck _ _ => true
  | .gangWindowExpiry _ => true
  | .gangFailFlit _ _ => true
  | .budgetTick _ => true
  | .budgetMessage _ => true
  | .powerControlApply _ _ _ _ => true
  | .ballastStep _ _ _ _ => true
  | .flitCrcReplay _ => true
  | .laneFailure _ => true
  | .hostLinkDown => true
  | .moduleReset => true
  | .podImageReceive _ _ _ => true
  | .parentSilenceTimeout => true
  | .attestQuote _ => true
  | .clusterWake _ _ _ => true
  | .unassignedEncoding _ => true
  | .hostAccess _ _ _ _ => true
  | .peerRequest _ _ _ _ _ _ _ _ => true
  | .atsCompletion _ _ => true
  | .unrecoveredLink => true
  | .receiverConfirmation _ => true
  | .gangbarArrival _ _ => true
  | .imageRequest _ _ => true

end Sys2Proof
end

