-- ==== Sys2Proof/Decode.lean ====
section
/-! DEFINITION. Decoding: from a 32-bit word to an instruction, total, rejecting by name every word that no chapter
assigns (R75); the attendant cores' own decoder (R332); the encoder, written from the same encoding tables. -/

namespace Sys2Proof

/-- Why a word is no instruction. Each is ILLEGAL_OP 0x0110 (R61, R62, R72, R75), but for a prefix word with a
non-zero zero field, which is ILLEGAL_PREFIX 0x0111 once the base word is legal (R66, R76). -/
inductive DecodeError where
  /-- A reserved major of either set. -/
  | reservedMajor
  /-- An fn, op, kind, aop, cond, c or sub-op value that no chapter assigns. -/
  | reservedOp
  /-- A non-zero checked zero field, the la of a form without result among them (R61, R69). -/
  | checkedZero
  /-- sp = 00, or st.nt to the fl space (R62). -/
  | reservedSpace
  /-- A scope code outside the form's table (R166, R172). -/
  | reservedScope
  /-- A system-register number from 12 up (R165, R168). -/
  | systemRegister
  /-- A prefix word whose bits [9:0] are not all zero (R66). -/
  | prefixZero
  /-- A word that is not one of the attendant cores' two custom words (R332). -/
  | notCustom
deriving DecidableEq, Repr

/-- The set bit and the major opcode, bits [31:25] (R60). -/
def majorOf (w : Word) : BitVec 7 := w.extractLsb' 25 7

/-- Table 4.1, format LR: field d [24:18]. -/
def lrD (w : Word) : BitVec 7 := w.extractLsb' 18 7

/-- Table 4.1, format LR: field a [17:11]. -/
def lrA (w : Word) : BitVec 7 := w.extractLsb' 11 7

/-- Table 4.1, format LR: field b [10:4]. -/
def lrB (w : Word) : BitVec 7 := w.extractLsb' 4 7

/-- Table 4.1, format LR: field fn [3:1]. -/
def lrFn (w : Word) : BitVec 3 := w.extractLsb' 1 3

/-- Table 4.1, format LR: field t [0:0]. -/
def lrT (w : Word) : BitVec 1 := w.extractLsb' 0 1

/-- Table 4.1, format LI: field d [24:18]. -/
def liD (w : Word) : BitVec 7 := w.extractLsb' 18 7

/-- Table 4.1, format LI: field fn [17:16]. -/
def liFn (w : Word) : BitVec 2 := w.extractLsb' 16 2

/-- Table 4.1, format LI: field imm [15:0]. -/
def liImm (w : Word) : BitVec 16 := w.extractLsb' 0 16

/-- Table 4.1, format LM: field d [24:18]. -/
def lmD (w : Word) : BitVec 7 := w.extractLsb' 18 7

/-- Table 4.1, format LM: field op [17:15]. -/
def lmOp (w : Word) : BitVec 3 := w.extractLsb' 15 3

/-- Table 4.1, format LM: field a [14:11]. -/
def lmA (w : Word) : BitVec 4 := w.extractLsb' 11 4

/-- Table 4.1, format LM: field la [10:7]. -/
def lmLa (w : Word) : BitVec 4 := w.extractLsb' 7 4

/-- Table 4.1, format LM: field off [6:0]. -/
def lmOff (w : Word) : BitVec 7 := w.extractLsb' 0 7

/-- Table 4.1, format LO: field d [24:18]. -/
def loD (w : Word) : BitVec 7 := w.extractLsb' 18 7

/-- Table 4.1, format LO: field kind [17:15]. -/
def loKind (w : Word) : BitVec 3 := w.extractLsb' 15 3

/-- Table 4.1, format LO: field a [14:11]. -/
def loA (w : Word) : BitVec 4 := w.extractLsb' 11 4

/-- Table 4.1, format LO: field la [10:7]. -/
def loLa (w : Word) : BitVec 4 := w.extractLsb' 7 4

/-- Table 4.1, format LO: field sp [6:5]. -/
def loSp (w : Word) : BitVec 2 := w.extractLsb' 5 2

/-- Table 4.1, format LO: field sz [4:3]. -/
def loSz (w : Word) : BitVec 2 := w.extractLsb' 3 2

/-- Table 4.1, format LO: field z [2:0]. -/
def loZ (w : Word) : BitVec 3 := w.extractLsb' 0 3

/-- Table 4.1, format LA: field d [24:18]. -/
def laD (w : Word) : BitVec 7 := w.extractLsb' 18 7

/-- Table 4.1, format LA: field a [17:14]. -/
def laA (w : Word) : BitVec 4 := w.extractLsb' 14 4

/-- Table 4.1, format LA: field sz [13:13]. -/
def laSz (w : Word) : BitVec 1 := w.extractLsb' 13 1

/-- Table 4.1, format LA: field ord [12:11]. -/
def laOrd (w : Word) : BitVec 2 := w.extractLsb' 11 2

/-- Table 4.1, format LA: field la [10:7]. -/
def laLa (w : Word) : BitVec 4 := w.extractLsb' 7 4

/-- Table 4.1, format LA: field aop [6:3]. -/
def laAop (w : Word) : BitVec 4 := w.extractLsb' 3 4

/-- Table 4.1, format LA: field sp [2:1]. -/
def laSp (w : Word) : BitVec 2 := w.extractLsb' 1 2

/-- Table 4.1, format LA: field z [0:0]. -/
def laZ (w : Word) : BitVec 1 := w.extractLsb' 0 1

/-- Table 4.1, format LB (R72): field cond [24:21]. -/
def lbCond (w : Word) : BitVec 4 := w.extractLsb' 21 4

/-- Table 4.1, format LB (R72): field off [20:0]. -/
def lbOff (w : Word) : BitVec 21 := w.extractLsb' 0 21

/-- Table 4.1, format LX: field a [24:18]. -/
def lxA (w : Word) : BitVec 7 := w.extractLsb' 18 7

/-- Table 4.1, format LX: field b [17:11]. -/
def lxB (w : Word) : BitVec 7 := w.extractLsb' 11 7

/-- Table 4.1, format LX: field la [10:7]. -/
def lxLa (w : Word) : BitVec 4 := w.extractLsb' 7 4

/-- Table 4.1, format LX: field c [6:0]. -/
def lxC (w : Word) : BitVec 7 := w.extractLsb' 0 7

/-- Table 4.1, format MX: field a [24:18]. -/
def mxA (w : Word) : BitVec 7 := w.extractLsb' 18 7

/-- Table 4.1, format MX: field acc [17:15]. -/
def mxAcc (w : Word) : BitVec 3 := w.extractLsb' 15 3

/-- Table 4.1, format MX: field ob [14:11]. -/
def mxOb (w : Word) : BitVec 4 := w.extractLsb' 11 4

/-- Table 4.1, format MX: field la [10:7]. -/
def mxLa (w : Word) : BitVec 4 := w.extractLsb' 7 4

/-- Table 4.1, format MX: field tb [6:3]. -/
def mxTb (w : Word) : BitVec 4 := w.extractLsb' 3 4

/-- Table 4.1, format MX: field keep [2:2]. -/
def mxKeep (w : Word) : BitVec 1 := w.extractLsb' 2 1

/-- Table 4.1, format MX: field sub [1:0]. -/
def mxSub (w : Word) : BitVec 2 := w.extractLsb' 0 2

/-- Table 4.1, the prefix word (R66): field pred [24:22]. -/
def pxPred (w : Word) : BitVec 3 := w.extractLsb' 22 3

/-- Table 4.1, the prefix word (R66): field mz [21:21]. -/
def pxMz (w : Word) : BitVec 1 := w.extractLsb' 21 1

/-- Table 4.1, the prefix word (R66): field rnd [20:18]. -/
def pxRnd (w : Word) : BitVec 3 := w.extractLsb' 18 3

/-- Table 4.1, the prefix word (R66): field vc [17:11]. -/
def pxVc (w : Word) : BitVec 7 := w.extractLsb' 11 7

/-- Table 4.1, the prefix word (R66): field neg [10:10]. -/
def pxNeg (w : Word) : BitVec 1 := w.extractLsb' 10 1

/-- Table 4.1, the prefix word (R66): field z [9:0]. -/
def pxZ (w : Word) : BitVec 10 := w.extractLsb' 0 10

/-- Table 4.7, format GR: field d [24:19]. -/
def grD (w : Word) : BitVec 6 := w.extractLsb' 19 6

/-- Table 4.7, format GR: field a [18:13]. -/
def grA (w : Word) : BitVec 6 := w.extractLsb' 13 6

/-- Table 4.7, format GR: field b [12:7]. -/
def grB (w : Word) : BitVec 6 := w.extractLsb' 7 6

/-- Table 4.7, format GR: field fn [6:1]. -/
def grFn (w : Word) : BitVec 6 := w.extractLsb' 1 6

/-- Table 4.7, format GR: field z [0:0]. -/
def grZ (w : Word) : BitVec 1 := w.extractLsb' 0 1

/-- Table 4.7, format GI: field d [24:19]. -/
def giD (w : Word) : BitVec 6 := w.extractLsb' 19 6

/-- Table 4.7, format GI: field fn [18:16]. -/
def giFn (w : Word) : BitVec 3 := w.extractLsb' 16 3

/-- Table 4.7, format GI: field imm [15:0]. -/
def giImm (w : Word) : BitVec 16 := w.extractLsb' 0 16

/-- Table 4.7, format GM: field d [24:19]. -/
def gmD (w : Word) : BitVec 6 := w.extractLsb' 19 6

/-- Table 4.7, format GM: field a [18:13]. -/
def gmA (w : Word) : BitVec 6 := w.extractLsb' 13 6

/-- Table 4.7, format GM: field sz [12:11]. -/
def gmSz (w : Word) : BitVec 2 := w.extractLsb' 11 2

/-- Table 4.7, format GM: field la [10:7]. -/
def gmLa (w : Word) : BitVec 4 := w.extractLsb' 7 4

/-- Table 4.7, format GM: field off [6:0]. -/
def gmOff (w : Word) : BitVec 7 := w.extractLsb' 0 7

/-- Table 4.7, format GB: field cond [24:22]. -/
def gbCond (w : Word) : BitVec 3 := w.extractLsb' 22 3

/-- Table 4.7, format GB: field a [21:16]. -/
def gbA (w : Word) : BitVec 6 := w.extractLsb' 16 6

/-- Table 4.7, format GB: field off [15:0]. -/
def gbOff (w : Word) : BitVec 16 := w.extractLsb' 0 16

/-- Lane major 0x00 (R131). -/
def decodeLane00 (w : Word) : Except DecodeError Instr :=
  if lrFn w = 0#3 then .ok (.addI32 (lrD w) (lrA w) (lrB w) (bit1 (lrT w)))
  else if lrFn w = 1#3 then .ok (.subI32 (lrD w) (lrA w) (lrB w) (bit1 (lrT w)))
  else if lrFn w = 2#3 then if lrB w = 0#7 then .ok (.negI32 (lrD w) (lrA w) (bit1 (lrT w))) else .error .checkedZero
  else if lrFn w = 3#3 then if lrB w = 0#7 then .ok (.absI32 (lrD w) (lrA w) (bit1 (lrT w))) else .error .checkedZero
  else if lrFn w = 4#3 then .ok (.avgI32 (lrD w) (lrA w) (lrB w) (bit1 (lrT w)))
  else if lrFn w = 5#3 then .ok (.avgN32 (lrD w) (lrA w) (lrB w) (bit1 (lrT w)))
  else if lrFn w = 6#3 then .ok (.adiffI32 (lrD w) (lrA w) (lrB w) (bit1 (lrT w)))
  else if lrFn w = 7#3 then .ok (.adiffN32 (lrD w) (lrA w) (lrB w) (bit1 (lrT w)))
  else .error .reservedOp

/-- Lane major 0x01 (R131). -/
def decodeLane01 (w : Word) : Except DecodeError Instr :=
  if lrFn w = 0#3 then .ok (.addI64 (lrD w) (lrA w) (lrB w) (bit1 (lrT w)))
  else if lrFn w = 1#3 then .ok (.subI64 (lrD w) (lrA w) (lrB w) (bit1 (lrT w)))
  else if lrFn w = 2#3 then if lrB w = 0#7 then .ok (.negI64 (lrD w) (lrA w) (bit1 (lrT w))) else .error .checkedZero
  else if lrFn w = 3#3 then if lrB w = 0#7 then .ok (.absI64 (lrD w) (lrA w) (bit1 (lrT w))) else .error .checkedZero
  else if lrFn w = 4#3 then .ok (.addwI64I32 (lrD w) (lrA w) (lrB w) (bit1 (lrT w)))
  else if lrFn w = 5#3 then .ok (.addwN64N32 (lrD w) (lrA w) (lrB w) (bit1 (lrT w)))
  else .error .reservedOp

/-- Lane major 0x02 (R131). -/
def decodeLane02 (w : Word) : Except DecodeError Instr :=
  if lrFn w = 0#3 then .ok (.addsatI32 (lrD w) (lrA w) (lrB w) (bit1 (lrT w)))
  else if lrFn w = 1#3 then .ok (.subsatI32 (lrD w) (lrA w) (lrB w) (bit1 (lrT w)))
  else if lrFn w = 2#3 then .ok (.addsatN32 (lrD w) (lrA w) (lrB w) (bit1 (lrT w)))
  else if lrFn w = 3#3 then .ok (.subsatN32 (lrD w) (lrA w) (lrB w) (bit1 (lrT w)))
  else if lrFn w = 4#3 then if lrB w = 0#7 then .ok (.negsatI32 (lrD w) (lrA w) (bit1 (lrT w))) else .error .checkedZero
  else if lrFn w = 5#3 then if lrB w = 0#7 then .ok (.abssatI32 (lrD w) (lrA w) (bit1 (lrT w))) else .error .checkedZero
  else .error .reservedOp

/-- Lane major 0x03 (R131). -/
def decodeLane03 (w : Word) : Except DecodeError Instr :=
  if lrFn w = 0#3 then .ok (.mulI32 (lrD w) (lrA w) (lrB w) (bit1 (lrT w)))
  else if lrFn w = 1#3 then .ok (.mulhiI32 (lrD w) (lrA w) (lrB w) (bit1 (lrT w)))
  else if lrFn w = 2#3 then .ok (.mulhiN32 (lrD w) (lrA w) (lrB w) (bit1 (lrT w)))
  else if lrFn w = 3#3 then .ok (.madI32 (lrD w) (lrA w) (lrB w) (bit1 (lrT w)))
  else if lrFn w = 4#3 then .ok (.mulwI32 (lrD w) (lrA w) (lrB w) (bit1 (lrT w)))
  else if lrFn w = 5#3 then .ok (.mulwN32 (lrD w) (lrA w) (lrB w) (bit1 (lrT w)))
  else .error .reservedOp

/-- Lane major 0x04 (R132). -/
def decodeLane04 (w : Word) : Except DecodeError Instr :=
  if lrFn w = 0#3 then .ok (.divI32 (lrD w) (lrA w) (lrB w) (bit1 (lrT w)))
  else if lrFn w = 1#3 then .ok (.divN32 (lrD w) (lrA w) (lrB w) (bit1 (lrT w)))
  else if lrFn w = 2#3 then .ok (.remI32 (lrD w) (lrA w) (lrB w) (bit1 (lrT w)))
  else if lrFn w = 3#3 then .ok (.remN32 (lrD w) (lrA w) (lrB w) (bit1 (lrT w)))
  else if lrFn w = 4#3 then .ok (.divI64 (lrD w) (lrA w) (lrB w) (bit1 (lrT w)))
  else if lrFn w = 5#3 then .ok (.divN64 (lrD w) (lrA w) (lrB w) (bit1 (lrT w)))
  else if lrFn w = 6#3 then .ok (.remI64 (lrD w) (lrA w) (lrB w) (bit1 (lrT w)))
  else if lrFn w = 7#3 then .ok (.remN64 (lrD w) (lrA w) (lrB w) (bit1 (lrT w)))
  else .error .reservedOp

/-- Lane major 0x05 (R131). -/
def decodeLane05 (w : Word) : Except DecodeError Instr :=
  if lrFn w = 0#3 then .ok (.minI32 (lrD w) (lrA w) (lrB w) (bit1 (lrT w)))
  else if lrFn w = 1#3 then .ok (.maxI32 (lrD w) (lrA w) (lrB w) (bit1 (lrT w)))
  else if lrFn w = 2#3 then .ok (.minN32 (lrD w) (lrA w) (lrB w) (bit1 (lrT w)))
  else if lrFn w = 3#3 then .ok (.maxN32 (lrD w) (lrA w) (lrB w) (bit1 (lrT w)))
  else if lrFn w = 4#3 then .ok (.minI64 (lrD w) (lrA w) (lrB w) (bit1 (lrT w)))
  else if lrFn w = 5#3 then .ok (.maxI64 (lrD w) (lrA w) (lrB w) (bit1 (lrT w)))
  else if lrFn w = 6#3 then .ok (.minN64 (lrD w) (lrA w) (lrB w) (bit1 (lrT w)))
  else if lrFn w = 7#3 then .ok (.maxN64 (lrD w) (lrA w) (lrB w) (bit1 (lrT w)))
  else .error .reservedOp

/-- Lane major 0x06 (R131). -/
def decodeLane06 (w : Word) : Except DecodeError Instr :=
  if lrFn w = 0#3 then .ok (.andN32 (lrD w) (lrA w) (lrB w) (bit1 (lrT w)))
  else if lrFn w = 1#3 then .ok (.orN32 (lrD w) (lrA w) (lrB w) (bit1 (lrT w)))
  else if lrFn w = 2#3 then .ok (.xorN32 (lrD w) (lrA w) (lrB w) (bit1 (lrT w)))
  else if lrFn w = 3#3 then .ok (.andnN32 (lrD w) (lrA w) (lrB w) (bit1 (lrT w)))
  else if lrFn w = 4#3 then .ok (.ornN32 (lrD w) (lrA w) (lrB w) (bit1 (lrT w)))
  else if lrFn w = 5#3 then .ok (.xnorN32 (lrD w) (lrA w) (lrB w) (bit1 (lrT w)))
  else if lrFn w = 6#3 then if lrB w = 0#7 then .ok (.notN32 (lrD w) (lrA w) (bit1 (lrT w))) else .error .checkedZero
  else .error .reservedOp

/-- Lane major 0x07 (R131, R133). -/
def decodeLane07 (w : Word) : Except DecodeError Instr :=
  if lrFn w = 0#3 then .ok (.shlN32 (lrD w) (lrA w) (lrB w) (bit1 (lrT w)))
  else if lrFn w = 1#3 then .ok (.shrN32 (lrD w) (lrA w) (lrB w) (bit1 (lrT w)))
  else if lrFn w = 2#3 then .ok (.shrI32 (lrD w) (lrA w) (lrB w) (bit1 (lrT w)))
  else if lrFn w = 3#3 then .ok (.rolN32 (lrD w) (lrA w) (lrB w) (bit1 (lrT w)))
  else if lrFn w = 4#3 then .ok (.rorN32 (lrD w) (lrA w) (lrB w) (bit1 (lrT w)))
  else .error .reservedOp

/-- Lane major 0x08 (R131). -/
def decodeLane08 (w : Word) : Except DecodeError Instr :=
  if lrFn w = 0#3 then if lrB w = 0#7 then .ok (.popcN32 (lrD w) (lrA w) (bit1 (lrT w))) else .error .checkedZero
  else if lrFn w = 1#3 then if lrB w = 0#7 then .ok (.clzN32 (lrD w) (lrA w) (bit1 (lrT w))) else .error .checkedZero
  else if lrFn w = 2#3 then if lrB w = 0#7 then .ok (.ctzN32 (lrD w) (lrA w) (bit1 (lrT w))) else .error .checkedZero
  else if lrFn w = 3#3 then if lrB w = 0#7 then .ok (.brevN32 (lrD w) (lrA w) (bit1 (lrT w))) else .error .checkedZero
  else if lrFn w = 4#3 then if lrB w = 0#7 then .ok (.bswapN32 (lrD w) (lrA w) (bit1 (lrT w))) else .error .checkedZero
  else if lrFn w = 5#3 then if lrB w = 0#7 then .ok (.popcN64 (lrD w) (lrA w) (bit1 (lrT w))) else .error .checkedZero
  else if lrFn w = 6#3 then if lrB w = 0#7 then .ok (.clzN64 (lrD w) (lrA w) (bit1 (lrT w))) else .error .checkedZero
  else .error .reservedOp

/-- Lane major 0x09 (R134). -/
def decodeLane09 (w : Word) : Except DecodeError Instr :=
  if lrFn w = 0#3 then .ok (.bfeN32 (lrD w) (lrA w) (lrB w) (bit1 (lrT w)))
  else if lrFn w = 1#3 then .ok (.bfeI32 (lrD w) (lrA w) (lrB w) (bit1 (lrT w)))
  else if lrFn w = 2#3 then .ok (.bfiN32 (lrD w) (lrA w) (lrB w) (bit1 (lrT w)))
  else .error .reservedOp

/-- Lane major 0x0A (R135). -/
def decodeLane0A (w : Word) : Except DecodeError Instr :=
  if (lrD w).extractLsb' 3 4 = 0#4 ∧ lrT w = 0#1 then .ok (.cmpI32 ((lrD w).extractLsb' 0 3) (lrA w) (lrB w) (lrFn w)) else .error .checkedZero

/-- Lane major 0x0B (R136). -/
def decodeLane0B (w : Word) : Except DecodeError Instr :=
  if lrB w = 0#7 ∧ lrFn w = 7#3 then .ok (.movN32 (lrD w) (lrA w) (bit1 (lrT w)))
  else
  .ok (.selN32 (lrD w) (lrA w) (lrB w) (lrFn w) (bit1 (lrT w)))

/-- Lane major 0x0C (R131). -/
def decodeLane0C (w : Word) : Except DecodeError Instr :=
  if (lrFn w).extractLsb' 2 1 = 0#1 then .ok (.shaddN32 (lrD w) (lrA w) (lrB w) ((lrFn w).extractLsb' 0 2) (bit1 (lrT w)))
  else if (lrFn w).extractLsb' 2 1 = 1#1 then .ok (.shaddN64 (lrD w) (lrA w) (lrB w) ((lrFn w).extractLsb' 0 2) (bit1 (lrT w)))
  else .error .reservedOp

/-- Lane major 0x0D (R131). -/
def decodeLane0D (w : Word) : Except DecodeError Instr :=
  if lrFn w = 0#3 then .ok (.addI16 (lrD w) (lrA w) (lrB w) (bit1 (lrT w)))
  else if lrFn w = 1#3 then .ok (.subI16 (lrD w) (lrA w) (lrB w) (bit1 (lrT w)))
  else if lrFn w = 2#3 then .ok (.addI8 (lrD w) (lrA w) (lrB w) (bit1 (lrT w)))
  else if lrFn w = 3#3 then .ok (.subI8 (lrD w) (lrA w) (lrB w) (bit1 (lrT w)))
  else if lrFn w = 4#3 then .ok (.addsatI16 (lrD w) (lrA w) (lrB w) (bit1 (lrT w)))
  else if lrFn w = 5#3 then .ok (.subsatI16 (lrD w) (lrA w) (lrB w) (bit1 (lrT w)))
  else if lrFn w = 6#3 then .ok (.addsatN8 (lrD w) (lrA w) (lrB w) (bit1 (lrT w)))
  else if lrFn w = 7#3 then .ok (.dotI8 (lrD w) (lrA w) (lrB w) (bit1 (lrT w)))
  else .error .reservedOp

/-- Lane major 0x0E (R137). -/
def decodeLane0E (w : Word) : Except DecodeError Instr :=
  if lrFn w = 0#3 then if (lrD w).extractLsb' 3 4 = 0#4 ∧ (lrA w).extractLsb' 3 4 = 0#4 ∧ (lrB w).extractLsb' 3 4 = 0#4 ∧ lrT w = 0#1 then .ok (.pand ((lrD w).extractLsb' 0 3) ((lrA w).extractLsb' 0 3) ((lrB w).extractLsb' 0 3)) else .error .checkedZero
  else if lrFn w = 1#3 then if (lrD w).extractLsb' 3 4 = 0#4 ∧ (lrA w).extractLsb' 3 4 = 0#4 ∧ (lrB w).extractLsb' 3 4 = 0#4 ∧ lrT w = 0#1 then .ok (.por ((lrD w).extractLsb' 0 3) ((lrA w).extractLsb' 0 3) ((lrB w).extractLsb' 0 3)) else .error .checkedZero
  else if lrFn w = 2#3 then if (lrD w).extractLsb' 3 4 = 0#4 ∧ (lrA w).extractLsb' 3 4 = 0#4 ∧ (lrB w).extractLsb' 3 4 = 0#4 ∧ lrT w = 0#1 then .ok (.pxor ((lrD w).extractLsb' 0 3) ((lrA w).extractLsb' 0 3) ((lrB w).extractLsb' 0 3)) else .error .checkedZero
  else if lrFn w = 3#3 then if (lrD w).extractLsb' 3 4 = 0#4 ∧ (lrA w).extractLsb' 3 4 = 0#4 ∧ (lrB w).extractLsb' 3 4 = 0#4 ∧ lrT w = 0#1 then .ok (.pandn ((lrD w).extractLsb' 0 3) ((lrA w).extractLsb' 0 3) ((lrB w).extractLsb' 0 3)) else .error .checkedZero
  else if lrFn w = 4#3 then if (lrD w).extractLsb' 3 4 = 0#4 ∧ (lrA w).extractLsb' 3 4 = 0#4 ∧ lrB w = 0#7 ∧ lrT w = 0#1 then .ok (.pnot ((lrD w).extractLsb' 0 3) ((lrA w).extractLsb' 0 3)) else .error .checkedZero
  else if lrFn w = 5#3 then if lrA w = 0#7 ∧ lrB w = 0#7 then .ok (.ptovN32 (lrD w) (bit1 (lrT w))) else .error .checkedZero
  else if lrFn w = 6#3 then if lrD w = 0#7 ∧ lrB w = 0#7 ∧ lrT w = 0#1 then .ok (.vtopN32 (lrA w)) else .error .checkedZero
  else .error .reservedOp

/-- Lane major 0x0F (R131, R133, R135). -/
def decodeLane0F (w : Word) : Except DecodeError Instr :=
  if lrFn w = 0#3 then .ok (.mulI64 (lrD w) (lrA w) (lrB w) (bit1 (lrT w)))
  else if lrFn w = 1#3 then .ok (.shlN64 (lrD w) (lrA w) (lrB w) (bit1 (lrT w)))
  else if lrFn w = 2#3 then .ok (.shrN64 (lrD w) (lrA w) (lrB w) (bit1 (lrT w)))
  else if lrFn w = 3#3 then .ok (.shrI64 (lrD w) (lrA w) (lrB w) (bit1 (lrT w)))
  else if lrFn w = 4#3 then if (lrD w).extractLsb' 3 4 = 0#4 ∧ lrT w = 0#1 then .ok (.cmpEqI64 ((lrD w).extractLsb' 0 3) (lrA w) (lrB w)) else .error .checkedZero
  else if lrFn w = 5#3 then if (lrD w).extractLsb' 3 4 = 0#4 ∧ lrT w = 0#1 then .ok (.cmpLtI64 ((lrD w).extractLsb' 0 3) (lrA w) (lrB w)) else .error .checkedZero
  else if lrFn w = 6#3 then if (lrD w).extractLsb' 3 4 = 0#4 ∧ lrT w = 0#1 then .ok (.cmpLtN64 ((lrD w).extractLsb' 0 3) (lrA w) (lrB w)) else .error .checkedZero
  else if lrFn w = 7#3 then if lrB w = 0#7 then .ok (.movN64 (lrD w) (lrA w) (bit1 (lrT w))) else .error .checkedZero
  else .error .reservedOp

/-- Lane major 0x10 (R138). -/
def decodeLane10 (w : Word) : Except DecodeError Instr :=
  if liFn w = 0#2 then .ok (.addI32Imm (liD w) (liImm w))
  else if liFn w = 1#2 then .ok (.addI64Imm (liD w) (liImm w))
  else if liFn w = 2#2 then .ok (.addsatI32Imm (liD w) (liImm w))
  else if liFn w = 3#2 then .ok (.addsatN32Imm (liD w) (liImm w))
  else .error .reservedOp

/-- Lane major 0x11 (R138). -/
def decodeLane11 (w : Word) : Except DecodeError Instr :=
  if liFn w = 0#2 then .ok (.andN32Imm (liD w) (liImm w))
  else if liFn w = 1#2 then .ok (.orN32Imm (liD w) (liImm w))
  else if liFn w = 2#2 then .ok (.xorN32Imm (liD w) (liImm w))
  else .error .reservedOp

/-- Lane major 0x12 (R138). -/
def decodeLane12 (w : Word) : Except DecodeError Instr :=
  if liFn w = 0#2 then .ok (.shlN32Imm (liD w) (liImm w))
  else if liFn w = 1#2 then .ok (.shrN32Imm (liD w) (liImm w))
  else if liFn w = 2#2 then .ok (.shrI32Imm (liD w) (liImm w))
  else if liFn w = 3#2 then .ok (.rorN32Imm (liD w) (liImm w))
  else .error .reservedOp

/-- Lane major 0x13 (R138). -/
def decodeLane13 (w : Word) : Except DecodeError Instr :=
  if liFn w = 0#2 then .ok (.setEqI32 (liD w) (liImm w))
  else if liFn w = 1#2 then .ok (.setNeI32 (liD w) (liImm w))
  else if liFn w = 2#2 then .ok (.setLtI32 (liD w) (liImm w))
  else if liFn w = 3#2 then .ok (.setLtN32 (liD w) (liImm w))
  else .error .reservedOp

/-- Lane major 0x14 (R138). -/
def decodeLane14 (w : Word) : Except DecodeError Instr :=
  if liFn w = 0#2 then .ok (.movlN32 (liD w) (liImm w))
  else if liFn w = 1#2 then .ok (.movhN32 (liD w) (liImm w))
  else if liFn w = 2#2 then .ok (.movI32Imm (liD w) (liImm w))
  else if liFn w = 3#2 then .ok (.movN32Imm (liD w) (liImm w))
  else .error .reservedOp

/-- Lane major 0x15 (R138). -/
def decodeLane15 (w : Word) : Except DecodeError Instr :=
  if liFn w = 0#2 then .ok (.mulI32Imm (liD w) (liImm w))
  else if liFn w = 1#2 then .ok (.mulI64Imm (liD w) (liImm w))
  else .error .reservedOp

/-- Lane major 0x16 (R138). -/
def decodeLane16 (w : Word) : Except DecodeError Instr :=
  if liFn w = 0#2 then .ok (.minI32Imm (liD w) (liImm w))
  else if liFn w = 1#2 then .ok (.maxI32Imm (liD w) (liImm w))
  else if liFn w = 2#2 then .ok (.minN32Imm (liD w) (liImm w))
  else if liFn w = 3#2 then .ok (.maxN32Imm (liD w) (liImm w))
  else .error .reservedOp

/-- Lane major 0x18 (R139). -/
def decodeLane18 (w : Word) : Except DecodeError Instr :=
  if lrFn w = 0#3 then .ok (.faddF32 (lrD w) (lrA w) (lrB w) (bit1 (lrT w)))
  else if lrFn w = 1#3 then .ok (.fsubF32 (lrD w) (lrA w) (lrB w) (bit1 (lrT w)))
  else if lrFn w = 2#3 then .ok (.fmulF32 (lrD w) (lrA w) (lrB w) (bit1 (lrT w)))
  else .error .reservedOp

/-- Lane major 0x19 (R139, R140). -/
def decodeLane19 (w : Word) : Except DecodeError Instr :=
  if lrFn w = 0#3 then .ok (.fmaF32 (lrD w) (lrA w) (lrB w) (bit1 (lrT w)))
  else if lrFn w = 1#3 then .ok (.fmsF32 (lrD w) (lrA w) (lrB w) (bit1 (lrT w)))
  else if lrFn w = 2#3 then .ok (.fnmaF32 (lrD w) (lrA w) (lrB w) (bit1 (lrT w)))
  else if lrFn w = 3#3 then .ok (.fminF32 (lrD w) (lrA w) (lrB w) (bit1 (lrT w)))
  else if lrFn w = 4#3 then .ok (.fmaxF32 (lrD w) (lrA w) (lrB w) (bit1 (lrT w)))
  else .error .reservedOp

/-- Lane major 0x1A (R140). -/
def decodeLane1A (w : Word) : Except DecodeError Instr :=
  if (lrD w).extractLsb' 3 4 = 0#4 ∧ lrT w = 0#1 then .ok (.fcmpF32 ((lrD w).extractLsb' 0 3) (lrA w) (lrB w) (lrFn w)) else .error .checkedZero

/-- Lane major 0x1B (R139). -/
def decodeLane1B (w : Word) : Except DecodeError Instr :=
  if lrFn w = 0#3 then .ok (.faddF64 (lrD w) (lrA w) (lrB w) (bit1 (lrT w)))
  else if lrFn w = 1#3 then .ok (.fsubF64 (lrD w) (lrA w) (lrB w) (bit1 (lrT w)))
  else if lrFn w = 2#3 then .ok (.fmulF64 (lrD w) (lrA w) (lrB w) (bit1 (lrT w)))
  else .error .reservedOp

/-- Lane major 0x1C (R139, R140). -/
def decodeLane1C (w : Word) : Except DecodeError Instr :=
  if lrFn w = 0#3 then .ok (.fmaF64 (lrD w) (lrA w) (lrB w) (bit1 (lrT w)))
  else if lrFn w = 1#3 then .ok (.fmsF64 (lrD w) (lrA w) (lrB w) (bit1 (lrT w)))
  else if lrFn w = 2#3 then .ok (.fnmaF64 (lrD w) (lrA w) (lrB w) (bit1 (lrT w)))
  else if lrFn w = 3#3 then .ok (.fminF64 (lrD w) (lrA w) (lrB w) (bit1 (lrT w)))
  else if lrFn w = 4#3 then .ok (.fmaxF64 (lrD w) (lrA w) (lrB w) (bit1 (lrT w)))
  else .error .reservedOp

/-- Lane major 0x1D (R140). -/
def decodeLane1D (w : Word) : Except DecodeError Instr :=
  if (lrD w).extractLsb' 3 4 = 0#4 ∧ lrT w = 0#1 then .ok (.fcmpF64 ((lrD w).extractLsb' 0 3) (lrA w) (lrB w) (lrFn w)) else .error .checkedZero

/-- Lane major 0x1E (R139, R140). -/
def decodeLane1E (w : Word) : Except DecodeError Instr :=
  if lrFn w = 0#3 then .ok (.faddF16 (lrD w) (lrA w) (lrB w) (bit1 (lrT w)))
  else if lrFn w = 1#3 then .ok (.fmulF16 (lrD w) (lrA w) (lrB w) (bit1 (lrT w)))
  else if lrFn w = 2#3 then .ok (.fmaF16 (lrD w) (lrA w) (lrB w) (bit1 (lrT w)))
  else if lrFn w = 3#3 then .ok (.faddBf16 (lrD w) (lrA w) (lrB w) (bit1 (lrT w)))
  else if lrFn w = 4#3 then .ok (.fmulBf16 (lrD w) (lrA w) (lrB w) (bit1 (lrT w)))
  else if lrFn w = 5#3 then .ok (.fmaBf16 (lrD w) (lrA w) (lrB w) (bit1 (lrT w)))
  else if lrFn w = 6#3 then .ok (.fmaxF16 (lrD w) (lrA w) (lrB w) (bit1 (lrT w)))
  else if lrFn w = 7#3 then .ok (.fmaxBf16 (lrD w) (lrA w) (lrB w) (bit1 (lrT w)))
  else .error .reservedOp

/-- Lane major 0x1F (R139, R141). -/
def decodeLane1F (w : Word) : Except DecodeError Instr :=
  if lrFn w = 0#3 then .ok (.faddE4m3 (lrD w) (lrA w) (lrB w) (bit1 (lrT w)))
  else if lrFn w = 1#3 then .ok (.fmulE4m3 (lrD w) (lrA w) (lrB w) (bit1 (lrT w)))
  else if lrFn w = 2#3 then .ok (.faddE5m2 (lrD w) (lrA w) (lrB w) (bit1 (lrT w)))
  else if lrFn w = 3#3 then .ok (.fmulE5m2 (lrD w) (lrA w) (lrB w) (bit1 (lrT w)))
  else if lrFn w = 4#3 then .ok (.fdotF32E4m3 (lrD w) (lrA w) (lrB w) (bit1 (lrT w)))
  else if lrFn w = 5#3 then .ok (.fdotF32E5m2 (lrD w) (lrA w) (lrB w) (bit1 (lrT w)))
  else if lrFn w = 6#3 then if lrB w = 0#7 then .ok (.cvtF16E4m3 (lrD w) (lrA w) (bit1 (lrT w))) else .error .checkedZero
  else if lrFn w = 7#3 then if lrB w = 0#7 then .ok (.cvtF16E5m2 (lrD w) (lrA w) (bit1 (lrT w))) else .error .checkedZero
  else .error .reservedOp

/-- Lane major 0x20 (R142). -/
def decodeLane20 (w : Word) : Except DecodeError Instr :=
  if lrFn w = 0#3 then .ok (.fdivF32 (lrD w) (lrA w) (lrB w) (bit1 (lrT w)))
  else if lrFn w = 1#3 then if lrB w = 0#7 then .ok (.fsqrtF32 (lrD w) (lrA w) (bit1 (lrT w))) else .error .checkedZero
  else if lrFn w = 2#3 then if lrB w = 0#7 then .ok (.rcpF32 (lrD w) (lrA w) (bit1 (lrT w))) else .error .checkedZero
  else if lrFn w = 3#3 then if lrB w = 0#7 then .ok (.rsqrtF32 (lrD w) (lrA w) (bit1 (lrT w))) else .error .checkedZero
  else if lrFn w = 4#3 then if lrB w = 0#7 then .ok (.exp2F32 (lrD w) (lrA w) (bit1 (lrT w))) else .error .checkedZero
  else if lrFn w = 5#3 then if lrB w = 0#7 then .ok (.log2F32 (lrD w) (lrA w) (bit1 (lrT w))) else .error .checkedZero
  else if lrFn w = 6#3 then if lrB w = 0#7 then .ok (.sinpiF32 (lrD w) (lrA w) (bit1 (lrT w))) else .error .checkedZero
  else if lrFn w = 7#3 then if lrB w = 0#7 then .ok (.cospiF32 (lrD w) (lrA w) (bit1 (lrT w))) else .error .checkedZero
  else .error .reservedOp

/-- Lane major 0x21 (R142). -/
def decodeLane21 (w : Word) : Except DecodeError Instr :=
  if lrFn w = 0#3 then .ok (.fdivF64 (lrD w) (lrA w) (lrB w) (bit1 (lrT w)))
  else if lrFn w = 1#3 then if lrB w = 0#7 then .ok (.fsqrtF64 (lrD w) (lrA w) (bit1 (lrT w))) else .error .checkedZero
  else .error .reservedOp

/-- Lane major 0x22 (R143). -/
def decodeLane22 (w : Word) : Except DecodeError Instr :=
  if lrFn w = 0#3 then if lrB w = 0#7 then .ok (.fabsF32 (lrD w) (lrA w) (bit1 (lrT w))) else .error .checkedZero
  else if lrFn w = 1#3 then if lrB w = 0#7 then .ok (.fnegF32 (lrD w) (lrA w) (bit1 (lrT w))) else .error .checkedZero
  else if lrFn w = 2#3 then .ok (.fcopysignF32 (lrD w) (lrA w) (lrB w) (bit1 (lrT w)))
  else if lrFn w = 3#3 then if lrB w = 0#7 then .ok (.fclassF32 (lrD w) (lrA w) (bit1 (lrT w))) else .error .checkedZero
  else if lrFn w = 4#3 then if lrB w = 0#7 then .ok (.fabsF64 (lrD w) (lrA w) (bit1 (lrT w))) else .error .checkedZero
  else if lrFn w = 5#3 then if lrB w = 0#7 then .ok (.fnegF64 (lrD w) (lrA w) (bit1 (lrT w))) else .error .checkedZero
  else if lrFn w = 6#3 then .ok (.fcopysignF64 (lrD w) (lrA w) (lrB w) (bit1 (lrT w)))
  else if lrFn w = 7#3 then if lrB w = 0#7 then .ok (.fclassF64 (lrD w) (lrA w) (bit1 (lrT w))) else .error .checkedZero
  else .error .reservedOp

/-- Lane major 0x24 (R144). -/
def decodeLane24 (w : Word) : Except DecodeError Instr :=
  if liFn w = 0#2 then .ok (.faddF32Imm (liD w) (liImm w))
  else if liFn w = 1#2 then .ok (.fmulF32Imm (liD w) (liImm w))
  else if liFn w = 2#2 then .ok (.fmaxF32Imm (liD w) (liImm w))
  else if liFn w = 3#2 then .ok (.fminF32Imm (liD w) (liImm w))
  else .error .reservedOp

/-- Lane major 0x25 (R144). -/
def decodeLane25 (w : Word) : Except DecodeError Instr :=
  if liFn w = 0#2 then .ok (.faddF64Imm (liD w) (liImm w))
  else if liFn w = 1#2 then .ok (.fmulF64Imm (liD w) (liImm w))
  else if liFn w = 2#2 then .ok (.fmaxF64Imm (liD w) (liImm w))
  else if liFn w = 3#2 then .ok (.fminF64Imm (liD w) (liImm w))
  else .error .reservedOp

/-- Lane major 0x26 (R144, R367). -/
def decodeLane26 (w : Word) : Except DecodeError Instr :=
  if liFn w = 0#2 then .ok (.fmulF16Imm (liD w) (liImm w))
  else if liFn w = 1#2 then .ok (.fmulBf16Imm (liD w) (liImm w))
  else if liFn w = 2#2 then .ok (.fmulE4m3Imm (liD w) (liImm w))
  else if liFn w = 3#2 then .ok (.fmulE5m2Imm (liD w) (liImm w))
  else .error .reservedOp

/-- Lane major 0x28 (R145). -/
def decodeLane28 (w : Word) : Except DecodeError Instr :=
  if lrFn w = 0#3 then if lrB w = 0#7 then .ok (.cvtF32I32 (lrD w) (lrA w) (bit1 (lrT w))) else .error .checkedZero
  else if lrFn w = 1#3 then if lrB w = 0#7 then .ok (.cvtF32N32 (lrD w) (lrA w) (bit1 (lrT w))) else .error .checkedZero
  else if lrFn w = 2#3 then if lrB w = 0#7 then .ok (.cvtI32F32 (lrD w) (lrA w) (bit1 (lrT w))) else .error .checkedZero
  else if lrFn w = 3#3 then if lrB w = 0#7 then .ok (.cvtN32F32 (lrD w) (lrA w) (bit1 (lrT w))) else .error .checkedZero
  else if lrFn w = 4#3 then if lrB w = 0#7 then .ok (.cvtF64I64 (lrD w) (lrA w) (bit1 (lrT w))) else .error .checkedZero
  else if lrFn w = 5#3 then if lrB w = 0#7 then .ok (.cvtI64F64 (lrD w) (lrA w) (bit1 (lrT w))) else .error .checkedZero
  else if lrFn w = 6#3 then if lrB w = 0#7 then .ok (.cvtF64I32 (lrD w) (lrA w) (bit1 (lrT w))) else .error .checkedZero
  else if lrFn w = 7#3 then if lrB w = 0#7 then .ok (.cvtI32F64 (lrD w) (lrA w) (bit1 (lrT w))) else .error .checkedZero
  else .error .reservedOp

/-- Lane major 0x29 (R145). -/
def decodeLane29 (w : Word) : Except DecodeError Instr :=
  if lrFn w = 0#3 then if lrB w = 0#7 then .ok (.cvtF64F32 (lrD w) (lrA w) (bit1 (lrT w))) else .error .checkedZero
  else if lrFn w = 1#3 then if lrB w = 0#7 then .ok (.cvtF32F64 (lrD w) (lrA w) (bit1 (lrT w))) else .error .checkedZero
  else if lrFn w = 2#3 then if lrB w = 0#7 then .ok (.cvtF32F16 (lrD w) (lrA w) (bit1 (lrT w))) else .error .checkedZero
  else if lrFn w = 3#3 then if lrB w = 0#7 then .ok (.cvtF16F32 (lrD w) (lrA w) (bit1 (lrT w))) else .error .checkedZero
  else if lrFn w = 4#3 then if lrB w = 0#7 then .ok (.cvtF32Bf16 (lrD w) (lrA w) (bit1 (lrT w))) else .error .checkedZero
  else if lrFn w = 5#3 then if lrB w = 0#7 then .ok (.cvtBf16F32 (lrD w) (lrA w) (bit1 (lrT w))) else .error .checkedZero
  else if lrFn w = 6#3 then .ok (.cvtE4m3F32 (lrD w) (lrA w) (lrB w) (bit1 (lrT w)))
  else if lrFn w = 7#3 then .ok (.cvtE5m2F32 (lrD w) (lrA w) (lrB w) (bit1 (lrT w)))
  else .error .reservedOp

/-- Lane major 0x2A (R146). -/
def decodeLane2A (w : Word) : Except DecodeError Instr :=
  if lrFn w = 0#3 then if lrB w = 0#7 ∧ lrT w = 0#1 then .ok (.cvtSx2F32 (lrD w) (lrA w)) else .error .checkedZero
  else if lrFn w = 1#3 then if lrB w = 0#7 ∧ lrT w = 0#1 then .ok (.cvtSx4F32 (lrD w) (lrA w)) else .error .checkedZero
  else if lrFn w = 2#3 then if lrB w = 0#7 ∧ lrT w = 0#1 then .ok (.cvtSx7F32 (lrD w) (lrA w)) else .error .checkedZero
  else if lrFn w = 3#3 then if lrB w = 0#7 ∧ lrT w = 0#1 then .ok (.cvtF32Sx2 (lrD w) (lrA w)) else .error .checkedZero
  else if lrFn w = 4#3 then if lrB w = 0#7 ∧ lrT w = 0#1 then .ok (.cvtF32Sx4 (lrD w) (lrA w)) else .error .checkedZero
  else if lrFn w = 5#3 then if lrB w = 0#7 ∧ lrT w = 0#1 then .ok (.cvtF32Sx7 (lrD w) (lrA w)) else .error .checkedZero
  else .error .reservedOp

/-- Lane major 0x2B (R147, R148). -/
def decodeLane2B (w : Word) : Except DecodeError Instr :=
  if lrFn w = 0#3 then .ok (.xlIdxN32 (lrD w) (lrA w) (lrB w) (bit1 (lrT w)))
  else if lrFn w = 1#3 then .ok (.xlXorN32 (lrD w) (lrA w) (lrB w) (bit1 (lrT w)))
  else if lrFn w = 2#3 then .ok (.xlUpN32 (lrD w) (lrA w) (lrB w) (bit1 (lrT w)))
  else if lrFn w = 3#3 then .ok (.xlDownN32 (lrD w) (lrA w) (lrB w) (bit1 (lrT w)))
  else if lrFn w = 4#3 then .ok (.xlIdxN64 (lrD w) (lrA w) (lrB w) (bit1 (lrT w)))
  else if lrFn w = 5#3 then if (lrA w).extractLsb' 3 4 = 0#4 ∧ lrB w = 0#7 then .ok (.xlBallotN64 (lrD w) ((lrA w).extractLsb' 0 3) (bit1 (lrT w))) else .error .checkedZero
  else if lrFn w = 6#3 then if lrB w = 0#7 then .ok (.xlAddI32 (lrD w) (lrA w) (bit1 (lrT w))) else .error .checkedZero
  else .error .reservedOp

/-- Lane major 0x2C (R152). -/
def decodeLane2C (w : Word) : Except DecodeError Instr :=
  if (lmOp w).extractLsb' 2 1 = 0#1 then .ok (.ldStk (lmD w) ((lmOp w).extractLsb' 0 2) (lmA w) (lmLa w) (lmOff w))
  else if (lmOp w).extractLsb' 2 1 = 1#1 then if lmLa w = 0#4 then .ok (.stStk (lmD w) ((lmOp w).extractLsb' 0 2) (lmA w) (lmOff w)) else .error .checkedZero
  else .error .reservedOp

/-- Lane major 0x2D (R152). -/
def decodeLane2D (w : Word) : Except DecodeError Instr :=
  if (lmOp w).extractLsb' 2 1 = 0#1 then .ok (.ldSh (lmD w) ((lmOp w).extractLsb' 0 2) (lmA w) (lmLa w) (lmOff w))
  else if (lmOp w).extractLsb' 2 1 = 1#1 then if lmLa w = 0#4 then .ok (.stSh (lmD w) ((lmOp w).extractLsb' 0 2) (lmA w) (lmOff w)) else .error .checkedZero
  else .error .reservedOp

/-- Lane major 0x2E (R152). -/
def decodeLane2E (w : Word) : Except DecodeError Instr :=
  if (lmOp w).extractLsb' 2 1 = 0#1 then .ok (.ldDie (lmD w) ((lmOp w).extractLsb' 0 2) (lmA w) (lmLa w) (lmOff w))
  else if (lmOp w).extractLsb' 2 1 = 1#1 then if lmLa w = 0#4 then .ok (.stDie (lmD w) ((lmOp w).extractLsb' 0 2) (lmA w) (lmOff w)) else .error .checkedZero
  else .error .reservedOp

/-- Lane major 0x2F (R218, R219). -/
def decodeLane2F (w : Word) : Except DecodeError Instr :=
  if (lmOp w).extractLsb' 2 1 = 0#1 then .ok (.ldFl (lmD w) ((lmOp w).extractLsb' 0 2) (lmA w) (lmLa w) (lmOff w))
  else if (lmOp w).extractLsb' 2 1 = 1#1 then if lmLa w = 0#4 then .ok (.stFl (lmD w) ((lmOp w).extractLsb' 0 2) (lmA w) (lmOff w)) else .error .checkedZero
  else .error .reservedOp

/-- Lane major 0x30 (R154, R58). -/
def decodeLane30 (w : Word) : Except DecodeError Instr :=
  if loKind w = 0#3 then if loSp w = 0#2 then .error .reservedSpace else if loZ w = 0#3 then .ok (.ldAcq (loD w) (loA w) (loLa w) (loSp w) (loSz w)) else .error .checkedZero
  else if loKind w = 1#3 then if loSp w = 0#2 then .error .reservedSpace else if loLa w = 0#4 ∧ loZ w = 0#3 then .ok (.stRel (loD w) (loA w) (loSp w) (loSz w)) else .error .checkedZero
  else if loKind w = 2#3 then if loSp w = 0#2 ∨ loSp w = 3#2 then .error .reservedSpace else if loLa w = 0#4 ∧ loZ w = 0#3 then .ok (.stNt (loD w) (loA w) (loSp w) (loSz w)) else .error .checkedZero
  else .error .reservedOp

/-- Lane major 0x31 (R156). -/
def decodeLane31 (w : Word) : Except DecodeError Instr :=
  if laAop w = 0#4 then if laSp w = 0#2 then .error .reservedSpace else if laZ w = 0#1 then .ok (.atomAdd (laD w) (laA w) (laSz w) (laOrd w) (laLa w) (laSp w)) else .error .checkedZero
  else if laAop w = 1#4 then if laSp w = 0#2 then .error .reservedSpace else if laZ w = 0#1 then .ok (.atomAnd (laD w) (laA w) (laSz w) (laOrd w) (laLa w) (laSp w)) else .error .checkedZero
  else if laAop w = 2#4 then if laSp w = 0#2 then .error .reservedSpace else if laZ w = 0#1 then .ok (.atomOr (laD w) (laA w) (laSz w) (laOrd w) (laLa w) (laSp w)) else .error .checkedZero
  else if laAop w = 3#4 then if laSp w = 0#2 then .error .reservedSpace else if laZ w = 0#1 then .ok (.atomXor (laD w) (laA w) (laSz w) (laOrd w) (laLa w) (laSp w)) else .error .checkedZero
  else if laAop w = 4#4 then if laSp w = 0#2 then .error .reservedSpace else if laZ w = 0#1 then .ok (.atomMinI (laD w) (laA w) (laSz w) (laOrd w) (laLa w) (laSp w)) else .error .checkedZero
  else if laAop w = 5#4 then if laSp w = 0#2 then .error .reservedSpace else if laZ w = 0#1 then .ok (.atomMaxI (laD w) (laA w) (laSz w) (laOrd w) (laLa w) (laSp w)) else .error .checkedZero
  else if laAop w = 6#4 then if laSp w = 0#2 then .error .reservedSpace else if laZ w = 0#1 then .ok (.atomMinN (laD w) (laA w) (laSz w) (laOrd w) (laLa w) (laSp w)) else .error .checkedZero
  else if laAop w = 7#4 then if laSp w = 0#2 then .error .reservedSpace else if laZ w = 0#1 then .ok (.atomMaxN (laD w) (laA w) (laSz w) (laOrd w) (laLa w) (laSp w)) else .error .checkedZero
  else if laAop w = 8#4 then if laSp w = 0#2 then .error .reservedSpace else if laZ w = 0#1 then .ok (.atomExch (laD w) (laA w) (laSz w) (laOrd w) (laLa w) (laSp w)) else .error .checkedZero
  else if laAop w = 9#4 then if laSp w = 0#2 then .error .reservedSpace else if laZ w = 0#1 then .ok (.atomCas (laD w) (laA w) (laSz w) (laOrd w) (laLa w) (laSp w)) else .error .checkedZero
  else .error .reservedOp

/-- Lane major 0x32 (R158, R159). -/
def decodeLane32 (w : Word) : Except DecodeError Instr :=
  if lbCond w = 15#4 then .ok (.call (lbOff w))
  else
  .ok (.br (lbCond w) (lbOff w))

/-- Lane major 0x33 (R160). -/
def decodeLane33 (w : Word) : Except DecodeError Instr :=
  if lbCond w = 15#4 then .error .reservedOp else .ok (.loopBr (lbCond w) (lbOff w))

/-- Lane major 0x34 (R122, R159, R161, R163, R164, R165, R166, R58). -/
noncomputable def decodeLane34 (w : Word) : Except DecodeError Instr :=
  if lxC w = 0#7 then if lxA w = 0#7 ∧ lxB w = 0#7 ∧ lxLa w = 0#4 then .ok (.nop) else .error .checkedZero
  else if lxC w = 1#7 then if lxA w = 0#7 ∧ lxB w = 0#7 ∧ lxLa w = 0#4 then .ok (.ret) else .error .checkedZero
  else if lxC w = 2#7 then if lxB w = 0#7 ∧ lxLa w = 0#4 then .ok (.brInd (lxA w)) else .error .checkedZero
  else if lxC w = 3#7 then if lxB w = 0#7 ∧ lxLa w = 0#4 then .ok (.callInd (lxA w)) else .error .checkedZero
  else if lxC w = 4#7 then if lxLa w = 0#4 then .ok (.rgn (lxA w) (lxB w)) else .error .checkedZero
  else if lxC w = 5#7 then if (lxB w).extractLsb' 2 5 = 0#5 ∧ lxLa w = 0#4 then .ok (.ixSet (lxA w) ((lxB w).extractLsb' 0 2)) else .error .checkedZero
  else if lxC w = 6#7 then if (lxB w).extractLsb' 2 5 = 0#5 then .ok (.ixGet (lxA w) ((lxB w).extractLsb' 0 2) (lxLa w)) else .error .checkedZero
  else if lxC w = 7#7 then if lxLa w = 0#4 then .ok (.rotSet (lxA w) (lxB w)) else .error .checkedZero
  else if lxC w = 8#7 then if lxB w = 0#7 ∨ ¬ lxB w ≤ 5#7 then .error .reservedScope else if lxA w = 0#7 ∧ lxLa w = 0#4 then .ok (.fence (lxB w)) else .error .checkedZero
  else if lxC w = 9#7 then if lxA w = 0#7 ∧ lxB w = 0#7 ∧ lxLa w = 0#4 then .ok (.ntDrain) else .error .checkedZero
  else if lxC w = 10#7 then if ¬ lxB w ≤ 11#7 then .error .systemRegister else .ok (.srRd (lxA w) (lxB w) (lxLa w))
  else if lxC w = 11#7 then if lxB w = 0#7 then .ok (.spGet (lxA w) (lxLa w)) else .error .checkedZero
  else if lxC w = 12#7 then if lxB w = 0#7 ∧ lxLa w = 0#4 then .ok (.spSet (lxA w)) else .error .checkedZero
  else .error .reservedOp

/-- Lane major 0x3B (R108, R110, R170, R171, R172, R173). -/
noncomputable def decodeLane3B (w : Word) : Except DecodeError Instr :=
  if lxC w = 0#7 then if (lxA w).extractLsb' 4 3 = 0#3 ∧ lxB w = 0#7 ∧ lxLa w = 0#4 then .ok (.tbJoin ((lxA w).extractLsb' 0 4)) else .error .checkedZero
  else if lxC w = 1#7 then if (lxA w).extractLsb' 4 3 = 0#3 then .ok (.tbSign ((lxA w).extractLsb' 0 4) (lxB w) (lxLa w)) else .error .checkedZero
  else if lxC w = 2#7 then if (lxA w).extractLsb' 4 3 = 0#3 ∧ lxLa w = 0#4 then .ok (.tbWait ((lxA w).extractLsb' 0 4) (lxB w)) else .error .checkedZero
  else if lxC w = 3#7 then if (lxA w).extractLsb' 4 3 = 0#3 ∧ lxB w = 0#7 ∧ lxLa w = 0#4 then .ok (.weld ((lxA w).extractLsb' 0 4)) else .error .checkedZero
  else if lxC w = 4#7 then if lxB w = 0#7 ∧ lxLa w = 0#4 then .ok (.ltArrive (lxA w)) else .error .checkedZero
  else if lxC w = 5#7 then if (lxB w).extractLsb' 1 6 = 0#6 ∧ lxLa w = 0#4 then .ok (.ltWait (lxA w) ((lxB w).extractLsb' 0 1)) else .error .checkedZero
  else if lxC w = 6#7 then .ok (.ltPhase (lxA w) (lxB w) (lxLa w))
  else if lxC w = 8#7 then if ¬ (lxB w).extractLsb' 4 3 ≤ 5#3 then .error .reservedScope else if lxLa w = 0#4 then .ok (.tlWait (lxA w) ((lxB w).extractLsb' 4 3) ((lxB w).extractLsb' 0 4)) else .error .checkedZero
  else if lxC w = 9#7 then if (lxB w).extractLsb' 4 3 = 0#3 then .ok (.tlRd (lxA w) ((lxB w).extractLsb' 0 4) (lxLa w)) else .error .checkedZero
  else if lxC w = 10#7 then if lxA w = 0#7 ∧ lxB w = 0#7 ∧ lxLa w = 0#4 then .ok (.barCrew) else .error .checkedZero
  else if (lxC w).extractLsb' 2 5 = 3#5 then if lxLa w = 0#4 then .ok (.unjoin (lxA w) (lxB w) ((lxC w).extractLsb' 0 2)) else .error .checkedZero
  else .error .reservedOp

/-- Lane major 0x3C (R174, R175, R178). -/
noncomputable def decodeLane3C (w : Word) : Except DecodeError Instr :=
  if lxC w = 0#7 then if lxA w = 0#7 ∧ lxB w = 0#7 ∧ lxLa w = 0#4 then .ok (.endThread) else .error .checkedZero
  else if lxC w = 1#7 then if lxLa w = 0#4 then .ok (.trap (lxA w) (lxB w)) else .error .checkedZero
  else if lxC w = 2#7 then if lxA w = 0#7 ∧ lxB w = 0#7 ∧ lxLa w = 0#4 then .ok (.tret) else .error .checkedZero
  else .error .reservedOp

/-- Lane major 0x37 (R198, R199, R204, R210). -/
noncomputable def decodeLane37 (w : Word) : Except DecodeError Instr :=
  if (lxC w).extractLsb' 3 4 = 0#4 then if lxLa w = 0#4 then .ok (.cpT (lxA w) (lxB w) ((lxC w).extractLsb' 0 3)) else .error .checkedZero
  else if lxC w = 8#7 then if lxA w = 0#7 ∧ (lxB w).extractLsb' 3 4 = 0#4 ∧ lxLa w = 0#4 then .ok (.cpWait ((lxB w).extractLsb' 0 3)) else .error .checkedZero
  else if lxC w = 9#7 then if (lxB w).extractLsb' 3 4 = 0#4 then .ok (.cpCnt (lxA w) ((lxB w).extractLsb' 0 3) (lxLa w)) else .error .checkedZero
  else if lxC w = 10#7 then if lxA w = 0#7 ∧ lxB w = 0#7 ∧ lxLa w = 0#4 then .ok (.cpWaitAll) else .error .checkedZero
  else if lxC w = 16#7 then if lxB w = 0#7 ∧ lxLa w = 0#4 then .ok (.kick (lxA w)) else .error .checkedZero
  else if lxC w = 17#7 then .ok (.kickN (lxA w) (lxB w) (lxLa w))
  else if (lxC w).extractLsb' 2 5 = 16#5 then .ok (.atomFarAdd (lxA w) ((lxB w).extractLsb' 5 2) ((lxB w).extractLsb' 0 5) (lxLa w) ((lxC w).extractLsb' 1 1) ((lxC w).extractLsb' 0 1))
  else if (lxC w).extractLsb' 2 5 = 17#5 then .ok (.atomFarAnd (lxA w) ((lxB w).extractLsb' 5 2) ((lxB w).extractLsb' 0 5) (lxLa w) ((lxC w).extractLsb' 1 1) ((lxC w).extractLsb' 0 1))
  else if (lxC w).extractLsb' 2 5 = 18#5 then .ok (.atomFarOr (lxA w) ((lxB w).extractLsb' 5 2) ((lxB w).extractLsb' 0 5) (lxLa w) ((lxC w).extractLsb' 1 1) ((lxC w).extractLsb' 0 1))
  else if (lxC w).extractLsb' 2 5 = 19#5 then .ok (.atomFarXor (lxA w) ((lxB w).extractLsb' 5 2) ((lxB w).extractLsb' 0 5) (lxLa w) ((lxC w).extractLsb' 1 1) ((lxC w).extractLsb' 0 1))
  else if (lxC w).extractLsb' 2 5 = 20#5 then .ok (.atomFarMinI (lxA w) ((lxB w).extractLsb' 5 2) ((lxB w).extractLsb' 0 5) (lxLa w) ((lxC w).extractLsb' 1 1) ((lxC w).extractLsb' 0 1))
  else if (lxC w).extractLsb' 2 5 = 21#5 then .ok (.atomFarMaxI (lxA w) ((lxB w).extractLsb' 5 2) ((lxB w).extractLsb' 0 5) (lxLa w) ((lxC w).extractLsb' 1 1) ((lxC w).extractLsb' 0 1))
  else if (lxC w).extractLsb' 2 5 = 22#5 then .ok (.atomFarMinN (lxA w) ((lxB w).extractLsb' 5 2) ((lxB w).extractLsb' 0 5) (lxLa w) ((lxC w).extractLsb' 1 1) ((lxC w).extractLsb' 0 1))
  else if (lxC w).extractLsb' 2 5 = 23#5 then .ok (.atomFarMaxN (lxA w) ((lxB w).extractLsb' 5 2) ((lxB w).extractLsb' 0 5) (lxLa w) ((lxC w).extractLsb' 1 1) ((lxC w).extractLsb' 0 1))
  else if (lxC w).extractLsb' 2 5 = 24#5 then .ok (.atomFarExch (lxA w) ((lxB w).extractLsb' 5 2) ((lxB w).extractLsb' 0 5) (lxLa w) ((lxC w).extractLsb' 1 1) ((lxC w).extractLsb' 0 1))
  else if (lxC w).extractLsb' 2 5 = 25#5 then .ok (.atomFarCas (lxA w) ((lxB w).extractLsb' 5 2) ((lxB w).extractLsb' 0 5) (lxLa w) ((lxC w).extractLsb' 1 1) ((lxC w).extractLsb' 0 1))
  else .error .reservedOp

/-- Lane major 0x38 (R222). -/
noncomputable def decodeLane38 (w : Word) : Except DecodeError Instr :=
  if lxB w = 0#7 ∧ lxC w = 0#7 then if lxLa w = 0#4 then .ok (.flBirth (lxA w)) else .error .checkedZero
  else if lxB w = 1#7 ∧ lxC w = 0#7 then if lxLa w = 0#4 then .ok (.flBirthZ (lxA w)) else .error .checkedZero
  else if lxC w = 1#7 then if lxB w = 0#7 ∧ lxLa w = 0#4 then .ok (.flRenew (lxA w)) else .error .checkedZero
  else if lxC w = 2#7 then .ok (.flLife (lxA w) (lxB w) (lxLa w))
  else if lxC w = 3#7 then if lxB w = 0#7 ∧ lxLa w = 0#4 then .ok (.flFree (lxA w)) else .error .checkedZero
  else if lxC w = 4#7 then .ok (.flStat (lxA w) (lxB w) (lxLa w))
  else if lxC w = 5#7 then if lxLa w = 0#4 then .ok (.flStatClr (lxA w) (lxB w)) else .error .checkedZero
  else .error .reservedOp

/-- Lane major 0x35 (R233, R236, R237, R238, R240, R242, R245, R246, R248, R249, R250, R251). -/
noncomputable def decodeLane35 (w : Word) : Except DecodeError Instr :=
  if mxSub w = 0#2 then if mxLa w = 0#4 then .ok (.mma (mxA w) (mxAcc w) (mxOb w) (mxTb w) (bit1 (mxKeep w))) else .error .checkedZero
  else if mxSub w = 1#2 then if mxLa w = 0#4 then .ok (.mmaZero (mxA w) (mxAcc w) (mxOb w) (mxTb w) (bit1 (mxKeep w))) else .error .checkedZero
  else if lxC w = 3#7 then .ok (.mxLease (lxA w) (lxB w) (lxLa w))
  else if lxC w = 7#7 then if lxA w = 0#7 ∧ lxB w = 0#7 ∧ lxLa w = 0#4 then .ok (.mxRelease) else .error .checkedZero
  else if lxC w = 11#7 then if (lxB w).extractLsb' 4 3 = 0#3 ∧ lxLa w = 0#4 then .ok (.obResv (lxA w) ((lxB w).extractLsb' 0 4)) else .error .checkedZero
  else if lxC w = 15#7 then if lxA w = 0#7 ∧ (lxB w).extractLsb' 4 3 = 0#3 ∧ lxLa w = 0#4 then .ok (.obFree ((lxB w).extractLsb' 0 4)) else .error .checkedZero
  else if lxC w = 19#7 then if (lxB w).extractLsb' 5 2 = 0#2 ∧ lxLa w = 0#4 then .ok (.obLd (lxA w) ((lxB w).extractLsb' 4 1) ((lxB w).extractLsb' 0 4)) else .error .checkedZero
  else if lxC w = 23#7 then .ok (.accRd (lxA w) (lxB w) (lxLa w))
  else if lxC w = 27#7 then if lxA w = 0#7 ∧ (lxB w).extractLsb' 6 1 = 0#1 ∧ lxLa w = 0#4 then .ok (.accWait ((lxB w).extractLsb' 3 3) ((lxB w).extractLsb' 0 3)) else .error .checkedZero
  else if lxC w = 31#7 then if lxA w = 0#7 ∧ (lxB w).extractLsb' 2 5 = 0#5 ∧ lxLa w = 0#4 then .ok (.mxFreeze ((lxB w).extractLsb' 0 2)) else .error .checkedZero
  else if lxC w = 35#7 then if lxA w = 0#7 ∧ (lxB w).extractLsb' 2 5 = 0#5 ∧ lxLa w = 0#4 then .ok (.mxThaw ((lxB w).extractLsb' 0 2)) else .error .checkedZero
  else if lxC w = 39#7 then if (lxB w).extractLsb' 5 2 = 0#2 ∧ lxLa w = 0#4 then .ok (.accDrain (lxA w) ((lxB w).extractLsb' 2 3) ((lxB w).extractLsb' 0 2)) else .error .checkedZero
  else if lxC w = 43#7 then if (lxB w).extractLsb' 5 2 = 0#2 ∧ lxLa w = 0#4 then .ok (.accFill (lxA w) ((lxB w).extractLsb' 2 3) ((lxB w).extractLsb' 0 2)) else .error .checkedZero
  else if lxC w = 47#7 then if lxLa w = 0#4 then .ok (.obDrain (lxA w) ((lxB w).extractLsb' 2 5) ((lxB w).extractLsb' 0 2)) else .error .checkedZero
  else if lxC w = 51#7 then if lxLa w = 0#4 then .ok (.obFill (lxA w) ((lxB w).extractLsb' 2 5) ((lxB w).extractLsb' 0 2)) else .error .checkedZero
  else .error .reservedOp

/-- Lane major 0x36 (R263, R264, R265, R270, R271). -/
noncomputable def decodeLane36 (w : Word) : Except DecodeError Instr :=
  if lxC w = 0#7 then if (lxB w).extractLsb' 3 4 = 0#4 ∧ lxLa w = 0#4 then .ok (.itRange (lxA w) ((lxB w).extractLsb' 0 3)) else .error .checkedZero
  else if lxC w = 1#7 then if (lxB w).extractLsb' 3 4 = 0#4 ∧ lxLa w = 0#4 then .ok (.itList (lxA w) ((lxB w).extractLsb' 0 3)) else .error .checkedZero
  else if lxC w = 2#7 then if (lxB w).extractLsb' 3 4 = 0#4 ∧ lxLa w = 0#4 then .ok (.itBits (lxA w) ((lxB w).extractLsb' 0 3)) else .error .checkedZero
  else if lxC w = 3#7 then if (lxB w).extractLsb' 3 4 = 0#4 ∧ lxLa w = 0#4 then .ok (.itQueue (lxA w) ((lxB w).extractLsb' 0 3)) else .error .checkedZero
  else if lxC w = 4#7 then if (lxB w).extractLsb' 3 4 = 0#4 ∧ lxLa w = 0#4 then .ok (.itMap (lxA w) ((lxB w).extractLsb' 0 3)) else .error .checkedZero
  else if lxC w = 5#7 then if (lxB w).extractLsb' 3 4 = 0#4 ∧ lxLa w = 0#4 then .ok (.itFilter (lxA w) ((lxB w).extractLsb' 0 3)) else .error .checkedZero
  else if lxC w = 6#7 then if (lxB w).extractLsb' 3 4 = 0#4 ∧ lxLa w = 0#4 then .ok (.itZip (lxA w) ((lxB w).extractLsb' 0 3)) else .error .checkedZero
  else if lxC w = 7#7 then if (lxB w).extractLsb' 3 4 = 0#4 ∧ lxLa w = 0#4 then .ok (.itChain (lxA w) ((lxB w).extractLsb' 0 3)) else .error .checkedZero
  else if lxC w = 8#7 then if (lxB w).extractLsb' 3 4 = 0#4 ∧ lxLa w = 0#4 then .ok (.itFlat (lxA w) ((lxB w).extractLsb' 0 3)) else .error .checkedZero
  else if (lxC w).extractLsb' 3 4 = 2#4 then .ok (.itNext (lxA w) (lxB w) (lxLa w) ((lxC w).extractLsb' 0 3))
  else if lxC w = 24#7 then if lxA w = 0#7 ∧ (lxB w).extractLsb' 3 4 = 0#4 ∧ lxLa w = 0#4 then .ok (.itEnough ((lxB w).extractLsb' 0 3)) else .error .checkedZero
  else if lxC w = 25#7 then if lxA w = 0#7 ∧ (lxB w).extractLsb' 3 4 = 0#4 ∧ lxLa w = 0#4 then .ok (.itFree ((lxB w).extractLsb' 0 3)) else .error .checkedZero
  else if lxC w = 26#7 then if (lxB w).extractLsb' 3 4 = 0#4 then .ok (.itStat (lxA w) ((lxB w).extractLsb' 0 3) (lxLa w)) else .error .checkedZero
  else if lxC w = 27#7 then if (lxB w).extractLsb' 6 1 = 0#1 ∧ lxLa w = 0#4 then .ok (.itRd (lxA w) ((lxB w).extractLsb' 3 3) ((lxB w).extractLsb' 0 3)) else .error .checkedZero
  else .error .reservedOp

/-- Lane major 0x39 (R289, R293, R295, R323). -/
noncomputable def decodeLane39 (w : Word) : Except DecodeError Instr :=
  if lxC w = 0#7 then if lxLa w = 0#4 then .ok (.qPush (lxA w) (lxB w)) else .error .checkedZero
  else if lxC w = 1#7 then if lxLa w = 0#4 then .ok (.qPushNb (lxA w) (lxB w)) else .error .checkedZero
  else if lxC w = 2#7 then .ok (.qPop (lxA w) (lxB w) (lxLa w))
  else if lxC w = 3#7 then .ok (.qPopNb (lxA w) (lxB w) (lxLa w))
  else if lxC w = 4#7 then .ok (.qStat (lxA w) (lxB w) (lxLa w))
  else if lxC w = 5#7 then if lxLa w = 0#4 then .ok (.emit (lxA w) (lxB w)) else .error .checkedZero
  else if lxC w = 16#7 then if lxLa w = 0#4 then .ok (.hcall (lxA w) (lxB w)) else .error .checkedZero
  else .error .reservedOp

/-- Lane major 0x3A (R339, R340, R341, R342). -/
noncomputable def decodeLane3A (w : Word) : Except DecodeError Instr :=
  if lxC w = 0#7 then if lxLa w = 0#4 then .ok (.colSend (lxA w) (lxB w)) else .error .checkedZero
  else if lxC w = 1#7 then if lxLa w = 0#4 then .ok (.colRecv (lxA w) (lxB w)) else .error .checkedZero
  else if lxC w = 2#7 then if lxLa w = 0#4 then .ok (.colRed (lxA w) (lxB w)) else .error .checkedZero
  else if lxC w = 3#7 then if lxA w = 0#7 ∧ lxB w = 0#7 ∧ lxLa w = 0#4 then .ok (.colGangbar) else .error .checkedZero
  else if lxC w = 4#7 then if lxB w = 0#7 ∧ lxLa w = 0#4 then .ok (.colAbort (lxA w)) else .error .checkedZero
  else if lxC w = 5#7 then if lxLa w = 0#4 then .ok (.colStat (lxA w) (lxB w)) else .error .checkedZero
  else .error .reservedOp

/-- Lane major 0x3F (R66). -/
noncomputable def decodeLane3F (w : Word) : Except DecodeError Instr :=
  if pxZ w = 0#10 then .ok (.pfx (pxPred w) (bit1 (pxMz w)) (pxRnd w) (pxVc w) (bit1 (pxNeg w))) else .error .prefixZero

/-- Uniform major 0x00 (R149). -/
noncomputable def decodeUniform00 (w : Word) : Except DecodeError Instr :=
  if grFn w = 0#6 then if grZ w = 0#1 then .ok (.gAddI64 (grD w) (grA w) (grB w)) else .error .checkedZero
  else if grFn w = 1#6 then if grZ w = 0#1 then .ok (.gSubI64 (grD w) (grA w) (grB w)) else .error .checkedZero
  else if grFn w = 2#6 then if grB w = 0#6 ∧ grZ w = 0#1 then .ok (.gNegI64 (grD w) (grA w)) else .error .checkedZero
  else if grFn w = 3#6 then if grB w = 0#6 ∧ grZ w = 0#1 then .ok (.gAbsI64 (grD w) (grA w)) else .error .checkedZero
  else .error .reservedOp

/-- Uniform major 0x01 (R149). -/
noncomputable def decodeUniform01 (w : Word) : Except DecodeError Instr :=
  if grFn w = 0#6 then if grZ w = 0#1 then .ok (.gMulI64 (grD w) (grA w) (grB w)) else .error .checkedZero
  else if grFn w = 1#6 then if grZ w = 0#1 then .ok (.gMulhiI64 (grD w) (grA w) (grB w)) else .error .checkedZero
  else if grFn w = 2#6 then if grZ w = 0#1 then .ok (.gMulhiN64 (grD w) (grA w) (grB w)) else .error .checkedZero
  else if grFn w = 3#6 then if grZ w = 0#1 then .ok (.gDivI64 (grD w) (grA w) (grB w)) else .error .checkedZero
  else if grFn w = 4#6 then if grZ w = 0#1 then .ok (.gDivN64 (grD w) (grA w) (grB w)) else .error .checkedZero
  else if grFn w = 5#6 then if grZ w = 0#1 then .ok (.gRemI64 (grD w) (grA w) (grB w)) else .error .checkedZero
  else if grFn w = 6#6 then if grZ w = 0#1 then .ok (.gRemN64 (grD w) (grA w) (grB w)) else .error .checkedZero
  else .error .reservedOp

/-- Uniform major 0x02 (R149). -/
noncomputable def decodeUniform02 (w : Word) : Except DecodeError Instr :=
  if grFn w = 0#6 then if grZ w = 0#1 then .ok (.gAndN64 (grD w) (grA w) (grB w)) else .error .checkedZero
  else if grFn w = 1#6 then if grZ w = 0#1 then .ok (.gOrN64 (grD w) (grA w) (grB w)) else .error .checkedZero
  else if grFn w = 2#6 then if grZ w = 0#1 then .ok (.gXorN64 (grD w) (grA w) (grB w)) else .error .checkedZero
  else if grFn w = 3#6 then if grZ w = 0#1 then .ok (.gAndnN64 (grD w) (grA w) (grB w)) else .error .checkedZero
  else if grFn w = 4#6 then if grB w = 0#6 ∧ grZ w = 0#1 then .ok (.gNotN64 (grD w) (grA w)) else .error .checkedZero
  else .error .reservedOp

/-- Uniform major 0x03 (R149). -/
noncomputable def decodeUniform03 (w : Word) : Except DecodeError Instr :=
  if grFn w = 0#6 then if grZ w = 0#1 then .ok (.gShlN64 (grD w) (grA w) (grB w)) else .error .checkedZero
  else if grFn w = 1#6 then if grZ w = 0#1 then .ok (.gShrN64 (grD w) (grA w) (grB w)) else .error .checkedZero
  else if grFn w = 2#6 then if grZ w = 0#1 then .ok (.gShrI64 (grD w) (grA w) (grB w)) else .error .checkedZero
  else if grFn w = 3#6 then if grZ w = 0#1 then .ok (.gRolN64 (grD w) (grA w) (grB w)) else .error .checkedZero
  else if grFn w = 4#6 then if grZ w = 0#1 then .ok (.gRorN64 (grD w) (grA w) (grB w)) else .error .checkedZero
  else .error .reservedOp

/-- Uniform major 0x04 (R149). -/
noncomputable def decodeUniform04 (w : Word) : Except DecodeError Instr :=
  if grFn w = 0#6 then if grZ w = 0#1 then .ok (.gSetEqI64 (grD w) (grA w) (grB w)) else .error .checkedZero
  else if grFn w = 1#6 then if grZ w = 0#1 then .ok (.gSetNeI64 (grD w) (grA w) (grB w)) else .error .checkedZero
  else if grFn w = 2#6 then if grZ w = 0#1 then .ok (.gSetLtI64 (grD w) (grA w) (grB w)) else .error .checkedZero
  else if grFn w = 3#6 then if grZ w = 0#1 then .ok (.gSetLeI64 (grD w) (grA w) (grB w)) else .error .checkedZero
  else if grFn w = 4#6 then if grZ w = 0#1 then .ok (.gSetLtN64 (grD w) (grA w) (grB w)) else .error .checkedZero
  else if grFn w = 5#6 then if grZ w = 0#1 then .ok (.gSetLeN64 (grD w) (grA w) (grB w)) else .error .checkedZero
  else .error .reservedOp

/-- Uniform major 0x05 (R149). -/
noncomputable def decodeUniform05 (w : Word) : Except DecodeError Instr :=
  if grFn w = 0#6 then if grZ w = 0#1 then .ok (.gMinI64 (grD w) (grA w) (grB w)) else .error .checkedZero
  else if grFn w = 1#6 then if grZ w = 0#1 then .ok (.gMaxI64 (grD w) (grA w) (grB w)) else .error .checkedZero
  else if grFn w = 2#6 then if grZ w = 0#1 then .ok (.gMinN64 (grD w) (grA w) (grB w)) else .error .checkedZero
  else if grFn w = 3#6 then if grZ w = 0#1 then .ok (.gMaxN64 (grD w) (grA w) (grB w)) else .error .checkedZero
  else .error .reservedOp

/-- Uniform major 0x06 (R149). -/
noncomputable def decodeUniform06 (w : Word) : Except DecodeError Instr :=
  if grFn w = 0#6 then if grB w = 0#6 ∧ grZ w = 0#1 then .ok (.gMovN64 (grD w) (grA w)) else .error .checkedZero
  else if grFn w = 1#6 then if grZ w = 0#1 then .ok (.gMovnzN64 (grD w) (grA w) (grB w)) else .error .checkedZero
  else if grFn w = 2#6 then if grZ w = 0#1 then .ok (.gMovzN64 (grD w) (grA w) (grB w)) else .error .checkedZero
  else .error .reservedOp

/-- Uniform major 0x07 (R149). -/
noncomputable def decodeUniform07 (w : Word) : Except DecodeError Instr :=
  if grFn w = 0#6 then if grB w = 0#6 ∧ grZ w = 0#1 then .ok (.gPopcN64 (grD w) (grA w)) else .error .checkedZero
  else if grFn w = 1#6 then if grB w = 0#6 ∧ grZ w = 0#1 then .ok (.gClzN64 (grD w) (grA w)) else .error .checkedZero
  else if grFn w = 2#6 then if grB w = 0#6 ∧ grZ w = 0#1 then .ok (.gCtzN64 (grD w) (grA w)) else .error .checkedZero
  else if grFn w = 3#6 then if grB w = 0#6 ∧ grZ w = 0#1 then .ok (.gBrevN64 (grD w) (grA w)) else .error .checkedZero
  else .error .reservedOp

/-- Uniform major 0x08 (R150). -/
noncomputable def decodeUniform08 (w : Word) : Except DecodeError Instr :=
  if giFn w = 0#3 then .ok (.gAddI64Imm (giD w) (giImm w))
  else if giFn w = 1#3 then .ok (.gMulI64Imm (giD w) (giImm w))
  else if giFn w = 2#3 then .ok (.gMinI64Imm (giD w) (giImm w))
  else if giFn w = 3#3 then .ok (.gMaxI64Imm (giD w) (giImm w))
  else .error .reservedOp

/-- Uniform major 0x09 (R150). -/
noncomputable def decodeUniform09 (w : Word) : Except DecodeError Instr :=
  if giFn w = 0#3 then .ok (.gAndN64Imm (giD w) (giImm w))
  else if giFn w = 1#3 then .ok (.gOrN64Imm (giD w) (giImm w))
  else if giFn w = 2#3 then .ok (.gXorN64Imm (giD w) (giImm w))
  else if giFn w = 3#3 then .ok (.gAndI64Imm (giD w) (giImm w))
  else .error .reservedOp

/-- Uniform major 0x0A (R150). -/
noncomputable def decodeUniform0A (w : Word) : Except DecodeError Instr :=
  if giFn w = 0#3 then .ok (.gShlN64Imm (giD w) (giImm w))
  else if giFn w = 1#3 then .ok (.gShrN64Imm (giD w) (giImm w))
  else if giFn w = 2#3 then .ok (.gShrI64Imm (giD w) (giImm w))
  else if giFn w = 3#3 then .ok (.gRolN64Imm (giD w) (giImm w))
  else .error .reservedOp

/-- Uniform major 0x0B (R150). -/
noncomputable def decodeUniform0B (w : Word) : Except DecodeError Instr :=
  if giFn w = 0#3 then .ok (.gMovI64Imm (giD w) (giImm w))
  else if giFn w = 1#3 then .ok (.gMovN64Imm (giD w) (giImm w))
  else if giFn w = 2#3 then .ok (.gMovk16 (giD w) (giImm w))
  else if giFn w = 3#3 then .ok (.gMovk32 (giD w) (giImm w))
  else if giFn w = 4#3 then .ok (.gMovk48 (giD w) (giImm w))
  else .error .reservedOp

/-- Uniform major 0x0C (R157). -/
noncomputable def decodeUniform0C (w : Word) : Except DecodeError Instr :=
  .ok (.gLdSh (gmD w) (gmA w) (gmSz w) (gmLa w) (gmOff w))

/-- Uniform major 0x0D (R157). -/
noncomputable def decodeUniform0D (w : Word) : Except DecodeError Instr :=
  if gmLa w = 0#4 then .ok (.gStSh (gmD w) (gmA w) (gmSz w) (gmOff w)) else .error .checkedZero

/-- Uniform major 0x0E (R157). -/
noncomputable def decodeUniform0E (w : Word) : Except DecodeError Instr :=
  .ok (.gLdDie (gmD w) (gmA w) (gmSz w) (gmLa w) (gmOff w))

/-- Uniform major 0x0F (R157). -/
noncomputable def decodeUniform0F (w : Word) : Except DecodeError Instr :=
  if gmLa w = 0#4 then .ok (.gStDie (gmD w) (gmA w) (gmSz w) (gmOff w)) else .error .checkedZero

/-- Uniform major 0x10 (R167). -/
noncomputable def decodeUniform10 (w : Word) : Except DecodeError Instr :=
  if ¬ gbCond w ≤ 4#3 then .error .reservedOp else .ok (.gBr (gbCond w) (gbA w) (gbOff w))

/-- Uniform major 0x11 (R151, R168). -/
noncomputable def decodeUniform11 (w : Word) : Except DecodeError Instr :=
  if grFn w = 0#6 then if ¬ grA w ≤ 11#6 then .error .systemRegister else if grB w = 0#6 ∧ grZ w = 0#1 then .ok (.gRdsr (grD w) (grA w)) else .error .checkedZero
  else if grFn w = 1#6 then if grD w = 0#6 ∧ grA w = 0#6 ∧ grB w = 0#6 ∧ grZ w = 0#1 then .ok (.gUconfClr) else .error .checkedZero
  else if grFn w = 16#6 then if grB w = 0#6 ∧ grZ w = 0#1 then .ok (.gRdvN32 (grD w) (grA w)) else .error .checkedZero
  else if grFn w = 17#6 then if grB w = 0#6 ∧ grZ w = 0#1 then .ok (.gWrvN32 (grD w) (grA w)) else .error .checkedZero
  else if grFn w = 18#6 then if grB w = 0#6 ∧ grZ w = 0#1 then .ok (.gWrvN64 (grD w) (grA w)) else .error .checkedZero
  else .error .reservedOp

/-- The instruction of one thread-engine word (R60, R73, R74, R75): total, and every word that no chapter
assigns is rejected by name. -/
noncomputable def decodeWord (w : Word) : Except DecodeError Instr :=
  match (majorOf w).toNat with
  | 0 => decodeLane00 w
  | 1 => decodeLane01 w
  | 2 => decodeLane02 w
  | 3 => decodeLane03 w
  | 4 => decodeLane04 w
  | 5 => decodeLane05 w
  | 6 => decodeLane06 w
  | 7 => decodeLane07 w
  | 8 => decodeLane08 w
  | 9 => decodeLane09 w
  | 10 => decodeLane0A w
  | 11 => decodeLane0B w
  | 12 => decodeLane0C w
  | 13 => decodeLane0D w
  | 14 => decodeLane0E w
  | 15 => decodeLane0F w
  | 16 => decodeLane10 w
  | 17 => decodeLane11 w
  | 18 => decodeLane12 w
  | 19 => decodeLane13 w
  | 20 => decodeLane14 w
  | 21 => decodeLane15 w
  | 22 => decodeLane16 w
  | 24 => decodeLane18 w
  | 25 => decodeLane19 w
  | 26 => decodeLane1A w
  | 27 => decodeLane1B w
  | 28 => decodeLane1C w
  | 29 => decodeLane1D w
  | 30 => decodeLane1E w
  | 31 => decodeLane1F w
  | 32 => decodeLane20 w
  | 33 => decodeLane21 w
  | 34 => decodeLane22 w
  | 36 => decodeLane24 w
  | 37 => decodeLane25 w
  | 38 => decodeLane26 w
  | 40 => decodeLane28 w
  | 41 => decodeLane29 w
  | 42 => decodeLane2A w
  | 43 => decodeLane2B w
  | 44 => decodeLane2C w
  | 45 => decodeLane2D w
  | 46 => decodeLane2E w
  | 47 => decodeLane2F w
  | 48 => decodeLane30 w
  | 49 => decodeLane31 w
  | 50 => decodeLane32 w
  | 51 => decodeLane33 w
  | 52 => decodeLane34 w
  | 59 => decodeLane3B w
  | 60 => decodeLane3C w
  | 55 => decodeLane37 w
  | 56 => decodeLane38 w
  | 53 => decodeLane35 w
  | 54 => decodeLane36 w
  | 57 => decodeLane39 w
  | 58 => decodeLane3A w
  | 63 => decodeLane3F w
  | 64 => decodeUniform00 w
  | 65 => decodeUniform01 w
  | 66 => decodeUniform02 w
  | 67 => decodeUniform03 w
  | 68 => decodeUniform04 w
  | 69 => decodeUniform05 w
  | 70 => decodeUniform06 w
  | 71 => decodeUniform07 w
  | 72 => decodeUniform08 w
  | 73 => decodeUniform09 w
  | 74 => decodeUniform0A w
  | 75 => decodeUniform0B w
  | 76 => decodeUniform0C w
  | 77 => decodeUniform0D w
  | 78 => decodeUniform0E w
  | 79 => decodeUniform0F w
  | 80 => decodeUniform10 w
  | 81 => decodeUniform11 w
  | _ => .error .reservedMajor

/-- The attendant core's custom word: custom-0 opcode 0x0B, funct3 0 for xsf.vld and 1 for xsf.vst (R332). -/
noncomputable def decodeAttendant (w : Word) : Except DecodeError Instr :=
  if w.extractLsb' 0 7 = 0x0B#7 ∧ w.extractLsb' 28 4 = 0#4 then
    if w.extractLsb' 12 3 = 0#3 then
      .ok (.xsfVld (w.extractLsb' 25 3) (w.extractLsb' 20 5) (w.extractLsb' 15 5) (w.extractLsb' 7 5))
    else if w.extractLsb' 12 3 = 1#3 then
      .ok (.xsfVst (w.extractLsb' 25 3) (w.extractLsb' 20 5) (w.extractLsb' 15 5) (w.extractLsb' 7 5))
    else .error .notCustom
  else .error .notCustom

/-- Four bytes of memory, the first at the lowest address, as the word they store (R4, R60). -/
def wordOfBytes (b0 b1 b2 b3 : Byte) : Word := b3 ++ b2 ++ b1 ++ b0

/-- The bytes of a word in memory order (R4). -/
def bytesOfWord (w : Word) : List Byte :=
  [w.extractLsb' 0 8, w.extractLsb' 8 8, w.extractLsb' 16 8, w.extractLsb' 24 8]

/-- Decoding from the bytes at an address: the word of the first four, and the bytes after it. -/
noncomputable def decodeBytes : List Byte → Except DecodeError (Instr × List Byte)
  | b0 :: b1 :: b2 :: b3 :: rest => (decodeWord (wordOfBytes b0 b1 b2 b3)).map (fun i => (i, rest))
  | _ => .error .reservedMajor

/-- The instruction the decoder reads from an instruction whose bits are `w`, numbered as the opcode table numbers
them. Every instruction of the table with bits is one 32-bit word. -/
noncomputable def decodeTableWord (nbits w : Nat) : Option Instr :=
  if nbits ≤ 32 then
    match decodeBytes (bytesOfWord (BitVec.ofNat 32 w)) with
    | .ok (i, _) => some i
    | .error _ => none
  else none

/-- A word of Table 4.1, format LR. -/
def wordLR (maj : BitVec 7) (d : BitVec 7) (a : BitVec 7) (b : BitVec 7) (fn : BitVec 3) (t : BitVec 1) : Word :=
  BitVec.ofNat 32 (maj.toNat * 2 ^ 25 + d.toNat * 2 ^ 18 + a.toNat * 2 ^ 11 + b.toNat * 2 ^ 4 + fn.toNat * 2 ^ 1 + t.toNat)

/-- A word of Table 4.1, format LI. -/
def wordLI (maj : BitVec 7) (d : BitVec 7) (fn : BitVec 2) (imm : BitVec 16) : Word :=
  BitVec.ofNat 32 (maj.toNat * 2 ^ 25 + d.toNat * 2 ^ 18 + fn.toNat * 2 ^ 16 + imm.toNat)

/-- A word of Table 4.1, format LM. -/
def wordLM (maj : BitVec 7) (d : BitVec 7) (op : BitVec 3) (a : BitVec 4) (la : BitVec 4) (off : BitVec 7) : Word :=
  BitVec.ofNat 32 (maj.toNat * 2 ^ 25 + d.toNat * 2 ^ 18 + op.toNat * 2 ^ 15 + a.toNat * 2 ^ 11 + la.toNat * 2 ^ 7 + off.toNat)

/-- A word of Table 4.1, format LO. -/
def wordLO (maj : BitVec 7) (d : BitVec 7) (kind : BitVec 3) (a : BitVec 4) (la : BitVec 4) (sp : BitVec 2) (sz : BitVec 2) (z : BitVec 3) : Word :=
  BitVec.ofNat 32 (maj.toNat * 2 ^ 25 + d.toNat * 2 ^ 18 + kind.toNat * 2 ^ 15 + a.toNat * 2 ^ 11 + la.toNat * 2 ^ 7 + sp.toNat * 2 ^ 5 + sz.toNat * 2 ^ 3 + z.toNat)

/-- A word of Table 4.1, format LA. -/
def wordLA (maj : BitVec 7) (d : BitVec 7) (a : BitVec 4) (sz : BitVec 1) (ord : BitVec 2) (la : BitVec 4) (aop : BitVec 4) (sp : BitVec 2) (z : BitVec 1) : Word :=
  BitVec.ofNat 32 (maj.toNat * 2 ^ 25 + d.toNat * 2 ^ 18 + a.toNat * 2 ^ 14 + sz.toNat * 2 ^ 13 + ord.toNat * 2 ^ 11 + la.toNat * 2 ^ 7 + aop.toNat * 2 ^ 3 + sp.toNat * 2 ^ 1 + z.toNat)

/-- A word of Table 4.1, format LB (R72). -/
def wordLB (maj : BitVec 7) (cond : BitVec 4) (off : BitVec 21) : Word :=
  BitVec.ofNat 32 (maj.toNat * 2 ^ 25 + cond.toNat * 2 ^ 21 + off.toNat)

/-- A word of Table 4.1, format LX. -/
def wordLX (maj : BitVec 7) (a : BitVec 7) (b : BitVec 7) (la : BitVec 4) (c : BitVec 7) : Word :=
  BitVec.ofNat 32 (maj.toNat * 2 ^ 25 + a.toNat * 2 ^ 18 + b.toNat * 2 ^ 11 + la.toNat * 2 ^ 7 + c.toNat)

/-- A word of Table 4.1, format MX. -/
def wordMX (maj : BitVec 7) (a : BitVec 7) (acc : BitVec 3) (ob : BitVec 4) (la : BitVec 4) (tb : BitVec 4) (keep : BitVec 1) (sub : BitVec 2) : Word :=
  BitVec.ofNat 32 (maj.toNat * 2 ^ 25 + a.toNat * 2 ^ 18 + acc.toNat * 2 ^ 15 + ob.toNat * 2 ^ 11 + la.toNat * 2 ^ 7 + tb.toNat * 2 ^ 3 + keep.toNat * 2 ^ 2 + sub.toNat)

/-- A word of Table 4.1, the prefix word (R66). -/
def wordPX (maj : BitVec 7) (pred : BitVec 3) (mz : BitVec 1) (rnd : BitVec 3) (vc : BitVec 7) (neg : BitVec 1) (z : BitVec 10) : Word :=
  BitVec.ofNat 32 (maj.toNat * 2 ^ 25 + pred.toNat * 2 ^ 22 + mz.toNat * 2 ^ 21 + rnd.toNat * 2 ^ 18 + vc.toNat * 2 ^ 11 + neg.toNat * 2 ^ 10 + z.toNat)

/-- A word of Table 4.7, format GR. -/
def wordGR (maj : BitVec 7) (d : BitVec 6) (a : BitVec 6) (b : BitVec 6) (fn : BitVec 6) (z : BitVec 1) : Word :=
  BitVec.ofNat 32 (maj.toNat * 2 ^ 25 + d.toNat * 2 ^ 19 + a.toNat * 2 ^ 13 + b.toNat * 2 ^ 7 + fn.toNat * 2 ^ 1 + z.toNat)

/-- A word of Table 4.7, format GI. -/
def wordGI (maj : BitVec 7) (d : BitVec 6) (fn : BitVec 3) (imm : BitVec 16) : Word :=
  BitVec.ofNat 32 (maj.toNat * 2 ^ 25 + d.toNat * 2 ^ 19 + fn.toNat * 2 ^ 16 + imm.toNat)

/-- A word of Table 4.7, format GM. -/
def wordGM (maj : BitVec 7) (d : BitVec 6) (a : BitVec 6) (sz : BitVec 2) (la : BitVec 4) (off : BitVec 7) : Word :=
  BitVec.ofNat 32 (maj.toNat * 2 ^ 25 + d.toNat * 2 ^ 19 + a.toNat * 2 ^ 13 + sz.toNat * 2 ^ 11 + la.toNat * 2 ^ 7 + off.toNat)

/-- A word of Table 4.7, format GB. -/
def wordGB (maj : BitVec 7) (cond : BitVec 3) (a : BitVec 6) (off : BitVec 16) : Word :=
  BitVec.ofNat 32 (maj.toNat * 2 ^ 25 + cond.toNat * 2 ^ 22 + a.toNat * 2 ^ 16 + off.toNat)

/-- An attendant core's custom word (R332): nf [27:25], rs2 [24:20], rs1 [19:15], funct3 [14:12], vd [11:7]. -/
def wordXsf (nf : BitVec 3) (rs2 rs1 : BitVec 5) (f3 : BitVec 3) (vd : BitVec 5) : Word :=
  BitVec.ofNat 32 (nf.toNat * 2 ^ 25 + rs2.toNat * 2 ^ 20 + rs1.toNat * 2 ^ 15 + f3.toNat * 2 ^ 12 +
    vd.toNat * 2 ^ 7 + 0x0B)

/-- The words of an instruction, from the encoding tables of the chapters; an event has none. -/
def encode : Instr → List Word
  | .addI32 vd va vb tr => [wordLR 0#7 vd va vb 0#3 (ofBit tr)]
  | .subI32 vd va vb tr => [wordLR 0#7 vd va vb 1#3 (ofBit tr)]
  | .negI32 vd va tr => [wordLR 0#7 vd va 0#7 2#3 (ofBit tr)]
  | .absI32 vd va tr => [wordLR 0#7 vd va 0#7 3#3 (ofBit tr)]
  | .avgI32 vd va vb tr => [wordLR 0#7 vd va vb 4#3 (ofBit tr)]
  | .avgN32 vd va vb tr => [wordLR 0#7 vd va vb 5#3 (ofBit tr)]
  | .adiffI32 vd va vb tr => [wordLR 0#7 vd va vb 6#3 (ofBit tr)]
  | .adiffN32 vd va vb tr => [wordLR 0#7 vd va vb 7#3 (ofBit tr)]
  | .addI64 vd va vb tr => [wordLR 1#7 vd va vb 0#3 (ofBit tr)]
  | .subI64 vd va vb tr => [wordLR 1#7 vd va vb 1#3 (ofBit tr)]
  | .negI64 vd va tr => [wordLR 1#7 vd va 0#7 2#3 (ofBit tr)]
  | .absI64 vd va tr => [wordLR 1#7 vd va 0#7 3#3 (ofBit tr)]
  | .addwI64I32 vd va vb tr => [wordLR 1#7 vd va vb 4#3 (ofBit tr)]
  | .addwN64N32 vd va vb tr => [wordLR 1#7 vd va vb 5#3 (ofBit tr)]
  | .addsatI32 vd va vb tr => [wordLR 2#7 vd va vb 0#3 (ofBit tr)]
  | .subsatI32 vd va vb tr => [wordLR 2#7 vd va vb 1#3 (ofBit tr)]
  | .addsatN32 vd va vb tr => [wordLR 2#7 vd va vb 2#3 (ofBit tr)]
  | .subsatN32 vd va vb tr => [wordLR 2#7 vd va vb 3#3 (ofBit tr)]
  | .negsatI32 vd va tr => [wordLR 2#7 vd va 0#7 4#3 (ofBit tr)]
  | .abssatI32 vd va tr => [wordLR 2#7 vd va 0#7 5#3 (ofBit tr)]
  | .mulI32 vd va vb tr => [wordLR 3#7 vd va vb 0#3 (ofBit tr)]
  | .mulhiI32 vd va vb tr => [wordLR 3#7 vd va vb 1#3 (ofBit tr)]
  | .mulhiN32 vd va vb tr => [wordLR 3#7 vd va vb 2#3 (ofBit tr)]
  | .madI32 vd va vb tr => [wordLR 3#7 vd va vb 3#3 (ofBit tr)]
  | .mulwI32 vd va vb tr => [wordLR 3#7 vd va vb 4#3 (ofBit tr)]
  | .mulwN32 vd va vb tr => [wordLR 3#7 vd va vb 5#3 (ofBit tr)]
  | .divI32 vd va vb tr => [wordLR 4#7 vd va vb 0#3 (ofBit tr)]
  | .divN32 vd va vb tr => [wordLR 4#7 vd va vb 1#3 (ofBit tr)]
  | .remI32 vd va vb tr => [wordLR 4#7 vd va vb 2#3 (ofBit tr)]
  | .remN32 vd va vb tr => [wordLR 4#7 vd va vb 3#3 (ofBit tr)]
  | .divI64 vd va vb tr => [wordLR 4#7 vd va vb 4#3 (ofBit tr)]
  | .divN64 vd va vb tr => [wordLR 4#7 vd va vb 5#3 (ofBit tr)]
  | .remI64 vd va vb tr => [wordLR 4#7 vd va vb 6#3 (ofBit tr)]
  | .remN64 vd va vb tr => [wordLR 4#7 vd va vb 7#3 (ofBit tr)]
  | .minI32 vd va vb tr => [wordLR 5#7 vd va vb 0#3 (ofBit tr)]
  | .maxI32 vd va vb tr => [wordLR 5#7 vd va vb 1#3 (ofBit tr)]
  | .minN32 vd va vb tr => [wordLR 5#7 vd va vb 2#3 (ofBit tr)]
  | .maxN32 vd va vb tr => [wordLR 5#7 vd va vb 3#3 (ofBit tr)]
  | .minI64 vd va vb tr => [wordLR 5#7 vd va vb 4#3 (ofBit tr)]
  | .maxI64 vd va vb tr => [wordLR 5#7 vd va vb 5#3 (ofBit tr)]
  | .minN64 vd va vb tr => [wordLR 5#7 vd va vb 6#3 (ofBit tr)]
  | .maxN64 vd va vb tr => [wordLR 5#7 vd va vb 7#3 (ofBit tr)]
  | .andN32 vd va vb tr => [wordLR 6#7 vd va vb 0#3 (ofBit tr)]
  | .orN32 vd va vb tr => [wordLR 6#7 vd va vb 1#3 (ofBit tr)]
  | .xorN32 vd va vb tr => [wordLR 6#7 vd va vb 2#3 (ofBit tr)]
  | .andnN32 vd va vb tr => [wordLR 6#7 vd va vb 3#3 (ofBit tr)]
  | .ornN32 vd va vb tr => [wordLR 6#7 vd va vb 4#3 (ofBit tr)]
  | .xnorN32 vd va vb tr => [wordLR 6#7 vd va vb 5#3 (ofBit tr)]
  | .notN32 vd va tr => [wordLR 6#7 vd va 0#7 6#3 (ofBit tr)]
  | .shlN32 vd va vb tr => [wordLR 7#7 vd va vb 0#3 (ofBit tr)]
  | .shrN32 vd va vb tr => [wordLR 7#7 vd va vb 1#3 (ofBit tr)]
  | .shrI32 vd va vb tr => [wordLR 7#7 vd va vb 2#3 (ofBit tr)]
  | .rolN32 vd va vb tr => [wordLR 7#7 vd va vb 3#3 (ofBit tr)]
  | .rorN32 vd va vb tr => [wordLR 7#7 vd va vb 4#3 (ofBit tr)]
  | .popcN32 vd va tr => [wordLR 8#7 vd va 0#7 0#3 (ofBit tr)]
  | .clzN32 vd va tr => [wordLR 8#7 vd va 0#7 1#3 (ofBit tr)]
  | .ctzN32 vd va tr => [wordLR 8#7 vd va 0#7 2#3 (ofBit tr)]
  | .brevN32 vd va tr => [wordLR 8#7 vd va 0#7 3#3 (ofBit tr)]
  | .bswapN32 vd va tr => [wordLR 8#7 vd va 0#7 4#3 (ofBit tr)]
  | .popcN64 vd va tr => [wordLR 8#7 vd va 0#7 5#3 (ofBit tr)]
  | .clzN64 vd va tr => [wordLR 8#7 vd va 0#7 6#3 (ofBit tr)]
  | .bfeN32 vd va vb tr => [wordLR 9#7 vd va vb 0#3 (ofBit tr)]
  | .bfeI32 vd va vb tr => [wordLR 9#7 vd va vb 1#3 (ofBit tr)]
  | .bfiN32 vd va vb tr => [wordLR 9#7 vd va vb 2#3 (ofBit tr)]
  | .cmpI32 pk va vb cc => [wordLR 10#7 (0#4 ++ pk) va vb cc 0#1]
  | .selN32 vd va vb pk tr => [wordLR 11#7 vd va vb pk (ofBit tr)]
  | .movN32 vd va tr => [wordLR 11#7 vd va 0#7 7#3 (ofBit tr)]
  | .shaddN32 vd va vb sh tr => [wordLR 12#7 vd va vb (0#1 ++ sh) (ofBit tr)]
  | .shaddN64 vd va vb sh tr => [wordLR 12#7 vd va vb (1#1 ++ sh) (ofBit tr)]
  | .addI16 vd va vb tr => [wordLR 13#7 vd va vb 0#3 (ofBit tr)]
  | .subI16 vd va vb tr => [wordLR 13#7 vd va vb 1#3 (ofBit tr)]
  | .addI8 vd va vb tr => [wordLR 13#7 vd va vb 2#3 (ofBit tr)]
  | .subI8 vd va vb tr => [wordLR 13#7 vd va vb 3#3 (ofBit tr)]
  | .addsatI16 vd va vb tr => [wordLR 13#7 vd va vb 4#3 (ofBit tr)]
  | .subsatI16 vd va vb tr => [wordLR 13#7 vd va vb 5#3 (ofBit tr)]
  | .addsatN8 vd va vb tr => [wordLR 13#7 vd va vb 6#3 (ofBit tr)]
  | .dotI8 vd va vb tr => [wordLR 13#7 vd va vb 7#3 (ofBit tr)]
  | .pand vd va vb => [wordLR 14#7 (0#4 ++ vd) (0#4 ++ va) (0#4 ++ vb) 0#3 0#1]
  | .por vd va vb => [wordLR 14#7 (0#4 ++ vd) (0#4 ++ va) (0#4 ++ vb) 1#3 0#1]
  | .pxor vd va vb => [wordLR 14#7 (0#4 ++ vd) (0#4 ++ va) (0#4 ++ vb) 2#3 0#1]
  | .pandn vd va vb => [wordLR 14#7 (0#4 ++ vd) (0#4 ++ va) (0#4 ++ vb) 3#3 0#1]
  | .pnot vd va => [wordLR 14#7 (0#4 ++ vd) (0#4 ++ va) 0#7 4#3 0#1]
  | .ptovN32 vd tr => [wordLR 14#7 vd 0#7 0#7 5#3 (ofBit tr)]
  | .vtopN32 va => [wordLR 14#7 0#7 va 0#7 6#3 0#1]
  | .mulI64 vd va vb tr => [wordLR 15#7 vd va vb 0#3 (ofBit tr)]
  | .shlN64 vd va vb tr => [wordLR 15#7 vd va vb 1#3 (ofBit tr)]
  | .shrN64 vd va vb tr => [wordLR 15#7 vd va vb 2#3 (ofBit tr)]
  | .shrI64 vd va vb tr => [wordLR 15#7 vd va vb 3#3 (ofBit tr)]
  | .cmpEqI64 pk va vb => [wordLR 15#7 (0#4 ++ pk) va vb 4#3 0#1]
  | .cmpLtI64 pk va vb => [wordLR 15#7 (0#4 ++ pk) va vb 5#3 0#1]
  | .cmpLtN64 pk va vb => [wordLR 15#7 (0#4 ++ pk) va vb 6#3 0#1]
  | .movN64 vd va tr => [wordLR 15#7 vd va 0#7 7#3 (ofBit tr)]
  | .addI32Imm vd imm => [wordLI 16#7 vd 0#2 imm]
  | .addI64Imm vd imm => [wordLI 16#7 vd 1#2 imm]
  | .addsatI32Imm vd imm => [wordLI 16#7 vd 2#2 imm]
  | .addsatN32Imm vd imm => [wordLI 16#7 vd 3#2 imm]
  | .andN32Imm vd imm => [wordLI 17#7 vd 0#2 imm]
  | .orN32Imm vd imm => [wordLI 17#7 vd 1#2 imm]
  | .xorN32Imm vd imm => [wordLI 17#7 vd 2#2 imm]
  | .shlN32Imm vd imm => [wordLI 18#7 vd 0#2 imm]
  | .shrN32Imm vd imm => [wordLI 18#7 vd 1#2 imm]
  | .shrI32Imm vd imm => [wordLI 18#7 vd 2#2 imm]
  | .rorN32Imm vd imm => [wordLI 18#7 vd 3#2 imm]
  | .setEqI32 vd imm => [wordLI 19#7 vd 0#2 imm]
  | .setNeI32 vd imm => [wordLI 19#7 vd 1#2 imm]
  | .setLtI32 vd imm => [wordLI 19#7 vd 2#2 imm]
  | .setLtN32 vd imm => [wordLI 19#7 vd 3#2 imm]
  | .movlN32 vd imm => [wordLI 20#7 vd 0#2 imm]
  | .movhN32 vd imm => [wordLI 20#7 vd 1#2 imm]
  | .movI32Imm vd imm => [wordLI 20#7 vd 2#2 imm]
  | .movN32Imm vd imm => [wordLI 20#7 vd 3#2 imm]
  | .mulI32Imm vd imm => [wordLI 21#7 vd 0#2 imm]
  | .mulI64Imm vd imm => [wordLI 21#7 vd 1#2 imm]
  | .minI32Imm vd imm => [wordLI 22#7 vd 0#2 imm]
  | .maxI32Imm vd imm => [wordLI 22#7 vd 1#2 imm]
  | .minN32Imm vd imm => [wordLI 22#7 vd 2#2 imm]
  | .maxN32Imm vd imm => [wordLI 22#7 vd 3#2 imm]
  | .faddF32 vd va vb tr => [wordLR 24#7 vd va vb 0#3 (ofBit tr)]
  | .fsubF32 vd va vb tr => [wordLR 24#7 vd va vb 1#3 (ofBit tr)]
  | .fmulF32 vd va vb tr => [wordLR 24#7 vd va vb 2#3 (ofBit tr)]
  | .fmaF32 vd va vb tr => [wordLR 25#7 vd va vb 0#3 (ofBit tr)]
  | .fmsF32 vd va vb tr => [wordLR 25#7 vd va vb 1#3 (ofBit tr)]
  | .fnmaF32 vd va vb tr => [wordLR 25#7 vd va vb 2#3 (ofBit tr)]
  | .fminF32 vd va vb tr => [wordLR 25#7 vd va vb 3#3 (ofBit tr)]
  | .fmaxF32 vd va vb tr => [wordLR 25#7 vd va vb 4#3 (ofBit tr)]
  | .fcmpF32 pk va vb cc => [wordLR 26#7 (0#4 ++ pk) va vb cc 0#1]
  | .faddF64 vd va vb tr => [wordLR 27#7 vd va vb 0#3 (ofBit tr)]
  | .fsubF64 vd va vb tr => [wordLR 27#7 vd va vb 1#3 (ofBit tr)]
  | .fmulF64 vd va vb tr => [wordLR 27#7 vd va vb 2#3 (ofBit tr)]
  | .fmaF64 vd va vb tr => [wordLR 28#7 vd va vb 0#3 (ofBit tr)]
  | .fmsF64 vd va vb tr => [wordLR 28#7 vd va vb 1#3 (ofBit tr)]
  | .fnmaF64 vd va vb tr => [wordLR 28#7 vd va vb 2#3 (ofBit tr)]
  | .fminF64 vd va vb tr => [wordLR 28#7 vd va vb 3#3 (ofBit tr)]
  | .fmaxF64 vd va vb tr => [wordLR 28#7 vd va vb 4#3 (ofBit tr)]
  | .fcmpF64 pk va vb cc => [wordLR 29#7 (0#4 ++ pk) va vb cc 0#1]
  | .faddF16 vd va vb tr => [wordLR 30#7 vd va vb 0#3 (ofBit tr)]
  | .fmulF16 vd va vb tr => [wordLR 30#7 vd va vb 1#3 (ofBit tr)]
  | .fmaF16 vd va vb tr => [wordLR 30#7 vd va vb 2#3 (ofBit tr)]
  | .faddBf16 vd va vb tr => [wordLR 30#7 vd va vb 3#3 (ofBit tr)]
  | .fmulBf16 vd va vb tr => [wordLR 30#7 vd va vb 4#3 (ofBit tr)]
  | .fmaBf16 vd va vb tr => [wordLR 30#7 vd va vb 5#3 (ofBit tr)]
  | .fmaxF16 vd va vb tr => [wordLR 30#7 vd va vb 6#3 (ofBit tr)]
  | .fmaxBf16 vd va vb tr => [wordLR 30#7 vd va vb 7#3 (ofBit tr)]
  | .faddE4m3 vd va vb tr => [wordLR 31#7 vd va vb 0#3 (ofBit tr)]
  | .fmulE4m3 vd va vb tr => [wordLR 31#7 vd va vb 1#3 (ofBit tr)]
  | .faddE5m2 vd va vb tr => [wordLR 31#7 vd va vb 2#3 (ofBit tr)]
  | .fmulE5m2 vd va vb tr => [wordLR 31#7 vd va vb 3#3 (ofBit tr)]
  | .fdotF32E4m3 vd va vb tr => [wordLR 31#7 vd va vb 4#3 (ofBit tr)]
  | .fdotF32E5m2 vd va vb tr => [wordLR 31#7 vd va vb 5#3 (ofBit tr)]
  | .cvtF16E4m3 vd va tr => [wordLR 31#7 vd va 0#7 6#3 (ofBit tr)]
  | .cvtF16E5m2 vd va tr => [wordLR 31#7 vd va 0#7 7#3 (ofBit tr)]
  | .fdivF32 vd va vb tr => [wordLR 32#7 vd va vb 0#3 (ofBit tr)]
  | .fsqrtF32 vd va tr => [wordLR 32#7 vd va 0#7 1#3 (ofBit tr)]
  | .rcpF32 vd va tr => [wordLR 32#7 vd va 0#7 2#3 (ofBit tr)]
  | .rsqrtF32 vd va tr => [wordLR 32#7 vd va 0#7 3#3 (ofBit tr)]
  | .exp2F32 vd va tr => [wordLR 32#7 vd va 0#7 4#3 (ofBit tr)]
  | .log2F32 vd va tr => [wordLR 32#7 vd va 0#7 5#3 (ofBit tr)]
  | .sinpiF32 vd va tr => [wordLR 32#7 vd va 0#7 6#3 (ofBit tr)]
  | .cospiF32 vd va tr => [wordLR 32#7 vd va 0#7 7#3 (ofBit tr)]
  | .fdivF64 vd va vb tr => [wordLR 33#7 vd va vb 0#3 (ofBit tr)]
  | .fsqrtF64 vd va tr => [wordLR 33#7 vd va 0#7 1#3 (ofBit tr)]
  | .fabsF32 vd va tr => [wordLR 34#7 vd va 0#7 0#3 (ofBit tr)]
  | .fnegF32 vd va tr => [wordLR 34#7 vd va 0#7 1#3 (ofBit tr)]
  | .fcopysignF32 vd va vb tr => [wordLR 34#7 vd va vb 2#3 (ofBit tr)]
  | .fclassF32 vd va tr => [wordLR 34#7 vd va 0#7 3#3 (ofBit tr)]
  | .fabsF64 vd va tr => [wordLR 34#7 vd va 0#7 4#3 (ofBit tr)]
  | .fnegF64 vd va tr => [wordLR 34#7 vd va 0#7 5#3 (ofBit tr)]
  | .fcopysignF64 vd va vb tr => [wordLR 34#7 vd va vb 6#3 (ofBit tr)]
  | .fclassF64 vd va tr => [wordLR 34#7 vd va 0#7 7#3 (ofBit tr)]
  | .faddF32Imm vd imm => [wordLI 36#7 vd 0#2 imm]
  | .fmulF32Imm vd imm => [wordLI 36#7 vd 1#2 imm]
  | .fmaxF32Imm vd imm => [wordLI 36#7 vd 2#2 imm]
  | .fminF32Imm vd imm => [wordLI 36#7 vd 3#2 imm]
  | .faddF64Imm vd imm => [wordLI 37#7 vd 0#2 imm]
  | .fmulF64Imm vd imm => [wordLI 37#7 vd 1#2 imm]
  | .fmaxF64Imm vd imm => [wordLI 37#7 vd 2#2 imm]
  | .fminF64Imm vd imm => [wordLI 37#7 vd 3#2 imm]
  | .fmulF16Imm vd imm => [wordLI 38#7 vd 0#2 imm]
  | .fmulBf16Imm vd imm => [wordLI 38#7 vd 1#2 imm]
  | .fmulE4m3Imm vd imm => [wordLI 38#7 vd 2#2 imm]
  | .fmulE5m2Imm vd imm => [wordLI 38#7 vd 3#2 imm]
  | .cvtF32I32 vd va tr => [wordLR 40#7 vd va 0#7 0#3 (ofBit tr)]
  | .cvtF32N32 vd va tr => [wordLR 40#7 vd va 0#7 1#3 (ofBit tr)]
  | .cvtI32F32 vd va tr => [wordLR 40#7 vd va 0#7 2#3 (ofBit tr)]
  | .cvtN32F32 vd va tr => [wordLR 40#7 vd va 0#7 3#3 (ofBit tr)]
  | .cvtF64I64 vd va tr => [wordLR 40#7 vd va 0#7 4#3 (ofBit tr)]
  | .cvtI64F64 vd va tr => [wordLR 40#7 vd va 0#7 5#3 (ofBit tr)]
  | .cvtF64I32 vd va tr => [wordLR 40#7 vd va 0#7 6#3 (ofBit tr)]
  | .cvtI32F64 vd va tr => [wordLR 40#7 vd va 0#7 7#3 (ofBit tr)]
  | .cvtF64F32 vd va tr => [wordLR 41#7 vd va 0#7 0#3 (ofBit tr)]
  | .cvtF32F64 vd va tr => [wordLR 41#7 vd va 0#7 1#3 (ofBit tr)]
  | .cvtF32F16 vd va tr => [wordLR 41#7 vd va 0#7 2#3 (ofBit tr)]
  | .cvtF16F32 vd va tr => [wordLR 41#7 vd va 0#7 3#3 (ofBit tr)]
  | .cvtF32Bf16 vd va tr => [wordLR 41#7 vd va 0#7 4#3 (ofBit tr)]
  | .cvtBf16F32 vd va tr => [wordLR 41#7 vd va 0#7 5#3 (ofBit tr)]
  | .cvtE4m3F32 vd va vb tr => [wordLR 41#7 vd va vb 6#3 (ofBit tr)]
  | .cvtE5m2F32 vd va vb tr => [wordLR 41#7 vd va vb 7#3 (ofBit tr)]
  | .cvtSx2F32 vd va => [wordLR 42#7 vd va 0#7 0#3 0#1]
  | .cvtSx4F32 vd va => [wordLR 42#7 vd va 0#7 1#3 0#1]
  | .cvtSx7F32 vd va => [wordLR 42#7 vd va 0#7 2#3 0#1]
  | .cvtF32Sx2 vd va => [wordLR 42#7 vd va 0#7 3#3 0#1]
  | .cvtF32Sx4 vd va => [wordLR 42#7 vd va 0#7 4#3 0#1]
  | .cvtF32Sx7 vd va => [wordLR 42#7 vd va 0#7 5#3 0#1]
  | .xlIdxN32 vd va vb tr => [wordLR 43#7 vd va vb 0#3 (ofBit tr)]
  | .xlXorN32 vd va vb tr => [wordLR 43#7 vd va vb 1#3 (ofBit tr)]
  | .xlUpN32 vd va vb tr => [wordLR 43#7 vd va vb 2#3 (ofBit tr)]
  | .xlDownN32 vd va vb tr => [wordLR 43#7 vd va vb 3#3 (ofBit tr)]
  | .xlIdxN64 vd va vb tr => [wordLR 43#7 vd va vb 4#3 (ofBit tr)]
  | .xlBallotN64 vd pk tr => [wordLR 43#7 vd (0#4 ++ pk) 0#7 5#3 (ofBit tr)]
  | .xlAddI32 vd va tr => [wordLR 43#7 vd va 0#7 6#3 (ofBit tr)]
  | .ldStk vd sz va la off => [wordLM 44#7 vd (0#1 ++ sz) va la off]
  | .stStk vs sz va off => [wordLM 44#7 vs (1#1 ++ sz) va 0#4 off]
  | .ldSh vd sz va la off => [wordLM 45#7 vd (0#1 ++ sz) va la off]
  | .stSh vs sz va off => [wordLM 45#7 vs (1#1 ++ sz) va 0#4 off]
  | .ldDie vd sz va la off => [wordLM 46#7 vd (0#1 ++ sz) va la off]
  | .stDie vs sz va off => [wordLM 46#7 vs (1#1 ++ sz) va 0#4 off]
  | .ldFl vd sz va la off => [wordLM 47#7 vd (0#1 ++ sz) va la off]
  | .stFl vs sz va off => [wordLM 47#7 vs (1#1 ++ sz) va 0#4 off]
  | .ldAcq vd va la sp sz => [wordLO 48#7 vd 0#3 va la sp sz 0#3]
  | .stRel vs va sp sz => [wordLO 48#7 vs 1#3 va 0#4 sp sz 0#3]
  | .stNt vs va sp sz => [wordLO 48#7 vs 2#3 va 0#4 sp sz 0#3]
  | .atomAdd vd va sz ord la sp => [wordLA 49#7 vd va sz ord la 0#4 sp 0#1]
  | .atomAnd vd va sz ord la sp => [wordLA 49#7 vd va sz ord la 1#4 sp 0#1]
  | .atomOr vd va sz ord la sp => [wordLA 49#7 vd va sz ord la 2#4 sp 0#1]
  | .atomXor vd va sz ord la sp => [wordLA 49#7 vd va sz ord la 3#4 sp 0#1]
  | .atomMinI vd va sz ord la sp => [wordLA 49#7 vd va sz ord la 4#4 sp 0#1]
  | .atomMaxI vd va sz ord la sp => [wordLA 49#7 vd va sz ord la 5#4 sp 0#1]
  | .atomMinN vd va sz ord la sp => [wordLA 49#7 vd va sz ord la 6#4 sp 0#1]
  | .atomMaxN vd va sz ord la sp => [wordLA 49#7 vd va sz ord la 7#4 sp 0#1]
  | .atomExch vd va sz ord la sp => [wordLA 49#7 vd va sz ord la 8#4 sp 0#1]
  | .atomCas vd va sz ord la sp => [wordLA 49#7 vd va sz ord la 9#4 sp 0#1]
  | .br cc off => [wordLB 50#7 cc off]
  | .call off => [wordLB 50#7 15#4 off]
  | .loopBr cc off => [wordLB 51#7 cc off]
  | .nop => [wordLX 52#7 0#7 0#7 0#4 0#7]
  | .ret => [wordLX 52#7 0#7 0#7 0#4 1#7]
  | .brInd va => [wordLX 52#7 va 0#7 0#4 2#7]
  | .callInd va => [wordLX 52#7 va 0#7 0#4 3#7]
  | .rgn hi lo => [wordLX 52#7 hi lo 0#4 4#7]
  | .ixSet va k => [wordLX 52#7 va (0#5 ++ k) 0#4 5#7]
  | .ixGet vd k la => [wordLX 52#7 vd (0#5 ++ k) la 6#7]
  | .rotSet vB size => [wordLX 52#7 vB size 0#4 7#7]
  | .fence sc => [wordLX 52#7 0#7 sc 0#4 8#7]
  | .ntDrain => [wordLX 52#7 0#7 0#7 0#4 9#7]
  | .srRd vd sr la => [wordLX 52#7 vd sr la 10#7]
  | .spGet vd la => [wordLX 52#7 vd 0#7 la 11#7]
  | .spSet va => [wordLX 52#7 va 0#7 0#4 12#7]
  | .tbJoin k => [wordLX 59#7 (0#3 ++ k) 0#7 0#4 0#7]
  | .tbSign k vd la => [wordLX 59#7 (0#3 ++ k) vd la 1#7]
  | .tbWait k va => [wordLX 59#7 (0#3 ++ k) va 0#4 2#7]
  | .weld k => [wordLX 59#7 (0#3 ++ k) 0#7 0#4 3#7]
  | .ltArrive va => [wordLX 59#7 va 0#7 0#4 4#7]
  | .ltWait va ph => [wordLX 59#7 va (0#6 ++ ph) 0#4 5#7]
  | .ltPhase va vd la => [wordLX 59#7 va vd la 6#7]
  | .tlWait va sc k => [wordLX 59#7 va (sc ++ k) 0#4 8#7]
  | .tlRd vd k la => [wordLX 59#7 vd (0#3 ++ k) la 9#7]
  | .barCrew => [wordLX 59#7 0#7 0#7 0#4 10#7]
  | .unjoin m0 m1 m2 => [wordLX 59#7 m0 m1 0#4 (3#5 ++ m2)]
  | .endThread => [wordLX 60#7 0#7 0#7 0#4 0#7]
  | .trap hi lo => [wordLX 60#7 hi lo 0#4 1#7]
  | .tret => [wordLX 60#7 0#7 0#7 0#4 2#7]
  | .cpT va vb k => [wordLX 55#7 va vb 0#4 (0#4 ++ k)]
  | .cpWait k => [wordLX 55#7 0#7 (0#4 ++ k) 0#4 8#7]
  | .cpCnt vd k la => [wordLX 55#7 vd (0#4 ++ k) la 9#7]
  | .cpWaitAll => [wordLX 55#7 0#7 0#7 0#4 10#7]
  | .kick va => [wordLX 55#7 va 0#7 0#4 16#7]
  | .kickN vd va la => [wordLX 55#7 vd va la 17#7]
  | .atomFarAdd vd ord pr la sz sc => [wordLX 55#7 vd (ord ++ pr) la (16#5 ++ sz ++ sc)]
  | .atomFarAnd vd ord pr la sz sc => [wordLX 55#7 vd (ord ++ pr) la (17#5 ++ sz ++ sc)]
  | .atomFarOr vd ord pr la sz sc => [wordLX 55#7 vd (ord ++ pr) la (18#5 ++ sz ++ sc)]
  | .atomFarXor vd ord pr la sz sc => [wordLX 55#7 vd (ord ++ pr) la (19#5 ++ sz ++ sc)]
  | .atomFarMinI vd ord pr la sz sc => [wordLX 55#7 vd (ord ++ pr) la (20#5 ++ sz ++ sc)]
  | .atomFarMaxI vd ord pr la sz sc => [wordLX 55#7 vd (ord ++ pr) la (21#5 ++ sz ++ sc)]
  | .atomFarMinN vd ord pr la sz sc => [wordLX 55#7 vd (ord ++ pr) la (22#5 ++ sz ++ sc)]
  | .atomFarMaxN vd ord pr la sz sc => [wordLX 55#7 vd (ord ++ pr) la (23#5 ++ sz ++ sc)]
  | .atomFarExch vd ord pr la sz sc => [wordLX 55#7 vd (ord ++ pr) la (24#5 ++ sz ++ sc)]
  | .atomFarCas vd ord pr la sz sc => [wordLX 55#7 vd (ord ++ pr) la (25#5 ++ sz ++ sc)]
  | .flBirth va => [wordLX 56#7 va 0#7 0#4 0#7]
  | .flBirthZ va => [wordLX 56#7 va 1#7 0#4 0#7]
  | .flRenew va => [wordLX 56#7 va 0#7 0#4 1#7]
  | .flLife vd va la => [wordLX 56#7 vd va la 2#7]
  | .flFree va => [wordLX 56#7 va 0#7 0#4 3#7]
  | .flStat vd va la => [wordLX 56#7 vd va la 4#7]
  | .flStatClr vd va => [wordLX 56#7 vd va 0#4 5#7]
  | .mma va acc ob tb keep => [wordMX 53#7 va acc ob 0#4 tb (ofBit keep) 0#2]
  | .mmaZero va acc ob tb keep => [wordMX 53#7 va acc ob 0#4 tb (ofBit keep) 1#2]
  | .mxLease vd va la => [wordLX 53#7 vd va la 3#7]
  | .mxRelease => [wordLX 53#7 0#7 0#7 0#4 7#7]
  | .obResv va k => [wordLX 53#7 va (0#3 ++ k) 0#4 11#7]
  | .obFree k => [wordLX 53#7 0#7 (0#3 ++ k) 0#4 15#7]
  | .obLd va die k => [wordLX 53#7 va (0#2 ++ die ++ k) 0#4 19#7]
  | .accRd vd va la => [wordLX 53#7 vd va la 23#7]
  | .accWait role acc => [wordLX 53#7 0#7 (0#1 ++ role ++ acc) 0#4 27#7]
  | .mxFreeze unit => [wordLX 53#7 0#7 (0#5 ++ unit) 0#4 31#7]
  | .mxThaw unit => [wordLX 53#7 0#7 (0#5 ++ unit) 0#4 35#7]
  | .accDrain va slot unit => [wordLX 53#7 va (0#2 ++ slot ++ unit) 0#4 39#7]
  | .accFill va slot unit => [wordLX 53#7 va (0#2 ++ slot ++ unit) 0#4 43#7]
  | .obDrain va slot unit => [wordLX 53#7 va (slot ++ unit) 0#4 47#7]
  | .obFill va slot unit => [wordLX 53#7 va (slot ++ unit) 0#4 51#7]
  | .itRange va k => [wordLX 54#7 va (0#4 ++ k) 0#4 0#7]
  | .itList va k => [wordLX 54#7 va (0#4 ++ k) 0#4 1#7]
  | .itBits va k => [wordLX 54#7 va (0#4 ++ k) 0#4 2#7]
  | .itQueue va k => [wordLX 54#7 va (0#4 ++ k) 0#4 3#7]
  | .itMap va k => [wordLX 54#7 va (0#4 ++ k) 0#4 4#7]
  | .itFilter va k => [wordLX 54#7 va (0#4 ++ k) 0#4 5#7]
  | .itZip va k => [wordLX 54#7 va (0#4 ++ k) 0#4 6#7]
  | .itChain va k => [wordLX 54#7 va (0#4 ++ k) 0#4 7#7]
  | .itFlat va k => [wordLX 54#7 va (0#4 ++ k) 0#4 8#7]
  | .itNext vd vn la k => [wordLX 54#7 vd vn la (2#4 ++ k)]
  | .itEnough k => [wordLX 54#7 0#7 (0#4 ++ k) 0#4 24#7]
  | .itFree k => [wordLX 54#7 0#7 (0#4 ++ k) 0#4 25#7]
  | .itStat vd k la => [wordLX 54#7 vd (0#4 ++ k) la 26#7]
  | .itRd va depth k => [wordLX 54#7 va (0#1 ++ depth ++ k) 0#4 27#7]
  | .qPush va sz => [wordLX 57#7 va sz 0#4 0#7]
  | .qPushNb va sz => [wordLX 57#7 va sz 0#4 1#7]
  | .qPop vd va la => [wordLX 57#7 vd va la 2#7]
  | .qPopNb vd va la => [wordLX 57#7 vd va la 3#7]
  | .qStat vd va la => [wordLX 57#7 vd va la 4#7]
  | .emit va sz => [wordLX 57#7 va sz 0#4 5#7]
  | .hcall vd va => [wordLX 57#7 vd va 0#4 16#7]
  | .colSend va vb => [wordLX 58#7 va vb 0#4 0#7]
  | .colRecv va vb => [wordLX 58#7 va vb 0#4 1#7]
  | .colRed va vb => [wordLX 58#7 va vb 0#4 2#7]
  | .colGangbar => [wordLX 58#7 0#7 0#7 0#4 3#7]
  | .colAbort va => [wordLX 58#7 va 0#7 0#4 4#7]
  | .colStat vd va => [wordLX 58#7 vd va 0#4 5#7]
  | .pfx pred mz rnd vc neg => [wordPX 63#7 pred (ofBit mz) rnd vc (ofBit neg) 0#10]
  | .gAddI64 gd ga gb => [wordGR 64#7 gd ga gb 0#6 0#1]
  | .gSubI64 gd ga gb => [wordGR 64#7 gd ga gb 1#6 0#1]
  | .gNegI64 gd ga => [wordGR 64#7 gd ga 0#6 2#6 0#1]
  | .gAbsI64 gd ga => [wordGR 64#7 gd ga 0#6 3#6 0#1]
  | .gMulI64 gd ga gb => [wordGR 65#7 gd ga gb 0#6 0#1]
  | .gMulhiI64 gd ga gb => [wordGR 65#7 gd ga gb 1#6 0#1]
  | .gMulhiN64 gd ga gb => [wordGR 65#7 gd ga gb 2#6 0#1]
  | .gDivI64 gd ga gb => [wordGR 65#7 gd ga gb 3#6 0#1]
  | .gDivN64 gd ga gb => [wordGR 65#7 gd ga gb 4#6 0#1]
  | .gRemI64 gd ga gb => [wordGR 65#7 gd ga gb 5#6 0#1]
  | .gRemN64 gd ga gb => [wordGR 65#7 gd ga gb 6#6 0#1]
  | .gAndN64 gd ga gb => [wordGR 66#7 gd ga gb 0#6 0#1]
  | .gOrN64 gd ga gb => [wordGR 66#7 gd ga gb 1#6 0#1]
  | .gXorN64 gd ga gb => [wordGR 66#7 gd ga gb 2#6 0#1]
  | .gAndnN64 gd ga gb => [wordGR 66#7 gd ga gb 3#6 0#1]
  | .gNotN64 gd ga => [wordGR 66#7 gd ga 0#6 4#6 0#1]
  | .gShlN64 gd ga gb => [wordGR 67#7 gd ga gb 0#6 0#1]
  | .gShrN64 gd ga gb => [wordGR 67#7 gd ga gb 1#6 0#1]
  | .gShrI64 gd ga gb => [wordGR 67#7 gd ga gb 2#6 0#1]
  | .gRolN64 gd ga gb => [wordGR 67#7 gd ga gb 3#6 0#1]
  | .gRorN64 gd ga gb => [wordGR 67#7 gd ga gb 4#6 0#1]
  | .gSetEqI64 gd ga gb => [wordGR 68#7 gd ga gb 0#6 0#1]
  | .gSetNeI64 gd ga gb => [wordGR 68#7 gd ga gb 1#6 0#1]
  | .gSetLtI64 gd ga gb => [wordGR 68#7 gd ga gb 2#6 0#1]
  | .gSetLeI64 gd ga gb => [wordGR 68#7 gd ga gb 3#6 0#1]
  | .gSetLtN64 gd ga gb => [wordGR 68#7 gd ga gb 4#6 0#1]
  | .gSetLeN64 gd ga gb => [wordGR 68#7 gd ga gb 5#6 0#1]
  | .gMinI64 gd ga gb => [wordGR 69#7 gd ga gb 0#6 0#1]
  | .gMaxI64 gd ga gb => [wordGR 69#7 gd ga gb 1#6 0#1]
  | .gMinN64 gd ga gb => [wordGR 69#7 gd ga gb 2#6 0#1]
  | .gMaxN64 gd ga gb => [wordGR 69#7 gd ga gb 3#6 0#1]
  | .gMovN64 gd ga => [wordGR 70#7 gd ga 0#6 0#6 0#1]
  | .gMovnzN64 gd ga gb => [wordGR 70#7 gd ga gb 1#6 0#1]
  | .gMovzN64 gd ga gb => [wordGR 70#7 gd ga gb 2#6 0#1]
  | .gPopcN64 gd ga => [wordGR 71#7 gd ga 0#6 0#6 0#1]
  | .gClzN64 gd ga => [wordGR 71#7 gd ga 0#6 1#6 0#1]
  | .gCtzN64 gd ga => [wordGR 71#7 gd ga 0#6 2#6 0#1]
  | .gBrevN64 gd ga => [wordGR 71#7 gd ga 0#6 3#6 0#1]
  | .gAddI64Imm gd imm => [wordGI 72#7 gd 0#3 imm]
  | .gMulI64Imm gd imm => [wordGI 72#7 gd 1#3 imm]
  | .gMinI64Imm gd imm => [wordGI 72#7 gd 2#3 imm]
  | .gMaxI64Imm gd imm => [wordGI 72#7 gd 3#3 imm]
  | .gAndN64Imm gd imm => [wordGI 73#7 gd 0#3 imm]
  | .gOrN64Imm gd imm => [wordGI 73#7 gd 1#3 imm]
  | .gXorN64Imm gd imm => [wordGI 73#7 gd 2#3 imm]
  | .gAndI64Imm gd imm => [wordGI 73#7 gd 3#3 imm]
  | .gShlN64Imm gd imm => [wordGI 74#7 gd 0#3 imm]
  | .gShrN64Imm gd imm => [wordGI 74#7 gd 1#3 imm]
  | .gShrI64Imm gd imm => [wordGI 74#7 gd 2#3 imm]
  | .gRolN64Imm gd imm => [wordGI 74#7 gd 3#3 imm]
  | .gMovI64Imm gd imm => [wordGI 75#7 gd 0#3 imm]
  | .gMovN64Imm gd imm => [wordGI 75#7 gd 1#3 imm]
  | .gMovk16 gd imm => [wordGI 75#7 gd 2#3 imm]
  | .gMovk32 gd imm => [wordGI 75#7 gd 3#3 imm]
  | .gMovk48 gd imm => [wordGI 75#7 gd 4#3 imm]
  | .gLdSh gd ga sz la off => [wordGM 76#7 gd ga sz la off]
  | .gStSh gd ga sz off => [wordGM 77#7 gd ga sz 0#4 off]
  | .gLdDie gd ga sz la off => [wordGM 78#7 gd ga sz la off]
  | .gStDie gd ga sz off => [wordGM 79#7 gd ga sz 0#4 off]
  | .gBr cc ga off => [wordGB 80#7 cc ga off]
  | .gRdsr gd ga => [wordGR 81#7 gd ga 0#6 0#6 0#1]
  | .gUconfClr => [wordGR 81#7 0#6 0#6 0#6 1#6 0#1]
  | .gRdvN32 gd ga => [wordGR 81#7 gd ga 0#6 16#6 0#1]
  | .gWrvN32 gd ga => [wordGR 81#7 gd ga 0#6 17#6 0#1]
  | .gWrvN64 gd ga => [wordGR 81#7 gd ga 0#6 18#6 0#1]
  | .xsfVld nf rs2 rs1 vd => [wordXsf nf rs2 rs1 0#3 vd]
  | .xsfVst nf rs2 rs1 vd => [wordXsf nf rs2 rs1 1#3 vd]
  | .mmaAccept _ _ _ => []
  | .mmaComplete _ _ _ => []
  | .overlayFetchComplete _ _ _ _ => []
  | .copyElementWrite _ _ => []
  | .pageResponse _ _ => []
  | .cptElementPerform _ => []
  | .farAtomicResponse _ => []
  | .atomicopUrCompletion _ => []
  | .atsInvalidation _ _ _ => []
  | .fleetingTick => []
  | .crewStart _ _ _ _ _ => []
  | .launchComplete _ => []
  | .nodeFlushTimer _ _ _ _ _ => []
  | .churnMove _ _ _ => []
  | .pullResume _ _ => []
  | .sliceExpiry => []
  | .saveDrainComplete _ => []
  | .drainLimitExpiry _ => []
  | .restoreInstall _ _ _ _ _ => []
  | .hostLinkTrain _ => []
  | .slotTake _ => []
  | .ctxNew _ _ => []
  | .ctxEnd _ _ => []
  | .map _ _ => []
  | .unmap _ _ => []
  | .load _ _ => []
  | .unload _ _ => []
  | .launch _ _ => []
  | .qweight _ _ => []
  | .duty _ _ => []
  | .quantum _ _ => []
  | .save _ _ => []
  | .restore _ _ => []
  | .tlWaitRecord _ _ => []
  | .tlRead _ _ => []
  | .workerAdd _ _ => []
  | .workerDel _ _ => []
  | .recordCompletion _ _ => []
  | .callDispatch _ _ => []
  | .replyPail _ _ => []
  | .callDeadline _ => []
  | .dutyDeadline _ => []
  | .colTransferReceive _ _ _ _ _ _ _ _ _ _ => []
  | .colTimeoutExpiry _ => []
  | .abortFlit _ _ => []
  | .gangAck _ _ => []
  | .gangWindowExpiry _ => []
  | .gangFailFlit _ _ => []
  | .budgetTick _ => []
  | .budgetMessage _ => []
  | .powerControlApply _ _ _ _ => []
  | .ballastStep _ _ _ _ => []
  | .flitCrcReplay _ => []
  | .laneFailure _ => []
  | .hostLinkDown => []
  | .moduleReset => []
  | .podImageReceive _ _ _ => []
  | .parentSilenceTimeout => []
  | .attestQuote _ => []
  | .clusterWake _ _ _ => []
  | .unassignedEncoding _ => []
  | .hostAccess _ _ _ _ => []
  | .peerRequest _ _ _ _ _ _ _ _ => []
  | .atsCompletion _ _ => []
  | .unrecoveredLink => []
  | .receiverConfirmation _ => []
  | .gangbarArrival _ _ => []
  | .imageRequest _ _ => []

end Sys2Proof
end

