-- ==== Sys2Proof/Config.lean ====
section
/-! DEFINITION. What the model leaves open: constants without a body, so that no proof can lean on a value of them. The
free values stand where a chapter states no value; the rest are standards outside the spec (digests, signatures,
ciphers, the Gnotin IR translation). -/

namespace Sys2Proof.Config

/-- The free values, one for each index; a step that needs one takes the state's next index
(notes/assumptions/2.md). -/
opaque freeNat : Nat → Nat

/-- How far a cluster's cycle counter stands from the reference cycles: sr.cycle is not synchronised between clusters
(R121; notes/assumptions/5.md). -/
opaque cycleOffset : Nat → Nat

/-- SHA-384 (R188, R362). -/
opaque sha384 : List Byte → BitVec 384

/-- ECDSA over P-384 with SHA-384: public key, signature r then s, digest (R188). -/
opaque ecdsaVerify : List Byte → List Byte → BitVec 384 → Bool

/-- RSA-3072 PSS with SHA-384: public key, signature, digest (R362). -/
opaque rsaVerify : List Byte → List Byte → BitVec 384 → Bool

/-- SLH-DSA SHA2-192s: public key, signature, digest (R362). -/
opaque slhVerify : List Byte → List Byte → BitVec 384 → Bool

/-- The module's device signatures of a quote (R364): 384 bytes of RSA, 16,224 bytes of SLH-DSA. -/
opaque quoteRsa : List Byte → List Byte
opaque quoteSlh : List Byte → List Byte

/-- The keystream byte of AES-256-GCM at a position, for a key and an IV (R307). -/
opaque gcmStream : BitVec 256 → BitVec 96 → Nat → Byte

/-- The tag of AES-256-GCM for a key, an IV, additional data and ciphertext (R307). -/
opaque gcmTag : BitVec 256 → BitVec 96 → List Byte → List Byte → BitVec 128

/-- The key that the security engine generates for a context, by the index of the free value (R307). -/
opaque contextKey : Nat → BitVec 256

/-- A place in lowered code that R183 or R184 gives its tumbler instructions: a weld of a group's tumbler, entry to a
scope (or to a pair's third tumbler), a convergence point, an edge that leaves the scopes of a mask, and a cross-lane
operation of a pair, of n words, on its joined tumbler. -/
inductive Marker where
  | weld (k : Nat)
  | enter (k : Nat)
  | point (k : Nat)
  | leave (mask : Nat)
  | pairRead (k n : Nat)
deriving DecidableEq, Repr

/-- What the loader's lowering of Gnotin IR produces (R181 to R184): native code with its group lengths, live-in sets and
successor table, and by entry its offset, the convergence scopes that may be live at once in it (R184), and the W-groups
that are provided for where the kernel has no role to count them by; with the code offsets of its markers. -/
structure Lowered where
  code : List Byte
  groups : List Nat
  lsets : List (List Nat)
  succ : List (Nat × List Nat)
  entries : List Nat
  scopes : List Nat
  wgroups : List Nat
  marks : List (Nat × Marker)
deriving DecidableEq, Repr, Inhabited

/-- The lowering of an object's code section, under the width that each entry declares and the thread counts of its
roles: the spec gives the IR neither a grammar nor an encoding (notes/assumptions/94.md). -/
opaque lowerIr : List Byte → List (Nat × List Nat) → Lowered

/-- The loader takes a `cp.t` word as one to main memory, and so as region-closing (R124): the word names only the
register that holds the destination (notes/assumptions/33.md). -/
opaque cptToMain : BitVec 32 → Bool

/-- The base and size of the rotating region that a kernel built with .rotate starts with (R164), by the object's bytes
and the entry's index: the object's tables have no field for it (notes/assumptions/34.md). -/
opaque rotateOf : List Byte → Nat → Option (Nat × Nat)

/-- The code-signing public keys of a context by keyring slot (R188), by the index of the free value: how they come into
the keyring is not in the spec (notes/assumptions/35.md). -/
opaque signingKeys : Nat → List (Nat × List Byte)

/-- A firmware image as the boot stages read it (R362): its bytes, version, two public keys and two signatures. -/
structure Image where
  bytes : List Byte
  version : Nat
  rsaKey : List Byte
  slhKey : List Byte
  rsaSig : List Byte
  slhSig : List Byte
deriving DecidableEq, Repr, Inhabited

/-- An image as its bytes on Hinge VC 3 hold it (R363): the format is not in the spec. -/
opaque readImage : List Byte → Image

/-- The configuration block of a stage-2 image (R358, R360, R364): its bytes, CAP_BOOT in watts and RAMP in watts per
millisecond. -/
opaque configBlock : List Byte → List Byte
opaque configCap : List Byte → Nat
opaque configRamp : List Byte → Nat

end Sys2Proof.Config
end

