-- ==== Sys2Proof/Machine/Codes.lean ====
section
/-! DEFINITION. The 16-bit codes of the chapters (R5): traps, latch errors, statuses. -/

namespace Sys2Proof

/-- A trap, error or status code (R5). -/
abbrev Code := BitVec 16

namespace Code
def ok : Code := 0x0000#16
def boundsSh : Code := 0x0101#16
def boundsDie : Code := 0x0102#16
def boundsStk : Code := 0x0103#16
def boundsFl : Code := 0x0104#16
def align : Code := 0x0105#16
def latchOver : Code := 0x0106#16
def addrForm : Code := 0x0107#16
def ixRange : Code := 0x0108#16
def weldBad : Code := 0x0109#16
def trapSw : Code := 0x010A#16
def trapNest : Code := 0x010B#16
def tumblerNm : Code := 0x010C#16
def latchForm : Code := 0x010D#16
def illegalOp : Code := 0x0110#16
def illegalPrefix : Code := 0x0111#16
def accBusy : Code := 0x0201#16
def mxNolease : Code := 0x0202#16
def mxBad : Code := 0x0203#16
def mxSign : Code := 0x0204#16
def mxState : Code := 0x0205#16
def mxPriv : Code := 0x0206#16
def itBad : Code := 0x0301#16
def itBounds : Code := 0x0302#16
def itFailed : Code := 0x0303#16
def copyCount : Code := 0x0401#16
def xlateUnres : Code := 0x0402#16
def xlatePerm : Code := 0x0403#16
def copyFault : Code := 0x0404#16
def copyRec : Code := 0x0405#16
def copyMcast : Code := 0x0406#16
def atomUnsup : Code := 0x0411#16
def flParity : Code := 0x0501#16
def flStoreExp : Code := 0x0502#16
def ctxKey : Code := 0x0601#16
def ctxStale : Code := 0x0602#16
def ctxTag : Code := 0x0603#16
def ctxForm : Code := 0x0604#16
def ctxDrain : Code := 0x0605#16
def sliceBad : Code := 0x0606#16
def ctxBusy : Code := 0x0607#16
def hcNoclass : Code := 0x0701#16
def hcFault : Code := 0x0702#16
def hcTimeout : Code := 0x0703#16
def hcBad : Code := 0x0704#16
def hcStray : Code := 0x0706#16
def colBad : Code := 0x0801#16
def colTimeout : Code := 0x0802#16
def colAbort : Code := 0x0803#16
def colAborted : Code := 0x0804#16
def gangAbort : Code := 0x0806#16
def hingeDown : Code := 0x0807#16
def ue : Code := 0x0901#16
def ueReg : Code := 0x0902#16
def ueSh : Code := 0x0903#16
def ueDie : Code := 0x0904#16
def ueMain : Code := 0x0905#16
def hostLost : Code := 0x0906#16
def wakeFail : Code := 0x0907#16
def ueMx : Code := 0x0908#16
def codeSig : Code := 0x0A01#16
def codeHash : Code := 0x0A02#16
def codeFetch : Code := 0x0A03#16
def codeForm : Code := 0x0A04#16
def loadLa : Code := 0x0A05#16
def loadLivein : Code := 0x0A06#16
def loadWidth : Code := 0x0A07#16
def loadTumbler : Code := 0x0A08#16
def qBad : Code := 0x0B01#16
def qFault : Code := 0x0B02#16
def emitBad : Code := 0x0B03#16
def launchBad : Code := 0x0B04#16
def launchFit : Code := 0x0B05#16
def dutyBad : Code := 0x0C01#16
def rpcBad : Code := 0x0C02#16
def rpcBusy : Code := 0x0C03#16
def rpcSpace : Code := 0x0C04#16
def rpcAddr : Code := 0x0C05#16
def bootSig : Code := 0x0D01#16
def bootVer : Code := 0x0D02#16
def podImage : Code := 0x0D03#16
end Code

end Sys2Proof
end

