-- ==== Sys2Proof/Machine/State.lean ====
section
/-! DEFINITION. The state of one IK-960 module as plain data, and the state after a module reset. -/

namespace Sys2Proof.Machine

open Sys2Proof

/-! ## Threads (chapter 06) -/

/-- The four local spaces of Table 2.1. -/
inductive Space where
  | stk
  | sh
  | die
  | fl
deriving DecidableEq, Repr

/-- An index register ix0 to ix3 (R114): base 0 to 255, length and current index 0 to 256. -/
structure IxReg where
  base : Nat
  len : Nat
  cur : Nat
deriving DecidableEq, Repr

/-- What a lookahead promise or a forwarded result names: a lane register, or p6 (R152). -/
inductive ResultName where
  | reg (n : Nat)
  | p6
deriving DecidableEq, Repr

/-- A result that lookahead has not written yet (R69), or a transient result of the window (R70): the register, the
value, how many further instructions of the thread it lasts, and its place in program order. -/
structure Held where
  name : ResultName
  value : Word
  left : Nat
  seq : Nat
deriving DecidableEq, Repr

/-- One entry of a thread's store FIFO (R40), or one non-temporal store that has not performed (R58). -/
structure StoreEntry where
  space : Space
  addr : Nat
  bytes : List Byte
  /-- The storing instruction's address, word and prefix, for a trap frame. -/
  pc : Word
  word : Word
  pfx : Word
  /-- A release store: strong (R38). -/
  strong : Bool
  /-- The issue that entered it, which the stores of one bundle's instruction share (R41). -/
  group : Nat
deriving DecidableEq, Repr

/-- The region record of Table 6.6. -/
structure Region where
  head : Word
  pred : BitVec 7
  rb : Nat
  sp : Word
  ix0 : IxReg
  ix1 : IxReg
  ix2 : IxReg
  ix3 : IxReg
  nlive : Nat
  lset : Nat
deriving DecidableEq, Repr

/-- What a parked thread waits for (R24). A thread parked on something that is tried again issues its instruction
again; the others are released by the event named. -/
inductive Wait where
  /-- A die-store line that is absent (R19): tried again. -/
  | line (off : Nat)
  /-- A stack line that a context restore has not filled (R152): tried again. -/
  | stackLine (line : Nat)
  /-- A uniform access to an absent line, with the whole bundle, and the uniform registers that it reads and writes: it
  keeps its place in the role's uniform order (R157): tried again. -/
  | uniformLine (off : Nat) (reads writes : List Nat)
  /-- A uniform instruction behind a parked one of its role that has not written, or still reads, a register of it, with
  the whole bundle (R157): tried again. -/
  | uniformReg (reads writes : List Nat)
  /-- A phase of a latch (R171): released by its completion. -/
  | latch (off : Nat) (phase : Bool)
  /-- The turn of a tumbler's generation, by a thread that has signed in it (R17): tried again. -/
  | sign (k : Nat)
  /-- A tumbler's generation number (R170): released by the turn, or by the set emptying. -/
  | tumbler (k : Nat)
  /-- The crew barrier (R173): released by its completion. -/
  | barrier
  /-- A fence whose earlier accesses have not performed (R166), or a load behind its thread's older stores (R48, R218):
  tried again. -/
  | fence
  /-- A store or an atomic of these bytes that its thread's older stores (R40, R44), or a lower lane of its instruction
  (R41), still come before: tried again. -/
  | ordered (sp : Space) (off n : Nat)
  /-- A far atomic of these bytes whose thread's older stores have not performed (R210, R41): tried again. -/
  | farOrder (addr n : Nat)
  /-- nt.drain (R58): tried again. -/
  | ntDrain
  /-- The end of a thread (R174): tried again. -/
  | ending
  /-- A timeline counter (R12): tried again. -/
  | timeline (k : Nat)
  /-- A code group that is not resident (R192): tried again. -/
  | overlay (group : Nat)
  /-- A per-thread copy that cannot be taken yet (R198): tried again. -/
  | copyIssue
  /-- A copy tag count (R199): tried again. -/
  | copyTag
  /-- A per-thread copy whose source line is absent (R198), and whether a copy has failed to write that line since (R201):
  tried again. -/
  | copySource (off : Nat) (faulted : Bool)
  /-- A kick (R204): its whole bundle, whose engine has no room, or a lane whose checked record it keeps: tried again. -/
  | kick (record : Option Nat)
  /-- A kick whose copy has been accepted, until those of its bundle's other lanes are (R204): released by the last of
  them. -/
  | others (seq : Nat)
  /-- A far atomic that has been sent, or waits for its translation (R210): released by its response. -/
  | far (req : Nat)
  /-- A host call (R323): released by its reply or its end. -/
  | hostCall (call : Nat)
  /-- An operation of a task queue (R289): tried again in parking order. -/
  | queue (off : Nat)
  /-- A matrix lease of a unit of a cluster, 4 for any unit (R233): tried again, each unit's requests in arrival
  order. -/
  | lease (cluster unit : Nat)
  /-- A tile's operations up to a number (R246): tried again. -/
  | accumulator (op : Nat)
  /-- The matrix unit's in-flight state (R242 to R250): tried again. -/
  | matrix
  /-- An operand-buffer load that waits for its own source line, or for that of another lane of its bundle (R240): tried
  again, with the whole bundle. -/
  | obLine (off : Option Nat)
  /-- An iterator pull in progress (R267): released by its completion. -/
  | pull (stack : Nat)
  /-- An iterator adaptor slot or stack (R263): tried again, with the whole bundle that parked (R265). -/
  | iterator
  /-- A collective operation (R339): tried again. -/
  | collective
  /-- The gang barrier (R342): released by its completion. -/
  | gangBar
  /-- A translation fault being served (R34): tried again. -/
  | xlate (req : Nat)
  /-- A free call tag (R323): tried again. -/
  | callTag
deriving DecidableEq, Repr

/-- A copy tag's error: the first code reported under the tag, and its address (R201). -/
structure TagError where
  code : Code
  addr : Nat
deriving DecidableEq, Repr

/-- The state of Table 6.2, with the marks of the chapters on it. -/
structure Thread where
  /-- Role 0 to 7; 8 is the reserved system role (R101). -/
  role : Nat
  /-- Home slice of the thread's aligned block, and which cluster of a pair it is on (R102). -/
  slice : Nat
  home : Nat
  pc : Word
  /-- The instruction that went to pc, for a CODE_HASH report; none after a kernel entry, a trap entry, a restart or a
  restore (R195). -/
  cameFrom : Option Word
  /-- v0 to v255; a register that is not listed reads 0 (R103). -/
  regs : Sparse Word
  /-- p0 to p6; p7 reads as true (R65). -/
  preds : BitVec 7
  rb : Nat
  /-- Base and size of the rotating region, if the thread has one (R115). -/
  rot : Option (Nat × Nat)
  ix0 : IxReg
  ix1 : IxReg
  ix2 : IxReg
  ix3 : IxReg
  sp : Word
  /-- Instructions that the thread has executed: the count that window and promises use (R69, R70). -/
  icount : Nat
  pend : List Held
  trans : List Held
  fifo : List StoreEntry
  ntStores : List StoreEntry
  /-- MODEL state: the bytes of non-temporal stores that have performed since the thread's last nt.drain. They stand at the
  place of the next one (R58). -/
  ntDone : List StoreEntry
  /-- Outstanding cp.t under tags 0 to 7 (R199) and their sticky errors (R201). -/
  tagCount : Sparse Nat
  tagErr : Table TagError
  region : Region
  /-- The 64 words of the checkpoint slot (R122). -/
  slot : Sparse Word
  inHandler : Bool
  /-- SP as the trap entry wrote it into the frame (Table 8.4: read-only to the handler, R178). -/
  trapSp : Word
  ended : Bool
  wait : Option Wait
  /-- When the thread parked: queue and lease operations are tried again in this order (R289, R233). -/
  parkSeq : Nat
  /-- The parked instruction: its bytes, base word and prefix word, for its completion or its trap frame. -/
  parkLen : Nat
  parkWord : Word
  parkPfx : Word
  /-- The issue at which it parked (R41). -/
  parkIssue : Nat
  /-- The thread has arrived at the crew barrier's current generation (R173). -/
  atBarrier : Bool
  /-- The generation of the crew barrier that the thread had arrived in has completed while the thread ran its region
  again: its `bar.crew` completes at once (R173; notes/assumptions/20.md). -/
  barPassed : Bool
  /-- Bytes of the stack, and the stack lines that a restore has not filled yet (R152). -/
  stack : Sparse Byte
  stackAbsent : List Nat
  /-- Offsets of stack bytes that hold an uncorrectable error (R345). -/
  stackPoison : List Nat
  /-- Registers that hold an uncorrectable error (R345); checkpoint words likewise. -/
  poison : List Nat
  slotPoison : List Nat
  /-- The instruction at which a twin disagreement restarted the thread (R355). -/
  twinStrike : Option Word
  /-- HCP and HCTAG: a call is outstanding, and its tag (R323). -/
  callTag : Option Nat
  /-- Every thread of the owning role takes UE_MX at its next matrix instruction (R347): the unit. -/
  mxPoison : Option Nat
deriving DecidableEq, Repr

/-! ## Crews (chapters 01, 02, 06) -/

/-- A tumbler (R16, R108): declared set, the threads whose signature counts in the current generation (departed
signers stay counted, R17), the weld set, the generation number. -/
structure Tumbler where
  declared : List Nat
  signed : List Nat
  weld : List Nat
  gen : Word
  /-- A lease's release has dropped the row store that this generation had claimed (R236). -/
  orphan : Bool
deriving DecidableEq, Repr

/-- A die-store line (R18, R19): its presence bit, its count of pending copy writers, and whether a copy writing it
ended with an unrecoverable fault. -/
structure LineMark where
  present : Bool
  writers : Nat
  faulted : Bool
deriving DecidableEq, Repr

/-- A window of the die store (Table 2.2): its size in bytes, its bytes, the marks of its lines, and the 8-byte words
that hold an uncorrectable error. -/
structure DieWindow where
  size : Nat
  bytes : Sparse Byte
  lines : Sparse LineMark
  poison : List Nat
deriving DecidableEq, Repr

/-- One role of a crew (R100, R101, R118, R119): its threads are [first, first + count). -/
structure Role where
  id : Nat
  first : Nat
  count : Nat
  budget : Nat
  weight : Nat
  /-- g0 to g62; an unlisted register reads 0, and g63 always does (R65). -/
  uregs : Sparse Dword
  upoison : List Nat
  /-- The instruction address of each register's last write in the epoch (R119). -/
  uwriter : Table Word
  /-- Table 6.4: SET, REG, MULTI. -/
  uconfSet : Bool
  uconfReg : Nat
  uconfMulti : Bool
deriving DecidableEq, Repr

/-- A timeline handle's binding (Table 17.2). -/
inductive TlBind where
  | unbound
  | copy
  | matrix (role : Nat)
  | named (n : Nat)
deriving DecidableEq, Repr

/-- A timeline counter (R11): operations accepted, and those that have completed above the counter. -/
structure Timeline where
  accepted : Nat
  counter : Nat
  done : List Nat
deriving DecidableEq, Repr

/-- A fleeting tile (R213, R217): its bytes, BIRTH, BORN, FREED, STORE_EXP, EXPLOADS and its poisoned bytes. MODEL state:
`lives` counts the births of the expired tile, by which a copy knows that the tile has expired meanwhile (R220). -/
structure Tile where
  bytes : Sparse Byte
  birth : Int
  born : Bool
  freed : Bool
  storeExp : Bool
  expLoads : Nat
  poison : List Nat
  lives : Nat
deriving DecidableEq, Repr

/-- A thread's state as a rollback snapshot keeps it (Table 23.3): the region record and the checkpoint slot. -/
structure ThreadSnapshot where
  region : Region
  slot : Sparse Word
  /-- What stood with them at the barrier: words that held an error, a pending UE_MX, and a barrier already passed. -/
  slotPoison : List Nat
  mxPoison : Option Nat
  barPassed : Bool
deriving DecidableEq, Repr

/-- The rollback reserve of a crew (Table 23.3). -/
structure Reserve where
  outward : Bool
  used : Bool
  barGen : Word
  shadow : Sparse Byte
  /-- The 64-byte shared lines shadowed in this epoch, and the old bytes among them that held an error (R345). -/
  shadowed : List Nat
  shadowPoison : List Nat
  threads : Table ThreadSnapshot
  roles : List Role
  tumblers : Sparse Tumbler
  /-- The reserve itself holds an uncorrectable error (R352). -/
  poison : Bool
deriving DecidableEq, Repr

/-- One dimension set of a request record (Table 10.2): counts and strides, and the element size in bytes. -/
structure CopyShape where
  n0 : Nat
  n1 : Nat
  n2 : Nat
  n3 : Nat
  ss1 : Int
  ss2 : Int
  ss3 : Int
  ds1 : Int
  ds2 : Int
  ds3 : Int
  esize : Nat
deriving DecidableEq, Repr

/-- A bulk copy that a kick has had accepted (R204 to R209). -/
structure Copy where
  crew : Nat
  ctx : Nat
  die : Nat
  cluster : Nat
  op : Nat
  src : Nat
  dst : Nat
  shape : CopyShape
  fill : Bool
  latch : Option Nat
  /-- The crews that receive: the kicking crew, or those MCAST names (R207). -/
  dests : List Nat
  mcast : Nat
  /-- The elements already written at every destination, in rising order. -/
  written : List Nat
  /-- The element whose translation fault stalls the copy's context, and the request it has joined (R208). -/
  stalled : Option (Nat × Nat)
  /-- The fleeting tiles that the copy has given birth to, each with its life's number; and those of them that expired
  before their last element (R220). -/
  births : Table Nat
  lapsed : List Nat
deriving DecidableEq, Repr

/-- A cp.t element that has issued and not performed (R198, R200). -/
structure TElem where
  crew : Nat
  tid : Nat
  ctx : Nat
  die : Nat
  cluster : Nat
  tag : Nat
  dst : Nat
  src : Nat
  n : Nat
  /-- The source bytes, when the source is local and has been read at issue. -/
  data : Option (List Byte)
  /-- The unrecoverable failure of a local source. -/
  failed : Option (Code × Nat)
  xlate : Option Nat
deriving DecidableEq, Repr

/-- The read-modify-write operations of Table 4.2. -/
inductive AtomOp where
  | add
  | and
  | or
  | xor
  | minI
  | maxI
  | minN
  | maxN
  | exch
  | cas
deriving DecidableEq, Repr

/-- Where a far atomic request stands (R210, R211). -/
inductive FarStage where
  /-- Waits for its translation: not sent (R37). -/
  | unsent
  /-- Sent to its home, or to the worker of duty row 3. -/
  | sent
  | worker
deriving DecidableEq, Repr

/-- A far atomic of one lane (R210). -/
structure FarReq where
  crew : Nat
  tid : Nat
  ctx : Nat
  die : Nat
  cluster : Nat
  addr : Nat
  op : AtomOp
  wide : Bool
  x : Dword
  cmp : Dword
  /-- The registers that take the old value, and the lookahead count. -/
  dest : List Nat
  la : Nat
  stage : FarStage
  /-- The issue that sent it, which the lanes of one instruction share (R41). -/
  group : Nat
  /-- A restart of the thread takes effect only after the old value has come back (R125). -/
  restart : Bool
  /-- The translation request that it has joined (R36). -/
  xlate : Option Nat
deriving DecidableEq, Repr

/-! ## Matrix units (chapter 13) -/

/-- The generation that claims a lease's row store (R243), and whether it has turned. -/
structure Claim where
  acc : Nat
  ob : Nat
  tb : Nat
  gen : Word
  keep : Bool
  zero : Bool
  rows : Table (List Byte)
  turned : Bool
deriving DecidableEq, Repr

/-- A lease of a matrix unit (R233): its tile slots, quota, accumulator elements (tile n, row i, column j at
4096 n + 64 i + j), claim and kept A (R244). -/
structure Lease where
  crew : Nat
  role : Nat
  half : Nat
  f64 : Bool
  tiles : Nat
  slots : List Nat
  quota : Nat
  qleft : Nat
  acc : Sparse Dword
  accPoison : List Nat
  claim : Option Claim
  kept : Option (Table (List Byte))
deriving DecidableEq, Repr

/-- A reservation of an operand buffer (R237): owner, handle, the 32-byte record, its bytes. -/
structure Reservation where
  crew : Nat
  handle : Nat
  record : Nat
  bytes : Sparse Byte
  /-- Offsets of bytes that hold an uncorrectable error (R345). -/
  poison : List Nat
deriving DecidableEq, Repr

/-- An accepted operation (R243): lease slot, tile, A rows, reservation handle, number. -/
structure MxOp where
  slot : Nat
  crew : Nat
  role : Nat
  tile : Nat
  ob : Nat
  zero : Bool
  rows : Table (List Byte)
  op : Nat
deriving DecidableEq, Repr

/-- A matrix unit (Table 13.1). -/
structure MatrixUnit where
  frozen : Bool
  leases : Table Lease
  reservations : Table Reservation
  queue : List MxOp
  holder : Option Nat
deriving DecidableEq, Repr

/-! ## Code (chapter 09) -/

/-- A kernel's entry record (Table 9.3): roles as pairs of budget and thread count. -/
structure Entry where
  entry : Nat
  width : Nat
  twin : Bool
  rollback : Bool
  roles : List (Nat × Nat)
  regs : Nat
  shared : Nat
  dieCrew : Nat
  dieLaunch : Nat
  fleet : Nat
deriving DecidableEq, Repr

/-- A loaded code object (R185 to R190): where it lies in main memory, its group lengths and digests, its live-in
table, successor table and entries; the native bytes that a translation produced. -/
structure CodeObject where
  addr : Nat
  codeOff : Nat
  codeLen : Nat
  groups : List Nat
  digests : List (BitVec 384)
  lsets : List (List Nat)
  succ : Table (List Nat)
  entries : List Entry
  translated : Option (List Byte)
  /-- The rotating region that a kernel starts with (.rotate, R164), by entry index. -/
  rotate : Table (Nat × Nat)
deriving DecidableEq, Repr

/-- A resident overlay group of a cluster's scratchpad (R191). -/
structure Frame where
  ctx : Nat
  obj : Nat
  group : Nat
  len : Nat
  bytes : Sparse Byte
  /-- Fetched by the prefetcher and not issued from yet (R194). -/
  prefetched : Bool
deriving DecidableEq, Repr

/-- A fetch in flight for a cluster (R192): by the overlay engine, or by a worker of duty row 1. -/
structure Fetch where
  ctx : Nat
  obj : Nat
  group : Nat
  launch : Nat
  prefetch : Bool
  xlate : Option Nat
  /-- The worker's call that serves it in host-assisted mode (R193). -/
  call : Option Nat
deriving DecidableEq, Repr

/-- A cluster of a C-die: scratchpad, fetches, iterator adaptor slots in use, matrix units, the accept order of its
request engine, and its power state: gated until it has passed the test of R356, after a module reset too. -/
structure Cluster where
  frames : List Frame
  fetches : List Fetch
  mx : Table MatrixUnit
  fenced : Bool
  gated : Bool
  /-- The clock ratio of each slice in eighths (Table 24.2), and the pass count (R359). -/
  ratios : List Nat
  passes : Nat
  /-- Ballast rate of each matrix unit (R360). -/
  ballast : List Nat
deriving DecidableEq, Repr

/-! ## Iterator stacks (chapter 15) -/

/-- An element of a stream (R256), and the BUF record it comes from (R269), by its pop number. -/
structure Elem where
  x : Word
  y : Word
  origin : Option Nat
deriving DecidableEq, Repr

/-- A stage: its 64-byte record, kept current (R257), and the element that it holds with HOLD = 1: the input of an
adaptor that has not finished with it, or, when `ready`, what a read or pop that landed after its pull was abandoned has
given, not yet passed on (R267). -/
structure Stage where
  record : Nat
  held : Option Elem
  ready : Bool
  /-- A flatten stage expands the element that it holds (R261). -/
  expanding : Bool
  /-- The pop numbers of the records in BUF, in order (R269). -/
  bufIds : List Nat
deriving DecidableEq, Repr

/-- A table read or a pop that cannot complete yet (R267): the depth of its stage, the main address or die offset that it
reads, the translation request or die line that it waits for, the queue whose refill it waits for, a failure that has
ended its wait (R19, R36), and its place in parking order (R289). -/
structure Pause where
  depth : Nat
  addr : Nat
  xlate : Option Nat
  line : Option Nat
  queue : Option Nat
  failure : Option (Code × Nat)
  seq : Nat
deriving DecidableEq, Repr

/-- A pull in progress that has parked (R267): its participants in order, its registers, what it may still examine,
the elements it has taken, and what it waits for. -/
structure Pull where
  tids : List Nat
  vd : BitVec 7
  vn : BitVec 7
  la : Nat
  budget : Nat
  taken : List Elem
  pause : Option Pause
deriving DecidableEq, Repr

/-- A stack of the iterator unit (R255, Table 15.5); `flight` is the read or pop of an abandoned pull that is still to
complete into its stage (R267). -/
structure ItStack where
  stages : List Stage
  ended : Bool
  failed : Bool
  fcode : Code
  pend : List Elem
  deliv : Nat
  pull : Option Pull
  flight : Option Pause
deriving DecidableEq, Repr

/-! ## Crews, launches, contexts -/

/-- What a crew is being saved for (R299). -/
inductive SaveKind where
  | slice
  | eviction
  | record (fn slot : Nat)
deriving DecidableEq, Repr

/-- The image of a save, formed once at one tick (R225): WHOLE, its bytes, and that it may be written: nothing is left to
seal (R307). -/
structure SaveImage where
  whole : Bool
  bytes : List Byte
  sealed : Bool
deriving DecidableEq, Repr

/-- A crew that is resident (R98, R100): its launch parameters, roles, threads and the resources it holds. -/
structure Crew where
  launch : Nat
  ctx : Nat
  /-- sr.crew and sr.launch. -/
  index : Nat
  srLaunch : Dword
  die : Nat
  /-- The crew's cluster, or the lower cluster of its pair. -/
  cluster : Nat
  pair : Bool
  width : Nat
  stackSize : Nat
  handler : Option Nat
  obj : Nat
  entry : Nat
  twin : Bool
  bind : List TlBind
  roles : List Role
  threads : Table Thread
  tumblers : Sparse Tumbler
  barGen : Word
  sharedSize : Nat
  shared : Sparse Byte
  /-- Addresses of shared bytes that hold an uncorrectable error (R345). -/
  shPoison : List Nat
  window : DieWindow
  /-- The save-area window that the context engine gives to the system-role threads that it runs for the crew (R248,
  R302); of size 0 while it runs none. -/
  saveArea : DieWindow
  tiles : List Tile
  /-- The copy context of BKIND 1 and its lowest failed operation (R204, R209); the matrix context of each role
  (R230). -/
  copyTl : Timeline
  copyFailed : Option Nat
  mxTl : Table Timeline
  /-- The stacks it0 to it7 (R255). -/
  iters : Table ItStack
  reserve : Option Reserve
  /-- An early crew (R284), or a successor crew of a graph node (R295): the node's offset. -/
  early : Bool
  node : Option Nat
  /-- The threads have stopped for a save, an eviction or a consumed error (R300, R349). -/
  stopped : Bool
  /-- Killed, or its last thread has ended: accesses that had left go on (R179). -/
  killed : Bool
  /-- A consumed error that waits for steps 1 to 3 of Table 18.2 and for duty row 5 (R349): code, INFO, ADDR, and the
  tick and thread of the event (R350). -/
  consumed : Option (Code × Nat × Nat)
  consumedTick : Nat
  consumedTid : Nat
  /-- Its record stands in the context's error log. -/
  consumedLogged : Bool
  /-- The save that is in progress for the crew (R299): slice or eviction, or the function and slot of a SAVE. -/
  saving : Option SaveKind
  /-- C of the save operation (R299). -/
  saveC : Nat
  /-- When step 3 of the save began (R301). -/
  drainStart : Nat
  /-- The threads that were in their handler when the save stopped them (INH of Table 18.5). -/
  inh : List Nat
  /-- A multicast kick that waits names the crew while it is being saved: R303 keeps the crew at its place until it
  has returned there. -/
  kickNamed : Bool
  /-- The image of its save, while a worker seals it or its pages are still to be made present (R300, R306). -/
  formed : Option SaveImage
  /-- The threads of the reserved system role that run for the crew, by cluster of the pair (R101, R302), and the units
  that they have drained into the save area, in order. -/
  system : Table Thread
  areaUnits : List (Nat × Nat)
deriving DecidableEq, Repr

/-- A launch record's fields (Table 17.1) that outlive its submission. -/
structure LaunchRecord where
  code : Nat
  entry : Nat
  width : Nat
  prio : Nat
  kind : Nat
  pair : Bool
  twin : Bool
  rollback : Bool
  dies : Nat
  ncrew : Nat
  stack : Nat
  signal : Option Nat
  nthread : Nat
  handler : Option Nat
  weights : List Nat
  early : Nat
  gang : Nat
  bind : List TlBind
  /-- Dependences with USE = 1: timeline and value (R280). -/
  deps : List (Nat × Nat)
  args : List Dword
deriving DecidableEq, Repr

/-- A graph node that records have been emitted to (R295): its C-die, its offset, its template launch record, and when its
pending records were emitted. -/
structure GraphNode where
  die : Nat
  off : Nat
  template : LaunchRecord
  /-- The ticks of the emits that PEND counts, oldest first: FIRST is the head's (Table 17.5). -/
  ticks : List Nat
deriving DecidableEq, Repr

/-- A record of the error log (Table 23.2). -/
structure LogRecord where
  code : Code
  action : Nat
  crew : Nat
  info : Nat
  launch : Nat
  tick : Nat
  addr : Nat
  info2 : Nat
deriving DecidableEq, Repr

/-- An abort of a generation of a group object (R340): its C-die and offset, GID and GEN, ACODE and DEAD. -/
structure LateAbort where
  die : Nat
  off : Nat
  gid : Word
  gen : Word
  code : Code
  dead : Nat
deriving DecidableEq, Repr

/-- A launch that the scheduler has accepted (R277): its queue, the slot of its RPC record, how far it has got. -/
structure Launch where
  ctx : Nat
  fn : Nat
  /-- The window slot whose record submitted it, until the record completes. -/
  slot : Nat
  srLaunch : Dword
  record : LaunchRecord
  queue : Nat
  started : Nat
  sigOp : Option Nat
  /-- The first kill: code, tick, sr.crew (R279). -/
  killed : Option (Code × Nat × Nat)
  /-- No further crew starts (R196). -/
  cut : Bool
  /-- Groups marked failed for the launch (R195), by object and group number. -/
  failedGroups : List (Nat × Nat)
  /-- The launch's die window on each C-die, once allocated (R282). -/
  win0 : Option DieWindow
  win1 : Option DieWindow
  /-- The nodes that have had records emitted (R295). -/
  nodes : List GraphNode
  /-- The queues, by die and offset, with a batch of the churn under way in hardware mode (R22, R290). -/
  hwChurn : List (Nat × Nat)
  /-- The counter of each collective group, by 2^32 × die + offset of its group object (R11). -/
  groupTls : Table Timeline
  /-- The record of a CODE_HASH, written to the error log when the launch completes, and its thread (R196, R330). -/
  hashRecord : Option (LogRecord × Nat)
  /-- Aborts of collective generations that came while the launch's window was in a saved image (R306, R340). -/
  lateAborts : List LateAbort
deriving DecidableEq, Repr

/-- A page of a context's device page table (R366, R31): base, size, permissions, home, and its frame. -/
structure Page where
  base : Nat
  size : Nat
  writable : Bool
  hostVisible : Bool
  /-- 0 HBM, 1 capacity tier, 2 peer module. -/
  home : Nat
  peer : Nat
  /-- Address in the home: a frame of device memory, or the peer's address. -/
  frame : Nat
deriving DecidableEq, Repr

/-- A page of host memory as the host's page table stands: present, writable (R34, R35). -/
structure HostPage where
  writable : Bool
deriving DecidableEq, Repr

/-- A translation request in flight (R35, R36): its page, and whether a worker's call or a page request serves it. -/
structure XlateReq where
  ctx : Nat
  page : Nat
  kind : Nat
  /-- The call of a host-assisted request. -/
  call : Option Nat
  deadline : Nat
  /-- The page request has been answered, and the ATS translation request re-issued. -/
  retried : Bool
  /-- The crew and thread that raised it, where there is one. -/
  tid : Option (Nat × Nat)
  /-- The queues, by launch, die and offset, whose spill or churn has joined it (R292), each with the crew and the thread
  whose operation that was. -/
  queues : List ((Nat × Nat × Nat) × Nat × Nat)
  /-- It has ended unresolved: every access that joined it takes that result (R36). -/
  unresolved : Bool
deriving DecidableEq, Repr

/-- A saved crew (R299): SAVED_AT, the threads not ended, and, for a slice or an eviction, the image the device keeps. -/
structure SavedCrew where
  /-- The crew's identifier, which it has again after its restore. -/
  id : Nat
  launch : Nat
  index : Nat
  savedAt : Nat
  live : List Nat
  /-- The crew as its sections hold it, for the save's own bookkeeping: which roles, leases and stacks it had. -/
  crew : Crew
  image : Option (List Byte)
  slice : Bool
  /-- The image's section types (R312), and the unit of each lease and reservation: its cluster of the pair, and its
  number. -/
  sections : List Nat
  leaseUnits : List (Nat × Nat)
  resUnits : List (Nat × Nat)
  /-- The errors that its leases, its reservations and its launch window held: they stay with the data (R345, R357). -/
  leasePoison : List (List Nat)
  resPoison : List (List Nat)
  winPoison : List Nat
  /-- The cluster it must return to, when a parked multicast kick names it (R303). -/
  homeFixed : Bool
deriving DecidableEq, Repr

/-- Why a call was raised: a program call of a thread, or a duty request and the object it serves. -/
inductive CallOrigin where
  | thread (crew tid : Nat)
  | xlate (req : Nat)
  | overlay (die cluster obj group : Nat)
  | churn (launch die queue : Nat)
  | far (req : Nat)
  | reroute (call : Nat)
  /-- A record that is only reported (R350), and one that decides a crew's fate (R349). -/
  | errorLog (crew : Option Nat)
  | decide (crew : Nat)
  | seal (crew : Nat)
  | loadStep (fn slot : Nat)
  | restoreStep (fn slot : Nat)
deriving DecidableEq, Repr

/-- A call of the host-call engine (R323, R326, R327, R330). -/
structure Call where
  ctx : Nat
  tag : Option Nat
  cls : Nat
  reroute : Bool
  sys : Bool
  func : Nat
  arg : Nat
  launch : Nat
  crew : Nat
  tid : Nat
  tick : Nat
  duration : Nat
  deadline : Nat
  data : List Dword
  origin : CallOrigin
  /-- Worker that holds it now, and the workers that have held it (R327). -/
  worker : Option Nat
  heldBy : List Nat
  /-- The worker that the reply of duty row 4 has chosen for it (R330). -/
  pick : Option Nat
  /-- Ended, while a worker still holds it (R326): its status and RET, kept for a saved crew (R329). -/
  outcome : Option (Code × Word)
  /-- Its number in its context's call stream (R11). -/
  op : Nat
  /-- The thread that raised it has taken its end (R323, R329). -/
  taken : Bool
deriving DecidableEq, Repr

/-- A worker of a function (R321). -/
structure Worker where
  ctx : Nat
  cls : Nat
  /-- The attendant core, for KIND 1. -/
  core : Option Nat
  pail : Nat
  tableAddr : Nat
  tableLen : Nat
  callPh : Bool
  replyPh : Bool
  /-- The call the worker holds. -/
  call : Option Nat
  deleting : Bool
  /-- The slot of the WORKER_DEL record that waits for it. -/
  delSlot : Option Nat
deriving DecidableEq, Repr

/-- A context (R318). -/
structure Context where
  fn : Nat
  pasid : Nat
  prot : Bool
  /-- The context's key in the keyring, when it has one (R307). -/
  key : Option (BitVec 256)
  /-- Code-signing public keys by keyring slot (R188). -/
  signKeys : Table (List Byte)
  pages : List Page
  /-- Ranges (base, bytes) of device-homed and peer pages that a record has unmapped (R34). -/
  gone : List (Nat × Nat)
  saveCount : Nat
  /-- The counter of the host-call engine's call stream (R11). -/
  callTl : Timeline
  weights : Sparse Nat
  /-- The queue of each launch queue number: launch ids, oldest first. -/
  queues : Table (List Nat)
  /-- Whose turn it is, and how many crews it may still start, for each C-die and priority: key 4 × die + PRIO (R281). -/
  turns : Table (Nat × Nat)
  timelines : Table Timeline
  duty : Sparse Dword
  log : List LogRecord
  objects : Table CodeObject
  nextObj : Nat
  saved : List SavedCrew
  /-- Calls waiting in each class queue, oldest first (R326). -/
  classQueues : Table (List Nat)
deriving DecidableEq, Repr

/-- A command record that has been taken and has not completed (R315, R317). -/
structure Taken where
  slot : Nat
  record : BitVec 512
  seq : Nat
  /-- The operation has started, and what it waits for is in the state; then its status and VALUE. -/
  started : Bool
  sigOp : Option Nat
  result : Option (Code × Dword)
  xlate : Option Nat
  call : Option Nat
  /-- The staging copy of a restore's image (R308), and that its seal has been opened. -/
  staged : List Byte
  opened : Bool
deriving DecidableEq, Repr

/-- A function of the host port (R297, R314, R321). -/
structure HostFn where
  window : Sparse Byte
  /-- PCIe mode: bytes of a line written since it was cleared, by window offset (R314). -/
  written : List Nat
  /-- CXL mode: WINBASE. -/
  winbase : Nat
  cursor : Nat
  lap : Nat
  taken : List Taken
  /-- Slots whose completion entry of the previous lap has not been written. -/
  pendingEntry : List Nat
  workers : Table Worker
  quantum : Dword
deriving DecidableEq, Repr

/-! ## Fabric, collectives, power, boot (chapters 22 to 24) -/

/-- The operations of col.send, col.recv and col.red (R338). -/
inductive ColKind where
  | send
  | recv
  | red
deriving DecidableEq, Repr

/-- A collective operation in flight (R339): the group object, its issuer, peer, buffer and latch, and the units that
have been confirmed or written. -/
structure ColOp where
  crew : Nat
  ctx : Nat
  launch : Nat
  die : Nat
  group : Nat
  gid : Word
  gen : Word
  rank : Nat
  peer : Nat
  kind : ColKind
  op : Nat
  buffer : Nat
  len : Nat
  latch : Nat
  /-- Its number among the operations of its kind between the two ranks in the generation: k of R339. -/
  ordinal : Nat
  /-- Its number in the group's counter (R11), and the module of its peer (R337). -/
  num : Nat
  module : Nat
  issued : Nat
  timeout : Nat
  units : List Nat
  /-- A failure that its saved crew's latch takes once the crew is restored (R340). -/
  late : Option Code
  /-- The operation has ended: complete, aborted, or refused by a mismatch. It stays listed, for the numbering of its
  generation's later operations. -/
  closed : Bool
deriving DecidableEq, Repr

/-- A gang's state on this module (R342): the other members' acknowledgements, the failed mark, and the barrier. -/
structure Gang where
  members : List Nat
  window : Nat
  launch : Option Nat
  startedAt : Nat
  acks : List Nat
  failed : Bool
  /-- Barrier generation, the members whose every thread has arrived, and the local threads that have. -/
  barGen : Nat
  arrived : List Nat
  localArrived : List (Nat × Nat)
  /-- Threads that had arrived in a generation which completed while they ran their region again (R342). -/
  passed : List (Nat × Nat)
deriving DecidableEq, Repr

/-- A Hinge port (R335, R336): working lanes, width, and the peer modules reached only through it. -/
structure Port where
  lanes : Nat
  width : Nat
  narrowed : Nat
  peers : List Nat
  replays : Nat
deriving DecidableEq, Repr

/-- The newest budget message of a member (R343) and when it came. -/
structure BudgetEntry where
  seq : Nat
  req : Nat
  draw : Nat
  cameAt : Nat
deriving DecidableEq, Repr

/-- The budget group (R343): limit, the modules of the group with this one's own number, own request and sequence number,
and the newest messages of the others. -/
structure Budget where
  limit : Nat
  self : Nat
  group : List Nat
  req : Nat
  seq : Nat
  members : Table BudgetEntry
deriving DecidableEq, Repr

/-- How far bring-up has got (R362, R363): it waits for the image of a stage, 1 to 3, or with stage 4 for the tests of the
clusters (R356). -/
inductive BootStage where
  | off
  | waiting (stage : Nat)
  | failed (code : Code) (stage : Nat)
  | open
deriving DecidableEq, Repr

/-- The host link (R313, R348). -/
inductive HostLink where
  | untrained
  | pcie
  | cxl
  | down
deriving DecidableEq, Repr

/-- Messages that the module has sent outwards, the newest last: what the world outside sees besides memory. -/
inductive Message where
  | msi (fn : Nat)
  | pageRequest (pasid page : Nat)
  | atsRequest (pasid page : Nat)
  | gangAck (gang : Nat)
  | gangFail (gang : Nat)
  | gangArrive (gang : Nat)
  /-- To a rank, on the module that the group's peer table names for it (R337). -/
  | abortFlit (module : Nat) (gid gen : Word) (rank : Nat)
  | colTransfer (module : Nat) (gid gen : Word) (src dst kind ordinal unit len op : Nat) (data : List Byte)
  | colConfirm (module : Nat) (gid gen : Word) (src dst ordinal unit : Nat)
  | budget (msg : BitVec 128)
  | podImage (port stage : Nat)
  /-- POD_IMAGE with the module's number, to the parent (Table 24.2). -/
  | podError (port : Nat) (code : Code) (module : Nat)
  | podAsk (port stage : Nat)
  | quote (bytes : List Byte)
  /-- What a function's configuration space reports of a boot that has failed: its code and stage (R362). -/
  | configReport (fn : Nat) (report : Option (Code × Nat))
  /-- A request of this module's engines to a peer module, of n bytes at its address: 0 reads, 1 writes, 2 is an atomic
  (R335). -/
  | peerRequest (module addr n kind : Nat)
  | peerReply (port : Nat) (data : List Byte)
  /-- The answer to a peer whose data hold an error (R347). -/
  | peerPoisoned (port : Nat)
  | hostReply (data : List Byte)
  | unsupported
  | poisoned
deriving DecidableEq, Repr

/-! ## The current bundle and what moves next -/

/-- A virtual lane of the issuing bundle: its thread, and whether that thread issues (a weld set's other members hold
their lanes but do not, R109). -/
structure Lane where
  tid : Nat
  issued : Bool
deriving DecidableEq, Repr

/-- The prefix in front of the base word (R66), and whether its zero field is zero. -/
structure PrefixWord where
  word : Word
  pred : BitVec 3
  mz : Bool
  rnd : BitVec 3
  vc : BitVec 7
  neg : Bool
  clean : Bool
deriving DecidableEq, Repr

/-- The bundle whose instruction the machine carries out (R104, R109): MODEL state, set by the step. -/
structure Bundle where
  crew : Nat
  lanes : List Lane
  pc : Word
  word : Word
  pfx : Option PrefixWord
  /-- A released waiter that issues alone: its traps are single-thread traps (R176). -/
  alone : Bool
  /-- The issue's number, which the accesses of its lanes share (R41). -/
  seq : Nat := 0
deriving DecidableEq, Repr

/-- Where a soft error strikes (Table 23.1). -/
inductive UpsetPlace where
  | laneReg (crew tid reg : Nat)
  | uniformReg (crew role reg : Nat)
  | shared (crew addr : Nat)
  | crewDie (crew addr : Nat)
  | launchDie (launch die addr : Nat)
  | slotWord (crew tid k : Nat)
  | stackByte (crew tid addr : Nat)
  | tileWord (crew tile word : Nat)
  | acc (die cluster unit slot elem : Nat)
  | reservation (die cluster unit slot addr : Nat)
  | main (addr : Nat)
  | reserve (crew : Nat)
deriving DecidableEq, Repr

/-- Where a value without a check goes wrong and takes a correct check with it (R346): a result of a slice's arithmetic in
a lane register, a predicate or a uniform register, or in the sliding window; a row in a matrix collector; an accumulator
element; a cursor or an element of an iterator stack; and bytes that a re-encoder passed. -/
inductive SlipPlace where
  | laneReg (crew tid reg : Nat) (value : Word)
  | predicate (crew tid : Nat) (value : BitVec 7)
  | uniformReg (crew role reg : Nat) (value : Dword)
  | claimRow (die cluster unit slot row : Nat) (value : List Byte)
  | keptRow (die cluster unit slot row : Nat) (value : List Byte)
  | cursor (crew stack depth record : Nat)
  | stackByte (crew tid addr : Nat) (value : Byte)
  | slotWord (crew tid k : Nat) (value : Word)
  | reservation (die cluster unit slot addr : Nat) (value : Byte)
  | window (crew tid ix : Nat) (value : Word)
  | acc (die cluster unit slot elem : Nat) (value : Dword)
  | element (crew stack ix : Nat) (x y : Word)
  | shared (crew addr : Nat) (value : Byte)
  | crewDie (crew addr : Nat) (value : Byte)
  | launchDie (launch die addr : Nat) (value : Byte)
  | tile (crew tile addr : Nat) (value : Byte)
  | main (addr : Nat) (value : Byte)
deriving DecidableEq, Repr

/-- What an instruction of an attendant core's user code does: RV64GCV is not described in the spec, so what the code
computes comes from outside (R331; notes/assumptions/77.md). -/
inductive CoreAct where
  | goto (pc : Dword)
  | setX (rd : BitVec 5) (value : Dword)
  | setV (vd : BitVec 5) (value : BitVec 1024)
  /-- A load of 1 to 8 bytes, a store, a read of eight bytes of the call pail, and a write of the worker's reply pail. -/
  | load (rd : BitVec 5) (addr n : Nat)
  | store (addr n : Nat) (value : Dword)
  | readPail (rd : BitVec 5) (off : Nat)
  | reply (off : Nat) (data : List Byte)
deriving DecidableEq, Repr

/-- Who moves next: the choices that the chapters leave to the device and to the outside world (R97, R107), as plain
data. MODEL state. -/
inductive Move where
  /-- The bundle of these threads, in ascending id, issues its next instruction. -/
  | issue (crew : Nat) (tids : List Nat)
  /-- A parked thread whose wait may have ended issues again. -/
  | retry (crew tid : Nat)
  /-- The oldest store of a thread's FIFO performs (R40). -/
  | drain (crew tid : Nat)
  /-- A non-temporal store performs (R58). -/
  | drainNt (crew tid ix : Nat)
  /-- Reference cycles pass (R214). -/
  | time (cycles : Nat)
  /-- An event of the opcode table's rows without bits. -/
  | event (e : Instr)
  /-- An attendant core executes its next instruction (R331, R332). -/
  | attendant (core : Nat)
  /-- An attendant core's user code executes an instruction of RV64GCV (R331). -/
  | coreUser (core : Nat) (act : CoreAct)
  /-- The host writes bytes of a function's window (R314). -/
  | hostWindow (fn off : Nat) (data : List Byte)
  /-- A host core or the driver writes host memory of a process. -/
  | hostMem (pasid addr : Nat) (data : List Byte)
  /-- The host's page table changes: a page becomes present, or stops being so (R34). -/
  | hostPage (pasid page : Nat) (entry : Option HostPage)
  /-- A soft error (R345). -/
  | upset (place : UpsetPlace)
  /-- An error that a check corrects in place (R345), and one that no check covers (R346). -/
  | corrected
  | slip (place : SlipPlace)
  /-- The two executions of a twin bundle disagree (R355). -/
  | twinDisagree (crew : Nat) (tids : List Nat)
  /-- The scheduler evicts an early crew (R285). -/
  | evict (crew : Nat)
  /-- The queue engine moves spilled records into the ring (R290). -/
  | churn (launch die queue : Nat)
  /-- A resident code group leaves a cluster's scratchpad (R191, R194). -/
  | evictGroup (die cluster ctx obj group : Nat)
  /-- Pod firmware writes the gang table, the budget group and the ports' peers (R342, R343). -/
  | podConfig (gang : Nat) (members : List Nat) (window : Nat)
  | budgetConfig (limit self : Nat) (group : List Nat)
  | portConfig (port : Nat) (peers : List Nat)
  /-- The pod's cables, each a module and port at both ends, from which the root forms its tree (R363). -/
  | podTree (root : Nat) (links : List (Nat × Nat × Nat × Nat))
  /-- Duty firmware writes a duty row (R20, R21). -/
  | dutyWrite (ctx row : Nat) (v : Dword)
  /-- The host writes WINBASE of a function, and reads its configuration space (R314, R362). -/
  | winbase (fn addr : Nat)
  | configRead (fn : Nat)
  /-- The power controller gates a cluster that no crew is on (R356), or narrows a port (R336). -/
  | powerGate (die cluster : Nat)
  | narrowPort (port width : Nat)
  /-- Manufacture and the pod's flash: fuses and firmware images (R362). -/
  | provision (version : Nat) (rsa slh : BitVec 384) (images : Table Config.Image)
  /-- Where the module is built in: its number in the pod (R342), and whether the host's completer takes AtomicOps
  (R211). -/
  | board (module : Nat) (atomics : Bool)
deriving DecidableEq, Repr

/-- An attendant core (R331, R332): RV64 integer registers, vector registers of 1,024 bits, the call it serves. -/
structure AttendantCore where
  pc : Dword
  x : Sparse Dword
  v : Sparse (BitVec 1024)
  call : Option Nat
  /-- The pending trap cause of the core, for its own handler. -/
  cause : Option Nat
  /-- The lines that its `xsf.vld` or `xsf.vst` has accessed before one that it waits for (R332). -/
  stored : Nat
  /-- The call pail that its worker has been given last (R324, R331). -/
  pail : List Byte
deriving DecidableEq, Repr

/-! ## The module -/

/-- The state of one module. -/
structure State where
  /-- Reference cycles of 1.05 GHz since module reset (R214). -/
  now : Nat
  agenda : List Move
  cur : Bundle
  /-- The next free value's index, the next identifier, the next place in parking order: MODEL counters. -/
  freeIx : Nat
  nextId : Nat
  nextSeq : Nat
  /-- An unrecovered die link has stopped the module (R345). -/
  stopped : Bool
  clusters : Table Cluster
  crews : Table Crew
  launches : Table Launch
  contexts : Table Context
  copies : Table Copy
  elems : Table TElem
  fars : Table FarReq
  xlates : Table XlateReq
  calls : Table Call
  colops : Table ColOp
  /-- Bytes of HBM and the capacity tier by frame address, of host memory by PASID, of peer modules by module. -/
  devMem : Sparse Byte
  hostMem : Table (Sparse Byte)
  peerMem : Table (Sparse Byte)
  /-- Frames that MAP has given out. -/
  nextFrame : Nat
  /-- Frame addresses of device bytes that hold an uncorrectable error; the check covers 64 bytes (R345). -/
  mainPoison : List Nat
  /-- Correctable errors that have been corrected (R345). -/
  corrected : Nat
  /-- Host pages by PASID: present pages and whether they are writable (R34). -/
  hostPages : Table (Table HostPage)
  /-- Translations of host-homed pages that the TLBs hold, by PASID and 64 KiB page (R32, R33). -/
  tlb : Table (Table HostPage)
  fns : Table HostFn
  slice : Option Nat
  sliceStart : Nat
  /-- The slice's save has begun. -/
  sliceSaving : Bool
  deviceLog : List LogRecord
  link : HostLink
  /-- Whether the host's completer accepts AtomicOps (R211). -/
  hostAtomics : Bool
  boot : BootStage
  fuseVersion : Nat
  fuseRsa : BitVec 384
  fuseSlh : BitVec 384
  images : Table Config.Image
  boots : Nat
  podRoot : Bool
  podParent : Option Nat
  podChildren : List Nat
  podTried : List Nat
  /-- When the module reset, or its parent last sent (R363). -/
  podHeard : Nat
  module : Nat
  capBoot : Nat
  ramp : Nat
  cap : Nat
  /-- The cap that the controller holds the draw to while a lowered cap is met along the ramp (R358, R360). -/
  capNow : Nat
  /-- The mean draw of the last 100 µs, and the part of it that is ballast, in watts (R358, R360). -/
  draw : Nat
  ballastWatts : Nat
  /-- The nine draws before it, the newest first, each with the cap that was in force: with it, the last millisecond, over
  which R358 takes the mean. -/
  draws : List (Nat × Nat)
  /-- When the 100 µs of `draw` ended (R343, R358). -/
  lastTick : Nat
  budget : Option Budget
  ports : Table Port
  gangs : Table Gang
  attendants : Table AttendantCore
  /-- The attendant core whose instruction is carried out: MODEL state, set by the step. -/
  curCore : Nat
  sent : List Message
deriving DecidableEq, Repr

/-- Why a step stops with a fault. -/
inductive Fault where
  /-- An unrecovered link between the dies has stopped the module, and it takes no further step (R345). Raised by the
  step of a stopped module. Safe: no behaviour is claimed after it. -/
  | moduleStopped
deriving DecidableEq, Repr

/-- Why a step is refused. -/
inductive Refusal where
  /-- The instruction has no meaning in the model yet: raised by exec's arm for it. Safe. -/
  | notModelled (mnemonic : String)
  /-- An attendant core fetches an instruction of RV64GCV, which the spec names and does not describe (R331): raised
  by the step of an attendant core. Safe: no effect is claimed. -/
  | attendantBase (word : Word)
deriving DecidableEq, Repr

/-! ## Reset -/

/-- No bundle is issuing. -/
def Bundle.idle : Bundle :=
  { crew := 0, lanes := [], pc := 0#32, word := 0#32, pfx := none, alone := false }

/-- The machine after a module reset. Nothing is resident, loaded or mapped; every table that lists objects is empty
and every object is created with the values its chapter gives. The values that no chapter states are named in
notes/assumptions: now (4), fuses, flash images and CAP_BOOT (6), memory (9), attendant cores (10). -/
def State.reset : State :=
  { now := 0, agenda := [], cur := Bundle.idle, freeIx := 0, nextId := 0, nextSeq := 0, stopped := false,
    clusters := [], crews := [], launches := [], contexts := [], copies := [], elems := [], fars := [],
    xlates := [], calls := [], colops := [], devMem := [], hostMem := [], peerMem := [], nextFrame := 0,
    mainPoison := [], corrected := 0, hostPages := [], tlb := [], fns := [], slice := none, sliceStart := 0, sliceSaving := false, deviceLog := [],
    link := .untrained, hostAtomics := true, boot := .off, fuseVersion := 0,
    fuseRsa := 0#384, fuseSlh := 0#384, images := [], boots := 0, podRoot := true, podParent := none,
    podChildren := [], podTried := [], podHeard := 0, module := 0, capBoot := 2000, ramp := 250, cap := 2000,
    capNow := 2000, draw := 0, ballastWatts := 0, draws := List.replicate 9 (0, 2000), lastTick := 0,
    budget := none, ports := [], gangs := [], attendants := [], curCore := 0, sent := [] }

end Sys2Proof.Machine
end

