-- ==== Sys2Proof/Machine/Table.lean ====
section
/-! DEFINITION. The two finite maps the state is built from, in one canonical form each: a Table (at most one entry
for a key, keys strictly rising) and a Sparse table (the same, with a value that every unlisted key reads as, and no
entry equal to it). Memories, register files and line marks are Sparse tables, so equal contents are equal data. -/

namespace Sys2Proof

/-- The entry of a table for a key. -/
def Table.get? {α : Type} : Table α → Nat → Option α
  | [], _ => none
  | (j, v) :: t, k => if j = k then some v else Table.get? t k

/-- The table with one entry set, its keys kept strictly rising. -/
def Table.put {α : Type} : Table α → Nat → α → Table α
  | [], k, v => [(k, v)]
  | (j, u) :: t, k, v =>
    if k < j then (k, v) :: (j, u) :: t
    else if k = j then (k, v) :: t
    else (j, u) :: Table.put t k v

/-- The table without the entry of a key. -/
def Table.drop {α : Type} : Table α → Nat → Table α
  | [], _ => []
  | (j, u) :: t, k => if j = k then Table.drop t k else (j, u) :: Table.drop t k

/-- The table with its entry for a key, if it has one, replaced by its image. -/
def Table.adjust {α : Type} (t : Table α) (k : Nat) (f : α → α) : Table α :=
  t.map fun e => if e.1 = k then (e.1, f e.2) else e

/-- Every entry replaced by its image. -/
def Table.mapVals {α : Type} (t : Table α) (f : Nat → α → α) : Table α :=
  t.map fun e => (e.1, f e.1 e.2)

/-- The keys that the table lists. -/
def Table.keys {α : Type} (t : Table α) : List Nat := t.map Prod.fst

/-- The values that the table lists, in key order. -/
def Table.vals {α : Type} (t : Table α) : List α := t.map Prod.snd

/-- Keys strictly rising from a lower bound. -/
def Table.risingFrom {α : Type} : Nat → Table α → Bool
  | _, [] => true
  | lo, (k, _) :: t => decide (lo ≤ k) && Table.risingFrom (k + 1) t

/-- The canonical form of a table. -/
def Table.wf {α : Type} (t : Table α) : Bool := Table.risingFrom 0 t

/-- What a key of a sparse table reads as. -/
def Sparse.get {α : Type} (d : α) (t : Sparse α) (k : Nat) : α := (Table.get? t k).getD d

/-- The sparse table with one key written; writing the unlisted value removes the entry. -/
def Sparse.set {α : Type} [DecidableEq α] (d : α) (t : Sparse α) (k : Nat) (v : α) : Sparse α :=
  if v = d then Table.drop t k else Table.put t k v

/-- The canonical form of a sparse table: keys strictly rising, no entry equal to the unlisted value. -/
def Sparse.wf {α : Type} [DecidableEq α] (d : α) (t : Sparse α) : Bool :=
  Table.wf t && t.all (fun e => decide (e.2 ≠ d))

/-- What a byte that no entry lists reads as, in every memory of the machine. The spec gives zero for the pages of
MAP (R366) and for a fleeting tile after its zeroing birth; for the rest it gives none and the model fixes zero.
DESIGN CHOICE (notes/assumptions/9.md): unsafe, since a proof can lean on the zero. -/
def unlistedByte : Byte := 0#8

/-- One byte of a memory. -/
def Mem.read (m : Sparse Byte) (a : Nat) : Byte := Sparse.get unlistedByte m a

/-- A memory with one byte written. -/
def Mem.write (m : Sparse Byte) (a : Nat) (b : Byte) : Sparse Byte := Sparse.set unlistedByte m a b

/-- The canonical form of a memory. -/
def Memory.wf (m : Sparse Byte) : Bool := Sparse.wf unlistedByte m

/-- The n bytes from an address up. -/
def Mem.readBytes (m : Sparse Byte) (a : Nat) : Nat → List Byte
  | 0 => []
  | n + 1 => Mem.read m a :: Mem.readBytes m (a + 1) n

/-- A memory with a run of bytes written from an address up. -/
def Mem.writeBytes (m : Sparse Byte) (a : Nat) : List Byte → Sparse Byte
  | [] => m
  | b :: bs => Mem.writeBytes (Mem.write m a b) (a + 1) bs

/-- Bytes, the first least significant, as a number (R4). -/
def leNat : List Byte → Nat
  | [] => 0
  | b :: bs => b.toNat + 256 * leNat bs

/-- The low n bytes of a number, the least significant first (R4). -/
def leBytes (v : Nat) : Nat → List Byte
  | 0 => []
  | n + 1 => BitVec.ofNat 8 v :: leBytes (v / 256) n

/-- An n-byte little-endian number at an address (R4). -/
def Mem.readNat (m : Sparse Byte) (a n : Nat) : Nat := leNat (Mem.readBytes m a n)

/-- A memory with an n-byte little-endian number stored at an address (R4). -/
def Mem.writeNat (m : Sparse Byte) (a n v : Nat) : Sparse Byte := Mem.writeBytes m a (leBytes v n)

/-- The bits [hi:lo] of a number, as the record tables of the chapters number them. -/
def bitsOf (v hi lo : Nat) : Nat := v / 2 ^ lo % 2 ^ (hi + 1 - lo)

/-- A number whose bits [hi:lo] are replaced by the low bits of another. -/
def setBits (v hi lo x : Nat) : Nat :=
  v - bitsOf v hi lo * 2 ^ lo + x % 2 ^ (hi + 1 - lo) * 2 ^ lo

end Sys2Proof
end

