-- ==== Sys2Proof/Machine/Operands.lean ====
section
/-! DEFINITION. Operands: which register a field names, how a lane reads and writes it through the sliding window and
the lookahead promises, the prefix, and what makes an operand or a prefix illegal (chapters 04 and 06). -/

namespace Sys2Proof.Machine

open Sys2Proof

/-! ## Words and pairs -/

/-- The low word of a 64-bit value, the even register of its pair (R65). -/
def lo32 (v : Dword) : Word := v.extractLsb' 0 32

/-- The high word of a 64-bit value. -/
def hi32 (v : Dword) : Word := v.extractLsb' 32 32

/-- The 64-bit value of a pair, its low word in the even register (R65). -/
def pairOf (lo hi : Word) : Dword := hi ++ lo

/-- A signed field as an integer. -/
def sext {n : Nat} (v : BitVec n) : Int := v.toInt

/-! ## Index registers and renaming -/

/-- Index register k of a thread (R114). -/
def Thread.ix (th : Thread) (k : Nat) : IxReg :=
  if k = 0 then th.ix0 else if k = 1 then th.ix1 else if k = 2 then th.ix2 else th.ix3

/-- A thread with one index register set. -/
def Thread.setIx (th : Thread) (k : Nat) (r : IxReg) : Thread :=
  if k = 0 then { th with ix0 := r } else if k = 1 then { th with ix1 := r }
  else if k = 2 then { th with ix2 := r } else { th with ix3 := r }

/-- The index register that a field names, if it is an index form (Table 4.3). -/
def fieldIx (f : BitVec 7) : Option Nat := if f.toNat < 0x78 then none else some (f.toNat % 4)

/-- A field of the ++ form (Table 4.3). -/
def fieldAdvances (f : BitVec 7) : Bool := decide (0x7C ≤ f.toNat)

/-- The register that a direct field value names after rotation (R115). -/
def Thread.rename (th : Thread) (n : Nat) : Nat :=
  match th.rot with
  | none => n
  | some (b, size) => if b ≤ n ∧ n < b + size then b + (n - b + th.rb) % size else n

/-- The register, or the low register of the pair, that a field names in a thread (R63, R114, R115). -/
def Thread.regOf (th : Thread) (f : BitVec 7) : Nat :=
  match fieldIx f with
  | none => th.rename f.toNat
  | some k => (th.ix k).base + (th.ix k).cur

/-- The upper register of the pair that a field names: each field of a pair is renamed on its own (R115). -/
def Thread.regHiOf (th : Thread) (f : BitVec 7) : Nat :=
  match fieldIx f with
  | none => th.rename (f.toNat + 1)
  | some k => (th.ix k).base + (th.ix k).cur + 1

/-- Register i of the run of a block operand (R129). -/
def Thread.blockReg (th : Thread) (f : BitVec 7) (i : Nat) : Nat := th.rename (f.toNat + i)

/-! ## The window and the promises -/

/-- What a lane register reads as: the newest transient result forwarded to it (R70), or the register file, from
which a promised instruction reads the value before the promise (R69). -/
def Thread.readReg (th : Thread) (r : Nat) : Word :=
  match th.trans.find? (fun h => h.name = .reg r) with
  | some h => h.value
  | none => Sparse.get 0#32 th.regs r

/-- A read of a register meets an uncorrectable error: its word holds one, and no transient result is forwarded in its
place (R70, R345). -/
def Thread.readPoisoned (th : Thread) (r : Nat) : Bool :=
  th.poison.contains r && !th.trans.any (fun h => h.name = .reg r)

/-- A 32-bit operand. -/
def Thread.read32 (th : Thread) (f : BitVec 7) : Word := th.readReg (th.regOf f)

/-- A 64-bit operand (R65). -/
def Thread.read64 (th : Thread) (f : BitVec 7) : Dword :=
  pairOf (th.readReg (th.regOf f)) (th.readReg (th.regHiOf f))

/-- Predicate k of a thread; p7 reads as true (R65). -/
def Thread.pred (th : Thread) (k : Nat) : Bool := if k = 7 then true else th.preds.getLsbD k

/-- p0 to p7 as a byte (R137). -/
def Thread.predByte (th : Thread) : BitVec 8 := 1#1 ++ th.preds

/-- The thread without the results held for one name: a later write in program order replaces them (R69, R70). -/
def Thread.forget (th : Thread) (n : ResultName) : Thread :=
  { th with pend := th.pend.filter (fun h => h.name ≠ n), trans := th.trans.filter (fun h => h.name ≠ n) }

/-- Bit k of a 7-bit field set to a truth value. -/
def setBit7 (v : BitVec 7) (k : Nat) (b : Bool) : BitVec 7 :=
  if b then v ||| (1#7 <<< k) else v &&& ~~~(1#7 <<< k)

/-- A lane register written in the register file: its poison is overwritten (R345). -/
def Thread.putReg (th : Thread) (r : Nat) (v : Word) : Thread :=
  { th with regs := Sparse.set 0#32 th.regs r v, poison := th.poison.filter (· ≠ r) }

/-- A lane register written at once. -/
def Thread.writeReg (th : Thread) (r : Nat) (v : Word) : Thread := (th.forget (.reg r)).putReg r v

/-- A predicate written at once; a write to p7 is ignored (R65). -/
def Thread.writePred (th : Thread) (k : Nat) (b : Bool) : Thread :=
  if k = 7 then th
  else
    let th := if k = 6 then th.forget .p6 else th
    { th with preds := setBit7 th.preds k b }

/-- A named result written to the register file or to p6, without touching what is held. -/
def Thread.putResult (th : Thread) (n : ResultName) (v : Word) : Thread :=
  match n with
  | .reg r => th.putReg r v
  | .p6 => { th with preds := setBit7 th.preds 6 (v ≠ 0#32) }

/-- A named result written at once. -/
def Thread.writeResult (th : Thread) (n : ResultName) (v : Word) : Thread := (th.forget n).putResult n v

/-- A promise's result reaches its place: transient results that are older in program order give way (R69, R70). -/
def Thread.mature (th : Thread) (h : Held) : Thread :=
  { th.putResult h.name h.value with
    trans := th.trans.filter (fun t => t.name ≠ h.name || decide (h.seq < t.seq)) }

/-- Every promise ends here: a branch and the forms named with it in R69 wait for every result. -/
def Thread.flushPend (th : Thread) : Thread :=
  { th.pend.foldl Thread.mature th with pend := [] }

/-- One more instruction of the thread has executed: promises and transient results count down, and a promise that
has run out is written. -/
def Thread.settle (th : Thread) : Thread :=
  let due := th.pend.filter (fun h => h.left ≤ 1)
  let kept := (th.pend.filter (fun h => 1 < h.left)).map (fun h => { h with left := h.left - 1 })
  let th := due.foldl Thread.mature th
  { th with
    pend := kept
    trans := (th.trans.filter (fun h => 1 < h.left)).map (fun h => { h with left := h.left - 1 })
    icount := th.icount + 1 }

/-- A result of an instruction whose la is k: written at once for k = 0, and after k more instructions otherwise
(R69). The promise is entered after the instruction has settled. -/
def Thread.holdResult (th : Thread) (k : Nat) (n : ResultName) (v : Word) : Thread :=
  if k = 0 then th.writeResult n v
  else { th with pend := th.pend ++ [{ name := n, value := v, left := k, seq := th.icount }] }

/-- A transient result: forwarded to the next eight instructions of the thread (R70). -/
def Thread.forwardResult (th : Thread) (r : Nat) (v : Word) : Thread :=
  { th with
    trans := th.trans.filter (fun h => h.name ≠ .reg r) ++
      [{ name := .reg r, value := v, left := 8, seq := th.icount }] }

/-- How an instruction's results reach their registers. -/
inductive ResultMode where
  | now
  | after (k : Nat)
  | forward
deriving DecidableEq, Repr

/-- Results of one instruction: what each names, and its value. -/
abbrev Results := List (ResultName × Word)

/-- Every result written at once, in order. -/
def Thread.writeAll (th : Thread) (rs : Results) : Thread :=
  rs.foldl (fun (t : Thread) r => t.writeResult r.1 r.2) th

/-- The thread without the promises for one name: a promised write of a register discards the result of the promise
before it (R69). -/
def Thread.dropPromise (th : Thread) (n : ResultName) : Thread :=
  { th with pend := th.pend.filter (fun h => h.name ≠ n) }

/-- Older promises for the names of these results are discarded. What is forwarded for them stays, since a promised
reader reads the value from before the promise (R69, R70). -/
def Thread.dropPromises (th : Thread) (rs : Results) : Thread :=
  rs.foldl (fun (t : Thread) r => t.dropPromise r.1) th

/-- Every result promised after k instructions. -/
def Thread.holdAll (th : Thread) (k : Nat) (rs : Results) : Thread :=
  rs.foldl (fun (t : Thread) r => t.holdResult k r.1 r.2) th

/-- One result forwarded within the window; a predicate is never transient (R70). -/
def Thread.forwardOne (th : Thread) (n : ResultName) (v : Word) : Thread :=
  match n with
  | .reg r => th.forwardResult r v
  | .p6 => th

/-- Every result forwarded within the window. -/
def Thread.forwardAll (th : Thread) (rs : Results) : Thread :=
  rs.foldl (fun (t : Thread) r => t.forwardOne r.1 r.2) th

/-- The results that reach their registers before the instruction settles. A transient result writes no register, so it
discards no promise (R69, R70; notes/assumptions/99.md). -/
def Thread.resultsBefore (th : Thread) (mode : ResultMode) (rs : Results) : Thread :=
  match mode with
  | .now => th.writeAll rs
  | .after k => if k = 0 then th.writeAll rs else th.dropPromises rs
  | .forward => th

/-- The results that are entered as promises or forwarded after the instruction has settled. -/
def Thread.resultsAfter (th : Thread) (mode : ResultMode) (rs : Results) : Thread :=
  match mode with
  | .now => th
  | .after k => if k = 0 then th else th.holdAll k rs
  | .forward => th.forwardAll rs

/-- An instruction of the thread completes with these results: they are written, promised or forwarded, the window
and the promises count one more instruction, and the thread stands at the next instruction, to which this one went
(R195). -/
def Thread.commit (th : Thread) (len : Nat) (mode : ResultMode) (rs : Results) : Thread :=
  let t := ((th.resultsBefore mode rs).settle).resultsAfter mode rs
  { t with pc := t.pc + BitVec.ofNat 32 len, cameFrom := some t.pc, wait := none }

/-- The registers with the promised results in place: what a region entry checkpoints (R69). A transient result is in no
register (R70), so the checkpoint holds the register file's value (notes/assumptions/80.md). -/
def Thread.settledReg (th : Thread) (r : Nat) : Word :=
  match th.pend.reverse.find? (fun h => h.name = .reg r) with
  | some h => h.value
  | none => Sparse.get 0#32 th.regs r

/-- That word holds an uncorrectable error: the register's own, unless a promised result takes its place (R345). -/
def Thread.settledPoisoned (th : Thread) (r : Nat) : Bool :=
  th.poison.contains r && !th.pend.any (fun h => h.name = .reg r)

/-- The predicates with the promised results in place. -/
def Thread.settledPreds (th : Thread) : BitVec 7 :=
  match th.pend.reverse.find? (fun h => h.name = .p6) with
  | some h => setBit7 th.preds 6 (h.value ≠ 0#32)
  | none => th.preds

/-! ## Operands and prefixes of an instruction -/

/-- A lane register operand of an instruction: its field, whether it is a pair, whether index forms are allowed, and
whether the instruction reads it. -/
structure Opnd where
  field : BitVec 7
  wide : Bool
  direct : Bool
  reads : Bool
deriving DecidableEq, Repr

/-- A 32-bit or 64-bit source in any form; a destination in any form. -/
def src32 (f : BitVec 7) : Opnd := { field := f, wide := false, direct := false, reads := true }
def src64 (f : BitVec 7) : Opnd := { field := f, wide := true, direct := false, reads := true }
def dst32 (f : BitVec 7) : Opnd := { field := f, wide := false, direct := false, reads := false }
def dst64 (f : BitVec 7) : Opnd := { field := f, wide := true, direct := false, reads := false }
/-- The register fields of the LX forms: direct, index forms refused. -/
def lxSrc32 (f : BitVec 7) : Opnd := { field := f, wide := false, direct := true, reads := true }
def lxSrc64 (f : BitVec 7) : Opnd := { field := f, wide := true, direct := true, reads := true }
def lxDst32 (f : BitVec 7) : Opnd := { field := f, wide := false, direct := true, reads := false }
def lxDst64 (f : BitVec 7) : Opnd := { field := f, wide := true, direct := true, reads := false }
/-- The 4-bit address registers v0 to v15 of the local-memory formats (R61). -/
def addrSrc (f : BitVec 4) : Opnd := { field := f.setWidth 7, wide := false, direct := true, reads := true }

/-- R65: an odd field for a pair, a register at or beyond the budget, or an index form where the field is direct. -/
def Opnd.illegal (budget : Nat) (o : Opnd) : Bool :=
  match fieldIx o.field with
  | some _ => o.direct
  | none =>
    (o.wide && o.field.toNat % 2 = 1) ||
      decide (budget ≤ o.field.toNat + (if o.wide then 1 else 0))

/-- R64: two fields of one instruction that name the same index register with ++. -/
def advancesTwice (os : List Opnd) : Bool :=
  [0x7C#7, 0x7D#7, 0x7E#7, 0x7F#7].any fun f => decide (1 < (os.filter (fun o => o.field = f)).length)

/-- R129, R197: a block of n registers whose field is not direct, runs past v119 or beyond the budget, or is odd where
the block holds pairs. -/
def blockIllegal (budget : Nat) (f : BitVec 7) (n : Nat) (even : Bool) : Bool :=
  decide (0x78 ≤ f.toNat) || decide (119 < f.toNat + n - 1) || decide (budget ≤ f.toNat + n - 1) ||
    (even && f.toNat % 2 = 1)

/-- R64: the index register that an operand names is in range for it in this thread. -/
def Thread.ixInRange (th : Thread) (o : Opnd) : Bool :=
  match fieldIx o.field with
  | none => true
  | some k =>
    let r := th.ix k
    if o.wide then decide (r.cur + 1 < r.len) && decide ((r.base + r.cur) % 2 = 0) else decide (r.cur < r.len)

/-- The advance of the ++ forms, after every read and write of the instruction (R64). -/
def Thread.advanceIx (th : Thread) (os : List Opnd) : Thread :=
  os.foldl (fun th o =>
    match fieldIx o.field with
    | some k =>
      if fieldAdvances o.field then
        let r := th.ix k
        th.setIx k { r with cur := r.cur + (if o.wide then 2 else 1) }
      else th
    | none => th) th

/-- What the rnd field of a prefix means to a class of instruction (Table 4.4, Table 4.5). -/
inductive RndUse where
  | none
  | rounding
  | scope
deriving DecidableEq, Repr

/-- Which prefix fields a class of instruction accepts (Table 4.5); a form that writes no lane register does not
accept mz (R66). -/
structure PfxClass where
  accepts : Bool
  mz : Bool
  rnd : RndUse
  vc : Bool
deriving DecidableEq, Repr

/-- LB and the uniform set take no prefix; LX and MX take pred and neg only. -/
def PfxClass.noPrefix : PfxClass := { accepts := false, mz := false, rnd := .none, vc := false }
def PfxClass.predOnly : PfxClass := { accepts := true, mz := false, rnd := .none, vc := false }

/-- R66, R67: what makes the prefix in front of an instruction of a class illegal. -/
def PrefixWord.illegal (p : PrefixWord) (c : PfxClass) : Bool :=
  !c.accepts || !p.clean || (p.pred = 7#3 && p.neg) || decide (6 ≤ p.rnd.toNat) || (p.mz && !c.mz) ||
    (p.rnd ≠ 0#3 && c.rnd = .none) || (p.vc ≠ 0#7 && !c.vc)

/-- The prefix fields that a bundle's instruction executes under; without a prefix, pred = 7 and the rest 0 (R66). -/
def Bundle.mz (b : Bundle) : Bool := match b.pfx with | some p => p.mz | none => false
def Bundle.rnd (b : Bundle) : BitVec 3 := match b.pfx with | some p => p.rnd | none => 0#3
def Bundle.vc (b : Bundle) : BitVec 7 := match b.pfx with | some p => p.vc | none => 0#7

/-- A lane is active (R66): its thread issues, and the predicate holds in it. -/
def Bundle.active (b : Bundle) (l : Lane) (th : Thread) : Bool :=
  l.issued && match b.pfx with
    | none => true
    | some p => if p.pred = 7#3 then true else th.pred p.pred.toNat != p.neg

/-- The bytes of the instruction: with its prefix, eight (R60). -/
def Bundle.length (b : Bundle) : Nat := if b.pfx.isSome then 8 else 4

/-- Thread ids of the lanes that issue. -/
def Bundle.tids (b : Bundle) : List Nat := (b.lanes.filter (·.issued)).map (·.tid)

/-- The virtual lane of a thread (R104, R109). -/
def Bundle.laneOf (b : Bundle) (tid : Nat) : Nat := (b.lanes.findIdx? (fun l => l.tid = tid)).getD 0

end Sys2Proof.Machine
end

