-- ==== Sys2Proof/Machine/Flags.lean ====
section
/-! DEFINITION. The conditions and predicates: the integer compares (R135), predicate logic (R137), and the uniform
branch conditions (R71). The IK-960 has no status flags; its flags are the predicates p0 to p7. -/

namespace Sys2Proof.Machine

open Sys2Proof

/-- The integer compare conditions by their code (R135, Table 15.3). -/
def condHolds (cc : BitVec 3) (a b : Word) : Bool :=
  match cc.toNat with
  | 0 => a == b
  | 1 => a != b
  | 2 => decide (a.toInt < b.toInt)
  | 3 => decide (a.toInt ≤ b.toInt)
  | 4 => decide (b.toInt < a.toInt)
  | 5 => decide (b.toInt ≤ a.toInt)
  | 6 => decide (a.toNat < b.toNat)
  | _ => decide (a.toNat ≤ b.toNat)

/-- The uniform branch conditions by their code (R71): always, zero, non-zero, negative, not negative. -/
def uniformCond (cc : BitVec 3) (a : Dword) : Bool :=
  match cc.toNat with
  | 0 => true
  | 1 => a == 0#64
  | 2 => a != 0#64
  | 3 => decide (a.toInt < 0)
  | _ => decide (0 ≤ a.toInt)

/-- The LB condition in a thread (R72): bits [2:0] name a predicate, bit 3 inverts. -/
def branchHolds (cc : BitVec 4) (th : Thread) : Bool := th.pred (cc.toNat % 8) != cc.getLsbD 3

/-- A truth value as a 64-bit operand. -/
def boolWord (b : Bool) : Dword := if b then 1#64 else 0#64

/-- A 64-bit operand as a truth value. -/
def wordBool (v : Dword) : Bool := v != 0#64

end Sys2Proof.Machine
end

