-- ==== Sys2Proof/Machine/Ops.lean ====
section
/-! DEFINITION. The named operations on the state that the meanings share: reaching crews, threads and clusters; the
local memories with their line marks, shadows and poison; the store FIFO; latches and tumblers; regions; taking an
exception, killing a crew, and the error log. -/

namespace Sys2Proof.Machine

open Sys2Proof

/-! ## Reaching and changing parts of the state -/

/-- A crew by identifier. -/
def State.crew? (s : State) (c : Nat) : Option Crew := Table.get? s.crews c

/-- The state with one crew replaced by its image. -/
def State.modCrew (s : State) (c : Nat) (f : Crew → Crew) : State := { s with crews := Table.adjust s.crews c f }

/-- A thread of a crew. -/
def State.thread? (s : State) (c tid : Nat) : Option Thread :=
  match s.crew? c with
  | some cr => Table.get? cr.threads tid
  | none => none

/-- A crew with one thread replaced by its image. -/
def Crew.modThread (cr : Crew) (tid : Nat) (f : Thread → Thread) : Crew :=
  { cr with threads := Table.adjust cr.threads tid f }

/-- The state with one thread replaced by its image. -/
def State.modThread (s : State) (c tid : Nat) (f : Thread → Thread) : State :=
  s.modCrew c (fun cr => cr.modThread tid f)

/-- The state with every thread of a crew replaced by its image. -/
def State.modThreads (s : State) (c : Nat) (f : Nat → Thread → Thread) : State :=
  s.modCrew c (fun cr => { cr with threads := Table.mapVals cr.threads f })

/-- The state with one launch, context, or function replaced by its image. -/
def State.modLaunch (s : State) (l : Nat) (f : Launch → Launch) : State :=
  { s with launches := Table.adjust s.launches l f }
def State.modContext (s : State) (x : Nat) (f : Context → Context) : State :=
  { s with contexts := Table.adjust s.contexts x f }

/-- A cluster's number in the table of clusters: die and logical number (R121). -/
def clusterKey (die cluster : Nat) : Nat := die * 96 + cluster

/-- A cluster as module reset leaves it: it has still to pass its test (R356). -/
def Cluster.fresh : Cluster :=
  { frames := [], fetches := [], mx := [], fenced := false, gated := true, ratios := [8, 8, 8, 8, 8, 8], passes := 1,
    ballast := [0, 0, 0, 0] }

/-- A cluster; one that the table does not list stands as at reset. -/
def State.cluster (s : State) (die cluster : Nat) : Cluster :=
  (Table.get? s.clusters (clusterKey die cluster)).getD Cluster.fresh

/-- The state with one cluster replaced by its image. -/
def State.modCluster (s : State) (die cluster : Nat) (f : Cluster → Cluster) : State :=
  { s with clusters := Table.put s.clusters (clusterKey die cluster) (f (s.cluster die cluster)) }

/-- A matrix unit with nothing in it. -/
def MatrixUnit.fresh : MatrixUnit :=
  { frozen := false, leases := [], reservations := [], queue := [], holder := none }

/-- A matrix unit of a cluster. -/
def State.unit (s : State) (die cluster u : Nat) : MatrixUnit :=
  (Table.get? (s.cluster die cluster).mx u).getD MatrixUnit.fresh

/-- The state with one matrix unit replaced by its image. -/
def State.modUnit (s : State) (die cluster u : Nat) (f : MatrixUnit → MatrixUnit) : State :=
  s.modCluster die cluster (fun k => { k with mx := Table.put k.mx u (f (s.unit die cluster u)) })

/-- The code object of a context by number. -/
def State.object? (s : State) (ctx obj : Nat) : Option CodeObject :=
  match Table.get? s.contexts ctx with
  | some x => Table.get? x.objects obj
  | none => none

/-- The cluster that a thread runs on: its home in a pair crew (R102, R121). -/
def Crew.homeCluster (cr : Crew) (th : Thread) : Nat := cr.cluster + th.home

/-- The role of a thread. -/
def Crew.role? (cr : Crew) (r : Nat) : Option Role := cr.roles.find? (fun x => x.id = r)

/-- The reserved system role (R101). -/
def systemRole : Nat := 8

/-- The register budget of a role (R113); the system role uses none of the crew's. -/
def Crew.budget (cr : Crew) (r : Nat) : Nat :=
  if r = systemRole then 256
  else match cr.role? r with
  | some x => x.budget
  | none => 0

/-- A crew with one role replaced by its image. -/
def Crew.modRole (cr : Crew) (r : Nat) (f : Role → Role) : Crew :=
  { cr with roles := cr.roles.map (fun x => if x.id = r then f x else x) }

/-- The fleeting tick (R214): 1,024 cycles of the reference clock. -/
def State.tick (s : State) : Nat := s.now / 1024

/-- A free value, and the state with the next index. -/
def State.free (s : State) : Nat × State := (Config.freeNat s.freeIx, { s with freeIx := s.freeIx + 1 })

/-- A new identifier, and the state with the next one. -/
def State.newId (s : State) : Nat × State := (s.nextId, { s with nextId := s.nextId + 1 })

/-- The state with a message sent outwards. -/
def State.send (s : State) (m : Message) : State := { s with sent := s.sent ++ [m] }

/-! ## The current bundle -/

/-- The crew whose bundle issues. -/
def State.curCrew? (s : State) : Option Crew := s.crew? s.cur.crew

/-- The lanes of the bundle with their threads, in virtual lane order. -/
def State.curLanes (s : State) : List (Lane × Thread) :=
  match s.curCrew? with
  | none => []
  | some cr => s.cur.lanes.filterMap (fun l => (Table.get? cr.threads l.tid).map (fun th => (l, th)))

/-- The active lanes of the bundle (R66). -/
def State.activeLanes (s : State) : List (Lane × Thread) :=
  s.curLanes.filter (fun e => s.cur.active e.1 e.2)

/-- The lane bits of the lanes that satisfy a condition, in virtual lane order (R27). -/
def maskFrom (p : Lane × Thread → Bool) : Nat → List (Lane × Thread) → BitVec 64
  | _, [] => 0#64
  | i, e :: es => (if p e then 1#64 <<< i else 0#64) ||| maskFrom p (i + 1) es

/-- The mask of the bundle's lanes that satisfy a condition. -/
def State.maskOf (s : State) (p : Lane × Thread → Bool) : BitVec 64 := maskFrom p 0 s.curLanes

/-- The mask of every lane that issues. -/
def State.fullMask (s : State) : BitVec 64 := s.maskOf (fun e => e.1.issued)

/-- The role of the bundle's threads (R104). -/
def State.curRole (s : State) : Nat := match s.curLanes with | (_, th) :: _ => th.role | [] => 0

/-- The budget that the bundle's threads have. -/
def State.curBudget (s : State) : Nat :=
  match s.curCrew? with
  | some cr => cr.budget s.curRole
  | none => 0

/-- Every thread that issues in the bundle replaced by its image under its lane; other threads are untouched. -/
def State.mapLanes (s : State) (f : Lane → Thread → Thread) : State :=
  s.modThreads s.cur.crew (fun tid th =>
    match s.cur.lanes.find? (fun l => l.tid = tid && l.issued) with
    | some l => f l th
    | none => th)

/-- The threads that issue complete the instruction: active lanes with these results, the others with nothing. -/
def State.complete (s : State) (mode : ResultMode) (res : Lane → Thread → Results) : State :=
  s.mapLanes (fun l th => th.commit s.cur.length mode (if s.cur.active l th then res l th else []))

/-- The instruction completes without a result. -/
def State.completeNone (s : State) : State := s.complete .now (fun _ _ => [])

/-- A number in a set, kept ascending. -/
def insertId (tid : Nat) : List Nat → List Nat
  | [] => [tid]
  | t :: ts => if tid < t then tid :: t :: ts else if tid = t then t :: ts else t :: insertId tid ts

/-! ## Timelines (R11) -/

/-- Nothing accepted, nothing complete. -/
def Timeline.zero : Timeline := { accepted := 0, counter := 0, done := [] }

/-- A context accepts its next operation, and gives it the next number (R11). -/
def Timeline.accept (t : Timeline) : Timeline := { t with accepted := t.accepted + 1 }

/-- The counter rises while the operation above it has completed; at most n times. -/
def Timeline.advance : Nat → Timeline → Timeline
  | 0, t => t
  | n + 1, t =>
    if t.done.contains (t.counter + 1) then
      Timeline.advance n { t with counter := t.counter + 1, done := t.done.filter (· ≠ t.counter + 1) }
    else t

/-- An operation has completed (R11): the counter rises when the gap below closes. -/
def Timeline.finish (t : Timeline) (n : Nat) : Timeline :=
  Timeline.advance (t.done.length + 1) { t with done := insertId n t.done }

/-! ## The error log (R350) -/

/-- The log ring keeps the newest 256 records. -/
def pushLog (log : List LogRecord) (r : LogRecord) : List LogRecord :=
  if log.length < 256 then log ++ [r] else log.drop (log.length - 255) ++ [r]

/-- A record in the error log of a context. -/
def State.logRecord (s : State) (ctx : Nat) (r : LogRecord) : State :=
  s.modContext ctx (fun x => { x with log := pushLog x.log r })

/-- The value of a duty row in a context (R20). -/
def State.dutyRow (s : State) (ctx row : Nat) : Dword :=
  match Table.get? s.contexts ctx with
  | some x => Sparse.get 0#64 x.duty row
  | none => 0#64

/-- A row's MODE: host-assisted (Table 1.6). -/
def rowAssisted (v : Dword) : Bool := v.getLsbD 0

/-- A row's CLASS, REROUTE and DEADLINE; a deadline field of 0 selects 65,536 µs (Table 1.6). -/
def rowClass (v : Dword) : Nat := (v.extractLsb' 4 4).toNat
def rowReroute (v : Dword) : Bool := v.getLsbD 1
def rowDeadline (v : Dword) : Nat :=
  let d := (v.extractLsb' 16 16).toNat
  if d = 0 then 65536 else d

/-- Reference cycles in a microsecond (R23). -/
def cyclesPerUs : Nat := 1050

/-- A call is raised and queued in its class, oldest first (R323, R326). Its deadline counts from now (R23), and it is the
next operation of its context's call stream (R11). -/
def State.raiseCall (s : State) (c : Call) : Nat × State :=
  let id := s.nextId
  let op := match Table.get? s.contexts c.ctx with | some x => x.callTl.accepted + 1 | none => 0
  let s := { s with nextId := id + 1, calls := Table.put s.calls id { c with op := op } }
  (id, s.modContext c.ctx (fun x =>
    { x with
      callTl := x.callTl.accept
      classQueues := Table.put x.classQueues c.cls ((Table.get? x.classQueues c.cls).getD [] ++ [id]) }))

/-- Who a duty request is raised for: the launch, crew and thread that its pail names (R330); zeros where there is no
affected thread. -/
structure CallFor where
  launch : Nat := 0
  index : Nat := 0
  tid : Nat := 0
deriving DecidableEq, Repr

/-- A thread of a crew as the one that is affected. -/
def State.affected (s : State) (crew tid : Nat) : CallFor :=
  match s.crew? crew with
  | some cr => { launch := cr.srLaunch.toNat, index := cr.index, tid := tid }
  | none => {}

/-- A duty request of a host-assisted row as a call (R330). -/
def State.dutyCall (s : State) (ctx row : Nat) (who : CallFor) (data : List Dword) (origin : CallOrigin) : Nat × State :=
  let v := s.dutyRow ctx row
  s.raiseCall
    { ctx := ctx, tag := none, cls := rowClass v, reroute := rowReroute v && row != 3, sys := true, func := row,
      arg := 0, launch := who.launch, crew := who.index, tid := who.tid, tick := s.tick, duration := rowDeadline v,
      deadline := s.now + rowDeadline v * cyclesPerUs, data := data, origin := origin, worker := none, heldBy := [],
      pick := none, outcome := none, op := 0, taken := false }

/-- The duty operands of an error-log record (Table 20.10, row 5). -/
def LogRecord.words (r : LogRecord) : List Dword :=
  [BitVec.ofNat 64 r.code.toNat, BitVec.ofNat 64 r.info, BitVec.ofNat 64 r.launch, BitVec.ofNat 64 r.crew,
   BitVec.ofNat 64 r.addr, BitVec.ofNat 64 r.info2, BitVec.ofNat 64 r.tick]

/-- The workers of a context's class, with their function and number. -/
def State.workersOf (s : State) (ctx cls : Nat) (coresOnly : Bool) : List (Nat × Nat × Worker) :=
  s.fns.flatMap (fun f => f.2.workers.filterMap (fun w =>
    if w.2.ctx = ctx && w.2.cls = cls && !w.2.deleting && (!coresOnly || w.2.core.isSome) then some (f.1, w.1, w.2)
    else none))

/-- The class that a host-assisted row names holds a worker that can serve it: rows 1 and 6 go to attendant cores only
(R21, R22); none serves once the host link is down (R348). -/
def State.rowServed (s : State) (ctx row : Nat) : Bool :=
  s.link ≠ .down && s.workersOf ctx (rowClass (s.dutyRow ctx row)) (row = 1 || row = 6) ≠ []

/-- A record is written, and in host-assisted mode of row 5 it is also sent as a pail (R350) with the affected thread's
TID (R330); a class without a worker fails the request (R22). The reply is acted on only for a consumed error. -/
def State.log (s : State) (ctx : Nat) (r : LogRecord) (crew : Option Nat) (tid : Nat := 0) : State :=
  let s := s.logRecord ctx r
  if rowAssisted (s.dutyRow ctx 5) && s.rowServed ctx 5 then
    (s.dutyCall ctx 5 { launch := r.launch, index := r.crew % 0xFFFFFFFF, tid := tid } r.words (.errorLog crew)).2
  else s

/-- A record about a crew (Table 23.2): its sr.crew, sr.launch and the tick are the event's. -/
def State.crewRecord (s : State) (cr : Crew) (code : Code) (action info addr info2 : Nat) : LogRecord :=
  { code := code, action := action, crew := cr.index, info := info, launch := cr.srLaunch.toNat, tick := s.tick,
    addr := addr, info2 := info2 }

/-! ## The die store (R18, R19) -/

/-- A line as nothing has marked it: present, no writers, not faulted (notes/assumptions/9.md). -/
def LineMark.clear : LineMark := { present := true, writers := 0, faulted := false }

/-- The mark of a line of a window. -/
def DieWindow.line (w : DieWindow) (n : Nat) : LineMark := Sparse.get LineMark.clear w.lines n

/-- A window with one line's mark replaced by its image. -/
def DieWindow.modLine (w : DieWindow) (n : Nat) (f : LineMark → LineMark) : DieWindow :=
  { w with lines := Sparse.set LineMark.clear w.lines n (f (w.line n)) }

/-- A window with no bytes. -/
def DieWindow.empty : DieWindow := { size := 0, bytes := [], lines := [], poison := [] }

/-- Die offsets from 0x8000_0000 up name the launch window (Table 2.2). -/
def launchBase : Nat := 0x80000000

/-- The launch window of a launch on a die. -/
def Launch.win (l : Launch) (die : Nat) : DieWindow :=
  ((if die = 0 then l.win0 else l.win1).getD DieWindow.empty)

/-- A launch with its window on a die replaced by its image. -/
def Launch.modWin (l : Launch) (die : Nat) (f : DieWindow → DieWindow) : Launch :=
  if die = 0 then { l with win0 := l.win0.map f } else { l with win1 := l.win1.map f }

/-- The window that a die offset falls in, for a crew: the crew's own, or its launch's on the crew's die. -/
def State.window (s : State) (cr : Crew) (off : Nat) : DieWindow :=
  if off < launchBase then cr.window
  else match Table.get? s.launches cr.launch with
    | some l => l.win cr.die
    | none => DieWindow.empty

/-- A die offset inside its window. -/
def inWindow (off : Nat) : Nat := if off < launchBase then off else off - launchBase

/-- The state with the window of a die offset replaced by its image. -/
def State.modWindow (s : State) (c off : Nat) (f : DieWindow → DieWindow) : State :=
  match s.crew? c with
  | none => s
  | some cr =>
    if off < launchBase then s.modCrew c (fun x => { x with window := f x.window })
    else s.modLaunch cr.launch (fun l => l.modWin cr.die f)

/-- The bytes of a run that hold an uncorrectable error: a check covers `unit` bytes, so any poisoned byte of a unit
that the run touches is met (R345). -/
def poisonHit (poison : List Nat) (unit a n : Nat) : Bool :=
  poison.any (fun p => decide (a / unit ≤ p / unit) && decide (p / unit ≤ (a + n - 1) / unit))

/-- Poison marks after a run of bytes has been overwritten (R345). -/
def poisonAfter (poison : List Nat) (a n : Nat) : List Nat :=
  poison.filter (fun p => decide (p < a) || decide (a + n ≤ p))

/-- A window with a run of bytes written. -/
def DieWindow.write (w : DieWindow) (a : Nat) (bs : List Byte) : DieWindow :=
  { w with bytes := Mem.writeBytes w.bytes a bs, poison := poisonAfter w.poison a bs.length }

/-- A run of bytes of a crew's die space. -/
def State.readDie (s : State) (cr : Crew) (off n : Nat) : List Byte :=
  Mem.readBytes (s.window cr off).bytes (inWindow off) n

/-- A run of bytes of a crew's die space written. -/
def State.writeDie (s : State) (c off : Nat) (bs : List Byte) : State :=
  s.modWindow c off (fun w => w.write (inWindow off) bs)

/-- The mark of the line that a die offset lies in. -/
def State.dieLine (s : State) (cr : Crew) (off : Nat) : LineMark := (s.window cr off).line (inWindow off / 64)

/-! ## Shared memory, with the shadow of a rollback epoch (R351) -/

/-- The 64-byte lines that a run of bytes touches. -/
def linesOf (a n : Nat) : List Nat := (List.range ((a + n - 1) / 64 - a / 64 + 1)).map (fun i => a / 64 + i)

/-- The first write to a shared line of an epoch keeps the line's old bytes, and which of them hold an error. -/
def Reserve.keep (r : Reserve) (m : Sparse Byte) (bad : List Nat) (line : Nat) : Reserve :=
  if line ∈ r.shadowed then r
  else { r with shadow := Mem.writeBytes r.shadow (64 * line) (Mem.readBytes m (64 * line) 64),
                shadowed := r.shadowed ++ [line],
                shadowPoison := r.shadowPoison ++ bad.filter (fun p => p / 64 = line) }

/-- A crew with a run of shared bytes written; a run of no bytes writes nothing. -/
def Crew.writeShared (cr : Crew) (a : Nat) (bs : List Byte) : Crew :=
  if bs = [] then cr
  else
    { cr with
      shared := Mem.writeBytes cr.shared a bs
      shPoison := poisonAfter cr.shPoison a bs.length
      reserve := cr.reserve.map (fun r => (linesOf a bs.length).foldl (fun r l => r.keep cr.shared cr.shPoison l) r) }

/-- A crew whose rollback epoch has had an effect that a re-run could not reproduce (R352). -/
def Crew.outward (cr : Crew) : Crew := { cr with reserve := cr.reserve.map (fun r => { r with outward := true }) }

/-- The crew of the bundle has had an outward effect (R352). -/
def State.outward (s : State) : State := s.modCrew s.cur.crew Crew.outward

/-- The same for an instruction that some active lane carries out. -/
def State.outwardActive (s : State) : State := if s.activeLanes = [] then s else s.outward

/-- The snapshots that open a rollback epoch (R351, Table 23.3). -/
def Crew.openEpoch (cr : Crew) : Reserve :=
  { outward := false, used := false, barGen := cr.barGen, shadow := [], shadowed := [], shadowPoison := [],
    threads := (cr.threads.filter (fun e => !e.2.ended)).map (fun e =>
      (e.1, { region := e.2.region, slot := e.2.slot, slotPoison := e.2.slotPoison, mxPoison := e.2.mxPoison,
              barPassed := e.2.barPassed })),
    roles := cr.roles, tumblers := cr.tumblers, poison := false }

/-! ## Fleeting tiles (R215, R218, R219) -/

/-- A tile as at crew start (R216). The field `poison` lists byte offsets in the tile: a word holds an error until every
poisoned byte of it is overwritten (R219, R345). -/
def Tile.fresh : Tile :=
  { bytes := [], birth := 0, born := false, freed := false, storeExp := false, expLoads := 0, poison := [],
    lives := 0 }

/-- A tile is live at a tick (R215). -/
def Tile.live (t : Tile) (tick : Nat) : Bool := t.born && !t.freed && decide ((tick : Int) < t.birth + 256)

/-- The remaining life at a tick (R215). -/
def Tile.life (t : Tile) (tick : Nat) : Nat := if t.live tick then (t.birth + 256 - tick).toNat else 0

/-- A tile found expired by a load or an atomic (R218). -/
def Tile.missed (t : Tile) : Tile := { t with expLoads := min 65535 (t.expLoads + 1) }

/-- A write of part of a tile at its place in the tile's order (R219): dropped with STORE_EXP when the tile is expired,
and otherwise stored; a word written whole, at once or in parts, is no longer poisoned (R345). -/
def Tile.write (t : Tile) (tick a : Nat) (bs : List Byte) : Tile :=
  if t.live tick then
    { t with
      bytes := Mem.writeBytes t.bytes a bs
      poison := poisonAfter t.poison a bs.length }
  else { t with storeExp := true }

/-- A crew's tile by number. -/
def Crew.tile (cr : Crew) (k : Nat) : Tile := cr.tiles.getD k Tile.fresh

/-- A crew with one tile replaced by its image. -/
def Crew.modTile (cr : Crew) (k : Nat) (f : Tile → Tile) : Crew :=
  { cr with tiles := cr.tiles.modify k f }

/-! ## Regions (R122 to R125) -/

/-- The live-in set of a crew's object by index; the entry region has none (R103). -/
def State.liveSet (s : State) (cr : Crew) (lset : Nat) : List Nat :=
  if lset = 0xFFFF then []
  else match s.object? cr.ctx cr.obj with
    | some o => o.lsets.getD lset []
    | none => []

/-- The checkpoint words of a live-in set, in set order (R122). -/
def checkpointWords (th : Thread) : Nat → List Nat → Sparse Word
  | _, [] => []
  | k, r :: rs => Sparse.set 0#32 (checkpointWords th (k + 1) rs) k (th.settledReg r)

/-- A thread enters a region at its next instruction with a live-in set (R122, R123): the checkpoint slot and the
region record are written, with promised results in place (R69). -/
def Thread.enterRegion (th : Thread) (lset : Nat) (live : List Nat) : Thread :=
  { th with
    slot := checkpointWords th 0 live
    slotPoison := (live.zipIdx.filter (fun e => th.settledPoisoned e.1)).map (·.2) ++
      th.slotPoison.filter (fun k => decide (live.length ≤ k))
    twinStrike := none
    region :=
      { head := th.pc, pred := th.settledPreds, rb := th.rb, sp := th.sp, ix0 := th.ix0, ix1 := th.ix1, ix2 := th.ix2,
        ix3 := th.ix3, nlive := live.length, lset := lset } }

/-- The implicit region entry after a region-closing instruction: the same live-in set again (R124). -/
def State.closeRegion (s : State) (c tid : Nat) : State :=
  match s.crew? c with
  | none => s
  | some cr => s.modThread c tid (fun th => th.enterRegion th.region.lset (s.liveSet cr th.region.lset))

/-- The implicit region entry of every active lane of the bundle. -/
def State.closeRegions (s : State) (tids : List Nat) : State :=
  tids.foldl (fun s tid => s.closeRegion s.cur.crew tid) s

/-- The registers of a live-in set as the checkpoint slot holds them. -/
def restoredRegs (slot : Sparse Word) : Nat → List Nat → Sparse Word
  | _, [] => []
  | k, r :: rs => Sparse.set 0#32 (restoredRegs slot (k + 1) rs) r (Sparse.get 0#32 slot k)

/-- A region restart (R125). The record has no field for the rotating region, which stays as it last stood
(notes/assumptions/81.md). A CODE_HASH met at the head reports the head itself (notes/assumptions/82.md). A thread whose
kick has been accepted goes on with the other lanes of that kick (R204). -/
def Thread.restart (th : Thread) (live : List Nat) : Thread :=
  { th with
    regs := restoredRegs th.slot 0 live
    poison := []
    preds := th.region.pred
    rb := th.region.rb
    ix0 := th.region.ix0
    ix1 := th.region.ix1
    ix2 := th.region.ix2
    ix3 := th.region.ix3
    sp := th.region.sp
    pend := []
    trans := []
    inHandler := false
    wait := match th.wait with
      | some (.others q) => some (.others q)
      | _ => none
    cameFrom := none
    pc := th.region.head }

/-! ## Parking and release (R24) -/

/-- A thread of the bundle parks at its instruction. -/
def State.park (s : State) (c tid : Nat) (w : Wait) : State :=
  let pfx := match s.cur.pfx with | some p => p.word | none => 0#32
  { s.modThread c tid (fun th =>
      { th with
        wait := some w
        parkSeq := if th.wait = some w then th.parkSeq else s.nextSeq
        parkLen := s.cur.length
        parkWord := s.cur.word
        parkPfx := pfx
        parkIssue := s.cur.seq }) with
    nextSeq := s.nextSeq + 1 }

/-- A parked thread's instruction completes with results, whose promise is la (R69). -/
def State.release (s : State) (c tid la : Nat) (rs : Results) : State :=
  s.modThread c tid (fun th => th.commit th.parkLen (.after la) rs)

/-! ## Attendant cores (R331) -/

/-- An attendant core that nothing has run on (notes/assumptions/10.md), and the cores by number. -/
def AttendantCore.fresh : AttendantCore :=
  { pc := 0#64, x := [], v := [], call := none, cause := none, stored := 0, pail := [] }
def State.core (s : State) (n : Nat) : AttendantCore := (Table.get? s.attendants n).getD AttendantCore.fresh
def State.modCore (s : State) (n : Nat) (f : AttendantCore → AttendantCore) : State :=
  { s with attendants := Table.put s.attendants n (f (s.core n)) }

/-! ## The gang barrier (R342) -/

/-- The crews of a launch that are saved. -/
def State.savedCrews (s : State) (lid : Nat) : List SavedCrew :=
  s.contexts.flatMap (fun x => x.2.saved.filter (fun v => v.launch = lid))

/-- Every thread of every crew of a gang's launch on this module, less those that have ended, has arrived, and some
thread has. -/
def State.gangLocal (s : State) (lid : Nat) (g : Gang) : Bool :=
  (match Table.get? s.launches lid with
    | some l => l.cut || l.started = l.record.ncrew
    | none => false) && g.localArrived ≠ [] &&
    s.crews.all (fun e => e.2.launch ≠ lid || e.2.threads.all (fun t => t.2.ended || g.localArrived.contains (e.1, t.1))) &&
    (s.savedCrews lid).all (fun v => v.live.all (fun t => g.localArrived.contains (v.id, t)))

/-- The other members of a gang. -/
def State.gangOthers (s : State) (g : Gang) : List Nat := g.members.filter (· ≠ s.module)

/-- Every other member has acknowledged, and the threads of every member have arrived. -/
def State.gangFull (s : State) (g : Gang) : Bool :=
  (s.gangOthers g).all (fun m => g.acks.contains m && g.arrived.contains m) && g.arrived.contains s.module

/-- The threads of a gang's launch that are parked at its barrier. -/
def State.gangParked (s : State) (lid : Nat) : List (Nat × Nat) :=
  s.crews.flatMap (fun e => if e.2.launch ≠ lid then [] else
    e.2.threads.filterMap (fun t => if t.2.wait = some .gangBar then some (e.1, t.1) else none))

/-- A generation of the barrier completes: every parked thread goes on and enters a region, as at the crew barrier
(R126, R173). -/
def State.passGang (s : State) (n lid : Nat) (g : Gang) : State :=
  let parked := s.gangParked lid
  let g' : Gang := { g with
    barGen := g.barGen + 1
    arrived := (s.module :: s.gangOthers g).foldl List.erase g.arrived
    localArrived := []
    passed := g.localArrived.filter (fun p => !parked.contains p) }
  parked.foldl (fun (t : State) p => (t.release p.1 p.2 0 []).closeRegion p.1 p.2) { s with gangs := Table.put s.gangs n g' }

/-- A gang's barrier as it stands: this member tells the others when its own threads have all arrived. -/
def State.checkGang (s : State) (n : Nat) : State :=
  match Table.get? s.gangs n with
  | none => s
  | some g =>
    match g.launch with
    | none => s
    | some lid =>
      if g.failed then s
      else
        let here := g.arrived.contains s.module
        let g' : Gang := if !here && s.gangLocal lid g then { g with arrived := g.arrived ++ [s.module] } else g
        let s := if !here && s.gangLocal lid g then { s.send (.gangArrive n) with gangs := Table.put s.gangs n g' } else s
        if s.gangFull g' then s.passGang n lid g' else s

/-- Every gang's barrier. -/
def State.checkGangs (s : State) : State := (Table.keys s.gangs).foldl (fun (t : State) n => t.checkGang n) s

/-! ## The order of parked queue operations (R289) -/

/-- The field c of a word names a queue pop, not a push (Table 17.3). -/
def popsQueue (w : Word) : Bool := w.extractLsb' 0 7 = 0x02#7 || w.extractLsb' 0 7 = 0x03#7

/-- The pop of a pull has parked on a queue before a place in parking order. -/
def Pause.before (w : Pause) (q seq : Nat) : Bool := w.queue = some q && decide (w.seq < seq)
def ItStack.poppedBefore (st : ItStack) (q seq : Nat) : Bool :=
  (st.pull.bind (·.pause)).any (fun w => w.before q seq) || st.flight.any (fun w => w.before q seq)

/-- A thread has parked on a queue, with a pop or with a push, before a place in parking order. -/
def Thread.queuedBefore (th : Thread) (q seq : Nat) (pops : Bool) : Bool :=
  !th.ended && th.wait = some (.queue q) && popsQueue th.parkWord == pops && decide (th.parkSeq < seq)

/-- Another push, or another pop, of the queue at an offset of a crew's launch window has parked before a place in parking
order: a thread's, or a pull's. -/
def State.queuedBefore (s : State) (cr : Crew) (q seq : Nat) (pops : Bool) : Bool :=
  s.crews.any (fun e => e.2.die = cr.die && e.2.launch = cr.launch &&
    (e.2.threads.any (fun t => t.2.queuedBefore q seq pops) ||
      (pops && e.2.iters.any (fun i => i.2.poppedBefore q seq))))

/-! ## Queue records given back (R270) -/

/-- The header of a task queue, as a 512-bit number (Table 17.4). -/
def State.queueHeader (s : State) (cr : Crew) (q : Nat) : Nat := leNat (s.readDie cr q 64)

/-- The header written back. One that holds an uncorrectable error keeps it: no engine puts a correct check on it
(R357; notes/assumptions/83.md). -/
def State.putQueueHeader (s : State) (c q h : Nat) : State :=
  match s.crew? c with
  | none => s
  | some cr => if poisonHit (s.window cr q).poison 8 (inWindow q) 64 then s else s.writeDie c q (leBytes h 64)

/-- Records put back at the ring head, as one operation: HEAD moves down by n, COUNT up by n, RSV down by n. -/
def State.queueReturn (s : State) (c q : Nat) (recs : List (Word × Word)) : State :=
  match s.crew? c with
  | none => s
  | some cr =>
    if recs = [] then s
    else
      let h := s.queueHeader cr q
      let cap := bitsOf h 20 0
      let n := recs.length
      let head := (bitsOf h 63 32 + cap - n % cap) % cap
      let s := (recs.zipIdx).foldl (fun (s : State) r =>
        s.writeDie c (q + 64 + 8 * ((head + r.2) % cap)) (leBytes (r.1.1.toNat + r.1.2.toNat * 2 ^ 32) 8)) s
      let h := setBits h 63 32 head
      let h := setBits h 95 64 (bitsOf h 95 64 + n)
      let h := setBits h 127 96 (bitsOf h 127 96 - n)
      s.putQueueHeader c q h

/-- The unsettled records of a QUEUE stage's BUF, in pop order (Table 15.3). -/
def stageBuf (record : Nat) : List (Word × Word) :=
  (List.range (bitsOf record 102 100)).map (fun i =>
    (BitVec.ofNat 32 (bitsOf record (191 + 64 * i) (160 + 64 * i)),
     BitVec.ofNat 32 (bitsOf record (223 + 64 * i) (192 + 64 * i))))

/-- The unsettled records of a stack's QUEUE source go back to its queue (R270, R271). -/
def State.returnStack (s : State) (c : Nat) (st : ItStack) : State :=
  match st.stages with
  | [] => s
  | src :: _ =>
    if bitsOf src.record 3 0 = 4 then s.queueReturn c (bitsOf src.record 63 32) (stageBuf src.record) else s

/-! ## What a crew's end gives back (R174, R179, R236, R271) -/

/-- An operation of the unit still reads a lease's tiles or a crew's reservation. -/
def MatrixUnit.busySlot (u : MatrixUnit) (slot : Nat) : Bool := u.queue.any (fun o => o.slot = slot)
def MatrixUnit.busyHandle (u : MatrixUnit) (c k : Nat) : Bool := u.queue.any (fun o => o.crew = c && o.ob = k)

/-- A lease has an operation waiting: a generation that has turned and has not been accepted (R235). -/
def Lease.waiting (l : Lease) : Bool :=
  match l.claim with
  | some m => m.turned
  | none => false

/-- A lease takes the issue rights: QLEFT is set to QUOTA. -/
def MatrixUnit.grant (u : MatrixUnit) (slot : Nat) : MatrixUnit :=
  { u with holder := some slot, leases := Table.adjust u.leases slot (fun l => { l with qleft := l.quota }) }

/-- The next slot after one, round robin over the eight slots, that holds a lease with an operation waiting. -/
def MatrixUnit.nextWaiting (u : MatrixUnit) (slot : Nat) : Option Nat :=
  ((List.range 7).map (fun i => (slot + 1 + i) % 8)).find? (fun k =>
    match Table.get? u.leases k with
    | some l => l.waiting
    | none => false)

/-- Issue rights pass (R235): to the lease of the lowest slot with an operation waiting when none holds them
(notes/assumptions/110.md), and from a holder that has used its quota, or has nothing waiting, to the next lease that
has. -/
def MatrixUnit.passRights (u : MatrixUnit) : MatrixUnit :=
  let free := match (u.leases.find? (fun e => e.2.waiting)) with
    | some e => u.grant e.1
    | none => u
  match u.holder with
  | none => free
  | some h => match Table.get? u.leases h with
    | none => free
    | some l =>
      if l.qleft = 0 || !l.waiting then
        match u.nextWaiting h with
        | some k => u.grant k
        | none => u
      else u

/-- The claims of a crew's leases on one generation of a tumbler become turned (R243). -/
def MatrixUnit.turnClaims (u : MatrixUnit) (c k : Nat) (gen : Word) : MatrixUnit :=
  MatrixUnit.passRights
    { u with leases := Table.mapVals u.leases (fun _ l =>
        if l.crew = c then
          { l with claim := l.claim.map (fun m => if m.tb = k && m.gen = gen then { m with turned := true } else m) }
        else l) }

/-- A unit without the leases and reservations of a crew that no accepted operation uses; the others lose their row
stores and go when their operations have completed. -/
def MatrixUnit.forgetCrew (u : MatrixUnit) (c : Nat) : MatrixUnit :=
  MatrixUnit.passRights { u with
    leases := (u.leases.filter (fun e => e.2.crew ≠ c || u.busySlot e.1)).map (fun e =>
      if e.2.crew = c then (e.1, { e.2 with claim := none, kept := none }) else e)
    reservations := u.reservations.filter (fun e => e.2.crew ≠ c || u.busyHandle c e.2.handle)
    holder := match u.holder with
      | some h => match Table.get? u.leases h with
        | some l => if l.crew = c && !u.busySlot h then none else some h
        | none => none
      | none => none }

/-- The turned generations of a crew's leases on a unit, which its release drops (R236). -/
def MatrixUnit.dropped (u : MatrixUnit) (c : Nat) : List Nat :=
  u.leases.filterMap (fun e =>
    match e.2.claim with
    | some k => if e.2.crew = c && k.turned then some k.tb else none
    | none => none)

/-- The clusters of a crew. -/
def Crew.clusters (cr : Crew) : List Nat := if cr.pair then [cr.cluster, cr.cluster + 1] else [cr.cluster]

/-- Every unit of a crew's clusters. -/
def Crew.units (cr : Crew) : List (Nat × Nat) :=
  cr.clusters.flatMap (fun k => [(k, 0), (k, 1), (k, 2), (k, 3)])

/-- The leases and reservations of a crew that ends are released; each dropped operation goes to the log (R236). A unit that
a save of the crew has frozen is thawed. -/
def State.releaseUnits (s : State) (c : Nat) (cr : Crew) : State :=
  cr.units.foldl (fun (s : State) ku =>
    let u := s.unit cr.die ku.1 ku.2
    let s := (u.dropped c).foldl (fun (s : State) tb =>
      s.log cr.ctx (s.crewRecord cr Code.mxNolease 0 tb 0 0) (some c)) s
    if u.leases = [] && u.reservations = [] then s
    else s.modUnit cr.die ku.1 ku.2 (fun u => { u.forgetCrew c with frozen := u.frozen && cr.saving.isNone })) s

/-- The crew's iterator stacks are freed (R271). -/
def State.releaseStacks (s : State) (c : Nat) (cr : Crew) : State :=
  (cr.iters.foldl (fun (s : State) e => s.returnStack c e.2) s).modCrew c (fun x => { x with iters := [] })

/-- A crew that has ended leaves the device once every access that had left it has performed (R179): its stores, its
copies, the copies that write its memories, its far atomics, and its collective operations. -/
def State.reap (s : State) (c : Nat) : State :=
  match s.crew? c with
  | none => s
  | some cr =>
    if cr.killed && cr.threads.all (fun e => e.2.fifo = [] && e.2.ntStores = []) &&
        s.copies.all (fun e => e.2.crew ≠ c && !(e.2.dests.contains c)) && s.elems.all (fun e => e.2.crew ≠ c) &&
        s.fars.all (fun e => e.2.crew ≠ c) && s.colops.all (fun o => o.2.crew ≠ c || o.2.closed) &&
        cr.units.all (fun ku => (s.unit cr.die ku.1 ku.2).leases.all (fun e => e.2.crew ≠ c))
    then { s with crews := Table.drop s.crews c }
    else s

/-- Every thread of a crew ends at once, without the waits of R174, and what the crew holds is given back. A far atomic
that has not been sent is not sent again, since only its thread would re-issue it (R37). -/
def State.endCrew (s : State) (c : Nat) : State :=
  match s.crew? c with
  | none => s
  | some cr =>
    let s := s.releaseStacks c cr
    let s := s.releaseUnits c cr
    let s := { s with fars := s.fars.filter (fun e => e.2.crew ≠ c || e.2.stage ≠ FarStage.unsent) }
    let s := s.modThreads c (fun _ th => { th with ended := true, wait := none, pend := [], trans := [] })
    let s := s.modCrew c (fun x => { x with killed := true, stopped := false, consumed := none, tumblers := [], system := [] })
    s.checkGangs.reap c

/-- The first kill of a launch is the one with the earliest tick, and in one tick the lowest sr.crew (R279). -/
def firstKill (old : Option (Code × Nat × Nat)) (code : Code) (tick index : Nat) : Option (Code × Nat × Nat) :=
  match old with
  | none => some (code, tick, index)
  | some (c, t, i) => if tick < t || (tick = t && index < i) then some (code, tick, index) else some (c, t, i)

/-- A function of the host port as it first stands: an empty window, its cursor at slot 0 of lap 1 (R315), its quantum
row zero (R297). -/
def HostFn.fresh : HostFn :=
  { window := [], written := [], winbase := 0, cursor := 0, lap := 1, taken := [], pendingEntry := [], workers := [],
    quantum := 0#64 }

/-- A function, and the state with one replaced by its image. -/
def State.fn (s : State) (f : Nat) : HostFn := (Table.get? s.fns f).getD HostFn.fresh
def State.modFn (s : State) (f : Nat) (g : HostFn → HostFn) : State :=
  { s with fns := Table.put s.fns f (g (s.fn f)) }

/-- The function of a context. -/
def State.fnOf (s : State) (ctx : Nat) : Nat :=
  match Table.get? s.contexts ctx with
  | some x => x.fn
  | none => 0

/-- The DRAIN limit of a function, in microseconds (Table 18.1). -/
def State.drainLimit (s : State) (fn : Nat) : Nat :=
  let d := ((s.fn fn).quantum.extractLsb' 32 16).toNat
  if d = 0 then 1000 else d

/-- The limit of a crew's drain has passed (R301): no byte of its copies moves any more (R23). -/
def State.drainOver (s : State) (c : Nat) : Bool :=
  match s.crew? c with
  | some cr => (cr.saving.isSome || cr.consumed.isSome) && !cr.killed &&
      decide (cr.drainStart + s.drainLimit (s.fnOf cr.ctx) * cyclesPerUs ≤ s.now)
  | none => false

/-- A taken record's result. -/
def State.recordResult (s : State) (fn slot : Nat) (code : Code) (value : Dword) : State :=
  { s with fns := Table.adjust s.fns fn (fun f =>
      { f with taken := f.taken.map (fun (t : Taken) =>
          if t.slot = slot && t.result.isNone then { t with result := some (code, value), xlate := none, call := none }
          else t) }) }

/-- A save of a crew that is killed writes nothing, and its record completes with the killing code (R365). -/
def State.saveKilled (s : State) (cr : Crew) (code : Code) : State :=
  match cr.saving with
  | some (.record fn slot) => s.recordResult fn slot code 0#64
  | _ => s

/-- A crew ends by a kill: the launch's completion report carries its first one. -/
def State.endKilled (s : State) (c : Nat) (cr : Crew) (code : Code) : State :=
  let s := s.modLaunch cr.launch (fun l => { l with killed := firstKill l.killed code s.tick cr.index })
  (s.saveKilled cr code).endCrew c

/-- A crew is killed with a code (R179): the record goes to the context's error log. -/
def State.killCrew (s : State) (c : Nat) (code : Code) (info addr : Nat) (tid : Nat := 0) : State :=
  match s.crew? c with
  | none => s
  | some cr =>
    if cr.killed then s
    else (s.log cr.ctx (s.crewRecord cr code 1 info addr 0) (some c) tid).endKilled c cr code

/-! ## Taking an exception (R176 to R179) -/

/-- What a trap reports (Table 8.4). -/
structure TrapReport where
  code : Code
  mask : BitVec 64
  info : Dword
  addr : Word
  word : Word
  pfx : Word
  /-- Crew thread ids in virtual lane order. -/
  tids : List Nat
deriving DecidableEq, Repr

/-- The ids of the 64 lanes of a frame, 0xFFFF in an idle lane (Table 8.4). -/
def frameTids : Nat → List Nat → Nat
  | 0, _ => 0
  | n + 1, [] => 0xFFFF + 2 ^ 16 * frameTids n []
  | n + 1, t :: ts => t % 2 ^ 16 + 2 ^ 16 * frameTids n ts

/-- The 256-byte trap frame of one thread (Table 8.4): RESUME starts as ADDR. -/
def trapFrame (r : TrapReport) (lane : Nat) (sp : Word) (preds : BitVec 7) : Nat :=
  r.code.toNat + r.addr.toNat * 2 ^ 32 + r.word.toNat * 2 ^ 64 + r.pfx.toNat * 2 ^ 96 + r.mask.toNat * 2 ^ 128 +
    r.info.toNat * 2 ^ 192 + lane * 2 ^ 256 + r.tids.length * 2 ^ 264 + r.addr.toNat * 2 ^ 288 + sp.toNat * 2 ^ 320 +
    preds.toNat * 2 ^ 352 + frameTids 64 r.tids * 2 ^ 512

/-- A thread's stack with the stores of its FIFO performed: only the thread itself reads it (R40). -/
def Thread.flushStack (th : Thread) : Thread :=
  let es := th.fifo.filter (fun e => e.space = .stk)
  { th with
    stack := es.foldl (fun m e => Mem.writeBytes m e.addr e.bytes) th.stack
    stackPoison := es.foldl (fun p e => poisonAfter p e.addr e.bytes.length) th.stackPoison
    fifo := th.fifo.filter (fun e => e.space ≠ .stk) }

/-- A thread enters its handler: the frame at stk[SP], SP + 256, in-handler, and the handler's entry (R176). Its
registers, predicates, index registers, rotation and window stay as they stood. -/
def Thread.enterHandler (th : Thread) (r : TrapReport) (lane handler : Nat) : Thread :=
  let th := th.flushStack
  { th with
    stack := Mem.writeNat th.stack th.sp.toNat 256 (trapFrame r lane th.sp th.preds)
    stackPoison := poisonAfter th.stackPoison th.sp.toNat 256
    sp := th.sp + 256#32
    trapSp := th.sp
    inHandler := true
    wait := none
    cameFrom := none
    pc := BitVec.ofNat 32 handler }

/-- Why a thread cannot take a handler (R177), as the code of its second trap: the trap that it takes while it is in its
handler, or the stack check of the entry that fails (Table 8.5). -/
def Thread.nested (th : Thread) (code : Code) (stackSize : Nat) : Option Code :=
  if th.inHandler then some code
  else if stackSize < th.sp.toNat + 256 then some Code.boundsStk
  else none

/-- TAKING A PRECISE TRAP, for the threads that enter, each with its virtual lane. Without a handler the crew is
killed with the trap's code (R179); a thread that is in-handler, or whose frame does not fit, kills it with
TRAP_NEST (R177), and of several such threads the first in lane order gives INFO (notes/assumptions/107.md). -/
def State.takeTrap (s : State) (c : Nat) (r : TrapReport) (entrants : List (Nat × Nat)) : State :=
  match s.crew? c with
  | none => s
  | some cr =>
    match cr.handler with
    | none => s.killCrew c r.code r.info.toNat r.addr.toNat ((entrants.map (·.1)).headD 0)
    | some h =>
      match entrants.findSome? (fun e => (Table.get? cr.threads e.1).bind (fun th =>
          (th.nested r.code cr.stackSize).map (fun k => (e.1, k)))) with
      | some (tid, second) =>
        s.killCrew c Code.trapNest (second.toNat + r.addr.toNat * 2 ^ 32) r.addr.toNat tid
      | none => entrants.foldl (fun (s : State) e => s.modThread c e.1 (fun th => th.enterHandler r e.2 h)) s

/-- The lanes that issue, each with its virtual lane. -/
def entrantsFrom : Nat → List Lane → List (Nat × Nat)
  | _, [] => []
  | i, l :: ls => if l.issued then (l.tid, i) :: entrantsFrom (i + 1) ls else entrantsFrom (i + 1) ls

/-- A single-thread trap of a thread at an instruction: LANE 0, COUNT 1, MASK 1 (R176). -/
def State.trapThread (s : State) (c tid : Nat) (code : Code) (info : Nat) (pc word pfx : Word) : State :=
  s.takeTrap c
    { code := code, mask := 1#64, info := BitVec.ofNat 64 info, addr := pc, word := word, pfx := pfx, tids := [tid] }
    [(tid, 0)]

/-- The prefix word of the bundle's instruction, or 0. -/
def Bundle.pfxWord (b : Bundle) : Word := match b.pfx with | some p => p.word | none => 0#32

/-- A single-thread trap of a lane of the bundle at its instruction. -/
def State.trapLane (s : State) (tid : Nat) (code : Code) (info : Nat) : State :=
  s.trapThread s.cur.crew tid code info s.cur.pc s.cur.word s.cur.pfxWord

/-- A single-thread trap of a released waiter (R176). -/
def State.trapWaiter (s : State) (c tid : Nat) (code : Code) (info : Nat) : State :=
  match s.thread? c tid with
  | none => s
  | some th => s.trapThread c tid code info th.pc th.parkWord th.parkPfx

/-- A precise trap of the bundle (R27, R176): every thread that issues enters the handler, active or not. A released
waiter that issues alone takes a single-thread trap. -/
def State.trap (s : State) (code : Code) (mask : BitVec 64) (info : Nat) : State :=
  if s.cur.alone then s.trapLane (s.cur.tids.headD 0) code info
  else
    s.takeTrap s.cur.crew
      { code := code, mask := mask, info := BitVec.ofNat 64 info, addr := s.cur.pc, word := s.cur.word,
        pfx := s.cur.pfxWord, tids := s.cur.lanes.map (·.tid) }
      (entrantsFrom 0 s.cur.lanes)

/-- ILLEGAL_OP for the base word (R75, R76): every lane that issues is in the mask (notes/assumptions/12.md). -/
def State.illegalOp (s : State) : State := s.trap Code.illegalOp s.fullMask 0

/-- ILLEGAL_PREFIX (R67, R76). -/
def State.illegalPrefix (s : State) : State := s.trap Code.illegalPrefix s.fullMask 0

/-- A thread of a crew consumes an uncorrectable error (R349): no lane performs the instruction, the crew stops, and
steps 1 to 3 of Table 18.2 and then duty row 5 decide. -/
def State.consumeError (s : State) (c : Nat) (code : Code) (info addr : Nat) (tid : Nat := 0) : State :=
  s.modCrew c (fun cr =>
    if cr.consumed.isSome || cr.killed then cr
    else
      { cr with
        stopped := true, consumed := some (code, info, addr), consumedTick := s.tick, consumedTid := tid,
        consumedLogged := false, drainStart := s.now })

/-- The same for the bundle's instruction: what INFO reports, and the thread that read the data. -/
def State.consume (s : State) (code : Code) (x : Nat × Nat) : State :=
  s.consumeError s.cur.crew code x.1 s.cur.pc.toNat x.2

/-- The lowest active lane that meets an uncorrectable error, by its INFO and its thread. -/
def State.firstPoison (s : State) (f : Lane → Thread → Option Nat) : Option (Nat × Nat) :=
  s.activeLanes.findSome? (fun e => (f e.1 e.2).map (fun info => (info, e.1.tid)))

/-! ## What comes before an instruction's own effect (R76) -/

/-- What an instruction's word makes illegal in this state, and which prefix its class accepts. -/
structure Legality where
  /-- The lane register operands. -/
  opnds : List Opnd
  /-- A further cause of ILLEGAL_OP: a missing prefix, a block out of range, an operand of a table. -/
  illegal : Bool
  cls : PfxClass
  /-- Runs of registers that the instruction reads, as a field and a count (R129). -/
  blocks : List (BitVec 7 × Nat) := []
deriving DecidableEq, Repr

/-- The operand of the prefix's vc field, where the instruction's description names vc (R66). -/
def Bundle.vcOpnd (b : Bundle) (wide : Bool) : Opnd := { field := b.vc, wide := wide, direct := false, reads := true }

/-- ILLEGAL_OP for the base word: R64, R65 and the instruction's own causes. -/
def State.opIllegal (s : State) (l : Legality) : Bool :=
  l.illegal || advancesTwice l.opnds || l.opnds.any (fun o => o.illegal s.curBudget)

/-- ILLEGAL_PREFIX (R66, R67). -/
def State.prefixIllegal (s : State) (l : Legality) : Bool :=
  match s.cur.pfx with
  | some p => p.illegal l.cls
  | none => false

/-- The operands of an instruction whose index register is out of range in some active lane (R64). -/
def State.ixFailures (s : State) (os : List Opnd) : List Opnd :=
  os.filter (fun o => s.activeLanes.any (fun e => !e.2.ixInRange o))

/-- The index registers out of range, each once. -/
def ixNumbers (os : List Opnd) : List Nat := (os.filterMap (fun o => fieldIx o.field)).eraseDups

/-- IX_RANGE (R64, Table 8.5): INFO holds the index register and the CUR of the lowest offending lane. Where several
index registers fail in one instruction, which one is reported is a free choice among them
(notes/assumptions/13.md). -/
def State.ixTrap (s : State) (os : List Opnd) : State :=
  let bad := s.ixFailures os
  let ks := ixNumbers bad
  let pick := if ks.length ≤ 1 then (0, s) else s.free
  let k := ks.getD (pick.1 % ks.length) 0
  let s := pick.2
  let fails := fun (e : Lane × Thread) =>
    s.cur.active e.1 e.2 && bad.any (fun o => fieldIx o.field = some k && !e.2.ixInRange o)
  let cur := match s.curLanes.find? fails with
    | some e => (e.2.ix k).cur
    | none => 0
  s.trap Code.ixRange
    (s.maskOf (fun e => s.cur.active e.1 e.2 && bad.any (fun o => !e.2.ixInRange o))) (k + cur * 2 ^ 8)

/-- The registers that an operand reads in a thread. -/
def Thread.opndRegs (th : Thread) (o : Opnd) : List Nat :=
  if !o.reads then [] else if o.wide then [th.regOf o.field, th.regHiOf o.field] else [th.regOf o.field]

/-- The registers of a run in a thread. -/
def Thread.blockRegs (th : Thread) (b : BitVec 7 × Nat) : List Nat := (List.range b.2).map (th.blockReg b.1)

/-- A register read by an active lane that holds an uncorrectable error (R345, R349). -/
def State.poisonedRead (s : State) (l : Legality) : Option (Nat × Nat) :=
  s.firstPoison (fun _ th => (l.opnds.flatMap th.opndRegs ++ l.blocks.flatMap th.blockRegs).find? th.readPoisoned)

/-- The order of R76 in front of an instruction's own traps and effect. An empty bundle, or one whose crew is not
there, does nothing. -/
def State.guarded (s : State) (l : Legality) (body : State → State) : State :=
  if s.curLanes = [] then s
  else if s.opIllegal l then s.illegalOp
  else if s.prefixIllegal l then s.illegalPrefix
  else if s.ixFailures l.opnds ≠ [] then s.ixTrap l.opnds
  else match s.poisonedRead l with
    | some r => s.consume Code.ueReg r
    | none => body s

/-- The uniform registers that a uniform instruction reads, with their error (R345); its thread is the lowest of the
bundle. -/
def State.uniformPoison (s : State) (gs : List Nat) : Option (Nat × Nat) :=
  match s.curCrew? with
  | none => none
  | some cr => match cr.role? s.curRole with
    | none => none
    | some r => (gs.find? (fun g => r.upoison.contains g)).map (fun g =>
        (g, match s.curLanes with | e :: _ => e.1.tid | [] => 0))

/-! ## Latches (R13 to R15) -/

/-- A latch's fields (Table 1.4). -/
structure LatchView where
  bytes : Nat
  arrive : Nat
  init : Nat
  phase : Bool
  err : Nat
  malformed : Bool
deriving DecidableEq, Repr

/-- The latch in 16 bytes (Table 1.4): malformed when ARRIVE or ARRIVE_INIT is above 2,048 or a checked field is
non-zero (R13). -/
def viewLatch (v : Nat) : LatchView :=
  { bytes := bitsOf v 47 0, arrive := bitsOf v 75 64, init := bitsOf v 91 80, phase := bitsOf v 96 96 = 1,
    err := bitsOf v 127 112,
    malformed := decide (bitsOf v 63 48 ≠ 0) || decide (bitsOf v 79 76 ≠ 0) || decide (bitsOf v 95 92 ≠ 0) ||
      decide (bitsOf v 111 97 ≠ 0) || decide (2048 < bitsOf v 75 64) || decide (2048 < bitsOf v 91 80) }

/-- The 16 bytes of a well-formed latch. -/
def latchNat (l : LatchView) : Nat :=
  l.bytes + l.arrive * 2 ^ 64 + l.init * 2 ^ 80 + (if l.phase then 1 else 0) * 2 ^ 96 + l.err * 2 ^ 112

/-- A crew's latch at a shared offset. -/
def Crew.latch (cr : Crew) (off : Nat) : LatchView := viewLatch (Mem.readNat cr.shared off 16)

/-- ERR written if it is 0: only those two bytes change, so a malformed latch keeps the rest (R15). -/
def Crew.latchErr (cr : Crew) (off : Nat) (code : Code) : Crew :=
  if (cr.latch off).err = 0 then cr.writeShared (off + 14) (leBytes code.toNat 2) else cr

/-- The threads of a crew that wait on a latch's phase. -/
def Crew.latchWaiters (cr : Crew) (off : Nat) (phase : Bool) : List Nat :=
  cr.threads.filterMap (fun e => if e.2.wait = some (.latch off phase) then some e.1 else none)

/-- The waiters on a phase are released: each completes its wait, or traps with the latch's ERR (R15). -/
def State.releaseLatch (s : State) (c off : Nat) (phase : Bool) : State :=
  match s.crew? c with
  | none => s
  | some cr =>
    let err := (cr.latch off).err
    (cr.latchWaiters off phase).foldl (fun (s : State) tid =>
      if err = 0 then s.release c tid 0 [] else s.trapWaiter c tid (BitVec.ofNat 16 err) off) s

/-- A latch update that leaves the counts as given completes the phase when both are 0: PHASE inverts, ARRIVE takes
ARRIVE_INIT and the waiters on the old phase are released (R14). -/
def State.putLatch (s : State) (c off : Nat) (l : LatchView) : State :=
  if l.bytes = 0 ∧ l.arrive = 0 then
    let s := s.modCrew c (fun cr =>
      cr.writeShared off (leBytes (latchNat { l with phase := !l.phase, arrive := l.init }) 16))
    s.releaseLatch c off l.phase
  else s.modCrew c (fun cr => cr.writeShared off (leBytes (latchNat l) 16))

/-- A latch's 16 bytes hold an uncorrectable error. -/
def Crew.latchPoisoned (cr : Crew) (off : Nat) : Bool := poisonHit cr.shPoison 8 off 16

/-- An engine's update of a latch that holds an error is not made, so the error stays with the latch (R357), and a thread
that waits on it consumes the error (R349; notes/assumptions/83.md). -/
def State.latchError (s : State) (c off : Nat) (cr : Crew) : State :=
  match cr.threads.find? (fun e => match e.2.wait with | some (.latch o _) => o = off | _ => false) with
  | some (tid, th) => s.consumeError c Code.ueSh off th.pc.toNat tid
  | none => s

/-- An engine's update of a latch: on a malformed latch only LATCH_FORM is written (R15). -/
def State.engineLatch (s : State) (c off : Nat) (f : LatchView → Option LatchView) : State :=
  match s.crew? c with
  | none => s
  | some cr =>
    let l := cr.latch off
    if cr.latchPoisoned off then s.latchError c off cr
    else if l.malformed then s.modCrew c (fun x => x.latchErr off Code.latchForm)
    else match f l with
      | some l' => s.putLatch c off l'
      | none => s.modCrew c (fun x => x.latchErr off Code.latchOver)

/-- Arming: BYTES grows by the amount (R14). -/
def State.armLatch (s : State) (c off n : Nat) : State :=
  s.engineLatch c off (fun l => some { l with bytes := l.bytes + n })

/-- A byte arrival; one larger than BYTES writes LATCH_OVER (R15). -/
def State.arriveBytes (s : State) (c off n : Nat) : State :=
  s.engineLatch c off (fun l => if l.bytes < n then none else some { l with bytes := l.bytes - n })

/-- A thread arrival; one that finds ARRIVE 0 writes LATCH_OVER (R15). -/
def State.arriveThread (s : State) (c off : Nat) : State :=
  s.engineLatch c off (fun l => if l.arrive = 0 then none else some { l with arrive := l.arrive - 1 })

/-- An engine cannot finish what the latch counts: ERR takes the code if it is 0, and the waiters on the current phase
are released into the trap (R15, R209). -/
def State.failLatch (s : State) (c off : Nat) (code : Code) : State :=
  match s.crew? c with
  | none => s
  | some cr =>
    if cr.latchPoisoned off then s.latchError c off cr
    else (s.modCrew c (fun x => x.latchErr off code)).releaseLatch c off (cr.latch off).phase

/-! ## Tumblers (R16, R17, R110) -/

/-- A tumbler that nothing has joined. -/
def Tumbler.fresh : Tumbler := { declared := [], signed := [], weld := [], gen := 0#32, orphan := false }

/-- A crew's tumbler. -/
def Crew.tumbler (cr : Crew) (k : Nat) : Tumbler := Sparse.get Tumbler.fresh cr.tumblers k

/-- A crew with one tumbler set. -/
def Crew.putTumbler (cr : Crew) (k : Nat) (t : Tumbler) : Crew :=
  { cr with tumblers := Sparse.set Tumbler.fresh cr.tumblers k t }

/-- The state with every unit of a crew replaced by its image, where it changes. -/
def State.mapUnits (s : State) (cr : Crew) (f : MatrixUnit → MatrixUnit) : State :=
  cr.units.foldl (fun (s : State) ku =>
    let u := s.unit cr.die ku.1 ku.2
    if f u = u then s else s.modUnit cr.die ku.1 ku.2 f) s

/-- The generation of a tumbler turns: the number grows by one, the signed set empties, every action that waits on it
proceeds, and a claimed row store stands turned (R16, R243). -/
def State.turn (s : State) (c k : Nat) : State :=
  match s.crew? c with
  | none => s
  | some cr =>
    let t := cr.tumbler k
    let s := s.mapUnits cr (fun u => u.turnClaims c k t.gen)
    let s := if t.orphan then s.log cr.ctx (s.crewRecord cr Code.mxNolease 0 k 0 0) (some c) else s
    let s := s.modCrew c (fun x => x.putTumbler k { t with gen := t.gen + 1#32, signed := [], orphan := false })
    (cr.threads.filterMap (fun e => if e.2.wait = some (.tumbler k) then some e.1 else none)).foldl
      (fun (s : State) tid => s.release c tid 0 []) s

/-- Every member of the declared set has signed, and at least one signature counts (R16, R17). -/
def Tumbler.complete (t : Tumbler) : Bool := t.declared.all (fun m => t.signed.contains m) && t.signed ≠ []

/-- The generation turns if it is complete. -/
def State.turnIfComplete (s : State) (c k : Nat) : State :=
  match s.crew? c with
  | none => s
  | some cr => if (cr.tumbler k).complete then s.turn c k else s

/-- A thread signs a tumbler in its current generation (R16). -/
def State.sign (s : State) (c k tid : Nat) : State :=
  (s.modCrew c (fun cr =>
    let t := cr.tumbler k
    cr.putTumbler k { t with signed := insertId tid t.signed })).turnIfComplete c k

/-- A thread leaves the declared and the weld set of a tumbler (R17, R110): its signature, if it has signed, stays
counted; a removal may turn the generation, and one that empties the set without a turn releases the waiters. -/
def State.leaveTumbler (s : State) (c k tid : Nat) : State :=
  match s.crew? c with
  | none => s
  | some cr =>
    let t := cr.tumbler k
    if t.declared.contains tid || t.weld.contains tid then
      let t' := { t with declared := t.declared.filter (· ≠ tid), weld := t.weld.filter (· ≠ tid) }
      let s := s.modCrew c (fun x => x.putTumbler k t')
      if t'.complete then s.turn c k
      else if t'.declared = [] then
        (cr.threads.filterMap (fun e => if e.2.wait = some (.tumbler k) then some e.1 else none)).foldl
          (fun (s : State) w => s.release c w 0 []) s
      else s
    else s

/-! ## The store FIFO (R40) and stores that perform -/

/-- What stops a store at its place. -/
inductive Blocked where
  | absent
  | faulted
deriving DecidableEq, Repr

/-- Why a store to the die space cannot perform now (R19). -/
def State.storeBlocked (s : State) (cr : Crew) (e : StoreEntry) : Option Blocked :=
  match e.space with
  | .die =>
    let l := s.dieLine cr e.addr
    if l.faulted then some .faulted else if l.present then none else some .absent
  | _ => none

/-- A store performs: its bytes are those that later loads read (R38). -/
def State.performStore (s : State) (c tid : Nat) (e : StoreEntry) : State :=
  match e.space with
  | .stk => s.modThread c tid (fun th =>
      { th with
        stack := Mem.writeBytes th.stack e.addr e.bytes
        stackPoison := poisonAfter th.stackPoison e.addr e.bytes.length })
  | .sh => s.modCrew c (fun cr => cr.writeShared e.addr e.bytes)
  | .die => s.writeDie c e.addr e.bytes
  | .fl => s.modCrew c (fun cr => cr.modTile (e.addr / 4096) (fun t => t.write s.tick (e.addr % 4096) e.bytes))

/-- A lane with a lower thread id of the same instruction has still to perform its store to some of the same bytes
(R41). -/
def Crew.laterLane (cr : Crew) (tid : Nat) (e : StoreEntry) : Bool :=
  cr.threads.any (fun t => decide (t.1 < tid) && t.2.fifo.any (fun x =>
    x.group = e.group && x.space = e.space && e.space ≠ .stk && decide (x.addr < e.addr + e.bytes.length) &&
      decide (e.addr < x.addr + x.bytes.length)))

/-- Two runs of bytes of one space meet. -/
def overlaps (a n b m : Nat) : Bool := decide (a < b + m) && decide (b < a + n)

/-- Two store entries have a byte in common. -/
def StoreEntry.meets (e x : StoreEntry) : Bool :=
  e.space = x.space && overlaps e.addr e.bytes.length x.addr x.bytes.length

/-- A store of the thread to some bytes performs. Bytes of a non-temporal store that have performed there perform again
after it: they stand at the place of the next nt.drain (R58; notes/assumptions/100.md). -/
def Thread.rearmNt (th : Thread) (sp : Space) (a n : Nat) : Thread :=
  let hit := fun (e : StoreEntry) => e.space = sp && overlaps e.addr e.bytes.length a n
  if th.ntDone.any hit then
    { th with ntStores := th.ntDone.filter hit ++ th.ntStores, ntDone := th.ntDone.filter (fun e => !hit e) }
  else th

/-- Every non-temporal store before an nt.drain has performed, and no older store is left that comes before one (R58). -/
def Thread.ntSettled (th : Thread) : Bool :=
  th.ntStores = [] && th.ntDone.all (fun e => !th.fifo.any e.meets)

/-- The oldest store of a thread's FIFO performs; on a faulted line its thread takes COPY_FAULT (R19), and on an absent
one it stays. The second component says whether the FIFO moved. -/
def State.drainHead (s : State) (c tid : Nat) : State × Bool :=
  match s.crew? c with
  | none => (s, false)
  | some cr =>
    match Table.get? cr.threads tid with
    | none => (s, false)
    | some th =>
      match th.fifo with
      | [] => (s, false)
      | e :: rest =>
        if cr.laterLane tid e then (s, false)
        else match s.storeBlocked cr e with
        | some .absent => (s, false)
        | some .faulted =>
          let s := s.modThread c tid (fun th => { th with fifo := rest })
          (if th.ended then s else s.trapThread c tid Code.copyFault (e.addr / 64 * 64) e.pc e.word e.pfx, true)
        | none =>
          ((s.modThread c tid (fun th => { th with fifo := rest }.rearmNt e.space e.addr e.bytes.length)).performStore
            c tid e, true)

/-- The FIFO drains from its oldest store, at most n of them. -/
def State.drainUpTo (s : State) (c tid : Nat) : Nat → State
  | 0 => s
  | n + 1 =>
    let r := s.drainHead c tid
    if r.2 then State.drainUpTo r.1 c tid n else r.1

/-- The FIFO's depth (R40). -/
def fifoDepth : Nat := 8

/-- The whole FIFO drains, as far as its lines allow. -/
def State.drainFifo (s : State) (c tid : Nat) : State := s.drainUpTo c tid fifoDepth

/-- A thread's FIFO is empty. -/
def State.fifoEmpty (s : State) (c tid : Nat) : Bool :=
  match s.thread? c tid with
  | some th => th.fifo = []
  | none => true

/-- A store enters its thread's FIFO; a full FIFO lets its oldest store perform first (R40). -/
def State.enterFifo (s : State) (c tid : Nat) (e : StoreEntry) : State :=
  let full := match s.thread? c tid with | some th => decide (fifoDepth ≤ th.fifo.length) | none => false
  let s := if full then (s.drainHead c tid).1 else s
  s.modThread c tid (fun th => { th with fifo := th.fifo ++ [e] })

/-- One byte as its thread reads it: from the latest store of its FIFO to that byte, or from memory (R40). -/
def forwardedByte (fifo : List StoreEntry) (sp : Space) (a : Nat) (mem : Byte) : Byte :=
  fifo.foldl (fun b e =>
    if e.space = sp && decide (e.addr ≤ a) && decide (a < e.addr + e.bytes.length) then e.bytes.getD (a - e.addr) b
    else b) mem

/-- A run of bytes as a thread reads it. -/
def forwardedBytes (fifo : List StoreEntry) (sp : Space) (a : Nat) (mem : List Byte) : List Byte :=
  mem.zipIdx.map (fun b => forwardedByte fifo sp (a + b.2) b.1)

/-- A run of a thread's stack as the thread reads it (R40). -/
def Thread.stackBytes (th : Thread) (a n : Nat) : List Byte :=
  forwardedBytes th.fifo .stk a (Mem.readBytes th.stack a n)

end Sys2Proof.Machine
end

