-- ==== Sys2Proof/Machine/Alu.lean ====
section
/-! DEFINITION. The frame that every lane instruction of majors 0x00 to 0x2B executes in (R128): operands, result,
prefix, transient form. A meaning supplies its operand forms and its operation on operand values; values travel as 64
bits, a 32-bit operand zero-extended. -/

namespace Sys2Proof.Machine

open Sys2Proof

/-- Where an operand of an arithmetic instruction comes from. -/
inductive Src where
  | none
  /-- A 32-bit register field, or a pair. -/
  | r32 (f : BitVec 7)
  | r64 (f : BitVec 7)
  /-- The destination register as a source, of the LI formats (R61). -/
  | same32 (f : BitVec 7)
  | same64 (f : BitVec 7)
  /-- The prefix's vc field (R66). -/
  | vc32
  | vc64
  /-- An immediate's value. -/
  | imm (v : Dword)
  /-- A predicate of the lane, and p0 to p7 together. -/
  | pred (k : BitVec 3)
  | preds
deriving DecidableEq, Repr

/-- Where the result goes. -/
inductive Dst where
  | r32 (f : BitVec 7)
  | r64 (f : BitVec 7)
  | pred (k : BitVec 3)
  | preds
deriving DecidableEq, Repr

/-- The operand forms of an arithmetic instruction. -/
structure AluForm where
  dst : Dst
  a : Src
  b : Src
  c : Src
  tr : Bool
  rnd : RndUse
deriving DecidableEq, Repr

/-- The lane register operands that a source names; a source that is also the destination is listed there. -/
def Src.opnds (b : Bundle) : Src → List Opnd
  | .r32 f => [src32 f]
  | .r64 f => [src64 f]
  | .vc32 => [b.vcOpnd false]
  | .vc64 => [b.vcOpnd true]
  | _ => []

/-- The source names vc. -/
def Src.usesVc : Src → Bool
  | .vc32 => true
  | .vc64 => true
  | _ => false

/-- The lane register that a destination names; the LI formats read it too. -/
def Dst.opnds (a : Src) : Dst → List Opnd
  | .r32 f => [{ dst32 f with reads := a = .same32 f }]
  | .r64 f => [{ dst64 f with reads := a = .same64 f }]
  | _ => []

/-- The destination is a lane register. -/
def Dst.isReg : Dst → Bool
  | .r32 _ => true
  | .r64 _ => true
  | _ => false

/-- The form names vc. -/
def AluForm.usesVc (fm : AluForm) : Bool := fm.a.usesVc || fm.b.usesVc || fm.c.usesVc

/-- Operands, ILLEGAL_OP causes and prefix class of a form (R66, R67, R70, R128). -/
def AluForm.legality (fm : AluForm) (b : Bundle) : Legality :=
  { opnds := fm.dst.opnds fm.a ++ fm.a.opnds b ++ fm.b.opnds b ++ fm.c.opnds b
    illegal := (fm.tr && !fm.dst.isReg) || (fm.usesVc && b.pfx.isNone)
    cls := { accepts := true, mz := fm.dst.isReg, rnd := fm.rnd, vc := fm.usesVc } }

/-- The value of a source in a thread. -/
def Thread.value (th : Thread) (b : Bundle) : Src → Dword
  | .none => 0#64
  | .r32 f => (th.read32 f).setWidth 64
  | .r64 f => th.read64 f
  | .same32 f => (th.read32 f).setWidth 64
  | .same64 f => th.read64 f
  | .vc32 => (th.read32 b.vc).setWidth 64
  | .vc64 => th.read64 b.vc
  | .imm v => v
  | .pred k => boolWord (th.pred k.toNat)
  | .preds => th.predByte.setWidth 64

/-- The register results of a destination; a predicate destination has none. -/
def Thread.regResults (th : Thread) (d : Dst) (v : Dword) : Results :=
  match d with
  | .r32 f => [(.reg (th.regOf f), lo32 v)]
  | .r64 f => [(.reg (th.regOf f), lo32 v), (.reg (th.regHiOf f), hi32 v)]
  | _ => []

/-- The predicate writes of a destination (R116, R137). -/
def Thread.predResults (th : Thread) (d : Dst) (v : Dword) : Thread :=
  match d with
  | .pred k => th.writePred k.toNat (wordBool v)
  | .preds => { th.forget .p6 with preds := v.extractLsb' 0 7 }
  | _ => th

/-- How the results of a form reach their registers. -/
def AluForm.mode (fm : AluForm) : ResultMode := if fm.tr then .forward else .now

/-- One lane of R128: an active lane writes its result, an inactive one writes zero to a lane register under mz and
nothing otherwise; index registers named with ++ advance in active lanes (R64). -/
def Thread.aluLane (th : Thread) (b : Bundle) (l : Lane) (fm : AluForm) (v : Dword) : Thread :=
  if b.active l th then
    ((th.predResults fm.dst v).commit b.length fm.mode (th.regResults fm.dst v)).advanceIx
      (fm.legality b).opnds
  else if b.mz then th.commit b.length fm.mode (th.regResults fm.dst 0#64)
  else th.commit b.length fm.mode []

/-- R128 for an operation on the values of a lane's own operands, under the prefix's rounding field. -/
def State.alu (s : State) (fm : AluForm) (f : BitVec 3 → Dword → Dword → Dword → Dword) : State :=
  s.guarded (fm.legality s.cur) fun s =>
    s.mapLanes fun l th =>
      th.aluLane s.cur l fm (f s.cur.rnd (th.value s.cur fm.a) (th.value s.cur fm.b) (th.value s.cur fm.c))

/-- An operation that takes no rounding mode. -/
def plain1 (f : Dword → Dword) : BitVec 3 → Dword → Dword → Dword → Dword := fun _ a _ _ => f a
def plain2 (f : Dword → Dword → Dword) : BitVec 3 → Dword → Dword → Dword → Dword := fun _ a b _ => f a b
def plain3 (f : Dword → Dword → Dword → Dword) : BitVec 3 → Dword → Dword → Dword → Dword := fun _ a b c => f a b c

/-- Operand forms that many instructions share: op vd, va, vb over 32-bit registers, over pairs, and so on. -/
def fm32 (vd va vb : BitVec 7) (tr : Bool) : AluForm :=
  { dst := .r32 vd, a := .r32 va, b := .r32 vb, c := .none, tr := tr, rnd := .none }
def fm64 (vd va vb : BitVec 7) (tr : Bool) : AluForm :=
  { dst := .r64 vd, a := .r64 va, b := .r64 vb, c := .none, tr := tr, rnd := .none }
def fm32u (vd va : BitVec 7) (tr : Bool) : AluForm :=
  { dst := .r32 vd, a := .r32 va, b := .none, c := .none, tr := tr, rnd := .none }
def fm64u (vd va : BitVec 7) (tr : Bool) : AluForm :=
  { dst := .r64 vd, a := .r64 va, b := .none, c := .none, tr := tr, rnd := .none }
/-- The LI formats: vd is both source and destination, and the immediate's value is b (R68, R138). -/
def fmI32 (vd : BitVec 7) (v : Dword) : AluForm :=
  { dst := .r32 vd, a := .same32 vd, b := .imm v, c := .none, tr := false, rnd := .none }
def fmI64 (vd : BitVec 7) (v : Dword) : AluForm :=
  { dst := .r64 vd, a := .same64 vd, b := .imm v, c := .none, tr := false, rnd := .none }
/-- The same form taking a rounding mode, and with the fourth operand vc. -/
def AluForm.rounded (fm : AluForm) : AluForm := { fm with rnd := .rounding }
def AluForm.withVc32 (fm : AluForm) : AluForm := { fm with c := .vc32 }
def AluForm.withVc64 (fm : AluForm) : AluForm := { fm with c := .vc64 }

end Sys2Proof.Machine
end

