-- ==== Sys2Proof/Machine/IntAlu.lean ====
section
/-! DEFINITION. The integer, predicate and select instructions of lane majors 0x00 to 0x16 (R130 to R138): each meaning
is the frame of R128 over one operation on operand values. -/

namespace Sys2Proof.Machine

open Sys2Proof

/-! ## Values as integers, and results (R88) -/

/-- A 32-bit operand as i32 and as n32; a 64-bit one as i64 and as n64. -/
def i32 (v : Dword) : Int := (lo32 v).toInt
def n32 (v : Dword) : Nat := (lo32 v).toNat
def i64 (v : Dword) : Int := v.toInt
def n64 (v : Dword) : Nat := v.toNat

/-- The low 32 bits of an exact value, and its low 64 bits. -/
def low32 (x : Int) : Dword := (BitVec.ofInt 32 x).setWidth 64
def low64 (x : Int) : Dword := BitVec.ofInt 64 x

/-- An exact value clamped to a signed and to an unsigned range of n bits. -/
def satI (n : Nat) (x : Int) : Int := max (-(2 ^ (n - 1) : Int)) (min (2 ^ (n - 1) - 1) x)
def satN (n : Nat) (x : Int) : Int := max 0 (min (2 ^ n - 1) x)

/-! ## The operations of Table 7.1 -/

def addI32 (a b : Dword) : Dword := low32 (i32 a + i32 b)
def subI32 (a b : Dword) : Dword := low32 (i32 a - i32 b)
def negI32 (a : Dword) : Dword := low32 (-i32 a)
def absI32 (a : Dword) : Dword := low32 (i32 a).natAbs
/-- floor((a + b + 1) ÷ 2). -/
def avgI32 (a b : Dword) : Dword := low32 ((i32 a + i32 b + 1).fdiv 2)
def avgN32 (a b : Dword) : Dword := low32 ((n32 a + n32 b + 1) / 2 : Nat)
def adiffI32 (a b : Dword) : Dword := low32 (i32 a - i32 b).natAbs
def adiffN32 (a b : Dword) : Dword := low32 ((n32 a : Int) - n32 b).natAbs
def addI64 (a b : Dword) : Dword := low64 (i64 a + i64 b)
def subI64 (a b : Dword) : Dword := low64 (i64 a - i64 b)
def negI64 (a : Dword) : Dword := low64 (-i64 a)
def absI64 (a : Dword) : Dword := low64 (i64 a).natAbs
def addwI64 (a b : Dword) : Dword := low64 (i64 a + i32 b)
def addwN64 (a b : Dword) : Dword := low64 (i64 a + n32 b)
def addsatI32 (a b : Dword) : Dword := low32 (satI 32 (i32 a + i32 b))
def subsatI32 (a b : Dword) : Dword := low32 (satI 32 (i32 a - i32 b))
def addsatN32 (a b : Dword) : Dword := low32 (satN 32 (n32 a + n32 b))
def subsatN32 (a b : Dword) : Dword := low32 (satN 32 ((n32 a : Int) - n32 b))
def negsatI32 (a : Dword) : Dword := low32 (satI 32 (-i32 a))
def abssatI32 (a : Dword) : Dword := low32 (satI 32 (i32 a).natAbs)
def mulI32 (a b : Dword) : Dword := low32 (i32 a * i32 b)
def mulhiI32 (a b : Dword) : Dword := low32 ((i32 a * i32 b).fdiv (2 ^ 32))
def mulhiN32 (a b : Dword) : Dword := low32 (n32 a * n32 b / 2 ^ 32 : Nat)
def madI32 (a b c : Dword) : Dword := low32 (i32 a * i32 b + i32 c)
def mulwI32 (a b : Dword) : Dword := low64 (i32 a * i32 b)
def mulwN32 (a b : Dword) : Dword := low64 (n32 a * n32 b : Nat)
def mulI64 (a b : Dword) : Dword := low64 (i64 a * i64 b)

/-- Division truncates toward zero (R132): a divisor of zero gives a quotient of all ones and the remainder a; the
minimum divided by −1 wraps to itself, with remainder 0. -/
def quot (a b : Int) : Int := if b = 0 then -1 else a.tdiv b
def rema (a b : Int) : Int := if b = 0 then a else a.tmod b
def divI32 (a b : Dword) : Dword := low32 (quot (i32 a) (i32 b))
def divN32 (a b : Dword) : Dword := low32 (quot (n32 a) (n32 b))
def remI32 (a b : Dword) : Dword := low32 (rema (i32 a) (i32 b))
def remN32 (a b : Dword) : Dword := low32 (rema (n32 a) (n32 b))
def divI64 (a b : Dword) : Dword := low64 (quot (i64 a) (i64 b))
def divN64 (a b : Dword) : Dword := low64 (quot (n64 a) (n64 b))
def remI64 (a b : Dword) : Dword := low64 (rema (i64 a) (i64 b))
def remN64 (a b : Dword) : Dword := low64 (rema (n64 a) (n64 b))

def minI32 (a b : Dword) : Dword := low32 (min (i32 a) (i32 b))
def maxI32 (a b : Dword) : Dword := low32 (max (i32 a) (i32 b))
def minN32 (a b : Dword) : Dword := low32 (min (n32 a) (n32 b) : Nat)
def maxN32 (a b : Dword) : Dword := low32 (max (n32 a) (n32 b) : Nat)
def minI64 (a b : Dword) : Dword := low64 (min (i64 a) (i64 b))
def maxI64 (a b : Dword) : Dword := low64 (max (i64 a) (i64 b))
def minN64 (a b : Dword) : Dword := low64 (min (n64 a) (n64 b) : Nat)
def maxN64 (a b : Dword) : Dword := low64 (max (n64 a) (n64 b) : Nat)

/-- The bit operations, on all 64 bits or on a zero-extended 32-bit value. -/
def and64 (a b : Dword) : Dword := a &&& b
def or64 (a b : Dword) : Dword := a ||| b
def xor64 (a b : Dword) : Dword := a ^^^ b
def andn64 (a b : Dword) : Dword := a &&& ~~~b
def not64 (a : Dword) : Dword := ~~~a
def orn32 (a b : Dword) : Dword := (lo32 a ||| ~~~(lo32 b)).setWidth 64
def xnor32 (a b : Dword) : Dword := (~~~(lo32 a ^^^ lo32 b)).setWidth 64
def not32 (a : Dword) : Dword := (~~~(lo32 a)).setWidth 64

/-- Shifts by an unsigned amount, which may be the width or more (R133). -/
def shl (w : Nat) (a : BitVec w) (n : Nat) : BitVec w := if n < w then a <<< n else 0
def shrN (w : Nat) (a : BitVec w) (n : Nat) : BitVec w := if n < w then a >>> n else 0
def shrI (w : Nat) (a : BitVec w) (n : Nat) : BitVec w := a.sshiftRight (min n w)
def rol (w : Nat) (a : BitVec w) (n : Nat) : BitVec w := a.rotateLeft (n % w)
def ror (w : Nat) (a : BitVec w) (n : Nat) : BitVec w := a.rotateRight (n % w)
def shlN32 (a b : Dword) : Dword := (shl 32 (lo32 a) (n32 b)).setWidth 64
def shrN32 (a b : Dword) : Dword := (shrN 32 (lo32 a) (n32 b)).setWidth 64
def shrI32 (a b : Dword) : Dword := (shrI 32 (lo32 a) (n32 b)).setWidth 64
def rolN32 (a b : Dword) : Dword := (rol 32 (lo32 a) (n32 b)).setWidth 64
def rorN32 (a b : Dword) : Dword := (ror 32 (lo32 a) (n32 b)).setWidth 64
def shlN64 (a b : Dword) : Dword := shl 64 a (n32 b)
def shrN64 (a b : Dword) : Dword := shrN 64 a (n32 b)
def shrI64 (a b : Dword) : Dword := shrI 64 a (n32 b)

/-- Ones among the low n bits. -/
def onesBelow {w : Nat} (a : BitVec w) : Nat → Nat
  | 0 => 0
  | n + 1 => onesBelow a n + (if a.getLsbD n then 1 else 0)
/-- Zeros from bit n − 1 down to the first one. -/
def zerosFrom {w : Nat} (a : BitVec w) : Nat → Nat
  | 0 => 0
  | n + 1 => if a.getLsbD n then 0 else zerosFrom a n + 1
def popc (w : Nat) (a : BitVec w) : Nat := onesBelow a w
def clz (w : Nat) (a : BitVec w) : Nat := zerosFrom a w
def ctz (w : Nat) (a : BitVec w) : Nat := clz w a.reverse
def popcN32 (a : Dword) : Dword := low32 (popc 32 (lo32 a))
def clzN32 (a : Dword) : Dword := low32 (clz 32 (lo32 a))
def ctzN32 (a : Dword) : Dword := low32 (ctz 32 (lo32 a))
def brevN32 (a : Dword) : Dword := (lo32 a).reverse.setWidth 64
def bswapN32 (a : Dword) : Dword :=
  (a.extractLsb' 0 8 ++ a.extractLsb' 8 8 ++ a.extractLsb' 16 8 ++ a.extractLsb' 24 8 : BitVec 32).setWidth 64
def popcN64 (a : Dword) : Dword := low32 (popc 64 a)
def clzN64 (a : Dword) : Dword := low32 (clz 64 a)

/-- The field of the bit-field forms: its position, and its length cut off at bit 31 (R134). -/
def fieldPos (b : Dword) : Nat := (b.extractLsb' 0 8).toNat
def fieldLen (b : Dword) : Nat := min (b.extractLsb' 8 8).toNat (32 - fieldPos b)
def bfeN32 (a b : Dword) : Dword := low32 (n32 a / 2 ^ fieldPos b % 2 ^ fieldLen b : Nat)
def bfeI32 (a b : Dword) : Dword :=
  let f := n32 a / 2 ^ fieldPos b % 2 ^ fieldLen b
  if fieldLen b = 0 then 0#64
  else low32 (if 2 ^ (fieldLen b - 1) ≤ f then (f : Int) - 2 ^ fieldLen b else f)
def bfiN32 (a b c : Dword) : Dword :=
  let m := (2 ^ fieldLen b - 1) * 2 ^ fieldPos b
  let mask := BitVec.ofNat 32 m
  ((lo32 c &&& ~~~mask) ||| (BitVec.ofNat 32 (n32 a * 2 ^ fieldPos b) &&& mask)).setWidth 64

def cmpI32 (cc : BitVec 3) (a b : Dword) : Dword := boolWord (condHolds cc (lo32 a) (lo32 b))
def cmpEqI64 (a b : Dword) : Dword := boolWord (a == b)
def cmpLtI64 (a b : Dword) : Dword := boolWord (decide (i64 a < i64 b))
def cmpLtN64 (a b : Dword) : Dword := boolWord (decide (n64 a < n64 b))

def shaddN32 (sh : BitVec 2) (a b : Dword) : Dword := low32 (n32 a * 2 ^ sh.toNat + n32 b : Nat)
def shaddN64 (sh : BitVec 2) (a b : Dword) : Dword := low64 (n32 a * 2 ^ sh.toNat + n64 b : Nat)

/-- A packed operation of two 16-bit elements, or of four 8-bit ones. -/
def packed16 (f : BitVec 16 → BitVec 16 → Int) (a b : Dword) : Dword :=
  let e := fun i => BitVec.ofInt 16 (f (a.extractLsb' (16 * i) 16) (b.extractLsb' (16 * i) 16))
  (e 1 ++ e 0 : BitVec 32).setWidth 64
def packed8 (f : BitVec 8 → BitVec 8 → Int) (a b : Dword) : Dword :=
  let e := fun i => BitVec.ofInt 8 (f (a.extractLsb' (8 * i) 8) (b.extractLsb' (8 * i) 8))
  (e 3 ++ e 2 ++ e 1 ++ e 0 : BitVec 32).setWidth 64
def addI16 : Dword → Dword → Dword := packed16 (fun a b => a.toInt + b.toInt)
def subI16 : Dword → Dword → Dword := packed16 (fun a b => a.toInt - b.toInt)
def addI8 : Dword → Dword → Dword := packed8 (fun a b => a.toInt + b.toInt)
def subI8 : Dword → Dword → Dword := packed8 (fun a b => a.toInt - b.toInt)
def addsatI16 : Dword → Dword → Dword := packed16 (fun a b => satI 16 (a.toInt + b.toInt))
def subsatI16 : Dword → Dword → Dword := packed16 (fun a b => satI 16 (a.toInt - b.toInt))
def addsatN8 : Dword → Dword → Dword := packed8 (fun a b => satN 8 (a.toNat + b.toNat))
def byteI (v : Dword) (e : Nat) : Int := (v.extractLsb' (8 * e) 8).toInt
def dotI8 (a b c : Dword) : Dword :=
  low32 (i32 c + byteI a 0 * byteI b 0 + byteI a 1 * byteI b 1 + byteI a 2 * byteI b 2 + byteI a 3 * byteI b 3)

def pandOp (a b : Dword) : Dword := boolWord (wordBool a && wordBool b)
def porOp (a b : Dword) : Dword := boolWord (wordBool a || wordBool b)
def pxorOp (a b : Dword) : Dword := boolWord (wordBool a != wordBool b)
def pandnOp (a b : Dword) : Dword := boolWord (wordBool a && !wordBool b)
def pnotOp (a : Dword) : Dword := boolWord (!wordBool a)
def mov64 (a : Dword) : Dword := a

/-! ## Immediates (R68, R138) -/

/-- imm16 in an i type and in an n type. -/
def immI (imm : BitVec 16) : Dword := imm.signExtend 64
def immN (imm : BitVec 16) : Dword := imm.setWidth 64
/-- The same as a 32-bit operand, zero-extended like every 32-bit operand value. -/
def immI32 (imm : BitVec 16) : Dword := (imm.signExtend 32).setWidth 64

/-- A set form gives all ones or 0. -/
def setWord (b : Bool) : Dword := if b then 0xFFFFFFFF#64 else 0#64
def setEqI32 (a b : Dword) : Dword := setWord (lo32 a == lo32 b)
def setNeI32 (a b : Dword) : Dword := setWord (lo32 a != lo32 b)
def setLtI32 (a b : Dword) : Dword := setWord (decide (i32 a < i32 b))
def setLtN32 (a b : Dword) : Dword := setWord (decide (n32 a < n32 b))
def movlN32 (a b : Dword) : Dword := (a.extractLsb' 16 16 ++ b.extractLsb' 0 16 : BitVec 32).setWidth 64
def movhN32 (a b : Dword) : Dword := (b.extractLsb' 0 16 ++ a.extractLsb' 0 16 : BitVec 32).setWidth 64
def takeImm (_a b : Dword) : Dword := b

/-! ## The meanings -/

/-- Further operand forms: a pair destination over 32-bit sources; a pair and a 32-bit source; a 32-bit result of a
pair; a predicate result. -/
def fmW (vd va vb : BitVec 7) (tr : Bool) : AluForm := { fm32 vd va vb tr with dst := .r64 vd }
def fm64b32 (vd va vb : BitVec 7) (tr : Bool) : AluForm := { fm64 vd va vb tr with b := .r32 vb }
def fm64uTo32 (vd va : BitVec 7) (tr : Bool) : AluForm := { fm64u vd va tr with dst := .r32 vd }
def fmP32 (pk : BitVec 3) (va vb : BitVec 7) : AluForm :=
  { dst := .pred pk, a := .r32 va, b := .r32 vb, c := .none, tr := false, rnd := .none }
def fmP64 (pk : BitVec 3) (va vb : BitVec 7) : AluForm := { fmP32 pk va vb with a := .r64 va, b := .r64 vb }
def fmPP (pd pa pb : BitVec 3) : AluForm :=
  { dst := .pred pd, a := .pred pa, b := .pred pb, c := .none, tr := false, rnd := .none }

/-- `add.i32 vd, va, vb`. -/
def execAddI32 (vd va vb : BitVec 7) (tr : Bool) (s : State) : Host.Outcome State Fault Refusal :=
  .next (s.alu (fm32 vd va vb tr) (plain2 addI32))

/-- `sub.i32 vd, va, vb`. -/
def execSubI32 (vd va vb : BitVec 7) (tr : Bool) (s : State) : Host.Outcome State Fault Refusal :=
  .next (s.alu (fm32 vd va vb tr) (plain2 subI32))

/-- `neg.i32 vd, va`. -/
def execNegI32 (vd va : BitVec 7) (tr : Bool) (s : State) : Host.Outcome State Fault Refusal :=
  .next (s.alu (fm32u vd va tr) (plain1 negI32))

/-- `abs.i32 vd, va`. -/
def execAbsI32 (vd va : BitVec 7) (tr : Bool) (s : State) : Host.Outcome State Fault Refusal :=
  .next (s.alu (fm32u vd va tr) (plain1 absI32))

/-- `avg.i32 vd, va, vb`. -/
def execAvgI32 (vd va vb : BitVec 7) (tr : Bool) (s : State) : Host.Outcome State Fault Refusal :=
  .next (s.alu (fm32 vd va vb tr) (plain2 avgI32))

/-- `avg.n32 vd, va, vb`. -/
def execAvgN32 (vd va vb : BitVec 7) (tr : Bool) (s : State) : Host.Outcome State Fault Refusal :=
  .next (s.alu (fm32 vd va vb tr) (plain2 avgN32))

/-- `adiff.i32 vd, va, vb`. -/
def execAdiffI32 (vd va vb : BitVec 7) (tr : Bool) (s : State) : Host.Outcome State Fault Refusal :=
  .next (s.alu (fm32 vd va vb tr) (plain2 adiffI32))

/-- `adiff.n32 vd, va, vb`. -/
def execAdiffN32 (vd va vb : BitVec 7) (tr : Bool) (s : State) : Host.Outcome State Fault Refusal :=
  .next (s.alu (fm32 vd va vb tr) (plain2 adiffN32))

/-- `add.i64 vd, va, vb`. -/
def execAddI64 (vd va vb : BitVec 7) (tr : Bool) (s : State) : Host.Outcome State Fault Refusal :=
  .next (s.alu (fm64 vd va vb tr) (plain2 addI64))

/-- `sub.i64 vd, va, vb`. -/
def execSubI64 (vd va vb : BitVec 7) (tr : Bool) (s : State) : Host.Outcome State Fault Refusal :=
  .next (s.alu (fm64 vd va vb tr) (plain2 subI64))

/-- `neg.i64 vd, va`. -/
def execNegI64 (vd va : BitVec 7) (tr : Bool) (s : State) : Host.Outcome State Fault Refusal :=
  .next (s.alu (fm64u vd va tr) (plain1 negI64))

/-- `abs.i64 vd, va`. -/
def execAbsI64 (vd va : BitVec 7) (tr : Bool) (s : State) : Host.Outcome State Fault Refusal :=
  .next (s.alu (fm64u vd va tr) (plain1 absI64))

/-- `addw.i64.i32 vd, va, vb`. -/
def execAddwI64I32 (vd va vb : BitVec 7) (tr : Bool) (s : State) : Host.Outcome State Fault Refusal :=
  .next (s.alu (fm64b32 vd va vb tr) (plain2 addwI64))

/-- `addw.n64.n32 vd, va, vb`. -/
def execAddwN64N32 (vd va vb : BitVec 7) (tr : Bool) (s : State) : Host.Outcome State Fault Refusal :=
  .next (s.alu (fm64b32 vd va vb tr) (plain2 addwN64))

/-- `addsat.i32 vd, va, vb`. -/
def execAddsatI32 (vd va vb : BitVec 7) (tr : Bool) (s : State) : Host.Outcome State Fault Refusal :=
  .next (s.alu (fm32 vd va vb tr) (plain2 addsatI32))

/-- `subsat.i32 vd, va, vb`. -/
def execSubsatI32 (vd va vb : BitVec 7) (tr : Bool) (s : State) : Host.Outcome State Fault Refusal :=
  .next (s.alu (fm32 vd va vb tr) (plain2 subsatI32))

/-- `addsat.n32 vd, va, vb`. -/
def execAddsatN32 (vd va vb : BitVec 7) (tr : Bool) (s : State) : Host.Outcome State Fault Refusal :=
  .next (s.alu (fm32 vd va vb tr) (plain2 addsatN32))

/-- `subsat.n32 vd, va, vb`. -/
def execSubsatN32 (vd va vb : BitVec 7) (tr : Bool) (s : State) : Host.Outcome State Fault Refusal :=
  .next (s.alu (fm32 vd va vb tr) (plain2 subsatN32))

/-- `negsat.i32 vd, va`. -/
def execNegsatI32 (vd va : BitVec 7) (tr : Bool) (s : State) : Host.Outcome State Fault Refusal :=
  .next (s.alu (fm32u vd va tr) (plain1 negsatI32))

/-- `abssat.i32 vd, va`. -/
def execAbssatI32 (vd va : BitVec 7) (tr : Bool) (s : State) : Host.Outcome State Fault Refusal :=
  .next (s.alu (fm32u vd va tr) (plain1 abssatI32))

/-- `mul.i32 vd, va, vb`. -/
def execMulI32 (vd va vb : BitVec 7) (tr : Bool) (s : State) : Host.Outcome State Fault Refusal :=
  .next (s.alu (fm32 vd va vb tr) (plain2 mulI32))

/-- `mulhi.i32 vd, va, vb`. -/
def execMulhiI32 (vd va vb : BitVec 7) (tr : Bool) (s : State) : Host.Outcome State Fault Refusal :=
  .next (s.alu (fm32 vd va vb tr) (plain2 mulhiI32))

/-- `mulhi.n32 vd, va, vb`. -/
def execMulhiN32 (vd va vb : BitVec 7) (tr : Bool) (s : State) : Host.Outcome State Fault Refusal :=
  .next (s.alu (fm32 vd va vb tr) (plain2 mulhiN32))

/-- `mad.i32 vd, va, vb, vc`. -/
def execMadI32 (vd va vb : BitVec 7) (tr : Bool) (s : State) : Host.Outcome State Fault Refusal :=
  .next (s.alu ((fm32 vd va vb tr).withVc32) (plain3 madI32))

/-- `mulw.i32 vd, va, vb`. -/
def execMulwI32 (vd va vb : BitVec 7) (tr : Bool) (s : State) : Host.Outcome State Fault Refusal :=
  .next (s.alu (fmW vd va vb tr) (plain2 mulwI32))

/-- `mulw.n32 vd, va, vb`. -/
def execMulwN32 (vd va vb : BitVec 7) (tr : Bool) (s : State) : Host.Outcome State Fault Refusal :=
  .next (s.alu (fmW vd va vb tr) (plain2 mulwN32))

/-- `div.i32 vd, va, vb`. -/
def execDivI32 (vd va vb : BitVec 7) (tr : Bool) (s : State) : Host.Outcome State Fault Refusal :=
  .next (s.alu (fm32 vd va vb tr) (plain2 divI32))

/-- `div.n32 vd, va, vb`. -/
def execDivN32 (vd va vb : BitVec 7) (tr : Bool) (s : State) : Host.Outcome State Fault Refusal :=
  .next (s.alu (fm32 vd va vb tr) (plain2 divN32))

/-- `rem.i32 vd, va, vb`. -/
def execRemI32 (vd va vb : BitVec 7) (tr : Bool) (s : State) : Host.Outcome State Fault Refusal :=
  .next (s.alu (fm32 vd va vb tr) (plain2 remI32))

/-- `rem.n32 vd, va, vb`. -/
def execRemN32 (vd va vb : BitVec 7) (tr : Bool) (s : State) : Host.Outcome State Fault Refusal :=
  .next (s.alu (fm32 vd va vb tr) (plain2 remN32))

/-- `div.i64 vd, va, vb`. -/
def execDivI64 (vd va vb : BitVec 7) (tr : Bool) (s : State) : Host.Outcome State Fault Refusal :=
  .next (s.alu (fm64 vd va vb tr) (plain2 divI64))

/-- `div.n64 vd, va, vb`. -/
def execDivN64 (vd va vb : BitVec 7) (tr : Bool) (s : State) : Host.Outcome State Fault Refusal :=
  .next (s.alu (fm64 vd va vb tr) (plain2 divN64))

/-- `rem.i64 vd, va, vb`. -/
def execRemI64 (vd va vb : BitVec 7) (tr : Bool) (s : State) : Host.Outcome State Fault Refusal :=
  .next (s.alu (fm64 vd va vb tr) (plain2 remI64))

/-- `rem.n64 vd, va, vb`. -/
def execRemN64 (vd va vb : BitVec 7) (tr : Bool) (s : State) : Host.Outcome State Fault Refusal :=
  .next (s.alu (fm64 vd va vb tr) (plain2 remN64))

/-- `min.i32 vd, va, vb`. -/
def execMinI32 (vd va vb : BitVec 7) (tr : Bool) (s : State) : Host.Outcome State Fault Refusal :=
  .next (s.alu (fm32 vd va vb tr) (plain2 minI32))

/-- `max.i32 vd, va, vb`. -/
def execMaxI32 (vd va vb : BitVec 7) (tr : Bool) (s : State) : Host.Outcome State Fault Refusal :=
  .next (s.alu (fm32 vd va vb tr) (plain2 maxI32))

/-- `min.n32 vd, va, vb`. -/
def execMinN32 (vd va vb : BitVec 7) (tr : Bool) (s : State) : Host.Outcome State Fault Refusal :=
  .next (s.alu (fm32 vd va vb tr) (plain2 minN32))

/-- `max.n32 vd, va, vb`. -/
def execMaxN32 (vd va vb : BitVec 7) (tr : Bool) (s : State) : Host.Outcome State Fault Refusal :=
  .next (s.alu (fm32 vd va vb tr) (plain2 maxN32))

/-- `min.i64 vd, va, vb`. -/
def execMinI64 (vd va vb : BitVec 7) (tr : Bool) (s : State) : Host.Outcome State Fault Refusal :=
  .next (s.alu (fm64 vd va vb tr) (plain2 minI64))

/-- `max.i64 vd, va, vb`. -/
def execMaxI64 (vd va vb : BitVec 7) (tr : Bool) (s : State) : Host.Outcome State Fault Refusal :=
  .next (s.alu (fm64 vd va vb tr) (plain2 maxI64))

/-- `min.n64 vd, va, vb`. -/
def execMinN64 (vd va vb : BitVec 7) (tr : Bool) (s : State) : Host.Outcome State Fault Refusal :=
  .next (s.alu (fm64 vd va vb tr) (plain2 minN64))

/-- `max.n64 vd, va, vb`. -/
def execMaxN64 (vd va vb : BitVec 7) (tr : Bool) (s : State) : Host.Outcome State Fault Refusal :=
  .next (s.alu (fm64 vd va vb tr) (plain2 maxN64))

/-- `and.n32 vd, va, vb`. -/
def execAndN32 (vd va vb : BitVec 7) (tr : Bool) (s : State) : Host.Outcome State Fault Refusal :=
  .next (s.alu (fm32 vd va vb tr) (plain2 and64))

/-- `or.n32 vd, va, vb`. -/
def execOrN32 (vd va vb : BitVec 7) (tr : Bool) (s : State) : Host.Outcome State Fault Refusal :=
  .next (s.alu (fm32 vd va vb tr) (plain2 or64))

/-- `xor.n32 vd, va, vb`. -/
def execXorN32 (vd va vb : BitVec 7) (tr : Bool) (s : State) : Host.Outcome State Fault Refusal :=
  .next (s.alu (fm32 vd va vb tr) (plain2 xor64))

/-- `andn.n32 vd, va, vb`. -/
def execAndnN32 (vd va vb : BitVec 7) (tr : Bool) (s : State) : Host.Outcome State Fault Refusal :=
  .next (s.alu (fm32 vd va vb tr) (plain2 andn64))

/-- `orn.n32 vd, va, vb`. -/
def execOrnN32 (vd va vb : BitVec 7) (tr : Bool) (s : State) : Host.Outcome State Fault Refusal :=
  .next (s.alu (fm32 vd va vb tr) (plain2 orn32))

/-- `xnor.n32 vd, va, vb`. -/
def execXnorN32 (vd va vb : BitVec 7) (tr : Bool) (s : State) : Host.Outcome State Fault Refusal :=
  .next (s.alu (fm32 vd va vb tr) (plain2 xnor32))

/-- `not.n32 vd, va`. -/
def execNotN32 (vd va : BitVec 7) (tr : Bool) (s : State) : Host.Outcome State Fault Refusal :=
  .next (s.alu (fm32u vd va tr) (plain1 not32))

/-- `shl.n32 vd, va, vb`. -/
def execShlN32 (vd va vb : BitVec 7) (tr : Bool) (s : State) : Host.Outcome State Fault Refusal :=
  .next (s.alu (fm32 vd va vb tr) (plain2 shlN32))

/-- `shr.n32 vd, va, vb`. -/
def execShrN32 (vd va vb : BitVec 7) (tr : Bool) (s : State) : Host.Outcome State Fault Refusal :=
  .next (s.alu (fm32 vd va vb tr) (plain2 shrN32))

/-- `shr.i32 vd, va, vb`. -/
def execShrI32 (vd va vb : BitVec 7) (tr : Bool) (s : State) : Host.Outcome State Fault Refusal :=
  .next (s.alu (fm32 vd va vb tr) (plain2 shrI32))

/-- `rol.n32 vd, va, vb`. -/
def execRolN32 (vd va vb : BitVec 7) (tr : Bool) (s : State) : Host.Outcome State Fault Refusal :=
  .next (s.alu (fm32 vd va vb tr) (plain2 rolN32))

/-- `ror.n32 vd, va, vb`. -/
def execRorN32 (vd va vb : BitVec 7) (tr : Bool) (s : State) : Host.Outcome State Fault Refusal :=
  .next (s.alu (fm32 vd va vb tr) (plain2 rorN32))

/-- `popc.n32 vd, va`. -/
def execPopcN32 (vd va : BitVec 7) (tr : Bool) (s : State) : Host.Outcome State Fault Refusal :=
  .next (s.alu (fm32u vd va tr) (plain1 popcN32))

/-- `clz.n32 vd, va`. -/
def execClzN32 (vd va : BitVec 7) (tr : Bool) (s : State) : Host.Outcome State Fault Refusal :=
  .next (s.alu (fm32u vd va tr) (plain1 clzN32))

/-- `ctz.n32 vd, va`. -/
def execCtzN32 (vd va : BitVec 7) (tr : Bool) (s : State) : Host.Outcome State Fault Refusal :=
  .next (s.alu (fm32u vd va tr) (plain1 ctzN32))

/-- `brev.n32 vd, va`. -/
def execBrevN32 (vd va : BitVec 7) (tr : Bool) (s : State) : Host.Outcome State Fault Refusal :=
  .next (s.alu (fm32u vd va tr) (plain1 brevN32))

/-- `bswap.n32 vd, va`. -/
def execBswapN32 (vd va : BitVec 7) (tr : Bool) (s : State) : Host.Outcome State Fault Refusal :=
  .next (s.alu (fm32u vd va tr) (plain1 bswapN32))

/-- `popc.n64 vd, va`. -/
def execPopcN64 (vd va : BitVec 7) (tr : Bool) (s : State) : Host.Outcome State Fault Refusal :=
  .next (s.alu (fm64uTo32 vd va tr) (plain1 popcN64))

/-- `clz.n64 vd, va`. -/
def execClzN64 (vd va : BitVec 7) (tr : Bool) (s : State) : Host.Outcome State Fault Refusal :=
  .next (s.alu (fm64uTo32 vd va tr) (plain1 clzN64))

/-- `bfe.n32 vd, va, vb`. -/
def execBfeN32 (vd va vb : BitVec 7) (tr : Bool) (s : State) : Host.Outcome State Fault Refusal :=
  .next (s.alu (fm32 vd va vb tr) (plain2 bfeN32))

/-- `bfe.i32 vd, va, vb`. -/
def execBfeI32 (vd va vb : BitVec 7) (tr : Bool) (s : State) : Host.Outcome State Fault Refusal :=
  .next (s.alu (fm32 vd va vb tr) (plain2 bfeI32))

/-- `bfi.n32 vd, va, vb, vc`. -/
def execBfiN32 (vd va vb : BitVec 7) (tr : Bool) (s : State) : Host.Outcome State Fault Refusal :=
  .next (s.alu ((fm32 vd va vb tr).withVc32) (plain3 bfiN32))

/-- `cmp.cc.i32 pk, va, vb`. -/
def execCmpI32 (pk : BitVec 3) (va vb : BitVec 7) (cc : BitVec 3) (s : State) : Host.Outcome State Fault Refusal :=
  .next (s.alu (fmP32 pk va vb) (plain2 (cmpI32 cc)))

/-- `sel.n32 vd, va, vb, pk`. -/
def execSelN32 (vd va vb : BitVec 7) (pk : BitVec 3) (tr : Bool) (s : State) : Host.Outcome State Fault Refusal :=
  .next (s.alu ({ fm32 vd va vb tr with c := .pred pk }) (plain3 fun a b c => if wordBool c then a else b))

/-- `mov.n32 vd, va`. -/
def execMovN32 (vd va : BitVec 7) (tr : Bool) (s : State) : Host.Outcome State Fault Refusal :=
  .next (s.alu (fm32u vd va tr) (plain1 mov64))

/-- `shadd.n32 vd, va, vb, #sh`. -/
def execShaddN32 (vd va vb : BitVec 7) (sh : BitVec 2) (tr : Bool) (s : State) : Host.Outcome State Fault Refusal :=
  .next (s.alu (fm32 vd va vb tr) (plain2 (shaddN32 sh)))

/-- `shadd.n64 vd, va, vb, #sh`. -/
def execShaddN64 (vd va vb : BitVec 7) (sh : BitVec 2) (tr : Bool) (s : State) : Host.Outcome State Fault Refusal :=
  .next (s.alu ({ fm64 vd va vb tr with a := .r32 va }) (plain2 (shaddN64 sh)))

/-- `add.i16 vd, va, vb`. -/
def execAddI16 (vd va vb : BitVec 7) (tr : Bool) (s : State) : Host.Outcome State Fault Refusal :=
  .next (s.alu (fm32 vd va vb tr) (plain2 addI16))

/-- `sub.i16 vd, va, vb`. -/
def execSubI16 (vd va vb : BitVec 7) (tr : Bool) (s : State) : Host.Outcome State Fault Refusal :=
  .next (s.alu (fm32 vd va vb tr) (plain2 subI16))

/-- `add.i8 vd, va, vb`. -/
def execAddI8 (vd va vb : BitVec 7) (tr : Bool) (s : State) : Host.Outcome State Fault Refusal :=
  .next (s.alu (fm32 vd va vb tr) (plain2 addI8))

/-- `sub.i8 vd, va, vb`. -/
def execSubI8 (vd va vb : BitVec 7) (tr : Bool) (s : State) : Host.Outcome State Fault Refusal :=
  .next (s.alu (fm32 vd va vb tr) (plain2 subI8))

/-- `addsat.i16 vd, va, vb`. -/
def execAddsatI16 (vd va vb : BitVec 7) (tr : Bool) (s : State) : Host.Outcome State Fault Refusal :=
  .next (s.alu (fm32 vd va vb tr) (plain2 addsatI16))

/-- `subsat.i16 vd, va, vb`. -/
def execSubsatI16 (vd va vb : BitVec 7) (tr : Bool) (s : State) : Host.Outcome State Fault Refusal :=
  .next (s.alu (fm32 vd va vb tr) (plain2 subsatI16))

/-- `addsat.n8 vd, va, vb`. -/
def execAddsatN8 (vd va vb : BitVec 7) (tr : Bool) (s : State) : Host.Outcome State Fault Refusal :=
  .next (s.alu (fm32 vd va vb tr) (plain2 addsatN8))

/-- `dot.i8 vd, va, vb, vc`. -/
def execDotI8 (vd va vb : BitVec 7) (tr : Bool) (s : State) : Host.Outcome State Fault Refusal :=
  .next (s.alu ((fm32 vd va vb tr).withVc32) (plain3 dotI8))

/-- `pand pd, pa, pb`. -/
def execPand (vd va vb : BitVec 3) (s : State) : Host.Outcome State Fault Refusal :=
  .next (s.alu (fmPP vd va vb) (plain2 pandOp))

/-- `por pd, pa, pb`. -/
def execPor (vd va vb : BitVec 3) (s : State) : Host.Outcome State Fault Refusal :=
  .next (s.alu (fmPP vd va vb) (plain2 porOp))

/-- `pxor pd, pa, pb`. -/
def execPxor (vd va vb : BitVec 3) (s : State) : Host.Outcome State Fault Refusal :=
  .next (s.alu (fmPP vd va vb) (plain2 pxorOp))

/-- `pandn pd, pa, pb`. -/
def execPandn (vd va vb : BitVec 3) (s : State) : Host.Outcome State Fault Refusal :=
  .next (s.alu (fmPP vd va vb) (plain2 pandnOp))

/-- `pnot pd, pa`. -/
def execPnot (vd va : BitVec 3) (s : State) : Host.Outcome State Fault Refusal :=
  .next (s.alu ({ fmPP vd va 7#3 with b := .none }) (plain1 pnotOp))

/-- `ptov.n32 vd`. -/
def execPtovN32 (vd : BitVec 7) (tr : Bool) (s : State) : Host.Outcome State Fault Refusal :=
  .next (s.alu ({ dst := .r32 vd, a := .preds, b := .none, c := .none, tr := tr, rnd := .none }) (plain1 mov64))

/-- `vtop.n32 va`. -/
def execVtopN32 (va : BitVec 7) (s : State) : Host.Outcome State Fault Refusal :=
  .next (s.alu ({ dst := .preds, a := .r32 va, b := .none, c := .none, tr := false, rnd := .none }) (plain1 mov64))

/-- `mul.i64 vd, va, vb`. -/
def execMulI64 (vd va vb : BitVec 7) (tr : Bool) (s : State) : Host.Outcome State Fault Refusal :=
  .next (s.alu (fm64 vd va vb tr) (plain2 mulI64))

/-- `shl.n64 vd, va, vb`. -/
def execShlN64 (vd va vb : BitVec 7) (tr : Bool) (s : State) : Host.Outcome State Fault Refusal :=
  .next (s.alu (fm64b32 vd va vb tr) (plain2 shlN64))

/-- `shr.n64 vd, va, vb`. -/
def execShrN64 (vd va vb : BitVec 7) (tr : Bool) (s : State) : Host.Outcome State Fault Refusal :=
  .next (s.alu (fm64b32 vd va vb tr) (plain2 shrN64))

/-- `shr.i64 vd, va, vb`. -/
def execShrI64 (vd va vb : BitVec 7) (tr : Bool) (s : State) : Host.Outcome State Fault Refusal :=
  .next (s.alu (fm64b32 vd va vb tr) (plain2 shrI64))

/-- `cmp.eq.i64 pk, va, vb`. -/
def execCmpEqI64 (pk : BitVec 3) (va vb : BitVec 7) (s : State) : Host.Outcome State Fault Refusal :=
  .next (s.alu (fmP64 pk va vb) (plain2 cmpEqI64))

/-- `cmp.lt.i64 pk, va, vb`. -/
def execCmpLtI64 (pk : BitVec 3) (va vb : BitVec 7) (s : State) : Host.Outcome State Fault Refusal :=
  .next (s.alu (fmP64 pk va vb) (plain2 cmpLtI64))

/-- `cmp.lt.n64 pk, va, vb`. -/
def execCmpLtN64 (pk : BitVec 3) (va vb : BitVec 7) (s : State) : Host.Outcome State Fault Refusal :=
  .next (s.alu (fmP64 pk va vb) (plain2 cmpLtN64))

/-- `mov.n64 vd, va`. -/
def execMovN64 (vd va : BitVec 7) (tr : Bool) (s : State) : Host.Outcome State Fault Refusal :=
  .next (s.alu (fm64u vd va tr) (plain1 mov64))

/-- `add.i32 vd, #imm`. -/
def execAddI32Imm (vd : BitVec 7) (imm : BitVec 16) (s : State) : Host.Outcome State Fault Refusal :=
  .next (s.alu (fmI32 vd (immI32 imm)) (plain2 addI32))

/-- `add.i64 vd, #imm`. -/
def execAddI64Imm (vd : BitVec 7) (imm : BitVec 16) (s : State) : Host.Outcome State Fault Refusal :=
  .next (s.alu (fmI64 vd (immI imm)) (plain2 addI64))

/-- `addsat.i32 vd, #imm`. -/
def execAddsatI32Imm (vd : BitVec 7) (imm : BitVec 16) (s : State) : Host.Outcome State Fault Refusal :=
  .next (s.alu (fmI32 vd (immI32 imm)) (plain2 addsatI32))

/-- `addsat.n32 vd, #imm`. -/
def execAddsatN32Imm (vd : BitVec 7) (imm : BitVec 16) (s : State) : Host.Outcome State Fault Refusal :=
  .next (s.alu (fmI32 vd (immN imm)) (plain2 addsatN32))

/-- `and.n32 vd, #imm`. -/
def execAndN32Imm (vd : BitVec 7) (imm : BitVec 16) (s : State) : Host.Outcome State Fault Refusal :=
  .next (s.alu (fmI32 vd (immN imm)) (plain2 and64))

/-- `or.n32 vd, #imm`. -/
def execOrN32Imm (vd : BitVec 7) (imm : BitVec 16) (s : State) : Host.Outcome State Fault Refusal :=
  .next (s.alu (fmI32 vd (immN imm)) (plain2 or64))

/-- `xor.n32 vd, #imm`. -/
def execXorN32Imm (vd : BitVec 7) (imm : BitVec 16) (s : State) : Host.Outcome State Fault Refusal :=
  .next (s.alu (fmI32 vd (immN imm)) (plain2 xor64))

/-- `shl.n32 vd, #imm`. -/
def execShlN32Imm (vd : BitVec 7) (imm : BitVec 16) (s : State) : Host.Outcome State Fault Refusal :=
  .next (s.alu (fmI32 vd (immN imm)) (plain2 shlN32))

/-- `shr.n32 vd, #imm`. -/
def execShrN32Imm (vd : BitVec 7) (imm : BitVec 16) (s : State) : Host.Outcome State Fault Refusal :=
  .next (s.alu (fmI32 vd (immN imm)) (plain2 shrN32))

/-- `shr.i32 vd, #imm`. -/
def execShrI32Imm (vd : BitVec 7) (imm : BitVec 16) (s : State) : Host.Outcome State Fault Refusal :=
  .next (s.alu (fmI32 vd (immN imm)) (plain2 shrI32))

/-- `ror.n32 vd, #imm`. -/
def execRorN32Imm (vd : BitVec 7) (imm : BitVec 16) (s : State) : Host.Outcome State Fault Refusal :=
  .next (s.alu (fmI32 vd (immN imm)) (plain2 rorN32))

/-- `set.eq.i32 vd, #imm`. -/
def execSetEqI32 (vd : BitVec 7) (imm : BitVec 16) (s : State) : Host.Outcome State Fault Refusal :=
  .next (s.alu (fmI32 vd (immI32 imm)) (plain2 setEqI32))

/-- `set.ne.i32 vd, #imm`. -/
def execSetNeI32 (vd : BitVec 7) (imm : BitVec 16) (s : State) : Host.Outcome State Fault Refusal :=
  .next (s.alu (fmI32 vd (immI32 imm)) (plain2 setNeI32))

/-- `set.lt.i32 vd, #imm`. -/
def execSetLtI32 (vd : BitVec 7) (imm : BitVec 16) (s : State) : Host.Outcome State Fault Refusal :=
  .next (s.alu (fmI32 vd (immI32 imm)) (plain2 setLtI32))

/-- `set.lt.n32 vd, #imm`. -/
def execSetLtN32 (vd : BitVec 7) (imm : BitVec 16) (s : State) : Host.Outcome State Fault Refusal :=
  .next (s.alu (fmI32 vd (immN imm)) (plain2 setLtN32))

/-- `movl.n32 vd, #imm`. -/
def execMovlN32 (vd : BitVec 7) (imm : BitVec 16) (s : State) : Host.Outcome State Fault Refusal :=
  .next (s.alu (fmI32 vd (immN imm)) (plain2 movlN32))

/-- `movh.n32 vd, #imm`. -/
def execMovhN32 (vd : BitVec 7) (imm : BitVec 16) (s : State) : Host.Outcome State Fault Refusal :=
  .next (s.alu (fmI32 vd (immN imm)) (plain2 movhN32))

/-- `mov.i32 vd, #imm`. -/
def execMovI32Imm (vd : BitVec 7) (imm : BitVec 16) (s : State) : Host.Outcome State Fault Refusal :=
  .next (s.alu ({ fmI32 vd (immI32 imm) with a := .none }) (plain2 takeImm))

/-- `mov.n32 vd, #imm`. -/
def execMovN32Imm (vd : BitVec 7) (imm : BitVec 16) (s : State) : Host.Outcome State Fault Refusal :=
  .next (s.alu ({ fmI32 vd (immN imm) with a := .none }) (plain2 takeImm))

/-- `mul.i32 vd, #imm`. -/
def execMulI32Imm (vd : BitVec 7) (imm : BitVec 16) (s : State) : Host.Outcome State Fault Refusal :=
  .next (s.alu (fmI32 vd (immI32 imm)) (plain2 mulI32))

/-- `mul.i64 vd, #imm`. -/
def execMulI64Imm (vd : BitVec 7) (imm : BitVec 16) (s : State) : Host.Outcome State Fault Refusal :=
  .next (s.alu (fmI64 vd (immI imm)) (plain2 mulI64))

/-- `min.i32 vd, #imm`. -/
def execMinI32Imm (vd : BitVec 7) (imm : BitVec 16) (s : State) : Host.Outcome State Fault Refusal :=
  .next (s.alu (fmI32 vd (immI32 imm)) (plain2 minI32))

/-- `max.i32 vd, #imm`. -/
def execMaxI32Imm (vd : BitVec 7) (imm : BitVec 16) (s : State) : Host.Outcome State Fault Refusal :=
  .next (s.alu (fmI32 vd (immI32 imm)) (plain2 maxI32))

/-- `min.n32 vd, #imm`. -/
def execMinN32Imm (vd : BitVec 7) (imm : BitVec 16) (s : State) : Host.Outcome State Fault Refusal :=
  .next (s.alu (fmI32 vd (immN imm)) (plain2 minN32))

/-- `max.n32 vd, #imm`. -/
def execMaxN32Imm (vd : BitVec 7) (imm : BitVec 16) (s : State) : Host.Outcome State Fault Refusal :=
  .next (s.alu (fmI32 vd (immN imm)) (plain2 maxN32))

end Sys2Proof.Machine
end

