-- ==== Sys2Proof/Machine/Main.lean ====
section
/-! DEFINITION. Main memory: the forms of a 64-bit address, translation in a context's address space, the homes of
main memory, and translation requests (chapter 02). -/

namespace Sys2Proof.Machine

open Sys2Proof

/-! ## Address forms (R30) -/

/-- What a 64-bit address names. -/
inductive AddrForm where
  | main (a : Nat)
  | sh (off : Nat)
  | die (off : Nat)
  | fl (off : Nat)
  | bad
deriving DecidableEq, Repr

/-- R30. -/
def addrForm (a : Nat) : AddrForm :=
  if bitsOf a 63 57 = 0 then .main a
  else if bitsOf a 63 60 = 15 ∧ bitsOf a 55 32 = 0 then
    match bitsOf a 59 56 with
    | 1 => .sh (bitsOf a 31 0)
    | 2 => .die (bitsOf a 31 0)
    | 3 => .fl (bitsOf a 31 0)
    | _ => .bad
  else .bad

/-- A main virtual address, and its range inside the 57-bit space. -/
def isMain (a : Nat) : Bool := decide (a < 2 ^ 57)

/-! ## Homes and translation (R31 to R34) -/

/-- Where a byte of main memory lives. -/
inductive Place where
  | device (frame : Nat)
  | peer (module addr : Nat)
  | host (pasid addr : Nat)
deriving DecidableEq, Repr

/-- What a translation gives. -/
inductive Xlated where
  | found (p : Place) (writable : Bool)
  /-- A host-homed page that has no translation (R34): an address that no mapping of the device page table covers, and
  that none covered before an unmapping, is host-homed (notes/assumptions/15.md). -/
  | hostAbsent
  /-- No translation of a device-homed or peer page, whose mapping a record has taken away, or of an address that no
  page of the 57-bit space holds (R34; notes/assumptions/15.md, 84.md). -/
  | deviceAbsent
deriving DecidableEq, Repr

/-- The smallest page, in which host pages are counted (R25). -/
def pageBytes : Nat := 65536

/-- A page of the device page table covers an address. -/
def Page.covers (p : Page) (a : Nat) : Bool := decide (p.base ≤ a) && decide (a < p.base + p.size)

/-- Where a page holds an address. -/
def Page.place (p : Page) (a : Nat) : Place :=
  if p.home = 2 then .peer p.peer (p.frame + (a - p.base)) else .device (p.frame + (a - p.base))

/-- The PASID of a context. -/
def State.pasid (s : State) (ctx : Nat) : Nat :=
  match Table.get? s.contexts ctx with
  | some x => x.pasid
  | none => 0

/-- A host page as a translation finds it: held by a TLB, or answered by ATS from the host's page table. -/
def State.hostPage? (s : State) (pasid page : Nat) : Option HostPage :=
  match Table.get? ((Table.get? s.tlb pasid).getD []) page with
  | some h => some h
  | none => Table.get? ((Table.get? s.hostPages pasid).getD []) page

/-- The pages of a context, and the ranges whose device-homed or peer pages have been unmapped. -/
def State.pages (s : State) (ctx : Nat) : List Page :=
  match Table.get? s.contexts ctx with | some x => x.pages | none => []
def State.gone (s : State) (ctx : Nat) : List (Nat × Nat) :=
  match Table.get? s.contexts ctx with | some x => x.gone | none => []

/-- The translation of one main virtual address (R31, R32). -/
def State.translate (s : State) (ctx a : Nat) : Xlated :=
  if !isMain a then .deviceAbsent
  else match (s.pages ctx).find? (fun p => p.covers a) with
  | some p => .found (p.place a) p.writable
  | none =>
    match s.hostPage? (s.pasid ctx) (a / pageBytes) with
    | some h => .found (.host (s.pasid ctx) a) h.writable
    | none =>
      if (s.gone ctx).any (fun g => decide (g.1 ≤ a) && decide (a < g.1 + g.2)) then .deviceAbsent else .hostAbsent

/-- A translation that has been used stays in the TLBs until an invalidation (R33). -/
def State.fillTlb (s : State) (ctx a : Nat) : State :=
  match s.translate ctx a with
  | .found (.host p _) w =>
    let t := (Table.get? s.tlb p).getD []
    { s with tlb := Table.put s.tlb p (Table.put t (a / pageBytes) { writable := w }) }
  | _ => s

/-- What stops an access to main memory (R34, R336). -/
inductive MainFault where
  /-- A host-homed page, to be served by duty row 0. -/
  | absent (page : Nat)
  /-- No translation of a device-homed or peer page: unresolved at once. -/
  | unresolved
  | perm
  /-- A peer page whose module can no longer be reached (R336). -/
  | down (peer : Nat)
  /-- Host memory behind a host link that is down (R348). -/
  | lost
deriving DecidableEq, Repr

/-- The twelve ports of the module, of which one that has not changed stands at its full width (R335, R336). -/
def State.portUp (s : State) (n : Nat) : Bool :=
  match Table.get? s.ports n with
  | some p => p.width ≠ 0
  | none => true

/-- A peer module can no longer be reached (R336): every port that leads to it is down, or, for a module that no port
lists, every port of the module (notes/assumptions/85.md). -/
def State.peerDown (s : State) (m : Nat) : Bool :=
  let via := (s.ports.filter (fun e => e.2.peers.contains m)).map (·.1)
  if via = [] then (List.range 12).all (fun n => !s.portUp n) else via.all (fun n => !s.portUp n)

/-- What stops an access to one byte. -/
def State.byteFault (s : State) (ctx a : Nat) (write : Bool) : Option MainFault :=
  match s.translate ctx a with
  | .hostAbsent => if s.link = .down then some .lost else some (.absent (a / pageBytes * pageBytes))
  | .deviceAbsent => some .unresolved
  | .found p w =>
    match p with
    | .host _ _ => if s.link = .down then some .lost else if write && !w then some .perm else none
    | .peer m _ => if write && !w then some .perm else if s.peerDown m then some (.down m) else none
    | .device _ => if write && !w then some .perm else none

/-- The 64 KiB pages that a range touches, by an address in each. -/
def pagesOf (a n : Nat) : List Nat :=
  if n = 0 then []
  else (List.range ((a + n - 1) / pageBytes - a / pageBytes + 1)).map (fun i =>
    if i = 0 then a else (a / pageBytes + i) * pageBytes)

/-- An access of an engine to main memory, of kind 0 to 2, asks each peer module that homes a part of it (R335). -/
def State.askPeers (s : State) (ctx a n kind : Nat) : State :=
  (pagesOf a n).foldl (fun (t : State) b =>
    match t.translate ctx b with
    | .found (.peer m p) _ => t.send (.peerRequest m p (Nat.min (a + n) ((b / pageBytes + 1) * pageBytes) - b) kind)
    | _ => t) s

/-- The first thing that stops an access to a range. -/
def State.mainFault (s : State) (ctx a n : Nat) (write : Bool) : Option MainFault :=
  (pagesOf a n).findSome? (fun b => s.byteFault ctx b write)

/-- One byte at a place. -/
def State.readPlace (s : State) : Place → Byte
  | .device f => Mem.read s.devMem f
  | .peer m a => Mem.read ((Table.get? s.peerMem m).getD []) a
  | .host p a => Mem.read ((Table.get? s.hostMem p).getD []) a

/-- The state with one byte at a place written; a poisoned byte that is overwritten is so no longer (R345). -/
def State.writePlace (s : State) (p : Place) (b : Byte) : State :=
  match p with
  | .device f => { s with devMem := Mem.write s.devMem f b, mainPoison := s.mainPoison.filter (· ≠ f) }
  | .peer m a => { s with peerMem := Table.put s.peerMem m (Mem.write ((Table.get? s.peerMem m).getD []) a b) }
  | .host q a => { s with hostMem := Table.put s.hostMem q (Mem.write ((Table.get? s.hostMem q).getD []) a b) }

/-- One byte of a context's address space; a byte without a translation is never read by the callers. -/
def State.mainByte (s : State) (ctx a : Nat) : Byte :=
  match s.translate ctx a with
  | .found p _ => s.readPlace p
  | _ => unlistedByte

/-- A run of bytes of a context's address space. -/
def State.readMain (s : State) (ctx a n : Nat) : List Byte := (List.range n).map (fun i => s.mainByte ctx (a + i))

/-- The state with a run of bytes of a context's address space written. -/
def State.writeMain (s : State) (ctx a : Nat) (bs : List Byte) : State :=
  bs.zipIdx.foldl (fun (t : State) b =>
    match t.translate ctx (a + b.2) with
    | .found p _ => t.writePlace p b.1
    | _ => t) s

/-- A run of device bytes holds an uncorrectable error (R345). -/
def State.mainPoisoned (s : State) (ctx a n : Nat) : Bool :=
  !s.mainPoison.isEmpty && (List.range n).any (fun i =>
    match s.translate ctx (a + i) with
    | .found (.device f) _ => s.mainPoison.any (fun p => p / 64 = f / 64)
    | _ => false)

/-! ## Translation requests (R35, R36) -/

/-- A context has lost its host, or the link has not trained (R313, R348). -/
def State.hostUp (s : State) : Bool := s.link = .pcie || s.link = .cxl

/-- A fault on a page is raised: it joins the request in flight on its page, or becomes a new one (R35, R36). None
when the class has no worker, or the host is lost: the fault is then unresolved (R22, R348). -/
def State.raiseXlate (s : State) (ctx page kind : Nat) (who : Option (Nat × Nat)) : Option Nat × State :=
  match s.xlates.find? (fun e => e.2.ctx = ctx && e.2.page = page) with
  | some e => if e.2.unresolved then (none, s) else (some e.1, s)
  | none =>
    if !s.hostUp then (none, s)
    else
      let row := s.dutyRow ctx 0
      let id := s.nextId
      let s := { s with nextId := id + 1 }
      let who' := match who with | some w => s.affected w.1 w.2 | none => {}
      let req : XlateReq :=
        { ctx := ctx, page := page, kind := kind, call := none, deadline := s.now + rowDeadline row * cyclesPerUs,
          retried := false, tid := who, queues := [], unresolved := false }
      if rowAssisted row then
        if s.rowServed ctx 0 then
          let r := s.dutyCall ctx 0 who' [BitVec.ofNat 64 page, BitVec.ofNat 64 kind] (.xlate id)
          (some id, { r.2 with xlates := Table.put r.2.xlates id { req with call := some r.1 } })
        else (none, s)
      else
        (some id, { s.send (.pageRequest (s.pasid ctx) page) with xlates := Table.put s.xlates id req })

/-- What an access to a range of main memory meets now. -/
inductive MainReady where
  | ok
  | waits (req : Nat)
  | perm
  | unresolved
  | down (peer : Nat)
  | lost
deriving DecidableEq, Repr

/-- The code of an access that cannot be made: an unresolved fault, a page that is not writable (R34), a port that is
down (R336), a host that is lost (R348). -/
def MainReady.code : MainReady → Code
  | .perm => Code.xlatePerm
  | .down _ => Code.hingeDown
  | .lost => Code.hostLost
  | _ => Code.xlateUnres

/-- What the code comes with: the peer module of HINGE_DOWN (Table 22.4), the address of the others (Table 10.4). -/
def MainReady.info (f : MainReady) (a : Nat) : Nat :=
  match f with
  | .down m => m
  | _ => a

/-- An access to a range: ready, or a request raised or joined, or a fault (R34). -/
def State.readyMain (s : State) (ctx a n kind : Nat) (who : Option (Nat × Nat)) : MainReady × State :=
  match s.mainFault ctx a n (kind ≠ 0) with
  | none => (.ok, (pagesOf a n).foldl (fun (t : State) b => t.fillTlb ctx b) s)
  | some .perm => (.perm, s)
  | some (.down m) => (.down m, s)
  | some .unresolved => (.unresolved, s)
  | some .lost => (.lost, s)
  | some (.absent page) =>
    match s.raiseXlate ctx page kind who with
    | (some r, s) => (.waits r, s)
    | (none, s) => (.unresolved, s)

end Sys2Proof.Machine
end

