-- ==== Sys2Proof/Machine/Overlay.lean ====
section
/-! DEFINITION. The overlay engine: resident groups of a cluster's scratchpad, misses and fetches, the call-graph
prefetcher, and what a failed digest does (R190 to R196). -/

namespace Sys2Proof.Machine

open Sys2Proof

/-- Bytes of an overlay group (R187). -/
def groupBytes : Nat := 65536

/-- The group of a code offset, and the offset in it (R187). -/
def groupOf (off : Nat) : Nat := off / groupBytes
def inGroup (off : Nat) : Nat := off % groupBytes

/-- The length of a group of an object; a group that the object does not have holds no byte. -/
def CodeObject.groupLen (o : CodeObject) (g : Nat) : Nat := o.groups.getD g 0

/-- A resident group of a cluster (R191). -/
def Cluster.frame? (k : Cluster) (ctx obj group : Nat) : Option Frame :=
  k.frames.find? (fun f => f.ctx = ctx && f.obj = obj && f.group = group)

/-- The frames of 4 KiB that a group occupies (R191). -/
def framesOf (len : Nat) : Nat := (len + 4095) / 4096

/-- Frames in use. -/
def framesUsed (fs : List Frame) : Nat := (fs.map (fun f => framesOf f.len)).sum

/-- Groups are evicted, the oldest first, until as many frames are free as a group needs (R192). -/
def evictFor (need : Nat) : List Frame → List Frame
  | [] => []
  | f :: fs => if framesUsed (f :: fs) + need ≤ 64 then f :: fs else evictFor need fs

/-- A group is being fetched for the cluster. -/
def Cluster.fetching (k : Cluster) (ctx obj group : Nat) : Bool :=
  k.fetches.any (fun f => f.ctx = ctx && f.obj = obj && f.group = group)

/-- The group is marked failed for a launch (R195). -/
def State.groupFailed (s : State) (l obj group : Nat) : Bool :=
  match Table.get? s.launches l with
  | some x => x.failedGroups.contains (obj, group)
  | none => false

/-- The crews of a launch that are resident. -/
def State.launchCrews (s : State) (l : Nat) : List (Nat × Crew) :=
  s.crews.filter (fun e => e.2.launch = l && !e.2.killed)

/-- CODE_HASH ends the launch (R195, R196): no further crew starts, every crew of it ends at once, and the record waits
for the launch's completion, with the thread that it is about (R330). Only the first one of a launch is recorded. -/
def State.hashEnd (s : State) (l : Nat) (cr : Crew) (tid addr info : Nat) : State :=
  let s := s.modLaunch l (fun x =>
    { x with
      cut := true
      killed := firstKill x.killed Code.codeHash s.tick cr.index
      hashRecord := match x.hashRecord with
        | some r => some r
        | none => some (s.crewRecord cr Code.codeHash 1 info addr 0, tid) })
  let s := s.modContext cr.ctx (fun x => { x with saved := x.saved.filter (fun v => v.launch ≠ l) })
  (s.launchCrews l).foldl (fun (s : State) e => (s.saveKilled e.2 Code.codeHash).endCrew e.1) s

/-- A thread needs a group that failed its digest: ADDR is the instruction that went there, or the target for an entry
or a restore; INFO holds the group and the target offset (R195). A prefix that ends a group falls through to its base word
in the next: the prefixed pair is then the instruction, and the base word the target. -/
def State.codeHash (s : State) (c tid group : Nat) : State :=
  match s.crew? c with
  | none => s
  | some cr => match Table.get? cr.threads tid with
    | none => s
    | some th =>
      let pc := th.pc.toNat
      let within := groupOf pc = group
      let target := if within then pc else group * groupBytes
      let addr := if within then (match th.cameFrom with | some a => a.toNat | none => pc) else pc
      s.hashEnd cr.launch cr tid addr (group + target * 2 ^ 32)

/-- The threads on a cluster that are parked on a group, with their crews. -/
def State.missers (s : State) (die cluster ctx obj group : Nat) : List (Nat × Nat) :=
  s.crews.flatMap (fun e =>
    if e.2.ctx = ctx && e.2.obj = obj && e.2.die = die then
      e.2.threads.filterMap (fun t =>
        if t.2.wait = some (.overlay group) && e.2.homeCluster t.2 = cluster then some (e.1, t.1) else none)
    else [])

/-- A cluster without a fetch. -/
def Cluster.dropFetch (k : Cluster) (ctx obj group : Nat) : Cluster :=
  { k with fetches := k.fetches.filter (fun f => !(f.ctx = ctx && f.obj = obj && f.group = group)) }

/-- The fetch cannot be completed: every thread parked on it takes CODE_FETCH, which is fatal (R193). -/
def State.fetchFailed (s : State) (die cluster ctx obj group : Nat) : State :=
  let ws := s.missers die cluster ctx obj group
  let s := s.modCluster die cluster (fun k => k.dropFetch ctx obj group)
  ws.foldl (fun (s : State) w =>
    match s.thread? w.1 w.2 with
    | some th => s.killCrew w.1 Code.codeFetch group th.pc.toNat w.2
    | none => s) s

/-- A fetch of a group starts for a cluster, or joins the one in flight (R192, R193). None when it fails at once: row 1
is host-assisted and its class holds no attendant-core worker (R21). -/
def State.startFetch (s : State) (die cluster ctx obj group launch crew tid : Nat) (prefetch : Bool) :
    Option State :=
  if (s.cluster die cluster).fetching ctx obj group then some s
  else
    let put := fun (s : State) (call : Option Nat) =>
      s.modCluster die cluster (fun k =>
        { k with fetches := k.fetches ++
            [{ ctx := ctx, obj := obj, group := group, launch := launch, prefetch := prefetch, xlate := none,
               call := call }] })
    if rowAssisted (s.dutyRow ctx 1) then
      if s.rowServed ctx 1 then
        let oaddr := match s.object? ctx obj with | some o => o.addr | none => 0
        let r := s.dutyCall ctx 1 (s.affected crew tid) [BitVec.ofNat 64 obj, BitVec.ofNat 64 group, BitVec.ofNat 64 oaddr]
          (.overlay die cluster obj group)
        some (put r.2 (some r.1))
      else none
    else some (put s none)

/-- A thread misses a group: it parks until the group is resident (R191, R192), or takes the fatal trap of a failed
group. -/
def State.overlayMiss (s : State) (c tid cluster group : Nat) : State :=
  match s.crew? c with
  | none => s
  | some cr =>
    if s.groupFailed cr.launch cr.obj group then s.codeHash c tid group
    else
      let s := s.modThread c tid (fun th => { th with wait := some (.overlay group) })
      match s.startFetch cr.die cluster cr.ctx cr.obj group cr.launch c tid false with
      | some s => s
      | none => s.fetchFailed cr.die cluster cr.ctx cr.obj group

/-- The bytes of a group: from the object in main memory, or, for an object that the loader has translated, from the
words that it keeps, which no translation of addresses reaches (notes/assumptions/86.md). -/
def State.groupData (s : State) (ctx : Nat) (o : CodeObject) (group : Nat) : List Byte :=
  match o.translated with
  | some bs => (bs.drop (group * groupBytes)).take (o.groupLen group)
  | none => s.readMain ctx (o.addr + o.codeOff + group * groupBytes) (o.groupLen group)

/-- The groups that a fetch may displace: any, the oldest first (R192); for a prefetch that no thread waits for, those that
were prefetched and never issued from (R194). -/
def framesFor (prefetch : Bool) (need : Nat) (fs : List Frame) : List Frame :=
  if prefetch then
    let stay := evictFor (need + framesUsed (fs.filter (fun f => !f.prefetched))) (fs.filter (·.prefetched))
    fs.filter (fun f => !f.prefetched || stay.contains f)
  else evictFor need fs

/-- A group is installed, and the threads parked on it go on (R192). A prefetch that finds no frame left for it installs
nothing (R194). -/
def State.installGroup (s : State) (die cluster ctx obj group : Nat) (bs : List Byte) (prefetch : Bool) : State :=
  let ws := s.missers die cluster ctx obj group
  let pre := prefetch && ws.isEmpty
  let s := s.modCluster die cluster (fun k =>
    let fs := framesFor pre (framesOf bs.length) k.frames
    if pre && decide (64 < framesUsed fs + framesOf bs.length) then k.dropFetch ctx obj group
    else
      { k.dropFetch ctx obj group with
        frames := fs ++
          [{ ctx := ctx, obj := obj, group := group, len := bs.length, bytes := Mem.writeBytes [] 0 bs,
             prefetched := pre }] })
  ws.foldl (fun (s : State) w => s.modThread w.1 w.2 (fun th => { th with wait := none })) s

/-- A digest differs: the group is failed for the fetch's launch and for every launch with a thread parked on it, and
each of those threads takes CODE_HASH (R195). -/
def State.digestFailed (s : State) (die cluster ctx obj group launch : Nat) : State :=
  let ws := s.missers die cluster ctx obj group
  let ls := (launch :: ws.filterMap (fun w => (s.crew? w.1).map (·.launch))).eraseDups
  let s := s.modCluster die cluster (fun k => k.dropFetch ctx obj group)
  let s := ls.foldl (fun (s : State) l =>
    s.modLaunch l (fun x => { x with failedGroups := if (obj, group) ∈ x.failedGroups then x.failedGroups
                                                     else x.failedGroups ++ [(obj, group)] })) s
  ws.foldl (fun (s : State) w => s.codeHash w.1 w.2 group) s

/-- The fetch has every byte: SHA-384 over exactly what it installs decides (R190, R192). -/
def State.finishFetch (s : State) (die cluster ctx obj group launch : Nat) (prefetch : Bool) : State :=
  match s.object? ctx obj with
  | none => s.fetchFailed die cluster ctx obj group
  | some o =>
    let bs := s.groupData ctx o group
    if Config.sha384 bs = o.digests.getD group 0#384 then s.installGroup die cluster ctx obj group bs prefetch
    else s.digestFailed die cluster ctx obj group launch

/-- A fetch of the overlay engine goes on (R192, R193): a translation fault is served first, and one that stays
unresolved, or an uncorrectable error, fails it. A worker's fetch is finished by its reply. -/
def State.stepFetch (s : State) (die cluster : Nat) (f : Fetch) : State :=
  if f.call.isSome || f.xlate.isSome then s
  else match s.object? f.ctx f.obj with
    | none => s.fetchFailed die cluster f.ctx f.obj f.group
    | some o =>
      let at0 := o.addr + o.codeOff + f.group * groupBytes
      if o.translated.isSome then s.finishFetch die cluster f.ctx f.obj f.group f.launch f.prefetch
      else match s.readyMain f.ctx at0 (o.groupLen f.group) 0 none with
        | (.ok, s) =>
          if s.mainPoisoned f.ctx at0 (o.groupLen f.group) then s.fetchFailed die cluster f.ctx f.obj f.group
          else s.finishFetch die cluster f.ctx f.obj f.group f.launch f.prefetch
        | (.waits r, s) =>
          s.modCluster die cluster (fun k =>
            { k with fetches := k.fetches.map (fun g => if g = f then { g with xlate := some r } else g) })
        | (_, s) => s.fetchFailed die cluster f.ctx f.obj f.group

/-- Frames that a prefetch may use: free ones, and those of groups prefetched and never issued from (R194), less the
frames that the fetches in flight take. -/
def State.prefetchRoom (s : State) (k : Cluster) : Nat :=
  64 - framesUsed (k.frames.filter (fun f => !f.prefetched)) -
    (k.fetches.map (fun f => framesOf (match s.object? f.ctx f.obj with
      | some o => o.groupLen f.group
      | none => 0))).sum

/-- The call-graph prefetcher, for a call to a function that has a successor entry (R194). -/
def State.callPrefetch (s : State) (c cluster target : Nat) : State :=
  match s.crew? c with
  | none => s
  | some cr => match s.object? cr.ctx cr.obj with
    | none => s
    | some o =>
      ((Table.get? o.succ target).getD []).foldl (fun (s : State) f =>
        let g := groupOf f
        let k := s.cluster cr.die cluster
        if (k.frame? cr.ctx cr.obj g).isSome || k.fetching cr.ctx cr.obj g || s.groupFailed cr.launch cr.obj g ||
            decide (s.prefetchRoom k < framesOf (o.groupLen g)) then s
        else (s.startFetch cr.die cluster cr.ctx cr.obj g cr.launch c 0 true).getD s) s

/-- The bytes of a resident group's word. -/
def Frame.word (f : Frame) (off : Nat) : Word := BitVec.ofNat 32 (Mem.readNat f.bytes off 4)

/-- OVERLAY_FETCH_COMPLETE (R192): the oldest fetch of the group for the cluster. -/
def execOverlayFetchComplete (die cluster obj group : Nat) (s : State) : Host.Outcome State Fault Refusal :=
  .next (match (s.cluster die cluster).fetches.find? (fun f => f.obj = obj && f.group = group) with
    | some f => s.stepFetch die cluster f
    | none => s)

end Sys2Proof.Machine
end

