-- ==== Sys2Proof/Machine/LocalMem.lean ====
section
/-! DEFINITION. Local loads, stores and atomics (R26, R27, R152 to R156, R218, R219): majors 0x2C to 0x31. -/

namespace Sys2Proof.Machine

open Sys2Proof

/-! ## Addresses and their checks (R26, R27) -/

/-- The window in which an offset of a space falls: where it begins, and where it ends (Table 2.2). -/
def State.windowSpan (s : State) (cr : Crew) (sp : Space) (off : Int) : Int × Int :=
  match sp with
  | .stk => (0, cr.stackSize)
  | .sh => (0, cr.sharedSize)
  | .die =>
    if off < launchBase then (0, cr.window.size) else (launchBase, launchBase + (s.window cr launchBase).size)
  | .fl => (0, 4096 * cr.tiles.length)

/-- An access of n bytes lies in its window (R27). -/
def State.inBounds (s : State) (cr : Crew) (sp : Space) (off : Int) (n : Nat) : Bool :=
  let w := s.windowSpan cr sp off
  decide (w.1 ≤ off) && decide (off + n ≤ w.2)

/-- The bounds code of a space (Table 2.3). -/
def boundsCode : Space → Code
  | .stk => Code.boundsStk
  | .sh => Code.boundsSh
  | .die => Code.boundsDie
  | .fl => Code.boundsFl

/-- A 64-bit INFO word of an exact offset. -/
def offInfo (x : Int) : Nat := (BitVec.ofInt 64 x).toNat

/-- A trap of the bundle for the active lanes that fail a check, INFO taken from the lowest of them; none when no lane
fails. -/
def State.laneTrap (s : State) (code : Code) (bad : Lane → Thread → Bool) (info : Lane → Thread → Int) : Option State :=
  match s.activeLanes.find? (fun e => bad e.1 e.2) with
  | none => none
  | some e =>
    some (s.trap code (s.maskOf (fun x => s.cur.active x.1 x.2 && bad x.1 x.2)) (offInfo (info e.1 e.2)))

/-- R27 over the active lanes, for accesses of n bytes aligned to `al`: the bounds code first. -/
def State.addressTrap (s : State) (sp : Space) (n al : Nat) (addr : Lane → Thread → Int) : Option State :=
  match s.curCrew? with
  | none => none
  | some cr =>
    match s.laneTrap (boundsCode sp) (fun l th => !s.inBounds cr sp (addr l th) n) addr with
    | some t => some t
    | none => s.laneTrap Code.align (fun l th => decide (addr l th % al ≠ 0)) addr

/-- A trap of the bundle for the active lanes that fail a check, each with a code and an INFO of its own: the lowest of
them decides both (R27). -/
def State.codeTrap (s : State) (check : Lane → Thread → Option (Code × Nat)) : Option State :=
  match s.activeLanes.findSome? (fun e => check e.1 e.2) with
  | none => none
  | some (code, info) =>
    some (s.trap code (s.maskOf (fun x => s.cur.active x.1 x.2 && (check x.1 x.2).isSome)) info)

/-- The address of a lane: its register, and a signed count of access sizes (R26). -/
def lmAddr (va : BitVec 4) (off : BitVec 7) (n : Nat) (_l : Lane) (th : Thread) : Int :=
  ((th.read32 (va.setWidth 7)).toNat : Int) + off.toInt * n

/-! ## Reading a space as a thread sees it (R40, R218) -/

/-- The bytes that memory holds. -/
def State.readSpace (s : State) (cr : Crew) (th : Thread) (sp : Space) (off n : Nat) : List Byte :=
  match sp with
  | .stk => Mem.readBytes th.stack off n
  | .sh => Mem.readBytes cr.shared off n
  | .die => s.readDie cr off n
  | .fl => Mem.readBytes (cr.tile (off / 4096)).bytes (off % 4096) n

/-- A byte comes from the thread's FIFO. -/
def fifoCovers (fifo : List StoreEntry) (sp : Space) (a : Nat) : Bool :=
  fifo.any (fun e => e.space = sp && decide (e.addr ≤ a) && decide (a < e.addr + e.bytes.length))

/-- Where the marks of a space's errors stand for an access at an offset: the window offset of their first byte, the bytes
that one check covers, and the marked bytes (Table 23.1). An expired tile gives no byte (R218). -/
def State.marks (s : State) (cr : Crew) (th : Thread) (sp : Space) (off : Nat) : Nat × Nat × List Nat :=
  match sp with
  | .stk => (0, 8, th.stackPoison)
  | .sh => (0, 8, cr.shPoison)
  | .die => (off - inWindow off, 8, (s.window cr off).poison)
  | .fl => (off / 4096 * 4096, 4,
      if (cr.tile (off / 4096)).live s.tick then (cr.tile (off / 4096)).poison else [])

/-- The first unit that holds an uncorrectable error among those that memory supplies to a read, by what INFO reports:
the access's offset, or the word's offset in fleeting memory (R345, R227). A read that takes its place after the
thread's stores meets an error only in bytes that no store of the FIFO overwrites; any other takes the stored bytes from
the FIFO, and reads the rest. -/
def State.spacePoison (s : State) (cr : Crew) (th : Thread) (sp : Space) (off n : Nat) (drains : Bool) : Option Nat :=
  let m := s.marks cr th sp off
  if m.2.2 = [] then none
  else
    let bad := if drains then m.2.2.filter (fun p => !fifoCovers th.fifo sp (m.1 + p)) else m.2.2
    let hit := fun i => (drains || !fifoCovers th.fifo sp (off + i)) &&
      bad.any (fun p => p / m.2.1 = (off + i - m.1) / m.2.1)
    ((List.range n).find? hit).map (fun i => if sp = .fl then (off + i) / 4 * 4 else off)

/-- The code of an error in a space (Table 23.1). -/
def poisonCode : Space → Code
  | .stk => Code.ueDie
  | .sh => Code.ueSh
  | .die => Code.ueDie
  | .fl => Code.flParity

/-- What stands in the way of a lane's access: an absent line of the die store or of a stack that a restore has not
filled, or a line that a copy failed to write (R19, R152). -/
inductive LineState where
  | ready
  | faulted
  | waits (w : Wait)
deriving DecidableEq, Repr

/-- R19 for one access; it never spans two lines (R153). -/
def State.lineState (s : State) (cr : Crew) (th : Thread) (sp : Space) (off : Nat) : LineState :=
  match sp with
  | .die =>
    let l := s.dieLine cr off
    if l.faulted then .faulted else if l.present then .ready else .waits (.line off)
  | .stk => if th.stackAbsent.contains (off / 64) then .waits (.stackLine (off / 64)) else .ready
  | _ => .ready

/-- The error that the lowest active lane would read whose line is there (R19), by its INFO and its thread. -/
def State.lanePoison (s : State) (sp : Space) (n : Nat) (drains : Bool) (addr : Lane → Thread → Int) :
    Option (Nat × Nat) :=
  match s.curCrew? with
  | none => none
  | some cr => s.firstPoison (fun l th =>
      let off := (addr l th).toNat
      if s.lineState cr th sp off = .ready then s.spacePoison cr th sp off n drains else none)

/-- An error that a lane meets when it acts, after older stores of its own and of the lower lanes have performed (R41,
R218): its crew stops. -/
def State.unlessPoisoned (s : State) (sp : Space) (n off tid : Nat) (go : State → State) : State :=
  match s.curCrew? with
  | none => s
  | some cr => match Table.get? cr.threads tid with
    | none => s
    | some th =>
      match if s.lineState cr th sp off = .ready then s.spacePoison cr th sp off n false else none with
      | some info => s.consume (poisonCode sp) (info, tid)
      | none => go s

/-- No lane performs an instruction of which one lane consumed an error (R349): the state before it, with the crew
stopped. -/
def State.unlessConsumed (s t : State) : State :=
  match s.curCrew?, t.curCrew? with
  | some x, some y =>
    match if x.consumed = none then y.consumed else none with
    | some (code, info, _) => s.consume code (info, y.consumedTid)
    | none => t
  | _, _ => t

/-! ## One lane at a time, in ascending thread id (R41) -/

/-- A lane completes, with its results and the advance of its index registers (R64). -/
def State.finishLane (s : State) (tid : Nat) (mode : ResultMode) (rs : Results) (os : List Opnd) : State :=
  s.modThread s.cur.crew tid (fun th => (th.commit s.cur.length mode rs).advanceIx os)

/-- The threads that issue and are inactive complete: with zeros under mz, and otherwise with nothing. In a bundle whose
lanes are all active there is none. -/
def State.skipInactive (s : State) (mode : ResultMode) (zero : Thread → Results) : State :=
  if s.curLanes.all (fun e => s.cur.active e.1 e.2) then s
  else s.mapLanes (fun l th =>
    if s.cur.active l th then th
    else th.commit s.cur.length mode (if s.cur.mz then zero th else []))

/-- The active lanes act one after another; the inactive ones complete. -/
def State.lanewise (s : State) (mode : ResultMode) (zero : Thread → Results) (f : State → Lane → Thread → State) :
    State :=
  s.activeLanes.foldl (fun (t : State) e => f t e.1 e.2) (s.skipInactive mode zero)

/-- The thread still stands at the bundle's instruction: it has not been taken away by a trap of an older store. -/
def State.stillHere (s : State) (tid : Nat) : Bool :=
  match s.thread? s.cur.crew tid with
  | some th => !th.ended && th.pc = s.cur.pc
  | none => false

/-- The registers that a 32-bit or narrower, or a 64-bit, result of a field goes to. -/
def Thread.loadResults (th : Thread) (f : BitVec 7) (wide : Bool) (v : Dword) : Results :=
  if wide then [(.reg (th.regOf f), lo32 v), (.reg (th.regHiOf f), hi32 v)] else [(.reg (th.regOf f), lo32 v)]

/-- p6 as a result (R152, R156). -/
def p6Result (b : Bool) : ResultName × Word := (.p6, if b then 1#32 else 0#32)

/-- A lane's access meets its line (R19): it goes on, parks, or takes COPY_FAULT. -/
def State.withLine (s : State) (tid : Nat) (sp : Space) (off : Nat) (go : State → State) : State :=
  match s.crew? s.cur.crew with
  | none => s
  | some cr => match Table.get? cr.threads tid with
    | none => s
    | some th =>
      match s.lineState cr th sp off with
      | .faulted => s.trapLane tid Code.copyFault (off / 64 * 64)
      | .waits w => s.park s.cur.crew tid w
      | .ready => go s

/-- A lane whose FIFO must be empty, of one space or of all, before it goes on (R44, R218): it parks while an older
store waits for its line. -/
def State.drained (s : State) (tid : Nat) (only : Option Space) (w : Wait) (go : State → State) : State :=
  let pending := fun (s : State) => match s.thread? s.cur.crew tid with
    | some th => th.fifo.any (fun e => match only with | some sp => e.space = sp | none => true)
    | none => false
  if !pending s then go s
  else
    let s := s.drainFifo s.cur.crew tid
    if !s.stillHere tid then s
    else if pending s then s.park s.cur.crew tid w
    else go s

/-- A lane with a lower thread id of the bundle's instruction has not entered its store, or made its access, to some of
the same bytes (R41). -/
def Crew.laneBehind (cr : Crew) (seq tid : Nat) (sp : Space) (off n : Nat) : Bool :=
  sp ≠ .stk && cr.threads.any (fun t => decide (t.1 < tid) && t.2.parkIssue = seq &&
    match t.2.wait with
    | some (.ordered sp' o m) => sp' = sp && overlaps o m off n
    | some (.line o) => sp = .die && o / 64 = off / 64
    | _ => false)

/-- A store or an atomic of a lane takes its turn among the lanes of its instruction (R41). -/
def State.inLaneOrder (s : State) (tid : Nat) (sp : Space) (off n : Nat) (go : State → State) : State :=
  match s.curCrew? with
  | none => s
  | some cr =>
    if cr.laneBehind s.cur.seq tid sp off n then s.park s.cur.crew tid (.ordered sp off n) else go s

/-- A load of a lane (R152, R218). -/
def State.loadLane (s : State) (sp : Space) (n off : Nat) (vd : BitVec 7) (la : Nat) (os : List Opnd) (tid : Nat) : State :=
  s.withLine tid sp off fun s =>
    match s.crew? s.cur.crew with
    | none => s
    | some cr => match Table.get? cr.threads tid with
      | none => s
      | some th =>
        let wide := decide (n = 8)
        if sp = .fl then
          let k := off / 4096
          if (cr.tile k).live s.tick then
            s.finishLane tid (.after la)
              (th.loadResults vd wide (BitVec.ofNat 64 (leNat (forwardedBytes th.fifo sp off (s.readSpace cr th sp off n)))) ++
                [p6Result false]) os
          else
            (s.modCrew s.cur.crew (fun x => x.modTile k Tile.missed)).finishLane tid (.after la)
              (th.loadResults vd wide 0#64 ++ [p6Result true]) os
        else
          s.finishLane tid (.after la)
            (th.loadResults vd wide (BitVec.ofNat 64 (leNat (forwardedBytes th.fifo sp off (s.readSpace cr th sp off n))))) os

/-- A strong load takes no byte from a release store of its own thread that has not performed: every thread sees each
strong store at the same point (R48). -/
def Thread.awaitsStrong (th : Thread) (sp : Space) (off n : Nat) : Bool :=
  th.fifo.any (fun e => e.strong && e.space = sp && overlaps e.addr e.bytes.length off n)

/-- A lane's load takes its place after its thread's older stores: a fleeting one (R218), and a strong one of bytes of a
release store (R48). -/
def Thread.loadDrains (th : Thread) (sp : Space) (off n : Nat) (strong : Bool) : Bool :=
  sp = .fl || (strong && th.awaitsStrong sp off n)

/-- The error that a load would meet in the lanes that do not wait for their older stores. -/
def State.loadPoison (s : State) (sp : Space) (n : Nat) (strong : Bool) (addr : Lane → Thread → Int) :
    Option (Nat × Nat) :=
  match s.curCrew? with
  | none => none
  | some cr => s.firstPoison (fun l th =>
      let off := (addr l th).toNat
      if !th.loadDrains sp off n strong && s.lineState cr th sp off = .ready then s.spacePoison cr th sp off n false
      else none)

/-- Loads of the active lanes (R152). A fleeting load takes its place after the thread's older fleeting stores
(R218). -/
def State.loads (s : State) (sp : Space) (n : Nat) (vd : BitVec 7) (la : BitVec 4) (strong : Bool)
    (addr : Lane → Thread → Int) (l : Legality) : State :=
  s.guarded l fun s =>
    match s.addressTrap sp n n addr with
    | some t => t
    | none =>
      match s.loadPoison sp n strong addr with
      | some x => s.consume (poisonCode sp) x
      | none =>
        let t := s.lanewise (.after la.toNat) (fun th => th.loadResults vd (n = 8) 0#64) fun t ln th =>
          let off := (addr ln th).toNat
          if th.loadDrains sp off n strong then
            t.drained ln.tid (some sp) .fence fun t =>
              t.unlessPoisoned sp n off ln.tid fun t => t.loadLane sp n off vd la.toNat l.opnds ln.tid
          else t.loadLane sp n off vd la.toNat l.opnds ln.tid
        if sp = .fl || strong then s.unlessConsumed t else t

/-- The low n bytes of a store's register or pair. -/
def Thread.storeBytes (th : Thread) (vs : BitVec 7) (n : Nat) : List Byte :=
  leBytes (if n = 8 then (th.read64 vs).toNat else (th.read32 vs).toNat) n

/-- The entry that a store of the bundle's instruction makes. -/
def State.storeEntry (s : State) (sp : Space) (off : Nat) (bs : List Byte) (strong : Bool := false) : StoreEntry :=
  { space := sp, addr := off, bytes := bs, pc := s.cur.pc, word := s.cur.word, pfx := s.cur.pfxWord, strong := strong,
    group := s.cur.seq }

/-- A store enters its thread's FIFO; one that finds the FIFO full of stores that cannot perform parks (R40). -/
def State.enterStore (s : State) (tid : Nat) (e : StoreEntry) (go : State → State) : State :=
  let depth := match s.thread? s.cur.crew tid with | some th => th.fifo.length | none => 0
  if depth < fifoDepth then go (s.enterFifo s.cur.crew tid e)
  else
    let r := s.drainHead s.cur.crew tid
    if !r.1.stillHere tid then r.1
    else if !r.2 then r.1.park s.cur.crew tid (.ordered e.space e.addr e.bytes.length)
    else go (r.1.enterFifo s.cur.crew tid e)

/-- Stores of the active lanes (R152, R41). -/
def State.stores (s : State) (sp : Space) (n : Nat) (vs : BitVec 7) (strong : Bool) (addr : Lane → Thread → Int)
    (l : Legality) : State :=
  s.guarded l fun s =>
    match s.addressTrap sp n n addr with
    | some t => t
    | none =>
      s.lanewise .now (fun _ => []) fun t ln th =>
        let off := (addr ln th).toNat
        t.withLine ln.tid sp off fun t =>
          t.inLaneOrder ln.tid sp off n fun t =>
            t.enterStore ln.tid (t.storeEntry sp off (th.storeBytes vs n) strong) fun t =>
              t.finishLane ln.tid .now [] l.opnds

/-! ## The LM and LO forms -/

/-- Access sizes in bytes (Table 4.2). -/
def sizeOf2 (sz : BitVec 2) : Nat := 2 ^ sz.toNat

/-- The spaces of the sp field; 00 is reserved (Table 4.2). -/
def spaceOf (sp : BitVec 2) : Space :=
  match sp.toNat with
  | 2 => .die
  | 3 => .fl
  | _ => .sh

/-- Loads take mz; stores do not (Table 4.5). -/
def loadClass (rnd : RndUse) : PfxClass := { accepts := true, mz := true, rnd := rnd, vc := false }
def storeClass (rnd : RndUse) : PfxClass := { accepts := true, mz := false, rnd := rnd, vc := false }

/-- The destination and source operands of a data field of an access size. -/
def loadDst (vd : BitVec 7) (n : Nat) : Opnd := if n = 8 then dst64 vd else dst32 vd
def storeSrc (vs : BitVec 7) (n : Nat) : Opnd := if n = 8 then src64 vs else src32 vs

/-- An LM load of a space. -/
def State.lmLoad (s : State) (sp : Space) (vd : BitVec 7) (sz : BitVec 2) (va la : BitVec 4) (off : BitVec 7) : State :=
  let n := sizeOf2 sz
  s.loads sp n vd la false (lmAddr va off n)
    { opnds := [loadDst vd n, addrSrc va], illegal := false, cls := loadClass .none }

/-- An LM store to a space. -/
def State.lmStore (s : State) (sp : Space) (vs : BitVec 7) (sz : BitVec 2) (va : BitVec 4) (off : BitVec 7) : State :=
  let n := sizeOf2 sz
  s.stores sp n vs false (lmAddr va off n)
    { opnds := [storeSrc vs n, addrSrc va], illegal := false, cls := storeClass .none }

/-- `ld.stk.nS vd, [va ± off]`. -/
def execLdStk (vd : BitVec 7) (sz : BitVec 2) (va la : BitVec 4) (off : BitVec 7) (s : State) :
    Host.Outcome State Fault Refusal :=
  .next (s.lmLoad .stk vd sz va la off)

/-- `st.stk.nS [va ± off], vs`. -/
def execStStk (vs : BitVec 7) (sz : BitVec 2) (va : BitVec 4) (off : BitVec 7) (s : State) :
    Host.Outcome State Fault Refusal :=
  .next (s.lmStore .stk vs sz va off)

/-- `ld.sh.nS vd, [va ± off]`. -/
def execLdSh (vd : BitVec 7) (sz : BitVec 2) (va la : BitVec 4) (off : BitVec 7) (s : State) :
    Host.Outcome State Fault Refusal :=
  .next (s.lmLoad .sh vd sz va la off)

/-- `st.sh.nS [va ± off], vs`. -/
def execStSh (vs : BitVec 7) (sz : BitVec 2) (va : BitVec 4) (off : BitVec 7) (s : State) :
    Host.Outcome State Fault Refusal :=
  .next (s.lmStore .sh vs sz va off)

/-- `ld.die.nS vd, [va ± off]`. -/
def execLdDie (vd : BitVec 7) (sz : BitVec 2) (va la : BitVec 4) (off : BitVec 7) (s : State) :
    Host.Outcome State Fault Refusal :=
  .next (s.lmLoad .die vd sz va la off)

/-- `st.die.nS [va ± off], vs`. -/
def execStDie (vs : BitVec 7) (sz : BitVec 2) (va : BitVec 4) (off : BitVec 7) (s : State) :
    Host.Outcome State Fault Refusal :=
  .next (s.lmStore .die vs sz va off)

/-- `ld.fl.nS vd, [va ± off]`. -/
def execLdFl (vd : BitVec 7) (sz : BitVec 2) (va la : BitVec 4) (off : BitVec 7) (s : State) :
    Host.Outcome State Fault Refusal :=
  .next (s.lmLoad .fl vd sz va la off)

/-- `st.fl.nS [va ± off], vs`. -/
def execStFl (vs : BitVec 7) (sz : BitVec 2) (va : BitVec 4) (off : BitVec 7) (s : State) :
    Host.Outcome State Fault Refusal :=
  .next (s.lmStore .fl vs sz va off)

/-- `ld.sp.acq.S.nS vd, [va]` (R154): a load, and an acquire. Every access of the model performs in one order that every
observer shares, so the scope orders nothing further (notes/assumptions/11.md). -/
def execLdAcq (vd : BitVec 7) (va la : BitVec 4) (sp sz : BitVec 2) (s : State) : Host.Outcome State Fault Refusal :=
  let n := sizeOf2 sz
  .next (s.loads (spaceOf sp) n vd la true (lmAddr va 0#7 n)
    { opnds := [loadDst vd n, addrSrc va], illegal := sp = 0#2, cls := loadClass .scope })

/-- `st.sp.rel.S.nS [va], vs` (R154): a store, and a release; it leaves the FIFO after every older store (R155),
and is strong (R48). -/
def execStRel (vs : BitVec 7) (va : BitVec 4) (sp sz : BitVec 2) (s : State) : Host.Outcome State Fault Refusal :=
  let n := sizeOf2 sz
  .next (s.stores (spaceOf sp) n vs true (lmAddr va 0#7 n)
    { opnds := [storeSrc vs n, addrSrc va], illegal := sp = 0#2, cls := storeClass .scope })

/-- The entries of a non-temporal store: each byte performs by itself (R58). -/
def State.ntEntries (s : State) (sp : Space) (off : Nat) (bs : List Byte) : List StoreEntry :=
  bs.zipIdx.map (fun b => s.storeEntry sp (off + b.2) [b.1])

/-- `st.nt.sp.nS [va], vs` (R58, R154): the store performs at some later time, in no order, and the thread's own loads do
not see a byte of it before. It is region-closing; to the die space it is an outward effect (R352). -/
def execStNt (vs : BitVec 7) (va : BitVec 4) (sp sz : BitVec 2) (s : State) : Host.Outcome State Fault Refusal :=
  let n := sizeOf2 sz
  let addr := lmAddr va 0#7 n
  let l : Legality :=
    { opnds := [storeSrc vs n, addrSrc va], illegal := sp = 0#2 || sp = 3#2, cls := storeClass .none }
  .next (s.guarded l fun s =>
    match s.addressTrap (spaceOf sp) n n addr with
    | some t => t
    | none =>
      s.lanewise .now (fun _ => []) fun t ln th =>
        let off := (addr ln th).toNat
        t.withLine ln.tid (spaceOf sp) off fun t =>
          t.inLaneOrder ln.tid (spaceOf sp) off n fun t =>
            let es := t.ntEntries (spaceOf sp) off (th.storeBytes vs n)
            let t := if spaceOf sp = .die then t.outward else t
            let t := t.modThread t.cur.crew ln.tid (fun th => { th with ntStores := th.ntStores ++ es })
            (t.finishLane ln.tid .now [] l.opnds).closeRegion t.cur.crew ln.tid)

/-! ## Local atomics (R156) -/

/-- The new value of a read-modify-write of w bits; none when a cas does not write. -/
def AtomOp.apply (op : AtomOp) (w : Nat) (old x cmp : Nat) : Option Nat :=
  let o := BitVec.ofNat w old
  let y := BitVec.ofNat w x
  match op with
  | .add => some (o + y).toNat
  | .and => some (o &&& y).toNat
  | .or => some (o ||| y).toNat
  | .xor => some (o ^^^ y).toNat
  | .minI => some (if y.toInt < o.toInt then y else o).toNat
  | .maxI => some (if o.toInt < y.toInt then y else o).toNat
  | .minN => some (min y.toNat o.toNat)
  | .maxN => some (max y.toNat o.toNat)
  | .exch => some y.toNat
  | .cas => if o = BitVec.ofNat w cmp then some y.toNat else none

/-- Bytes of a crew's space written as one access of a thread. -/
def State.writeSpace (s : State) (tid : Nat) (sp : Space) (off : Nat) (bs : List Byte) : State :=
  (s.modThread s.cur.crew tid (fun th => th.rearmNt sp off bs.length)).performStore s.cur.crew tid
    (s.storeEntry sp off bs)

/-- An atomic of one lane at its home, with the FIFO drained; what it reads, and whether its tile had expired. -/
def State.atomLane (s : State) (op : AtomOp) (sp : Space) (n off : Nat) (vd vc : BitVec 7) (la : Nat) (os : List Opnd)
    (tid : Nat) : State :=
  s.withLine tid sp off fun s =>
    match s.crew? s.cur.crew with
    | none => s
    | some cr => match Table.get? cr.threads tid with
      | none => s
      | some th =>
        let wide := decide (n = 8)
        let x := if wide then (th.read64 vd).toNat else (th.read32 vd).toNat
        let c := if wide then (th.read64 vc).toNat else (th.read32 vc).toNat
        let k := off / 4096
        if sp = .fl && !(cr.tile k).live s.tick then
          ((s.modCrew s.cur.crew (fun y => y.modTile k (fun t => { t.missed with storeExp := true }))).finishLane tid
            (.after la) (th.loadResults vd wide 0#64 ++ [p6Result true]) os).closeRegion s.cur.crew tid
        else
          let old := leNat (s.readSpace cr th sp off n)
          let s := match op.apply (8 * n) old x c with
            | some v => s.writeSpace tid sp off (leBytes v n)
            | none => s
          (s.finishLane tid (.after la)
            (th.loadResults vd wide (BitVec.ofNat 64 old) ++ (if sp = .fl then [p6Result false] else [])) os).closeRegion
            s.cur.crew tid

/-- A local atomic (R156, R218): region-closing, and outward in the die and fleeting spaces (R352). -/
def State.atoms (s : State) (op : AtomOp) (vd : BitVec 7) (va : BitVec 4) (sz : BitVec 1) (la : BitVec 4)
    (sp : BitVec 2) : State :=
  let n := if sz = 1#1 then 8 else 4
  let addr := lmAddr va 0#7 n
  let cas := op = .cas
  let l : Legality :=
    { opnds := [{ loadDst vd n with reads := true }, addrSrc va] ++ (if cas then [s.cur.vcOpnd (n = 8)] else [])
      illegal := sp = 0#2 || (cas && s.cur.pfx.isNone)
      cls := { accepts := true, mz := true, rnd := .scope, vc := cas } }
  s.guarded l fun s =>
    match s.addressTrap (spaceOf sp) n n addr with
    | some t => t
    | none =>
      s.unlessConsumed
        ((if spaceOf sp = .sh then s else s.outwardActive).lanewise (.after la.toNat)
          (fun th => th.loadResults vd (n = 8) 0#64) fun t ln th =>
            let off := (addr ln th).toNat
            t.inLaneOrder ln.tid (spaceOf sp) off n fun t =>
              t.drained ln.tid none (.ordered (spaceOf sp) off n) fun t =>
                t.unlessPoisoned (spaceOf sp) n off ln.tid fun t =>
                  t.atomLane op (spaceOf sp) n off vd t.cur.vc la.toNat l.opnds ln.tid)

/-- `atom.sp.add.ord.S vd, [va]`. The FIFO is drained before and after, so every ord is met (R44). -/
def execAtomAdd (vd : BitVec 7) (va : BitVec 4) (sz : BitVec 1) (_ord : BitVec 2) (la : BitVec 4) (sp : BitVec 2)
    (s : State) : Host.Outcome State Fault Refusal :=
  .next (s.atoms .add vd va sz la sp)

/-- `atom.sp.and.ord.S vd, [va]`. The FIFO is drained before and after, so every ord is met (R44). -/
def execAtomAnd (vd : BitVec 7) (va : BitVec 4) (sz : BitVec 1) (_ord : BitVec 2) (la : BitVec 4) (sp : BitVec 2)
    (s : State) : Host.Outcome State Fault Refusal :=
  .next (s.atoms .and vd va sz la sp)

/-- `atom.sp.or.ord.S vd, [va]`. The FIFO is drained before and after, so every ord is met (R44). -/
def execAtomOr (vd : BitVec 7) (va : BitVec 4) (sz : BitVec 1) (_ord : BitVec 2) (la : BitVec 4) (sp : BitVec 2)
    (s : State) : Host.Outcome State Fault Refusal :=
  .next (s.atoms .or vd va sz la sp)

/-- `atom.sp.xor.ord.S vd, [va]`. The FIFO is drained before and after, so every ord is met (R44). -/
def execAtomXor (vd : BitVec 7) (va : BitVec 4) (sz : BitVec 1) (_ord : BitVec 2) (la : BitVec 4) (sp : BitVec 2)
    (s : State) : Host.Outcome State Fault Refusal :=
  .next (s.atoms .xor vd va sz la sp)

/-- `atom.sp.min.ord.S vd, [va]`. The FIFO is drained before and after, so every ord is met (R44). -/
def execAtomMinI (vd : BitVec 7) (va : BitVec 4) (sz : BitVec 1) (_ord : BitVec 2) (la : BitVec 4) (sp : BitVec 2)
    (s : State) : Host.Outcome State Fault Refusal :=
  .next (s.atoms .minI vd va sz la sp)

/-- `atom.sp.max.ord.S vd, [va]`. The FIFO is drained before and after, so every ord is met (R44). -/
def execAtomMaxI (vd : BitVec 7) (va : BitVec 4) (sz : BitVec 1) (_ord : BitVec 2) (la : BitVec 4) (sp : BitVec 2)
    (s : State) : Host.Outcome State Fault Refusal :=
  .next (s.atoms .maxI vd va sz la sp)

/-- `atom.sp.min.ord.S vd, [va]`. The FIFO is drained before and after, so every ord is met (R44). -/
def execAtomMinN (vd : BitVec 7) (va : BitVec 4) (sz : BitVec 1) (_ord : BitVec 2) (la : BitVec 4) (sp : BitVec 2)
    (s : State) : Host.Outcome State Fault Refusal :=
  .next (s.atoms .minN vd va sz la sp)

/-- `atom.sp.max.ord.S vd, [va]`. The FIFO is drained before and after, so every ord is met (R44). -/
def execAtomMaxN (vd : BitVec 7) (va : BitVec 4) (sz : BitVec 1) (_ord : BitVec 2) (la : BitVec 4) (sp : BitVec 2)
    (s : State) : Host.Outcome State Fault Refusal :=
  .next (s.atoms .maxN vd va sz la sp)

/-- `atom.sp.exch.ord.S vd, [va]`. The FIFO is drained before and after, so every ord is met (R44). -/
def execAtomExch (vd : BitVec 7) (va : BitVec 4) (sz : BitVec 1) (_ord : BitVec 2) (la : BitVec 4) (sp : BitVec 2)
    (s : State) : Host.Outcome State Fault Refusal :=
  .next (s.atoms .exch vd va sz la sp)

/-- `atom.sp.cas.ord.S vd, [va], vc`. The FIFO is drained before and after, so every ord is met (R44). -/
def execAtomCas (vd : BitVec 7) (va : BitVec 4) (sz : BitVec 1) (_ord : BitVec 2) (la : BitVec 4) (sp : BitVec 2)
    (s : State) : Host.Outcome State Fault Refusal :=
  .next (s.atoms .cas vd va sz la sp)

end Sys2Proof.Machine
end

