-- ==== Sys2Proof/Machine/Uniform.lean ====
section
/-! DEFINITION. The uniform set: arithmetic on the uniform registers of a role (R118, R119, R149, R150), moves between
uniform and lane registers (R151), uniform loads and stores (R157), the uniform branch (R167) and the uniform system
forms (R168). -/

namespace Sys2Proof.Machine

open Sys2Proof

/-! ## The uniform registers of a role -/

/-- A uniform register (R118); g63 reads as zero (R65). -/
def Role.uread (r : Role) (g : Nat) : Dword := if g = 63 then 0#64 else Sparse.get 0#64 r.uregs g

/-- The write of a uniform register at an instruction address: it changes the value, and the register was written
earlier in the epoch from a different address (R119). -/
def Role.conflicts (r : Role) (g : Nat) (v : Dword) (pc : Word) : Bool :=
  r.uread g ≠ v && match Table.get? r.uwriter g with
    | some a => a ≠ pc
    | none => false

/-- A uniform register written (R118, R119); a write to g63 is ignored (R65). -/
def Role.uwrite (r : Role) (g : Nat) (v : Dword) (pc : Word) : Role :=
  if g = 63 then r
  else
    let bad := r.conflicts g v pc
    { r with
      uregs := Sparse.set 0#64 r.uregs g v
      upoison := r.upoison.filter (· ≠ g)
      uwriter := Table.put r.uwriter g pc
      uconfSet := r.uconfSet || bad
      uconfReg := if bad && !r.uconfSet then g else r.uconfReg
      uconfMulti := r.uconfMulti || (bad && r.uconfSet) }

/-- A new uniform epoch (R119): no register has been written in it. -/
def Role.newEpoch (r : Role) : Role := { r with uwriter := [] }

/-- sr.uconf as it reads (Table 6.4). -/
def Role.uconf (r : Role) : Word :=
  BitVec.ofNat 32 ((if r.uconfSet then 1 else 0) + r.uconfReg * 2 + (if r.uconfMulti then 128 else 0))

/-- The role of the bundle. -/
def State.uniformRole? (s : State) : Option Role :=
  match s.curCrew? with
  | some cr => cr.role? s.curRole
  | none => none

/-- A uniform register of the bundle's role. -/
def State.uread (s : State) (g : BitVec 6) : Dword :=
  match s.uniformRole? with
  | some r => r.uread g.toNat
  | none => 0#64

/-- A uniform register of the bundle's role written by the bundle's instruction. -/
def State.uwrite (s : State) (g : BitVec 6) (v : Dword) : State :=
  let role := s.curRole
  let pc := s.cur.pc
  s.modCrew s.cur.crew (fun cr => cr.modRole role (fun r => r.uwrite g.toNat v pc))

/-- The uniform registers that a parked uniform instruction reads and writes. -/
def Wait.uniformUse : Wait → List Nat × List Nat
  | .uniformLine _ r w => (r, w)
  | .uniformReg r w => (r, w)
  | _ => ([], [])

/-- Two uniform instructions whose order shows: one writes a register that the other reads or writes. -/
def usesClash (r w r' w' : List Nat) : Bool :=
  w'.any (fun g => g ≠ 63 && (r.contains g || w.contains g)) || w.any (fun g => g ≠ 63 && r'.contains g)

/-- What uniform instructions of a role use beside its registers, numbered behind them: the place of an access among the
role's accesses (R157), and sr.uconf. -/
def accessUse : Nat := 64
def uconfUse : Nat := 65

/-- A thread of the role is parked on an earlier uniform instruction that a later one must follow (R157). -/
def Crew.uniformBehind (cr : Crew) (role seq : Nat) (reads writes : List Nat) : Bool :=
  cr.threads.any (fun t => t.2.role = role && decide (t.2.parkIssue < seq) &&
    match t.2.wait with
    | some x => usesClash reads writes x.uniformUse.1 x.uniformUse.2
    | none => false)

/-- The whole bundle parks (R157). -/
def State.parkBundle (s : State) (w : Wait) : State :=
  s.cur.tids.foldl (fun (t : State) tid => t.park t.cur.crew tid w) s

/-- A uniform instruction takes its place in the role's uniform order: after a parked one that is before it (R157). -/
def State.inUniformOrder (s : State) (reads writes : List Nat) (body : State → State) : State :=
  match s.curCrew? with
  | none => s
  | some cr =>
    if cr.uniformBehind s.curRole s.cur.seq reads writes then s.parkBundle (.uniformReg reads writes)
    else body s

/-- The frame of a uniform instruction: R76 without a prefix, its place in the role's order (R157), with what it uses beside
registers, and the errors of the uniform registers that it reads (R345). -/
def State.uniform (s : State) (os : List Opnd) (illegal : Bool) (reads writes : List (BitVec 6)) (body : State → State)
    (uses : List Nat := []) : State :=
  s.guarded { opnds := os, illegal := illegal, cls := PfxClass.noPrefix } fun s =>
    s.inUniformOrder (reads.map (·.toNat)) (writes.map (·.toNat) ++ uses) fun s =>
      match s.uniformPoison (reads.map (·.toNat)) with
      | some x => s.consume Code.ueReg x
      | none => body s

/-- Uniform arithmetic of two sources (R149): once for the bundle; every thread that issues goes on. -/
def State.ualu (s : State) (gd ga gb : BitVec 6) (f : Dword → Dword → Dword) : State :=
  s.uniform [] false [ga, gb] [gd] fun s => (s.uwrite gd (f (s.uread ga) (s.uread gb))).completeNone

/-- Uniform arithmetic of one source. -/
def State.ualu1 (s : State) (gd ga : BitVec 6) (f : Dword → Dword) : State :=
  s.uniform [] false [ga] [gd] fun s => (s.uwrite gd (f (s.uread ga))).completeNone

/-- Uniform arithmetic on gd and an immediate (R150). -/
def State.ualuImm (s : State) (gd : BitVec 6) (f : Dword → Dword) : State := s.ualu1 gd gd f

/-- A conditional move: nothing is written when the condition fails (R149). -/
def State.umovIf (s : State) (gd ga gb : BitVec 6) (p : Dword → Bool) : State :=
  s.uniform [] false [ga, gb] [gd] fun s =>
    (if p (s.uread gb) then s.uwrite gd (s.uread ga) else s).completeNone

/-! ## The operations (R132, R133, R149, R150) -/

def mulhiI64 (a b : Dword) : Dword := low64 ((i64 a * i64 b).fdiv (2 ^ 64))
def mulhiN64 (a b : Dword) : Dword := low64 (n64 a * n64 b / 2 ^ 64 : Nat)
/-- Rotates take b mod 64. -/
def rolN64 (a b : Dword) : Dword := rol 64 a (n64 b)
def rorN64 (a b : Dword) : Dword := ror 64 a (n64 b)
def setEq (a b : Dword) : Dword := boolWord (a == b)
def setNe (a b : Dword) : Dword := boolWord (a != b)
def setLtI64 (a b : Dword) : Dword := boolWord (decide (i64 a < i64 b))
def setLeI64 (a b : Dword) : Dword := boolWord (decide (i64 a ≤ i64 b))
def setLtN64 (a b : Dword) : Dword := boolWord (decide (n64 a < n64 b))
def setLeN64 (a b : Dword) : Dword := boolWord (decide (n64 a ≤ n64 b))
def ctzN64 (a : Dword) : Dword := low64 (ctz 64 a)
def brevN64 (a : Dword) : Dword := a.reverse

/-- An immediate of a signed and of an unsigned 64-bit type (R68). -/
def immI64 (imm : BitVec 16) : Dword := imm.signExtend 64
def immN64 (imm : BitVec 16) : Dword := imm.setWidth 64

/-- Bits [16 k + 15 : 16 k] replaced (R150). -/
def moveHalf (k : Nat) (a : Dword) (imm : BitVec 16) : Dword :=
  (a &&& ~~~(0xFFFF#64 <<< (16 * k))) ||| (imm.setWidth 64 <<< (16 * k))

/-! ## The GR and GI majors -/

/-- `g.add.i64 gd, ga, gb` (R149). -/
def execGAddI64 (gd ga gb : BitVec 6) (s : State) : Host.Outcome State Fault Refusal :=
  .next (s.ualu gd ga gb addI64)

/-- `g.sub.i64 gd, ga, gb` (R149). -/
def execGSubI64 (gd ga gb : BitVec 6) (s : State) : Host.Outcome State Fault Refusal :=
  .next (s.ualu gd ga gb subI64)

/-- `g.mul.i64 gd, ga, gb` (R149). -/
def execGMulI64 (gd ga gb : BitVec 6) (s : State) : Host.Outcome State Fault Refusal :=
  .next (s.ualu gd ga gb mulI64)

/-- `g.mulhi.i64 gd, ga, gb` (R149). -/
def execGMulhiI64 (gd ga gb : BitVec 6) (s : State) : Host.Outcome State Fault Refusal :=
  .next (s.ualu gd ga gb mulhiI64)

/-- `g.mulhi.n64 gd, ga, gb` (R149). -/
def execGMulhiN64 (gd ga gb : BitVec 6) (s : State) : Host.Outcome State Fault Refusal :=
  .next (s.ualu gd ga gb mulhiN64)

/-- `g.div.i64 gd, ga, gb` (R149). -/
def execGDivI64 (gd ga gb : BitVec 6) (s : State) : Host.Outcome State Fault Refusal :=
  .next (s.ualu gd ga gb divI64)

/-- `g.div.n64 gd, ga, gb` (R149). -/
def execGDivN64 (gd ga gb : BitVec 6) (s : State) : Host.Outcome State Fault Refusal :=
  .next (s.ualu gd ga gb divN64)

/-- `g.rem.i64 gd, ga, gb` (R149). -/
def execGRemI64 (gd ga gb : BitVec 6) (s : State) : Host.Outcome State Fault Refusal :=
  .next (s.ualu gd ga gb remI64)

/-- `g.rem.n64 gd, ga, gb` (R149). -/
def execGRemN64 (gd ga gb : BitVec 6) (s : State) : Host.Outcome State Fault Refusal :=
  .next (s.ualu gd ga gb remN64)

/-- `g.and.n64 gd, ga, gb` (R149). -/
def execGAndN64 (gd ga gb : BitVec 6) (s : State) : Host.Outcome State Fault Refusal :=
  .next (s.ualu gd ga gb and64)

/-- `g.or.n64 gd, ga, gb` (R149). -/
def execGOrN64 (gd ga gb : BitVec 6) (s : State) : Host.Outcome State Fault Refusal :=
  .next (s.ualu gd ga gb or64)

/-- `g.xor.n64 gd, ga, gb` (R149). -/
def execGXorN64 (gd ga gb : BitVec 6) (s : State) : Host.Outcome State Fault Refusal :=
  .next (s.ualu gd ga gb xor64)

/-- `g.andn.n64 gd, ga, gb` (R149). -/
def execGAndnN64 (gd ga gb : BitVec 6) (s : State) : Host.Outcome State Fault Refusal :=
  .next (s.ualu gd ga gb andn64)

/-- `g.shl.n64 gd, ga, gb` (R149). -/
def execGShlN64 (gd ga gb : BitVec 6) (s : State) : Host.Outcome State Fault Refusal :=
  .next (s.ualu gd ga gb shlN64)

/-- `g.shr.n64 gd, ga, gb` (R149). -/
def execGShrN64 (gd ga gb : BitVec 6) (s : State) : Host.Outcome State Fault Refusal :=
  .next (s.ualu gd ga gb shrN64)

/-- `g.shr.i64 gd, ga, gb` (R149). -/
def execGShrI64 (gd ga gb : BitVec 6) (s : State) : Host.Outcome State Fault Refusal :=
  .next (s.ualu gd ga gb shrI64)

/-- `g.rol.n64 gd, ga, gb` (R149). -/
def execGRolN64 (gd ga gb : BitVec 6) (s : State) : Host.Outcome State Fault Refusal :=
  .next (s.ualu gd ga gb rolN64)

/-- `g.ror.n64 gd, ga, gb` (R149). -/
def execGRorN64 (gd ga gb : BitVec 6) (s : State) : Host.Outcome State Fault Refusal :=
  .next (s.ualu gd ga gb rorN64)

/-- `g.set.eq.i64 gd, ga, gb` (R149). -/
def execGSetEqI64 (gd ga gb : BitVec 6) (s : State) : Host.Outcome State Fault Refusal :=
  .next (s.ualu gd ga gb setEq)

/-- `g.set.ne.i64 gd, ga, gb` (R149). -/
def execGSetNeI64 (gd ga gb : BitVec 6) (s : State) : Host.Outcome State Fault Refusal :=
  .next (s.ualu gd ga gb setNe)

/-- `g.set.lt.i64 gd, ga, gb` (R149). -/
def execGSetLtI64 (gd ga gb : BitVec 6) (s : State) : Host.Outcome State Fault Refusal :=
  .next (s.ualu gd ga gb setLtI64)

/-- `g.set.le.i64 gd, ga, gb` (R149). -/
def execGSetLeI64 (gd ga gb : BitVec 6) (s : State) : Host.Outcome State Fault Refusal :=
  .next (s.ualu gd ga gb setLeI64)

/-- `g.set.lt.n64 gd, ga, gb` (R149). -/
def execGSetLtN64 (gd ga gb : BitVec 6) (s : State) : Host.Outcome State Fault Refusal :=
  .next (s.ualu gd ga gb setLtN64)

/-- `g.set.le.n64 gd, ga, gb` (R149). -/
def execGSetLeN64 (gd ga gb : BitVec 6) (s : State) : Host.Outcome State Fault Refusal :=
  .next (s.ualu gd ga gb setLeN64)

/-- `g.min.i64 gd, ga, gb` (R149). -/
def execGMinI64 (gd ga gb : BitVec 6) (s : State) : Host.Outcome State Fault Refusal :=
  .next (s.ualu gd ga gb minI64)

/-- `g.max.i64 gd, ga, gb` (R149). -/
def execGMaxI64 (gd ga gb : BitVec 6) (s : State) : Host.Outcome State Fault Refusal :=
  .next (s.ualu gd ga gb maxI64)

/-- `g.min.n64 gd, ga, gb` (R149). -/
def execGMinN64 (gd ga gb : BitVec 6) (s : State) : Host.Outcome State Fault Refusal :=
  .next (s.ualu gd ga gb minN64)

/-- `g.max.n64 gd, ga, gb` (R149). -/
def execGMaxN64 (gd ga gb : BitVec 6) (s : State) : Host.Outcome State Fault Refusal :=
  .next (s.ualu gd ga gb maxN64)

/-- `g.neg.i64 gd, ga` (R149). -/
def execGNegI64 (gd ga : BitVec 6) (s : State) : Host.Outcome State Fault Refusal :=
  .next (s.ualu1 gd ga negI64)

/-- `g.abs.i64 gd, ga` (R149). -/
def execGAbsI64 (gd ga : BitVec 6) (s : State) : Host.Outcome State Fault Refusal :=
  .next (s.ualu1 gd ga absI64)

/-- `g.not.n64 gd, ga` (R149). -/
def execGNotN64 (gd ga : BitVec 6) (s : State) : Host.Outcome State Fault Refusal :=
  .next (s.ualu1 gd ga not64)

/-- `g.mov.n64 gd, ga` (R149). -/
def execGMovN64 (gd ga : BitVec 6) (s : State) : Host.Outcome State Fault Refusal :=
  .next (s.ualu1 gd ga id)

/-- `g.popc.n64 gd, ga` (R149). -/
def execGPopcN64 (gd ga : BitVec 6) (s : State) : Host.Outcome State Fault Refusal :=
  .next (s.ualu1 gd ga popcN64)

/-- `g.clz.n64 gd, ga` (R149). -/
def execGClzN64 (gd ga : BitVec 6) (s : State) : Host.Outcome State Fault Refusal :=
  .next (s.ualu1 gd ga clzN64)

/-- `g.ctz.n64 gd, ga` (R149). -/
def execGCtzN64 (gd ga : BitVec 6) (s : State) : Host.Outcome State Fault Refusal :=
  .next (s.ualu1 gd ga ctzN64)

/-- `g.brev.n64 gd, ga` (R149). -/
def execGBrevN64 (gd ga : BitVec 6) (s : State) : Host.Outcome State Fault Refusal :=
  .next (s.ualu1 gd ga brevN64)

/-- `g.movnz.n64 gd, ga, gb` (R149). -/
def execGMovnzN64 (gd ga gb : BitVec 6) (s : State) : Host.Outcome State Fault Refusal :=
  .next (s.umovIf gd ga gb wordBool)

/-- `g.movz.n64 gd, ga, gb` (R149). -/
def execGMovzN64 (gd ga gb : BitVec 6) (s : State) : Host.Outcome State Fault Refusal :=
  .next (s.umovIf gd ga gb (fun b => !wordBool b))

/-- `g.add.i64 gd, #imm` (R150). -/
def execGAddI64Imm (gd : BitVec 6) (imm : BitVec 16) (s : State) : Host.Outcome State Fault Refusal :=
  .next (s.ualuImm gd (fun a => addI64 a (immI64 imm)))

/-- `g.mul.i64 gd, #imm` (R150). -/
def execGMulI64Imm (gd : BitVec 6) (imm : BitVec 16) (s : State) : Host.Outcome State Fault Refusal :=
  .next (s.ualuImm gd (fun a => mulI64 a (immI64 imm)))

/-- `g.min.i64 gd, #imm` (R150). -/
def execGMinI64Imm (gd : BitVec 6) (imm : BitVec 16) (s : State) : Host.Outcome State Fault Refusal :=
  .next (s.ualuImm gd (fun a => minI64 a (immI64 imm)))

/-- `g.max.i64 gd, #imm` (R150). -/
def execGMaxI64Imm (gd : BitVec 6) (imm : BitVec 16) (s : State) : Host.Outcome State Fault Refusal :=
  .next (s.ualuImm gd (fun a => maxI64 a (immI64 imm)))

/-- `g.and.n64 gd, #imm` (R150). -/
def execGAndN64Imm (gd : BitVec 6) (imm : BitVec 16) (s : State) : Host.Outcome State Fault Refusal :=
  .next (s.ualuImm gd (fun a => and64 a (immN64 imm)))

/-- `g.or.n64 gd, #imm` (R150). -/
def execGOrN64Imm (gd : BitVec 6) (imm : BitVec 16) (s : State) : Host.Outcome State Fault Refusal :=
  .next (s.ualuImm gd (fun a => or64 a (immN64 imm)))

/-- `g.xor.n64 gd, #imm` (R150). -/
def execGXorN64Imm (gd : BitVec 6) (imm : BitVec 16) (s : State) : Host.Outcome State Fault Refusal :=
  .next (s.ualuImm gd (fun a => xor64 a (immN64 imm)))

/-- `g.and.i64 gd, #imm` (R150). -/
def execGAndI64Imm (gd : BitVec 6) (imm : BitVec 16) (s : State) : Host.Outcome State Fault Refusal :=
  .next (s.ualuImm gd (fun a => and64 a (immI64 imm)))

/-- `g.shl.n64 gd, #imm` (R150). -/
def execGShlN64Imm (gd : BitVec 6) (imm : BitVec 16) (s : State) : Host.Outcome State Fault Refusal :=
  .next (s.ualuImm gd (fun a => shlN64 a (immN64 imm)))

/-- `g.shr.n64 gd, #imm` (R150). -/
def execGShrN64Imm (gd : BitVec 6) (imm : BitVec 16) (s : State) : Host.Outcome State Fault Refusal :=
  .next (s.ualuImm gd (fun a => shrN64 a (immN64 imm)))

/-- `g.shr.i64 gd, #imm` (R150). -/
def execGShrI64Imm (gd : BitVec 6) (imm : BitVec 16) (s : State) : Host.Outcome State Fault Refusal :=
  .next (s.ualuImm gd (fun a => shrI64 a (immN64 imm)))

/-- `g.rol.n64 gd, #imm` (R150). -/
def execGRolN64Imm (gd : BitVec 6) (imm : BitVec 16) (s : State) : Host.Outcome State Fault Refusal :=
  .next (s.ualuImm gd (fun a => rolN64 a (immN64 imm)))

/-- `g.mov.i64 gd, #imm` (R150). -/
def execGMovI64Imm (gd : BitVec 6) (imm : BitVec 16) (s : State) : Host.Outcome State Fault Refusal :=
  .next (s.uniform [] false [] [gd] fun s => (s.uwrite gd (immI64 imm)).completeNone)

/-- `g.mov.n64 gd, #imm` (R150). -/
def execGMovN64Imm (gd : BitVec 6) (imm : BitVec 16) (s : State) : Host.Outcome State Fault Refusal :=
  .next (s.uniform [] false [] [gd] fun s => (s.uwrite gd (immN64 imm)).completeNone)

/-- `g.movk16 gd, #imm` (R150). -/
def execGMovk16 (gd : BitVec 6) (imm : BitVec 16) (s : State) : Host.Outcome State Fault Refusal :=
  .next (s.ualuImm gd (fun a => moveHalf 1 a imm))

/-- `g.movk32 gd, #imm` (R150). -/
def execGMovk32 (gd : BitVec 6) (imm : BitVec 16) (s : State) : Host.Outcome State Fault Refusal :=
  .next (s.ualuImm gd (fun a => moveHalf 2 a imm))

/-- `g.movk48 gd, #imm` (R150). -/
def execGMovk48 (gd : BitVec 6) (imm : BitVec 16) (s : State) : Host.Outcome State Fault Refusal :=
  .next (s.ualuImm gd (fun a => moveHalf 3 a imm))

/-! ## Moves between uniform and lane registers (R151) -/

/-- The lane register that a 6-bit field names: v0 to v63, direct; a register at or beyond the budget is illegal. -/
def uniformLane (f : BitVec 6) (wide : Bool) : Opnd :=
  { field := f.setWidth 7, wide := wide, direct := true, reads := false }

/-- The thread with the lowest crew thread id of the bundle: of a welded bundle its lowest member, issuing or not. -/
def State.lowest (s : State) : Option (Lane × Thread) := s.curLanes.head?

/-- `g.rdv.n32 gd, va`. -/
def execGRdvN32 (gd ga : BitVec 6) (s : State) : Host.Outcome State Fault Refusal :=
  .next (s.uniform [uniformLane ga false] false [] [gd] fun s =>
    match s.lowest with
    | none => s
    | some (l, th) =>
      if th.readPoisoned ga.toNat then s.consume Code.ueReg (ga.toNat, l.tid)
      else (s.uwrite gd ((th.readReg ga.toNat).setWidth 64)).completeNone)

/-- `g.wrv.n32 vd, ga`: the threads of a welded bundle that issue write (notes/assumptions/87.md). -/
def execGWrvN32 (gd ga : BitVec 6) (s : State) : Host.Outcome State Fault Refusal :=
  .next (s.uniform [uniformLane gd false] false [ga] [] fun s =>
    s.complete .now (fun _ _ => [(.reg gd.toNat, lo32 (s.uread ga))]))

/-- `g.wrv.n64 vd, ga`: as the 32-bit form. -/
def execGWrvN64 (gd ga : BitVec 6) (s : State) : Host.Outcome State Fault Refusal :=
  .next (s.uniform [uniformLane gd true] false [ga] [] fun s =>
    s.complete .now (fun _ _ => [(.reg gd.toNat, lo32 (s.uread ga)), (.reg (gd.toNat + 1), hi32 (s.uread ga))]))

/-! ## Uniform loads and stores (R157) -/

/-- The offset of a uniform access. -/
def State.gmAddr (s : State) (ga : BitVec 6) (off : BitVec 7) (n : Nat) : Int :=
  ((lo32 (s.uread ga)).toNat : Int) + off.toInt * n

/-- R27 for the one access of the bundle: on failure every lane is in the mask. -/
def State.uniformTrap (s : State) (cr : Crew) (sp : Space) (off : Int) (n : Nat) : Option State :=
  if !s.inBounds cr sp off n then some (s.trap (boundsCode sp) s.fullMask (offInfo off))
  else if off % n ≠ 0 then some (s.trap Code.align s.fullMask (offInfo off))
  else none

/-- The access of a uniform instruction, by its lowest thread that issues: the checks, the line, and then the effect. -/
def State.uniformAccess (s : State) (sp : Space) (n : Nat) (addr : Int) (w : Wait)
    (go : State → Crew → Nat → Thread → State) : State :=
  match s.curCrew? with
  | none => s
  | some cr =>
    match s.uniformTrap cr sp addr n with
    | some t => t
    | none =>
      match s.curLanes.find? (fun e => e.1.issued) with
      | none => s
      | some (l, th) =>
        match s.lineState cr th sp addr.toNat with
        | .faulted => s.cur.tids.foldl (fun (t : State) tid =>
            t.trapLane tid Code.copyFault (addr.toNat / 64 * 64)) s
        | .waits _ => s.parkBundle w
        | .ready => go s cr l.tid th

/-- A uniform load: its place in the role's uniform order is where it issues, and no later instruction reads the value
from before it, so la changes nothing (R69, R157). A load that parks keeps its place: later uniform instructions of the
role that use gd, its later uniform accesses, and the clearing of sr.uconf wait for it. -/
def State.uload (s : State) (sp : Space) (gd ga : BitVec 6) (sz : BitVec 2) (off : BitVec 7) : State :=
  let n := sizeOf2 sz
  s.uniform [] false [ga] [gd] (uses := [accessUse, uconfUse]) fun s =>
    let addr := s.gmAddr ga off n
    s.uniformAccess sp n addr (.uniformLine addr.toNat [ga.toNat] [gd.toNat, accessUse, uconfUse]) fun s cr tid th =>
      match s.spacePoison cr th sp addr.toNat n false with
      | some info => s.consume (poisonCode sp) (info, tid)
      | none =>
        let bs := forwardedBytes th.fifo sp addr.toNat (s.readSpace cr th sp addr.toNat n)
        (s.uwrite gd (BitVec.ofNat 64 (leNat bs))).completeNone

/-- A uniform store: it takes the role's uniform order, in which a later uniform access of any bundle sees it, so it
performs when it issues, after its thread's earlier stores (R40, R157). -/
def State.ustore (s : State) (sp : Space) (gs ga : BitVec 6) (sz : BitVec 2) (off : BitVec 7) : State :=
  let n := sizeOf2 sz
  s.uniform [] false [gs, ga] [] (uses := [accessUse]) fun s =>
    let addr := s.gmAddr ga off n
    let v := (s.uread gs).toNat
    let w : Wait := .uniformLine addr.toNat [gs.toNat, ga.toNat] [accessUse]
    s.uniformAccess sp n addr w fun s _ tid _ =>
      let s := s.drainFifo s.cur.crew tid
      if !s.stillHere tid then s
      else if !s.fifoEmpty s.cur.crew tid then s.parkBundle w
      else (s.writeSpace tid sp addr.toNat (leBytes v n)).completeNone

/-- `g.ld.sh.nS gd, [ga ± off]`. -/
def execGLdSh (gd ga : BitVec 6) (sz : BitVec 2) (_la : BitVec 4) (off : BitVec 7) (s : State) :
    Host.Outcome State Fault Refusal :=
  .next (s.uload .sh gd ga sz off)

/-- `g.st.sh.nS [ga ± off], gs`. -/
def execGStSh (gd ga : BitVec 6) (sz : BitVec 2) (off : BitVec 7) (s : State) : Host.Outcome State Fault Refusal :=
  .next (s.ustore .sh gd ga sz off)

/-- `g.ld.die.nS gd, [ga ± off]`. -/
def execGLdDie (gd ga : BitVec 6) (sz : BitVec 2) (_la : BitVec 4) (off : BitVec 7) (s : State) :
    Host.Outcome State Fault Refusal :=
  .next (s.uload .die gd ga sz off)

/-- `g.st.die.nS [ga ± off], gs`. -/
def execGStDie (gd ga : BitVec 6) (sz : BitVec 2) (off : BitVec 7) (s : State) : Host.Outcome State Fault Refusal :=
  .next (s.ustore .die gd ga sz off)

/-! ## Branch and system forms (R167, R168) -/

/-- A branch of a lane: every promise ends (R69), the window counts the instruction, and the thread stands at its
next address. -/
def Thread.goTo (th : Thread) (len : Nat) (pc : Word) : Thread :=
  { th.flushPend.commit len .now [] with pc := pc }

/-- `g.br.cc ga, L` (R167). -/
def execGBr (cc : BitVec 3) (ga : BitVec 6) (off : BitVec 16) (s : State) : Host.Outcome State Fault Refusal :=
  .next (s.uniform [] (decide (4 < cc.toNat)) [ga] [] fun s =>
    let next := if uniformCond cc (s.uread ga) then s.cur.pc + (off.signExtend 32 <<< 2)
      else s.cur.pc + BitVec.ofNat 32 s.cur.length
    s.mapLanes (fun _ th => th.goTo s.cur.length next))

/-- The system register of a number, for a thread that holds a virtual lane (Table 6.5, Table 8.2); sr.cycle stands a
free offset from the reference cycles (notes/assumptions/5.md). -/
def State.sysReg (s : State) (cr : Crew) (tid : Nat) (th : Thread) (n : Nat) : Dword :=
  match n with
  | 0 => BitVec.ofNat 64 tid
  | 1 => BitVec.ofNat 64 cr.index
  | 2 => BitVec.ofNat 64 th.role
  | 3 => BitVec.ofNat 64 (s.cur.laneOf tid)
  | 4 => BitVec.ofNat 64 cr.width
  | 5 => BitVec.ofNat 64 s.tick
  | 6 => BitVec.ofNat 64 (s.now + Config.cycleOffset (clusterKey cr.die (cr.homeCluster th)))
  | 7 => BitVec.ofNat 64 (cr.homeCluster th)
  | 8 => BitVec.ofNat 64 cr.die
  | 9 => cr.srLaunch
  | 10 => BitVec.ofNat 64 th.rb
  | 11 => match cr.role? th.role with
    | some r => r.uconf.setWidth 64
    | none => 0#64
  | _ => 0#64

/-- `g.rdsr gd, sr.name` (R168): a per-thread register is the lowest thread's. -/
def execGRdsr (gd ga : BitVec 6) (s : State) : Host.Outcome State Fault Refusal :=
  .next (s.uniform [] (decide (11 < ga.toNat)) [] [gd] (uses := if ga.toNat = 11 then [uconfUse] else []) fun s =>
    match s.curCrew?, s.lowest with
    | some cr, some (l, th) => (s.uwrite gd (s.sysReg cr l.tid th ga.toNat)).completeNone
    | _, _ => s)

/-- `g.uconf.clr` (R168, R119): sr.uconf is cleared and a uniform epoch begins. -/
def execGUconfClr (s : State) : Host.Outcome State Fault Refusal :=
  .next (s.uniform [] false [] [] (uses := [uconfUse]) fun s =>
    let role := s.curRole
    (s.modCrew s.cur.crew (fun cr => cr.modRole role (fun r =>
      { r.newEpoch with uconfSet := false, uconfReg := 0, uconfMulti := false }))).completeNone)

end Sys2Proof.Machine
end

