-- ==== Sys2Proof/Machine/Control.lean ====
section
/-! DEFINITION. Branches, calls, regions, index registers, rotation, fences and system-register reads: majors 0x32 to
0x34 (R158 to R166). -/

namespace Sys2Proof.Machine

open Sys2Proof

/-! ## Control transfers (R158 to R160) -/

/-- Every promise of the threads that issue ends: the instruction waits for every result (R69). -/
def State.flushed (s : State) : State := s.mapLanes (fun _ th => th.flushPend)

/-- The legality of an LX form: direct registers, and a prefix with pred and neg only (Table 4.5). -/
def lx (os : List Opnd) (illegal : Bool) : Legality := { opnds := os, illegal := illegal, cls := PfxClass.predOnly }

/-- The target of an LB word (R72). -/
def State.lbTarget (s : State) (off : BitVec 21) : Word := s.cur.pc + (off.signExtend 32 <<< 2)

/-- The address of the next instruction. -/
def State.nextPc (s : State) : Word := s.cur.pc + BitVec.ofNat 32 s.cur.length

/-- `br` (R158): each lane follows its own condition. -/
def execBr (cc : BitVec 4) (off : BitVec 21) (s : State) : Host.Outcome State Fault Refusal :=
  .next (s.flushed.guarded { opnds := [], illegal := cc = 15#4, cls := PfxClass.noPrefix } fun s =>
    s.mapLanes (fun _ th => th.goTo s.cur.length (if branchHolds cc th then s.lbTarget off else s.nextPc)))

/-- The rotation base after a taken `loop` (R160). -/
def Thread.rotated (th : Thread) : Thread :=
  match th.rot with
  | none => th
  | some (_, size) => { th with rb := (th.rb + size - 1) % size }

/-- `loop` (R160): `br`, and each lane that takes it steps its rotation base. -/
def execLoopBr (cc : BitVec 4) (off : BitVec 21) (s : State) : Host.Outcome State Fault Refusal :=
  .next (s.flushed.guarded { opnds := [], illegal := cc = 15#4, cls := PfxClass.noPrefix } fun s =>
    s.mapLanes (fun _ th =>
      if branchHolds cc th then (th.goTo s.cur.length (s.lbTarget off)).rotated
      else th.goTo s.cur.length s.nextPc))

/-- A computed target that is refused: misaligned (R60), or at or beyond the code's size (R159). -/
def State.badTarget (s : State) (t : Word) : Bool :=
  let len := match s.curCrew? with
    | some cr => match s.object? cr.ctx cr.obj with
      | some o => o.codeLen
      | none => 0
    | none => 0
  decide (t.toNat % 4 ≠ 0) || decide (len ≤ t.toNat)

/-- ILLEGAL_OP for the lanes whose computed target is refused, with the target of the lowest as INFO (R60, R159). -/
def State.targetTrap (s : State) (target : Lane → Thread → Word) : Option State :=
  s.laneTrap Code.illegalOp (fun l th => s.badTarget (target l th)) (fun l th => (target l th).toNat)

/-- The active lanes call (R159): the stack check, the return offset stored at stk[SP], SP + 4, the target; the
call-graph prefetcher sees each target (R194). -/
def State.callLanes (s : State) (target : Lane → Thread → Word) : State :=
  match s.curCrew? with
  | none => s
  | some cr =>
    match s.laneTrap Code.boundsStk (fun _ th => decide (cr.stackSize < th.sp.toNat + 4)) (fun _ th => th.sp.toNat) with
    | some t => t
    | none =>
      let calls := (s.activeLanes.map (fun e => (cr.homeCluster e.2, (target e.1 e.2).toNat))).eraseDups
      let s := s.lanewise .now (fun _ => []) fun t ln th =>
        t.withLine ln.tid .stk th.sp.toNat fun t =>
          t.enterStore ln.tid (t.storeEntry .stk th.sp.toNat (leBytes t.nextPc.toNat 4)) fun t =>
            t.modThread t.cur.crew ln.tid (fun u => { u.goTo t.cur.length (target ln th) with sp := th.sp + 4#32 })
      calls.foldl (fun (s : State) k => s.callPrefetch s.cur.crew k.1 k.2) s

/-- `call L` (R159). -/
def execCall (off : BitVec 21) (s : State) : Host.Outcome State Fault Refusal :=
  .next (s.flushed.guarded { opnds := [], illegal := false, cls := PfxClass.noPrefix } fun s =>
    s.callLanes (fun _ _ => s.lbTarget off))

/-- `nop` (R161). -/
def execNop (s : State) : Host.Outcome State Fault Refusal :=
  .next (s.guarded (lx [] false) State.completeNone)

/-- The return offset that a thread's stack holds, as the thread reads it (R40, R159). -/
def Thread.returnTarget (th : Thread) : Word := BitVec.ofNat 32 (leNat (th.stackBytes (th.sp.toNat - 4) 4))

/-- A stack line that a restore has not filled (R152). -/
def Thread.stackMissing (th : Thread) (off : Nat) : Bool := th.stackAbsent.contains (off / 64)

/-- `ret` (R159): SP, then the load, then the loaded target. -/
def execRet (s : State) : Host.Outcome State Fault Refusal :=
  .next (s.flushed.guarded (lx [] false) fun s =>
    match s.laneTrap Code.boundsStk (fun _ th => decide (th.sp.toNat < 4)) (fun _ th => th.sp.toNat) with
    | some t => t
    | none =>
      match s.lanePoison .stk 4 false (fun _ th => (th.sp.toNat : Int) - 4) with
      | some off => s.consume Code.ueDie off
      | none =>
        match s.laneTrap Code.illegalOp
            (fun _ th => !th.stackMissing (th.sp.toNat - 4) && s.badTarget th.returnTarget)
            (fun _ th => th.returnTarget.toNat) with
        | some t => t
        | none =>
          s.lanewise .now (fun _ => []) fun t ln th =>
            t.withLine ln.tid .stk (th.sp.toNat - 4) fun t =>
              t.modThread t.cur.crew ln.tid (fun u =>
                { u.goTo t.cur.length th.returnTarget with sp := th.sp - 4#32 }))

/-- `br.ind va` (R159). -/
def execBrInd (va : BitVec 7) (s : State) : Host.Outcome State Fault Refusal :=
  .next (s.flushed.guarded (lx [lxSrc32 va] false) fun s =>
    match s.targetTrap (fun _ th => th.read32 va) with
    | some t => t
    | none => s.mapLanes (fun l th =>
        th.goTo s.cur.length (if s.cur.active l th then th.read32 va else s.nextPc)))

/-- `call.ind va` (R159): the target is checked before the stack. -/
def execCallInd (va : BitVec 7) (s : State) : Host.Outcome State Fault Refusal :=
  .next (s.flushed.guarded (lx [lxSrc32 va] false) fun s =>
    match s.targetTrap (fun _ th => th.read32 va) with
    | some t => t
    | none => s.callLanes (fun _ th => th.read32 va))

/-! ## Regions, index registers, rotation (R122, R162 to R164) -/

/-- `rgn name` (R122, R162): the live-in registers are read into the checkpoint slot, and the next instruction becomes
the region head. -/
def execRgn (hi lo : BitVec 7) (s : State) : Host.Outcome State Fault Refusal :=
  let lset := hi.toNat * 128 + lo.toNat
  let sets := match s.curCrew? with
    | some cr => match s.object? cr.ctx cr.obj with
      | some o => o.lsets
      | none => []
    | none => []
  .next (s.guarded (lx [] (decide (sets.length ≤ lset))) fun s =>
    let live := sets.getD lset []
    match s.firstPoison (fun _ th => live.find? th.settledPoisoned) with
    | some x => s.consume Code.ueReg x
    | none => s.mapLanes (fun l th =>
        if s.cur.active l th then (th.commit s.cur.length .now []).enterRegion lset live
        else th.commit s.cur.length .now []))

/-- The packing of an index register (Table 6.6, R163). -/
def IxReg.pack (r : IxReg) : Word := BitVec.ofNat 32 (r.base + r.len * 2 ^ 8 + r.cur * 2 ^ 17)

/-- The index register that a word describes. -/
def IxReg.unpack (w : Word) : IxReg :=
  { base := bitsOf w.toNat 7 0, len := bitsOf w.toNat 16 8, cur := bitsOf w.toNat 25 17 }

/-- A word that ix.set refuses (R163). -/
def ixRefused (budget : Nat) (w : Word) : Bool :=
  let r := IxReg.unpack w
  decide (bitsOf w.toNat 31 26 ≠ 0) || decide (budget < r.base + r.len) || decide (r.len < r.cur)

/-- `ix.set ixk, va` (R163): INFO holds k and the CUR that the lowest offending lane would set
(notes/assumptions/18.md). -/
def execIxSet (va : BitVec 7) (k : BitVec 2) (s : State) : Host.Outcome State Fault Refusal :=
  .next (s.guarded (lx [lxSrc32 va] false) fun s =>
    match s.laneTrap Code.ixRange (fun _ th => ixRefused s.curBudget (th.read32 va))
        (fun _ th => ((k.toNat + (IxReg.unpack (th.read32 va)).cur * 2 ^ 8 : Nat) : Int)) with
    | some t => t
    | none => s.mapLanes (fun l th =>
        let r := IxReg.unpack (th.read32 va)
        if s.cur.active l th then (th.commit s.cur.length .now []).setIx k.toNat r
        else th.commit s.cur.length .now []))

/-- `ix.get vd, ixk` (R163). -/
def execIxGet (vd : BitVec 7) (k : BitVec 2) (la : BitVec 4) (s : State) : Host.Outcome State Fault Refusal :=
  .next (s.guarded (lx [lxDst32 vd] false) fun s =>
    s.complete (.after la.toNat) (fun _ th => [(.reg (th.regOf vd), (th.ix k.toNat).pack)]))

/-- Table 6.3, and the budget. -/
def rotAllowed (budget b size : Nat) : Bool :=
  (size = 8 || size = 16 || size = 32) && decide (64 ≤ b) && decide (b + size ≤ 120) && decide (b % size = 0) &&
    decide (b + size ≤ budget)

/-- `rot.set vB, #s` and `rot.set #0` (R164). What sr.rb reads once the region is removed is not given: the model sets it
to 0 in both forms (notes/assumptions/88.md). -/
def execRotSet (vB size : BitVec 7) (s : State) : Host.Outcome State Fault Refusal :=
  let off := vB = 0#7 && size = 0#7
  .next (s.guarded (lx [] (!off && !rotAllowed s.curBudget vB.toNat size.toNat)) fun s =>
    s.mapLanes (fun l th =>
      let th' := th.commit s.cur.length .now []
      if s.cur.active l th then
        { th' with rot := if off then none else some (vB.toNat, size.toNat), rb := 0 }
      else th'))

/-! ## Fences, system registers, the stack pointer (R165, R166) -/

/-- `fence.S` (R44, R47, R51, R166): the thread's stores have performed when it completes; the order that all observers
share needs no more (notes/assumptions/11.md). Copies are not ordered. -/
def execFence (sc : BitVec 7) (s : State) : Host.Outcome State Fault Refusal :=
  let l := lx [] (sc = 0#7 || decide (5 < sc.toNat))
  .next (s.guarded l fun s =>
    s.lanewise .now (fun _ => []) fun t ln _ =>
      t.drained ln.tid none .fence fun t => t.finishLane ln.tid .now [] [])

/-- `nt.drain` (R58, R166): the non-temporal stores before it now stand in program order. -/
def execNtDrain (s : State) : Host.Outcome State Fault Refusal :=
  .next (s.guarded (lx [] false) fun s =>
    s.lanewise .now (fun _ => []) fun t ln th =>
      if th.ntSettled then
        (t.modThread t.cur.crew ln.tid (fun th => { th with ntDone := [] })).finishLane ln.tid .now [] []
      else t.park t.cur.crew ln.tid .ntDrain)

/-- The 64-bit system registers: sr.tick, sr.cycle, sr.launch (Table 8.2). -/
def srWide (n : Nat) : Bool := n = 5 || n = 6 || n = 9

/-- `sr.rd vd, sr.name` (R165). -/
def execSrRd (vd sr : BitVec 7) (la : BitVec 4) (s : State) : Host.Outcome State Fault Refusal :=
  let n := sr.toNat
  .next (s.guarded (lx [if srWide n then lxDst64 vd else lxDst32 vd] (decide (11 < n))) fun s =>
    match s.curCrew? with
    | none => s
    | some cr => s.complete (.after la.toNat) (fun l th =>
        th.loadResults vd (srWide n) (s.sysReg cr l.tid th n)))

/-- `sp.get vd` (R161). -/
def execSpGet (vd : BitVec 7) (la : BitVec 4) (s : State) : Host.Outcome State Fault Refusal :=
  .next (s.guarded (lx [lxDst32 vd] false) fun s =>
    s.complete (.after la.toNat) (fun _ th => [(.reg (th.regOf vd), th.sp)]))

/-- `sp.set va` (R165): BOUNDS_STK first, then ALIGN. -/
def execSpSet (va : BitVec 7) (s : State) : Host.Outcome State Fault Refusal :=
  .next (s.guarded (lx [lxSrc32 va] false) fun s =>
    match s.curCrew? with
    | none => s
    | some cr =>
      match s.laneTrap Code.boundsStk (fun _ th => decide (cr.stackSize < (th.read32 va).toNat))
          (fun _ th => (th.read32 va).toNat) with
      | some t => t
      | none =>
        match s.laneTrap Code.align (fun _ th => decide ((th.read32 va).toNat % 4 ≠ 0))
            (fun _ th => (th.read32 va).toNat) with
        | some t => t
        | none => s.mapLanes (fun l th =>
            let v := th.read32 va
            let th' := th.commit s.cur.length .now []
            if s.cur.active l th then { th' with sp := v } else th'))

end Sys2Proof.Machine
end

