-- ==== Sys2Proof/Machine/Fleeting.lean ====
section
/-! DEFINITION. The tile instructions of major 0x38 (R221 to R224). -/

namespace Sys2Proof.Machine

open Sys2Proof

/-- A birth at a tick (R222): contents are kept, with their parity, when the tile is live and zeros are not asked
for. -/
def Tile.birthAt (zeros : Bool) (n : Nat) (t : Tile) : Tile :=
  let u := if zeros || !t.live n then { t with bytes := [], poison := [] } else t
  { u with birth := n, born := true, freed := false, lives := if t.live n then t.lives else t.lives + 1 }

/-- A renew at a tick: an expired tile stays expired. -/
def Tile.renewAt (n : Nat) (t : Tile) : Tile := if t.live n then { t with birth := n } else t

/-- A free. -/
def Tile.freeAt (_n : Nat) (t : Tile) : Tile := { t with freed := true }

/-- The sticky status cleared. -/
def Tile.clearAt (_n : Nat) (t : Tile) : Tile := { t with storeExp := false, expLoads := 0 }

/-- A bit of a status word. -/
def bitAt (b : Bool) (k : Nat) : Nat := if b then 2 ^ k else 0

/-- The status word at a tick (Table 11.1). -/
def Tile.status (t : Tile) (n : Nat) : Dword :=
  BitVec.ofNat 64 (t.life n + bitAt (t.live n) 9 + bitAt t.born 10 + bitAt t.freed 11 + bitAt t.storeExp 12 +
    bitAt (t.poison ≠ []) 13 + t.expLoads * 2 ^ 16 + (BitVec.ofInt 32 t.birth).toNat * 2 ^ 32)

/-- The frame of major 0x38 (R222): R27 for whole tiles, then lane by lane one operation at the tile's controller,
after the thread's earlier fleeting stores and after the lower lanes (R41). Every instruction of the major is an outward effect (R352). -/
def State.tileOp (s : State) (os : List Opnd) (va : BitVec 7) (la : Nat) (closing : Bool) (f : Nat → Tile → Tile)
    (res : Thread → Tile → Nat → Results) : State :=
  s.guarded (lx os false) fun s =>
    let addr := fun (_ : Lane) (th : Thread) => ((th.read32 va).toNat : Int)
    match s.addressTrap .fl 4096 4096 addr with
    | some t => t
    | none =>
      s.outwardActive.lanewise (.after la) (fun _ => []) fun t ln th =>
        let k := (th.read32 va).toNat / 4096
        t.inLaneOrder ln.tid .fl (4096 * k) 4096 fun t =>
          t.drained ln.tid (some .fl) (.ordered .fl (4096 * k) 4096) fun t =>
            match t.curCrew? with
            | none => t
            | some cr =>
              let n := t.tick
              let t := t.modCrew t.cur.crew (fun x => x.modTile k (f n))
              let t := t.finishLane ln.tid (.after la) (res th (cr.tile k) n) []
              if closing then t.closeRegion t.cur.crew ln.tid else t

/-- `fl.birth [va]`. -/
def execFlBirth (va : BitVec 7) (s : State) : Host.Outcome State Fault Refusal :=
  .next (s.tileOp [lxSrc32 va] va 0 true (Tile.birthAt false) (fun _ t n => [p6Result (!t.live n)]))

/-- `fl.birth.z [va]`. -/
def execFlBirthZ (va : BitVec 7) (s : State) : Host.Outcome State Fault Refusal :=
  .next (s.tileOp [lxSrc32 va] va 0 true (Tile.birthAt true) (fun _ t n => [p6Result (!t.live n)]))

/-- `fl.renew [va]`. -/
def execFlRenew (va : BitVec 7) (s : State) : Host.Outcome State Fault Refusal :=
  .next (s.tileOp [lxSrc32 va] va 0 true Tile.renewAt (fun _ t n => [p6Result (!t.live n)]))

/-- `fl.life vd, [va]`. -/
def execFlLife (vd va : BitVec 7) (la : BitVec 4) (s : State) : Host.Outcome State Fault Refusal :=
  .next (s.tileOp [lxDst32 vd, lxSrc32 va] va la.toNat false (fun _ t => t) (fun th t n =>
    [(.reg (th.regOf vd), BitVec.ofNat 32 (t.life n)), p6Result (t.life n = 0)]))

/-- `fl.free [va]`. -/
def execFlFree (va : BitVec 7) (s : State) : Host.Outcome State Fault Refusal :=
  .next (s.tileOp [lxSrc32 va] va 0 true Tile.freeAt (fun _ _ _ => []))

/-- `fl.stat vd, [va]`. -/
def execFlStat (vd va : BitVec 7) (la : BitVec 4) (s : State) : Host.Outcome State Fault Refusal :=
  .next (s.tileOp [lxDst64 vd, lxSrc32 va] va la.toNat false (fun _ t => t) (fun th t n =>
    th.loadResults vd true (t.status n)))

/-- `fl.stat.clr vd, [va]`. -/
def execFlStatClr (vd va : BitVec 7) (s : State) : Host.Outcome State Fault Refusal :=
  .next (s.tileOp [lxDst64 vd, lxSrc32 va] va 0 true Tile.clearAt (fun th t n => th.loadResults vd true (t.status n)))

end Sys2Proof.Machine
end

