-- ==== Sys2Proof/Machine/Sync.lean ====
section
/-! DEFINITION. Tumblers, latches, timelines and the crew barrier: major 0x3B (R108 to R110, R169 to R173). -/

namespace Sys2Proof.Machine

open Sys2Proof

/-! ## Tumblers -/

/-- `tb.join tbk` (R170). -/
def execTbJoin (k : BitVec 4) (s : State) : Host.Outcome State Fault Refusal :=
  .next (s.guarded (lx [] false) fun s =>
    s.lanewise .now (fun _ => []) fun t ln _ =>
      (t.modCrew t.cur.crew (fun cr =>
        let tb := cr.tumbler k.toNat
        cr.putTumbler k.toNat { tb with declared := insertId ln.tid tb.declared })).finishLane ln.tid .now [] [])

/-- A thread outside the declared set of a tumbler raises TUMBLER_NM, for the bundle. -/
def State.memberTrap (s : State) (k : Nat) : Option State :=
  match s.curCrew? with
  | none => none
  | some cr => s.laneTrap Code.tumblerNm (fun l _ => !(cr.tumbler k).declared.contains l.tid) (fun _ _ => (k : Int))

/-- `tb.sign vd, tbk` (R16, R17, R170): a signature is a release at .crew, so the thread's stores have performed; a
second one in a generation parks until the turn. -/
def execTbSign (k : BitVec 4) (vd : BitVec 7) (la : BitVec 4) (s : State) : Host.Outcome State Fault Refusal :=
  .next (s.guarded (lx [lxDst32 vd] false) fun s =>
    match s.memberTrap k.toNat with
    | some t => t
    | none =>
      s.lanewise (.after la.toNat) (fun _ => []) fun t ln th =>
        match t.curCrew? with
        | none => t
        | some cr =>
          if (cr.tumbler k.toNat).signed.contains ln.tid then t.park t.cur.crew ln.tid (.sign k.toNat)
          else t.drained ln.tid none .fence fun t =>
            let gen := (cr.tumbler k.toNat).gen
            ((t.finishLane ln.tid (.after la.toNat) [(.reg (th.regOf vd), gen)] []).closeRegion t.cur.crew
              ln.tid).sign t.cur.crew k.toNat ln.tid)

/-- `tb.wait tbk, va` (R170). -/
def execTbWait (k : BitVec 4) (va : BitVec 7) (s : State) : Host.Outcome State Fault Refusal :=
  .next (s.guarded (lx [lxSrc32 va] false) fun s =>
    s.lanewise .now (fun _ => []) fun t ln th =>
      match t.curCrew? with
      | none => t
      | some cr =>
        let tb := cr.tumbler k.toNat
        if tb.gen ≠ th.read32 va ∨ tb.declared = [] then t.finishLane ln.tid .now [] []
        else t.park t.cur.crew ln.tid (.tumbler k.toNat))

/-- The aligned block of a thread in its role (R102). -/
def Crew.block (cr : Crew) (tid : Nat) (th : Thread) : Nat :=
  match cr.role? th.role with
  | some r => (tid - r.first) / cr.width
  | none => 0

/-- The reason for which a thread may not weld a tumbler whose weld set begins with a given thread (R108); 0 for
none. -/
def Crew.weldReason (cr : Crew) (k tid first : Nat) (th : Thread) : Nat :=
  if cr.tumblers.any (fun e => e.1 ≠ k && e.2.weld.contains tid) then 1
  else match Table.get? cr.threads first with
    | none => 0
    | some f =>
      if f.role ≠ th.role then 2
      else if cr.block first f ≠ cr.block tid th then 3 else 0

/-- `weld tbk` (R108, R170): a bundle whose weld set is empty welds with its lowest active thread. -/
def execWeld (k : BitVec 4) (s : State) : Host.Outcome State Fault Refusal :=
  .next (s.guarded (lx [] false) fun s =>
    match s.curCrew?, s.activeLanes with
    | some cr, (l0, _) :: _ =>
      let first := (cr.tumbler k.toNat).weld.headD l0.tid
      match s.laneTrap Code.weldBad (fun l th => cr.weldReason k.toNat l.tid first th ≠ 0)
          (fun l th => (cr.weldReason k.toNat l.tid first th : Int)) with
      | some t => t
      | none =>
        s.lanewise .now (fun _ => []) fun t ln _ =>
          (t.modCrew t.cur.crew (fun cr =>
            let tb := cr.tumbler k.toNat
            cr.putTumbler k.toNat
              { tb with declared := insertId ln.tid tb.declared, weld := insertId ln.tid tb.weld })).finishLane
            ln.tid .now [] []
    | _, _ => s.completeNone)

/-- `unjoin #mask` (R110, R169). -/
def execUnjoin (m0 m1 : BitVec 7) (m2 : BitVec 2) (s : State) : Host.Outcome State Fault Refusal :=
  let mask := m0.toNat + m1.toNat * 2 ^ 7 + m2.toNat * 2 ^ 14
  .next (s.guarded (lx [] false) fun s =>
    s.lanewise .now (fun _ => []) fun t ln _ =>
      ((List.range 16).filter (fun k => mask.testBit k)).foldl
        (fun (t : State) k => t.leaveTumbler t.cur.crew k ln.tid) (t.finishLane ln.tid .now [] []))

/-! ## Latches -/

/-- The latch address of a lane (R169). -/
def latchAddr (va : BitVec 7) (_l : Lane) (th : Thread) : Int := ((th.read32 va).toNat : Int)

/-- The FIFO of every active lane drains, as far as its lines allow: the latch is read at its bank, after the thread's
own earlier stores (R40). -/
def State.drainLanes (s : State) : State :=
  s.activeLanes.foldl (fun (t : State) e => t.drainFifo t.cur.crew e.1.tid) s

/-- The checks of a latch access (R169): the window, the alignment, an error in the latch's bytes, and, for an arrival
or a wait, LATCH_FORM (R15). -/
def State.latchAccess (s : State) (va : BitVec 7) (formed : Bool) (go : State → State) : State :=
  match s.addressTrap .sh 16 16 (latchAddr va) with
  | some t => t
  | none =>
    let s := if formed then s.drainLanes else s
    if s.activeLanes.any (fun e => !s.stillHere e.1.tid) then s
    else match s.lanePoison .sh 16 formed (latchAddr va) with
    | some x => s.consume Code.ueSh x
    | none =>
      if !formed then go s
      else
        match s.curCrew? with
        | none => s
        | some cr =>
          match s.laneTrap Code.latchForm (fun l th => (cr.latch (latchAddr va l th).toNat).malformed)
              (latchAddr va) with
          | some t => t
          | none => go s

/-- `lt.arrive [va]` (R14, R15, R171): lanes that name one latch arrive one after another. -/
def execLtArrive (va : BitVec 7) (s : State) : Host.Outcome State Fault Refusal :=
  .next (s.guarded (lx [lxSrc32 va] false) fun s =>
    s.latchAccess va true fun s =>
      s.lanewise .now (fun _ => []) fun t ln th =>
        let off := (th.read32 va).toNat
        if !t.stillHere ln.tid then t
        else t.inLaneOrder ln.tid .sh off 16 fun t =>
          t.drained ln.tid none (.ordered .sh off 16) fun t =>
            ((t.finishLane ln.tid .now [] []).closeRegion t.cur.crew ln.tid).arriveThread t.cur.crew off)

/-- `lt.wait [va], #ph` (R15, R171). -/
def execLtWait (va : BitVec 7) (ph : BitVec 1) (s : State) : Host.Outcome State Fault Refusal :=
  .next (s.guarded (lx [lxSrc32 va] false) fun s =>
    s.latchAccess va true fun s =>
      s.lanewise .now (fun _ => []) fun t ln th =>
        if !t.stillHere ln.tid then t
        else match t.curCrew? with
          | none => t
          | some cr =>
            let off := (th.read32 va).toNat
            let v := cr.latch off
            if v.err ≠ 0 then t.trapLane ln.tid (BitVec.ofNat 16 v.err) off
            else if v.phase ≠ bit1 ph then t.finishLane ln.tid .now [] []
            else t.park t.cur.crew ln.tid (.latch off v.phase))

/-- `lt.phase vd, [va]` (R171): an ordinary load of the latch. -/
def execLtPhase (va vd : BitVec 7) (la : BitVec 4) (s : State) : Host.Outcome State Fault Refusal :=
  .next (s.guarded (lx [lxSrc32 va, lxDst32 vd] false) fun s =>
    s.latchAccess va false fun s =>
      match s.curCrew? with
      | none => s
      | some cr => s.complete (.after la.toNat) (fun _ th =>
          let off := (th.read32 va).toNat
          let v := viewLatch (leNat (forwardedBytes th.fifo .sh off (s.readSpace cr th .sh off 16)))
          [(.reg (th.regOf vd), BitVec.ofNat 32 ((if v.phase then 1 else 0) + v.err * 2 ^ 16))]))

/-! ## Timelines -/

/-- The binding of a handle of a crew (R12). -/
def Crew.handle (cr : Crew) (k : Nat) : TlBind := cr.bind.getD k .unbound

/-- The counter that a binding names (R11). -/
def State.timeline (s : State) (cr : Crew) (b : TlBind) : Timeline :=
  match b with
  | .unbound => Timeline.zero
  | .copy => cr.copyTl
  | .matrix r => (Table.get? cr.mxTl r).getD Timeline.zero
  | .named n => match Table.get? s.contexts cr.ctx with
    | some x => (Table.get? x.timelines n).getD Timeline.zero
    | none => Timeline.zero

/-- The handle of the bundle's crew is bound. -/
def State.handleBound (s : State) (k : Nat) : Bool :=
  match s.curCrew? with
  | some cr => cr.handle k ≠ .unbound
  | none => false

/-- The lowest failed operation of the context that a handle names, when a value reaches it (R209). -/
def Crew.failedAt (cr : Crew) (b : TlBind) (n : Nat) : Option Nat :=
  match b, cr.copyFailed with
  | .copy, some f => if f ≤ n then some f else none
  | _, _ => none

/-- `tl.wait.S tlk, va` (R12, R172, R209); the trap of a failed operation is the waiting thread's alone
(notes/assumptions/21.md). -/
def execTlWait (va : BitVec 7) (sc : BitVec 3) (k : BitVec 4) (s : State) : Host.Outcome State Fault Refusal :=
  .next (s.guarded (lx [lxSrc64 va] (decide (5 < sc.toNat) || !s.handleBound k.toNat)) fun s =>
    s.lanewise .now (fun _ => []) fun t ln th =>
      match t.curCrew? with
      | none => t
      | some cr =>
        let n := (th.read64 va).toNat
        let b := cr.handle k.toNat
        match cr.failedAt b n with
        | some f => t.trapLane ln.tid Code.copyFault f
        | none =>
          if n ≤ (t.timeline cr b).counter then t.finishLane ln.tid .now [] []
          else t.park t.cur.crew ln.tid (.timeline k.toNat))

/-- `tl.rd vd, tlk` (R172). -/
def execTlRd (vd : BitVec 7) (k la : BitVec 4) (s : State) : Host.Outcome State Fault Refusal :=
  .next (s.guarded (lx [lxDst64 vd] (!s.handleBound k.toNat)) fun s =>
    match s.curCrew? with
    | none => s
    | some cr => s.complete (.after la.toNat) (fun _ th =>
        th.loadResults vd true (BitVec.ofNat 64 (s.timeline cr (cr.handle k.toNat)).counter)))

/-! ## The crew barrier -/

/-- Every thread that has not ended has arrived, and some thread has (R173). -/
def Crew.barrierFull (cr : Crew) : Bool :=
  cr.threads.any (fun e => !e.2.ended) && cr.threads.all (fun e => e.2.ended || e.2.atBarrier)

/-- The barrier's generation completes when it is full (R126, R173): every arrived thread is released and enters a new
region with its live-in set; a uniform epoch and, with the rollback flag, a rollback epoch begin. -/
def State.checkBarrier (s : State) (c : Nat) : State :=
  match s.crew? c with
  | none => s
  | some cr =>
    if !cr.barrierFull then s
    else
      let parked := cr.threads.filterMap (fun e => if e.2.wait = some .barrier then some e.1 else none)
      let s := s.modThreads c (fun _ th =>
        { th with atBarrier := false, barPassed := th.atBarrier && th.wait ≠ some .barrier })
      let s := parked.foldl (fun (s : State) t => (s.release c t 0 []).closeRegion c t) s
      s.modCrew c (fun x =>
        let x := { x with barGen := x.barGen + 1#32, roles := x.roles.map Role.newEpoch }
        if x.reserve.isSome then { x with reserve := some x.openEpoch } else x)

/-- `bar.crew` (R173): a release at .crew of the thread's earlier accesses; a thread that has arrived already waits
without arriving again. -/
def execBarCrew (s : State) : Host.Outcome State Fault Refusal :=
  .next (s.guarded (lx [] false) fun s =>
    let s := s.lanewise .now (fun _ => []) fun t ln th =>
      if th.barPassed then
        ((t.modThread t.cur.crew ln.tid (fun th => { th with barPassed := false })).finishLane ln.tid .now [] []).closeRegion
          t.cur.crew ln.tid
      else t.drained ln.tid none .fence fun t =>
        (t.modThread t.cur.crew ln.tid (fun th => { th with atBarrier := true })).park t.cur.crew ln.tid .barrier
    s.checkBarrier s.cur.crew)

end Sys2Proof.Machine
end

