-- ==== Sys2Proof/Machine/Copy.lean ====
section
/-! DEFINITION. The copy engine: per-thread copies and their tags, bulk copies with their latches, die lines and
timeline, and far atomics: major 0x37 and its events (R197 to R211). -/

namespace Sys2Proof.Machine

open Sys2Proof

/-! ## Die lines under a copy (R18, R19, R209) -/

/-- A copy that writes the line is issued. -/
def LineMark.start (m : LineMark) : LineMark := { m with writers := m.writers + 1, present := false }

/-- A copy has written all its bytes of the line: the bit is set when no writer is left, and a fault mark clears. A copy
that was in flight when another failed on the line counts as a later copy of R209 when it finishes after that
(notes/assumptions/90.md). -/
def LineMark.finish (m : LineMark) : LineMark :=
  if m.writers ≤ 1 then { present := true, writers := 0, faulted := false } else { m with writers := m.writers - 1 }

/-- A copy that writes the line has ended without writing it: the line stays absent and is faulted. -/
def LineMark.fail (m : LineMark) : LineMark := { present := false, writers := m.writers - 1, faulted := true }

/-- The mark of the line of a die offset replaced by its image. -/
def State.modDieLine (s : State) (c off : Nat) (f : LineMark → LineMark) : State :=
  s.modWindow c off (fun w => w.modLine (inWindow off / 64) f)

/-- The crews that reach the line of a crew's die offset: the crew itself, or every crew of the launch on the die. -/
def State.lineCrews (s : State) (c off : Nat) : List (Nat × Crew) :=
  match s.crew? c with
  | none => []
  | some cr => s.crews.filter (fun e =>
      e.1 = c || (decide (launchBase ≤ off) && e.2.launch = cr.launch && e.2.die = cr.die))

/-- The offset of the line that a thread is parked on. -/
def Wait.line? : Wait → Option Nat
  | .line off => some (off / 64 * 64)
  | .uniformLine off _ _ => some (off / 64 * 64)
  | .obLine (some off) => some (off / 64 * 64)
  | _ => none

/-- A pull, or the read of one that was abandoned, that waits for a line meets its fault when it goes on (R19). -/
def Pause.faultLine (w : Pause) (off : Nat) : Pause :=
  if w.line.any (fun o => o / 64 = off / 64) then { w with failure := some (Code.copyFault, off) } else w
def ItStack.faultLine (st : ItStack) (off : Nat) : ItStack :=
  { st with
    pull := st.pull.map (fun p => { p with pause := p.pause.map (fun w => w.faultLine off) })
    flight := st.flight.map (fun w => w.faultLine off) }

/-- What a failed line does to a crew's threads (R19, R209): a parked access takes COPY_FAULT at once, as does the oldest
store of a FIFO that waits for the line; a pull or a per-thread copy that waits for it fails when it goes on. -/
def State.faultWaiters (s : State) (c off : Nat) (cr : Crew) : State :=
  let s := s.modCrew c (fun x => { x with iters := Table.mapVals x.iters (fun _ st => st.faultLine off) })
  let s := s.modThreads c (fun _ th =>
    match th.wait with
    | some (.copySource o _) => if o / 64 = off / 64 then { th with wait := some (.copySource o true) } else th
    | _ => th)
  let s := (cr.threads.filter (fun t => t.2.fifo.head?.any (fun e => e.space = .die && e.addr / 64 = off / 64))).foldl
    (fun (s : State) t => (s.drainHead c t.1).1) s
  (cr.threads.filter (fun t => (t.2.wait.bind Wait.line?) = some off)).foldl
    (fun (s : State) t => match s.thread? c t.1 with
      | some th => if th.wait = t.2.wait then s.trapWaiter c t.1 Code.copyFault off else s
      | none => s) s

/-- A copy ends without writing a line: the line is faulted, for every access parked on it and every new one (R19, R209). -/
def State.faultLine (s : State) (c off : Nat) : State :=
  let s := s.modDieLine c off LineMark.fail
  (s.lineCrews c off).foldl (fun (s : State) e => s.faultWaiters e.1 (off / 64 * 64) e.2) s

/-! ## Local bytes for the engines -/

/-- A local space of an address form, and the offset; none for main memory and for no form. -/
def AddrForm.local? : AddrForm → Option (Space × Nat)
  | .sh o => some (.sh, o)
  | .die o => some (.die, o)
  | .fl o => some (.fl, o)
  | _ => none

/-- The bytes of a crew's space, as an engine reads them. -/
def State.engineBytes (s : State) (cr : Crew) (sp : Space) (off n : Nat) : List Byte :=
  match sp with
  | .stk => []
  | .sh => Mem.readBytes cr.shared off n
  | .die => s.readDie cr off n
  | .fl => Mem.readBytes (cr.tile (off / 4096)).bytes (off % 4096) n

/-- An error in the bytes that an engine reads. -/
def State.enginePoison (s : State) (cr : Crew) (sp : Space) (off n : Nat) : Bool :=
  decide (0 < n) &&
    match sp with
    | .stk => false
    | .sh => poisonHit cr.shPoison 8 off n
    | .die => poisonHit (s.window cr off).poison 8 (inWindow off) n
    | .fl => false

/-- Bytes of a crew's space written by an engine, as one access; a tile decides by its life (R219). -/
def State.engineWrite (s : State) (c : Nat) (sp : Space) (off : Nat) (bs : List Byte) : State :=
  s.performStore c 0 { space := sp, addr := off, bytes := bs, pc := 0#32, word := 0#32, pfx := 0#32,
                       strong := false, group := 0 }

/-! ## Per-thread copies (R198 to R201) -/

/-- The 64-bit address in two registers of a block. -/
def Thread.blockPair (th : Thread) (f : BitVec 7) (i : Nat) : Nat :=
  (pairOf (th.readReg (th.blockReg f i)) (th.readReg (th.blockReg f (i + 1)))).toNat

/-- What an address is reported as: a local offset, or the main address. -/
def addrInfo (a : Nat) : Nat :=
  match (addrForm a).local? with
  | some (_, o) => o
  | none => a

/-- An access of n bytes at a local address outside its window, with the code of its space (R27). -/
def State.localBounds (s : State) (cr : Crew) (a n : Nat) : Option (Code × Nat) :=
  match (addrForm a).local? with
  | some (sp, o) => if s.inBounds cr sp o n then none else some (boundsCode sp, o)
  | none => none

/-- The checks of R198 on one lane's destination, source and count, in their order. -/
def cpTForm (dst src : Nat) : Option (Code × Nat) :=
  if addrForm dst = .bad then some (Code.addrForm, dst)
  else match addrForm src with
    | .bad => some (Code.addrForm, src)
    | .fl _ => some (Code.addrForm, src)
    | _ => none
def cpTAlign (dst src n : Nat) : Option (Code × Nat) :=
  if dst % 32 ≠ 0 then some (Code.align, addrInfo dst)
  else if 0 < n ∧ src / 64 ≠ (src + n - 1) / 64 then some (Code.align, addrInfo src)
  else none
def State.cpTBounds (s : State) (cr : Crew) (dst src n : Nat) : Option (Code × Nat) :=
  match s.localBounds cr dst 32 with
  | some e => some e
  | none => s.localBounds cr src n

/-- Every destination byte lies in the crew's shared memory (R352). -/
def staysShared (dst : Nat) : Bool :=
  match addrForm dst with
  | .sh _ => true
  | _ => false

/-- The count of a tag of a thread. -/
def Thread.tag (th : Thread) (k : Nat) : Nat := Sparse.get 0 th.tagCount k

/-- The bytes of a local source, read at issue; or the failure of a source line that ended faulted, also while the thread
was parked on it, or of an error in the bytes (R201, R347). -/
def State.cpTSource (s : State) (cr : Crew) (th : Thread) (src n : Nat) :
    Option (List Byte) × Option (Code × Nat) :=
  if n = 0 then (some [], none)
  else match (addrForm src).local? with
    | none => (none, none)
    | some (sp, o) =>
      if sp = .die && ((s.dieLine cr o).faulted || th.wait = some (Wait.copySource o true)) then (none, some (Code.copyFault, src))
      else if s.enginePoison cr sp o n then (none, some (poisonCode sp, src))
      else (some (s.engineBytes cr sp o n), none)

/-- A lower lane of the same `cp.t` has not issued its element: the lanes issue one after another (R198). -/
def Crew.copyBehind (cr : Crew) (seq tid : Nat) : Bool :=
  cr.threads.any (fun t => decide (t.1 < tid) && t.2.parkIssue = seq &&
    match t.2.wait with
    | some .copyIssue => true
    | some (.copySource _ _) => true
    | _ => false)

/-- A lane's element issues (R198), or its thread parks: behind a lower lane, on the tag's count, on an absent source line,
on a line with 15 writers. -/
def State.cpTLane (s : State) (tid k dst src n : Nat) : State :=
  match s.curCrew? with
  | none => s
  | some cr => match Table.get? cr.threads tid with
    | none => s
    | some th =>
      let absent := match addrForm src with
        | .die o => decide (0 < n) && !(s.dieLine cr o).present && !(s.dieLine cr o).faulted &&
            decide (th.wait ≠ some (Wait.copySource o true))
        | _ => false
      let full := match addrForm dst with
        | .die o => decide (15 ≤ (s.dieLine cr o).writers)
        | _ => false
      if cr.copyBehind s.cur.seq tid || decide (63 ≤ th.tag k) || full then s.park s.cur.crew tid .copyIssue
      else if absent then s.park s.cur.crew tid (.copySource (addrInfo src) false)
      else
        let id := s.nextId
        let source := s.cpTSource cr th src n
        let e : TElem :=
          { crew := s.cur.crew, tid := tid, ctx := cr.ctx, die := cr.die, cluster := cr.homeCluster th, tag := k, dst := dst,
            src := src, n := n, data := source.1, failed := source.2, xlate := none }
        let s := { s with nextId := id + 1, elems := Table.put s.elems id e }
        let s := match addrForm dst with
          | .die o => s.modDieLine s.cur.crew o LineMark.start
          | _ => s
        let s := s.modThread s.cur.crew tid (fun th => { th with tagCount := Sparse.set 0 th.tagCount k (th.tag k + 1) })
        let s := if staysShared dst then s else s.outward
        let s := s.finishLane tid .now [] []
        if isMain dst then s.closeRegion s.cur.crew tid else s

/-- `cp.t tagk, vA, vn` (R198). -/
def execCpT (va vb : BitVec 7) (k : BitVec 3) (s : State) : Host.Outcome State Fault Refusal :=
  let l : Legality :=
    { opnds := [lxSrc32 vb], illegal := blockIllegal s.curBudget va 4 true, cls := PfxClass.predOnly,
      blocks := [(va, 4)] }
  let dst := fun (th : Thread) => th.blockPair va 0
  let src := fun (th : Thread) => th.blockPair va 2
  let n := fun (th : Thread) => (th.read32 vb).toNat
  .next (s.guarded l fun s =>
    match s.curCrew? with
    | none => s
    | some cr =>
      match s.codeTrap (fun _ th => if 32 < n th then some (Code.copyCount, n th) else none) with
      | some t => t
      | none =>
        match s.codeTrap (fun _ th => cpTForm (dst th) (src th)) with
        | some t => t
        | none =>
          match s.codeTrap (fun _ th => cpTAlign (dst th) (src th) (n th)) with
          | some t => t
          | none =>
            match s.codeTrap (fun _ th => s.cpTBounds cr (dst th) (src th) (n th)) with
            | some t => t
            | none =>
              s.lanewise .now (fun _ => []) fun t ln th =>
                t.drained ln.tid none .copyIssue fun t => t.cpTLane ln.tid k.toNat (dst th) (src th) (n th))

/-- A lane waits until its tags count 0, and takes the error of the lowest tag that has one (R199, R201). -/
def State.tagWait (s : State) (tags : List Nat) : State :=
  s.lanewise .now (fun _ => []) fun t ln th =>
    if tags.any (fun k => th.tag k ≠ 0) then t.park t.cur.crew ln.tid .copyTag
    else match tags.findSome? (fun k => (Table.get? th.tagErr k).map (fun e => (k, e))) with
      | some (k, e) =>
        (t.modThread t.cur.crew ln.tid (fun u => { u with tagErr := Table.drop u.tagErr k })).trapLane ln.tid e.code e.addr
      | none => t.finishLane ln.tid .now [] []

/-- `cp.wait #k` (R199). -/
def execCpWait (k : BitVec 3) (s : State) : Host.Outcome State Fault Refusal :=
  .next (s.guarded (lx [] false) fun s => s.tagWait [k.toNat])

/-- `cp.wait.all` (R199). -/
def execCpWaitAll (s : State) : Host.Outcome State Fault Refusal :=
  .next (s.guarded (lx [] false) fun s => s.tagWait [0, 1, 2, 3, 4, 5, 6, 7])

/-- `cp.cnt vd, #k` (R199). -/
def execCpCnt (vd : BitVec 7) (k : BitVec 3) (la : BitVec 4) (s : State) : Host.Outcome State Fault Refusal :=
  .next (s.guarded (lx [lxDst32 vd] false) fun s =>
    s.complete (.after la.toNat) (fun _ th => [(.reg (th.regOf vd), BitVec.ofNat 32 (th.tag k.toNat))]))

/-- An element has performed or failed: its tag counts down, its line has one writer less, and a failure is the tag's
error if it is the first (R201). -/
def State.endElem (s : State) (id : Nat) (e : TElem) (failed : Option (Code × Nat)) : State :=
  let s := { s with elems := Table.drop s.elems id }
  let s := match addrForm e.dst with
    | .die o => if failed.isSome then s.faultLine e.crew o else s.modDieLine e.crew o LineMark.finish
    | _ => s
  let s := s.modThread e.crew e.tid (fun th =>
    { th with
      tagCount := Sparse.set 0 th.tagCount e.tag (th.tag e.tag - 1)
      tagErr := match failed with
        | some f => if (Table.get? th.tagErr e.tag).isSome then th.tagErr
          else Table.put th.tagErr e.tag { code := f.1, addr := f.2 }
        | none => th.tagErr })
  s.reap e.crew

/-- The element's 32 bytes are written at its destination as one access. -/
def State.writeElem (s : State) (id : Nat) (e : TElem) (bs : List Byte) : State :=
  let bs := bs ++ List.replicate (32 - bs.length) 0#8
  match (addrForm e.dst).local? with
  | some (sp, o) => (s.engineWrite e.crew sp o bs).endElem id e none
  | none =>
    match s.readyMain e.ctx e.dst 32 1 (some (e.crew, e.tid)) with
    | (.ok, s) => ((s.askPeers e.ctx e.dst 32 1).writeMain e.ctx e.dst bs).endElem id e none
    | (.waits r, s) => { s with elems := Table.put s.elems id { e with xlate := some r } }
    | (f, s) => s.endElem id e (some (f.code, f.info e.dst))

/-- An earlier element of the same thread to the same bytes has not performed (R200). -/
def State.elemBehind (s : State) (id : Nat) (e : TElem) : Bool :=
  s.elems.any (fun x => decide (x.1 < id) && x.2.crew = e.crew && x.2.tid = e.tid && x.2.dst = e.dst)

/-- One element of a per-thread copy performs, waits for a translation, or fails (R198, R200, R201). -/
def State.stepElem (s : State) (elem : Nat) : State :=
  match Table.get? s.elems elem with
    | none => s
    | some e =>
      if e.xlate.isSome || s.elemBehind elem e || s.drainOver e.crew then s
      else match e.failed with
        | some f => s.endElem elem e (some f)
        | none =>
          match e.data with
          | some bs => s.writeElem elem e bs
          | none =>
            match s.readyMain e.ctx e.src e.n 0 (some (e.crew, e.tid)) with
            | (.ok, s) =>
              let s := s.askPeers e.ctx e.src e.n 0
              if s.mainPoisoned e.ctx e.src e.n then s.endElem elem e (some (Code.ueMain, e.src))
              else s.writeElem elem e (s.readMain e.ctx e.src e.n)
            | (.waits r, s) => { s with elems := Table.put s.elems elem { e with xlate := some r } }
            | (f, s) => s.endElem elem e (some (f.code, f.info e.src))

/-- The address of an element's access to a page: its source, unless that has been read or lies elsewhere (R198). -/
def TElem.accessAt (e : TElem) (page : Nat) : Nat :=
  if e.data.isNone && isMain e.src && (pagesOf e.src e.n).any (fun b => b / pageBytes = page / pageBytes) then e.src
  else e.dst

/-- CPT_ELEMENT_PERFORM. -/
def execCptElementPerform (elem : Nat) (s : State) : Host.Outcome State Fault Refusal := .next (s.stepElem elem)

/-! ## Request records (R202, R203) -/

/-- A 32-bit field as a signed stride. -/
def stride (v hi lo : Nat) : Int := (BitVec.ofNat 32 (bitsOf v hi lo)).toInt

/-- The shape of a record. -/
def recShape (v : Nat) : CopyShape :=
  { n0 := bitsOf v 143 128, n1 := bitsOf v 159 144, n2 := bitsOf v 175 160, n3 := bitsOf v 191 176,
    ss1 := stride v 223 192, ss2 := stride v 255 224, ss3 := stride v 287 256,
    ds1 := stride v 319 288, ds2 := stride v 351 320, ds3 := stride v 383 352, esize := 2 ^ bitsOf v 386 384 }

def recSrc (v : Nat) : Nat := bitsOf v 63 0
def recDst (v : Nat) : Nat := bitsOf v 127 64
def recTl (v : Nat) : Nat := bitsOf v 391 388
def recLatch (v : Nat) : Option Nat := if bitsOf v 392 392 = 1 then some (16 * bitsOf v 432 416) else none
def recFill (v : Nat) : Bool := bitsOf v 393 393 = 1
def recMcast (v : Nat) : Nat := bitsOf v 415 400

/-- Elements of a shape. -/
def CopyShape.count (p : CopyShape) : Nat := p.n0 * p.n1 * p.n2 * p.n3

/-- The offset of element i from SRC and from DST (R203), elements counted with dimension 0 fastest. -/
def CopyShape.srcOff (p : CopyShape) (i : Nat) : Int :=
  (i % p.n0 : Nat) * (p.esize : Int) + (i / p.n0 % p.n1 : Nat) * p.ss1 + (i / p.n0 / p.n1 % p.n2 : Nat) * p.ss2 +
    (i / p.n0 / p.n1 / p.n2 : Nat) * p.ss3
def CopyShape.dstOff (p : CopyShape) (i : Nat) : Int :=
  (i % p.n0 : Nat) * (p.esize : Int) + (i / p.n0 % p.n1 : Nat) * p.ds1 + (i / p.n0 / p.n1 % p.n2 : Nat) * p.ds2 +
    (i / p.n0 / p.n1 / p.n2 : Nat) * p.ds3

/-- The lowest and the highest offset that a dimension reaches. -/
def span (n : Nat) (st : Int) : Int × Int := if st < 0 then (((n : Int) - 1) * st, 0) else (0, ((n : Int) - 1) * st)

/-- The lowest offset of an element, and the end of the highest. -/
def boxOf (p : CopyShape) (a b c : Int) : Int × Int :=
  let s0 := span p.n0 p.esize
  let s1 := span p.n1 a
  let s2 := span p.n2 b
  let s3 := span p.n3 c
  (s0.1 + s1.1 + s2.1 + s3.1, s0.2 + s1.2 + s2.2 + s3.2 + p.esize)
def CopyShape.srcBox (p : CopyShape) : Int × Int := boxOf p p.ss1 p.ss2 p.ss3
def CopyShape.dstBox (p : CopyShape) : Int × Int := boxOf p p.ds1 p.ds2 p.ds3

/-- The lowest bit that is set at or above a bit of a field, within n bits. -/
def lowBit (v lo : Nat) : Nat → Option Nat
  | 0 => none
  | n + 1 => if v.testBit lo then some lo else lowBit v (lo + 1) n

/-- The lowest offending bit of a record's fields (R202). -/
def recFieldBad (v : Nat) (tlOk : Bool) : Option Nat :=
  let fields : List (Option Nat) :=
    [ if recFill v && recSrc v ≠ 0 then some 0 else none,
      if bitsOf v 143 128 = 0 then some 128 else none, if bitsOf v 159 144 = 0 then some 144 else none,
      if bitsOf v 175 160 = 0 then some 160 else none, if bitsOf v 191 176 = 0 then some 176 else none,
      if bitsOf v 386 384 = 7 then some 384 else none, lowBit v 387 1, if tlOk then none else some 388,
      lowBit v 394 6, lowBit v 433 79 ]
  fields.findSome? id

/-- More than 2^40 bytes in all (R203). -/
def recHuge (v : Nat) : Bool := decide (2 ^ 40 < (recShape v).count * (recShape v).esize)

/-- The latch's 16 bytes overlap an element at the destination (R203). -/
def latchOverlaps (p : CopyShape) (dst latch : Nat) : Bool :=
  match addrForm dst with
  | .sh o => (List.range p.count).any (fun i =>
      let a := (o : Int) + p.dstOff i
      decide (a < latch + 16) && decide ((latch : Int) < a + p.esize))
  | _ => false
def recOverlaps (v : Nat) : Bool :=
  match recLatch v with
  | some l => latchOverlaps (recShape v) (recDst v) l
  | none => false

/-- COPY_REC for a record's fields: the lowest bit of the fields that offend and of the conditions of R203 that offend
with them (R202). -/
def recBad (v : Nat) (tlOk : Bool) : Option Nat :=
  (recFieldBad v tlOk).map (fun b =>
    let b := if recHuge v then min b 128 else b
    if b < 416 || !recOverlaps v then b else 416)

/-- A stride that its dimension uses and that is not a multiple of the element size. -/
def badStride (n : Nat) (st : Int) (e : Nat) : Bool := decide (1 < n) && decide (st % (e : Int) ≠ 0)

/-- The clusters that MCAST names beside the kicking one (R207). -/
def mcastClusters (cluster mcast : Nat) : List Nat :=
  ((List.range 16).filter (fun i => mcast.testBit i)).map (fun i => 16 * (cluster / 16) + i)

/-- The crew of a launch that has a cluster as its home, or as the lower cluster of its pair. Several crews of a launch can
share it: the first of the crew table is the one (notes/assumptions/101.md). -/
def State.receiverAt (s : State) (cr : Crew) (k : Nat) : Option Nat :=
  (s.crews.find? (fun e => e.2.launch = cr.launch && !e.2.killed && e.2.die = cr.die && e.2.cluster = k)).map (·.1)

/-- The crews that MCAST names and that are there. -/
def State.mcastThere (s : State) (cr : Crew) (cluster mcast : Nat) : List Nat :=
  (mcastClusters cluster mcast).filterMap (s.receiverAt cr)

/-- The crews that MCAST names: none when a bit names no crew of the launch, or the upper cluster of a pair (R207). -/
def State.mcastCrews (s : State) (cr : Crew) (cluster mcast : Nat) : Option (List Nat) :=
  if (mcastClusters cluster mcast).all (fun k => (s.receiverAt cr k).isSome) then some (s.mcastThere cr cluster mcast)
  else none

/-- A cluster that MCAST names holds a crew of the launch that is being saved or has been saved (R300, R303). -/
def State.mcastSaved (s : State) (cr : Crew) (cluster mcast : Nat) : Bool :=
  (mcastClusters cluster mcast).any (fun k =>
    s.crews.any (fun e => e.2.launch = cr.launch && e.2.die = cr.die && e.2.cluster = k && e.2.saving.isSome) ||
      match Table.get? s.contexts cr.ctx with
      | some x => x.saved.any (fun v => v.launch = cr.launch && v.crew.die = cr.die && v.crew.cluster = k)
      | none => false)

/-- A kick parks because a crew that it names is away: each such crew is to come back to its former place (R303). -/
def State.nameAway (s : State) (cr : Crew) (cluster mcast : Nat) : State :=
  let named := fun (x : Crew) => x.launch = cr.launch && x.die = cr.die && (mcastClusters cluster mcast).contains x.cluster
  ({ s with crews := Table.mapVals s.crews (fun _ x =>
      if named x && x.saving.isSome then { x with kickNamed := true } else x) }).modContext cr.ctx (fun x =>
    { x with saved := x.saved.map (fun (v : SavedCrew) => if named v.crew then { v with homeFixed := true } else v) })

/-- The crews that receive a record's copy. -/
def State.receivers (s : State) (c : Nat) (cr : Crew) (cluster v : Nat) : Option (List Nat) :=
  if recMcast v = 0 then some [c] else s.mcastCrews cr cluster (recMcast v)

/-- A copy with an element at a local base that lies in none of the crew's windows (R203). The elements' hull in one window
answers for all of them; otherwise each is held against its own. INFO is the base (notes/assumptions/102.md). -/
def State.boxBounds (s : State) (cr : Crew) (base : Nat) (box : Int × Int) (p : CopyShape) (off : Nat → Int) :
    Option (Code × Nat) :=
  match (addrForm base).local? with
  | none => none
  | some (sp, o) =>
    let lo := (o : Int) + box.1
    let w := s.windowSpan cr sp lo
    if w.1 ≤ lo ∧ (o : Int) + box.2 ≤ w.2 then none
    else if (List.range p.count).all (fun i => s.inBounds cr sp ((o : Int) + off i) p.esize) then none
    else some (boundsCode sp, o)

/-- A latch lies within a crew's shared allocation. -/
def State.latchFits (s : State) (c latch : Nat) : Bool :=
  match s.crew? c with
  | some x => decide (latch + 16 ≤ x.sharedSize)
  | none => false

/-- The latch of a record lies within every receiver's allocation (R203). Where MCAST names the kicking crew and the latch
lies beyond that crew's own allocation, the code is BOUNDS_SH (notes/assumptions/103.md). -/
def State.latchCheck (s : State) (c : Nat) (cr : Crew) (k v : Nat) : Option (Code × Nat) :=
  match recLatch v, s.receivers c cr k v with
  | some l, some ds =>
    if ds.contains c && !s.latchFits c l then some (Code.boundsSh, l)
    else if ds.any (fun d => !s.latchFits d l) then some (Code.copyMcast, recMcast v) else none
  | _, _ => none

/-- The crews that MCAST names can receive (R207). -/
def State.mcastCheck (s : State) (c : Nat) (cr : Crew) (k v : Nat) : Option (Code × Nat) :=
  if recMcast v = 0 then none
  else match addrForm (recDst v), s.receivers c cr k v with
    | .sh o, some ds =>
      if ds.any (fun d => match s.crew? d with
          | some x => decide ((x.sharedSize : Int) < o + (recShape v).dstBox.2)
          | none => false) then some (Code.copyMcast, recMcast v) else none
    | _, _ => some (Code.copyMcast, recMcast v)

/-- The checks of R202 and R203 on a record alone, in order, each with its code and INFO. -/
def State.recordChecks (s : State) (cr : Crew) : List (Nat → Nat → Option (Code × Nat)) :=
  [ -- 2: address forms
    fun _ v =>
      if addrForm (recSrc v) = .bad then some (Code.addrForm, recSrc v)
      else if addrForm (recDst v) = .bad then some (Code.addrForm, recDst v) else none,
    -- 3: the fields of R202
    fun _ v => (recBad v (cr.handle (recTl v) = .copy)).map (fun b => (Code.copyRec, b)),
    -- 4: the rows of R203
    fun _ v => if recHuge v then some (Code.copyRec, 128) else none,
    fun _ v =>
      let p := recShape v
      if recSrc v % p.esize ≠ 0 || badStride p.n1 p.ss1 p.esize || badStride p.n2 p.ss2 p.esize ||
          badStride p.n3 p.ss3 p.esize then some (Code.align, addrInfo (recSrc v))
      else if recDst v % p.esize ≠ 0 || badStride p.n1 p.ds1 p.esize || badStride p.n2 p.ds2 p.esize ||
          badStride p.n3 p.ds3 p.esize then some (Code.align, addrInfo (recDst v))
      else none,
    fun _ v => match addrForm (recSrc v) with
      | .fl _ => some (Code.addrForm, recSrc v)
      | _ => none,
    fun _ v =>
      let p := recShape v
      match if recFill v then none else s.boxBounds cr (recSrc v) p.srcBox p p.srcOff with
      | some e => some e
      | none => s.boxBounds cr (recDst v) p.dstBox p p.dstOff,
    fun _ v => if recOverlaps v then some (Code.copyRec, 416) else none]

/-! ## Kick (R204, R207) -/

/-- The destination die offsets, by line, that a copy's elements touch. -/
def Copy.lineOf (c : Copy) (i : Nat) : Option Nat :=
  match addrForm c.dst with
  | .die o => some (((o : Int) + c.shape.dstOff i).toNat / 64 * 64)
  | _ => none
def Copy.lines (c : Copy) : List Nat := ((List.range c.shape.count).filterMap c.lineOf).eraseDups

/-- The request engine of a cluster has room for one more bulk copy (R204). -/
def State.engineRoom (s : State) (die cluster : Nat) : Bool :=
  decide ((s.copies.filter (fun e => e.2.die = die && e.2.cluster = cluster)).length < 256)

/-- The engine has room, and every line can take one more writer (R18, R204). -/
def State.kickRoom (s : State) (c : Copy) : Bool :=
  s.engineRoom c.die c.cluster &&
    match s.crew? c.crew with
    | some cr => c.lines.all (fun l => decide ((s.dieLine cr l).writers < 15))
    | none => false

/-- The operation of a copy is complete for its context; with a failure, the lowest failed number is kept (R209). -/
def State.endCopyOp (s : State) (c op : Nat) (failed : Bool) : State :=
  s.modCrew c (fun cr =>
    { cr with
      copyTl := cr.copyTl.finish op
      copyFailed := if failed then (match cr.copyFailed with
        | some f => some (min f op)
        | none => some op) else cr.copyFailed })

/-- Arming would take the latch of a receiving crew past its field (R204). -/
def State.armOverflows (s : State) (d latch total : Nat) : Bool :=
  match s.crew? d with
  | some x => !(x.latch latch).malformed && decide (2 ^ 48 - 1 < (x.latch latch).bytes + total)
  | none => false

/-- A copy is accepted: numbered, its latches armed, its die lines taken (R204). -/
def State.acceptCopy (s : State) (c : Copy) : State :=
  let total := c.shape.count * c.shape.esize
  let s := s.modCrew c.crew (fun cr => { cr with copyTl := cr.copyTl.accept })
  let tooFull := match c.latch with
    | some l => c.dests.filter (fun d => s.armOverflows d l total)
    | none => []
  if tooFull ≠ [] then
    let s := tooFull.foldl (fun (s : State) d => s.modCrew d (fun x => x.latchErr (c.latch.getD 0) Code.latchOver)) s
    let s := s.endCopyOp c.crew c.op true
    match s.crew? c.crew with
    | some cr => s.log cr.ctx (s.crewRecord cr Code.latchOver 0 c.op 0 0) (some c.crew)
    | none => s
  else
    let s := match c.latch with
      | some l => c.dests.foldl (fun (s : State) d => s.armLatch d l total) s
      | none => s
    let s := c.lines.foldl (fun (s : State) l => s.modDieLine c.crew l LineMark.start) s
    { s with nextId := s.nextId + 1, copies := Table.put s.copies s.nextId c }

/-- The record of a lane, as its thread's stores leave it. -/
def State.kickRecord (s : State) (cr : Crew) (th : Thread) (off : Nat) : Nat :=
  leNat (forwardedBytes th.fifo .sh off (s.readSpace cr th .sh off 64))

/-- The copy that a record describes, kicked by a thread (R204). -/
def State.copyOf (s : State) (c : Nat) (cr : Crew) (cluster v : Nat) : Copy :=
  { crew := c, ctx := cr.ctx, die := cr.die, cluster := cluster, op := cr.copyTl.accepted + 1, src := recSrc v,
    dst := recDst v, shape := recShape v, fill := recFill v, latch := recLatch v,
    dests := if recMcast v = 0 then [c] else s.mcastThere cr cluster (recMcast v), mcast := recMcast v, written := [], stalled := none, births := [],
    lapsed := [] }

/-- A lane of the same kick with a lower thread id waits: numbers go to the lanes in ascending order (R204). -/
def Crew.kickBehind (cr : Crew) (seq tid : Nat) : Bool :=
  cr.threads.any (fun t => decide (t.1 < tid) && t.2.parkIssue = seq &&
    match t.2.wait with
    | some (.kick _) => true
    | _ => false)

/-- A lane of the kick still waits to be accepted. -/
def Crew.kickPending (cr : Crew) (seq : Nat) : Bool :=
  cr.threads.any (fun t => t.2.parkIssue = seq &&
    match t.2.wait with
    | some (.kick _) => true
    | _ => false)

/-- The threads whose copies have been accepted go on when every lane's has (R204). -/
def State.freeOthers (s : State) (c seq : Nat) : State :=
  match s.crew? c with
  | none => s
  | some cr =>
    if cr.kickPending seq then s
    else s.modThreads c (fun _ th => if th.wait = some (.others seq) then { th with wait := none } else th)

/-- One lane of a kick, with its checked record: it parks with the record while the engine or a line has no room, while a
crew that it names is away (R303), and behind a lower lane; and is otherwise accepted. A crew that it names and that has
been killed since the check receives nothing (notes/assumptions/104.md). -/
def State.kickLane (s : State) (tid : Nat) (th : Thread) (v : Nat) (vd : Option (BitVec 7)) (la : Nat) : State :=
  match s.curCrew? with
  | none => s
  | some cr =>
    let c := s.cur.crew
    let k := cr.homeCluster th
    let copy := s.copyOf c cr k v
    if s.mcastSaved cr k (recMcast v) then (s.nameAway cr k (recMcast v)).park c tid (.kick (some v))
    else if cr.kickBehind s.cur.seq tid || !s.kickRoom copy then s.park c tid (.kick (some v))
    else
      let s := s.acceptCopy copy
      let s := if staysShared (recDst v) && copy.dests.all (· = c) then s else s.modCrew c Crew.outward
      let rs := match vd with
        | some f => th.loadResults f true (BitVec.ofNat 64 copy.op)
        | none => []
      ((s.finishLane tid (.after la) rs []).closeRegion c tid).modThread c tid (fun u =>
        { u with wait := some (.others s.cur.seq) })

/-- The lanes of a kick, each with its record. -/
def State.kickLanes (s : State) (record : Thread → Nat) (vd : Option (BitVec 7)) (la : Nat) : State :=
  (s.lanewise (.after la) (fun _ => []) fun t ln th => t.kickLane ln.tid th (record th) vd la).freeOthers
    s.cur.crew s.cur.seq

/-- A lane of a kick waits for a crew that it names (R303). One whose destination is no shared address fails R207 whether
that crew is there or not. -/
def State.kickAway (s : State) (cr : Crew) (k v : Nat) : Bool := staysShared (recDst v) && s.mcastSaved cr k (recMcast v)

/-- A kick whose lanes have all reached their release point (R54): the records are read once and checked over every active
lane, in the order of R204, so that a failure lets no lane kick. While a crew that a lane names is away the whole bundle
waits before the checks against that crew (R303). -/
def State.kickChecked (s : State) (va : BitVec 7) (vd : Option (BitVec 7)) (la : Nat) : State :=
  match s.curCrew? with
  | none => s
  | some cr =>
    match s.lanePoison .sh 64 true (fun _ th => ((th.read32 va).toNat : Int)) with
    | some x => s.consume Code.ueSh x
    | none =>
      let record := fun (th : Thread) => s.kickRecord cr th (th.read32 va).toNat
      let first := fun (cs : List (Nat → Nat → Option (Code × Nat))) => cs.findSome? (fun chk =>
        s.codeTrap (fun _ th => chk (cr.homeCluster th) (record th)))
      match first (s.recordChecks cr) with
      | some t => t
      | none =>
        let away := s.activeLanes.filter (fun e => s.kickAway cr (cr.homeCluster e.2) (record e.2))
        if away ≠ [] then
          (away.foldl (fun (t : State) e => t.nameAway cr (cr.homeCluster e.2) (recMcast (record e.2))) s).parkBundle
            (.kick none)
        else match first [s.latchCheck s.cur.crew cr, s.mcastCheck s.cur.crew cr] with
          | some t => t
          | none => s.kickLanes record vd la

/-- The record that a waiting lane of a kick keeps. -/
def State.keptRecord (s : State) : Option Nat :=
  s.activeLanes.findSome? (fun e => match e.2.wait with
    | some (.kick r) => r
    | _ => none)

/-- `kick` and `kick.n` (R204): the engine's room, the record's offset, the release point of every lane (R54), the checks of
the records, then lane by lane. -/
def State.kickForm (s : State) (va : BitVec 7) (vd : Option (BitVec 7)) (la : Nat) : State :=
  let os := match vd with | some f => [lxDst64 f, lxSrc32 va] | none => [lxSrc32 va]
  s.guarded (lx os false) fun s =>
    let addr := fun (_ : Lane) (th : Thread) => ((th.read32 va).toNat : Int)
    match s.curCrew?, s.keptRecord with
    | none, _ => s
    | some _, some v => s.kickLanes (fun _ => v) vd la
    | some cr, none =>
      if s.activeLanes.any (fun e => !s.engineRoom cr.die (cr.homeCluster e.2)) then s.parkBundle (.kick none)
      else match s.laneTrap Code.align (fun l th => decide (addr l th % 64 ≠ 0)) addr with
      | some t => t
      | none =>
        match s.laneTrap Code.boundsSh (fun l th => !s.inBounds cr .sh (addr l th) 64) addr with
        | some t => t
        | none =>
          let s := s.drainLanes
          if s.activeLanes.any (fun e => !s.stillHere e.1.tid) then s
          else if s.activeLanes.any (fun e => !s.fifoEmpty s.cur.crew e.1.tid) then s.parkBundle (.kick none)
          else s.kickChecked va vd la

/-- `kick [va]`. -/
def execKick (va : BitVec 7) (s : State) : Host.Outcome State Fault Refusal := .next (s.kickForm va none 0)

/-- `kick.n vd, [va]`. -/
def execKickN (vd va : BitVec 7) (la : BitVec 4) (s : State) : Host.Outcome State Fault Refusal :=
  .next (s.kickForm va (some vd) la.toNat)

/-! ## Elements (R205, R206, R208, R209, R220) -/

/-- A copy leaves the engine; crews that waited for it to end may leave the device. -/
def State.dropCopy (s : State) (id : Nat) (c : Copy) : State :=
  (c.crew :: c.dests).foldl (fun (s : State) d => s.reap d) { s with copies := Table.drop s.copies id }

/-- The lines of a copy that have an element it has not written. -/
def Copy.openLines (c : Copy) : List Nat :=
  (((List.range c.shape.count).filter (fun i => !c.written.contains i)).filterMap c.lineOf).eraseDups

/-- A copy ends before its last element (R209): its latches take the code, its open lines become faulted, its operation
is complete and failed, and the context's log takes the specific code. -/
def State.failCopy (s : State) (id : Nat) (c : Copy) (latchCode code : Code) (addr : Nat) : State :=
  let s := match c.latch with
    | some l => c.dests.foldl (fun (s : State) d => s.failLatch d l latchCode) s
    | none => s
  let s := c.openLines.foldl (fun (s : State) l => s.faultLine c.crew l) s
  let s := s.endCopyOp c.crew c.op true
  let s := match s.crew? c.crew with
    | some cr => s.log cr.ctx (s.crewRecord cr code 0 addr 0 c.op) (some c.crew)
    | none => s
  s.dropCopy id c

/-- The elements of a copy that lie in a tile. -/
def Copy.tileElems (c : Copy) (o k : Nat) : List Nat :=
  (List.range c.shape.count).filter (fun i => ((o : Int) + c.shape.dstOff i).toNat / 4096 = k)

/-- The copy covers all 4,096 bytes of a tile (R220). -/
def Copy.wholeTile (c : Copy) (o k : Nat) : Bool :=
  (List.range (4096 / c.shape.esize)).all (fun j =>
    (c.tileElems o k).any (fun i => ((o : Int) + c.shape.dstOff i).toNat = 4096 * k + j * c.shape.esize))

/-- One element written into a fleeting tile (R219, R220). -/
def State.writeTile (s : State) (id : Nat) (c : Copy) (o i : Nat) (bs : List Byte) : State :=
  let a := ((o : Int) + c.shape.dstOff i).toNat
  let k := a / 4096
  let n := s.tick
  match s.crew? c.crew with
  | none => s
  | some cr =>
    if !c.wholeTile o k then s.modCrew c.crew (fun x => x.modTile k (fun t => t.write n (a % 4096) bs))
    else
      let es := c.tileElems o k
      let first := es.all (fun j => !c.written.contains j)
      let last := es.all (fun j => j = i || c.written.contains j)
      if first then
        let s := s.modCrew c.crew (fun x => x.modTile k (fun t =>
          let t := (t.birthAt true n).write n (a % 4096) bs
          if last then { t with birth := n } else t))
        { s with copies := Table.adjust s.copies id (fun x =>
            { x with births := Table.put x.births k ((cr.tile k).birthAt true n).lives }) }
      else if c.lapsed.contains k || !(cr.tile k).live n || Table.get? c.births k ≠ some (cr.tile k).lives then
        let s := s.modCrew c.crew (fun x => x.modTile k (fun t => { t with storeExp := true }))
        if c.lapsed.contains k then s
        else
          let s := { s with copies := Table.adjust s.copies id (fun x => { x with lapsed := x.lapsed ++ [k] }) }
          s.log cr.ctx (s.crewRecord cr Code.flStoreExp 0 k 0 c.op) (some c.crew)
      else s.modCrew c.crew (fun x => x.modTile k (fun t =>
        let t := t.write n (a % 4096) bs
        if last then { t with birth := n } else t))

/-- An element's address, in which a sum below 0 or above the 57-bit space is an address that no page holds
(notes/assumptions/84.md). -/
def elemAddr (base : Nat) (off : Int) : Nat := (BitVec.ofInt 64 ((base : Int) + off)).toNat

/-- One element written at every destination. -/
def State.writeElement (s : State) (id : Nat) (c : Copy) (i : Nat) (bs : List Byte) : State :=
  match addrForm c.dst with
  | .main a =>
    let b := elemAddr a (c.shape.dstOff i)
    (s.askPeers c.ctx b bs.length 1).writeMain c.ctx b bs
  | .sh o => c.dests.foldl (fun (s : State) d =>
      let s := s.modCrew d (fun x => x.writeShared ((o : Int) + c.shape.dstOff i).toNat bs)
      if d = c.crew then s else s.modCrew d Crew.outward) s
  | .die o => s.writeDie c.crew ((o : Int) + c.shape.dstOff i).toNat bs
  | .fl o => s.writeTile id c o i bs
  | .bad => s

/-- An element has landed: the latches count its bytes, a line whose last element this was has one writer less, and the
last element completes the operation (R205). -/
def State.landElement (s : State) (id : Nat) (c : Copy) (i : Nat) : State :=
  let s := { s with copies := Table.adjust s.copies id (fun x => { x with written := insertId i x.written }) }
  let s := match c.latch with
    | some l => c.dests.foldl (fun (s : State) d => s.arriveBytes d l c.shape.esize) s
    | none => s
  let done := { c with written := insertId i c.written }
  let s := match c.lineOf i with
    | some l => if done.openLines.contains l then s else s.modDieLine c.crew l LineMark.finish
    | none => s
  if done.written.length = c.shape.count then (s.endCopyOp c.crew c.op false).dropCopy id c else s

/-- The destination of an element is ready, and the element is written. -/
def State.storeElement (s : State) (id : Nat) (c : Copy) (i : Nat) (bs : List Byte) : State :=
  match addrForm c.dst with
  | .main a =>
    let b := elemAddr a (c.shape.dstOff i)
    match s.readyMain c.ctx b c.shape.esize 1 none with
    | (.ok, s) => (s.writeElement id c i bs).landElement id c i
    | (.waits r, s) => { s with copies := Table.adjust s.copies id (fun x => { x with stalled := some (i, r) }) }
    | (f, s) => s.failCopy id c Code.copyFault f.code (f.info b)
  | _ =>
    let s := s.writeElement id c i bs
    match Table.get? s.copies id with
    | some c => s.landElement id c i
    | none => s

/-- The context of a copy is stalled by a translation fault of one of its copies (R208). -/
def State.contextStalled (s : State) (c : Nat) : Bool := s.copies.any (fun e => e.2.crew = c && e.2.stalled.isSome)

/-- One element of a bulk copy is read and written (R205 to R209). A source element in a line that the copy itself writes
waits on that line's cleared bit like any other (R18; notes/assumptions/109.md). -/
def State.stepCopy (s : State) (copy elem : Nat) : State :=
  match Table.get? s.copies copy with
    | none => s
    | some c =>
      if decide (c.shape.count ≤ elem) || c.written.contains elem || s.contextStalled c.crew || (c.crew :: c.dests).any s.drainOver
      then s
      else if c.fill then s.storeElement copy c elem (List.replicate c.shape.esize 0#8)
      else match addrForm c.src with
        | .main a =>
          let b := elemAddr a (c.shape.srcOff elem)
          match s.readyMain c.ctx b c.shape.esize 0 none with
          | (.ok, s) =>
            let s := s.askPeers c.ctx b c.shape.esize 0
            if s.mainPoisoned c.ctx b c.shape.esize then s.failCopy copy c Code.copyFault Code.ueMain b
            else s.storeElement copy c elem (s.readMain c.ctx b c.shape.esize)
          | (.waits r, s) => { s with copies := Table.adjust s.copies copy (fun x => { x with stalled := some (elem, r) }) }
          | (f, s) => s.failCopy copy c Code.copyFault f.code (f.info b)
        | f =>
          match f.local?, s.crew? c.crew with
          | some (sp, o), some cr =>
            let a := ((o : Int) + c.shape.srcOff elem).toNat
            if sp = .die && (s.dieLine cr a).faulted then s.failCopy copy c Code.copyFault Code.copyFault a
            else if sp = .die && !(s.dieLine cr a).present then s
            else if s.enginePoison cr sp a c.shape.esize then s.failCopy copy c Code.copyFault (poisonCode sp) a
            else s.storeElement copy c elem (s.engineBytes cr sp a c.shape.esize)
          | _, _ => s

/-- The address of an element's access to a page: its source, unless that is none of main memory or lies elsewhere. -/
def Copy.accessAt (c : Copy) (i page : Nat) : Nat :=
  let src := elemAddr c.src (c.shape.srcOff i)
  if !c.fill && isMain c.src && src / pageBytes = page / pageBytes then src else elemAddr c.dst (c.shape.dstOff i)

/-- COPY_ELEMENT_WRITE. -/
def execCopyElementWrite (copy elem : Nat) (s : State) : Host.Outcome State Fault Refusal := .next (s.stepCopy copy elem)

/-! ## Far atomics (R210, R211) -/

/-- The code of an operation (Table 4.2). -/
def AtomOp.code : AtomOp → Nat
  | .add => 0
  | .and => 1
  | .or => 2
  | .xor => 3
  | .minI => 4
  | .maxI => 5
  | .minN => 6
  | .maxN => 7
  | .exch => 8
  | .cas => 9

/-- The operations that PCIe AtomicOps carry (Table 10.3). -/
def AtomOp.hasAtomicOp : AtomOp → Bool
  | .add => true
  | .exch => true
  | .cas => true
  | _ => false

/-- A far atomic fails at its home: its thread alone takes the trap (R211), with the address as INFO, or the peer module of
HINGE_DOWN (Table 22.4). -/
def State.failFarAt (s : State) (id : Nat) (r : FarReq) (code : Code) (info : Nat) : State :=
  let s := { s with fars := Table.drop s.fars id }
  (match s.thread? r.crew r.tid with
    | some th => if th.wait = some (Wait.far id) then s.trapWaiter r.crew r.tid code info else s
    | none => s).reap r.crew
def State.failFar (s : State) (id : Nat) (r : FarReq) (code : Code) : State := s.failFarAt id r code r.addr

/-- The bytes of a request's location. -/
def FarReq.width (r : FarReq) : Nat := if r.wide then 8 else 4

/-- A lower lane of the same instruction has not sent its request to some of the same bytes (R41). -/
def Crew.farParked (cr : Crew) (r : FarReq) : Bool :=
  cr.threads.any (fun t => decide (t.1 < r.tid) && t.2.parkIssue = r.group &&
    match t.2.wait with
    | some (.farOrder a n) => overlaps a n r.addr r.width
    | _ => false)

/-- A request of a lower lane of the same instruction to some of the same bytes has not performed (R41). -/
def State.farBehind (s : State) (r : FarReq) : Bool :=
  (match s.crew? r.crew with
    | some cr => cr.farParked r
    | none => false) ||
  s.fars.any (fun e => e.2.crew = r.crew && e.2.group = r.group && decide (e.2.tid < r.tid) && e.2.ctx = r.ctx &&
    overlaps e.2.addr e.2.width r.addr r.width)

/-- The state with a request's stage changed. -/
def State.farStage (s : State) (id : Nat) (st : FarStage) (x : Option Nat) : State :=
  { s with fars := Table.adjust s.fars id (fun r => { r with stage := st, xlate := x }) }

/-- Duty row 3 takes a host-memory atomic (R211): ATOM_UNSUP in hardware mode and for a class without a worker. -/
def State.farRow3 (s : State) (id : Nat) (r : FarReq) : State :=
  if rowAssisted (s.dutyRow r.ctx 3) && s.rowServed r.ctx 3 then
    let d := [BitVec.ofNat 64 r.addr, BitVec.ofNat 64 (r.op.code + (if r.wide then 16 else 0)), r.x, r.cmp]
    (s.dutyCall r.ctx 3 (s.affected r.crew r.tid) d (.far id)).2.farStage id .worker none
  else s.failFar id r Code.atomUnsup

/-- The address is host memory, and its AtomicOps are PCIe's (Table 10.3). -/
def State.byAtomicOp (s : State) (r : FarReq) : Bool :=
  s.link = .pcie && match s.translate r.ctx r.addr with
    | .found (.host _ _) _ => true
    | _ => false

/-- A request goes to its home, or waits for its translation (R37, R210). -/
def State.sendFar (s : State) (id : Nat) (r : FarReq) : State :=
  match s.readyMain r.ctx r.addr r.width 2 (some (r.crew, r.tid)) with
  | (.ok, s) =>
    if s.byAtomicOp r && !r.op.hasAtomicOp then s.farRow3 id r
    else (s.askPeers r.ctx r.addr r.width 2).farStage id .sent none
  | (.waits x, s) => s.farStage id .unsent (some x)
  | (f, s) => s.failFarAt id r f.code (f.info r.addr)

/-- The registers that take the old value. -/
def Thread.farDest (th : Thread) (vd : BitVec 7) (wide : Bool) : List Nat :=
  if wide then [th.blockReg vd 0, th.blockReg vd 1] else [th.blockReg vd 0]

/-- A value from registers of a block. -/
def Thread.blockValue (th : Thread) (vd : BitVec 7) (i : Nat) (wide : Bool) : Dword :=
  let lo := th.readReg (th.blockReg vd i)
  if wide then pairOf lo (th.readReg (th.blockReg vd (i + 1))) else lo.setWidth 64

/-- A far atomic (R210): strong, after the thread's stores; each lane sends its request and parks. -/
def State.farForm (s : State) (op : AtomOp) (vd : BitVec 7) (pr : BitVec 5) (la : Nat) (sz : BitVec 1) : State :=
  let wide := sz = 1#1
  let w := if wide then 2 else 1
  let cas := op = .cas
  let n := if cas then 2 * w else w
  let va : BitVec 7 := pr.setWidth 7 <<< 1
  let l : Legality :=
    { opnds := [lxSrc64 va]
      illegal := blockIllegal s.curBudget vd n false || decide (vd.toNat % n ≠ 0)
      cls := PfxClass.predOnly
      blocks := [(vd, n)] }
  s.guarded l fun s =>
    let addr := fun (th : Thread) => (th.read64 va).toNat
    match s.codeTrap (fun _ th => if isMain (addr th) then none else some (Code.addrForm, addr th)) with
    | some t => t
    | none =>
      match s.codeTrap (fun _ th => if addr th % (4 * w) = 0 then none else some (Code.align, addr th)) with
      | some t => t
      | none =>
        s.outwardActive.lanewise (.after la) (fun _ => []) fun t ln th =>
          t.drained ln.tid none (.farOrder (addr th) (4 * w)) fun t =>
            match t.curCrew? with
            | none => t
            | some cr =>
              let id := t.nextId
              let r : FarReq :=
                { crew := t.cur.crew, tid := ln.tid, ctx := cr.ctx, die := cr.die, cluster := cr.homeCluster th,
                  addr := addr th, op := op, wide := wide, x := th.blockValue vd 0 wide,
                  cmp := if cas then th.blockValue vd w wide else 0#64, dest := th.farDest vd wide, la := la,
                  stage := .unsent, group := t.cur.seq, restart := false, xlate := none }
              ({ t with nextId := id + 1, fars := Table.put t.fars id r }.park t.cur.crew ln.tid (.far id)).sendFar id r

/-- A region restart of a thread (R125): its live-in set is that of its region record. A checkpoint word that holds an
uncorrectable error is consumed as it is read (Table 23.4); where in the die store the slot lies is not given, so INFO
is a free value. -/
def State.restartThread (s : State) (c tid : Nat) : State :=
  match s.crew? c with
  | none => s
  | some cr => match Table.get? cr.threads tid with
    | none => s
    | some th =>
      let live := s.liveSet cr th.region.lset
      let t := (s.modThread c tid (fun th => th.restart live)).freeOthers c th.parkIssue
      if th.slotPoison = [] then t
      else t.free.2.consumeError c Code.ueDie t.free.1 th.region.head.toNat

/-- The old value has come back (R210): vd, the implicit region entry with that value, and a restart that waited for
it (R125). -/
def State.returnFar (s : State) (id : Nat) (r : FarReq) (old : Nat) : State :=
  let s := { s with fars := Table.drop s.fars id }
  match s.thread? r.crew r.tid with
  | none => s
  | some th =>
    if th.wait ≠ some (.far id) then s.reap r.crew
    else
      let v := BitVec.ofNat 64 old
      let rs : Results := match r.dest with
        | [a, b] => [(.reg a, lo32 v), (.reg b, hi32 v)]
        | [a] => [(.reg a, lo32 v)]
        | _ => []
      let s := (s.release r.crew r.tid r.la rs).closeRegion r.crew r.tid
      (if r.restart then s.restartThread r.crew r.tid else s).reap r.crew

/-- FAR_ATOMIC_RESPONSE (R210): the home performs the operation, as one access and after the lower lanes of the same
instruction (R41), and answers. Data that hold an error
are not changed, and the thread takes UE_MAIN (R347). -/
def execFarAtomicResponse (req : Nat) (s : State) : Host.Outcome State Fault Refusal :=
  .next (match Table.get? s.fars req with
    | none => s
    | some r =>
      let n := r.width
      if r.stage ≠ .sent || s.farBehind r || (s.byAtomicOp r && !s.hostAtomics) then s
      else match s.readyMain r.ctx r.addr n 2 (some (r.crew, r.tid)) with
        | (.ok, s) =>
          if s.mainPoisoned r.ctx r.addr n then s.failFar req r Code.ueMain
          else
            let old := leNat (s.readMain r.ctx r.addr n)
            let s := match r.op.apply (8 * n) old r.x.toNat r.cmp.toNat with
              | some v => s.writeMain r.ctx r.addr (leBytes v n)
              | none => s
            s.returnFar req r old
        | (.waits x, s) => s.farStage req .unsent (some x)
        | (f, s) => s.failFarAt req r f.code (f.info r.addr))

/-- ATOMICOP_UR_COMPLETION (R211): the host's completer has returned Unsupported Request; the atomic has not performed,
and goes to duty row 3. -/
def execAtomicopUrCompletion (req : Nat) (s : State) : Host.Outcome State Fault Refusal :=
  .next (match Table.get? s.fars req with
    | none => s
    | some r => if r.stage = .sent && s.byAtomicOp r && !s.farBehind r then s.farRow3 req r else s)

/-- `atom.far.add.ord.S vd, [vA]` (R210). A strong access in the order that every observer shares meets every ord and
scope (notes/assumptions/11.md). -/
def execAtomFarAdd (vd : BitVec 7) (_ord : BitVec 2) (pr : BitVec 5) (la : BitVec 4) (sz _sc : BitVec 1) (s : State) :
    Host.Outcome State Fault Refusal :=
  .next (s.farForm .add vd pr la.toNat sz)

/-- `atom.far.and.ord.S vd, [vA]` (R210). A strong access in the order that every observer shares meets every ord and
scope (notes/assumptions/11.md). -/
def execAtomFarAnd (vd : BitVec 7) (_ord : BitVec 2) (pr : BitVec 5) (la : BitVec 4) (sz _sc : BitVec 1) (s : State) :
    Host.Outcome State Fault Refusal :=
  .next (s.farForm .and vd pr la.toNat sz)

/-- `atom.far.or.ord.S vd, [vA]` (R210). A strong access in the order that every observer shares meets every ord and
scope (notes/assumptions/11.md). -/
def execAtomFarOr (vd : BitVec 7) (_ord : BitVec 2) (pr : BitVec 5) (la : BitVec 4) (sz _sc : BitVec 1) (s : State) :
    Host.Outcome State Fault Refusal :=
  .next (s.farForm .or vd pr la.toNat sz)

/-- `atom.far.xor.ord.S vd, [vA]` (R210). A strong access in the order that every observer shares meets every ord and
scope (notes/assumptions/11.md). -/
def execAtomFarXor (vd : BitVec 7) (_ord : BitVec 2) (pr : BitVec 5) (la : BitVec 4) (sz _sc : BitVec 1) (s : State) :
    Host.Outcome State Fault Refusal :=
  .next (s.farForm .xor vd pr la.toNat sz)

/-- `atom.far.min.ord.S vd, [vA]` (R210). A strong access in the order that every observer shares meets every ord and
scope (notes/assumptions/11.md). -/
def execAtomFarMinI (vd : BitVec 7) (_ord : BitVec 2) (pr : BitVec 5) (la : BitVec 4) (sz _sc : BitVec 1) (s : State) :
    Host.Outcome State Fault Refusal :=
  .next (s.farForm .minI vd pr la.toNat sz)

/-- `atom.far.max.ord.S vd, [vA]` (R210). A strong access in the order that every observer shares meets every ord and
scope (notes/assumptions/11.md). -/
def execAtomFarMaxI (vd : BitVec 7) (_ord : BitVec 2) (pr : BitVec 5) (la : BitVec 4) (sz _sc : BitVec 1) (s : State) :
    Host.Outcome State Fault Refusal :=
  .next (s.farForm .maxI vd pr la.toNat sz)

/-- `atom.far.min.ord.S vd, [vA]` (R210). A strong access in the order that every observer shares meets every ord and
scope (notes/assumptions/11.md). -/
def execAtomFarMinN (vd : BitVec 7) (_ord : BitVec 2) (pr : BitVec 5) (la : BitVec 4) (sz _sc : BitVec 1) (s : State) :
    Host.Outcome State Fault Refusal :=
  .next (s.farForm .minN vd pr la.toNat sz)

/-- `atom.far.max.ord.S vd, [vA]` (R210). A strong access in the order that every observer shares meets every ord and
scope (notes/assumptions/11.md). -/
def execAtomFarMaxN (vd : BitVec 7) (_ord : BitVec 2) (pr : BitVec 5) (la : BitVec 4) (sz _sc : BitVec 1) (s : State) :
    Host.Outcome State Fault Refusal :=
  .next (s.farForm .maxN vd pr la.toNat sz)

/-- `atom.far.exch.ord.S vd, [vA]` (R210). A strong access in the order that every observer shares meets every ord and
scope (notes/assumptions/11.md). -/
def execAtomFarExch (vd : BitVec 7) (_ord : BitVec 2) (pr : BitVec 5) (la : BitVec 4) (sz _sc : BitVec 1) (s : State) :
    Host.Outcome State Fault Refusal :=
  .next (s.farForm .exch vd pr la.toNat sz)

/-- `atom.far.cas.ord.S vd, [vA]` (R210). A strong access in the order that every observer shares meets every ord and
scope (notes/assumptions/11.md). -/
def execAtomFarCas (vd : BitVec 7) (_ord : BitVec 2) (pr : BitVec 5) (la : BitVec 4) (sz _sc : BitVec 1) (s : State) :
    Host.Outcome State Fault Refusal :=
  .next (s.farForm .cas vd pr la.toNat sz)

end Sys2Proof.Machine
end

