-- ==== Sys2Proof/Machine/Float.lean ====
section
/-! DEFINITION. Number formats and exact arithmetic (chapter 05): binary floating-point values as exact dyadic numbers,
one rounding for every operation, integer rounding, and the SX blocks. -/

namespace Sys2Proof.Machine

open Sys2Proof

/-! ## Formats and values (R83, Table 5.2) -/

/-- A binary floating-point format: the sizes of its fields, its bias, whether an exponent field of ones is reserved for
infinities and NaNs, whether overflow gives the largest finite value, and its canonical NaN (Table 5.3). -/
structure FloatFmt where
  ebits : Nat
  fbits : Nat
  bias : Nat
  ieee : Bool
  saturates : Bool
  nan : Nat
deriving DecidableEq, Repr

def f64Fmt : FloatFmt :=
  { ebits := 11, fbits := 52, bias := 1023, ieee := true, saturates := false, nan := 0x7FF8000000000000 }
def f32Fmt : FloatFmt := { ebits := 8, fbits := 23, bias := 127, ieee := true, saturates := false, nan := 0x7FC00000 }
def f16Fmt : FloatFmt := { ebits := 5, fbits := 10, bias := 15, ieee := true, saturates := false, nan := 0x7E00 }
def bf16Fmt : FloatFmt := { ebits := 8, fbits := 7, bias := 127, ieee := true, saturates := false, nan := 0x7FC0 }
def e5m2Fmt : FloatFmt := { ebits := 5, fbits := 2, bias := 15, ieee := true, saturates := true, nan := 0x7E }
def e4m3Fmt : FloatFmt := { ebits := 4, fbits := 3, bias := 7, ieee := false, saturates := true, nan := 0x7F }

/-- The bits of exponent and fraction; the sign stands above them. -/
def FloatFmt.magBits (f : FloatFmt) : Nat := f.ebits + f.fbits

/-- The magnitude bits of infinity, and of the largest finite value. -/
def FloatFmt.infMag (f : FloatFmt) : Nat := (2 ^ f.ebits - 1) * 2 ^ f.fbits
def FloatFmt.maxMag (f : FloatFmt) : Nat := if f.ieee then f.infMag - 1 else 2 ^ f.magBits - 2

/-- A value: a NaN, an infinity, or the exact number ±m × 2^e, whose zeros keep their sign. -/
inductive FVal where
  | nan
  | inf (neg : Bool)
  | num (neg : Bool) (m : Nat) (e : Int)
deriving DecidableEq, Repr

/-- The exponent of a format's smallest step. -/
def FloatFmt.minExp (f : FloatFmt) : Int := 1 - (f.bias : Int) - f.fbits

/-- The value of a bit pattern (R83). -/
def FloatFmt.value (f : FloatFmt) (v : Nat) : FVal :=
  let neg := v / 2 ^ f.magBits % 2 = 1
  let mag := v % 2 ^ f.magBits
  let ex := mag / 2 ^ f.fbits
  let fr := mag % 2 ^ f.fbits
  if f.ieee && ex = 2 ^ f.ebits - 1 then (if fr = 0 then .inf neg else .nan)
  else if !f.ieee && mag = 2 ^ f.magBits - 1 then .nan
  else if ex = 0 then .num neg fr f.minExp
  else .num neg (2 ^ f.fbits + fr) (f.minExp + (ex - 1 : Nat))

/-- A bit pattern from a sign and magnitude bits. -/
def FloatFmt.signed (f : FloatFmt) (neg : Bool) (mag : Nat) : Nat := (if neg then 2 ^ f.magBits else 0) + mag

/-! ## Rounding (R86) -/

/-- The rounding modes. -/
inductive Rounding where
  | rne
  | rtz
  | rup
  | rdn
  | rna
deriving DecidableEq, Repr

/-- The rnd field, with the instruction's default for 000 (Table 4.4, R87). -/
def roundingOf (d : Rounding) (rnd : BitVec 3) : Rounding :=
  match rnd.toNat with
  | 1 => .rne
  | 2 => .rtz
  | 3 => .rup
  | 4 => .rdn
  | 5 => .rna
  | _ => d

/-- Whether a magnitude n + r, with r the lost part, goes up to n + 1: `half` compares r with one half, and `exact`
says that nothing is lost. -/
def roundsUp (md : Rounding) (neg odd exact : Bool) (half : Ordering) : Bool :=
  if exact then false
  else match md with
    | .rne => half = .gt || (half = .eq && odd)
    | .rna => half != .lt
    | .rtz => false
    | .rup => !neg
    | .rdn => neg

/-- m × 2^(−k), rounded to an integer. `sticky` says that the exact magnitude lies strictly between m and m + 1. -/
def roundShift (md : Rounding) (neg : Bool) (m k : Nat) (sticky : Bool) : Nat :=
  let n := m / 2 ^ k
  let r := m % 2 ^ k
  let half := if k = 0 then Ordering.lt
    else if r < 2 ^ (k - 1) then .lt else if 2 ^ (k - 1) < r || sticky then .gt else .eq
  if roundsUp md neg (n % 2 = 1) (r = 0 && !sticky) half then n + 1 else n

/-- The step that `round` uses for a magnitude m × 2^e: that of the format's precision, and no finer than its
subnormals (R86). -/
def FloatFmt.step (f : FloatFmt) (m : Nat) (e : Int) : Int :=
  max ((Nat.log2 m : Int) + e - f.fbits) f.minExp

/-- Overflow (Table 5.4; the FP8 formats give their largest finite value). -/
def FloatFmt.overflow (f : FloatFmt) (md : Rounding) (neg : Bool) : Nat :=
  let toMax := f.saturates || match md with
    | .rne => false
    | .rna => false
    | .rtz => true
    | .rup => neg
    | .rdn => !neg
  f.signed neg (if toMax then f.maxMag else f.infMag)

/-- `round(x, mode)` for x = ±m × 2^e, or, with `sticky`, a magnitude strictly between m × 2^e and (m + 1) × 2^e
(R86). A magnitude with `sticky` carries more bits than the format keeps. -/
def FloatFmt.round (f : FloatFmt) (md : Rounding) (neg : Bool) (m : Nat) (e : Int) (sticky : Bool) : Nat :=
  if m = 0 && !sticky then f.signed neg 0
  else
    let q := f.step m e
    let n := if q ≤ e then m * 2 ^ (e - q).toNat else roundShift md neg m (q - e).toNat sticky
    let mag := (q - f.minExp).toNat * 2 ^ f.fbits + n
    if f.maxMag < mag then f.overflow md neg else f.signed neg mag

/-- A value in a format: rounded, with the infinities and NaNs of R85 and R89; e4m3 has no infinity. -/
def FloatFmt.ofVal (f : FloatFmt) (md : Rounding) : FVal → Nat
  | .nan => f.nan
  | .inf neg => if f.saturates && !f.ieee then f.nan else f.signed neg f.infMag
  | .num neg m e => f.round md neg m e false

/-- `round_int(q, mode)` of q = ±m × 2^e, as an exact integer (R86). -/
def roundInt (md : Rounding) (neg : Bool) (m : Nat) (e : Int) : Int :=
  let n := if 0 ≤ e then m * 2 ^ e.toNat else roundShift md neg m (-e).toNat false
  if neg then -(n : Int) else n

/-! ## Exact sums and products -/

/-- The signed integer of a magnitude at a common exponent not above its own. -/
def atExp (neg : Bool) (m : Nat) (e base : Int) : Int :=
  let n := m * 2 ^ (e - base).toNat
  if neg then -(n : Int) else n

/-- The negation of a value. -/
def FVal.neg : FVal → FVal
  | .nan => .nan
  | .inf s => .inf (!s)
  | .num s m e => .num (!s) m e

/-- The exact product (R139): 0 × ∞ is a NaN. -/
def FVal.mul : FVal → FVal → FVal
  | .nan, _ => .nan
  | _, .nan => .nan
  | .inf s, .inf t => .inf (s != t)
  | .inf s, .num t m _ => if m = 0 then .nan else .inf (s != t)
  | .num s m _, .inf t => if m = 0 then .nan else .inf (s != t)
  | .num s m e, .num t n k => .num (s != t) (m * n) (e + k)

/-- The exact sum (R139): an exact zero of opposite signs or by cancellation is −0 in RDN and +0 otherwise. -/
def FVal.add (md : Rounding) : FVal → FVal → FVal
  | .nan, _ => .nan
  | _, .nan => .nan
  | .inf s, .inf t => if s = t then .inf s else .nan
  | .inf s, .num _ _ _ => .inf s
  | .num _ _ _, .inf t => .inf t
  | .num s m e, .num t n k =>
    let lo := min e k
    let x := atExp s m e lo + atExp t n k lo
    if x = 0 then .num (if m = 0 && n = 0 && s = t then s else md = .rdn) 0 lo
    else .num (decide (x < 0)) x.natAbs lo

/-- The result of an arithmetic instruction: infinities of the operands stay, and the exact number rounds once (R87,
R139). -/
def FloatFmt.ofArith (f : FloatFmt) (md : Rounding) : FVal → Nat
  | .nan => f.nan
  | .inf neg => f.signed neg f.infMag
  | .num neg m e => f.round md neg m e false

/-- a + b, a − b, a × b, and a × b + c of bit patterns of one format, each rounded once (R139). -/
def FloatFmt.add (f : FloatFmt) (md : Rounding) (a b : Nat) : Nat :=
  f.ofArith md (FVal.add md (f.value a) (f.value b))
def FloatFmt.sub (f : FloatFmt) (md : Rounding) (a b : Nat) : Nat :=
  f.ofArith md (FVal.add md (f.value a) (f.value b).neg)
def FloatFmt.mul (f : FloatFmt) (md : Rounding) (a b : Nat) : Nat :=
  f.ofArith md ((f.value a).mul (f.value b))
def FloatFmt.fma (f : FloatFmt) (md : Rounding) (a b c : Nat) : Nat :=
  f.ofArith md (FVal.add md ((f.value a).mul (f.value b)) (f.value c))
def FloatFmt.fms (f : FloatFmt) (md : Rounding) (a b c : Nat) : Nat :=
  f.ofArith md (FVal.add md ((f.value a).mul (f.value b)) (f.value c).neg)
def FloatFmt.fnma (f : FloatFmt) (md : Rounding) (a b c : Nat) : Nat :=
  f.ofArith md (FVal.add md ((f.value a).mul (f.value b)).neg (f.value c))

/-! ## Comparison, minimum and maximum (R140) -/

/-- The order of two values that are not NaNs; ±0 are equal. -/
def FVal.order : FVal → FVal → Ordering
  | .inf s, .inf t => if s = t then .eq else if s then .lt else .gt
  | .inf s, _ => if s then .lt else .gt
  | _, .inf t => if t then .gt else .lt
  | .num s m e, .num t n k => compare (atExp s m e (min e k)) (atExp t n k (min e k))
  | _, _ => .eq

/-- The value is a NaN. -/
def FVal.isNan : FVal → Bool
  | .nan => true
  | _ => false

/-- The value's sign bit. -/
def FVal.isNeg : FVal → Bool
  | .nan => false
  | .inf s => s
  | .num s _ _ => s

/-- a comes before b in the order of min and max, −0 below +0. -/
def FVal.below (a b : FVal) : Bool :=
  match a.order b with
  | .lt => true
  | .gt => false
  | .eq => a.isNeg && !b.isNeg

/-- `fmin` and `fmax`: the operand's own bits (R140). -/
def FloatFmt.min (f : FloatFmt) (a b : Nat) : Nat :=
  let x := f.value a
  let y := f.value b
  if x.isNan && y.isNan then f.nan else if x.isNan then b else if y.isNan then a
  else if y.below x then b else a
def FloatFmt.max (f : FloatFmt) (a b : Nat) : Nat :=
  let x := f.value a
  let y := f.value b
  if x.isNan && y.isNan then f.nan else if x.isNan then b else if y.isNan then a
  else if x.below y then b else a

/-- The floating-point compare conditions by their code (R140). -/
def FloatFmt.cmp (f : FloatFmt) (cc : BitVec 3) (a b : Nat) : Bool :=
  let x := f.value a
  let y := f.value b
  let un := x.isNan || y.isNan
  let o := x.order y
  match cc.toNat with
  | 0 => !un && o = .eq
  | 1 => un || o != .eq
  | 2 => !un && o = .lt
  | 3 => !un && o != .gt
  | 4 => !un && o = .gt
  | 5 => !un && o != .lt
  | 6 => un
  | _ => !un

/-! ## Division and square root (R142) -/

/-- The integer square root, bit by bit from the top: the largest r below 2^k, built on the bits already in r, whose
square is not above n. -/
def isqrtFrom (n : Nat) : Nat → Nat → Nat
  | 0, r => r
  | k + 1, r => if (r + 2 ^ k) * (r + 2 ^ k) ≤ n then isqrtFrom n k (r + 2 ^ k) else isqrtFrom n k r

/-- The integer square root. -/
def isqrt (n : Nat) : Nat := isqrtFrom n (Nat.log2 n / 2 + 1) 0

/-- ±a ÷ b of magnitudes, rounded once: the quotient is carried to more bits than any format keeps, with what is lost
below them. -/
def FloatFmt.quotient (f : FloatFmt) (md : Rounding) (neg : Bool) (m : Nat) (e : Int) (n : Nat) (k : Int) : Nat :=
  let sh := Nat.log2 n + f.fbits + 4
  f.round md neg (m * 2 ^ sh / n) (e - k - sh) (m * 2 ^ sh % n ≠ 0)

/-- `fdiv` (R142). -/
def FloatFmt.div (f : FloatFmt) (md : Rounding) (a b : Nat) : Nat :=
  match f.value a, f.value b with
  | .nan, _ => f.nan
  | _, .nan => f.nan
  | .inf _, .inf _ => f.nan
  | .inf s, .num t _ _ => f.signed (s != t) f.infMag
  | .num s _ _, .inf t => f.signed (s != t) 0
  | .num s m e, .num t n k =>
    if n = 0 then (if m = 0 then f.nan else f.signed (s != t) f.infMag)
    else f.quotient md (s != t) m e n k

/-- The square root of m × 2^e, as a magnitude r × 2^x, and whether r is below the exact root. -/
def rootOf (m : Nat) (e : Int) (bits : Nat) : Nat × Int × Bool :=
  let odd : Nat := if e % 2 = 0 then 0 else 1
  let n := m * 2 ^ (2 * bits + odd)
  let r := isqrt n
  (r, (e - odd) / 2 - bits, r * r ≠ n)

/-- `fsqrt` (R142). -/
def FloatFmt.sqrt (f : FloatFmt) (md : Rounding) (a : Nat) : Nat :=
  match f.value a with
  | .nan => f.nan
  | .inf s => if s then f.nan else f.signed false f.infMag
  | .num s m e =>
    if m = 0 then f.signed s 0
    else if s then f.nan
    else
      let r := rootOf m e (f.fbits + 4)
      f.round md false r.1 r.2.1 r.2.2

/-! ## Special functions (R142, Table 7.5)

Each is round(f(a), RNE). Where f(a) is irrational it is carried in a fixed point of 400 fraction bits, whose error is far
below the distance of any such value from the middle of two f32 values. -/

/-- Fraction bits of the fixed point, and its 1. -/
def fixBits : Nat := 400
def fixOne : Nat := 2 ^ fixBits

/-- The product of two fixed-point numbers, truncated. -/
def fixMul (a b : Nat) : Nat := a * b / fixOne

/-- Σ over k of x^(2k+1) ÷ (2k + 1), with signs alternating or not: the series of atan and of atanh for x = 1 ÷ q. -/
def arcSeries (q : Nat) (alternate : Bool) : Nat → Nat → Nat → Int
  | 0, _, _ => 0
  | n + 1, k, p =>
    let t := p / (2 * k + 1)
    (if alternate && k % 2 = 1 then -(t : Int) else t) + arcSeries q alternate n (k + 1) (p / (q * q))

/-- π = 16 atan(1/5) − 4 atan(1/239). -/
def fixPi : Nat :=
  (16 * arcSeries 5 true 100 0 (fixOne / 5) - 4 * arcSeries 239 true 40 0 (fixOne / 239)).toNat

/-- ln 2 = 2 atanh(1/3). -/
def fixLn2 : Nat := (2 * arcSeries 3 false 140 0 (fixOne / 3)).toNat

/-- e^x of a fixed-point x below 1: Σ x^k ÷ k!. -/
def expSeries (x : Nat) : Nat → Nat → Nat → Nat
  | 0, _, _ => 0
  | n + 1, k, t => t + expSeries x n (k + 1) (fixMul t x / (k + 1))

/-- sin x of a fixed-point x: Σ (−1)^k x^(2k+1) ÷ (2k + 1)!. -/
def sinSeries (x2 : Nat) : Nat → Nat → Nat → Int
  | 0, _, _ => 0
  | n + 1, k, t =>
    (if k % 2 = 0 then (t : Int) else -(t : Int)) + sinSeries x2 n (k + 1) (fixMul t x2 / ((2 * k + 2) * (2 * k + 3)))

/-- atanh z of a fixed-point z: Σ z^(2k+1) ÷ (2k + 1). -/
def atanhSeries (z2 : Nat) : Nat → Nat → Nat → Nat
  | 0, _, _ => 0
  | n + 1, k, p => p / (2 * k + 1) + atanhSeries z2 n (k + 1) (fixMul p z2)

/-- A fixed-point value as the result: never exact where it is used. -/
def roundFix (neg : Bool) (x : Nat) : Nat := f32Fmt.round .rne neg x (-(fixBits : Int)) true

/-- `rcp`: 1 ÷ a. -/
def rcpF32 (a : Nat) : Nat := f32Fmt.div .rne 0x3F800000 a

/-- `rsqrt`: 1 ÷ √a. -/
def rsqrtF32 (a : Nat) : Nat :=
  match f32Fmt.value a with
  | .nan => f32Fmt.nan
  | .inf s => if s then f32Fmt.nan else 0
  | .num s m e =>
    if m = 0 then f32Fmt.signed s f32Fmt.infMag
    else if s then f32Fmt.nan
    else
      -- 1 ÷ √(m × 2^e) = √(2^(2c) ÷ m′) × 2^(−c − e′ ÷ 2) with an even e′
      let odd : Nat := if e % 2 = 0 then 0 else 1
      let m' := m * 2 ^ odd
      let r := isqrt (2 ^ 200 / m')
      f32Fmt.round .rne false r (-100 - (e - odd) / 2) (r * r * m' ≠ 2 ^ 200)

/-- A dyadic number as an integer part and a fixed-point fraction. -/
def splitFix (neg : Bool) (m : Nat) (e : Int) : Int × Nat :=
  let x := atExp neg m (e + fixBits) 0
  (x.fdiv fixOne, (x.fmod fixOne).toNat)

/-- `exp2`: 2^n × e^(f ln 2) for a = n + f. -/
def exp2F32 (a : Nat) : Nat :=
  match f32Fmt.value a with
  | .nan => f32Fmt.nan
  | .inf s => if s then 0 else f32Fmt.infMag
  | .num s m e =>
    if m ≠ 0 && 9 ≤ (Nat.log2 m : Int) + e then (if s then 0 else f32Fmt.infMag)
    else
      let p := splitFix s m e
      if p.2 = 0 then f32Fmt.round .rne false 1 p.1 false
      else f32Fmt.round .rne false (expSeries (fixMul p.2 fixLn2) 90 0 fixOne) (p.1 - fixBits) true

/-- `log2`: n + ln u ÷ ln 2 for a = u × 2^n with u from 3/4 to 3/2. -/
def log2F32 (a : Nat) : Nat :=
  match f32Fmt.value a with
  | .nan => f32Fmt.nan
  | .inf s => if s then f32Fmt.nan else f32Fmt.infMag
  | .num s m e =>
    if m = 0 then f32Fmt.signed true f32Fmt.infMag
    else if s then f32Fmt.nan
    else
      let l := Nat.log2 m
      let up := 3 * 2 ^ l < 2 * m
      let n : Int := (l : Int) + e + (if up then 1 else 0)
      -- u = m ÷ 2^t
      let t := if up then l + 1 else l
      let one := 2 ^ t
      if m = one then f32Fmt.ofArith .rne (.num (decide (n < 0)) n.natAbs 0)
      else
        let d := if one < m then m - one else one - m
        let z := d * fixOne / (m + one)
        let ln := 2 * atanhSeries (fixMul z z) 140 0 z
        let l2 : Int := ln * fixOne / fixLn2
        let v := n * fixOne + (if one < m then l2 else -l2)
        roundFix (decide (v < 0)) v.natAbs

/-- sin(π r) for a fixed-point r from 0 to 1/2. -/
def sinPiFix (r : Nat) : Nat :=
  let x := fixMul fixPi r
  (sinSeries (fixMul x x) 60 0 x).toNat

/-- `sinpi`: sin(π a), from a modulo 2. -/
def sinpiF32 (a : Nat) : Nat :=
  match f32Fmt.value a with
  | .nan => f32Fmt.nan
  | .inf _ => f32Fmt.nan
  | .num s m e =>
    let p := splitFix false m e
    let half := fixOne / 2
    let odd := p.1 % 2 = 1
    if p.2 = 0 then f32Fmt.signed s 0
    else
      let r := if p.2 ≤ half then p.2 else fixOne - p.2
      if r = half then f32Fmt.signed (s != odd) 0x3F800000 else roundFix (s != odd) (sinPiFix r)

/-- `cospi`: cos(π a). -/
def cospiF32 (a : Nat) : Nat :=
  match f32Fmt.value a with
  | .nan => f32Fmt.nan
  | .inf _ => f32Fmt.nan
  | .num _ m e =>
    let p := splitFix false m e
    let half := fixOne / 2
    let odd := p.1 % 2 = 1
    if p.2 = half then 0
    else if p.2 = 0 then f32Fmt.signed odd 0x3F800000
    else if p.2 < half then roundFix odd (sinPiFix (half - p.2))
    else roundFix (!odd) (sinPiFix (p.2 - half))

/-! ## Classes and conversions (R143, R145, Table 5.5) -/

/-- The class bit of `fclass` (R143). -/
def FloatFmt.classOf (f : FloatFmt) (a : Nat) : Nat :=
  match f.value a with
  | .nan => 256
  | .inf s => if s then 1 else 128
  | .num s m _ =>
    if m = 0 then (if s then 8 else 16)
    else if a % 2 ^ f.magBits < 2 ^ f.fbits then (if s then 4 else 32)
    else if s then 2 else 64

/-- A bit pattern of one format in another (Table 5.5). -/
def FloatFmt.convert (src dst : FloatFmt) (md : Rounding) (a : Nat) : Nat := dst.ofVal md (src.value a)

/-- An integer in a format. -/
def FloatFmt.ofInt (f : FloatFmt) (md : Rounding) (x : Int) : Nat := f.round md (decide (x < 0)) x.natAbs 0 false

/-- A value as an integer clamped to a range; a NaN is 0 (Table 5.5). -/
def FVal.toIntClamped (v : FVal) (md : Rounding) (lo hi : Int) : Int :=
  match v with
  | .nan => 0
  | .inf s => if s then lo else hi
  | .num s m e => Max.max lo (Min.min hi (roundInt md s m e))

/-! ## Sums that round once (R95) -/

/-- `sum_round`, under a mode. -/
def FloatFmt.sumRound (f : FloatFmt) (md : Rounding) (ts : List FVal) : Nat :=
  if ts.any FVal.isNan || (ts.contains (.inf true) && ts.contains (.inf false)) then f.nan
  else if ts.contains (.inf true) then f.signed true f.infMag
  else if ts.contains (.inf false) then f.signed false f.infMag
  else
    let lo := ts.foldl (fun (l : Int) t => match t with | .num _ _ e => Min.min l e | _ => l) 0
    let x := ts.foldl (fun (a : Int) t => match t with | .num s m e => a + atExp s m e lo | _ => a) 0
    if x = 0 then f.signed (ts.all FVal.isNeg) 0
    else f.round md (decide (x < 0)) x.natAbs lo false

/-! ## Shared-exponent blocks (R90 to R92) -/

/-- Bytes of a block of m-bit magnitudes (Table 5.7). -/
def sxBytes (m : Nat) : Nat := 4 + 2 * m

/-- Element j of a block (R91). -/
def sxValue (m blk j : Nat) : FVal :=
  let E := bitsOf blk 7 0
  if E = 255 then .nan
  else
    let d := bitsOf blk (9 + 2 * (j / 4)) (8 + 2 * (j / 4))
    .num (bitsOf blk (16 + j) (16 + j) = 1) (bitsOf blk (31 + m * (j + 1)) (32 + m * j))
      ((E : Int) - 127 - d - (m - 1 : Nat))

/-- The magnitude of a finite f32 value as m × 2^(−149). -/
def f32Mag (v : Nat) : Nat :=
  match f32Fmt.value v with
  | .num _ m e => m * 2 ^ (e + 149).toNat
  | _ => 0

/-- The largest magnitude of a list. -/
def maxMag (vs : List Nat) : Nat := vs.foldl (fun m v => Nat.max m (f32Mag v)) 0

/-- The largest d from 3 down with q < 2^(E − 126 − d), for q = n × 2^(−149) (R92). -/
def sxShift (n E : Nat) : Nat → Nat
  | 0 => 0
  | d + 1 => if n < 2 ^ (E + 23 - (d + 1)) then d + 1 else sxShift n E d

/-- The block that encodes 16 f32 values (R92). -/
def sxEncode (m : Nat) (md : Rounding) (xs : List Nat) : Nat :=
  if xs.any (fun x => f32Fmt.infMag ≤ x % 2 ^ 31) then 255
  else
    let amax := maxMag xs
    -- floor(log2(amax)) + 127 = log2(n) − 149 + 127, at least 0
    let E := if amax = 0 then 0 else Nat.log2 amax - 22
    let ds := [0, 1, 2, 3].map (fun k =>
      if amax = 0 then 0 else sxShift (maxMag ((xs.drop (4 * k)).take 4)) E 3)
    let els := xs.zipIdx.map (fun x =>
      let neg := decide (2 ^ 31 ≤ x.1)
      let e : Int := -149 + (127 + ds.getD (x.2 / 4) 0 + m - 1 : Nat) - E
      (neg, Nat.min (roundInt md neg (f32Mag x.1) e).natAbs (2 ^ m - 1)))
    E + (ds.zipIdx.map (fun d => d.1 * 2 ^ (8 + 2 * d.2))).sum +
      (els.zipIdx.map (fun x => (if x.1.1 then 2 ^ (16 + x.2) else 0) + x.1.2 * 2 ^ (32 + m * x.2))).sum

end Sys2Proof.Machine
end

