-- ==== Sys2Proof/Machine/Matrix.lean ====
section
/-! DEFINITION. The matrix engine: major 0x35 and the two events of a unit (chapter 13, R229 to R252), with the
arithmetic of R93 to R95 and the images of leases and reservations (R249, R251). -/

namespace Sys2Proof.Machine

open Sys2Proof

/-! ## Formats (Tables 13.5 and 13.6) -/

/-- K of a format. -/
def mxK (fmt : Nat) : Nat := [2, 4, 32, 32, 64, 64, 128, 64, 32].getD fmt 0

/-- Registers of an A row. -/
def mxRegs (fmt : Nat) : Nat := [4, 4, 16, 16, 16, 16, 16, 12, 9].getD fmt 0

/-- Bytes of one column of B, and of one A row. -/
def mxStride (fmt : Nat) : Nat := [16, 16, 64, 64, 64, 64, 64, 48, 36].getD fmt 0

/-- The accumulator's format. -/
def mxAcc (fmt : Nat) : FloatFmt := if fmt = 0 then f64Fmt else f32Fmt

/-- Element x of a sequence of SX blocks of m-bit magnitudes (R82, R90). -/
def sxElem (m v x : Nat) : FVal :=
  let w := 8 * sxBytes m
  sxValue m (bitsOf v (w * (x / 16 + 1) - 1) (w * (x / 16))) (x % 16)

/-- Element x of a packed sequence of a width (R81). -/
def packedElem (f : FloatFmt) (w v x : Nat) : FVal := f.value (bitsOf v (w * (x + 1) - 1) (w * x))

/-- Element k of a row or of a column, from its bytes as one little-endian number. -/
def mxElem (fmt v k : Nat) : FVal :=
  match fmt with
  | 0 => packedElem f64Fmt 64 v k
  | 1 => packedElem f32Fmt 32 v k
  | 2 => packedElem f16Fmt 16 v k
  | 3 => packedElem bf16Fmt 16 v k
  | 4 => packedElem e4m3Fmt 8 v k
  | 5 => packedElem e5m2Fmt 8 v k
  | 6 => sxElem 2 v k
  | 7 => sxElem 4 v k
  | _ => sxElem 7 v k

/-! ## A reservation record (Table 13.4) -/

/-- The fields of a record. -/
structure ResView where
  fmt : Nat
  blk : Nat
  tsc : Bool
  unit : Nat
  half : Nat
  len : Nat
  soff : Nat
  t : Nat
deriving DecidableEq, Repr

/-- A record's fields. -/
def viewRes (r : Nat) : ResView :=
  { fmt := bitsOf r 3 0, blk := bitsOf r 5 4, tsc := bitsOf r 6 6 = 1, unit := bitsOf r 9 8, half := bitsOf r 10 10,
    len := bitsOf r 26 16, soff := bitsOf r 63 48, t := bitsOf r 95 64 }

/-- The block length of the scale bytes. -/
def ResView.blockLen (v : ResView) : Nat := if v.blk = 1 then 16 else 32

/-- The B bytes of a format. -/
def mxBytes (fmt : Nat) : Nat := 64 * mxStride fmt

/-- The lowest set bit of a field of a number, if any. -/
def lowestBit (v hi lo : Nat) : Option Nat := ((List.range (hi + 1 - lo)).map (· + lo)).find? (fun i => v.testBit i)

/-- A bit, when a condition holds. -/
def bitWhen (c : Bool) (b : Nat) : Option Nat := if c then some b else none

/-- The lowest offending bit of a record (R237). -/
def resBad (pair : Bool) (r : Nat) : Option Nat :=
  let v := viewRes r
  let fields := [bitWhen (8 < v.fmt) 0,
    bitWhen (v.blk = 3 || (v.blk ≠ 0 && !(2 ≤ v.fmt && v.fmt ≤ 5))) 4,
    lowestBit r 7 7, bitWhen (v.half ≠ 0 && !pair) 10, lowestBit r 15 11,
    bitWhen (v.len = 0 || 1024 < v.len || (v.fmt ≤ 8 && v.len * 256 < mxBytes v.fmt)) 16, lowestBit r 47 27,
    bitWhen (v.soff % 64 ≠ 0 || (v.blk = 0 && v.soff ≠ 0) ||
      ((v.blk = 1 || v.blk = 2) && v.fmt ≤ 8 &&
        (v.soff < mxBytes v.fmt || v.len * 256 < v.soff + 64 * mxK v.fmt / v.blockLen))) 48,
    lowestBit r 255 96]
  fields.findSome? id

/-- A scale byte's value (R93). -/
def scaleValue (S : Nat) : FVal := if S = 255 then .nan else .num false 1 ((S : Int) - 127)

/-- The effective value of element (k, j) of B (R93, R239). -/
def effB (v : ResView) (bytes : Sparse Byte) (k j : Nat) : FVal :=
  let x := mxElem v.fmt (Mem.readNat bytes (mxStride v.fmt * j) (mxStride v.fmt)) k
  let y := if v.blk = 0 then x
    else x.mul (scaleValue (Mem.readNat bytes (v.soff + j * (mxK v.fmt / v.blockLen) + k / v.blockLen) 1))
  if v.tsc then y.mul (f32Fmt.value v.t) else y

/-! ## The product (R94) -/

/-- One output element: groups of 16 terms in increasing k, each rounded once. -/
def mxDot (fmt : Nat) (a b : Nat → FVal) (acc : Nat) : Nat :=
  let f := mxAcc fmt
  let K := mxK fmt
  (List.range ((K + 15) / 16)).foldl (fun acc g =>
    f.sumRound .rne (f.value acc :: (List.range (Nat.min 16 (K - 16 * g))).map (fun x =>
      (a (16 * g + x)).mul (b (16 * g + x))))) acc

/-- Row i of A; a row that nobody supplied is +0 in every k (R241). Kept rows are bytes: an operation of another format
reads them in its own, with zeros behind the last byte of the row (notes/assumptions/113.md). -/
def rowA (fmt : Nat) (rows : Table (List Byte)) (i k : Nat) : FVal :=
  match Table.get? rows i with
  | some bs => mxElem fmt (leNat bs) k
  | none => .num false 0 0

/-- Elements of the accumulator store that hold other than +0, of one tile. -/
def tileElems (n : Nat) (f : Nat → Nat → Nat) : Sparse Dword :=
  (List.range 4096).filterMap (fun x =>
    let v := BitVec.ofNat 64 (f (x / 64) (x % 64))
    if v = 0#64 then none else some (4096 * n + x, v))

/-- A lease's accumulators with one tile written as one operation (R243). -/
def putTile (acc : Sparse Dword) (n : Nat) (f : Nat → Nat → Nat) : Sparse Dword :=
  acc.filter (fun e => decide (e.1 < 4096 * n)) ++ tileElems n f ++ acc.filter (fun e => decide (4096 * (n + 1) ≤ e.1))

/-- Element (i, j) of tile n of a lease. -/
def Lease.elem (l : Lease) (n i j : Nat) : Nat := (Sparse.get 0#64 l.acc (4096 * n + 64 * i + j)).toNat

/-- The lease after an operation has written its tile. -/
def Lease.product (l : Lease) (o : MxOp) (r : Reservation) : Lease :=
  let v := viewRes r.record
  { l with
    acc := putTile l.acc o.tile (fun i j =>
      mxDot v.fmt (rowA v.fmt o.rows i) (fun k => effB v r.bytes k j) (if o.zero then 0 else l.elem o.tile i j))
    accPoison := l.accPoison.filter (fun e => e / 4096 ≠ o.tile) }

/-! ## Finding leases and reservations -/

/-- Where a lease stands. -/
structure LeaseAt where
  cluster : Nat
  unit : Nat
  slot : Nat
  lease : Lease
deriving DecidableEq, Repr

/-- The lease of a role of a crew (R233). -/
def State.roleLease (s : State) (c : Nat) (cr : Crew) (r : Nat) : Option LeaseAt :=
  cr.units.findSome? (fun ku =>
    (s.unit cr.die ku.1 ku.2).leases.findSome? (fun e =>
      if e.2.crew = c && e.2.role = r then some { cluster := ku.1, unit := ku.2, slot := e.1, lease := e.2 } else none))

/-- Where a reservation stands. -/
structure ResAt where
  cluster : Nat
  unit : Nat
  slot : Nat
  res : Reservation
deriving DecidableEq, Repr

/-- The reservation that a handle of a crew is bound to (R237, R238). -/
def State.reservation (s : State) (c : Nat) (cr : Crew) (k : Nat) : Option ResAt :=
  cr.units.findSome? (fun ku =>
    (s.unit cr.die ku.1 ku.2).reservations.findSome? (fun e =>
      if e.2.crew = c && e.2.handle = k then some { cluster := ku.1, unit := ku.2, slot := e.1, res := e.2 } else none))

/-- The unit with one lease replaced by its image. -/
def MatrixUnit.modLease (u : MatrixUnit) (slot : Nat) (f : Lease → Lease) : MatrixUnit :=
  { u with leases := Table.adjust u.leases slot f }

/-- The lowest numbers below a bound that are not in use. -/
def freeNumbers (bound : Nat) (used : List Nat) : List Nat := (List.range bound).filter (fun k => !used.contains k)

/-- Free tile slots of a unit (Table 13.1). -/
def MatrixUnit.freeTiles (u : MatrixUnit) : List Nat := freeNumbers 8 (u.leases.flatMap (fun e => e.2.slots))

/-- Disjoint pairs of adjacent numbers of an ascending list, the lowest first. -/
def pairSlots : List Nat → List Nat
  | a :: b :: r => if b = a + 1 then a :: b :: pairSlots r else pairSlots (b :: r)
  | _ => []

/-- The free tile slots that tiles of a kind can take: an f64 tile stands in two adjacent slots (Table 13.1;
notes/assumptions/53.md). -/
def MatrixUnit.tileSlots (u : MatrixUnit) (f64 : Bool) : List Nat := if f64 then pairSlots u.freeTiles else u.freeTiles

/-- Free lease slots of a unit. -/
def MatrixUnit.freeLeases (u : MatrixUnit) : List Nat := freeNumbers 8 (u.leases.map (·.1))

/-- Free reservation slots of a unit, and its granules in use. -/
def MatrixUnit.freeRes (u : MatrixUnit) : List Nat := freeNumbers 32 (u.reservations.map (·.1))
def MatrixUnit.granules (u : MatrixUnit) : Nat := (u.reservations.map (fun e => bitsOf e.2.record 26 16)).sum

/-- A unit without one lease, whose rights pass on. -/
def MatrixUnit.dropLease (u : MatrixUnit) (slot : Nat) : MatrixUnit :=
  MatrixUnit.passRights
    { u with leases := Table.drop u.leases slot, holder := if u.holder = some slot then none else u.holder }

/-- The number of a thread in its role. -/
def Crew.roleLocal (cr : Crew) (tid : Nat) (th : Thread) : Nat :=
  match cr.role? th.role with
  | some r => tid - r.first
  | none => 0

/-! ## What every form of major 0x35 meets first -/

/-- The order of R76, then an operation of the role that met an error (R347): UE_MX with the unit. -/
def State.mxGuarded (s : State) (l : Legality) (body : State → State) : State :=
  s.guarded l fun s =>
    match s.firstPoison (fun _ th => th.mxPoison) with
    | some x => s.consume Code.ueMx x
    | none => body s

/-- The first register of a block: an index form, or a register at or beyond the budget, is illegal (R65, R231, R242). What
the rest of the block passes is MX_BAD's. -/
def State.baseIllegal (s : State) (f : BitVec 7) : Bool := decide (0x78 ≤ f.toNat) || decide (s.curBudget ≤ f.toNat)

/-- A trap of the bundle when a condition on its role holds and a lane is active. -/
def State.roleTrap (s : State) (bad : Bool) (code : Code) (info : Nat) : Option State :=
  s.laneTrap code (fun _ _ => bad) (fun _ _ => (info : Int))

/-- Traps in order: the first that is raised, and otherwise what follows. -/
def orElse (checks : List (Option State)) (go : State) : State :=
  match checks.findSome? id with
  | some t => t
  | none => go

/-! ## mma (R242, R243) -/

/-- The A row of a thread: n consecutive registers from its base, each renamed. -/
def Thread.rowRegs (th : Thread) (va : BitVec 7) (n : Nat) : List Nat := (List.range n).map (th.blockReg va)
def Thread.row (th : Thread) (va : BitVec 7) (n : Nat) : List Byte :=
  (th.rowRegs va n).flatMap (fun r => leBytes (th.readReg r).toNat 4)

/-- What an `mma` word names. -/
structure MmaWord where
  va : BitVec 7
  acc : Nat
  ob : Nat
  tb : Nat
  keep : Bool
  zero : Bool
deriving DecidableEq, Repr

/-- The signature of a thread would count in the generation that has claimed a lease's store (R242). -/
def claimCounts (m : Claim) (tb : Tumbler) (k tid : Nat) : Bool :=
  m.tb = k && m.gen = tb.gen && !m.turned && !tb.signed.contains tid

/-- Another role's lease has its store claimed by the tumbler's current generation. -/
def State.claimedElsewhere (s : State) (c : Nat) (cr : Crew) (role k : Nat) (gen : Word) : Bool :=
  cr.units.any (fun ku => (s.unit cr.die ku.1 ku.2).leases.any (fun e =>
    e.2.crew = c && e.2.role ≠ role && match e.2.claim with
      | some m => m.tb = k && m.gen = gen && !m.turned
      | none => false))

/-- The MX_SIGN reason of a lane (R242), or none. The rows of the lower lanes of the bundle count as deposited. A signer
that will park, because its own signature or the store belongs to another generation (R243), is checked when it goes on. -/
def State.signReason (s : State) (cr : Crew) (la : LeaseAt) (w : MmaWord) (tid : Nat) (th : Thread) : Option Nat :=
  let tb := cr.tumbler w.tb
  let row := fun t u => cr.roleLocal t u % 64
  let lower := la.lease.kept.isNone && s.activeLanes.any (fun e => decide (e.1.tid < tid) &&
    row e.1.tid e.2 = row tid th && !tb.signed.contains e.1.tid)
  let elsewhere := if s.claimedElsewhere s.cur.crew cr th.role w.tb tb.gen then some 3 else none
  if tb.signed.contains tid then none
  else match la.lease.claim with
    | some m =>
      if !claimCounts m tb w.tb tid then none
      else if m.acc ≠ w.acc || m.ob ≠ w.ob || m.keep ≠ w.keep || m.zero ≠ w.zero then some 1
      else if (Table.get? m.rows (row tid th)).isSome || lower then some 2
      else elsewhere
    | none => if lower then some 2 else elsewhere

/-- A lane signs and deposits its row (R242, R243), or parks. -/
def State.mmaLane (s : State) (w : MmaWord) (n tid : Nat) (th : Thread) : State :=
  match s.curCrew? with
  | none => s
  | some cr =>
    let tb := cr.tumbler w.tb
    if tb.signed.contains tid then s.park s.cur.crew tid (.sign w.tb)
    else match s.roleLease s.cur.crew cr th.role with
      | none => s.park s.cur.crew tid .matrix
      | some la =>
        let other := match la.lease.claim with
          | some m => !claimCounts m tb w.tb tid
          | none => false
        if other then s.park s.cur.crew tid .matrix
        else s.drained tid none .fence fun s =>
          let m := la.lease.claim.getD
            { acc := w.acc, ob := w.ob, tb := w.tb, gen := tb.gen, keep := w.keep, zero := w.zero, rows := [],
              turned := false }
          let m := if la.lease.kept.isSome then m
            else { m with rows := Table.put m.rows (cr.roleLocal tid th % 64) (th.row w.va n) }
          let s := s.modUnit cr.die la.cluster la.unit (fun u => u.modLease la.slot (fun l => { l with claim := some m }))
          ((s.finishLane tid .now [] []).closeRegion s.cur.crew tid).sign s.cur.crew w.tb tid

/-- `mma`. -/
def State.mma (s : State) (w : MmaWord) : State :=
  s.mxGuarded { opnds := [], illegal := s.baseIllegal w.va, cls := PfxClass.predOnly } fun s =>
    match s.curCrew? with
    | none => s
    | some cr =>
      match s.roleLease s.cur.crew cr s.curRole with
      | none => orElse [s.roleTrap true Code.mxNolease s.curRole] s.completeNone
      | some la =>
        let bad := fun (b : Bool) (r : Nat) => s.roleTrap b Code.mxBad r
        let rs := s.reservation s.cur.crew cr w.ob
        let fmt := match rs with | some r => bitsOf r.res.record 3 0 | none => 0
        let n := mxRegs fmt
        orElse
          [bad (decide (la.lease.tiles ≤ w.acc)) 3,
           bad rs.isNone 4,
           bad (match rs with | some r => r.cluster ≠ la.cluster || r.unit ≠ la.unit | none => false) 5,
           bad (la.lease.f64 != decide (fmt = 0)) 6,
           bad (blockIllegal s.curBudget w.va n (fmt = 0)) 7,
           s.memberTrap w.tb,
           s.codeTrap (fun l th =>
             (s.signReason cr la w l.tid th).map (fun r => (Code.mxSign, r + w.tb * 2 ^ 8)))]
          (match (if la.lease.kept.isSome then none
              else s.firstPoison (fun _ th => (th.rowRegs w.va n).find? th.readPoisoned)) with
            | some x => s.consume Code.ueReg x
            | none => s.outwardActive.lanewise .now (fun _ => []) fun t ln th => t.mmaLane w n ln.tid th)

/-- `mma acN, vA, obk, tbk`. -/
def execMma (va : BitVec 7) (acc : BitVec 3) (ob tb : BitVec 4) (keep : Bool) (s : State) :
    Host.Outcome State Fault Refusal :=
  .next (s.mma { va := va, acc := acc.toNat, ob := ob.toNat, tb := tb.toNat, keep := keep, zero := false })

/-- `mma acN, vA, obk, tbk, zero`. -/
def execMmaZero (va : BitVec 7) (acc : BitVec 3) (ob tb : BitVec 4) (keep : Bool) (s : State) :
    Host.Outcome State Fault Refusal :=
  .next (s.mma { va := va, acc := acc.toNat, ob := ob.toNat, tb := tb.toNat, keep := keep, zero := true })

/-! ## Leases (R233 to R236) -/

/-- A lease request (Table 13.3). -/
structure LeaseReq where
  unit : Nat
  any : Bool
  f64 : Bool
  half : Nat
  tiles : Nat
  quota : Nat
deriving DecidableEq, Repr

/-- A request word's fields. -/
def viewLease (q : Nat) : LeaseReq :=
  { unit := bitsOf q 1 0, any := bitsOf q 2 2 = 1, f64 := bitsOf q 3 3 = 1, half := bitsOf q 4 4,
    tiles := bitsOf q 11 8, quota := bitsOf q 27 16 + 1 }

/-- A request word that breaks Table 13.3. -/
def leaseBad (pair : Bool) (q : Nat) : Bool :=
  let r := viewLease q
  bitsOf q 7 5 ≠ 0 || bitsOf q 15 12 ≠ 0 || bitsOf q 31 28 ≠ 0 || (r.half ≠ 0 && !pair) || r.tiles = 0 ||
    decide ((if r.f64 then 4 else 8) < r.tiles)

/-- The lease word (R233): UNIT set, ANY and QUOTA cleared. -/
def leaseWord (unit : Nat) (l : Lease) : Word :=
  BitVec.ofNat 32 (unit + (if l.f64 then 8 else 0) + l.half * 16 + l.tiles * 256)

/-- A parked request that came before a place in the parking order waits for a unit. -/
def State.leaseAhead (s : State) (die cluster unit seq : Nat) : Bool :=
  s.crews.any (fun e => e.2.die = die && !e.2.stopped && e.2.threads.any (fun t =>
    decide (t.2.parkSeq < seq) && match t.2.wait with
      | some (.lease k u) => k = cluster && (u = unit || u = 4)
      | _ => false))

/-- A unit has a free lease slot and the free tile slots that a request needs. -/
def MatrixUnit.room (u : MatrixUnit) (r : LeaseReq) : Bool :=
  u.freeLeases ≠ [] && decide (r.tiles * (if r.f64 then 2 else 1) ≤ (u.tileSlots r.f64).length)

/-- The unit that a request can have now: requests are served in arrival order per unit. -/
def State.leaseUnit (s : State) (die cluster seq : Nat) (r : LeaseReq) : Option Nat :=
  (if r.any then [0, 1, 2, 3] else [r.unit]).find? (fun u =>
    (s.unit die cluster u).room r && !s.leaseAhead die cluster u seq)

/-- A new lease of a role. -/
def LeaseReq.lease (r : LeaseReq) (crew role : Nat) (slots : List Nat) : Lease :=
  { crew := crew, role := role, half := r.half, f64 := r.f64, tiles := r.tiles, slots := slots, quota := r.quota,
    qleft := 0, acc := [], accPoison := [], claim := none, kept := none }

/-- A lane of `mx.lease`. -/
def State.leaseLane (s : State) (vd va : BitVec 7) (la tid : Nat) (th : Thread) : State :=
  match s.curCrew? with
  | none => s
  | some cr =>
    let done := fun (s : State) (unit : Nat) (l : Lease) =>
      (s.finishLane tid (.after la) [(.reg (th.regOf vd), leaseWord unit l)] []).closeRegion s.cur.crew tid
    match s.roleLease s.cur.crew cr th.role with
    | some x => done s x.unit x.lease
    | none =>
      let r := viewLease (th.read32 va).toNat
      let cluster := cr.cluster + r.half
      let seq := match th.wait with | some _ => th.parkSeq | none => s.nextSeq
      match s.leaseUnit cr.die cluster seq r with
      | none => s.park s.cur.crew tid (.lease cluster (if r.any then 4 else r.unit))
      | some u =>
        let mu := s.unit cr.die cluster u
        let l := r.lease s.cur.crew th.role ((mu.tileSlots r.f64).take (r.tiles * (if r.f64 then 2 else 1)))
        done (s.modUnit cr.die cluster u (fun m => { m with leases := Table.put m.leases (mu.freeLeases.headD 0) l })) u l

/-- `mx.lease vd, va` (R233). -/
def execMxLease (vd va : BitVec 7) (la : BitVec 4) (s : State) : Host.Outcome State Fault Refusal :=
  .next (s.mxGuarded (lx [lxDst32 vd, lxSrc32 va] false) fun s =>
    match s.curCrew? with
    | none => s
    | some cr =>
      orElse [s.laneTrap Code.mxBad (fun _ th => leaseBad cr.pair (th.read32 va).toNat) (fun _ _ => 1)]
        (s.outwardActive.lanewise (.after la.toNat) (fun _ => []) fun t ln th => t.leaseLane vd va la.toNat ln.tid th))

/-- A lane of `mx.release` (R236). -/
def State.releaseLane (s : State) (tid : Nat) (th : Thread) : State :=
  match s.curCrew? with
  | none => s
  | some cr =>
    let done := fun (s : State) => (s.finishLane tid .now [] []).closeRegion s.cur.crew tid
    match s.roleLease s.cur.crew cr th.role with
    | none => done s
    | some x =>
      if (s.unit cr.die x.cluster x.unit).busySlot x.slot then s.park s.cur.crew tid .matrix
      else
        let s := match x.lease.claim with
          | some m =>
            if m.turned then s.log cr.ctx (s.crewRecord cr Code.mxNolease 0 m.tb 0 0) (some s.cur.crew) tid
            else s.modCrew s.cur.crew (fun y => y.putTumbler m.tb { y.tumbler m.tb with orphan := true })
          | none => s
        done (s.modUnit cr.die x.cluster x.unit (fun u => u.dropLease x.slot))

/-- `mx.release` (R236). -/
def execMxRelease (s : State) : Host.Outcome State Fault Refusal :=
  .next (s.mxGuarded (lx [] false) fun s =>
    s.outwardActive.lanewise .now (fun _ => []) fun t ln th => t.releaseLane ln.tid th)

/-! ## Reservations (R237 to R240) -/

/-- The record that a lane of `ob.resv` reads, with its own earlier stores (R237). -/
def State.resRecord (s : State) (va : BitVec 7) (cr : Crew) (th : Thread) : Nat :=
  let off := (th.read32 va).toNat
  leNat (forwardedBytes th.fifo .sh off (s.readSpace cr th .sh off 32))

/-- A lane of a form that is region-closing and has no result completes (R124). -/
def State.closeLane (s : State) (tid : Nat) : State := (s.finishLane tid .now [] []).closeRegion s.cur.crew tid

/-- A lane of `ob.resv`. -/
def State.resvLane (s : State) (k rec0 tid : Nat) : State :=
  match s.curCrew? with
  | none => s
  | some cr =>
    match s.reservation s.cur.crew cr k with
    | some _ => s.closeLane tid
    | none =>
      let v := viewRes rec0
      let cluster := cr.cluster + v.half
      let u := s.unit cr.die cluster v.unit
      match u.freeRes with
      | [] => s.park s.cur.crew tid .matrix
      | slot :: _ =>
        if 1024 < u.granules + v.len then s.park s.cur.crew tid .matrix
        else
          let r : Reservation := { crew := s.cur.crew, handle := k, record := rec0, bytes := [], poison := [] }
          (s.modUnit cr.die cluster v.unit (fun m =>
            { m with reservations := Table.put m.reservations slot r })).closeLane tid

/-- `ob.resv obk, [va]` (R237). -/
def execObResv (va : BitVec 7) (k : BitVec 4) (s : State) : Host.Outcome State Fault Refusal :=
  .next (s.mxGuarded (lx [lxSrc32 va] false) fun s =>
    match s.curCrew? with
    | none => s
    | some cr =>
      match s.addressTrap .sh 32 32 (fun _ th => ((th.read32 va).toNat : Int)) with
      | some t => t
      | none =>
        match s.lanePoison .sh 32 false (fun _ th => ((th.read32 va).toNat : Int)) with
        | some off => s.consume Code.ueSh off
        | none =>
          orElse [s.codeTrap (fun _ th => (resBad cr.pair (s.resRecord va cr th)).map (fun b => (Code.mxBad, 2 + b * 2 ^ 8)))]
            (s.outwardActive.lanewise .now (fun _ => []) fun t ln th =>
              t.resvLane k.toNat (s.resRecord va cr th) ln.tid))

/-- A claimed or turned generation of the crew's leases names a handle (R238). -/
def State.handleClaimed (s : State) (c : Nat) (cr : Crew) (k : Nat) : Bool :=
  cr.units.any (fun ku =>
    let u := s.unit cr.die ku.1 ku.2
    u.busyHandle c k || u.leases.any (fun e => e.2.crew = c && match e.2.claim with
      | some m => m.ob = k
      | none => false))

/-- `ob.free obk` (R238). -/
def execObFree (k : BitVec 4) (s : State) : Host.Outcome State Fault Refusal :=
  .next (s.mxGuarded (lx [] false) fun s =>
    s.outwardActive.lanewise .now (fun _ => []) fun t ln _ =>
      match t.curCrew? with
      | none => t
      | some cr =>
        match t.reservation t.cur.crew cr k.toNat with
        | none => t.closeLane ln.tid
        | some r =>
          if t.handleClaimed t.cur.crew cr k.toNat then t.park t.cur.crew ln.tid .matrix
          else (t.modUnit cr.die r.cluster r.unit (fun u =>
            { u with reservations := Table.drop u.reservations r.slot })).closeLane ln.tid)

/-- A reservation with bytes written. -/
def Reservation.write (r : Reservation) (a : Nat) (bs : List Byte) : Reservation :=
  { r with bytes := Mem.writeBytes r.bytes a bs, poison := poisonAfter r.poison a bs.length }

/-- The active lanes of the bundle park, each with its own wait. -/
def State.parkActive (s : State) (w : Thread → Wait) : State :=
  s.activeLanes.foldl (fun (t : State) e => t.park t.cur.crew e.1.tid (w e.2)) s

/-- `ob.ld obk, vA, sh` and `die` (R240): the bundle waits for the lines of all its lanes, so that its bytes stand in the
buffer, written in lane order, when the threads continue. -/
def execObLd (va : BitVec 7) (die : BitVec 1) (k : BitVec 4) (s : State) : Host.Outcome State Fault Refusal :=
  let sp : Space := if bit1 die then .die else .sh
  let src := fun (th : Thread) => (lo32 (th.read64 va)).toNat
  let dst := fun (th : Thread) => (hi32 (th.read64 va)).toNat
  .next (s.mxGuarded (lx [lxSrc64 va] false) fun s =>
    match s.curCrew? with
    | none => s
    | some cr =>
      match s.reservation s.cur.crew cr k.toNat with
      | none => orElse [s.roleTrap true Code.mxBad 4] s.completeNone
      | some r =>
        let size := bitsOf r.res.record 26 16 * 256
        orElse
          [s.laneTrap Code.align (fun _ th => src th % 64 ≠ 0 || dst th % 64 ≠ 0)
             (fun _ th => ((if src th % 64 ≠ 0 then src th else dst th : Nat) : Int)),
           s.laneTrap (boundsCode sp) (fun _ th => !s.inBounds cr sp (src th) 64) (fun _ th => (src th : Int)),
           s.laneTrap Code.mxBad (fun _ th => decide (size < dst th + 64)) (fun _ _ => 8)]
          (match s.lanePoison sp 64 false (fun _ th => (src th : Int)) with
            | some off => s.consume (poisonCode sp) off
            | none =>
              let waits := fun (th : Thread) => match s.lineState cr th sp (src th) with | .waits _ => true | _ => false
              if s.activeLanes.any (fun e => waits e.2) then
                (s.skipInactive .now (fun _ => [])).parkActive (fun th => .obLine (if waits th then some (src th) else none))
              else s.outwardActive.lanewise .now (fun _ => []) fun t ln th =>
                t.withLine ln.tid sp (src th) fun t =>
                  let bs := forwardedBytes th.fifo sp (src th) (t.readSpace cr th sp (src th) 64)
                  (t.modUnit cr.die r.cluster r.unit (fun u =>
                    { u with reservations := Table.adjust u.reservations r.slot (fun x => x.write (dst th) bs) })).finishLane
                    ln.tid .now [] []))

/-! ## Reading accumulators (R245, R246) -/

/-- The fields that `acc.rd` reads. -/
def accRow (w : Word) : Nat := bitsOf w.toNat 5 0
def accChunk (w : Word) : Nat := bitsOf w.toNat 9 6
def accTile (w : Word) : Nat := bitsOf w.toNat 12 10
def accRole (w : Word) : Nat := bitsOf w.toNat 15 13

/-- The elements of a lease that a word names, as the indexes of the accumulator store. -/
def Lease.chunk (l : Lease) (w : Word) : List Nat :=
  let n := if l.f64 then 8 else 16
  (List.range n).map (fun e => 4096 * accTile w + 64 * accRow w + n * accChunk w + e)

/-- The register results of a chunk: f32 elements in single registers, f64 elements in pairs. -/
def Lease.chunkResults (l : Lease) (th : Thread) (vd : BitVec 7) (w : Word) : Results :=
  (l.chunk w).zipIdx.flatMap (fun x =>
    let v := Sparse.get 0#64 l.acc x.1
    if l.f64 then [(.reg (th.blockReg vd (2 * x.2)), lo32 v), (.reg (th.blockReg vd (2 * x.2 + 1)), hi32 v)]
    else [(.reg (th.blockReg vd x.2), lo32 v)])

/-- The oldest operation in flight on the tile that a word names (R245). -/
def State.tileBusy (s : State) (cr : Crew) (x : LeaseAt) (w : Word) : Option Nat :=
  ((s.unit cr.die x.cluster x.unit).queue.find? (fun o => o.slot = x.slot && o.tile = accTile w)).map (·.op)

/-- `acc.rd vd, va` (R245). -/
def execAccRd (vd va : BitVec 7) (la : BitVec 4) (s : State) : Host.Outcome State Fault Refusal :=
  .next (s.mxGuarded (lx [lxSrc32 va] (s.baseIllegal vd)) fun s =>
    match s.curCrew? with
    | none => s
    | some cr =>
      let word := fun (th : Thread) => th.read32 va
      let lease := fun (th : Thread) => s.roleLease s.cur.crew cr (accRole (word th))
      let check := fun (r : Nat) (bad : Thread → LeaseAt → Bool) =>
        s.codeTrap (fun _ th => match lease th with
          | some x => if bad th x then some (Code.mxBad, r) else none
          | none => none)
      orElse
        [s.codeTrap (fun _ th => if (lease th).isNone then some (Code.mxNolease, accRole (word th)) else none),
         check 3 (fun th x => decide (x.lease.tiles ≤ accTile (word th))),
         check 9 (fun th x => bitsOf (word th).toNat 31 16 ≠ 0 ||
           decide ((if x.lease.f64 then 8 else 4) ≤ accChunk (word th))),
         check 7 (fun _ x => blockIllegal s.curBudget vd 16 x.lease.f64),
         s.codeTrap (fun _ th => match lease th with
           | some x => (s.tileBusy cr x (word th)).map (fun op => (Code.accBusy, accTile (word th) + op * 2 ^ 8))
           | none => none)]
        (match s.firstPoison (fun _ th => (lease th).bind (fun x =>
            if (x.lease.chunk (word th)).any (fun k => x.lease.accPoison.contains k) then some x.unit else none)) with
          | some x => s.consume Code.ueMx x
          | none => s.outwardActive.complete (.after la.toNat) (fun _ th => match lease th with
              | some x => x.lease.chunkResults th vd (word th)
              | none => [])))

/-- An operation of a role's lease on a tile, numbered op or below, has been accepted and has not completed (R246). -/
def State.tileInFlight (s : State) (c : Nat) (cr : Crew) (role tile op : Nat) : Bool :=
  cr.units.any (fun ku => (s.unit cr.die ku.1 ku.2).queue.any (fun o =>
    o.crew = c && o.role = role && o.tile = tile && decide (o.op ≤ op)))

/-- The newest operation that has been accepted for a role (R230). -/
def Crew.mxAccepted (cr : Crew) (role : Nat) : Nat :=
  match Table.get? cr.mxTl role with
  | some t => t.accepted
  | none => 0

/-- `acc.wait acN, #r` (R246). -/
def execAccWait (role acc : BitVec 3) (s : State) : Host.Outcome State Fault Refusal :=
  .next (s.mxGuarded (lx [] false) fun s =>
    match s.curCrew? with
    | none => s
    | some cr =>
      let r := role.toNat
      let wait := fun (t : State) (tid op : Nat) =>
        if t.tileInFlight t.cur.crew cr r acc.toNat op then t.park t.cur.crew tid (.accumulator op)
        else t.finishLane tid .now [] []
      let lanes := fun (s : State) => s.outwardActive.lanewise .now (fun _ => []) fun t ln th =>
        match th.wait with
        | some (.accumulator op) => wait t ln.tid op
        | _ => wait t ln.tid (cr.mxAccepted r)
      if s.activeLanes.any (fun e => match e.2.wait with | some (.accumulator _) => true | _ => false) then lanes s
      else match s.roleLease s.cur.crew cr r with
        | none => orElse [s.roleTrap true Code.mxNolease r] s.completeNone
        | some x => orElse [s.roleTrap (decide (x.lease.tiles ≤ acc.toNat)) Code.mxBad 3] (lanes s))

/-! ## Images (R249 to R251) -/

/-- The bytes of a lease's row store: row i at 64 i. -/
def rowStore (rows : Table (List Byte)) : List Byte :=
  (List.range 64).flatMap (fun i =>
    let bs := (Table.get? rows i).getD []
    (List.range 64).map (fun x => bs.getD x 0#8))

/-- The rows that a lease's store holds: kept A, or those of the generation that claims it. -/
def Lease.rows (l : Lease) : Table (List Byte) :=
  match l.kept with
  | some r => r
  | none => match l.claim with
    | some m => m.rows
    | none => []

/-- The header of a lease image (Table 13.7). -/
def Lease.header (l : Lease) (index ops : Nat) : Nat :=
  let base := 1 + (if l.f64 then 2 else 0) + (if l.kept.isSome then 4 else 0) + l.tiles * 2 ^ 8 + l.role * 2 ^ 16 +
    index * 2 ^ 32 + l.quota * 2 ^ 64 + l.qleft * 2 ^ 80 + ops * 2 ^ 96
  match l.claim with
  | none => base
  | some m =>
    base + (if m.turned then 16 else 8) + (m.rows.map (fun e => 2 ^ (160 + e.1))).sum + m.acc * 2 ^ 224 + m.ob * 2 ^ 227 +
      m.tb * 2 ^ 231 + (if m.keep then 2 ^ 235 else 0) + (if m.zero then 2 ^ 236 else 0) + m.gen.toNat * 2 ^ 240

/-- A lease image (R249). -/
def Lease.image (l : Lease) (index ops : Nat) : List Byte :=
  leBytes (l.header index ops) 64 ++
    (if l.kept.isSome || l.claim.isSome then rowStore l.rows else []) ++
    (List.range (l.tiles * 4096)).flatMap (fun x => leBytes (Sparse.get 0#64 l.acc x).toNat (if l.f64 then 8 else 4))

/-- The bytes that a lease image has, from its header. -/
def leaseImageLen (h : Nat) : Nat :=
  if bitsOf h 0 0 = 0 then 64
  else 64 + (if bitsOf h 4 2 = 0 then 0 else 4096) + bitsOf h 11 8 * (if bitsOf h 1 1 = 1 then 32768 else 16384)

/-- The MX_STATE reason for which a lease header is refused (R250), or none. -/
def leaseHeaderBad (h : Nat) : Option Nat :=
  if bitsOf h 7 5 ≠ 0 || bitsOf h 15 12 ≠ 0 || bitsOf h 31 19 ≠ 0 || bitsOf h 79 77 ≠ 0 || bitsOf h 95 93 ≠ 0 ||
      bitsOf h 239 238 ≠ 0 || bitsOf h 511 272 ≠ 0 || (bitsOf h 3 3 = 1 && bitsOf h 4 4 = 1) then some 3
  else if bitsOf h 11 8 = 0 || decide ((if bitsOf h 1 1 = 1 then 4 else 8) < bitsOf h 11 8) then some 4
  else none

/-- Where the elements of a lease image begin, and how wide one is. -/
def leaseTilesAt (h : Nat) : Nat := if bitsOf h 4 2 = 0 then 64 else 64 + 4096
def leaseWidth (h : Nat) : Nat := if bitsOf h 1 1 = 1 then 8 else 4

/-- The bytes of a lease image that hold an uncorrectable error, for its elements that do, and back: no image puts a correct
check on them (R357). -/
def leaseImagePoison (h : Nat) (bad : List Nat) : List Nat :=
  bad.flatMap (fun e => (List.range (leaseWidth h)).map (fun i => leaseTilesAt h + leaseWidth h * e + i))
def leasePoisonOf (h : Nat) (bad : List Nat) : List Nat :=
  ((bad.filter (fun a => decide (leaseTilesAt h ≤ a))).map (fun a => (a - leaseTilesAt h) / leaseWidth h)).eraseDups

/-- The rows of an image's row store, those whose bit of a mask is set. -/
def rowsOf (mask : Nat) (store : List Byte) : Table (List Byte) :=
  ((List.range 64).filter (fun i => mask.testBit i)).map (fun i => (i, (store.drop (64 * i)).take 64))

/-- The lease that an image describes, for a crew (R250), with the bytes of the image that hold an error. -/
def leaseOfImage (crew half : Nat) (slots : List Nat) (bs : List Byte) (bad : List Nat) : Lease :=
  let h := leNat (bs.take 64)
  let f64 := bitsOf h 1 1 = 1
  let kept := bitsOf h 2 2 = 1
  let store := if bitsOf h 4 2 = 0 then [] else (bs.drop 64).take 4096
  let w := if f64 then 8 else 4
  let tiles := (bs.drop 64).drop store.length
  let claim : Claim :=
    { acc := bitsOf h 226 224, ob := bitsOf h 230 227, tb := bitsOf h 234 231, gen := BitVec.ofNat 32 (bitsOf h 271 240),
      keep := bitsOf h 235 235 = 1, zero := bitsOf h 236 236 = 1,
      rows := if kept then [] else rowsOf (bitsOf h 223 160) store, turned := bitsOf h 4 4 = 1 }
  { crew := crew, role := bitsOf h 18 16, half := half, f64 := f64, tiles := bitsOf h 11 8, slots := slots,
    quota := bitsOf h 76 64, qleft := bitsOf h 92 80,
    acc := (List.range (bitsOf h 11 8 * 4096)).filterMap (fun x =>
      let v := BitVec.ofNat 64 (leNat ((tiles.drop (w * x)).take w))
      if v = 0#64 then none else some (x, v)),
    accPoison := leasePoisonOf h bad, claim := if bitsOf h 4 3 = 0 then none else some claim,
    kept := if kept then some (rowsOf (2 ^ 64 - 1) store) else none }

/-- The header of a reservation image (R251). -/
def Reservation.header (r : Reservation) (index : Nat) : Nat := 1 + r.handle * 2 ^ 8 + index * 2 ^ 32 + r.record * 2 ^ 256

/-- A reservation image. -/
def Reservation.image (r : Reservation) (index : Nat) : List Byte :=
  leBytes (r.header index) 64 ++ Mem.readBytes r.bytes 0 (bitsOf r.record 26 16 * 256)

/-- The bytes that a reservation image has, from its header. -/
def resImageLen (h : Nat) : Nat := if bitsOf h 0 0 = 0 then 64 else 64 + bitsOf h 282 272 * 256

/-- A reservation header that R251 refuses; the record may name another unit. -/
def resHeaderBad (pair : Bool) (h : Nat) : Bool :=
  bitsOf h 7 1 ≠ 0 || bitsOf h 31 12 ≠ 0 || bitsOf h 255 64 ≠ 0 || (resBad pair (bitsOf h 511 256)).isSome

/-- The reservation that an image describes, with its record's UNIT set and its bytes that hold an error. -/
def resOfImage (crew unit : Nat) (bs : List Byte) (bad : List Nat) : Reservation :=
  let h := leNat (bs.take 64)
  { crew := crew, handle := bitsOf h 11 8, record := setBits (bitsOf h 511 256) 9 8 unit,
    bytes := Mem.writeBytes [] 0 (bs.drop 64), poison := (bad.filter (fun a => decide (64 ≤ a))).map (· - 64) }

/-! ## Freeze, drain and fill (R248 to R251) -/

/-- The system forms: MX_PRIV in any thread that is not of the reserved system role (R232). -/
def State.systemForm (s : State) (os : List Opnd) (body : State → State) : State :=
  s.mxGuarded (lx os false) fun s =>
    orElse [s.roleTrap (s.curRole ≠ systemRole) Code.mxPriv 0] (body s)

/-- The lanes of a system form, an outward effect as every form of the major is (R352). -/
def State.systemLanes (s : State) (f : State → Lane → Thread → State) : State :=
  s.outwardActive.lanewise .now (fun _ => []) f

/-- `mx.freeze #u` (R248). -/
def execMxFreeze (unit : BitVec 2) (s : State) : Host.Outcome State Fault Refusal :=
  .next (s.systemForm [] fun s =>
    s.systemLanes fun t ln th =>
      match t.curCrew? with
      | none => t
      | some cr =>
        let t := t.modUnit cr.die (cr.homeCluster th) unit.toNat (fun u => { u with frozen := true })
        if (t.unit cr.die (cr.homeCluster th) unit.toNat).queue = [] then t.finishLane ln.tid .now [] []
        else t.park t.cur.crew ln.tid .matrix)

/-- `mx.thaw #u` (R248). -/
def execMxThaw (unit : BitVec 2) (s : State) : Host.Outcome State Fault Refusal :=
  .next (s.systemForm [] fun s =>
    s.systemLanes fun t ln th =>
      match t.curCrew? with
      | none => t
      | some cr =>
        (t.modUnit cr.die (cr.homeCluster th) unit.toNat (fun u => { u with frozen := false })).finishLane ln.tid .now [] [])

/-- What a system lane acts on: the crew, its home cluster, the unit and the save-area offset. -/
structure SysLane where
  cr : Crew
  cluster : Nat
  mu : MatrixUnit
  off : Nat
deriving DecidableEq, Repr

/-- A window with an image written, some of whose bytes hold an uncorrectable error. -/
def DieWindow.writeImage (w : DieWindow) (off : Nat) (bs : List Byte) (bad : List Nat) : DieWindow :=
  let w := w.write off bs
  { w with poison := bad.foldl (fun l a => insertId (off + a) l) w.poison }

/-- The crew's save-area window written. -/
def State.writeSave (s : State) (off : Nat) (bs : List Byte) (bad : List Nat) : State :=
  s.modCrew s.cur.crew (fun x => { x with saveArea := x.saveArea.writeImage off bs bad })

/-- The drain and fill forms: the frozen unit (MX_STATE reason 1), the offset and the image's length, then the checks
and the effect of each lane. -/
def State.saveForm (s : State) (va : BitVec 7) (slot unit : Nat) (len : SysLane → Nat) (bad : SysLane → Option Nat)
    (go : State → SysLane → State) : State :=
  s.systemForm [lxSrc32 va] fun s =>
    let view := fun (t : State) (th : Thread) => t.curCrew?.map (fun cr =>
      { cr := cr, cluster := cr.homeCluster th, mu := t.unit cr.die (cr.homeCluster th) unit,
        off := (th.read32 va).toNat : SysLane })
    let holds := fun (th : Thread) (p : SysLane → Bool) => match view s th with | some x => p x | none => false
    orElse
      [s.laneTrap Code.mxState (fun _ th => holds th (fun x => !x.mu.frozen)) (fun _ _ => ((1 + slot * 2 ^ 8 : Nat) : Int)),
       s.laneTrap Code.align (fun _ th => (th.read32 va).toNat % 64 ≠ 0) (fun _ th => (th.read32 va).toNat),
       s.laneTrap Code.boundsDie (fun _ th => holds th (fun x =>
         decide (x.cr.saveArea.size < x.off + 64) || decide (x.cr.saveArea.size < x.off + len x))) (fun _ th => (th.read32 va).toNat),
       s.codeTrap (fun _ th => (view s th).bind (fun x => (bad x).map (fun r => (Code.mxState, r + slot * 2 ^ 8))))]
      (s.systemLanes fun t ln th =>
        match view t th with
        | none => t
        | some x => (go t x).finishLane ln.tid .now [] [])

/-- The header that stands at a lane's save-area offset, and the image behind it. -/
def SysLane.header (x : SysLane) : Nat := Mem.readNat x.cr.saveArea.bytes x.off 64
def SysLane.image (x : SysLane) (len : Nat) : List Byte := Mem.readBytes x.cr.saveArea.bytes x.off len

/-- The bytes of a run of a window that hold an error, counted from its start. -/
def DieWindow.poisonIn (w : DieWindow) (off len : Nat) : List Nat :=
  (w.poison.filter (fun p => decide (off ≤ p) && decide (p < off + len))).map (· - off)
def SysLane.poison (x : SysLane) (len : Nat) : List Nat := x.cr.saveArea.poisonIn x.off len

/-- The image of the lease in a slot, with its owner's sr.crew and operation count. -/
def State.leaseImage (s : State) (mu : MatrixUnit) (slot : Nat) : List Byte :=
  match Table.get? mu.leases slot with
  | none => leBytes 0 64
  | some l =>
    let owner := s.crew? l.crew
    l.image (match owner with | some cr => cr.index | none => 0)
      (match owner with | some cr => cr.mxAccepted l.role | none => 0)

/-- The image of the reservation in a slot. -/
def State.resImage (s : State) (mu : MatrixUnit) (slot : Nat) : List Byte :=
  match Table.get? mu.reservations slot with
  | none => leBytes 0 64
  | some r => r.image (match s.crew? r.crew with | some cr => cr.index | none => 0)

/-- The bytes of those images that hold an error. -/
def MatrixUnit.leasePoison (mu : MatrixUnit) (slot : Nat) : List Nat :=
  match Table.get? mu.leases slot with
  | none => []
  | some l => leaseImagePoison (l.header 0 0) l.accPoison
def MatrixUnit.resPoison (mu : MatrixUnit) (slot : Nat) : List Nat :=
  match Table.get? mu.reservations slot with
  | none => []
  | some r => r.poison.map (· + 64)

/-- `acc.drain #u, #s, [va]` (R249). -/
def execAccDrain (va : BitVec 7) (slot : BitVec 3) (unit : BitVec 2) (s : State) : Host.Outcome State Fault Refusal :=
  .next (s.saveForm va slot.toNat unit.toNat (fun x => (s.leaseImage x.mu slot.toNat).length) (fun _ => none) fun t x =>
    (t.writeSave x.off (t.leaseImage x.mu slot.toNat) (x.mu.leasePoison slot.toNat)).modUnit x.cr.die x.cluster unit.toNat
      (fun u => u.dropLease slot.toNat))

/-- Why a lease image cannot be installed (R250); of several reasons the lowest is reported (notes/assumptions/111.md). -/
def SysLane.leaseRefused (x : SysLane) (slot : Nat) : Option Nat :=
  let h := x.header
  if bitsOf h 0 0 = 0 then none
  else
    let need := bitsOf h 11 8 * (if bitsOf h 1 1 = 1 then 2 else 1)
    if (Table.get? x.mu.leases slot).isSome || decide ((x.mu.tileSlots (bitsOf h 1 1 = 1)).length < need) then some 2 else leaseHeaderBad h

/-- A lease image installed in a slot (R250): issue rights are not restored. -/
def State.fillLease (s : State) (c die cluster half unit slot : Nat) (bs : List Byte) (bad : List Nat) : State :=
  let h := leNat (bs.take 64)
  if bitsOf h 0 0 = 0 then s
  else
    let need := bitsOf h 11 8 * (if bitsOf h 1 1 = 1 then 2 else 1)
    let s := s.modUnit die cluster unit (fun u =>
      { u with leases := Table.put u.leases slot (leaseOfImage c half ((u.tileSlots (bitsOf h 1 1 = 1)).take need) bs bad) }.passRights)
    let tl : Timeline := { accepted := bitsOf h 159 96, counter := bitsOf h 159 96, done := [] }
    s.modCrew c (fun cr => { cr with mxTl := Table.put cr.mxTl (bitsOf h 18 16) tl })

/-- `acc.fill #u, #s, [va]` (R250). -/
def execAccFill (va : BitVec 7) (slot : BitVec 3) (unit : BitVec 2) (s : State) : Host.Outcome State Fault Refusal :=
  .next (s.saveForm va slot.toNat unit.toNat (fun x => leaseImageLen x.header) (fun x => x.leaseRefused slot.toNat) fun t x =>
    t.fillLease t.cur.crew x.cr.die x.cluster (x.cluster - x.cr.cluster) unit.toNat slot.toNat
      (x.image (leaseImageLen x.header)) (x.poison (leaseImageLen x.header)))

/-- `ob.drain #u, #s, [va]` (R251). -/
def execObDrain (va : BitVec 7) (slot : BitVec 5) (unit : BitVec 2) (s : State) : Host.Outcome State Fault Refusal :=
  .next (s.saveForm va slot.toNat unit.toNat (fun x => (s.resImage x.mu slot.toNat).length) (fun _ => none) fun t x =>
    (t.writeSave x.off (t.resImage x.mu slot.toNat) (x.mu.resPoison slot.toNat)).modUnit x.cr.die x.cluster unit.toNat (fun u =>
      { u with reservations := Table.drop u.reservations slot.toNat }))

/-- Why a reservation image cannot be installed (R251); of two reasons the lower is reported (notes/assumptions/112.md). -/
def State.resRefused (s : State) (x : SysLane) (slot : Nat) : Option Nat :=
  let h := x.header
  if bitsOf h 0 0 = 0 then none
  else if (Table.get? x.mu.reservations slot).isSome || decide (1024 < x.mu.granules + bitsOf h 282 272) ||
      (s.reservation s.cur.crew x.cr (bitsOf h 11 8)).isSome then some 2
  else if resHeaderBad x.cr.pair h then some 3
  else none

/-- A reservation image installed in a slot. -/
def State.fillRes (s : State) (c die cluster unit slot : Nat) (bs : List Byte) (bad : List Nat) : State :=
  if bitsOf (leNat (bs.take 64)) 0 0 = 0 then s
  else s.modUnit die cluster unit (fun u =>
    { u with reservations := Table.put u.reservations slot (resOfImage c unit bs bad) })

/-- `ob.fill #u, #s, [va]` (R251). -/
def execObFill (va : BitVec 7) (slot : BitVec 5) (unit : BitVec 2) (s : State) : Host.Outcome State Fault Refusal :=
  .next (s.saveForm va slot.toNat unit.toNat (fun x => resImageLen x.header) (fun x => s.resRefused x slot.toNat) fun t x =>
    t.fillRes t.cur.crew x.cr.die x.cluster unit.toNat slot.toNat (x.image (resImageLen x.header))
      (x.poison (resImageLen x.header)))

/-! ## The unit's own events (R235, R243) -/

/-- Depth of the accept queue (Table 13.1). -/
def acceptDepth : Nat := 4

/-- The lease that an accepted operation leaves (R243, R244). -/
def Lease.accepted (l : Lease) (m : Claim) : Lease :=
  { l with
    qleft := l.qleft - 1
    claim := none
    kept := if m.keep then some (l.kept.getD m.rows) else none }

/-- A unit accepts the operation of the lease that holds the issue rights (R235, R243): a turned generation, a unit that
is not frozen, room in the queue. -/
def execMmaAccept (die cluster unit : Nat) (s : State) : Host.Outcome State Fault Refusal :=
  let u := (s.unit die cluster unit).passRights
  .next (match u.holder with
    | none => s
    | some slot =>
      match Table.get? u.leases slot with
      | none => s
      | some l =>
        match l.claim with
        | none => s
        | some m =>
          if !m.turned || u.frozen || decide (acceptDepth ≤ u.queue.length) then s
          else
            let u := if l.qleft = 0 then u.grant slot else u
            let l := (Table.get? u.leases slot).getD l
            let tl := match s.crew? l.crew with
              | some cr => (Table.get? cr.mxTl l.role).getD Timeline.zero
              | none => Timeline.zero
            let o : MxOp :=
              { slot := slot, crew := l.crew, role := l.role, tile := m.acc, ob := m.ob, zero := m.zero,
                rows := l.kept.getD m.rows, op := tl.accepted + 1 }
            let u := { u with leases := Table.put u.leases slot (l.accepted m), queue := u.queue ++ [o] }
            (s.modUnit die cluster unit (fun _ => u.passRights)).modCrew l.crew (fun cr =>
              { cr with mxTl := Table.put cr.mxTl l.role tl.accept }))

/-- Every thread of a role takes UE_MX at its next matrix instruction (R347). -/
def State.poisonRole (s : State) (c role unit : Nat) : State :=
  s.modThreads c (fun _ th => if th.role = role then { th with mxPoison := some unit } else th)

/-- The oldest operation of a unit completes (R230, R243): it writes its tile as one operation, reading the reservation's
bytes; one whose accumulator or reservation holds an error writes no tile (R347), and counts as complete
(notes/assumptions/22.md). -/
def execMmaComplete (die cluster unit : Nat) (s : State) : Host.Outcome State Fault Refusal :=
  let u := s.unit die cluster unit
  .next (match u.queue with
    | [] => s
    | o :: rest =>
      let lease := Table.get? u.leases o.slot
      let res := u.reservations.find? (fun e => e.2.crew = o.crew && e.2.handle = o.ob)
      let s := match lease, res with
        | some l, some (_, r) =>
          if r.poison ≠ [] || (!o.zero && l.accPoison.any (fun e => e / 4096 = o.tile)) then
            (s.modUnit die cluster unit (fun u => { u with queue := rest })).poisonRole o.crew o.role unit
          else s.modUnit die cluster unit (fun u => { u.modLease o.slot (fun l => l.product o r) with queue := rest })
        | _, _ => s.modUnit die cluster unit (fun u => { u with queue := rest })
      let s := s.modCrew o.crew (fun cr =>
        { cr with mxTl := Table.adjust cr.mxTl o.role (fun t => t.finish o.op) })
      match s.crew? o.crew with
      | none => s.modUnit die cluster unit MatrixUnit.passRights
      | some cr =>
        if cr.killed then (s.modUnit die cluster unit (fun u => u.forgetCrew o.crew)).reap o.crew
        else s.modUnit die cluster unit MatrixUnit.passRights)

end Sys2Proof.Machine
end

