-- ==== Sys2Proof/Machine/Collective.lean ====
section
/-! DEFINITION. Collectives, gang launches and budget messages (major 0x3A and the Hinge fabric: R337 to R344). -/

namespace Sys2Proof.Machine

open Sys2Proof

/-! ## Group objects (R337, Table 22.1) -/

/-- The fields of a group object's header. -/
structure GroupView where
  gid : Word
  gen : Word
  rank : Nat
  size : Nat
  timeout : Nat
  aborted : Bool
  acode : Nat
  /-- The header breaks Table 22.1: a range, or a checked field. -/
  bad : Bool
deriving DecidableEq, Repr

/-- A header's 64 bytes. -/
def viewGroup (h : Nat) : GroupView :=
  { gid := BitVec.ofNat 32 (bitsOf h 31 0), gen := BitVec.ofNat 32 (bitsOf h 63 32), rank := bitsOf h 75 64,
    size := bitsOf h 92 80, timeout := bitsOf h 111 96, aborted := bitsOf h 128 128 = 1, acode := bitsOf h 159 144,
    bad := decide (bitsOf h 79 76 ≠ 0) || decide (bitsOf h 95 93 ≠ 0) || decide (bitsOf h 127 112 ≠ 0) ||
      decide (bitsOf h 511 176 ≠ 0) || decide (bitsOf h 92 80 < 2) || decide (4096 < bitsOf h 92 80) ||
      decide (bitsOf h 92 80 ≤ bitsOf h 75 64) }

/-- Bytes of the die store as a thread reads them. -/
def State.threadDie (s : State) (cr : Crew) (th : Thread) (off n : Nat) : Nat :=
  leNat (forwardedBytes th.fifo .die off (s.readDie cr off n))

/-- The group object that a thread names. -/
def State.groupObject (s : State) (cr : Crew) (th : Thread) (off : Nat) : GroupView := viewGroup (s.threadDie cr th off 64)

/-- Where the entry of a rank stands in the peer table. -/
def peerEntry (off rank : Nat) : Nat := off + 64 + 4 * rank

/-- The line of a die offset can be read now. -/
def State.lineReady (s : State) (cr : Crew) (off : Nat) : Bool :=
  let l := s.dieLine cr off
  l.present && !l.faulted

/-- The checks of the group offset: ALIGN, then BOUNDS_DIE, which an offset outside the launch window is too. -/
def State.groupTrap (s : State) (va : BitVec 7) : Option State :=
  match s.curCrew? with
  | none => none
  | some cr =>
    match s.laneTrap Code.align (fun l th => decide (latchAddr va l th % 64 ≠ 0)) (latchAddr va) with
    | some t => some t
    | none => s.laneTrap Code.boundsDie
        (fun l th => decide (latchAddr va l th < launchBase) || !s.inBounds cr .die (latchAddr va l th) 64) (latchAddr va)

/-! ## Operand blocks (R338) -/

/-- The operand block of a transfer operation. -/
structure ColBlock where
  buffer : Nat
  peer : Nat
  op : Nat
  len : Nat
  latch : Nat
  /-- The bits of vb + 3 that are checked zero. -/
  high : Nat
deriving DecidableEq, Repr

/-- The block that a thread's registers hold. -/
def Thread.colBlock (th : Thread) (vb : BitVec 7) : ColBlock :=
  let w := (th.readReg (th.blockReg vb 2)).toNat
  let l := (th.readReg (th.blockReg vb 3)).toNat
  { buffer := th.blockPair vb 0, peer := bitsOf w 11 0, op := bitsOf w 15 12, len := bitsOf w 31 16,
    latch := 16 * bitsOf l 16 0, high := bitsOf l 31 17 }

/-- The buffer's and the latch's own checks: the form of the address, the windows of both, the buffer's alignment. Each is
made over all active lanes before the next, so that a lane out of bounds comes before one that is misaligned (R27). -/
def colFormBad (b : ColBlock) : Option (Code × Nat) :=
  match addrForm b.buffer with
  | .sh _ | .die _ => none
  | _ => some (Code.addrForm, b.buffer)
def State.colBoundsBad (s : State) (cr : Crew) (b : ColBlock) : Option (Code × Nat) :=
  match s.localBounds cr b.buffer 64 with
  | some e => some e
  | none => if s.inBounds cr .sh b.latch 16 then none else some (Code.boundsSh, b.latch)
def colAlignBad (b : ColBlock) : Option (Code × Nat) :=
  if b.buffer % 64 ≠ 0 then some (Code.align, addrInfo b.buffer) else none

/-- The buffer passes the end of its window. -/
def State.bufferBeyond (s : State) (cr : Crew) (b : ColBlock) : Bool := (s.localBounds cr b.buffer (64 * b.len)).isSome

/-- The lowest failing condition of COL_BAD (R339). -/
def State.colBad (s : State) (cr : Crew) (th : Thread) (kind : ColKind) (off : Nat) (b : ColBlock) : Option Nat :=
  let g := s.groupObject cr th off
  if g.bad then some 1
  else if g.size ≤ b.peer ∨ b.peer = g.rank then some 2
  else if kind = .red ∧ 5 < b.op then some 3
  else if s.bufferBeyond cr b then some 4
  else if (kind ≠ .red ∧ b.op ≠ 0) ∨ b.high ≠ 0 then some 5
  else if !s.inBounds cr .die (peerEntry off b.peer) 4 || bitsOf (s.threadDie cr th (peerEntry off b.peer) 4) 31 16 ≠ 0 then
    some 6
  else none

/-- The lines that a lane's checks read: the header's and, where the header names it, the peer entry's. -/
def State.groupLines (s : State) (cr : Crew) (off peer : Nat) : List Nat :=
  if s.lineReady cr off && s.inBounds cr .die (peerEntry off peer) 4 then [off, peerEntry off peer] else [off]

/-- A lane whose object cannot be read now: it parks, or takes COPY_FAULT, before it is checked. -/
def State.groupAway (s : State) (cr : Crew) (off peer : Nat) : Bool :=
  (s.groupLines cr off peer).any (fun a => !s.lineReady cr a)

/-! ## Transfers (R339) -/

/-- A unit of a buffer as it stands. -/
def State.bufferUnit (s : State) (c launch die buffer unit : Nat) : List Byte :=
  match addrForm (buffer + 64 * unit) with
  | .sh o => (match s.crew? c with
    | some cr => Mem.readBytes cr.shared o 64
    | none => List.replicate 64 unlistedByte)
  | .die o =>
    if o < launchBase then
      (match s.crew? c with
        | some cr => s.readDie cr o 64
        | none => List.replicate 64 unlistedByte)
    else (match Table.get? s.launches launch with
      | some l => Mem.readBytes (l.win die).bytes (inWindow o) 64
      | none => List.replicate 64 unlistedByte)
  | _ => []

/-- A unit of a buffer written; a crew that has left takes nothing. -/
def State.putUnit (s : State) (o : ColOp) (unit : Nat) (bs : List Byte) : State :=
  match addrForm (o.buffer + 64 * unit) with
  | .sh a => s.modCrew o.crew (fun cr => cr.writeShared a bs)
  | .die a =>
    if a < launchBase then s.modCrew o.crew (fun cr => { cr with window := cr.window.write a bs })
    else s.modLaunch o.launch (fun l => l.modWin o.die (fun w => w.write (inWindow a) bs))
  | _ => s

/-- What stops an engine's read of a unit: a line that a copy failed to write, or an error in its bytes. -/
def State.unitBad (s : State) (cr : Crew) (buffer unit : Nat) : Option Code :=
  match (addrForm (buffer + 64 * unit)).local? with
  | none => none
  | some (sp, o) =>
    if sp = .die && (s.dieLine cr o).faulted then some Code.copyFault
    else if s.enginePoison cr sp o 64 then some (poisonCode sp) else none

/-- The first line of a buffer that is absent. -/
def State.absentUnit (s : State) (cr : Crew) (b : ColBlock) : Option Nat :=
  ((List.range b.len).filterMap (fun u => match addrForm (b.buffer + 64 * u) with
    | .die o => if !(s.dieLine cr o).present && !(s.dieLine cr o).faulted then some o else none
    | _ => none)).head?

/-- The operations before one of its kind between two ranks in a generation of a context. -/
def State.ordinalOf (s : State) (ctx : Nat) (g : GroupView) (kind : ColKind) (peer : Nat) : Nat :=
  (s.colops.filter (fun e => e.2.ctx = ctx && e.2.gid = g.gid && e.2.gen = g.gen && e.2.rank = g.rank && e.2.kind = kind &&
    e.2.peer = peer)).length

/-- What a transfer message carries besides its place: 0 the data of a send, 1 the length of a receive that has been
posted, 2 the data of a reduction (notes/assumptions/40.md). -/
def ColKind.message : ColKind → Nat
  | .send => 0
  | .recv => 1
  | .red => 2

/-- The messages of an operation's issue. -/
def State.sendUnits (s : State) (o : ColOp) : State :=
  match o.kind with
  | .recv => s.send (.colTransfer o.module o.gid o.gen o.rank o.peer 1 o.ordinal 0 o.len 0 [])
  | k => (List.range o.len).foldl (fun (t : State) u =>
      t.send (.colTransfer o.module o.gid o.gen o.rank o.peer k.message o.ordinal u o.len o.op
        (t.bufferUnit o.crew o.launch o.die o.buffer u))) s

/-- The crew of an operation is saved: what comes for it waits. -/
def State.colAway (s : State) (o : ColOp) : Bool :=
  (s.crew? o.crew).isNone && (s.savedCrews o.launch).any (fun v => v.id = o.crew)

/-- The counter of a collective group, an engine context of its launch (R11), by its group object. -/
def groupKey (die off : Nat) : Nat := 2 ^ 32 * die + off
def State.groupTl (s : State) (launch die off : Nat) : Timeline :=
  match Table.get? s.launches launch with
  | some l => (Table.get? l.groupTls (groupKey die off)).getD Timeline.zero
  | none => Timeline.zero
def State.putGroupTl (s : State) (launch die off : Nat) (t : Timeline) : State :=
  s.modLaunch launch (fun l => { l with groupTls := Table.put l.groupTls (groupKey die off) t })

/-- An operation has ended: its group's counter counts it. -/
def State.closeColOp (s : State) (id : Nat) (o : ColOp) : State :=
  { s with colops := Table.put s.colops id { o with closed := true } }.putGroupTl o.launch o.die o.group
    ((s.groupTl o.launch o.die o.group).finish o.num)

/-- An operation ends with a code in its latch's ERR, or in that of a saved crew once it is restored (R340). -/
def State.failColOp (s : State) (id : Nat) (o : ColOp) (code : Code) : State :=
  ((s.closeColOp id { o with late := if s.colAway o then some code else none }).failLatch o.crew o.latch code).reap o.crew

/-- A lane's operation joins the group's generation: its peer's rank is on a module of the pod, the latch is armed, and the
engine sends what it has to. -/
def State.joinGroup (s : State) (cr : Crew) (kind : ColKind) (off : Nat) (g : GroupView) (b : ColBlock) (module : Nat) :
    State :=
  let id := s.nextId
  let o : ColOp :=
    { crew := s.cur.crew, ctx := cr.ctx, launch := cr.launch, die := cr.die, group := off, gid := g.gid, gen := g.gen,
      rank := g.rank, peer := b.peer, kind := kind, op := b.op, buffer := b.buffer, len := b.len, latch := b.latch,
      ordinal := s.ordinalOf cr.ctx g kind b.peer, num := (s.groupTl cr.launch cr.die off).accepted + 1, module := module,
      issued := s.now, timeout := if g.timeout = 0 then 2000 else g.timeout, units := [], late := none, closed := false }
  let s := { s with nextId := id + 1, colops := Table.put s.colops id o }
  let s := s.putGroupTl cr.launch cr.die off (s.groupTl cr.launch cr.die off).accept
  let s := s.armLatch s.cur.crew b.latch (64 * b.len)
  if b.len = 0 then s.closeColOp id o
  else match if kind = .recv then none else (List.range b.len).findSome? (s.unitBad cr b.buffer) with
  | some code => s.failColOp id o code
  | none => s.sendUnits o

/-- A lane of a transfer operation: its earlier accesses perform first, and the lines that its engine reads are there. -/
def State.colLane (s : State) (kind : ColKind) (off : Nat) (b : ColBlock) (tid : Nat) : State :=
  s.drained tid none .fence fun s =>
    s.withLine tid .die off fun s =>
      match s.curCrew?, s.thread? s.cur.crew tid with
      | some cr, some th =>
        let go := fun (s : State) =>
          match if kind = .recv then none else s.absentUnit cr b with
          | some a => s.park s.cur.crew tid (.line a)
          | none =>
            (s.finishLane tid .now [] []).closeRegion s.cur.crew tid |>.joinGroup cr kind off (s.groupObject cr th off) b
              (bitsOf (s.threadDie cr th (peerEntry off b.peer) 4) 15 0)
        if s.inBounds cr .die (peerEntry off b.peer) 4 then s.withLine tid .die (peerEntry off b.peer) go else go s
      | _, _ => s

/-- The error that the lowest lane would read in its peer's entry, once nothing of its header stands against it. -/
def State.peerPoison (s : State) (va vb : BitVec 7) : Option (Nat × Nat) :=
  match s.curCrew? with
  | none => none
  | some cr => s.firstPoison (fun _ th =>
      let off := (th.read32 va).toNat
      let b := th.colBlock vb
      if s.groupAway cr off b.peer || !s.inBounds cr .die (peerEntry off b.peer) 4 || (s.groupObject cr th off).bad ||
          decide ((s.groupObject cr th off).size ≤ b.peer) then none
      else s.spacePoison cr th .die (peerEntry off b.peer) 4 false)

/-- `col.send`, `col.recv` and `col.red` (R338, R339): the checks over the active lanes in their order, then lane by
lane. -/
def State.colForm (s : State) (kind : ColKind) (va vb : BitVec 7) : State :=
  let l : Legality :=
    { opnds := [lxSrc32 va], illegal := blockIllegal s.curBudget vb 4 true, cls := PfxClass.predOnly, blocks := [(vb, 4)] }
  s.guarded l fun s =>
    match s.curCrew? with
    | none => s
    | some cr =>
      let off := fun (th : Thread) => (th.read32 va).toNat
      let away := fun (th : Thread) => s.groupAway cr (off th) (th.colBlock vb).peer
      let after := fun (_ : Unit) =>
        match (s.lanePoison .die 64 false (latchAddr va)).orElse (fun _ => s.peerPoison va vb) with
        | some a => s.consume Code.ueDie a
        | none =>
          orElse
            [s.codeTrap (fun _ th => colFormBad (th.colBlock vb)),
             s.codeTrap (fun _ th => s.colBoundsBad cr (th.colBlock vb)),
             s.codeTrap (fun _ th => colAlignBad (th.colBlock vb)),
             s.codeTrap (fun _ th => if away th then none
               else (s.colBad cr th kind (off th) (th.colBlock vb)).map (fun n => (Code.colBad, n))),
             s.codeTrap (fun _ th => if !away th && (s.groupObject cr th (off th)).aborted then
               some (Code.colAborted, (s.groupObject cr th (off th)).gen.toNat) else none)]
            (s.outwardActive.lanewise .now (fun _ => []) fun t ln th =>
              t.colLane kind (off th) (th.colBlock vb) ln.tid)
      match s.groupTrap va with
      | some t => t
      | none => after ()

/-- `col.send [va], vb`. -/
def execColSend (va vb : BitVec 7) (s : State) : Host.Outcome State Fault Refusal := .next (s.colForm .send va vb)

/-- `col.recv [va], vb`. -/
def execColRecv (va vb : BitVec 7) (s : State) : Host.Outcome State Fault Refusal := .next (s.colForm .recv va vb)

/-- `col.red [va], vb`. -/
def execColRed (va vb : BitVec 7) (s : State) : Host.Outcome State Fault Refusal := .next (s.colForm .red va vb)

/-! ## Units (R339) -/

/-- The elements of a unit, of so many bytes each, combined. -/
def combine (w : Nat) (f : Nat → Nat → Nat) (xs ys : List Byte) : List Byte :=
  (List.range (xs.length / w)).flatMap (fun i =>
    leBytes (f (leNat ((xs.drop (i * w)).take w)) (leNat ((ys.drop (i * w)).take w))) w)

/-- comb of an OP on two units, the lower rank's first: floats rounded once under RNE. -/
def combUnit (op : Nat) (lo hi : List Byte) : List Byte :=
  match op with
  | 0 => combine 4 (f32Fmt.add .rne) lo hi
  | 1 => combine 2 (bf16Fmt.add .rne) lo hi
  | 2 => combine 4 (fun a b => (a + b) % 2 ^ 32) lo hi
  | 3 => combine 8 (f64Fmt.add .rne) lo hi
  | 4 => combine 4 f32Fmt.max lo hi
  | _ => combine 4 f32Fmt.min lo hi

/-- A unit has landed at an operation: the latch counts it, and the operation is complete with its last unit. -/
def State.countUnit (s : State) (id : Nat) (o : ColOp) (unit : Nat) : State :=
  let o' : ColOp := { o with units := o.units ++ [unit] }
  if o.len ≤ o.units.length + 1 then ((s.closeColOp id o').arriveBytes o.crew o.latch 64).reap o.crew
  else ({ s with colops := Table.put s.colops id o' }).arriveBytes o.crew o.latch 64

/-- A unit of the peer's data lands in a receive, or is combined in a reduction. -/
def State.landUnit (s : State) (id : Nat) (o : ColOp) (unit : Nat) (data : List Byte) : State :=
  match o.kind with
  | .red =>
    match (s.crew? o.crew).bind (fun cr => s.unitBad cr o.buffer unit) with
    | some code => s.failColOp id o code
    | none =>
      let own := s.bufferUnit o.crew o.launch o.die o.buffer unit
      let r := if o.rank < o.peer then combUnit o.op own data else combUnit o.op data own
      (s.putUnit o unit r).countUnit id o unit
  | _ =>
    ((s.putUnit o unit data).countUnit id o unit).send (.colConfirm o.module o.gid o.gen o.peer o.rank o.ordinal unit)

/-- The kind of operation that a transfer message meets. -/
def meetsKind (kind : Nat) : ColKind := if kind = 0 then .recv else if kind = 1 then .send else .red

/-- The window of an object, and the bytes of it that are read, hold an uncorrectable error. -/
def State.objectPoisoned (s : State) (launch die off n : Nat) : Bool :=
  match Table.get? s.launches launch with
  | some l => poisonHit (l.win die).poison 8 (inWindow off) n
  | none => false

/-- An unfinished operation of an operation's generation has passed its TIMEOUT: the generation aborts before anything of
it completes (R23, R340). -/
def State.generationOver (s : State) (o : ColOp) : Bool :=
  s.colops.any (fun e => !e.2.closed && e.2.launch = o.launch && e.2.die = o.die && e.2.group = o.group && e.2.gid = o.gid &&
    e.2.gen = o.gen && decide (e.2.issued + e.2.timeout * cyclesPerUs ≤ s.now))

/-- The header of an object of a launch. -/
def State.objectHeader (s : State) (launch die off : Nat) : Nat :=
  match Table.get? s.launches launch with
  | some l => Mem.readNat (l.win die).bytes (inWindow off) 64
  | none => 0

/-- An operation's group object still holds the operation's GID and GEN. -/
def State.objectCurrent (s : State) (o : ColOp) : Bool :=
  let g := viewGroup (s.objectHeader o.launch o.die o.group)
  g.gid = o.gid && g.gen = o.gen

/-- COL_TRANSFER_RECEIVE (R337, R339): a message to a context meets the operation of its GID and GEN, ranks and number, and
waits until that is issued; one that matches no group object of the context is dropped. Two sides that differ in LEN or
OP end with COL_BAD; a header that cannot be read for an error ends the operation (notes/assumptions/106.md). -/
def execColTransferReceive (ctx : Nat) (gen : BitVec 32 × BitVec 32) (src dst kind k unitIx len op : Nat) (data : List (BitVec 8))
    (s : State) : Host.Outcome State Fault Refusal :=
  .next (match s.colops.find? (fun e => e.2.ctx = ctx && (e.2.gid, e.2.gen) = gen && e.2.rank = dst &&
      e.2.peer = src && e.2.kind = meetsKind kind && e.2.ordinal = k && !e.2.closed) with
    | none => s
    | some (id, o) =>
      if s.colAway o || s.generationOver o then s
      else if s.objectPoisoned o.launch o.die o.group 64 then s.failColOp id o Code.ueDie
      else if !s.objectCurrent o then s
      else if len ≠ o.len ∨ (o.kind = .red ∧ op ≠ o.op) then s.failColOp id o Code.colBad
      else if o.kind = .send ∨ o.len ≤ unitIx ∨ o.units.contains unitIx ∨ data.length ≠ 64 then s
      else s.landUnit id o unitIx data)

/-- RECEIVER_CONFIRMATION (R339): the receiver has written one more unit of a send. -/
def execReceiverConfirmation (colop : Nat) (s : State) : Host.Outcome State Fault Refusal :=
  .next (match Table.get? s.colops colop with
    | none => s
    | some o => if o.closed || o.kind ≠ .send || s.colAway o || s.generationOver o then s else s.countUnit colop o o.units.length)

/-! ## Time-out and abort (R340, R341) -/

/-- A header with its generation aborted: ABORTED, ACODE and DEAD. -/
def abortedHeader (h : Nat) (code : Code) (dead : Nat) : Nat :=
  setBits (setBits (setBits h 128 128 1) 159 144 code.toNat) 175 160 dead

/-- A window with a generation of an object in it aborted. A header that holds an error is not taken as data: its bytes
stand, and stay marked (R357; notes/assumptions/106.md). -/
def DieWindow.abortGen (w : DieWindow) (a : LateAbort) : DieWindow :=
  let o := inWindow a.off
  let h := Mem.readNat w.bytes o 64
  let g := viewGroup h
  if poisonHit w.poison 8 o 64 || g.gid ≠ a.gid || g.gen ≠ a.gen || g.aborted then w
  else w.write (o + 16) (((leBytes (abortedHeader h a.code a.dead) 64).drop 16).take 6)

/-- A launch's window on a die is in the image of a saved crew, or of one whose image has been formed (R306). -/
def State.windowInImage (s : State) (launch die : Nat) : Bool :=
  (s.savedCrews launch).any (fun v => v.crew.die = die && v.sections.contains 13) ||
    s.crews.any (fun e => e.2.launch = launch && e.2.die = die && !e.2.killed && e.2.formed.any (·.whole))

/-- A generation of an object aborts on this member: every operation of it that is unfinished ends. While the window is in
an image, the abort waits for the window that the restore installs. -/
def State.abortObject (s : State) (launch : Nat) (a : LateAbort) : State :=
  let late := s.windowInImage launch a.die
  let s := s.modLaunch launch (fun l =>
    { l.modWin a.die (fun w => w.abortGen a) with
      lateAborts := if late && !l.lateAborts.contains a then l.lateAborts ++ [a] else l.lateAborts })
  (s.colops.filter (fun e => e.2.launch = launch && e.2.die = a.die && e.2.group = a.off && e.2.gid = a.gid &&
    e.2.gen = a.gen && !e.2.closed)).foldl (fun (t : State) e => t.failColOp e.1 e.2 a.code) s

/-- The module of a rank, as an object's peer table names it (R337). -/
def State.rankModule (s : State) (launch die off rank : Nat) : Nat :=
  match Table.get? s.launches launch with
  | some l => Mem.readNat (l.win die).bytes (inWindow (peerEntry off rank)) 2
  | none => 0

/-- An abort flit to every other rank whose entry, like the header, can be read (notes/assumptions/106.md). -/
def State.abortFlits (s : State) (launch die off : Nat) (g : GroupView) : State :=
  ((List.range g.size).filter (fun r => r ≠ g.rank && !s.objectPoisoned launch die (peerEntry off r) 4)).foldl
    (fun (t : State) r => t.send (.abortFlit (s.rankModule launch die off r) g.gid g.gen r)) s

/-- This member aborts a generation and tells the others. -/
def State.abortGroup (s : State) (launch : Nat) (a : LateAbort) : State :=
  if s.objectPoisoned launch a.die a.off 64 then s.abortObject launch a
  else
    let g := viewGroup (s.objectHeader launch a.die a.off)
    if g.aborted then s else (s.abortObject launch a).abortFlits launch a.die a.off g

/-- `col.abort [va]` (R340). An aborted object traps COL_ABORTED (notes/assumptions/40.md). -/
def execColAbort (va : BitVec 7) (s : State) : Host.Outcome State Fault Refusal :=
  .next (s.guarded (lx [lxSrc32 va] false) fun s =>
    match s.curCrew? with
    | none => s
    | some cr =>
      let off := fun (th : Thread) => (th.read32 va).toNat
      let ready := fun (th : Thread) => s.lineReady cr (off th)
      let after := fun (_ : Unit) =>
        match s.lanePoison .die 64 false (latchAddr va) with
        | some a => s.consume Code.ueDie a
        | none =>
          orElse
            [s.codeTrap (fun _ th =>
               if ready th && (s.groupObject cr th (off th)).bad then some (Code.colBad, 1) else none),
             s.codeTrap (fun _ th => if ready th && (s.groupObject cr th (off th)).aborted then
               some (Code.colAborted, (s.groupObject cr th (off th)).gen.toNat) else none)]
            (s.outwardActive.lanewise .now (fun _ => []) fun t ln th =>
              t.drained ln.tid none .fence fun t => t.withLine ln.tid .die (off th) fun t =>
                let g := viewGroup (t.objectHeader cr.launch cr.die (off th))
                (t.closeLane ln.tid).abortGroup cr.launch
                  { die := cr.die, off := off th, gid := g.gid, gen := g.gen, code := Code.colAbort, dead := 0xFFFF })
      match s.groupTrap va with
      | some t => t
      | none => after ())

/-- `col.stat vd, [va]` (R341): a strong read of the header. -/
def execColStat (vd va : BitVec 7) (s : State) : Host.Outcome State Fault Refusal :=
  .next (s.guarded (lx [lxDst64 vd, lxSrc32 va] false) fun s =>
    match s.groupTrap va with
    | some t => t
    | none =>
      match s.lanePoison .die 64 true (latchAddr va) with
      | some a => s.consume Code.ueDie a
      | none =>
        s.outwardActive.lanewise .now (fun _ => []) fun t ln th =>
          t.drained ln.tid (some .die) .fence fun t => t.withLine ln.tid .die (th.read32 va).toNat fun t =>
            match t.curCrew? with
            | none => t
            | some cr =>
              let g := t.groupObject cr { th with fifo := [] } (th.read32 va).toNat
              t.finishLane ln.tid .now (th.loadResults vd true (BitVec.ofNat 64
                ((if g.aborted then 1 else 0) + g.acode * 2 ^ 16 + g.gen.toNat * 2 ^ 32))) [])

/-- COL_TIMEOUT_EXPIRY (R340). -/
def execColTimeoutExpiry (colop : Nat) (s : State) : Host.Outcome State Fault Refusal :=
  .next (match Table.get? s.colops colop with
    | none => s
    | some o =>
      if o.closed || decide (s.now < o.issued + o.timeout * cyclesPerUs) ||
          (!s.objectPoisoned o.launch o.die o.group 64 && !s.objectCurrent o) then s
      else s.abortGroup o.launch
        { die := o.die, off := o.group, gid := o.gid, gen := o.gen, code := Code.colTimeout, dead := o.peer })

/-- The group objects of a generation in a launch's window on a die: the 64-byte lines that hold a header with its GID and
GEN, whether or not an operation has named them (R337; notes/assumptions/40.md). -/
def DieWindow.objects (w : DieWindow) (gid gen : Word) : List Nat :=
  ((w.bytes.map (·.1 / 64)).eraseDups).filterMap (fun k =>
    let g := viewGroup (Mem.readNat w.bytes (64 * k) 64)
    if !g.bad && g.gid = gid && g.gen = gen && !poisonHit w.poison 8 (64 * k) 64 then some (launchBase + 64 * k) else none)

/-- Those of every launch, by launch, die and offset, and those that an unfinished operation has named. -/
def State.objectsOf (s : State) (gid gen : Word) : List (Nat × Nat × Nat) :=
  (s.launches.flatMap (fun l => [0, 1].flatMap (fun d => ((l.2.win d).objects gid gen).map (fun off => (l.1, d, off)))) ++
    (s.colops.filter (fun o => !o.2.closed && o.2.gid = gid && o.2.gen = gen && s.objectPoisoned o.2.launch o.2.die o.2.group 64)).map
      (fun o => (o.2.launch, o.2.die, o.2.group))).eraseDups

/-- ABORT_FLIT (R340): every object that matches aborts, and sends no flits again. -/
def execAbortFlit (gid gen : BitVec 32) (s : State) : Host.Outcome State Fault Refusal :=
  .next ((s.objectsOf gid gen).foldl (fun (t : State) o => t.abortObject o.1
    { die := o.2.1, off := o.2.2, gid := gid, gen := gen, code := Code.colAbort, dead := 0xFFFF }) s)

/-! ## Gang launches (R342) -/

/-- The gang of a crew's launch. -/
def State.crewGang (s : State) (cr : Crew) : Option (Nat × Gang) :=
  (Table.get? s.launches cr.launch).bind (fun l =>
    if l.record.kind = 2 then (Table.get? s.gangs l.record.gang).map (fun g => (l.record.gang, g)) else none)

/-- A lane of `col.gangbar` arrives, once in a generation, and parks. -/
def State.gangLane (s : State) (tid : Nat) : State :=
  match s.curCrew? with
  | none => s
  | some cr =>
    match s.crewGang cr with
    | none => s.closeLane tid
    | some (n, g) =>
      if g.failed then s.killCrew s.cur.crew Code.gangAbort n s.cur.pc.toNat
      else if g.passed.contains (s.cur.crew, tid) then
        ({ s with gangs := Table.put s.gangs n { g with passed := g.passed.filter (· ≠ (s.cur.crew, tid)) } }).closeLane tid
      else s.drained tid none .fence fun s =>
        let p := (s.cur.crew, tid)
        let g' : Gang := { g with localArrived := if g.localArrived.contains p then g.localArrived else g.localArrived ++ [p] }
        ({ s with gangs := Table.put s.gangs n g' }).park s.cur.crew tid .gangBar

/-- `col.gangbar` (R342). In a launch of another kind there is no gang to wait for, and it completes
(notes/assumptions/41.md). -/
def execColGangbar (s : State) : Host.Outcome State Fault Refusal :=
  .next (s.guarded (lx [] false) fun s =>
    (s.outwardActive.lanewise .now (fun _ => []) fun t ln _ => if t.stillHere ln.tid then t.gangLane ln.tid else t).checkGangs)

/-- A member of a gang other than this module. -/
def State.gangMember (s : State) (n member : Nat) (f : Gang → Gang) : State :=
  match Table.get? s.gangs n with
  | none => s
  | some g => if (s.gangOthers g).contains member then { s with gangs := Table.put s.gangs n (f g) } else s

/-- The acknowledgement window of a gang's own launch has passed without every acknowledgement (R342): 0 selects
2,000 µs. -/
def State.gangLate (s : State) (g : Gang) : Bool :=
  g.launch.isSome && decide (g.startedAt + (if g.window = 0 then 2000 else g.window) * cyclesPerUs ≤ s.now) &&
    !(s.gangOthers g).all (fun m => g.acks.contains m)

/-- GANG_ACK (R342). One that comes after the window is too late (R23). -/
def execGangAck (gang member : Nat) (s : State) : Host.Outcome State Fault Refusal :=
  .next (if (Table.get? s.gangs gang).any s.gangLate then s
    else (s.gangMember gang member (fun g => { g with acks := g.acks ++ [member] })).checkGang gang)

/-- GANGBAR_ARRIVAL (R342): every thread of another member has arrived. -/
def execGangbarArrival (gang member : Nat) (s : State) : Host.Outcome State Fault Refusal :=
  .next ((s.gangMember gang member (fun g => { g with arrived := g.arrived ++ [member] })).checkGang gang)

/-- A gang fails: the crews with a thread parked at its barrier are killed (R342). -/
def State.failGang (s : State) (n : Nat) (g : Gang) : State :=
  let s := { s with gangs := Table.put s.gangs n { g with failed := true } }
  match g.launch with
  | none => s
  | some lid => (s.gangParked lid).foldl (fun (t : State) p => match t.thread? p.1 p.2 with
      | some th => t.killCrew p.1 Code.gangAbort n th.pc.toNat
      | none => t) s

/-- GANG_WINDOW_EXPIRY (R342). -/
def execGangWindowExpiry (gang : Nat) (s : State) : Host.Outcome State Fault Refusal :=
  .next (match Table.get? s.gangs gang with
    | none => s
    | some g =>
      if g.failed || !s.gangLate g then s
      else (s.send (.gangFail gang)).failGang gang g)

/-- GANG_FAIL_FLIT (R342). -/
def execGangFailFlit (gang member : Nat) (s : State) : Host.Outcome State Fault Refusal :=
  .next (match Table.get? s.gangs gang with
    | none => s
    | some g => if g.failed || !(s.gangOthers g).contains member then s else s.failGang gang g)

/-! ## Budget messages (R343, Table 22.3) -/

/-- A requested cap, between the floor and the top (R358). -/
def capInRange (w : Nat) : Bool := decide (1200 ≤ w) && decide (w ≤ 2000)

/-- BUDGET_MESSAGE: the newest message of each other member of the group is kept; one with no hops left, with a checked
field set, or from a module outside the group, is dropped. -/
def execBudgetMessage (msg : BitVec 128) (s : State) : Host.Outcome State Fault Refusal :=
  let f := fun (hi lo : Nat) => bitsOf msg.toNat hi lo
  .next (match s.budget with
    | none => s
    | some b =>
      let m := f 31 16
      let newer := match Table.get? b.members m with
        | some e => decide (e.seq < f 63 32)
        | none => true
      if f 7 0 ≠ 1 || f 15 8 = 0 || f 127 96 ≠ 0 || !capInRange (f 95 80) || m = b.self || !b.group.contains m || !newer then s
      else
        let e : BudgetEntry := { seq := f 63 32, req := f 95 80, draw := f 79 64, cameAt := s.now }
        { s with budget := some { b with members := Table.put b.members m e } })

/-- REQ of each other member as it counts now: 2,000 without a message in the last millisecond. -/
def State.budgetReqs (s : State) (b : Budget) : List Nat :=
  (b.group.filter (· ≠ b.self)).map (fun m =>
    match Table.get? b.members m with
    | some e => if s.now < e.cameAt + 1000 * cyclesPerUs then e.req else 2000
    | none => 2000)

/-- The cap of a module that asks `own` in a group of n with a limit, beside what the others ask (R343). -/
def budgetCap (limit n own : Nat) (others : List Nat) : Nat :=
  let e := limit - 1200 * n
  let x := ((own :: others).map (· - 1200)).sum
  if x ≤ e then own else 1200 + e * (own - 1200) / x

/-- A budget message. -/
def budgetMessage (b : Budget) (ttl draw : Nat) : BitVec 128 :=
  BitVec.ofNat 128 (1 + ttl % 2 ^ 8 * 2 ^ 8 + b.self % 2 ^ 16 * 2 ^ 16 + b.seq % 2 ^ 32 * 2 ^ 32 + draw % 2 ^ 16 * 2 ^ 64 +
    b.req % 2 ^ 16 * 2 ^ 80)

/-- What the draw may fall by in 100 µs, at RAMP watts in a millisecond (R360). -/
def State.rampStep (s : State) : Nat := s.ramp / 10

/-- The draws of the last millisecond, the newest first, each with the cap in force (R358). -/
def State.drawWindow (s : State) : List (Nat × Nat) := (s.draw, s.capNow) :: s.draws

/-- No draw of the last millisecond was above its cap. -/
def State.calm (s : State) : Bool := s.drawWindow.all (fun e => decide (e.1 ≤ e.2))

/-- The cap in force follows CAP: a raised one at once, a lowered one along the ramp, once the last millisecond holds no
draw above its cap (R358; notes/assumptions/97.md). -/
def State.followCap (s : State) : State :=
  { s with capNow := Nat.max s.cap (if s.calm then s.capNow - s.rampStep else s.capNow) }

/-- What is left, of the caps of a millisecond whose first 9 - k draws are the newest of w, to its other k + 1 draws. -/
def drawRoom (w : List (Nat × Nat)) (cap k : Nat) : Nat :=
  ((w.take (9 - k)).map (·.2)).sum + (k + 1) * cap - ((w.take (9 - k)).map (·.1)).sum

/-- The draw up to which the mean of every millisecond that holds it stays at or below the caps in force, though the draw
falls from it by no more than r in each 100 µs (R358, R360); 2,300 W at most. -/
def highestDraw (w : List (Nat × Nat)) (cap r : Nat) : Nat :=
  (List.range 10).foldl (fun top k =>
    let b := drawRoom w cap k
    Nat.min top (Nat.min b ((b + r * (k * (k + 1) / 2)) / (k + 1)))) 2300

/-- The draw that the means of R358 allow in 100 µs after the millisecond w. -/
def State.drawTop (s : State) (w : List (Nat × Nat)) : Nat := highestDraw w s.capNow s.rampStep

/-- The draw that the controls of R359 let the load have: what the means allow, and while a lowered cap is met along the
ramp, the cap in force. -/
def State.drawLimit (s : State) (w : List (Nat × Nat)) : Nat :=
  if s.capNow = s.cap then s.drawTop w else Nat.min (s.drawTop w) s.capNow

/-- While ballast draws power, some unit has a rate for it (R360). -/
def State.someBallast (s : State) : State :=
  if s.ballastWatts = 0 then { s with clusters := Table.mapVals s.clusters (fun _ k => { k with ballast := [0, 0, 0, 0] }) }
  else if s.clusters.any (fun e => e.2.ballast.any (· ≠ 0)) then s
  else s.modCluster 0 0 (fun k => { k with ballast := k.ballast.set 0 1 })

/-- The cap in force, then the draw of the 100 µs that end now: the load's, up to the limit; where the load has fallen
faster than the ramp allows, ballast draws the rest, and it ends, with its rates, when that is nothing (R358, R360, R361; notes/assumptions/97.md). -/
def State.settleDraw (s : State) (load : Nat) : State :=
  let w := s.drawWindow
  let s := s.followCap
  let real := Nat.min load (s.drawLimit w)
  let d := Nat.max real (Nat.min (s.drawTop w) (s.draw - s.rampStep))
  { s with draw := d, draws := w.take 9, ballastWatts := d - real, lastTick := s.now }.someBallast

/-- BUDGET_TICK (R343, R358): every 100 µs the module sends its message, with its mean draw, and sets its cap; `load` is
what the work present would draw without the controls. What it asks for and how many hops it allows are not fixed
(notes/assumptions/42.md). -/
def execBudgetTick (load : Nat) (s : State) : Host.Outcome State Fault Refusal :=
  .next (if s.now < s.lastTick + 100 * cyclesPerUs then s else match s.budget with
    | none => { s with cap := s.capBoot }.settleDraw load
    | some b =>
      let ttl := s.free
      let want := ttl.2.free
      let s := want.2
      let b : Budget := { b with req := 1200 + want.1 % 801, seq := b.seq + 1 }
      let cap := budgetCap b.limit b.group.length b.req (s.budgetReqs b)
      let s := { s with budget := some b, cap := Nat.min s.capBoot cap }.settleDraw load
      s.send (.budget (budgetMessage b ttl.1 s.draw)))

/-! ## Virtual channels (R335) -/

/-- The virtual channel of a Hinge message; none for a message of the host port. `sent` holds the messages in the order in
which they leave, and so those of each channel; which port leads to a module is the pod's cabling
(notes/assumptions/98.md). -/
def Message.channel : Message → Option Nat
  | .peerRequest _ _ _ _ => some 0
  | .peerReply _ _ => some 1
  | .peerPoisoned _ => some 1
  | .colTransfer _ _ _ _ _ _ _ _ _ _ _ => some 2
  | .colConfirm _ _ _ _ _ _ _ => some 2
  | .gangAck _ => some 3
  | .gangFail _ => some 3
  | .gangArrive _ => some 3
  | .abortFlit _ _ _ _ => some 3
  | .budget _ => some 3
  | .podImage _ _ => some 3
  | .podError _ _ _ => some 3
  | .podAsk _ _ => some 3
  | _ => none

end Sys2Proof.Machine
end

