-- ==== Sys2Proof/Machine/Issue.lean ====
section
/-! DEFINITION. Forming the bundle that issues and fetching its instruction from a resident overlay group (R60, R104,
R109, R191, R289): everything that stands between a move of the agenda and the meaning of an instruction. -/

namespace Sys2Proof.Machine

open Sys2Proof

/-- The weld set that a thread is a member of (R108). -/
def Crew.weldOf (cr : Crew) (tid : Nat) : Option (List Nat) :=
  (cr.tumblers.find? (fun e => e.2.weld.contains tid)).map (fun e => e.2.weld)

/-- A thread may issue: it has not ended and is not parked (R104). -/
def Thread.ready (th : Thread) : Bool := !th.ended && th.wait.isNone

/-- A crew issues: it is resident and not stopped (R300). -/
def Crew.running (cr : Crew) : Bool := !cr.stopped && !cr.killed && cr.saving.isNone

/-- The lowest program counter of the unparked members of a weld set (R109). -/
def Crew.weldPc (cr : Crew) (ws : List Nat) : Option Word :=
  ws.foldl (fun (m : Option Word) t =>
    match Table.get? cr.threads t with
    | some th => if th.ready then (match m with
        | some p => if th.pc.toNat < p.toNat then some th.pc else some p
        | none => some th.pc) else m
    | none => m) none

/-- The lanes of a weld set: every member holds its lane, and those ready at the lowest counter issue (R109). -/
def Crew.weldLanes (cr : Crew) (ws : List Nat) : List Lane :=
  match cr.weldPc ws with
  | none => []
  | some p => ws.map (fun t =>
      { tid := t, issued := match Table.get? cr.threads t with
          | some th => th.ready && th.pc = p
          | none => false })

/-- Two threads may share a bundle (R104). -/
def sameBundle (a b : Thread) : Bool := a.pc = b.pc && a.role = b.role && a.slice = b.slice && a.home = b.home

/-- Ascending without repeats. -/
def ascending : List Nat → Bool
  | a :: b :: r => decide (a < b) && ascending (b :: r)
  | _ => true

/-- The lanes of a bundle of these threads, or none when they do not form one (R104, R109): a thread that is welded
brings its whole weld set. -/
def Crew.bundleLanes (cr : Crew) (tids : List Nat) : List Lane :=
  match tids with
  | [] => []
  | t :: _ =>
    match cr.weldOf t with
    | some ws => cr.weldLanes ws
    | none =>
      match Table.get? cr.threads t with
      | none => []
      | some th0 =>
        if ascending tids && decide (tids.length ≤ cr.width) && tids.all (fun u =>
            (cr.weldOf u).isNone && match Table.get? cr.threads u with
              | some th => th.ready && sameBundle th0 th
              | none => false)
        then tids.map (fun u => { tid := u, issued := true })
        else []

/-- What the fetch of a bundle's instruction gives: the words to carry out in order, or a state in which nothing is
left to carry out in this step. -/
inductive Fetched where
  | run (is : List (Word × Instr)) (s : State)
  | done (s : State)

/-- One word of the crew's object from a cluster's scratchpad. -/
inductive FetchWord where
  | word (w : Word)
  | miss (group : Nat)
  /-- At or beyond the group's length (R191). -/
  | outside
deriving DecidableEq, Repr

/-- The word at an offset (R191). A group that is marked failed for the crew's launch is needed in vain, wherever it is
still resident (R195); so is one whose LEN the offset passes: CODE_HASH comes before ILLEGAL_OP (notes/assumptions/108.md). -/
def State.fetchWord (s : State) (cr : Crew) (cluster off : Nat) : FetchWord :=
  if s.groupFailed cr.launch cr.obj (groupOf off) then .miss (groupOf off)
  else match (s.cluster cr.die cluster).frame? cr.ctx cr.obj (groupOf off) with
  | some f => if f.len ≤ inGroup off then .outside else .word (f.word (inGroup off))
  | none =>
    match s.object? cr.ctx cr.obj with
    | some o => if o.groupLen (groupOf off) ≤ inGroup off then .outside else .miss (groupOf off)
    | none => .miss (groupOf off)

/-- The prefix word's fields, whatever its zero field holds (R66, R67). -/
noncomputable def prefixOf (w : Word) : Instr :=
  .pfx (pxPred w) (bit1 (pxMz w)) (pxRnd w) (pxVc w) (bit1 (pxNeg w))

/-- What one word carries out: its instruction, or, for a word that no chapter assigns, the row for such words
(R75). -/
noncomputable def wordInstr (w : Word) : Instr :=
  match decodeWord w with
  | .ok i => i
  | .error .prefixZero => prefixOf w
  | .error _ => .unassignedEncoding w

/-- A word is a prefix word (R66). -/
def isPrefix (w : Word) : Bool := majorOf w = 0x3F#7

/-- A resident group that a bundle issues from is no longer only prefetched (R194). -/
def Cluster.used (k : Cluster) (ctx obj group : Nat) : Cluster :=
  { k with frames := k.frames.map (fun f =>
      if f.ctx = ctx && f.obj = obj && f.group = group then { f with prefetched := false } else f) }

/-- The bundle as it starts: its lanes at their program counter, without a prefix, under its issue's number (R41). -/
def State.begin (s : State) (c : Nat) (lanes : List Lane) (pc : Word) (alone : Bool) (seq : Nat) : State :=
  { s with cur := { crew := c, lanes := lanes, pc := pc, word := 0#32, pfx := none, alone := alone, seq := seq } }

/-- Every thread that issues misses a group (R191). -/
def State.missAll (s : State) (cluster group : Nat) : State :=
  s.cur.tids.foldl (fun (s : State) t => s.overlayMiss s.cur.crew t cluster group) s

/-- An offset at or beyond its group's length: ILLEGAL_OP with the offset as INFO (R191). -/
def State.outsideGroup (s : State) (off : Nat) : State := s.trap Code.illegalOp s.fullMask off

/-- The bundle's instruction is fetched: its word and, behind a prefix word, the base word at the next offset. -/
noncomputable def State.fetchBundle (s : State) (cr : Crew) (cluster : Nat) : Fetched :=
  let off := s.cur.pc.toNat
  match s.fetchWord cr cluster off with
  | .miss g => .done (s.missAll cluster g)
  | .outside => .done (s.outsideGroup off)
  | .word w =>
    let s := s.modCluster cr.die cluster (fun k => k.used cr.ctx cr.obj (groupOf off))
    if isPrefix w then
      match s.fetchWord cr cluster (off + 4) with
      | .miss g => .done (s.missAll cluster g)
      | .outside => .done (s.outsideGroup (off + 4))
      | .word b => .run [(w, wordInstr w), (b, wordInstr b)] s
    else .run [(w, wordInstr w)] s

/-- The lanes of a crew issue their next instruction. -/
noncomputable def State.fetchLanes (s : State) (c : Nat) (cr : Crew) (lanes : List Lane) (alone : Bool) (seq : Nat) :
    Fetched :=
  match lanes.find? (·.issued) with
  | none => .done s
  | some l => match Table.get? cr.threads l.tid with
    | none => .done s
    | some th => (s.begin c lanes th.pc alone seq).fetchBundle cr (cr.homeCluster th)

/-- A function takes part in time slicing, and whether some function does (R298). -/
def State.sliced (s : State) (f : Nat) : Bool := (s.fn f).quantum.getLsbD 0
def State.slicing (s : State) : Bool := s.fns.any (fun f => f.2.quantum.getLsbD 0)

/-- A context's function may run: nothing is sliced, or it takes part, it is its slice, and every crew that the function's
previous slice saved has been restored (R298). -/
def State.inSlice (s : State) (ctx : Nat) : Bool :=
  !s.slicing || (s.sliced (s.fnOf ctx) && s.slice = some (s.fnOf ctx) &&
    s.contexts.all (fun x => x.2.fn ≠ s.fnOf ctx || x.2.saved.all (fun v => !v.slice)))

/-- The launch window of a crew's die stands in the image of a saved crew: it is installed before any crew of the launch
issues there (R306). -/
def State.windowSaved (s : State) (cr : Crew) : Bool :=
  (s.savedCrews cr.launch).any (fun v => v.crew.die = cr.die && v.sections.contains 0x0D)

/-- A crew of a cooperative or gang launch issues only while every crew of it is resident (R283). -/
def State.wholeResident (s : State) (cr : Crew) : Bool :=
  match Table.get? s.launches cr.launch with
  | some l => l.record.kind = 0 || (l.started = l.record.ncrew &&
      match Table.get? s.contexts cr.ctx with
      | some x => x.saved.all (fun v => v.launch ≠ cr.launch)
      | none => true)
  | none => true

/-- The crew may issue now. -/
def State.mayRun (s : State) (cr : Crew) : Bool :=
  cr.running && s.inSlice cr.ctx && !s.windowSaved cr && s.wholeResident cr

/-- A bundle of these threads issues, if they form one. -/
noncomputable def State.fetchIssue (s : State) (c : Nat) (tids : List Nat) : Fetched :=
  match s.crew? c with
  | none => .done s
  | some cr =>
    if s.mayRun cr then
      { s with nextSeq := s.nextSeq + 1 }.fetchLanes c cr (cr.bundleLanes tids) false s.nextSeq
    else .done s

/-- Another operation waits in front of this thread's on the same queue, in the same direction (R289). -/
def State.othersFirst (s : State) (cr : Crew) (th : Thread) : Bool :=
  match th.wait with
  | some (.queue q) => s.queuedBefore cr q th.parkSeq (popsQueue th.parkWord)
  | _ => false

/-- The wait is one that is tried again: the others end by the event that their constructor names. -/
def Wait.triedAgain : Wait → Bool
  | .latch _ _ => false
  | .tumbler _ => false
  | .barrier => false
  | .far _ => false
  | .hostCall _ => false
  | .pull _ => false
  | .gangBar => false
  | .others _ => false
  | .overlay _ => false
  | _ => true

/-- A wait in which a whole bundle parks and is tried again (R157, R204, R240, R265). -/
def Wait.bundled : Wait → Bool
  | .uniformLine _ _ _ => true
  | .uniformReg _ _ => true
  | .iterator => true
  | .kick none => true
  | .obLine _ => true
  | _ => false

/-- The lanes of the bundle with which a thread parked: those of its issue that still wait, at their places in
their weld set. -/
def Crew.parkedLanes (cr : Crew) (tid : Nat) (th : Thread) : List Lane :=
  let still := cr.threads.filterMap (fun t =>
    if t.2.parkIssue = th.parkIssue && t.2.wait.any Wait.bundled && t.2.pc = th.pc then some t.1 else none)
  match cr.weldOf tid with
  | some ws => ws.map (fun t => { tid := t, issued := still.contains t })
  | none => still.map (fun t => { tid := t, issued := true })

/-- The translation request that a thread waits for is in flight: it does not try again before that has ended (R36). -/
def State.requestOpen (s : State) : Wait → Bool
  | .xlate r => (Table.get? s.xlates r).isSome
  | _ => false

/-- A parked thread issues its instruction again, under the number of its issue: alone, or with the bundle that parked
with it. -/
noncomputable def State.fetchRetry (s : State) (c tid : Nat) : Fetched :=
  match s.crew? c with
  | none => .done s
  | some cr => match Table.get? cr.threads tid with
    | none => .done s
    | some th =>
      if !s.mayRun cr || th.ended then .done s
      else match th.wait with
        | none => .done s
        | some w =>
          if s.requestOpen w then .done s
          else if w.bundled then s.fetchLanes c cr (cr.parkedLanes tid th) false th.parkIssue
          else if w.triedAgain && !s.othersFirst cr th then
            s.fetchLanes c cr [{ tid := tid, issued := true }] true th.parkIssue
          else .done s

/-- The first bundle that is ready, in crew and thread order: the choice when the agenda names none (R97). -/
def State.firstBundle (s : State) : Option (Nat × List Nat) :=
  s.crews.findSome? (fun e =>
    if s.mayRun e.2 then
      (e.2.threads.find? (fun t => t.2.ready)).map (fun t =>
        match e.2.weldOf t.1 with
        | some ws => (e.1, ws)
        | none => (e.1, ((e.2.threads.filter (fun u =>
            u.2.ready && sameBundle t.2 u.2 && (e.2.weldOf u.1).isNone)).map (·.1)).take e.2.width))
    else none)

/-- The move that is made next, and the rest of the agenda: the head of the agenda; without one, the first ready
bundle issues, or time passes to the next fleeting tick (R97, R107). -/
def State.nextMove (s : State) : Move × List Move :=
  match s.agenda with
  | m :: ms => (m, ms)
  | [] =>
    match s.firstBundle with
    | some b => (.issue b.1 b.2, [])
    | none => (.event .fleetingTick, [])

/-- The word that the next meaning sees as its own. -/
def State.withWord (s : State) (w : Word) : State := { s with cur := { s.cur with word := w } }

end Sys2Proof.Machine
end

