-- ==== Sys2Proof/Machine/Launch.lean ====
section
/-! DEFINITION. The launch record: its fields, and what makes the scheduler refuse it (R277, R278, Tables 17.1 and
17.2). -/

namespace Sys2Proof.Machine

open Sys2Proof

/-- A field of handle k of TLBIND (Table 17.2). -/
def tlField (r k : Nat) : Nat := bitsOf r (271 + 16 * k) (256 + 16 * k)

/-- The binding that a handle's field gives. -/
def tlBinding (f : Nat) : TlBind :=
  match bitsOf f 3 0 with
  | 1 => .copy
  | 2 => .matrix (bitsOf f 6 4)
  | 3 => .named (bitsOf f 15 4)
  | _ => .unbound

/-- The fields of a 256-byte record. -/
def parseLaunch (r : Nat) : LaunchRecord :=
  { code := bitsOf r 63 0, entry := bitsOf r 79 64, width := 16 * 2 ^ bitsOf r 81 80, prio := bitsOf r 83 82,
    kind := bitsOf r 85 84, pair := bitsOf r 86 86 = 1, twin := bitsOf r 87 87 = 1, rollback := bitsOf r 88 88 = 1,
    dies := bitsOf r 90 89, ncrew := bitsOf r 119 96, stack := 256 * bitsOf r 128 120,
    signal := if bitsOf r 144 144 = 1 then some (bitsOf r 143 132) else none, nthread := bitsOf r 156 145,
    handler := if bitsOf r 191 160 = 0xFFFFFFFF then none else some (bitsOf r 191 160),
    weights := (List.range 8).map (fun k => bitsOf r (195 + 4 * k) (192 + 4 * k)), early := bitsOf r 239 224,
    gang := bitsOf r 255 240, bind := (List.range 16).map (fun k => tlBinding (tlField r k)),
    deps := ((List.range 4).filter (fun m => bitsOf r (524 + 128 * m) (524 + 128 * m) = 1)).map (fun m =>
      (bitsOf r (523 + 128 * m) (512 + 128 * m), bitsOf r (639 + 128 * m) (576 + 128 * m))),
    args := (List.range 16).map (fun k => BitVec.ofNat 64 (bitsOf r (1087 + 64 * k) (1024 + 64 * k))) }

/-- The launch width that a declared width needs (Table 9.1). -/
def launchWidth (w : Nat) : Nat := if w = 8 then 16 else if w = 128 then 64 else w

/-- The roles that an entry declares; one for a kernel without .role (R101). -/
def Entry.nroles (e : Entry) : Nat := if e.roles = [] then 1 else e.roles.length

/-- The lowest offending bit of a handle's field. -/
def bindBad (nroles r k : Nat) : Option Nat :=
  let f := tlField r k
  let base := 256 + 16 * k
  match bitsOf f 3 0 with
  | 0 => (lowestBit f 15 4).map (· + base)
  | 1 => (lowestBit f 15 4).map (· + base)
  | 2 => match lowestBit f 15 7 with
    | some b => if nroles ≤ bitsOf f 6 4 then some (base + 4) else some (base + b)
    | none => bitWhen (decide (nroles ≤ bitsOf f 6 4)) (base + 4)
  | 3 => none
  | _ => some base

/-- The offending bits that need no object (R278). -/
def recordBits (r : Nat) : List (Option Nat) :=
  [bitWhen (bitsOf r 81 80 = 3) 80, bitWhen (bitsOf r 85 84 = 3) 84, bitWhen (bitsOf r 90 89 = 0) 89, lowestBit r 95 91,
    bitWhen (bitsOf r 119 96 = 0) 96, bitWhen (256 < bitsOf r 128 120) 120, lowestBit r 131 129, lowestBit r 159 157,
    bitWhen (bitsOf r 191 160 ≠ 0xFFFFFFFF && bitsOf r 191 160 % 4 ≠ 0) 160,
    bitWhen ((bitsOf r 255 240 ≠ 0) != decide (bitsOf r 85 84 = 2)) 240] ++
    (List.range 4).map (fun m => lowestBit r (575 + 128 * m) (525 + 128 * m))

/-- The offending bits under an object's entry (R278). -/
def entryBits (r : Nat) (o : CodeObject) (e : Entry) : List (Option Nat) :=
  let w := 16 * 2 ^ bitsOf r 81 80
  let n := bitsOf r 156 145
  let pair := bitsOf r 86 86 = 1
  [bitWhen (e.width ≠ 0 && launchWidth e.width ≠ w) 80,
    bitWhen (bitsOf r 191 160 ≠ 0xFFFFFFFF && decide (o.codeLen ≤ bitsOf r 191 160)) 160,
    bitWhen ((e.roles = []) == decide (n = 0) || decide ((if pair then 2048 else 1024) < n) ||
      (e.width ≠ 0 && n % e.width ≠ 0)) 145] ++
    (List.range 8).map (fun k =>
      if k < e.nroles then bitWhen (bitsOf r (195 + 4 * k) (192 + 4 * k) = 0) (192 + 4 * k)
      else lowestBit r (195 + 4 * k) (192 + 4 * k)) ++
    (List.range 16).map (bindBad e.nroles r)

/-- The least of the bits that are there. -/
def leastBit (bs : List (Option Nat)) : Option Nat :=
  (bs.filterMap id).foldl (fun m b => match m with | some x => some (Nat.min x b) | none => some b) none

/-- The lowest offending bit of a record for a context: LAUNCH_BAD (R278). -/
def State.launchBad (s : State) (ctx r : Nat) : Option Nat :=
  match s.object? ctx (bitsOf r 63 0) with
  | none => some 0
  | some o =>
    match o.entries[bitsOf r 79 64]? with
    | none => leastBit (some 64 :: recordBits r)
    | some e => leastBit (recordBits r ++ entryBits r o e)

/-- The entry of a record's kernel. -/
def State.launchEntry (s : State) (ctx : Nat) (r : LaunchRecord) : Option Entry :=
  (s.object? ctx r.code).bind (fun o => o.entries[r.entry]?)

/-! ## What a crew needs (R278, R282) -/

/-- The resources of a crew: registers, threads, shared bytes, die-store bytes with stacks, fleeting tiles. -/
structure Needs where
  regs : Nat
  threads : Nat
  shared : Nat
  die : Nat
  tiles : Nat
deriving DecidableEq, Repr

/-- The roles of a kernel, each with its budget and its thread count (R101): one role for a kernel without .role. -/
def Entry.roleList (e : Entry) (nthread : Nat) : List (Nat × Nat) :=
  if e.roles = [] then [(16 * e.regs, nthread)] else e.roles

/-- Bytes of the rollback reserve of a crew with so much shared memory, so many threads and roles (Table 23.3). -/
def reserveBytes (shared threads roles : Nat) : Nat :=
  16 + shared + ((shared + 63) / 64 + 127) / 128 * 16 + 288 * threads + 528 * roles + 16 * 784

/-- What one crew of a launch needs: its part of the die store holds its window, its stacks and its rollback reserve
(R351). -/
def crewNeeds (r : LaunchRecord) (e : Entry) : Needs :=
  let roles := e.roleList r.nthread
  let threads := (roles.map (·.2)).sum
  { regs := (roles.map (fun x => x.1 * x.2)).sum, threads := threads, shared := e.shared,
    die := e.dieCrew + threads * r.stack +
      (if r.rollback || e.rollback then reserveBytes e.shared threads roles.length else 0),
    tiles := e.fleet }

/-- What a crew, a cluster, and a C-die hold (Table 1.2, R100, R216; notes/assumptions/24.md). -/
def crewThreads : Nat := 1024
def clusterRegs : Nat := 262144
def clusterThreads : Nat := 2048
def clusterShared : Nat := 786432
def dieStoreBytes : Nat := 67108864
def dieTiles : Nat := 65536
def crewTiles : Nat := 8192
def dieClusters : Nat := 96

/-- The part of a shared allocation that lies on the lower cluster of a pair, or on a crew's one cluster, and the part on
the upper one: offsets from 768 KiB up (R29). -/
def sharedLow (size : Nat) : Nat := Nat.min size clusterShared
def sharedHigh (size : Nat) : Nat := size - clusterShared

/-- One crew fits an empty cluster, or pair. -/
def Needs.fitsEmpty (n : Needs) (pair : Bool) (dieLaunch : Nat) : Bool :=
  let k := if pair then 2 else 1
  decide (n.regs ≤ k * clusterRegs) && decide (n.threads ≤ k * crewThreads) && decide (n.shared ≤ k * clusterShared) &&
    decide (n.die + dieLaunch ≤ dieStoreBytes) && decide (n.tiles ≤ crewTiles)

/-- How often a need goes into a supply; without a need, as often as asked. -/
def timesIn (supply need bound : Nat) : Nat := if need = 0 then bound else supply / need

/-- How many crews of a kind one empty C-die with so many clusters, or pairs, in use holds at once. Registers and threads
of a pair are counted over both clusters (notes/assumptions/30.md); its shared memory lies as R29 places it. -/
def Needs.perDie (n : Needs) (pair : Bool) (dieLaunch bound clusters : Nat) : Nat :=
  let k := if pair then 2 else 1
  let perCluster := [timesIn (k * clusterRegs) n.regs bound, timesIn (k * clusterThreads) n.threads bound,
    timesIn clusterShared (sharedLow n.shared) bound, timesIn clusterShared (sharedHigh n.shared) bound].foldl
      Nat.min bound
  [perCluster * clusters, timesIn (dieStoreBytes - dieLaunch) n.die bound, timesIn dieTiles n.tiles bound].foldl
    Nat.min bound

/-- LAUNCH_FIT (R278), with the number of clusters, or pairs, that are not fenced on each permitted die (R356): one crew
fits one of them, and a cooperative or gang launch fits them all at once. -/
def launchFits (r : LaunchRecord) (e : Entry) (clusters : List Nat) : Bool :=
  let n := crewNeeds r e
  n.fitsEmpty r.pair e.dieLaunch && clusters.any (fun k => decide (0 < k)) &&
    (r.kind = 0 || decide (r.ncrew ≤ (clusters.map (n.perDie r.pair e.dieLaunch r.ncrew)).sum))

/-- How many clusters, or pairs, of a die are not fenced. -/
def State.clustersInUse (s : State) (pair : Bool) (die : Nat) : Nat :=
  if pair then ((List.range 48).filter (fun k =>
    !(s.cluster die (2 * k)).fenced && !(s.cluster die (2 * k + 1)).fenced)).length
  else ((List.range 96).filter (fun k => !(s.cluster die k).fenced)).length

/-- A die is permitted by DIES. -/
def LaunchRecord.permits (r : LaunchRecord) (die : Nat) : Bool := r.dies.testBit die

/-- A launch of an entry fits the module (R278). -/
def State.fits (s : State) (r : LaunchRecord) (e : Entry) : Bool :=
  launchFits r e (([0, 1].filter r.permits).map (s.clustersInUse r.pair))

/-- A template launch record that R278 does not refuse, of KIND 0 (R295). -/
def State.templateGood (s : State) (ctx r : Nat) : Bool :=
  (s.launchBad ctx r).isNone && bitsOf r 85 84 = 0 && (s.launchEntry ctx (parseLaunch r)).any (s.fits (parseLaunch r))

end Sys2Proof.Machine
end

