-- ==== Sys2Proof/Machine/Queue.lean ====
section
/-! DEFINITION. Task queues and graph nodes: the queue forms of major 0x39, emit, and the churn (R287 to R295). -/

namespace Sys2Proof.Machine

open Sys2Proof

/-! ## The header (Table 17.4) -/

/-- A queue header's fields. -/
structure QueueView where
  cap : Nat
  head : Nat
  count : Nat
  rsv : Nat
  seg : Nat
  scap : Nat
  shead : Nat
  scount : Nat
  fcode : Nat
  failed : Bool
deriving DecidableEq, Repr

/-- The fields of a header. -/
def viewQueue (h : Nat) : QueueView :=
  { cap := bitsOf h 20 0, head := bitsOf h 63 32, count := bitsOf h 95 64, rsv := bitsOf h 127 96, seg := bitsOf h 191 128,
    scap := bitsOf h 223 192, shead := bitsOf h 255 224, scount := bitsOf h 287 256, fcode := bitsOf h 303 288,
    failed := bitsOf h 304 304 = 1 }

/-- The header that holds these fields. -/
def queueNat (v : QueueView) : Nat :=
  v.cap + v.head * 2 ^ 32 + v.count * 2 ^ 64 + v.rsv * 2 ^ 96 + v.seg * 2 ^ 128 + v.scap * 2 ^ 192 + v.shead * 2 ^ 224 +
    v.scount * 2 ^ 256 + v.fcode * 2 ^ 288 + (if v.failed then 2 ^ 304 else 0)

/-- The queue at a die offset of a crew's launch window. -/
def State.queue (s : State) (cr : Crew) (q : Nat) : QueueView := viewQueue (s.queueHeader cr q)

/-- The queue's header written. -/
def State.putQueue (s : State) (c q : Nat) (v : QueueView) : State := s.putQueueHeader c q (queueNat v)

/-- A header that breaks Table 17.4, in a launch window of a size (R289); a HEAD or SHEAD that names no slot breaks it too
(notes/assumptions/25.md). -/
def queueBad (size q h : Nat) : Bool :=
  let v := viewQueue h
  bitsOf h 31 21 ≠ 0 || bitsOf h 511 305 ≠ 0 || decide (v.cap < 8) || decide (1048576 < v.cap) || v.cap % 8 ≠ 0 ||
    v.seg % 64 ≠ 0 || !isMain v.seg || (v.scap = 0 && v.seg ≠ 0) || v.scap % 8 ≠ 0 || decide (v.cap ≤ v.head) ||
    (v.scap ≠ 0 && decide (v.scap ≤ v.shead)) || decide (launchBase + size < q + 64 + 8 * v.cap) ||
    decide (v.cap < v.count + v.rsv) || decide (v.scap < v.scount)

/-- The size of a crew's launch window. -/
def State.launchSize (s : State) (cr : Crew) : Nat := (s.window cr launchBase).size

/-- The header at an offset breaks its table, or the offset can name no queue. -/
def State.noQueue (s : State) (cr : Crew) (q : Nat) : Bool :=
  q % 64 ≠ 0 || decide (q < launchBase) || decide (launchBase + s.launchSize cr < q + 64) ||
    queueBad (s.launchSize cr) q (s.queueHeader cr q)

/-- The offset of a ring slot, and the main address of a spill slot (R288). -/
def ringSlot (q i : Nat) : Nat := q + 64 + 8 * i
def spillSlot (v : QueueView) (i : Nat) : Nat := v.seg + 8 * (i % v.scap)

/-! ## The operations in a queue's order (R289) -/

/-- The queue at an offset of a launch's window on a die, whether or not a crew of the launch is resident. -/
def Launch.queueAt (l : Launch) (die q : Nat) : QueueView := viewQueue (Mem.readNat (l.win die).bytes (inWindow q) 64)
def Launch.putQueueAt (l : Launch) (die q : Nat) (v : QueueView) : Launch :=
  l.modWin die (fun w =>
    if poisonHit w.poison 8 (inWindow q) 64 then w else w.write (inWindow q) (leBytes (queueNat v) 64))

/-- A batch of the churn is under way in hardware mode, or no longer (R22: it keeps the mode that it was raised in). -/
def State.hwChurning (s : State) (launch die q : Nat) : Bool :=
  match Table.get? s.launches launch with
  | some l => l.hwChurn.contains (die, q)
  | none => false
def State.setHwChurn (s : State) (launch die q : Nat) (on : Bool) : State :=
  s.modLaunch launch (fun l =>
    { l with hwChurn := l.hwChurn.filter (· ≠ (die, q)) ++ (if on then [(die, q)] else []) })

/-- A queue fails (R292): FCODE, and a record in the context's log, which names the crew whose operation it was, if there
is one, as the request of duty row 5 names its thread (R330). No batch of its churn is under way any more. -/
def State.failQueueAt (s : State) (launch die q : Nat) (code : Code) (who : Option (Nat × Nat)) : State :=
  match Table.get? s.launches launch with
  | none => s
  | some l =>
    let s := s.setHwChurn launch die q false
    let v := l.queueAt die q
    if v.failed then s
    else
      let r : LogRecord :=
        { code := Code.qFault, action := 0,
          crew := match who.bind (fun w => s.crew? w.1) with | some cr => cr.index | none => 0xFFFFFFFF,
          info := q, launch := l.srLaunch.toNat, tick := s.tick, addr := 0, info2 := code.toNat }
      (s.modLaunch launch (fun l => l.putQueueAt die q { v with failed := true, fcode := code.toNat })).log l.ctx r (who.map (·.1))
        (match who with | some w => w.2 | none => 0)

/-- The same for the operation of a crew's thread on the queue. -/
def State.failQueue (s : State) (c tid q : Nat) (code : Code) : State :=
  match s.crew? c with
  | none => s
  | some cr => s.failQueueAt cr.launch cr.die q code (some (c, tid))

/-- A spill or a churn of a queue, for a crew's thread, joins a translation request: the queue fails with it (R292). -/
def State.joinQueue (s : State) (req launch die q : Nat) (who : Nat × Nat) : State :=
  { s with xlates := Table.adjust s.xlates req (fun r =>
      { r with
        queues := if r.queues.any (fun x => x.1 = (launch, die, q)) then r.queues
                  else r.queues ++ [((launch, die, q), who)] }) }

/-- A queue's spill or churn has joined a request in flight on the page of one of these addresses: it waits for that
request's end, whatever the page's translation is meanwhile (R36). -/
def State.queueJoined (s : State) (launch die q : Nat) (addrs : List Nat) : Bool :=
  s.xlates.any (fun e => !e.2.unresolved && addrs.any (fun a => e.2.page = a / pageBytes * pageBytes) &&
    e.2.queues.any (fun x => x.1 = (launch, die, q)))

/-- What a push finds. -/
inductive Pushed where
  | done (s : State)
  | full
  | waits (s : State)
  | failed (s : State)

/-- The ring slot that a push writes, if it does not go to the spill segment. -/
def QueueView.pushSlot (v : QueueView) (q : Nat) : Option Nat :=
  if v.scount = 0 && decide (v.count + v.rsv < v.cap) then some (ringSlot q ((v.head + v.count) % v.cap)) else none

/-- A push of a record. -/
def State.queuePush (s : State) (c q tid rec0 : Nat) : Pushed :=
  match s.crew? c with
  | none => .full
  | some cr =>
    let v := s.queue cr q
    match v.pushSlot q with
    | some slot => .done ((s.writeDie c slot (leBytes rec0 8)).putQueue c q { v with count := v.count + 1 })
    | none =>
    if v.scount < v.scap then
      let a := spillSlot v (v.shead + v.scount)
      if s.queueJoined cr.launch cr.die q [a] then .waits s
      else match s.readyMain cr.ctx a 8 1 (some (c, tid)) with
      | (.ok, s) => .done ((s.writeMain cr.ctx a (leBytes rec0 8)).putQueue c q { v with scount := v.scount + 1 })
      | (.waits r, s) => .waits (s.joinQueue r cr.launch cr.die q (c, tid))
      | (f, s) => .failed (s.failQueue c tid q f.code)
    else .full

/-- What a pop finds. -/
inductive Popped where
  | record (r : Nat) (s : State)
  | empty
  | spilled

/-- A pop of the oldest record; an iterator's pop keeps the record's place (R289). -/
def State.queuePop (s : State) (c q : Nat) (reserve : Bool) : Popped :=
  match s.crew? c with
  | none => .empty
  | some cr =>
    let v := s.queue cr q
    if 0 < v.count then
      .record (leNat (s.readDie cr (ringSlot q v.head) 8))
        (s.putQueue c q { v with head := (v.head + 1) % v.cap, count := v.count - 1, rsv := v.rsv + (if reserve then 1 else 0) })
    else if 0 < v.scount then .spilled
    else .empty

/-- A record of an iterator is settled: RSV falls (R289). -/
def State.queueSettle (s : State) (c q n : Nat) : State :=
  match s.crew? c with
  | none => s
  | some cr =>
    let v := s.queue cr q
    s.putQueue c q { v with rsv := v.rsv - n }

/-! ## The forms -/

/-- The queue offset of a lane. -/
def queueAddr (va : BitVec 7) (_l : Lane) (th : Thread) : Int := ((th.read32 va).toNat : Int)

/-- The checks of R289 over the active lanes, for an offset of the launch window. -/
def State.queueTrap (s : State) (addr : Lane → Thread → Int) : Option State :=
  match s.curCrew? with
  | none => none
  | some cr =>
    match s.laneTrap Code.align (fun l th => decide (addr l th % 64 ≠ 0)) addr with
    | some t => some t
    | none => s.laneTrap Code.boundsDie (fun l th =>
        decide (addr l th < launchBase) || decide (launchBase + s.launchSize cr < addr l th + 64)) addr

/-- A lane's operation on a queue: its thread's earlier stores have performed, the header stands (Q_BAD), and the queue
has not failed (Q_FAULT); both are single-thread traps. -/
def State.queueLane (s : State) (tid q : Nat) (faults : Bool) (go : State → State) : State :=
  s.drained tid none .fence fun s =>
    s.withLine tid .die q fun s =>
      match s.curCrew? with
      | none => s
      | some cr =>
        if s.noQueue cr q then s.trapLane tid Code.qBad q
        else if faults && (s.queue cr q).failed then s.trapLane tid Code.qFault (s.queue cr q).fcode
        else go s

/-- A lane's access to a ring slot of the queue, if it makes one, meets the slot's line (R19). -/
def State.slotLane (s : State) (tid : Nat) (slot : Option Nat) (go : State → State) : State :=
  match slot with
  | some off => s.withLine tid .die off go
  | none => go s

/-- The queue of the bundle's crew at an offset. -/
def State.curQueue (s : State) (q : Nat) : QueueView :=
  match s.curCrew? with
  | some cr => s.queue cr q
  | none => viewQueue 0

/-- The error that a bundle's operations on their queues' headers would meet (R345, R347). -/
def State.headerPoison (s : State) (cr : Crew) (th : Thread) (q : Nat) : Option Nat :=
  if s.lineState cr th .die q = .ready && poisonHit (s.window cr q).poison 8 (inWindow q) 64 then some q else none

/-- A push that has taken place, or has not: the thread completes, parks, or takes Q_FAULT. -/
def State.pushed (s : State) (tid q : Nat) (p : Pushed) (nb : Bool) (after : State → State) : State :=
  let done := fun (s : State) (ok : Bool) =>
    (s.finishLane tid .now (if nb then [p6Result ok] else []) []).closeRegion s.cur.crew tid
  match p with
  | .done s => done (after s) true
  | .full => if nb then done s false else s.park s.cur.crew tid (.queue q)
  | .waits s => s.park s.cur.crew tid (.queue q)
  | .failed s =>
    match s.curCrew? with
    | none => s
    | some cr => s.trapLane tid Code.qFault (s.queue cr q).fcode

/-- The push forms. -/
def State.qpush (s : State) (va vs : BitVec 7) (nb : Bool) : State :=
  s.guarded (lx [lxSrc32 va, lxSrc64 vs] false) fun s =>
    match s.queueTrap (queueAddr va) with
    | some t => t
    | none =>
      match s.lanePoison .die 64 false (queueAddr va) with
      | some off => s.consume Code.ueDie off
      | none =>
        s.outwardActive.lanewise .now (fun _ => []) fun t ln th =>
          let q := (th.read32 va).toNat
          t.queueLane ln.tid q true fun t =>
            t.slotLane ln.tid ((t.curQueue q).pushSlot q) fun t =>
              t.pushed ln.tid q (t.queuePush t.cur.crew q ln.tid (th.read64 vs).toNat) nb id

/-- `q.push [va], vs`. -/
def execQPush (va sz : BitVec 7) (s : State) : Host.Outcome State Fault Refusal := .next (s.qpush va sz false)

/-- `q.push.nb [va], vs`. -/
def execQPushNb (va sz : BitVec 7) (s : State) : Host.Outcome State Fault Refusal := .next (s.qpush va sz true)

/-- The error that the pops of a bundle would meet: in the header, or in the record that falls to a lane after those of
the lower lanes of the same queue. -/
def State.popPoison (s : State) (va : BitVec 7) : Option (Nat × Nat) :=
  match s.curCrew? with
  | none => none
  | some cr =>
    s.firstPoison (fun l th =>
      let q := (th.read32 va).toNat
      let v := s.queue cr q
      let i := (s.activeLanes.filter (fun e => decide (e.1.tid < l.tid) && (e.2.read32 va).toNat = q)).length
      let off := ringSlot q ((v.head + i) % v.cap)
      match s.headerPoison cr th q with
      | some a => some a
      | none =>
        if decide (i < v.count) && poisonHit (s.window cr off).poison 8 (inWindow off) 8 then some off else none)

/-- The pop forms. -/
def State.qpop (s : State) (vd va : BitVec 7) (la : Nat) (nb : Bool) : State :=
  s.guarded (lx [lxDst64 vd, lxSrc32 va] false) fun s =>
    match s.queueTrap (queueAddr va) with
    | some t => t
    | none =>
      match s.popPoison va with
      | some off => s.consume Code.ueDie off
      | none =>
        s.outwardActive.lanewise (.after la) (fun _ => []) fun t ln th =>
          let q := (th.read32 va).toNat
          let done := fun (t : State) (rs : Results) =>
            (t.finishLane ln.tid (.after la) rs []).closeRegion t.cur.crew ln.tid
          t.queueLane ln.tid q true fun t =>
            let v := t.curQueue q
            t.slotLane ln.tid (if 0 < v.count then some (ringSlot q v.head) else none) fun t =>
              match t.queuePop t.cur.crew q false with
              | .record r t =>
                done t (th.loadResults vd true (BitVec.ofNat 64 r) ++ (if nb then [p6Result true] else []))
              | .spilled => t.park t.cur.crew ln.tid (.queue q)
              | .empty => if nb then done t [p6Result false] else t.park t.cur.crew ln.tid (.queue q)

/-- `q.pop vd, [va]`. -/
def execQPop (vd va : BitVec 7) (la : BitVec 4) (s : State) : Host.Outcome State Fault Refusal :=
  .next (s.qpop vd va la.toNat false)

/-- `q.pop.nb vd, [va]`. -/
def execQPopNb (vd va : BitVec 7) (la : BitVec 4) (s : State) : Host.Outcome State Fault Refusal :=
  .next (s.qpop vd va la.toNat true)

/-- The two words of `q.stat` (R293). -/
def QueueView.stat (v : QueueView) : Dword :=
  BitVec.ofNat 64 (Nat.min (v.count + v.scount) 0xFFFFFFFF +
    2 ^ 32 * ((if v.failed then 1 else 0) + (if v.scount ≠ 0 then 2 else 0) + v.fcode * 2 ^ 16))

/-- `q.stat vd, [va]` (R293). -/
def execQStat (vd va : BitVec 7) (la : BitVec 4) (s : State) : Host.Outcome State Fault Refusal :=
  .next (s.guarded (lx [lxDst64 vd, lxSrc32 va] false) fun s =>
    match s.queueTrap (queueAddr va) with
    | some t => t
    | none =>
      match s.lanePoison .die 64 false (queueAddr va) with
      | some off => s.consume Code.ueDie off
      | none =>
        s.outwardActive.lanewise (.after la.toNat) (fun _ => []) fun t ln th =>
          let q := (th.read32 va).toNat
          t.queueLane ln.tid q false fun t =>
            match t.curCrew? with
            | none => t
            | some cr => t.finishLane ln.tid (.after la.toNat) (th.loadResults vd true (t.queue cr q).stat) [])

/-! ## Graph nodes (R294, R295) -/

/-- A node's fields (Table 17.5). -/
structure NodeView where
  tmpl : Nat
  qoff : Nat
  coal : Nat
  flush : Nat
  pend : Nat
  launched : Nat
  first : Nat
deriving DecidableEq, Repr

/-- The fields of a node record. -/
def viewNode (n : Nat) : NodeView :=
  { tmpl := bitsOf n 63 0, qoff := bitsOf n 95 64, coal := bitsOf n 108 96, flush := bitsOf n 127 112,
    pend := bitsOf n 159 128, launched := bitsOf n 191 160, first := bitsOf n 255 192 }

/-- The record that holds these fields. -/
def nodeNat (v : NodeView) : Nat :=
  v.tmpl + v.qoff * 2 ^ 64 + v.coal * 2 ^ 96 + v.flush * 2 ^ 112 + v.pend * 2 ^ 128 + v.launched * 2 ^ 160 +
    v.first * 2 ^ 192

/-- A node that breaks Table 17.5. -/
def nodeBad (n : Nat) : Bool :=
  let v := viewNode n
  v.tmpl % 64 ≠ 0 || !isMain v.tmpl || v.coal = 0 || decide (4096 < v.coal) || bitsOf n 111 109 ≠ 0 || v.flush = 0 || bitsOf n 511 256 ≠ 0

/-- The node at a die offset. -/
def State.node (s : State) (cr : Crew) (off : Nat) : NodeView := viewNode (leNat (s.readDie cr off 64))

/-- The launch's list with a node's template and the ticks of its pending emits put in. -/
def Launch.putNode (l : Launch) (die off : Nat) (r : LaunchRecord) (ticks : List Nat) : Launch :=
  { l with
    nodes := l.nodes.filter (fun x => x.die ≠ die || x.off ≠ off) ++
      [{ die := die, off := off, template := r, ticks := ticks }] }

/-- The ticks of a node's pending emits. -/
def Launch.nodeTicks (l : Launch) (die off : Nat) : List Nat :=
  match l.nodes.find? (fun x => x.die = die && x.off = off) with
  | some x => x.ticks
  | none => []

/-- The effect of an emit on its node, in the operation of its push (R295). -/
def State.emitted (s : State) (c off : Nat) (r : LaunchRecord) : State :=
  match s.crew? c with
  | none => s
  | some cr =>
    let v := s.node cr off
    let s := s.writeDie c off (leBytes (nodeNat
      { v with pend := v.pend + 1, first := if v.pend = 0 then s.tick else v.first }) 64)
    s.modLaunch cr.launch (fun l =>
      l.putNode cr.die off r ((if v.pend = 0 then [] else l.nodeTicks cr.die off) ++ [s.tick]))

/-- The template of a node: its 256 bytes stand in main memory. -/
def State.emitLane (s : State) (n rec0 tid : Nat) : State :=
  s.drained tid none .fence fun s =>
    s.withLine tid .die n fun s =>
      match s.curCrew? with
      | none => s
      | some cr =>
        let v := s.node cr n
        if nodeBad (leNat (s.readDie cr n 64)) then s.trapLane tid Code.emitBad n
        else match s.readyMain cr.ctx v.tmpl 256 0 (some (s.cur.crew, tid)) with
          | (.waits r, s) => s.park s.cur.crew tid (.xlate r)
          | (.ok, s) =>
            let t := leNat (s.readMain cr.ctx v.tmpl 256)
            if s.mainPoisoned cr.ctx v.tmpl 256 || !s.templateGood cr.ctx t then s.trapLane tid Code.emitBad n
            else s.queueLane tid v.qoff true fun s =>
              s.slotLane tid ((s.curQueue v.qoff).pushSlot v.qoff) fun s =>
                s.pushed tid v.qoff (s.queuePush s.cur.crew v.qoff tid rec0) false
                  (fun s => s.emitted s.cur.crew n (parseLaunch t))
          | (_, s) => s.trapLane tid Code.emitBad n

/-- The error that a lane's emit would meet in its node or in the header of the node's queue. -/
def State.emitPoison (s : State) (cr : Crew) (th : Thread) (n : Nat) : Option Nat :=
  match s.headerPoison cr th n with
  | some off => some off
  | none =>
    let v := s.node cr n
    if s.lineState cr th .die n = .ready && !nodeBad (leNat (s.readDie cr n 64)) && !s.noQueue cr v.qoff then
      s.headerPoison cr th v.qoff
    else none

/-- `emit [va], vs` (R295); a template that cannot be read is EMIT_BAD, and a QOFF that names no queue is Q_BAD with
QOFF (notes/assumptions/26.md). -/
def execEmit (va sz : BitVec 7) (s : State) : Host.Outcome State Fault Refusal :=
  .next (s.guarded (lx [lxSrc32 va, lxSrc64 sz] false) fun s =>
    match s.queueTrap (queueAddr va) with
    | some t => t
    | none =>
      match s.curCrew?.bind (fun cr => s.firstPoison (fun _ th => s.emitPoison cr th (th.read32 va).toNat)) with
      | some off => s.consume Code.ueDie off
      | none =>
        s.outwardActive.lanewise .now (fun _ => []) fun t ln th =>
          t.emitLane (th.read32 va).toNat (th.read64 sz).toNat ln.tid)

/-! ## The churn (R290) -/

/-- Some crew of a launch on a die, through which its window is reached. -/
def State.crewOn (s : State) (launch die : Nat) : Option (Nat × Crew) :=
  s.crews.find? (fun e => e.2.launch = launch && e.2.die = die)

/-- How many records the churn moves next: none when the ring has no room, or nothing is spilled. -/
def QueueView.batch (v : QueueView) : Nat := Nat.min 8 (Nat.min v.scount (v.cap - v.count - v.rsv))

/-- The n oldest spilled records appended to the ring, as one operation. -/
def State.appendSpilled (s : State) (c q : Nat) (recs : List Nat) : State :=
  match s.crew? c with
  | none => s
  | some cr =>
    let v := s.queue cr q
    let s := recs.zipIdx.foldl (fun (s : State) r =>
      s.writeDie c (ringSlot q ((v.head + v.count + r.2) % v.cap)) (leBytes r.1 8)) s
    s.putQueue c q
      { v with
        shead := (v.shead + recs.length) % v.scap
        scount := v.scount - recs.length
        count := v.count + recs.length }

/-- The n oldest spilled records as main memory holds them. -/
def State.spilledRecords (s : State) (ctx : Nat) (v : QueueView) (n : Nat) : List Nat :=
  (List.range n).map (fun i => leNat (s.readMain ctx (spillSlot v (v.shead + i)) 8))

/-- A churn request of a queue is with a worker, or waits for one (duty row 2). -/
def State.churning (s : State) (launch die q : Nat) : Bool :=
  s.calls.any (fun e => e.2.origin = .churn launch die q && e.2.outcome = none)

/-- The spill segments' slots that the next batch reads, each one's readiness in turn: all ready, or the first that is
not. -/
def State.spillReady (s : State) (ctx : Nat) (v : QueueView) (who : Option (Nat × Nat)) : List Nat → MainReady × State
  | [] => (.ok, s)
  | i :: is =>
    match s.readyMain ctx (spillSlot v (v.shead + i)) 8 0 who with
    | (.ok, s) => State.spillReady s ctx v who is
    | r => r

/-- The duty operands of a churn request (Table 20.10, row 2). -/
def churnWords (q : Nat) (v : QueueView) (n : Nat) : List Dword :=
  [BitVec.ofNat 64 q, BitVec.ofNat 64 v.seg, BitVec.ofNat 64 v.shead, BitVec.ofNat 64 n]

/-- The queue engine can work on a queue's header and on the ring slots of the next batch: their lines are there, and the
header holds no error. -/
def State.churnReady (s : State) (cr : Crew) (q n : Nat) : Bool :=
  let v := s.queue cr q
  let lineOk := fun (off : Nat) => (s.dieLine cr off).present && !(s.dieLine cr off).faulted
  lineOk q && !poisonHit (s.window cr q).poison 8 (inWindow q) 64 &&
    (List.range n).all (fun i => lineOk (ringSlot q ((v.head + v.count + i) % v.cap)))

/-- One batch of the churn in hardware mode (R290): the records are read from the spill segment and appended. -/
def State.churnBatch (s : State) (c : Nat) (cr : Crew) (q : Nat) : State :=
  let v := s.queue cr q
  let n := v.batch
  let idle := fun (s : State) => s.setHwChurn cr.launch cr.die q false
  match s.spillReady cr.ctx v (some (c, 0)) (List.range n) with
  | (.ok, s) =>
    if (List.range n).any (fun i => s.mainPoisoned cr.ctx (spillSlot v (v.shead + i)) 8) then
      (idle s).failQueue c 0 q Code.ueMain
    else (idle s).appendSpilled c q (s.spilledRecords cr.ctx v n)
  | (.waits r, s) => (s.setHwChurn cr.launch cr.die q true).joinQueue r cr.launch cr.die q (c, 0)
  | (f, s) => (idle s).failQueue c 0 q f.code

/-- One batch of the churn: the queue engine's own, or a request to a worker in host-assisted mode (R290). A fault that
stays unresolved, or a class that cannot serve, fails the queue (R292; notes/assumptions/91.md). -/
def execChurnMove (launch die queue : Nat) (s : State) : Host.Outcome State Fault Refusal :=
  .next (match s.crewOn launch die with
    | none => s
    | some (c, cr) =>
      let v := s.queue cr queue
      let n := v.batch
      if s.noQueue cr queue || v.failed || n = 0 || s.churning launch die queue || s.queueJoined launch die queue ((List.range n).map (fun i => spillSlot v (v.shead + i))) ||
          !s.churnReady cr queue n then s
      else if rowAssisted (s.dutyRow cr.ctx 2) && !s.hwChurning launch die queue then
        if s.rowServed cr.ctx 2 then
          (s.dutyCall cr.ctx 2 (s.affected c 0) (churnWords queue v n) (.churn launch die queue)).2
        else s.failQueue c 0 queue Code.hcNoclass
      else s.churnBatch c cr queue)

end Sys2Proof.Machine
end

