-- ==== Sys2Proof/Machine/Iterator.lean ====
section
/-! DEFINITION. The iterator unit: major 0x36, pulls and their resumption (chapter 15, R255 to R275). -/

namespace Sys2Proof.Machine

open Sys2Proof

/-! ## Records (Tables 15.1 to 15.3) -/

/-- KIND, MODE and FIELD of a record. -/
def recKind (r : Nat) : Nat := bitsOf r 3 0
def recMode (r : Nat) : Nat := bitsOf r 5 4
def recField (r : Nat) : Bool := bitsOf r 6 6 = 1

/-- SKIND of a zip or chain. -/
def recSkind (r : Nat) : Nat := bitsOf r 35 32

/-- The fields of a record's body that its kind and mode name. -/
def recFields (r : Nat) : List (Nat × Nat) :=
  let second := (35, 32) :: (191, 160) :: (match recSkind r with
    | 1 => [(95, 64), (127, 96), (159, 128)]
    | 2 => [(127, 64), (159, 128)]
    | _ => [])
  match recKind r with
  | 1 => [(63, 32), (95, 64), (127, 96), (159, 128)]
  | 2 => [(95, 32), (127, 96), (159, 128)]
  | 3 => [(95, 32), (127, 96), (159, 128)]
  | 4 => [(63, 32), (95, 64), (96, 96), (102, 100), (159, 128), (415, 160)]
  | 8 => match recMode r with
    | 0 => [(63, 32), (95, 64)]
    | 3 => [(63, 32)]
    | _ => [(95, 32), (127, 96)]
  | 9 => match recMode r with
    | 2 => [(34, 32), (95, 64)]
    | 3 => []
    | _ => [(95, 32), (127, 96)]
  | 10 => second
  | 11 => (192, 192) :: second
  | _ => [(95, 32), (127, 96), (159, 128), (191, 160), (223, 192)]

/-- The record with some fields zero. -/
def clearFields (r : Nat) (fs : List (Nat × Nat)) : Nat := fs.foldl (fun r f => setBits r f.1 f.2 0) r

/-- The bits of a record that are checked zero: the header's reserved bits, MODE and FIELD where the kind has none, and
every bit of the body that the kind and mode do not name. -/
def recChecked (r : Nat) : Nat :=
  let k := recKind r
  let named := [(3, 0), (10, 8)] ++ (if k = 8 || k = 9 then [(5, 4)] else []) ++ (if 8 ≤ k then [(6, 6)] else [])
  clearFields r (named ++ recFields r)

/-- A table length outside its range. -/
def lengthBad (r top : Nat) : Bool := bitsOf r 127 96 = 0 || decide (top < bitsOf r 127 96)

/-- The lowest bit of the fields outside Table 15.3. -/
def recRange (r : Nat) : List (Option Nat) :=
  let second := match recSkind r with
    | 1 => bitWhen (bitsOf r 159 128 = 0) 128
    | 2 => bitWhen (2 ^ 28 < bitsOf r 159 128) 128
    | _ => some 32
  match recKind r with
  | 1 => [bitWhen (bitsOf r 127 96 = 0) 96]
  | 2 => [bitWhen (2 ^ 28 < bitsOf r 127 96) 96]
  | 3 => [bitWhen (2 ^ 31 < bitsOf r 127 96) 96]
  | 4 => [bitWhen (bitsOf r 63 32 % 64 ≠ 0) 32, bitWhen (bitsOf r 95 64 = 0) 64]
  | 8 => match recMode r with
    | 0 => []
    | 3 => [bitWhen (bitsOf r 63 32 = 0) 32]
    | _ => [bitWhen (lengthBad r (2 ^ 28)) 96]
  | 9 => if recMode r < 2 then [bitWhen (lengthBad r (2 ^ 31)) 96] else []
  | 12 => [bitWhen (lengthBad r (2 ^ 28)) 96]
  | _ => [second]

/-- The lowest offending bit of a record: reason 2 (R263). -/
def itRecBad (r : Nat) : Option Nat := leastBit (lowestBit (recChecked r) 511 0 :: recRange r)

/-- The table of a record (R259): its address, alignment and bytes. -/
def recTable (r : Nat) : Option (Nat × Nat × Nat) :=
  match recKind r with
  | 2 => some (bitsOf r 95 32, 4, 4 * bitsOf r 127 96)
  | 3 => some (bitsOf r 95 32, 8, 8 * ((bitsOf r 127 96 + 63) / 64))
  | 8 => match recMode r with
    | 1 => some (bitsOf r 95 32, 4, 4 * bitsOf r 127 96)
    | 2 => some (bitsOf r 95 32, 8, 8 * bitsOf r 127 96)
    | _ => none
  | 9 => if recMode r < 2 then some (bitsOf r 95 32, 8, 8 * ((bitsOf r 127 96 + 63) / 64)) else none
  | 12 => some (bitsOf r 95 32, 4, 4 * (bitsOf r 127 96 + 1))
  | 10 => if recSkind r = 2 then some (bitsOf r 127 64, 4, 4 * bitsOf r 159 128) else none
  | 11 => if recSkind r = 2 then some (bitsOf r 127 64, 4, 4 * bitsOf r 159 128) else none
  | _ => none

/-- The output of a stage carries y (Table 15.1), over an input that does or does not. -/
def recW2 (r : Nat) (below : Bool) : Bool :=
  match recKind r with
  | 4 => bitsOf r 96 96 = 1
  | 8 => below || 2 ≤ recMode r
  | 9 => below
  | 10 => true
  | 11 => below
  | 12 => true
  | _ => false

/-- The stage that a push installs: cursors set, HOLD and DONE clear, W2 as Table 15.1 gives. -/
def pushedStage (r : Nat) (below : Bool) : Stage :=
  let cursors := match recKind r with
    | 1 => [(159, 128)]
    | 2 => [(159, 128)]
    | 3 => [(159, 128)]
    | 4 => [(102, 100), (159, 128), (415, 160)]
    | 10 => [(191, 160)]
    | 11 => [(191, 160), (192, 192)]
    | 12 => [(159, 128), (191, 160), (223, 192)]
    | _ => []
  let r := clearFields r ((10, 8) :: cursors)
  let r := setBits r 10 10 (if recW2 r below then 1 else 0)
  let r := if recKind r = 1 then setBits r 159 128 (bitsOf r 63 32) else r
  let r := if (recKind r = 10 || recKind r = 11) && recSkind r = 1 then setBits r 191 160 (bitsOf r 95 64) else r
  { record := r, held := none, ready := false, expanding := false, bufIds := [] }

/-- A stage's record as it stands (R257): HOLD says that it holds part of its work. -/
def Stage.image (st : Stage) : Nat := setBits st.record 8 8 (if st.held.isSome then 1 else 0)

/-- A stage's stream has ended. -/
def Stage.done (st : Stage) : Bool := bitsOf st.record 9 9 = 1

/-- The output of the top stage carries y. -/
def ItStack.w2 (st : ItStack) : Bool :=
  match st.stages.getLast? with
  | some x => bitsOf x.record 10 10 = 1
  | none => false

/-- The state word of a stack (Table 15.5): the elements that a parked pull has taken are held as pending. -/
def ItStack.word (st : ItStack) : Nat :=
  let held := match st.pull with | some p => p.taken.length | none => 0
  st.stages.length + (if st.ended then 2 ^ 4 else 0) + (if st.failed then 2 ^ 5 else 0) +
    (if st.pull.isSome then 2 ^ 6 else 0) + (if st.w2 then 2 ^ 7 else 0) + (st.pend.length + held) * 2 ^ 8 +
    (if st.failed then st.fcode.toNat * 2 ^ 16 else 0) + st.deliv * 2 ^ 32

/-- A stack of a crew. -/
def Crew.stack? (cr : Crew) (k : Nat) : Option ItStack := Table.get? cr.iters k

/-- A crew with one stack set. -/
def Crew.putStack (cr : Crew) (k : Nat) (st : ItStack) : Crew := { cr with iters := Table.put cr.iters k st }

/-- Adaptor slots in use on the unit of a crew's cluster (R255). -/
def State.itSlots (s : State) (cr : Crew) : Nat :=
  ((s.crews.filter (fun e => e.2.die = cr.die && e.2.cluster = cr.cluster)).map (fun e =>
    (e.2.iters.map (fun i => i.2.stages.length)).sum)).sum

/-! ## Pushes (R263) -/

/-- What a lane's push comes to. -/
inductive PushResult where
  | pushed (s : State)
  | parks
  | traps (code : Code) (info : Nat)

/-- The table address checks of R259, in its order. -/
def State.tableBad (s : State) (cr : Crew) (r : Nat) : Option (Code × Nat) :=
  match recTable r with
  | none => none
  | some (a, al, len) =>
    let form := addrForm a
    if form = .bad then some (Code.addrForm, a)
    else match form.local? with
      | none => if a % al ≠ 0 then some (Code.align, a) else none
      | some (sp, off) =>
        if sp = .fl then some (Code.addrForm, a)
        else if !s.inBounds cr sp off len then some (boundsCode sp, off)
        else if off % al ≠ 0 then some (Code.align, off)
        else none

/-- The IT_BAD reason of a push, and the offending bit for reason 2 (R263). -/
def pushReason (st : Option ItStack) (kind r : Nat) : Option Nat :=
  let source := decide (kind < 8)
  let below := match st with | some x => x.w2 | none => false
  if recKind r ≠ kind then some 1
  else match itRecBad r with
    | some b => some (2 + b * 2 ^ 8)
    | none =>
      match st with
      | none => if source then none else some 3
      | some x =>
        if source || x.ended || x.failed then some 3
        else if x.stages.length = 8 then some 4
        else if (recField r && !below) || (kind = 10 && below) then some 6
        else none

/-- A lane's push of the record at an offset. -/
def State.pushLane (s : State) (k kind off : Nat) (th : Thread) : PushResult :=
  match s.curCrew? with
  | none => .parks
  | some cr =>
    let st := cr.stack? k
    if (st.bind (·.pull)).isSome then .parks
    else
      let r := leNat (forwardedBytes th.fifo .sh off (s.readSpace cr th .sh off 64))
      match pushReason st kind r with
      | some reason => .traps Code.itBad reason
      | none =>
        match s.tableBad cr r with
        | some (code, info) => .traps code info
        | none =>
          if kind = 4 && s.noQueue cr (bitsOf r 63 32) then .traps Code.itBad 7
          else if 64 ≤ s.itSlots cr then .parks
          else
            let stage := pushedStage r (match st with | some x => x.w2 | none => false)
            let st' : ItStack := match st with
              | some x => { x with stages := x.stages ++ [stage] }
              | none => { stages := [stage], ended := false, failed := false, fcode := Code.ok, pend := [], deliv := 0,
                          pull := none, flight := none }
            .pushed (s.modCrew s.cur.crew (fun cr => cr.putStack k st'))

/-- The lanes push in turn: the state, the lanes that have pushed, those that park, and the trap of the lane that
failed. -/
def pushLanes (k kind : Nat) (off : Thread → Nat) : State → List (Lane × Thread) →
    State × List Nat × List Nat × Option (Nat × Code × Nat)
  | s, [] => (s, [], [], none)
  | s, (l, th) :: r =>
    match s.pushLane k kind (off th) th with
    | .pushed t =>
      let x := pushLanes k kind off t r
      (x.1, l.tid :: x.2.1, x.2.2.1, x.2.2.2)
    | .parks => (s, [], l.tid :: r.map (·.1.tid), none)
    | .traps code info => (s, [], [], some (l.tid, code, info))

/-- The push forms. -/
def State.itPush (s : State) (va : BitVec 7) (k : BitVec 3) (kind : Nat) : State :=
  let addr := fun (_ : Lane) (th : Thread) => ((th.read32 va).toNat : Int)
  s.guarded (lx [lxSrc32 va] false) fun s =>
    match s.addressTrap .sh 64 64 addr with
    | some t => t
    | none =>
      match s.lanePoison .sh 64 false addr with
      | some off => s.consume Code.ueSh off
      | none =>
        let s := s.outwardActive
        let x := pushLanes k.toNat kind (fun th => (th.read32 va).toNat) s s.activeLanes
        match x.2.2.2 with
        | some (tid, code, info) => x.1.trap code (x.1.maskOf (fun e => e.1.tid = tid)) info
        | none =>
          let t := x.1.skipInactive .now (fun _ => [])
          let t := x.2.1.foldl (fun (t : State) tid => (t.finishLane tid .now [] []).closeRegion t.cur.crew tid) t
          x.2.2.1.foldl (fun (t : State) tid => t.park t.cur.crew tid .iterator) t

/-- `it.range itk, [va]`. -/
def execItRange (va : BitVec 7) (k : BitVec 3) (s : State) : Host.Outcome State Fault Refusal := .next (s.itPush va k 1)
/-- `it.list itk, [va]`. -/
def execItList (va : BitVec 7) (k : BitVec 3) (s : State) : Host.Outcome State Fault Refusal := .next (s.itPush va k 2)
/-- `it.bits itk, [va]`. -/
def execItBits (va : BitVec 7) (k : BitVec 3) (s : State) : Host.Outcome State Fault Refusal := .next (s.itPush va k 3)
/-- `it.queue itk, [va]`. -/
def execItQueue (va : BitVec 7) (k : BitVec 3) (s : State) : Host.Outcome State Fault Refusal := .next (s.itPush va k 4)
/-- `it.map itk, [va]`. -/
def execItMap (va : BitVec 7) (k : BitVec 3) (s : State) : Host.Outcome State Fault Refusal := .next (s.itPush va k 8)
/-- `it.filter itk, [va]`. -/
def execItFilter (va : BitVec 7) (k : BitVec 3) (s : State) : Host.Outcome State Fault Refusal := .next (s.itPush va k 9)
/-- `it.zip itk, [va]`. -/
def execItZip (va : BitVec 7) (k : BitVec 3) (s : State) : Host.Outcome State Fault Refusal := .next (s.itPush va k 10)
/-- `it.chain itk, [va]`. -/
def execItChain (va : BitVec 7) (k : BitVec 3) (s : State) : Host.Outcome State Fault Refusal := .next (s.itPush va k 11)
/-- `it.flat itk, [va]`. -/
def execItFlat (va : BitVec 7) (k : BitVec 3) (s : State) : Host.Outcome State Fault Refusal := .next (s.itPush va k 12)

/-! ## Asking a stage (R260, R261) -/

/-- What a read or a pop waits for (R267): a die line, a round trip to main memory, a translation request, a queue's
refill. -/
inductive ItWait where
  | line (off : Nat)
  | main (addr : Nat)
  | xlate (req addr : Nat)
  | churn (q : Nat)
deriving DecidableEq, Repr

/-- The wait of a stage's read or pop, as its stack keeps it. -/
def ItWait.pause (w : ItWait) (depth seq : Nat) : Pause :=
  let p : Pause := { depth := depth, addr := 0, xlate := none, line := none, queue := none, failure := none, seq := seq }
  match w with
  | .line off => { p with addr := off, line := some off }
  | .main a => { p with addr := a }
  | .xlate r a => { p with addr := a, xlate := some r }
  | .churn q => { p with addr := q, queue := some q }

/-- A pull at work: the state, the stack's stages and elements, the budget, and how many round trips to main memory have
come back. While a save settles the stack, no source gives a new element (R274). -/
structure ItPull where
  s : State
  crew : Nat
  lead : Nat
  stages : List Stage
  pend : List Elem
  taken : List Elem
  budget : Nat
  trips : Nat
  settling : Bool

/-- What a stage answers. -/
inductive Asked where
  | elem (e : Elem)
  | ended
  /-- The request stops without an element (R265). -/
  | stop
  /-- An adaptor has finished with its input and has nothing to pass on yet. -/
  | again
  /-- The read or pop of the stage at a depth waits. -/
  | parks (depth : Nat) (w : ItWait)
  | fails (code : Code) (info : Nat)
  /-- The read meets an uncorrectable error. -/
  | poison (code : Code) (info : Nat)
deriving DecidableEq, Repr

/-- A stage with nothing in it. -/
def Stage.none : Stage := { record := 0, held := Option.none, ready := false, expanding := false, bufIds := [] }

/-- A stage of the pull's stack. -/
def ItPull.stage (x : ItPull) (d : Nat) : Stage := x.stages.getD d Stage.none

/-- The pull with one stage replaced by its image. -/
def ItPull.mod (x : ItPull) (d : Nat) (f : Stage → Stage) : ItPull := { x with stages := x.stages.modify d f }

/-- The pull with a field of a stage's record set. -/
def ItPull.set (x : ItPull) (d hi lo v : Nat) : ItPull :=
  x.mod d (fun st => { st with record := setBits st.record hi lo v })

/-- The pull with a stage's held element. -/
def ItPull.hold (x : ItPull) (d : Nat) (e : Option Elem) : ItPull :=
  x.mod d (fun st => { st with held := e, ready := false })

/-- One candidate taken from the budget. -/
def ItPull.spend (x : ItPull) : ItPull := { x with budget := x.budget - 1 }

/-- What a table read gives. -/
inductive TableRead where
  | value (v : Nat)
  | not (a : Asked)

/-- What stands in the way of a read of the die store by the stage at a depth (R19, R345). -/
def State.dieReadBad (s : State) (cr : Crew) (d off n : Nat) : Option Asked :=
  let line := s.dieLine cr off
  if line.faulted then some (.fails Code.copyFault (off / 64 * 64))
  else if !line.present then some (.parks d (.line off))
  else if s.enginePoison cr .die off n then some (.poison Code.ueDie off)
  else none

/-- A table read (R268): a load of a local table by the first participant, or a read of main memory, which returns only
after a round trip. -/
def ItPull.read (x : ItPull) (d a n : Nat) : TableRead × ItPull :=
  match x.s.crew? x.crew with
  | none => (.not .stop, x)
  | some cr =>
    match (addrForm a).local? with
    | some (sp, off) =>
      match if sp = .die then x.s.dieReadBad cr d off n else none with
      | some w => (.not w, x)
      | none =>
        if x.s.enginePoison cr sp off n then (.not (.poison (poisonCode sp) off), x)
        else (.value (leNat (x.s.engineBytes cr sp off n)), x)
    | none =>
      if x.trips = 0 then (.not (.parks d (.main a)), x)
      else match x.s.readyMain cr.ctx a n 0 (some (x.crew, x.lead)) with
        | (.ok, s) =>
          let x := { x with s := s, trips := x.trips - 1 }
          if s.mainPoisoned cr.ctx a n then (.not (.poison Code.ueMain a), x)
          else (.value (leNat (s.readMain cr.ctx a n)), x)
        | (.waits r, s) => (.not (.parks d (.xlate r a)), { x with s := s })
        | (f, s) => (.not (.fails f.code (f.info a)), { x with s := s })

/-- A queue record of the stack's source leaves BUF (R269), and its place in the ring is given up (R289). -/
def ItPull.settle (x : ItPull) (o : Nat) : ItPull :=
  let st := x.stage 0
  match st.bufIds.idxOf? o with
  | none => x
  | some i =>
    let kept := (stageBuf st.record).eraseIdx i
    let packed := (kept.zipIdx.map (fun e => (e.1.1.toNat + e.1.2.toNat * 2 ^ 32) * 2 ^ (64 * e.2))).sum
    let x := (x.set 0 102 100 kept.length).set 0 415 160 packed
    let x := x.mod 0 (fun st => { st with bufIds := st.bufIds.erase o })
    { x with s := x.s.queueSettle x.crew (bitsOf st.record 63 32) 1 }

/-- An element derived from a record is still on its way: taken, pending, or held by a stage; a finished expansion does
not count. -/
def ItPull.alive (x : ItPull) (o : Nat) : Bool :=
  let derived := fun (e : Elem) => e.origin = some o
  x.taken.any derived || x.pend.any derived || x.stages.any (fun st =>
    (match st.held with | some e => derived e | none => false) &&
      (!st.expanding || decide (bitsOf st.record 191 160 < bitsOf st.record 223 192)))

/-- An element has been dropped: its record is settled when nothing else derives from it (R269). -/
def ItPull.dropped (x : ItPull) (e : Elem) : ItPull :=
  match e.origin with
  | none => x
  | some o => if x.alive o then x else x.settle o

/-- The next value after a RANGE value: a sum beyond i32 ends the stream, and the cursor then stands at the bound
(notes/assumptions/23.md). -/
def rangeNext (cur step hi : BitVec 32) : BitVec 32 :=
  let n := cur.toInt + step.toInt
  if n < -2147483648 ∨ 2147483647 < n then hi else BitVec.ofInt 32 n

/-- A RANGE has a value left. -/
def rangeMore (cur step hi : BitVec 32) : Bool :=
  (decide (0 < step.toInt) && decide (cur.toInt < hi.toInt)) || (decide (step.toInt < 0) && decide (hi.toInt < cur.toInt))

/-- An element of one word that comes from no queue record. -/
def wordElem (v : Nat) : Elem := { x := BitVec.ofNat 32 v, y := 0#32, origin := none }

/-- A RANGE whose fields begin at given bits of a stage's record. -/
def ItPull.range (x : ItPull) (d lo cur : Nat) : Asked × ItPull :=
  let r := (x.stage d).record
  let hi := BitVec.ofNat 32 (bitsOf r (lo + 63) (lo + 32))
  let step := BitVec.ofNat 32 (bitsOf r (lo + 95) (lo + 64))
  let c := BitVec.ofNat 32 (bitsOf r (cur + 31) cur)
  if x.budget = 0 then (.stop, x)
  else if !rangeMore c step hi then (.ended, x)
  else (.elem (wordElem c.toNat), (x.set d (cur + 31) cur (rangeNext c step hi).toNat).spend)

/-- A LIST whose fields begin at given bits of a stage's record. -/
def ItPull.list (x : ItPull) (d base cur : Nat) : Asked × ItPull :=
  let r := (x.stage d).record
  let ix := bitsOf r (cur + 31) cur
  if x.budget = 0 then (.stop, x)
  else if bitsOf r (base + 95) (base + 64) ≤ ix then (.ended, x)
  else match x.read d (bitsOf r (base + 63) base + 4 * ix) 4 with
    | (.not a, x) => (a, x)
    | (.value v, x) => (.elem (wordElem v), (x.set d (cur + 31) cur (ix + 1)).spend)

/-- The BITS source: words without a set bit are passed over, each one a candidate. -/
def ItPull.bits (x : ItPull) (d : Nat) : Nat → Asked × ItPull
  | 0 => (.stop, x)
  | n + 1 =>
    let r := (x.stage d).record
    let pos := bitsOf r 159 128
    let len := bitsOf r 127 96
    if x.budget = 0 then (.stop, x)
    else if len ≤ pos then (.ended, x)
    else match x.read d (bitsOf r 95 32 + 8 * (pos / 64)) 8 with
      | (.not a, x) => (a, x)
      | (.value w, x) =>
        match (List.range 64).find? (fun b => decide (pos % 64 ≤ b) && w.testBit b && decide (pos / 64 * 64 + b < len)) with
        | some b => (.elem (wordElem (pos / 64 * 64 + b)), (x.set d 159 128 (pos / 64 * 64 + b + 1)).spend)
        | none => ItPull.bits ((x.set d 159 128 ((pos / 64 + 1) * 64)).spend) d n

/-- What stands in the way of a pop by the stage at a depth: the queue's header, or the ring slot at its head. A queue
that has failed, or whose header no longer stands, fails the pull (notes/assumptions/27.md). -/
def State.popBad (s : State) (cr : Crew) (d q : Nat) : Option Asked :=
  let v := s.queue cr q
  [s.dieReadBad cr d q 64,
    if s.noQueue cr q then some (.fails Code.qBad q) else none,
    if v.failed then some (.fails Code.qFault v.fcode) else none,
    if 0 < v.count then s.dieReadBad cr d (ringSlot q v.head) 8 else none].findSome? id

/-- The QUEUE source: the pop of the record at the head, kept in BUF. -/
def ItPull.queue (x : ItPull) (d : Nat) : Asked × ItPull :=
  let r := (x.stage d).record
  let q := bitsOf r 63 32
  let n := bitsOf r 102 100
  let taken := bitsOf r 159 128
  if x.budget = 0 then (.stop, x)
  else if taken = bitsOf r 95 64 then (.ended, x)
  else if n = 4 then (.stop, x)
  else match x.s.crew? x.crew with
    | none => (.stop, x)
    | some cr =>
      match x.s.popBad cr d q with
      | some w => (w, x)
      | none =>
        match x.s.queuePop x.crew q true with
        | .empty => (.stop, x)
        | .spilled => (.parks d (.churn q), x)
        | .record v s =>
          let x := { x with s := s }
          let x := ((x.set d (223 + 64 * n) (160 + 64 * n) v).set d 102 100 (n + 1)).set d 159 128 (taken + 1)
          let x := x.mod d (fun st => { st with bufIds := st.bufIds ++ [taken] })
          let e : Elem :=
            { x := BitVec.ofNat 32 v, y := if bitsOf r 96 96 = 1 then BitVec.ofNat 32 (v / 2 ^ 32) else 0#32,
              origin := some taken }
          (.elem e, x.spend)

/-- The word that FIELD selects, and the element with that word replaced. -/
def fieldOf (r : Nat) (e : Elem) : Nat := (if recField r then e.y else e.x).toNat
def setField (r : Nat) (e : Elem) (v : Nat) : Elem :=
  if recField r then { e with y := BitVec.ofNat 32 v } else { e with x := BitVec.ofNat 32 v }

/-- IT_BOUNDS: the index, and the stage's depth (R272). -/
def boundsFail (d i : Nat) : Asked := .fails Code.itBounds (i + d * 2 ^ 32)

/-- A map's work on an element; while a table read is pending, the map keeps it. -/
def ItPull.map (x : ItPull) (d : Nat) (e : Elem) : Asked × ItPull :=
  let r := (x.stage d).record
  let f := fieldOf r e
  let lookup := fun (n : Nat) (out : Nat → Elem) =>
    if bitsOf r 127 96 ≤ f then (boundsFail d f, x.hold d (some e))
    else match x.read d (bitsOf r 95 32 + n * f) n with
      | (.not a, x) => (a, x.hold d (some e))
      | (.value v, x) => (Asked.elem (out v), x.hold d none)
  match recMode r with
  | 0 => (.elem (setField r e (f * bitsOf r 63 32 + bitsOf r 95 64)), x.hold d none)
  | 1 => lookup 4 (setField r e)
  | 2 => lookup 8 (fun v => { e with x := BitVec.ofNat 32 v, y := BitVec.ofNat 32 (v / 2 ^ 32) })
  | _ => (.elem { e with x := BitVec.ofNat 32 (f / bitsOf r 63 32), y := BitVec.ofNat 32 (f % bitsOf r 63 32) },
      x.hold d none)

/-- The conditions of a CMP filter (R135). -/
def cmpHolds (cond : Nat) (a b : BitVec 32) : Bool :=
  match cond with
  | 0 => a = b
  | 1 => a ≠ b
  | 2 => decide (a.toInt < b.toInt)
  | 3 => decide (a.toInt ≤ b.toInt)
  | 4 => decide (b.toInt < a.toInt)
  | 5 => decide (b.toInt ≤ a.toInt)
  | 6 => decide (a.toNat < b.toNat)
  | _ => decide (a.toNat ≤ b.toNat)

/-- A filter's decision on an element: pass or drop, or what stands in its way. -/
def ItPull.test (x : ItPull) (d : Nat) (e : Elem) : (Bool ⊕ Asked) × ItPull :=
  let r := (x.stage d).record
  let f := fieldOf r e
  match recMode r with
  | 2 => (.inl (cmpHolds (bitsOf r 34 32) (BitVec.ofNat 32 f) (BitVec.ofNat 32 (bitsOf r 95 64))), x)
  | 3 => (.inl (f ≠ 0), x)
  | m =>
    if bitsOf r 127 96 ≤ f then (.inr (boundsFail d f), x)
    else match x.read d (bitsOf r 95 32 + 8 * (f / 64)) 8 with
      | (.not a, x) => (.inr a, x)
      | (.value w, x) => (.inl (w.testBit (f % 64) == decide (m = 0)), x)

/-- The next value of a zip's or chain's second source. -/
def ItPull.second (x : ItPull) (d : Nat) : Asked × ItPull :=
  if recSkind (x.stage d).record = 1 then x.range d 64 160 else x.list d 64 160

/-- A flatten begins the expansion of an element: two reads of its offset table, in one round trip. -/
def ItPull.expand (x : ItPull) (d : Nat) (e : Elem) : Asked × ItPull :=
  let r := (x.stage d).record
  let f := fieldOf r e
  if bitsOf r 127 96 ≤ f then (boundsFail d f, x.hold d (some e))
  else
    let a := bitsOf r 95 32 + 4 * f
    match x.read d a 4 with
    | (.not w, x) => (w, x.hold d (some e))
    | (.value lo, y) =>
      match ({ y with trips := x.trips }).read d (a + 4) 4 with
      | (.not w, x) => (w, x.hold d (some e))
      | (.value hi, x) =>
        let x := ((x.set d 159 128 f).set d 191 160 lo).set d 223 192 hi
        (.again, x.mod d (fun st => { st with held := some e, expanding := true }))

/-- A stage whose stream has ended sets DONE. -/
def ItPull.close (x : ItPull) (d : Nat) (a : Asked) : Asked × ItPull :=
  if a = .ended then (.ended, x.set d 9 9 1) else (a, x)

/-- An adaptor's work on one input element (R261): the element that it passes on, `again` when it drops the element or
begins its expansion, or what stands in its way, with the element kept. -/
def ItPull.adapt (x : ItPull) (d : Nat) (e : Elem) : Asked × ItPull :=
  match recKind (x.stage d).record with
  | 8 => x.map d e
  | 9 => match x.test d e with
    | (.inl true, x) => (.elem e, x.hold d none)
    | (.inl false, x) => (.again, (x.hold d none).dropped e)
    | (.inr a, x) => (a, x.hold d (some e))
  | 10 => match x.second d with
    | (.elem v, x) => (.elem { e with y := v.x }, x.hold d none)
    | (.ended, x) => ((x.hold d none).dropped e).close d .ended
    | (a, x) => (a, x.hold d (some e))
  | _ => x.expand d e

/-- The expansion of a flatten: its next element, each a candidate, or `again` at its end. -/
def ItPull.expansion (x : ItPull) (d : Nat) (e : Elem) : Asked × ItPull :=
  let r := (x.stage d).record
  let j := bitsOf r 191 160
  if j < bitsOf r 223 192 then
    if x.budget = 0 || x.settling then (.stop, x)
    else (.elem { x := BitVec.ofNat 32 (bitsOf r 159 128), y := BitVec.ofNat 32 j, origin := e.origin },
      (x.set d 191 160 (j + 1)).spend)
  else (.again, (x.mod d (fun st => { st with held := none, expanding := false })).dropped e)

/-- The element that a landed read has left with a stage is passed on; one of a source, or of a second source, is emitted
now, and is a candidate (R265). -/
def ItPull.passReady (x : ItPull) (d : Nat) (e : Elem) : Asked × ItPull :=
  let k := recKind (x.stage d).record
  if k < 8 || k = 10 || k = 11 then
    if x.budget = 0 then (.stop, x) else (.elem e, (x.hold d none).spend)
  else (.elem e, x.hold d none)

/-- A source, or the second source of a chain, is asked. -/
def ItPull.source (x : ItPull) (d : Nat) : Asked × ItPull :=
  if x.settling then (.stop, x)
  else
    let r := match recKind (x.stage d).record with
      | 1 => x.range d 32 128
      | 2 => x.list d 32 128
      | 3 => x.bits d (x.budget + 1)
      | 4 => x.queue d
      | _ => x.second d
    r.2.close d r.1

/-- A stage is asked for its next element (R260, R261). The first argument bounds the stages that the request visits. -/
def ItPull.ask (x : ItPull) (d : Nat) : Nat → Asked × ItPull
  | 0 => (.stop, x)
  | n + 1 =>
    let st := x.stage d
    let k := recKind st.record
    match if st.ready then st.held else none with
    | some e => x.passReady d e
    | none =>
      if st.done then (.ended, x)
      else if k < 8 || (k = 11 && bitsOf st.record 192 192 = 1) then x.source d
      else if k = 11 then
        match ItPull.ask x (d - 1) n with
        | (.ended, x) => ItPull.ask (x.set d 192 192 1) d n
        | r => r
      else
        let step := match st.held with
          | some e => if st.expanding then x.expansion d e else x.adapt d e
          | none => match ItPull.ask x (d - 1) n with
            | (.elem e, x) => x.adapt d e
            | (a, x) => x.close d a
        match step with
        | (.again, x) => ItPull.ask x d n
        | r => r

/-- A read or a pop of an abandoned pull completes into its stage, which keeps the result with HOLD = 1 (R267). -/
def ItPull.land (x : ItPull) (d : Nat) : Asked × ItPull :=
  let st := x.stage d
  let r := if recKind st.record < 8 || recKind st.record = 11 then x.source d
    else match st.held with
      | some e => x.adapt d e
      | none => (.stop, x)
  match r with
  | (.elem e, x) => (.stop, x.mod d (fun st => { st with held := some e, ready := true }))
  | (.again, x) => (.stop, x)
  | r => r

/-! ## Pulls (R265 to R267) -/

/-- How a pull's work ends for now. -/
inductive PullEnd where
  | delivers
  | parks (depth : Nat) (w : ItWait)
  | fails (code : Code) (info : Nat)
  | poison (code : Code) (info : Nat)
deriving DecidableEq, Repr

/-- The requests that a pull can make of its top stage: every stage in turn for each candidate, and once more. -/
def pullFuel (x : ItPull) : Nat := 32 * (x.budget + 2)

/-- The loop of R265: at most n more elements. -/
def ItPull.work (x : ItPull) (ended : Bool) : Nat → PullEnd × Bool × ItPull
  | 0 => (.delivers, ended, x)
  | n + 1 =>
    match x.pend with
    | e :: rest => ItPull.work { x with pend := rest, taken := x.taken ++ [e] } ended n
    | [] =>
      if ended || x.budget = 0 then (.delivers, ended, x)
      else match x.ask (x.stages.length - 1) (pullFuel x) with
        | (.elem e, x) => ItPull.work { x with taken := x.taken ++ [e] } ended n
        | (.ended, x) => (.delivers, true, x)
        | (.stop, x) => (.delivers, ended, x)
        | (.again, x) => (.delivers, ended, x)
        | (.parks d w, x) => (.parks d w, ended, x)
        | (.fails code info, x) => (.fails code info, ended, x)
        | (.poison code info, x) => (.poison code info, ended, x)

/-- The stack as a pull leaves it. -/
def ItPull.stack (x : ItPull) (st : ItStack) (ended : Bool) : ItStack :=
  { st with stages := x.stages, pend := x.pend, ended := ended }

/-- A pull's stack put back. What the pull has done to the stack, or delivers, no re-run could reproduce (R352); one that
has done nothing yet has had no effect. -/
def ItPull.put (x : ItPull) (k : Nat) (st st' : ItStack) (delivers : Bool) : State :=
  x.s.modCrew x.crew (fun cr =>
    let cr := cr.putStack k st'
    if delivers || st'.stages ≠ st.stages || st'.ended ≠ st.ended || st'.failed ≠ st.failed then cr.outward else cr)

/-- What a participant receives: the element of its place, if there is one, and the count (R265). -/
def Thread.pulled (th : Thread) (vd vn : BitVec 7) (w2 : Bool) (n : Nat) (e : Option Elem) : Results :=
  (match e with
    | some e => [(.reg (th.regOf vd), e.x)] ++ (if w2 then [(.reg (th.blockReg vd 1), e.y)] else [])
    | none => []) ++ [p6Result e.isSome, (.reg (th.regOf vn), BitVec.ofNat 32 n)]

/-- The elements of a pull are delivered: the participants complete, by the function given, and their regions close; the
records of the delivered elements are settled. -/
def ItPull.deliver (x : ItPull) (k : Nat) (st : ItStack) (ended : Bool) (p : Pull)
    (finish : State → Nat → Results → State) : State :=
  let es := x.taken
  let x := es.foldl (fun (x : ItPull) e => match e.origin with | some o => x.settle o | none => x) { x with taken := [] }
  let s := x.put k st { x.stack st ended with pull := none, deliv := Nat.min (st.deliv + es.length) 0xFFFFFFFF } true
  p.tids.zipIdx.foldl (fun (s : State) t =>
    match s.thread? x.crew t.1 with
    | none => s
    | some th => (finish s t.1 (th.pulled p.vd p.vn st.w2 es.length es[t.2]?)).closeRegion x.crew t.1) s

/-- A stack's elements at work, with some round trips done. -/
def ItStack.puller (st : ItStack) (s : State) (c lead : Nat) (taken : List Elem) (budget trips : Nat) : ItPull :=
  { s := s, crew := c, lead := lead, stages := st.stages, pend := st.pend, taken := taken, budget := budget,
    trips := trips, settling := false }

/-- A pull goes on with some round trips done, and ends for now. -/
def State.runPull (s : State) (c : Nat) (st : ItStack) (p : Pull) (trips : Nat) : PullEnd × Bool × ItPull :=
  ItPull.work (st.puller s c (p.tids.headD 0) p.taken p.budget trips) st.ended (p.tids.length - p.taken.length)

/-- A failed stack (R272): the elements that the pull had taken join the pending ones. -/
def ItPull.failed (x : ItPull) (k : Nat) (st : ItStack) (ended : Bool) (code : Code) : State :=
  x.put k st { x.stack st ended with pend := x.taken ++ x.pend, failed := true, fcode := code, pull := none } true

/-- The pull stands on its stack, with what it waits for. -/
def ItPull.parked (x : ItPull) (k : Nat) (st : ItStack) (ended : Bool) (p : Pull) (w : Option Pause) : State :=
  x.put k st { x.stack st ended with pull := some { p with budget := x.budget, taken := x.taken, pause := w } } false

/-- `it.next` at its participants, once nothing stands before it. One that meets an uncorrectable error is not
performed: what it had taken stays pending (R349, R267). -/
def State.startPull (s : State) (c k : Nat) (st : ItStack) (p : Pull) : State :=
  match s.runPull c st p 0 with
  | (.delivers, ended, x) =>
    { x with s := x.s.skipInactive .now (fun _ => []) }.deliver k st ended p
      (fun s tid rs => s.finishLane tid (.after p.la) rs [])
  | (.parks d w, ended, x) =>
    p.tids.foldl (fun (s : State) tid => s.park c tid (.pull k))
      ((x.parked k st ended p (some (w.pause d x.s.nextSeq))).skipInactive .now (fun _ => []))
  | (.fails code info, ended, x) =>
    let s := x.failed k st ended code
    s.trap code (s.maskOf (fun e => p.tids.contains e.1.tid)) info
  | (.poison code info, ended, x) =>
    (x.put k st { x.stack st ended with pend := x.taken ++ x.pend } false).consume code (info, x.lead)

/-- `it.next vd, vn, itk` (R265). -/
def execItNext (vd vn : BitVec 7) (la : BitVec 4) (k : BitVec 3) (s : State) : Host.Outcome State Fault Refusal :=
  .next (s.guarded (lx [lxDst32 vd, lxDst32 vn] false) fun s =>
    if s.activeLanes = [] then s.completeNone
    else match s.curCrew? with
      | none => s
      | some cr =>
        let tids := s.activeLanes.map (·.1.tid)
        match cr.stack? k.toNat with
        | none => orElse [s.roleTrap true Code.itBad 5] s
        | some st =>
          let w := if st.w2 then 2 else 1
          if blockIllegal s.curBudget vd w false || decide (vd.toNat ≤ vn.toNat) && decide (vn.toNat < vd.toNat + w) then
            s.illegalOp
          else if st.failed then orElse [s.roleTrap true Code.itFailed st.fcode.toNat] s
          else
            let s := s.drainLanes
            if tids.any (fun t => !s.stillHere t) then s
            else if st.pull.isSome || st.flight.isSome || tids.any (fun t => !s.fifoEmpty s.cur.crew t) then
              tids.foldl (fun (s : State) tid => s.park s.cur.crew tid .iterator) (s.skipInactive .now (fun _ => []))
            else
              s.startPull s.cur.crew k.toNat st
                { tids := tids, vd := vd, vn := vn, la := la.toNat, budget := 4 * cr.width, taken := [], pause := none })

/-- A read's wait has not ended: its translation request is in flight, or another operation parked before it on the queue
whose refill it waits for (R289). -/
def State.paused (s : State) (cr : Crew) (w : Pause) : Bool :=
  w.failure.isNone && (w.xlate.any (fun r => (Table.get? s.xlates r).isSome) ||
    w.queue.any (fun q => s.queuedBefore cr q w.seq true))

/-- The read or pop of an abandoned pull cannot be completed: its stage stands as it was, and the next pull makes it again
(notes/assumptions/55.md). While the crew is being saved no pull will, and the stack fails (notes/assumptions/93.md). -/
def State.dropFlight (s : State) (c k : Nat) (st : ItStack) (code : Code) : State :=
  s.modCrew c (fun cr => cr.putStack k
    (if cr.saving.isSome then { st with flight := none, failed := true, fcode := code } else { st with flight := none }))

/-- The read or pop of an abandoned pull completes into its stage (R267), or cannot be completed. -/
def State.landPull (s : State) (c k : Nat) (st : ItStack) (w : Pause) : State :=
  let x := st.puller s c 0 [] 1 1
  match w.failure with
  | some f => s.dropFlight c k st f.1
  | none => match x.land w.depth with
    | (.parks d v, x) => x.put k st { x.stack st st.ended with flight := some (v.pause d w.seq) } false
    | (.fails code _, x) => x.s.dropFlight c k (x.stack st st.ended) code
    | (.poison code _, x) => x.s.dropFlight c k (x.stack st st.ended) code
    | (_, x) => x.put k st { x.stack st st.ended with flight := none } false

/-- A parked pull goes on when its wait may have ended (R267): one round trip to main memory has come back. Every
participant of a pull that fails takes its trap as a released waiter (R272). -/
def State.resumePull (s : State) (crew stack : Nat) : State :=
  match s.crew? crew with
    | none => s
    | some cr =>
      match cr.stack? stack with
      | none => s
      | some st =>
        match st.pull, st.flight with
        | none, none => s
        | none, some w => if s.paused cr w then s else s.landPull crew stack st w
        | some p, _ =>
          if p.pause.any (s.paused cr) then s
          else
            let fail := fun (x : ItPull) (ended : Bool) (code : Code) (info : Nat) =>
              p.tids.foldl (fun (s : State) tid => s.trapWaiter crew tid code info) (x.failed stack st ended code)
            match p.pause.bind (·.failure) with
            | some (code, info) => fail (st.puller s crew 0 p.taken p.budget 0) st.ended code info
            | none =>
              match s.runPull crew st p 1 with
              | (.delivers, ended, x) => x.deliver stack st ended p (fun s tid rs => s.release crew tid p.la rs)
              | (.parks d w, ended, x) =>
                x.parked stack st ended p (some (w.pause d (match p.pause with | some v => v.seq | none => s.nextSeq)))
              | (.fails code info, ended, x) => fail x ended code info
              | (.poison code info, ended, x) =>
                let pc := match x.s.thread? crew x.lead with | some th => th.pc.toNat | none => 0
                (x.parked stack st ended p none).consumeError crew code info pc x.lead

/-- PULL_RESUME. -/
def execPullResume (crew stack : Nat) (s : State) : Host.Outcome State Fault Refusal := .next (s.resumePull crew stack)

/-- A pull is abandoned because a participant is pre-empted (R267): what it had taken stays pending, in order, a read or a
pop that is in flight completes into its stage, and every participant restarts its region. -/
def State.abandonPull (s : State) (c k : Nat) : State :=
  match (s.crew? c).bind (fun cr => cr.stack? k) with
  | none => s
  | some st =>
    match st.pull with
    | none => s
    | some p =>
      p.tids.foldl (fun (s : State) tid => s.restartThread c tid)
        (s.modCrew c (fun cr => cr.putStack k
          { st with pull := none, flight := p.pause.filter (fun w => w.failure.isNone), pend := p.taken ++ st.pend }))

/-- A request of a pull's, or of an abandoned pull's, read has ended unresolved (R36). -/
def Pause.failXlate (w : Pause) (r : Nat) (code : Code) : Pause :=
  if w.xlate = some r then { w with xlate := none, failure := some (code, w.addr) } else w
def ItStack.failXlate (st : ItStack) (r : Nat) (code : Code) : ItStack :=
  { st with
    pull := st.pull.map (fun p => { p with pause := p.pause.map (fun w => w.failXlate r code) })
    flight := st.flight.map (fun w => w.failXlate r code) }

/-! ## Ending and reading a stack (R264, R270, R271) -/

/-- A stack ends: nothing is pending or held, BUF is empty, every stage is done. -/
def ItStack.over (st : ItStack) : ItStack :=
  { st with
    ended := true
    pend := []
    flight := none
    stages := st.stages.map (fun x =>
      let r := setBits x.record 9 9 1
      { record := if recKind r = 4 then setBits (setBits r 102 100 0) 415 160 0 else r, held := none, ready := false,
        expanding := false, bufIds := [] }) }

/-- `it.enough`'s effect: the unsettled records go back to the head of their queue (R270). -/
def State.enough (s : State) (c k : Nat) (st : ItStack) : State :=
  (s.returnStack c st).modCrew c (fun cr => cr.putStack k st.over)

/-- A form that works on a stack once no pull of it is in progress: each lane in turn. -/
def State.stackForm (s : State) (k : Nat) (missing : Option Nat) (act : State → ItStack → State) : State :=
  s.guarded (lx [] false) fun s =>
    match s.curCrew? with
    | none => s
    | some cr =>
      orElse [match missing with
          | some reason => s.roleTrap (cr.stack? k).isNone Code.itBad reason
          | none => none]
        (s.outwardActive.lanewise .now (fun _ => []) fun t ln _ =>
          let done := fun (t : State) => (t.finishLane ln.tid .now [] []).closeRegion t.cur.crew ln.tid
          match t.curCrew?.bind (fun cr => cr.stack? k) with
          | none => done t
          | some st => if st.pull.isSome then t.park t.cur.crew ln.tid .iterator else done (act t st))

/-- `it.enough itk` (R270). -/
def execItEnough (k : BitVec 3) (s : State) : Host.Outcome State Fault Refusal :=
  .next (s.stackForm k.toNat (some 5) (fun t st => t.enough t.cur.crew k.toNat st))

/-- `it.free itk` (R271). -/
def execItFree (k : BitVec 3) (s : State) : Host.Outcome State Fault Refusal :=
  .next (s.stackForm k.toNat none (fun t st =>
    (t.returnStack t.cur.crew st).modCrew t.cur.crew (fun cr => { cr with iters := Table.drop cr.iters k.toNat })))

/-- `it.stat vd, itk` (R264). -/
def execItStat (vd : BitVec 7) (k : BitVec 3) (la : BitVec 4) (s : State) : Host.Outcome State Fault Refusal :=
  .next (s.guarded (lx [lxDst64 vd] false) fun s =>
    match s.curCrew? with
    | none => s
    | some cr =>
      let v := match cr.stack? k.toNat with | some st => st.word | none => 0
      s.outwardActive.complete (.after la.toNat) (fun _ th => th.loadResults vd true (BitVec.ofNat 64 v)))

/-- `it.rd [va], itk, #d` (R264): an ordinary store of the record by each active lane. -/
def execItRd (va : BitVec 7) (depth k : BitVec 3) (s : State) : Host.Outcome State Fault Refusal :=
  let addr := fun (_ : Lane) (th : Thread) => ((th.read32 va).toNat : Int)
  .next (s.guarded (lx [lxSrc32 va] false) fun s =>
    match s.addressTrap .sh 64 64 addr, s.curCrew? with
    | some t, _ => t
    | none, none => s
    | none, some cr =>
      match cr.stack? k.toNat with
      | none => orElse [s.roleTrap true Code.itBad 5] s.completeNone
      | some st =>
        orElse [s.roleTrap (decide (st.stages.length ≤ depth.toNat)) Code.itBad 8]
          (s.outwardActive.lanewise .now (fun _ => []) fun t ln th =>
            if st.pull.isSome then t.park t.cur.crew ln.tid .iterator
            else
              let bs := leBytes (st.stages.getD depth.toNat Stage.none).image 64
              t.enterStore ln.tid (t.storeEntry .sh (th.read32 va).toNat bs) fun t => t.finishLane ln.tid .now [] []))

end Sys2Proof.Machine
end

