-- ==== Sys2Proof/Machine/Xlate.lean ====
section
/-! DEFINITION. Translation requests: how one ends, and what the accesses that joined it then do (R33 to R37). -/

namespace Sys2Proof.Machine

open Sys2Proof

/-- A read without its link to a request. -/
def Pause.unlink (w : Pause) (r : Nat) : Pause := if w.xlate = some r then { w with xlate := none } else w

/-- The request's links cut: every access that joined it may be tried again. -/
def State.unlinkXlate (s : State) (r : Nat) : State :=
  { s with
    elems := Table.mapVals s.elems (fun _ e => if e.xlate = some r then { e with xlate := none } else e)
    copies := Table.mapVals s.copies (fun _ c =>
      match c.stalled with
      | some (_, q) => if q = r then { c with stalled := none } else c
      | none => c)
    clusters := Table.mapVals s.clusters (fun _ k =>
      { k with fetches := k.fetches.map (fun f => if f.xlate = some r then { f with xlate := none } else f) })
    fns := Table.mapVals s.fns (fun _ f =>
      { f with taken := f.taken.map (fun (t : Taken) => if t.xlate = some r then { t with xlate := none } else t) })
    crews := Table.mapVals s.crews (fun _ cr =>
      { cr with iters := Table.mapVals cr.iters (fun _ st =>
          { st with
            pull := st.pull.map (fun p => { p with pause := p.pause.map (fun w => w.unlink r) })
            flight := st.flight.map (fun w => w.unlink r) }) }) }

/-- The far atomics that wait for the request are sent again (R37). -/
def State.resendFars (s : State) (r : Nat) : State :=
  s.fars.foldl (fun (s : State) e =>
    if e.2.xlate = some r then s.sendFar e.1 { e.2 with xlate := none, stage := .unsent } else s) s

/-- The request is served: the accesses that joined it retry (R36). -/
def State.xlateServed (s : State) (r : Nat) : State :=
  ({ s with xlates := Table.drop s.xlates r }.unlinkXlate r).resendFars r

/-- An emit that waits for its template takes EMIT_BAD (notes/assumptions/26.md): the node is in the register that the
parked word names. -/
def State.emitUnread (s : State) (c tid : Nat) (th : Thread) : State :=
  s.trapWaiter c tid Code.emitBad (th.readReg (th.blockReg (th.parkWord.extractLsb' 18 7) 0)).toNat

/-- The per-thread copy elements that have joined a request fail with it (R36, R201). -/
def State.failElems (s : State) (r page : Nat) : State :=
  s.elems.foldl (fun (s : State) e =>
    if e.2.xlate = some r then
      s.endElem e.1 { e.2 with xlate := none } (some (Code.xlateUnres, e.2.accessAt page))
    else s) s

/-- The bulk copies that the request stalls fail with it (R36, R209). -/
def State.failStalled (s : State) (r page : Nat) : State :=
  s.copies.foldl (fun (s : State) e =>
    match e.2.stalled with
    | some (i, q) =>
      if q = r then
        s.failCopy e.1 { e.2 with stalled := none } Code.copyFault Code.xlateUnres (e.2.accessAt i page)
      else s
    | none => s) s

/-- The overlay fetches that have joined the request fail with it (R36, R193). -/
def State.failFetches (s : State) (r : Nat) : State :=
  s.clusters.foldl (fun (s : State) k => k.2.fetches.foldl (fun (s : State) f =>
    if f.xlate = some r then s.fetchFailed (k.1 / 96) (k.1 % 96) f.ctx f.obj f.group else s) s) s

/-- The iterator pulls whose reads have joined the request fail with it (R36, R272). -/
def State.failPulls (s : State) (r : Nat) : State :=
  let t := { s with crews := Table.mapVals s.crews (fun _ cr =>
    { cr with iters := Table.mapVals cr.iters (fun _ st => st.failXlate r Code.xlateUnres) }) }
  s.crews.foldl (fun (t : State) e => e.2.iters.foldl (fun (t : State) i =>
    if (i.2.pull.bind (·.pause)).any (fun w => w.xlate = some r) || i.2.flight.any (fun w => w.xlate = some r) then
      t.resumePull e.1 i.1
    else t) t) t

/-- The far atomics that wait for the request fail with it (R36). -/
def State.failFars (s : State) (r : Nat) : State :=
  s.fars.foldl (fun (s : State) e =>
    if e.2.xlate = some r then s.failFar e.1 { e.2 with xlate := none } Code.xlateUnres else s) s

/-- The emits that wait for a template on the request's page end (R295). -/
def State.failEmits (s : State) (r : Nat) : State :=
  s.crews.foldl (fun (s : State) e => e.2.threads.foldl (fun (s : State) t =>
    if t.2.wait = some (.xlate r) then s.emitUnread e.1 t.1 t.2 else s) s) s

/-- The command records that wait for the request complete with RPC_ADDR (R319). -/
def State.failRecords (s : State) (r : Nat) : State :=
  { s with fns := Table.mapVals s.fns (fun _ f =>
      { f with taken := f.taken.map (fun (t : Taken) =>
          if t.xlate = some r then { t with result := some (Code.rpcAddr, 0#64), xlate := none } else t) }) }

/-- The request has ended unresolved: every access that joined it takes that result (R34, R36), also where the page has
become present meanwhile. While it is worked off a new fault on the page is unresolved too. -/
def State.xlateUnresolved (s : State) (r : Nat) : State :=
  match Table.get? s.xlates r with
  | none => s
  | some req =>
    let s := { s with xlates := Table.adjust s.xlates r (fun q => { q with unresolved := true }) }
    let s := (((((s.failRecords r).failFars r).failElems r req.page).failStalled r req.page).failFetches r).failPulls r
    let s := req.queues.foldl (fun (s : State) q => s.failQueueAt q.1.1 q.1.2.1 q.1.2.2 Code.xlateUnres (some q.2)) (s.failEmits r)
    { s with xlates := Table.drop s.xlates r }

/-- The page has been made present, as its server says: the ATS translation request is issued again (R35). -/
def State.retryAts (s : State) (r : Nat) (req : XlateReq) : State :=
  { s.send (.atsRequest (s.pasid req.ctx) req.page) with
    xlates := Table.adjust s.xlates r (fun q => { q with retried := true, call := none }) }

/-- PAGE_RESPONSE (R35): hardware mode. An answer that comes once the row's deadline has passed serves nothing (R22). -/
def execPageResponse (req : Nat) (success : Bool) (s : State) : Host.Outcome State Fault Refusal :=
  .next (match Table.get? s.xlates req with
    | none => s
    | some r =>
      if r.retried || r.call.isSome then s
      else if success && decide (s.now < r.deadline) then s.retryAts req r
      else s.xlateUnresolved req)

/-- ATS_COMPLETION (R35): the re-issued request finds the page within the row's deadline, or meets the second fault. -/
def execAtsCompletion (req : Nat) (success : Bool) (s : State) : Host.Outcome State Fault Refusal :=
  .next (match Table.get? s.xlates req with
    | none => s
    | some r =>
      if !r.retried then s
      else if success && decide (s.now < r.deadline) && (s.hostPage? (s.pasid r.ctx) (r.page / pageBytes)).isSome then
        (s.fillTlb r.ctx r.page).xlateServed req
      else s.xlateUnresolved req)

/-- DUTY_DEADLINE (R22, R35): a request of the hardware mode passes its row's deadline. -/
def execDutyDeadline (req : Nat) (s : State) : Host.Outcome State Fault Refusal :=
  .next (match Table.get? s.xlates req with
    | none => s
    | some r => if s.now < r.deadline || r.call.isSome then s else s.xlateUnresolved req)

/-- A far atomic that has been sent uses its translation until it has performed (R33). -/
def State.farUses (s : State) (inRange : Nat → Nat → Bool) : Bool :=
  s.fars.any (fun e => e.2.stage = .sent && inRange e.2.ctx e.2.addr)

/-- A far atomic that has been sent uses a translation of a PASID for an address (R33): the contexts of one PASID share
its host pages. -/
def State.farUsesPasid (s : State) (pasid : Nat) (hit : Nat → Bool) : Bool :=
  s.farUses (fun ctx a => s.pasid ctx = pasid && hit a)

/-- ATS_INVALIDATION (R33): it completes, and removes the entries, once no far atomic uses one of them; copy elements
translate and perform in one step. -/
def execAtsInvalidation (pasid page bytes : Nat) (s : State) : Host.Outcome State Fault Refusal :=
  let hit := fun (a : Nat) => decide (page ≤ a) && decide (a < page + bytes)
  .next (if s.farUsesPasid pasid (fun a => hit (a / pageBytes * pageBytes)) then s
    else
      let t := (Table.get? s.tlb pasid).getD []
      let t := t.filter (fun e => !hit (e.1 * pageBytes))
      { s with tlb := Table.put s.tlb pasid t })

end Sys2Proof.Machine
end

