-- ==== Sys2Proof/Machine/Integrity.lean ====
section
/-! DEFINITION. Stopping and settling a crew, rollback, twin disagreements, soft errors, and the tests and links of the
integrity chapter (R300, R301, R345 to R356). -/

namespace Sys2Proof.Machine

open Sys2Proof

/-! ## Steps 1 to 3 of Table 18.2 -/

/-- A thread is treated as pre-empted (R120, R125, R300): it stands at its region head, with its window and promises
discarded. A far atomic that has been sent is awaited, and one that has not been sent is raised again; a pull is
abandoned for all its participants (R267). -/
def State.preempt (s : State) (c tid : Nat) : State :=
  match s.thread? c tid with
  | none => s
  | some th =>
    if th.ended then s
    else match th.wait with
      | some (.far id) =>
        match Table.get? s.fars id with
        | some r =>
          if r.stage = .unsent then { s with fars := Table.drop s.fars id }.restartThread c tid
          else { s with fars := Table.adjust s.fars id (fun r => { r with restart := true }) }
        | none => s.restartThread c tid
      | some (.pull k) => s.abandonPull c k
      | _ => s.restartThread c tid

/-- Steps 1 and 2: no bundle of the crew issues again, and every thread is treated as pre-empted. -/
def State.settleCrew (s : State) (c : Nat) : State :=
  match s.crew? c with
  | none => s
  | some cr =>
    let s := s.modCrew c (fun x => { x with stopped := true, drainStart := s.now })
    (Table.keys cr.threads).foldl (fun (s : State) t => s.preempt c t) s

/-- The copies that step 3 waits for: those that the crew has kicked, and those that write its memories (R301). -/
def State.copiesOf (s : State) (c : Nat) : List (Nat × Copy) :=
  s.copies.filter (fun e => e.2.crew = c || e.2.dests.contains c)

/-- Step 3 waits for nothing more (R301). -/
def State.quiet (s : State) (c : Nat) : Bool :=
  match s.crew? c with
  | none => false
  | some cr =>
    cr.threads.all (fun e => e.2.fifo = [] && e.2.ntStores = []) && s.elems.all (fun e => e.2.crew ≠ c) &&
      (s.copiesOf c).isEmpty && s.fars.all (fun e => e.2.crew ≠ c || e.2.stage = .unsent)

/-! ## Rollback (R351 to R353) -/

/-- A rollback is allowed (R352). -/
def Crew.mayRollBack (cr : Crew) : Bool :=
  match cr.reserve with
  | some r => !r.outward && !r.used && !r.poison
  | none => false

/-- A thread as its snapshot has it; one that had ended since the barrier runs again (R353). What held an error at the
barrier still holds it, and a UE_MX that is pending stays so (R357). -/
def Thread.rollBack (th : Thread) (p : ThreadSnapshot) : Thread :=
  { th with
    region := p.region, slot := p.slot, slotPoison := p.slotPoison, ended := false, atBarrier := false,
    barPassed := p.barPassed, twinStrike := none, mxPoison := th.mxPoison.orElse (fun _ => p.mxPoison) }

/-- Steps 1 to 3 of R353 on a crew. -/
def Crew.rollBack (cr : Crew) (r : Reserve) : Crew :=
  { cr with
    shared := r.shadowed.foldl (fun m l => Mem.writeBytes m (64 * l) (Mem.readBytes r.shadow (64 * l) 64)) cr.shared
    shPoison := r.shadowPoison.foldl (fun l p => insertId p l) (cr.shPoison.filter (fun p => !r.shadowed.contains (p / 64)))
    threads := Table.mapVals cr.threads (fun tid th =>
      match Table.get? r.threads tid with
      | some p => th.rollBack p
      | none => th)
    roles := r.roles
    tumblers := r.tumblers
    barGen := r.barGen
    reserve := some { r with used := true }
    stopped := false
    consumed := none }

/-- THE ROLLBACK of a crew (R353): every thread of the epoch restarts. -/
def State.rollBack (s : State) (c : Nat) (r : Reserve) : State :=
  (Table.keys r.threads).foldl (fun (s : State) t => s.restartThread c t) (s.modCrew c (fun x => x.rollBack r))

/-- The log record of a crew's consumed error (R349, R350): its tick is the event's. -/
def State.consumedRecord (s : State) (cr : Crew) (code : Code) (info addr : Nat) : LogRecord :=
  { s.crewRecord cr code 0 info addr 0 with tick := cr.consumedTick }

/-- The newest record of a log that equals a given one takes an ACTION. -/
def setAction (r : LogRecord) (action : Nat) (log : List LogRecord) : List LogRecord :=
  match log.reverse.idxOf? r with
  | some i => log.modify (log.length - 1 - i) (fun x => { x with action := action })
  | none => log

/-- The consumed error's record is in the log before duty row 5 decides (R349). -/
def State.logConsumed (s : State) (c : Nat) (cr : Crew) (code : Code) (info addr : Nat) : State :=
  if cr.consumedLogged then s
  else (s.logRecord cr.ctx (s.consumedRecord cr code info addr)).modCrew c (fun x => { x with consumedLogged := true })

/-- The record takes the ACTION of the decision (R353, Table 23.2). -/
def State.settleRecord (s : State) (cr : Crew) (code : Code) (info addr action : Nat) : State :=
  s.modContext cr.ctx (fun x => { x with log := setAction (s.consumedRecord cr code info addr) action x.log })

/-- The crew's fate after a consumed error (R349): a rollback when it is asked for and allowed, otherwise a kill with the
consumed code. -/
def State.decideCrew (s : State) (c : Nat) (wanted : Bool) : State :=
  match s.crew? c with
  | none => s
  | some cr =>
    match cr.consumed with
    | none => s
    | some (code, info, addr) =>
      let s := s.logConsumed c cr code info addr
      match if wanted && cr.mayRollBack then cr.reserve else none with
      | some r => (s.settleRecord cr code info addr 2).rollBack c r
      | none => (s.settleRecord cr code info addr 1).endKilled c cr code

/-- A decision of a crew is with a worker. -/
def State.deciding (s : State) (c : Nat) : Bool :=
  s.calls.any (fun e => e.2.origin = .decide c && e.2.outcome.isNone)

/-- The drain after a consumed error has ended: its record goes to the log, and duty row 5 decides (R349). -/
def State.consumedDrained (s : State) (c : Nat) (cr : Crew) (code : Code) (info addr : Nat) : State :=
  let s := s.logConsumed c cr code info addr
  if s.deciding c then s
  else if rowAssisted (s.dutyRow cr.ctx 5) then
    if s.rowServed cr.ctx 5 then
      (s.dutyCall cr.ctx 5 (s.affected c cr.consumedTid) (s.consumedRecord cr code info addr).words (.decide c)).2
    else s.decideCrew c false
  else s.decideCrew c true

/-! ## Twin mode (R354, R355) -/

/-- The two executions of a bundle disagree: nothing of the instruction takes place and its threads restart their
regions; a second time before a region entry it is a consumed error (R355). -/
def State.disagree (s : State) (c : Nat) (tids : List Nat) : State :=
  match s.crew? c with
  | none => s
  | some cr =>
    let lanes := if cr.twin && cr.running then (cr.bundleLanes tids).filter (·.issued) else []
    let threads := lanes.filterMap (fun l => (Table.get? cr.threads l.tid).map (fun th => (l.tid, th)))
    match threads.find? (fun e => e.2.twinStrike.isSome) with
    | some e => s.consumeError c Code.ue e.2.pc.toNat e.2.pc.toNat e.1
    | none => threads.foldl (fun (s : State) e =>
        (s.modThread c e.1 (fun th => { th with twinStrike := some th.pc })).restartThread c e.1) s

/-! ## Soft errors (R345) -/

/-- The unit of a place in a list of poisoned places: a check covers `unit` neighbouring places, and every one of them is
poisoned until it is overwritten (R345). -/
def mark (unit x : Nat) (l : List Nat) : List Nat :=
  (List.range unit).foldl (fun l i => insertId (x / unit * unit + i) l) l

/-- The accumulator elements of 32 bits that one check covers are two neighbours; an f64 element has its own. -/
def Lease.checkUnit (l : Lease) : Nat := if l.f64 then 1 else 2

/-- A soft error that the check of a place cannot correct, in the units of Table 23.1; a checkpoint slot's words lie two to
a unit of the die store. -/
def State.upset (s : State) : UpsetPlace → State
  | .laneReg c t r => s.modThread c t (fun th => { th with poison := mark 1 r th.poison })
  | .uniformReg c r g => s.modCrew c (fun cr => cr.modRole r (fun x => { x with upoison := mark 1 g x.upoison }))
  | .shared c a => s.modCrew c (fun cr => { cr with shPoison := mark 8 a cr.shPoison })
  | .crewDie c a => s.modCrew c (fun cr => { cr with window := { cr.window with poison := mark 8 a cr.window.poison } })
  | .launchDie l d a => s.modLaunch l (fun x => x.modWin d (fun w => { w with poison := mark 8 a w.poison }))
  | .slotWord c t k => s.modThread c t (fun th => { th with slotPoison := mark 2 k th.slotPoison })
  | .stackByte c t a => s.modThread c t (fun th => { th with stackPoison := mark 8 a th.stackPoison })
  | .tileWord c k w => s.modCrew c (fun cr => cr.modTile k (fun t => { t with poison := mark 4 (4 * w) t.poison }))
  | .acc d k u l e => s.modUnit d k u (fun m => m.modLease l (fun x => { x with accPoison := mark x.checkUnit e x.accPoison }))
  | .reservation d k u r a => s.modUnit d k u (fun m =>
      { m with reservations := Table.adjust m.reservations r (fun x => { x with poison := mark 8 a x.poison }) })
  | .main a => { s with mainPoison := mark 64 a s.mainPoison }
  | .reserve c => s.modCrew c (fun cr => { cr with reserve := cr.reserve.map (fun r => { r with poison := true }) })

/-- A crew whose arithmetic or window has gone wrong unseen (R346); a twin crew's are covered by its shadow bundles
(R354), so nothing of it does. -/
def State.slipCrew (s : State) (c : Nat) (f : Crew → Crew) : State := s.modCrew c (fun cr => if cr.twin then cr else f cr)

/-- A lease of a unit replaced by its image. -/
def State.modLease (s : State) (die cluster unit slot : Nat) (f : Lease → Lease) : State :=
  s.modUnit die cluster unit (fun m => m.modLease slot f)

/-- A stage whose cursors have gone wrong: its kind and its flags stand. -/
def Stage.slip (x : Stage) (record : Nat) : Stage :=
  { x with record := (record / 1024 * 1024 + x.record % 1024) % 2 ^ 512 }

/-- An error that no check covers (R346): a wrong value stands with a correct check. -/
def State.slip (s : State) : SlipPlace → State
  | .laneReg c t r v => s.slipCrew c (fun cr => cr.modThread t (fun th => { th with regs := Sparse.set 0#32 th.regs r v }))
  | .predicate c t v => s.slipCrew c (fun cr => cr.modThread t (fun th => { th with preds := v }))
  | .uniformReg c r g v => s.slipCrew c (fun cr =>
      cr.modRole r (fun x => if g < 63 then { x with uregs := Sparse.set 0#64 x.uregs g v } else x))
  | .window c t i v => s.slipCrew c (fun cr =>
      cr.modThread t (fun th => { th with trans := th.trans.modify i (fun h => { h with value := v }) }))
  | .claimRow d k u l r v => s.modLease d k u l (fun x =>
      { x with claim := x.claim.map (fun m => { m with rows := Table.adjust m.rows r (fun _ => v) }) })
  | .keptRow d k u l r v => s.modLease d k u l (fun x =>
      { x with kept := x.kept.map (fun m => Table.adjust m r (fun _ => v)) })
  | .cursor c k d r => s.modCrew c (fun cr =>
      { cr with iters := Table.adjust cr.iters k (fun st => { st with stages := st.stages.modify d (fun x => x.slip r) }) })
  | .stackByte c t a v => s.modThread c t (fun th => { th with stack := Mem.write th.stack a v })
  | .slotWord c t k v => s.modThread c t (fun th => { th with slot := Sparse.set 0#32 th.slot k v })
  | .reservation d k u l a v => s.modUnit d k u (fun m =>
      { m with reservations := Table.adjust m.reservations l (fun x => { x with bytes := Mem.write x.bytes a v }) })
  | .acc d k u l e v => s.modUnit d k u (fun m => m.modLease l (fun x => { x with acc := Sparse.set 0#64 x.acc e v }))
  | .element c k i x y => s.modCrew c (fun cr =>
      { cr with iters := Table.adjust cr.iters k (fun st => { st with pend := st.pend.modify i (fun e => { e with x := x, y := y }) }) })
  | .shared c a v => s.modCrew c (fun cr => { cr with shared := Mem.write cr.shared a v })
  | .crewDie c a v => s.modCrew c (fun cr => { cr with window := { cr.window with bytes := Mem.write cr.window.bytes a v } })
  | .launchDie l d a v => s.modLaunch l (fun x => x.modWin d (fun w => { w with bytes := Mem.write w.bytes a v }))
  | .tile c k a v => s.modCrew c (fun cr => cr.modTile k (fun t => { t with bytes := Mem.write t.bytes a v }))
  | .main a v => { s with devMem := Mem.write s.devMem a v }

/-! ## Tests on wake, and links -/

/-- A crew is resident on a cluster. -/
def State.occupied (s : State) (die cluster : Nat) : Bool :=
  s.crews.any (fun e => e.2.die = die && e.2.clusters.contains cluster)

/-- A value of the stage-2 configuration block, held to its range (R358, R360). -/
def clampTo (lo hi v : Nat) : Nat := Nat.max lo (Nat.min hi v)

/-- Stage 2 has opened the command windows, with CAP_BOOT and RAMP of its configuration block (notes/assumptions/43.md). -/
def State.opened (s : State) : State :=
  let bs := match Table.get? s.images 2 with | some i => i.bytes | none => []
  let cap := clampTo 1200 2000 (Config.configCap bs)
  { s with
    boot := .open, capBoot := cap, cap := cap, capNow := Nat.max cap s.capNow
    ramp := clampTo 50 1000 (Config.configRamp bs) }

/-- Every cluster of both C-dies has had its test: it is fenced, or awake. -/
def State.allTested (s : State) : Bool :=
  [0, 1].all (fun d => (List.range dieClusters).all (fun k => (s.cluster d k).fenced || !(s.cluster d k).gated))

/-- Stage 2 opens the command windows once it has tested every cluster (R362). -/
def State.afterTest (s : State) : State := if s.boot = .waiting 4 && s.allTested then s.opened else s

/-- The stage-2 firmware, which runs the test of R356, has been verified (R362). -/
def State.testsRun (s : State) : Bool := s.boot = .waiting 3 || s.boot = .waiting 4 || s.boot = .open

/-- CLUSTER_WAKE (R356): a cluster that is power-gated, as each is after a module reset, is tested; one that fails is
fenced, and the device log of function 0 says so. -/
def execClusterWake (die cluster : Nat) (passed : Bool) (s : State) : Host.Outcome State Fault Refusal :=
  .next (if !s.testsRun || s.occupied die cluster || !(s.cluster die cluster).gated || (s.cluster die cluster).fenced then s
    else if passed then (s.modCluster die cluster (fun k => { k with gated := false })).afterTest
    else
      let r : LogRecord :=
        { code := Code.wakeFail, action := 0, crew := 0xFFFFFFFF, info := cluster % 256 + die % 2 * 256, launch := 0,
          tick := s.tick, addr := 0, info2 := 0 }
      { s.modCluster die cluster (fun k => { k with fenced := true, gated := false }) with
        deviceLog := pushLog s.deviceLog r }.afterTest)

/-- UNRECOVERED_LINK (R345): the module stops. -/
def execUnrecoveredLink (s : State) : Host.Outcome State Fault Refusal := .next { s with stopped := true }

/-- A Hinge port as module reset leaves it. -/
def Port.fresh : Port := { lanes := 8, width := 8, narrowed := 8, peers := [], replays := 0 }

/-- A port by number. -/
def State.port (s : State) (p : Nat) : Port := (Table.get? s.ports p).getD Port.fresh

/-- FLIT_CRC_REPLAY (R335): a retry changes timing only; the port counts it. -/
def execFlitCrcReplay (port : Nat) (s : State) : Host.Outcome State Fault Refusal :=
  .next (if 12 ≤ port then s
    else
      let p := s.port port
      { s with ports := Table.put s.ports port { p with replays := p.replays + 1 } })

/-- The widest width whose lanes all work, below a limit: 0 is a port that is down (R336). -/
def widest (lanes limit : Nat) : Nat :=
  let n := Nat.min lanes limit
  if 8 ≤ n then 8 else if 4 ≤ n then 4 else if 2 ≤ n then 2 else 0

/-- LANE_FAILURE (R336). -/
def execLaneFailure (port : Nat) (s : State) : Host.Outcome State Fault Refusal :=
  .next (if 12 ≤ port then s
    else
      let p := s.port port
      let n := p.lanes - 1
      { s with ports := Table.put s.ports port { p with lanes := n, width := widest n p.narrowed } })

end Sys2Proof.Machine
end

