-- ==== Sys2Proof/Machine/Start.lean ====
section
/-! DEFINITION. What a crew's start gives its threads, roles and memories (R103, R282), and the machine with one
instruction placed where the next step fetches it. -/

namespace Sys2Proof.Machine

open Sys2Proof

/-- An index register at crew start (R103). -/
def IxReg.zero : IxReg := { base := 0, len := 0, cur := 0 }

/-- A thread at crew start (R103). -/
def Thread.start (role slice home : Nat) (entry : Word) (rot : Option (Nat × Nat)) : Thread :=
  { role := role, slice := slice, home := home, pc := entry, cameFrom := none, regs := [], preds := 0#7, rb := 0,
    rot := rot, ix0 := .zero, ix1 := .zero, ix2 := .zero, ix3 := .zero, sp := 0#32, icount := 0, pend := [],
    trans := [], fifo := [], ntStores := [], ntDone := [], tagCount := [], tagErr := [],
    region :=
      { head := entry, pred := 0#7, rb := 0, sp := 0#32, ix0 := .zero, ix1 := .zero, ix2 := .zero, ix3 := .zero,
        nlive := 0, lset := 0xFFFF },
    slot := [], inHandler := false, ended := false, wait := none, parkSeq := 0, parkLen := 0, parkWord := 0#32,
    parkPfx := 0#32, parkIssue := 0, trapSp := 0#32, atBarrier := false, barPassed := false, stack := [],
    stackAbsent := [], stackPoison := [], poison := [], slotPoison := [], twinStrike := none, callTag := none, mxPoison := none }

/-- g0 to g15 at crew start (R103). -/
def argRegs (args : List Dword) : Sparse Dword :=
  (args.take 16).zipIdx.foldl (fun m a => Sparse.set 0#64 m a.2 a.1) []

/-- The roles of a crew, their threads numbered role by role (R100). -/
def startRoles (weights : List Nat) (args : List Dword) : Nat → Nat → List (Nat × Nat) → List Role
  | _, _, [] => []
  | k, first, (b, n) :: rs =>
    { id := k, first := first, count := n, budget := b, weight := weights.getD k 0, uregs := argRegs args,
      upoison := [], uwriter := [], uconfSet := false, uconfReg := 0, uconfMulti := false } ::
      startRoles weights args (k + 1) (first + n) rs

/-- The threads of one role, in aligned blocks of w that share a home (R102): block j takes home code
homes[j] = slice + 6 × cluster of the pair, counted over the crew's blocks. -/
def startThreads (w : Nat) (pair : Bool) (homes : List Nat) (entry : Word) (rot : Option (Nat × Nat)) :
    Nat → List Role → Table Thread
  | _, [] => []
  | j, r :: rs =>
    (List.range r.count).map (fun i =>
      let h := homes.getD (j + i / w) 0
      (r.first + i, Thread.start r.id (h % 6) (if pair then h / 6 % 2 else 0) entry rot)) ++
      startThreads w pair homes entry rot (j + (r.count + w - 1) / w) rs

/-- A crew as its launch starts it (R103, R282). -/
def Crew.start (r : LaunchRecord) (e : Entry) (launch ctx : Nat) (srLaunch : Dword) (rot : Option (Nat × Nat))
    (index die cluster : Nat) (homes : List Nat) (now : Nat) : Crew :=
  let entry := BitVec.ofNat 32 e.entry
  let roles := startRoles r.weights r.args 0 0 (e.roleList r.nthread)
  let cr : Crew :=
    { launch := launch, ctx := ctx, index := index, srLaunch := srLaunch, die := die, cluster := cluster,
      pair := r.pair, width := r.width, stackSize := r.stack, handler := r.handler, obj := r.code, entry := r.entry,
      twin := r.twin || e.twin, bind := r.bind, roles := roles,
      threads := startThreads r.width r.pair homes entry rot 0 roles, tumblers := [], barGen := 0#32,
      sharedSize := e.shared, shared := [], shPoison := [],
      window := { size := e.dieCrew, bytes := [], lines := [], poison := [] }, saveArea := DieWindow.empty,
      tiles := List.replicate e.fleet Tile.fresh, copyTl := Timeline.zero, copyFailed := none, mxTl := [],
      iters := [], reserve := none, early := false, node := none, stopped := false, killed := false, consumed := none,
      consumedTick := 0, consumedTid := 0, consumedLogged := false, saving := none, saveC := 0, drainStart := now, inh := [], kickNamed := false,
      formed := none, system := [], areaUnits := [] }
  if r.rollback || e.rollback then { cr with reserve := some cr.openEpoch } else cr

/-! ## One instruction placed for the next step -/

/-- A kernel of one role with one thread of 256 registers, with some of every local space. -/
def loadedEntry : Entry :=
  { entry := 0, width := 0, twin := false, rollback := false, roles := [], regs := 16, shared := 4096, dieCrew := 4096,
    dieLaunch := 4096, fleet := 2 }

/-- The launch of that kernel: width 16, one crew, a stack, no trap handler, no handle bound. -/
def loadedRecord : LaunchRecord :=
  { code := 0, entry := 0, width := 16, prio := 0, kind := 0, pair := false, twin := false, rollback := false, dies := 1,
    ncrew := 1, stack := 4096, signal := none, nthread := 1, handler := none, weights := [1, 0, 0, 0, 0, 0, 0, 0],
    early := 0, gang := 0, bind := List.replicate 16 .unbound, deps := [], args := List.replicate 16 0#64 }

/-- A context as CTX_NEW makes it (R318), of function 0. -/
def Context.fresh (fn pasid : Nat) (prot : Bool) : Context :=
  { fn := fn, pasid := pasid, prot := prot, key := none, signKeys := [], pages := [], gone := [], saveCount := 0,
    callTl := Timeline.zero, weights := [], queues := [], turns := [], timelines := [], duty := [], log := [], objects := [], nextObj := 0,
    saved := [], classQueues := [] }

/-- The object that holds the placed words in its one group. -/
def loadedObject (bs : List Byte) : CodeObject :=
  { addr := 0, codeOff := 65536, codeLen := bs.length, groups := [bs.length], digests := [Config.sha384 bs], lsets := [],
    succ := [], entries := [loadedEntry], translated := none, rotate := [] }

/-- The bytes of an instruction of the opcode table, its first word at the lowest address, then words of zeros up to
the longest instruction, a prefix word with its base word (R60). -/
def loadedBytes (w : Nat) : List Byte := bytesOfWord (BitVec.ofNat 32 w) ++ leBytes (w / 2 ^ 32) 4

/-- The scratchpad of cluster 0 with the placed group resident. -/
def loadedFrame (bs : List Byte) : Frame :=
  { ctx := 0, obj := 0, group := 0, len := bs.length, bytes := Mem.writeBytes [] 0 bs, prefetched := false }

/-- The machine with a program of one instruction loaded from outside: object, launch and crew stand as a host's LOAD
and LAUNCH records and CREW_START would leave them, and the next move is the issue of the crew's one thread
(notes/assumptions/16.md). -/
def State.placed (s : State) (w : Nat) : State :=
  let bs := loadedBytes w
  let launch : Launch :=
    { ctx := 0, fn := 0, slot := 0, srLaunch := 0#64, record := loadedRecord, queue := 0, started := 1, sigOp := none,
      killed := none, cut := false, failedGroups := [], win0 := some { size := 4096, bytes := [], lines := [], poison := [] },
      win1 := none, nodes := [], hwChurn := [], groupTls := [], hashRecord := none, lateAborts := [] }
  { s with
    agenda := .issue 0 [0] :: s.agenda
    contexts := Table.put s.contexts 0 { Context.fresh 0 0 false with objects := [(0, loadedObject bs)], nextObj := 1 }
    launches := Table.put s.launches 0 launch
    clusters := Table.put s.clusters 0 { Cluster.fresh with frames := [loadedFrame bs], gated := false }
    crews := Table.put s.crews 0 (Crew.start loadedRecord loadedEntry 0 0 0#64 none 0 0 0 [] s.now) }

end Sys2Proof.Machine
end

