-- ==== Sys2Proof/Machine/Scheduler.lean ====
section
/-! DEFINITION. The scheduler: readiness, queue turns, room, the start of crews and of successor crews, eviction, and the
completion of a launch (R279 to R285, R295). -/

namespace Sys2Proof.Machine

open Sys2Proof

/-! ## Readiness and turns (R280, R281, R284) -/

/-- The counter of a named timeline of a context. -/
def State.namedCounter (s : State) (ctx n : Nat) : Nat :=
  match Table.get? s.contexts ctx with
  | some x => ((Table.get? x.timelines n).getD Timeline.zero).counter
  | none => 0

/-- Every dependence is met (R280). -/
def State.launchReady (s : State) (l : Launch) : Bool :=
  l.record.deps.all (fun d => decide (d.2 ≤ s.namedCounter l.ctx d.1))

/-- A gang that may start: pod firmware has installed it, it has not failed and has no launch yet (R342). -/
def State.gangOpen (s : State) (l : Launch) : Bool :=
  l.record.kind ≠ 2 || (match Table.get? s.gangs l.record.gang with
    | some g => !g.failed && (g.launch.isNone || decide (0 < l.started))
    | none => false)

/-- A head launch can start a crew on a die (R281, R284). -/
def State.candidate (s : State) (l : Launch) (die : Nat) : Bool :=
  !l.cut && decide (l.started < l.record.ncrew) && l.record.permits die && s.gangOpen l &&
    (s.launchReady l || (l.record.kind = 0 && decide (l.started < l.record.early)))

/-- The head launches of a context's queues: queue, launch number, launch. -/
def State.heads (s : State) (ctx : Nat) : List (Nat × Nat × Launch) :=
  match Table.get? s.contexts ctx with
  | none => []
  | some x => x.queues.filterMap (fun q =>
      match q.2 with
      | [] => none
      | l :: _ => (Table.get? s.launches l).map (fun r => (q.1, l, r)))

/-- The queue whose turn it is among those with candidates, in ascending number with wrap-around (R281). -/
def turnOf (cands : List Nat) (cur : Nat × Nat) : Option Nat :=
  if 0 < cur.2 ∧ cands.contains cur.1 then some cur.1
  else match cands.find? (fun q => decide (cur.1 < q)) with
    | some q => some q
    | none => cands.head?

/-- The turn of a priority on a die as it stands; before the first, queue 0 comes next. -/
def Context.turnAt (x : Context) (die prio : Nat) : Nat × Nat := (Table.get? x.turns (4 * die + prio)).getD (63, 0)

/-- A launch is the one whose next crew a die's scheduler considers (R281). -/
def State.hasTurn (s : State) (lid : Nat) (l : Launch) (die : Nat) : Bool :=
  match Table.get? s.contexts l.ctx with
  | none => false
  | some x =>
    let cands := (s.heads l.ctx).filter (fun h => s.candidate h.2.2 die)
    cands.any (fun h => h.2.1 = lid) && cands.all (fun h => decide (h.2.2.record.prio ≤ l.record.prio)) &&
      turnOf ((cands.filter (fun h => h.2.2.record.prio = l.record.prio)).map (·.1)) (x.turnAt die l.record.prio) =
        some l.queue

/-- The turn after a crew of a queue has started. -/
def Context.takeTurn (x : Context) (die prio q : Nat) : Context :=
  let t := x.turnAt die prio
  let left := if t.1 = q ∧ 0 < t.2 then t.2 else Sparse.get 1 x.weights q
  { x with turns := Table.put x.turns (4 * die + prio) (q, left - 1) }

/-! ## Room (R282, R351; notes/assumptions/30.md) -/

/-- The threads of a crew that are homed on one of its clusters. -/
def Crew.threadsOn (cr : Crew) (k : Nat) : List (Nat × Thread) := cr.threads.filter (fun e => cr.homeCluster e.2 = k)

/-- The registers, and the shared bytes, that a crew holds on one of its clusters: a thread that has ended holds no
registers (R174), and a pair crew's allocation lies in the lower cluster up to 768 KiB (R29). -/
def Crew.regsOn (cr : Crew) (k : Nat) : Nat :=
  (((cr.threadsOn k).filter (fun e => !e.2.ended)).map (fun e => cr.budget e.2.role)).sum
def Crew.sharedOn (cr : Crew) (k : Nat) : Nat :=
  if !cr.clusters.contains k then 0 else if k = cr.cluster then sharedLow cr.sharedSize else sharedHigh cr.sharedSize

/-- Bytes of the rollback reserve (Table 23.3). -/
def Crew.reserveBytes (cr : Crew) : Nat :=
  if cr.reserve.isNone then 0 else Sys2Proof.Machine.reserveBytes cr.sharedSize cr.threads.length cr.roles.length

/-- Bytes of a C-die's store that a crew holds. -/
def Crew.dieBytes (cr : Crew) : Nat := cr.window.size + cr.stackSize * cr.threads.length + cr.reserveBytes

/-- Bytes of launch windows on a die. -/
def State.windowBytes (s : State) (die : Nat) : Nat := (s.launches.map (fun l => (l.2.win die).size)).sum

/-- A cluster has room for what its crews hold, and is not fenced (R356). -/
def State.clusterHolds (s : State) (crs : List Crew) (die k : Nat) : Bool :=
  let on := crs.filter (fun c => c.die = die)
  !(s.cluster die k).fenced && decide ((on.map (fun c => c.regsOn k)).sum ≤ clusterRegs) &&
    decide ((on.map (fun c => (c.threadsOn k).length)).sum ≤ clusterThreads) &&
    decide ((on.map (fun c => c.sharedOn k)).sum ≤ clusterShared)

/-- The clusters of a crew are not power-gated: one that is passes its test before a crew is placed on it (R356). -/
def State.awake (s : State) (cr : Crew) : Bool := cr.clusters.all (fun k => !(s.cluster cr.die k).gated)

/-- There is room for one more crew, whose launch's window on its die takes so many further bytes; at most 1,024 of its
threads are homed on each of its clusters (R100). -/
def State.roomFor (s : State) (cr : Crew) (window : Nat) : Bool :=
  let crs := cr :: Table.vals s.crews
  let on := crs.filter (fun c => c.die = cr.die)
  cr.clusters.all (fun k => decide (k < dieClusters) && decide ((cr.threadsOn k).length ≤ crewThreads) &&
      s.clusterHolds crs cr.die k) &&
    (!cr.pair || cr.cluster % 2 = 0) &&
    decide ((on.map Crew.dieBytes).sum + s.windowBytes cr.die + window ≤ dieStoreBytes) &&
    decide ((on.map (fun c => c.tiles.length)).sum ≤ dieTiles)

/-! ## Starting a crew (R282, R283, R284, R295) -/

/-- The rotating region that an entry's kernel starts with. -/
def State.entryRotate (s : State) (ctx obj entry : Nat) : Option (Nat × Nat) :=
  match s.object? ctx obj with
  | some o => Table.get? o.rotate entry
  | none => none

/-- The home codes name a slice, and for a pair a cluster of it. -/
def homesOk (pair : Bool) (homes : List Nat) : Bool := homes.all (fun h => decide (h < (if pair then 12 else 6)))

/-- The crew that a launch's record, or a node's template, would start at a place. -/
def State.crewAt (s : State) (lid : Nat) (l : Launch) (r : LaunchRecord) (index die cluster : Nat) (homes : List Nat) :
    Option (Entry × Crew) :=
  (s.launchEntry l.ctx r).map (fun e =>
    (e, Crew.start r e lid l.ctx l.srLaunch (s.entryRotate l.ctx r.code r.entry) index die cluster homes s.now))

/-- Bytes of the launch window that the first crew on a die brings. -/
def Launch.newWindow (l : Launch) (die : Nat) (e : Entry) : Nat :=
  if (if die = 0 then l.win0 else l.win1).isSome then 0 else e.dieLaunch

/-- The launch with its window on a die allocated (R282). -/
def Launch.openWindow (l : Launch) (die size : Nat) : Launch :=
  let w : DieWindow := { size := size, bytes := [], lines := [], poison := [] }
  if die = 0 then { l with win0 := some (l.win0.getD w) } else { l with win1 := some (l.win1.getD w) }

/-- A crew becomes resident under a new identifier. -/
def State.putCrew (s : State) (cr : Crew) : State :=
  { s with nextId := s.nextId + 1, crews := Table.put s.crews s.nextId cr }

/-- The next crew of a launch started at the first place that has room, over the dies and clusters in order. -/
def State.firstFit (s : State) (lid : Nat) (l : Launch) : Option State :=
  let r := l.record
  let homes := if r.pair then (List.range 2048).map (fun i => 6 * (i % 2)) else []
  ((List.range 192).map (fun i => (i / 96, i % 96))).findSome? (fun p =>
    if !r.permits p.1 then none
    else match s.crewAt lid l r l.started p.1 p.2 homes with
      | none => none
      | some (e, cr) =>
        if s.roomFor cr (l.newWindow p.1 e) then
          some ((s.modLaunch lid (fun l => (l.openWindow p.1 e.dieLaunch))).putCrew cr)
        else none)

/-- The next n crews of a launch fit at once. -/
def State.fitsAll (s : State) (lid : Nat) (l : Launch) : Nat → Bool
  | 0 => true
  | n + 1 =>
    match s.firstFit lid l with
    | some t => match Table.get? t.launches lid with
      | some l' => State.fitsAll t lid { l' with started := l.started + 1 } n
      | none => false
    | none => false

/-- A cooperative or gang launch, of the function whose slice it is, has started some crews and not all: nothing else
starts until it has (R283). A launch is excepted from what it holds up itself. -/
def Launch.partStarted (l : Launch) : Bool :=
  l.record.kind ≠ 0 && decide (0 < l.started) && decide (l.started < l.record.ncrew) && !l.cut
def State.partStarted (s : State) (except : Option Nat) : Bool :=
  s.launches.any (fun l => some l.1 ≠ except && l.2.partStarted && (!s.slicing || s.slice = some (s.fnOf l.2.ctx)))

/-- The launch's queue moves on when every crew of its head has started and it is ready (R281, R284). -/
def State.advanceQueue (s : State) (lid : Nat) : State :=
  match Table.get? s.launches lid with
  | none => s
  | some l =>
    if l.cut || (l.started = l.record.ncrew && s.launchReady l) then
      s.modContext l.ctx (fun x =>
        { x with queues := Table.mapVals x.queues (fun q ls => if q = l.queue then ls.filter (· ≠ lid) else ls) })
    else s

/-- Every queue moves on as far as its heads allow. -/
def State.advanceQueues (s : State) : State := (Table.keys s.launches).foldl (fun (s : State) l => s.advanceQueue l) s

/-- A gang launch has started every crew: it acknowledges (R342). -/
def State.gangStarted (s : State) (lid : Nat) (l : Launch) : State :=
  if l.record.kind = 2 ∧ l.started + 1 = l.record.ncrew then
    let s := { s with gangs := Table.adjust s.gangs l.record.gang (fun g =>
      { g with launch := some lid, startedAt := s.now }) }
    s.send (.gangAck l.record.gang)
  else s

/-- It is a launch's turn on a die: by the rounds of R281, or because it has started a part of its crews and now starts
them all (R283). -/
def State.mayStart (s : State) (lid : Nat) (l : Launch) (die : Nat) : Bool :=
  s.hasTurn lid l die || (l.partStarted && s.candidate l die)

/-- The next crew of a launch placed, with the launch's window on its die. -/
def State.placeNext (s : State) (lid : Nat) (l : Launch) (e : Entry) (cr : Crew) : State :=
  (s.modLaunch lid (fun l => { l.openWindow cr.die e.dieLaunch with started := l.started + 1 })).putCrew
    { cr with early := !s.launchReady l }

/-- A launch's crews that have not started fit at once; an ordinary launch need not wait for that (R283). -/
def State.restFits (s : State) (lid : Nat) : Bool :=
  match Table.get? s.launches lid with
  | some l => l.record.kind = 0 || s.fitsAll lid l (l.record.ncrew - l.started)
  | none => false

/-- No crew of a context's function is being saved by its slice: the slice's save takes every crew at once (R298). -/
def State.sliceStands (s : State) (ctx : Nat) : Bool :=
  s.crews.all (fun x => s.fnOf x.2.ctx ≠ s.fnOf ctx || x.2.saving ≠ some .slice)

/-- The next crew of a launch starts at a place, if everything permits it. -/
def State.startNext (s : State) (lid : Nat) (l : Launch) (die cluster : Nat) (homes : List Nat) : State :=
  let r := l.record
  match s.crewAt lid l r l.started die cluster homes with
  | none => s
  | some (e, cr) =>
    if s.inSlice l.ctx && s.mayStart lid l die && homesOk r.pair homes && s.roomFor cr (l.newWindow die e) &&
        s.awake cr && !s.partStarted (some lid) && (s.placeNext lid l e cr).restFits lid &&
        s.sliceStands l.ctx
    then
      let s := (s.placeNext lid l e cr).modContext l.ctx (fun x => x.takeTurn die r.prio l.queue)
      (s.gangStarted lid l).advanceQueues
    else s

/-- The record that a successor crew of a node runs under (R295): ARG14 and ARG15 are QOFF and B. -/
def successorRecord (r : LaunchRecord) (qoff b : Nat) : LaunchRecord :=
  { r with args := (r.args.take 14) ++ [BitVec.ofNat 64 qoff, BitVec.ofNat 64 b] }

/-- Some crew of the launch that is not a successor runs, is saved, or has not started. -/
def State.emitters (s : State) (lid : Nat) (l : Launch) : Bool :=
  (decide (l.started < l.record.ncrew) && !l.cut) || s.crews.any (fun e => e.2.launch = lid && e.2.node.isNone && !e.2.killed) ||
    (match Table.get? s.contexts l.ctx with
     | some x => x.saved.any (fun v => v.launch = lid && v.crew.node.isNone)
     | none => false)

/-- The bytes of a launch's window on a die. -/
def Launch.readWin (l : Launch) (die off n : Nat) : List Byte := Mem.readBytes (l.win die).bytes (inWindow off) n

/-- A successor crew of a node starts and takes b records (R295): the oldest ones, so that FIRST is the tick of the oldest
emit that PEND still counts (Table 17.5). The launch's window must be on the die (R306). -/
def State.startSuccessor (s : State) (lid : Nat) (l : Launch) (n : GraphNode) (v : NodeView) (b cluster : Nat)
    (homes : List Nat) : State :=
  match s.crewAt lid l (successorRecord n.template v.qoff b) v.launched n.die cluster homes with
  | none => s
  | some (_, cr) =>
    if s.inSlice l.ctx && s.sliceStands l.ctx && !s.windowSaved cr && homesOk n.template.pair homes && s.roomFor cr 0 &&
        s.awake cr && !s.partStarted none && !l.cut then
      let ticks := n.ticks.drop b
      let v' := { v with pend := v.pend - b, launched := v.launched + 1, first := ticks.headD v.first }
      let s := s.modLaunch lid (fun l =>
        (l.putNode n.die n.off n.template ticks).modWin n.die (fun w => w.write (inWindow n.off) (leBytes (nodeNat v') 64)))
      s.putCrew { cr with node := some n.off }
    else s

/-- A node whose record holds an uncorrectable error: the scheduler cannot read it, and gives its records to no crew
(notes/assumptions/83.md). -/
def Launch.nodePoisoned (l : Launch) (n : GraphNode) : Bool := poisonHit (l.win n.die).poison 8 (inWindow n.off) 64

/-- The node of a launch at an offset on a die. -/
def Launch.nodeAt (l : Launch) (die off : Nat) : Option (GraphNode × NodeView) :=
  (l.nodes.find? (fun n => n.die = die && n.off = off && !l.nodePoisoned n)).map (fun n => (n, viewNode (leNat (l.readWin die off 64))))

/-- CREW_START (R281 to R284, and R295 for a node whose pending records reach COAL). -/
def execCrewStart (launch die cluster : Nat) (node : Option Nat) (homes : List Nat) (s : State) :
    Host.Outcome State Fault Refusal :=
  .next (match Table.get? s.launches launch with
    | none => s
    | some l =>
      match node with
      | none => s.startNext launch l die cluster homes
      | some off =>
        match l.nodeAt die off with
        | none => s
        | some (n, v) => if v.coal ≤ v.pend then s.startSuccessor launch l n v v.coal cluster homes else s)

/-- NODE_FLUSH_TIMER (R295): the oldest pending emit is FLUSH ticks old, or the emitting launch's last crew has ended. -/
def execNodeFlushTimer (launch die node cluster : Nat) (homes : List Nat) (s : State) : Host.Outcome State Fault Refusal :=
  .next (match Table.get? s.launches launch with
    | none => s
    | some l =>
      match l.nodeAt die node with
      | none => s
      | some (n, v) =>
        if 0 < v.pend ∧ (v.first + v.flush ≤ s.tick ∨ !s.emitters launch l) then
          s.startSuccessor launch l n v v.pend cluster homes
        else s)

/-! ## The end of a launch (R196, R279, R295) -/

/-- Every effect of a launch has performed: its last crew and successor crew have left the device, which they do once
their accesses have performed; its collective operations have ended; and no node has pending records. -/
def State.launchOver (s : State) (lid : Nat) (l : Launch) : Bool :=
  (l.cut || l.started = l.record.ncrew) && s.crews.all (fun e => e.2.launch ≠ lid) &&
    (match Table.get? s.contexts l.ctx with
     | some x => x.saved.all (fun v => v.launch ≠ lid)
     | none => true) &&
    s.colops.all (fun o => o.2.launch ≠ lid || o.2.closed) &&
    (l.cut || l.nodes.all (fun n => l.nodePoisoned n || (viewNode (leNat (l.readWin n.die n.off 64))).pend = 0))

/-- A named timeline's operation completes, and queues whose heads become ready move on. -/
def State.finishNamed (s : State) (ctx n op : Nat) : State :=
  (s.modContext ctx (fun x =>
    { x with timelines := Table.put x.timelines n (((Table.get? x.timelines n).getD Timeline.zero).finish op) })).advanceQueues

/-- A gang whose launch has completed: one acknowledgement of each member belonged to it. -/
def Gang.finished (g : Gang) : Gang :=
  { g with launch := none, acks := g.members.foldl List.erase g.acks, localArrived := [], passed := [] }

/-- LAUNCH_COMPLETE (R279): the record of a CODE_HASH is written, the operation of SIGNAL completes, and the LAUNCH record
has its result. -/
def execLaunchComplete (launch : Nat) (s : State) : Host.Outcome State Fault Refusal :=
  .next (match Table.get? s.launches launch with
    | none => s
    | some l =>
      if !s.launchOver launch l then s
      else
        let s := match l.hashRecord with
          | some r => s.log l.ctx r.1 none r.2
          | none => s
        let s := s.recordResult l.fn l.slot (match l.killed with | some k => k.1 | none => Code.ok) l.srLaunch
        let s := s.modContext l.ctx (fun x =>
          { x with queues := Table.mapVals x.queues (fun _ ls => ls.filter (· ≠ launch)) })
        let s := { s with
          launches := Table.drop s.launches launch
          colops := s.colops.filter (fun o => o.2.launch ≠ launch)
          gangs := Table.mapVals s.gangs (fun _ g => if g.launch = some launch then g.finished else g) }
        match l.record.signal, l.sigOp with
        | some n, some op => s.finishNamed l.ctx n op
        | _, _ => s.advanceQueues)

/-! ## Eviction (R285) -/

/-- A launch is a producer of another (R285). -/
def State.producer (s : State) (p l : Launch) : Bool :=
  p.ctx = l.ctx && decide (p.started < p.record.ncrew) && !p.cut &&
    match p.record.signal, p.sigOp with
    | some n, some op =>
      l.record.deps.any (fun d => d.1 = n && decide (s.namedCounter l.ctx n < d.2) && decide (op ≤ d.2))
    | _, _ => false

/-- The producers of a launch that have a crew to start. -/
def State.producersOf (s : State) (l : Launch) : List (Nat × Launch) := s.launches.filter (fun p => s.producer p.2 l)

/-- The crew is an early crew of a launch that is not ready, no early crew of those launches started later, and none of
them is being saved: what that one frees may be room enough. -/
def State.evictable (s : State) (c : Nat) (cr : Crew) (p : Launch) : Bool :=
  let earlyOf := fun (x : Crew) => x.early && !x.killed && match Table.get? s.launches x.launch with
    | some l => !s.launchReady l && s.producer p l
    | none => false
  earlyOf cr && s.crews.all (fun e => !earlyOf e.2 || (e.2.saving.isNone && decide (e.1 ≤ c)))

/-- The next crew of a producer, a head launch and a candidate, fits nowhere; of a cooperative producer, not all of its
crews fit at once (R283, R285). A consumer whose own early crew waits for room in its turn, or has the higher priority,
does not put it off: its quota of early crews is bounded. -/
def State.producerStuck (s : State) (pid : Nat) (p : Launch) : Bool :=
  (s.heads p.ctx).any (fun h => h.2.1 = pid) && [0, 1].any (s.candidate p) && ((s.firstFit pid p).isNone || !s.restFits pid)

/-- The save of a crew begins: C grows for its context, and the operation keeps it (R299). -/
def State.beginSave (s : State) (c : Nat) (k : SaveKind) (count : Bool) : State :=
  match s.crew? c with
  | none => s
  | some cr =>
    let s := if count then s.modContext cr.ctx (fun x => { x with saveCount := x.saveCount + 1 }) else s
    let n := match Table.get? s.contexts cr.ctx with | some x => x.saveCount | none => 0
    (s.modCrew c (fun x =>
      { x with
        saving := some k
        saveC := n
        inh := x.threads.filterMap (fun e => if e.2.inHandler && !e.2.ended then some e.1 else none) })).settleCrew c

/-- The scheduler evicts an early crew (R285). -/
def State.evict (s : State) (c : Nat) : State :=
  match s.crew? c with
  | none => s
  | some cr =>
    if s.launches.any (fun p => s.evictable c cr p.2 && s.producerStuck p.1 p.2) then s.beginSave c .eviction true else s

end Sys2Proof.Machine
end

