-- ==== Sys2Proof/Machine/Image.lean ====
section
/-! DEFINITION. The context image: its header, its sections and their items, written and read (R304, R305, R312, and the
item formats of R225, R249, R251, R274 and Table 23.3). -/

namespace Sys2Proof.Machine

open Sys2Proof

/-! ## Items -/

/-- A set of crew thread ids in 256 bytes: bit i is id i (Table 18.4). -/
def idSet (ids : List Nat) : List Byte := leBytes ((ids.map (fun i => 2 ^ i)).sum) 256
def idsOf (bs : List Byte) : List Nat :=
  let v := leNat bs
  (List.range 2048).filter (fun i => v.testBit i)

/-- A slice of a byte list. -/
def part (bs : List Byte) (off n : Nat) : List Byte := (bs.drop off).take n
def partNat (bs : List Byte) (off n : Nat) : Nat := leNat (part bs off n)

/-- An index register as a region record holds it (Table 6.6). -/
def ixNat (x : IxReg) : Nat := x.base % 256 + x.len % 512 * 2 ^ 8 + x.cur % 512 * 2 ^ 17
def ixOf (v : Nat) : IxReg := { base := bitsOf v 7 0, len := bitsOf v 16 8, cur := bitsOf v 25 17 }

/-- The region record (Table 6.6). -/
def regionNat (r : Region) : Nat :=
  r.head.toNat + r.pred.toNat * 2 ^ 32 + r.rb % 64 * 2 ^ 40 + r.sp.toNat / 4 % 2 ^ 15 * 2 ^ 48 + ixNat r.ix0 * 2 ^ 64 +
    ixNat r.ix1 * 2 ^ 96 + ixNat r.ix2 * 2 ^ 128 + ixNat r.ix3 * 2 ^ 160 + r.nlive * 2 ^ 192 + r.lset * 2 ^ 200
def regionOf (v : Nat) : Region :=
  { head := BitVec.ofNat 32 (bitsOf v 31 0), pred := BitVec.ofNat 7 (bitsOf v 38 32), rb := bitsOf v 45 40,
    sp := BitVec.ofNat 32 (4 * bitsOf v 62 48), ix0 := ixOf (bitsOf v 95 64), ix1 := ixOf (bitsOf v 127 96),
    ix2 := ixOf (bitsOf v 159 128), ix3 := ixOf (bitsOf v 191 160), nlive := bitsOf v 198 192, lset := bitsOf v 215 200 }

/-- The checkpoint slot: 64 words. -/
def slotBytes (m : Sparse Word) : List Byte := (List.range 64).flatMap (fun k => leBytes (Sparse.get 0#32 m k).toNat 4)
def slotOf (bs : List Byte) : Sparse Word :=
  (List.range 64).foldl (fun m k => Sparse.set 0#32 m k (BitVec.ofNat 32 (partNat bs (4 * k) 4))) []

/-- A ROLES item. -/
def Role.item (r : Role) : List Byte :=
  leBytes r.uconf.toNat 16 ++ (List.range 64).flatMap (fun k => leBytes (Sparse.get 0#64 r.uregs k).toNat 8)

/-- A role as an item sets it: its registers and sr.uconf, in a new uniform epoch (R309). What held an uncorrectable error
when it was saved still holds it: here, in the other items, and in a snapshot (R357; notes/assumptions/92.md). -/
def Role.fill (r : Role) (bs : List Byte) : Role :=
  let u := partNat bs 0 4
  { r with
    uregs := (List.range 63).foldl (fun m k => Sparse.set 0#64 m k (BitVec.ofNat 64 (partNat bs (16 + 8 * k) 8))) []
    uwriter := [], uconfSet := bitsOf u 0 0 = 1, uconfReg := bitsOf u 6 1, uconfMulti := bitsOf u 7 7 = 1 }

/-- A TUMBLERS item. -/
def Tumbler.item (t : Tumbler) : List Byte := leBytes t.gen.toNat 16 ++ idSet t.declared ++ idSet t.signed ++ idSet t.weld
def tumblerOf (bs : List Byte) : Tumbler :=
  { gen := BitVec.ofNat 32 (partNat bs 0 4), declared := idsOf (part bs 16 256), signed := idsOf (part bs 272 256),
    weld := idsOf (part bs 528 256), orphan := false }

/-- Sixteen tumblers. -/
def tumblersBytes (t : Sparse Tumbler) : List Byte := (List.range 16).flatMap (fun k => (Sparse.get Tumbler.fresh t k).item)
def tumblersOf (bs : List Byte) : Sparse Tumbler :=
  (List.range 16).foldl (fun m k => Sparse.set Tumbler.fresh m k (tumblerOf (part bs (784 * k) 784))) []

/-- A thread item (Table 18.5). -/
def Thread.item (th : Thread) (tid : Nat) (inh : Bool) : List Byte :=
  leBytes (tid + (if inh then 2 ^ 16 else 0) +
      (match th.callTag with | some g => 2 ^ 17 + g * 2 ^ 32 | none => 0)) 16 ++
    leBytes (regionNat th.region) 32 ++ slotBytes th.slot ++
    (List.range 8).flatMap (fun k => match Table.get? th.tagErr k with
      | some e => leBytes (e.code.toNat + e.addr * 2 ^ 64) 16
      | none => leBytes 0 16) ++
    leBytes 0 16

/-- A thread item that breaks Table 18.5 or whose region names no live-in set (R308). -/
def threadItemBad (bs : List Byte) (nlset : Nat) : Bool :=
  let h := partNat bs 0 16
  let r := regionOf (partNat bs 16 32)
  bitsOf h 31 18 ≠ 0 || bitsOf h 127 48 ≠ 0 || partNat bs 432 16 ≠ 0 ||
    !(decide (r.lset < nlset) || (r.lset = 0xFFFF && r.nlive = 0))

/-- A thread as an item sets it, at its region head (R125, R309). -/
def Thread.fill (th : Thread) (bs : List Byte) (live : List Nat) : Thread :=
  let h := partNat bs 0 16
  let th := { th with
    region := regionOf (partNat bs 16 32), slot := slotOf (part bs 48 256)
    callTag := if bitsOf h 17 17 = 1 then some (bitsOf h 47 32) else none
    tagErr := (List.range 8).filterMap (fun k =>
      let v := partNat bs (304 + 16 * k) 16
      if bitsOf v 15 0 = 0 then none
      else some (k, { code := BitVec.ofNat 16 (bitsOf v 15 0), addr := bitsOf v 127 64 })) }
  th.restart live

/-- The faulted-line bitmap of a window (Table 18.4, DIE). -/
def DieWindow.lineCount (w : DieWindow) : Nat := (w.size + 63) / 64
def DieWindow.faultMap (w : DieWindow) : List Byte :=
  leBytes ((((List.range w.lineCount).filter (fun l => (w.line l).faulted)).map (fun l => 2 ^ l)).sum) ((w.lineCount + 7) / 8)
def DieWindow.item (w : DieWindow) : List Byte := Mem.readBytes w.bytes 0 w.size ++ w.faultMap
def DieWindow.itemLen (w : DieWindow) : Nat := w.size + (w.lineCount + 7) / 8

/-- A window as an item sets it: faulted lines stay faulted (R309). -/
def DieWindow.fill (w : DieWindow) (bs : List Byte) : DieWindow :=
  let m := leNat (bs.drop w.size)
  let w' : DieWindow := { size := w.size, bytes := Mem.writeBytes [] 0 (bs.take w.size), lines := [], poison := w.poison }
  (List.range w.lineCount).foldl (fun (x : DieWindow) l =>
    if m.testBit l then x.modLine l (fun _ => { present := false, writers := 0, faulted := true }) else x) w'

/-- A tile's entry (R225) at a tick. -/
def Tile.item (t : Tile) (k tick : Nat) : List Byte :=
  leBytes ((t.status tick).toNat + k * 2 ^ 64) 16 ++
    (if t.live tick then Mem.readBytes t.bytes 0 4096 ++
      (if t.poison = [] then [] else leBytes (((t.poison.map (· / 4)).eraseDups.map (fun w => 2 ^ w)).sum) 128) else [])

/-- The bytes of a tile's entry, from its descriptor. -/
def tileItemLen (h : Nat) : Nat :=
  16 + (if bitsOf h 9 9 = 1 then 4096 + (if bitsOf h 13 13 = 1 then 128 else 0) else 0)

/-- A tile's entry that R226 refuses, for a crew of so many tiles. -/
def tileItemBad (h tiles : Nat) : Bool :=
  bitsOf h 127 96 ≠ 0 || decide (256 < bitsOf h 8 0) ||
    ((bitsOf h 9 9 = 1) != decide (bitsOf h 8 0 ≠ 0)) || decide (tiles ≤ bitsOf h 95 64)

/-- A tile as its entry restores it at a tick (R226). The POISON of an expired tile is a status without data: its mark stands
at word 0. -/
def tileOf (bs : List Byte) (tick : Nat) : Tile :=
  let h := partNat bs 0 16
  let live := bitsOf h 9 9 = 1
  { bytes := if live then Mem.writeBytes [] 0 (part bs 16 4096) else []
    birth := if live then (tick : Int) - (256 - bitsOf h 8 0) else (tick : Int) - 256
    born := bitsOf h 10 10 = 1, freed := bitsOf h 11 11 = 1, storeExp := bitsOf h 12 12 = 1, expLoads := bitsOf h 31 16
    poison :=
      if bitsOf h 13 13 = 0 then []
      else if live then
        let m := leNat (bs.drop 4112)
        (List.range 4096).filter (fun a => m.testBit (a / 4))
      else [0, 1, 2, 3]
    lives := 0 }

/-- A stack's image (R274). An element whose record has been settled comes from no record in BUF (R269). -/
def ItStack.image (st : ItStack) (k : Nat) : List Byte :=
  let ids := match st.stages with | x :: _ => x.bufIds | [] => []
  leBytes (st.word + k * 2 ^ 64) 64 ++ st.stages.flatMap (fun x => leBytes x.image 64) ++
    st.pend.flatMap (fun e => leBytes (e.x.toNat + e.y.toNat * 2 ^ 32 + (match e.origin with
      | some o => (match ids.idxOf? o with | some i => i * 2 ^ 64 + 2 ^ 66 | none => 0)
      | none => 0)) 16)

/-- The bytes of a stack's image, from its head. -/
def itImageLen (h : Nat) : Nat := 64 + 64 * bitsOf h 3 0 + 16 * bitsOf h 14 8

/-- A record whose KIND is refused, or a QUEUE with more than four records in BUF (Tables 15.2 and 15.3). -/
def itKindBad (r : Nat) : Bool :=
  let k := recKind r
  k = 0 || (5 ≤ k && k ≤ 7) || 13 ≤ k || (k = 4 && decide (4 < bitsOf r 102 100))

/-- A stack's image whose head, records or entries fail their checks (R258, R274). -/
def itImageBad (bs : List Byte) : Bool :=
  let h := partNat bs 0 64
  let depth := bitsOf h 3 0
  depth = 0 || decide (8 < depth) || bitsOf h 6 6 ≠ 0 || bitsOf h 511 67 ≠ 0 || decide (64 < bitsOf h 14 8) ||
    (List.range depth).any (fun d =>
      let r := partNat bs (64 + 64 * d) 64
      itKindBad r || (itRecBad (setBits r 8 8 0)).isSome || ((d = 0) != decide (recKind r < 8))) ||
    (List.range (bitsOf h 14 8)).any (fun i => bitsOf (partNat bs (64 + 64 * depth + 16 * i) 16) 127 67 ≠ 0)

/-- A stack as its image restores it: a flatten that held its work expands the newest record's element. Another adaptor
holds its input in the image of a failed stack alone: no pull asks that stack again, and only its HOLD shows
(notes/assumptions/93.md). -/
def itStackOf (bs : List Byte) : ItStack :=
  let h := partNat bs 0 64
  let depth := bitsOf h 3 0
  let source := partNat bs 64 64
  let n := if recKind source = 4 then bitsOf source 102 100 else 0
  let first := bitsOf source 159 128 - n
  let ids := (List.range n).map (fun i => first + i)
  { stages := (List.range depth).map (fun d =>
      let r := partNat bs (64 + 64 * d) 64
      let hold := bitsOf r 8 8 = 1 && (recKind r = 12 || bitsOf h 5 5 = 1)
      let flat := hold && recKind r = 12
      { record := setBits r 8 8 0
        held := if flat then some { x := BitVec.ofNat 32 (bitsOf r 159 128), y := 0#32, origin := ids.getLast? }
          else if hold then some { x := 0#32, y := 0#32, origin := none } else none
        ready := false
        expanding := flat
        bufIds := if d = 0 then ids else [] })
    ended := bitsOf h 4 4 = 1
    failed := bitsOf h 5 5 = 1
    fcode := BitVec.ofNat 16 (bitsOf h 31 16)
    pend := (List.range (bitsOf h 14 8)).map (fun i =>
      let v := partNat bs (64 + 64 * depth + 16 * i) 16
      { x := BitVec.ofNat 32 (bitsOf v 31 0), y := BitVec.ofNat 32 (bitsOf v 63 32)
        origin := if bitsOf v 66 66 = 1 then ids[bitsOf v 65 64]? else none })
    deliv := bitsOf h 63 32
    pull := none
    flight := none }

/-- The rollback reserve, in the order of Table 23.3. -/
def Reserve.image (r : Reserve) (size : Nat) : List Byte :=
  let map := (size + 63) / 64
  leBytes ((if r.outward then 1 else 0) + (if r.used then 2 else 0) + r.barGen.toNat * 2 ^ 32) 16 ++
    Mem.readBytes r.shadow 0 size ++ leBytes ((r.shadowed.map (fun l => 2 ^ l)).sum) ((map + 127) / 128 * 16) ++
    r.threads.flatMap (fun e => leBytes (regionNat e.2.region) 32 ++ slotBytes e.2.slot) ++
    r.roles.flatMap Role.item ++ tumblersBytes r.tumblers

/-- The reserve as its image restores it, over the threads and roles that the save's own reserve had. -/
def Reserve.fill (r : Reserve) (size : Nat) (bs : List Byte) : Reserve :=
  let mapLen := ((size + 63) / 64 + 127) / 128 * 16
  let map := partNat bs (16 + size) mapLen
  let t0 := 16 + size + mapLen
  let r0 := t0 + 288 * r.threads.length
  { outward := bitsOf (partNat bs 0 16) 0 0 = 1, used := bitsOf (partNat bs 0 16) 1 1 = 1
    barGen := BitVec.ofNat 32 (partNat bs 4 4), shadow := Mem.writeBytes [] 0 (part bs 16 size)
    shadowed := (List.range ((size + 63) / 64)).filter (fun l => map.testBit l)
    threads := r.threads.zipIdx.map (fun e =>
      (e.1.1, { e.1.2 with
        region := regionOf (partNat bs (t0 + 288 * e.2) 32), slot := slotOf (part bs (t0 + 288 * e.2 + 32) 256) }))
    roles := r.roles.zipIdx.map (fun e => e.1.fill (part bs (r0 + 528 * e.2) 528))
    tumblers := tumblersOf (bs.drop (r0 + 528 * r.roles.length))
    shadowPoison := r.shadowPoison
    poison := r.poison }

/-! ## The image of a crew (R304, R305, R312) -/

/-- A section: its type, its count, its body. -/
structure Section where
  type : Nat
  count : Nat
  body : List Byte
deriving DecidableEq, Repr

/-- Zero bytes up to a multiple of 16. -/
def padding (n : Nat) : Nat := (16 - n % 16) % 16

/-- A section's bytes. -/
def Section.bytes (x : Section) : List Byte :=
  leBytes (x.type + x.count * 2 ^ 32 + x.body.length * 2 ^ 64) 16 ++ x.body ++ List.replicate (padding x.body.length) 0#8

/-! ## The save area (R302) -/

/-- The image of a lease or of a reservation in a crew's save area: its cluster of the pair, its unit and slot, and the
bytes of it that hold an error. -/
structure UnitImage where
  half : Nat
  unit : Nat
  lease : Bool
  slot : Nat
  bytes : List Byte
  poison : List Nat
deriving DecidableEq, Repr

/-- The slots in the order in which the save area holds them: of each unit that has been drained the leases and then the
reservations. -/
def Crew.areaSlots (cr : Crew) : List (Nat × Nat × Bool × Nat) :=
  cr.areaUnits.flatMap (fun ku =>
    (List.range 8).map (fun i => (ku.1 - cr.cluster, ku.2, true, i)) ++
      (List.range 32).map (fun i => (ku.1 - cr.cluster, ku.2, false, i)))

/-- The images that stand behind one another from an offset on; a slot that the crew does not hold has a header that is
not valid. -/
def readArea (w : DieWindow) : Nat → List (Nat × Nat × Bool × Nat) → List UnitImage
  | _, [] => []
  | off, x :: r =>
    let h := Mem.readNat w.bytes off 64
    let n := if x.2.2.1 then leaseImageLen h else resImageLen h
    let rest := readArea w (off + n) r
    if bitsOf h 0 0 = 0 then rest
    else
      { half := x.1, unit := x.2.1, lease := x.2.2.1, slot := x.2.2.2, bytes := Mem.readBytes w.bytes off n,
        poison := w.poisonIn off n } :: rest

/-- The leases and the reservations of a crew that the handler of R302 has drained. -/
def Crew.drained (cr : Crew) (lease : Bool) : List UnitImage :=
  (readArea cr.saveArea 0 cr.areaSlots).filter (fun x => x.lease == lease)

/-- The leases and the reservations of a crew: cluster of the pair, unit, slot. -/
def State.leaseSlots (s : State) (c : Nat) (cr : Crew) : List (Nat × Nat × Nat) :=
  cr.units.flatMap (fun ku => (s.unit cr.die ku.1 ku.2).leases.filterMap (fun e =>
    if e.2.crew = c then some (ku.1 - cr.cluster, ku.2, e.1) else none))
def State.resSlots (s : State) (c : Nat) (cr : Crew) : List (Nat × Nat × Nat) :=
  cr.units.flatMap (fun ku => (s.unit cr.die ku.1 ku.2).reservations.filterMap (fun e =>
    if e.2.crew = c then some (ku.1 - cr.cluster, ku.2, e.1) else none))

/-- The threads of a crew that have not ended. -/
def Crew.liveThreads (cr : Crew) : List (Nat × Thread) := cr.threads.filter (fun e => !e.2.ended)

/-- The sections that R312 gives for a crew, in ascending type; its leases and reservations stand in its save area. -/
def State.sections (s : State) (cr : Crew) (whole : Bool) : List Section :=
  let live := cr.liveThreads
  let leases := cr.drained true
  let ress := cr.drained false
  let opt := fun (p : Bool) (x : Section) => if p then [x] else []
  [ { type := 1, count := cr.roles.length, body := cr.roles.flatMap Role.item },
    { type := 2, count := 16, body := tumblersBytes cr.tumblers },
    { type := 3, count := 1,
      body := leBytes cr.barGen.toNat 16 ++
        idSet (cr.threads.filterMap (fun e => if e.2.atBarrier then some e.1 else none)) },
    { type := 4, count := live.length, body := live.flatMap (fun e => e.2.item e.1 (cr.inh.contains e.1)) },
    { type := 5, count := 1, body := Mem.readBytes cr.shared 0 cr.sharedSize } ] ++
    opt (decide (0 < cr.window.size)) { type := 6, count := 1, body := cr.window.item } ++
    opt (decide (0 < cr.stackSize))
      { type := 7, count := live.length, body := live.flatMap (fun e => Mem.readBytes e.2.stack 0 cr.stackSize) } ++
    opt (cr.tiles ≠ []) { type := 8, count := cr.tiles.length, body := cr.tiles.zipIdx.flatMap (fun (t : Tile × Nat) => t.1.item t.2 s.tick) } ++
    opt (leases ≠ [])
      { type := 9, count := leases.length,
        body := leases.flatMap (·.bytes) } ++
    opt (ress ≠ [])
      { type := 10, count := ress.length,
        body := ress.flatMap (·.bytes) } ++
    opt (cr.iters ≠ []) { type := 11, count := cr.iters.length, body := cr.iters.flatMap (fun e => e.2.image e.1) } ++
    (match cr.reserve with
     | some r => [{ type := 12, count := 1, body := r.image cr.sharedSize }]
     | none => []) ++
    opt whole { type := 13, count := 1, body := (s.window cr launchBase).item }

/-- The 64-byte header (Table 18.3). -/
def imageHeader (prot whole : Bool) (counter ctx index nsect bytes : Nat) (launch : Dword) : Nat :=
  0x43584D49 + 2 ^ 32 + (if prot then 2 ^ 48 else 0) + (if whole then 2 ^ 49 else 0) + counter * 2 ^ 64 + ctx * 2 ^ 128 +
    launch.toNat * 2 ^ 160 + index * 2 ^ 224 + nsect * 2 ^ 256 + bytes * 2 ^ 320

/-- The IV of an image (R307). -/
def imageIv (ctx counter : Nat) : BitVec 96 := BitVec.ofNat 96 (ctx % 2 ^ 32 + counter % 2 ^ 64 * 2 ^ 32)

/-- The plaintext or ciphertext under the keystream of AES-256-GCM (R307). -/
def gcmCipher (key : BitVec 256) (iv : BitVec 96) (bs : List Byte) : List Byte :=
  bs.zipIdx.map (fun b => b.1 ^^^ Config.gcmStream key iv b.2)

/-- The image of a crew under a save counter (R304), sealed for a context with a key (R307). -/
def State.imageOf (s : State) (cr : Crew) (whole : Bool) (prot : Bool) (key : BitVec 256) (counter : Nat) : List Byte :=
  let xs := s.sections cr whole
  let body := xs.flatMap Section.bytes
  let bytes := 64 + body.length + (if prot then 16 else 0)
  let head := leBytes (imageHeader prot whole counter cr.ctx cr.index xs.length bytes cr.srLaunch) 64
  if prot then
    let iv := imageIv cr.ctx counter
    let ct := gcmCipher key iv body
    head ++ ct ++ leBytes (Config.gcmTag key iv head ct).toNat 16
  else head ++ body

/-! ## Reading an image (R308) -/

/-- The sections of a body, each with its padding; none when a head breaks R304 or bytes are left over. -/
def readSections : Nat → List Byte → Option (List Section)
  | 0, bs => if bs = [] then some [] else none
  | n + 1, bs =>
    let h := partNat bs 0 16
    let len := bitsOf h 127 64
    if bs.length < 16 + len + padding len || bitsOf h 31 8 ≠ 0 then none
    else match readSections n (bs.drop (16 + len + padding len)) with
      | some xs => some ({ type := bitsOf h 7 0, count := bitsOf h 63 32, body := part bs 16 len } :: xs)
      | none => none

/-- Items that carry their own length: n of them from a body, which they fill exactly. -/
def readItems (len : List Byte → Nat) : Nat → List Byte → Option (List (List Byte))
  | 0, bs => if bs = [] then some [] else none
  | n + 1, bs =>
    let l := len bs
    if bs.length < l then none
    else match readItems len n (bs.drop l) with
      | some xs => some (bs.take l :: xs)
      | none => none

/-- Items of one length. -/
def evenItems (len n : Nat) (bs : List Byte) : List (List Byte) := (List.range n).map (fun i => part bs (len * i) len)

/-- The section of a type. -/
def sectionOf (xs : List Section) (t : Nat) : Option Section := xs.find? (fun x => x.type = t)
def sectionBody (xs : List Section) (t : Nat) : List Byte := match sectionOf xs t with | some x => x.body | none => []
def sectionCount (xs : List Section) (t : Nat) : Nat := match sectionOf xs t with | some x => x.count | none => 0

/-- The items of the sections whose items carry their own length. -/
def tileItems (xs : List Section) : Option (List (List Byte)) :=
  readItems (fun bs => tileItemLen (partNat bs 0 16)) (sectionCount xs 8) (sectionBody xs 8)
def leaseItems (xs : List Section) : Option (List (List Byte)) :=
  readItems (fun bs => leaseImageLen (partNat bs 0 64)) (sectionCount xs 9) (sectionBody xs 9)
def resItems (xs : List Section) : Option (List (List Byte)) :=
  readItems (fun bs => resImageLen (partNat bs 0 64)) (sectionCount xs 10) (sectionBody xs 10)
def iterItems (xs : List Section) : Option (List (List Byte)) :=
  readItems (fun bs => itImageLen (partNat bs 0 64)) (sectionCount xs 11) (sectionBody xs 11)

/-- No number stands twice. -/
def distinct (xs : List Nat) : Bool := xs.eraseDups.length = xs.length

/-- The items of a list satisfy a check, or there is no list. -/
def itemsOk (xs : Option (List (List Byte))) (ok : List (List Byte) → Bool) : Bool :=
  match xs with
  | some l => ok l
  | none => false

/-- Step 6 of R308: the sections and their items are those of the saved crew. -/
def imageFormed (v : SavedCrew) (nlset : Nat) (launchLen : Nat) (xs : List Section) : Bool :=
  let cr := v.crew
  let n := v.live.length
  let fixed := fun (t count len : Nat) => !(v.sections.contains t) || (sectionCount xs t = count && (sectionBody xs t).length = len)
  xs.map (·.type) = v.sections &&
    fixed 1 cr.roles.length (528 * cr.roles.length) && fixed 2 16 (784 * 16) && fixed 3 1 272 && fixed 4 n (448 * n) &&
    fixed 5 1 cr.sharedSize && fixed 6 1 cr.window.itemLen && fixed 7 n (n * cr.stackSize) && fixed 13 1 launchLen &&
    fixed 12 1 (match cr.reserve with | some r => (r.image cr.sharedSize).length | none => 0) &&
    ((evenItems 448 n (sectionBody xs 4)).map (fun bs => partNat bs 0 2)) = v.live &&
    (evenItems 448 n (sectionBody xs 4)).all (fun bs => !threadItemBad bs nlset) &&
    itemsOk (tileItems xs) (fun is => is.length = cr.tiles.length &&
      is.all (fun bs => !tileItemBad (partNat bs 0 16) cr.tiles.length) && distinct (is.map (fun bs => partNat bs 8 4))) &&
    itemsOk (leaseItems xs) (fun is => is.length = v.leaseUnits.length &&
      is.all (fun bs => bitsOf (partNat bs 0 64) 0 0 = 1 && (leaseHeaderBad (partNat bs 0 64)).isNone)) &&
    itemsOk (resItems xs) (fun is => is.length = v.resUnits.length &&
      is.all (fun bs => bitsOf (partNat bs 0 64) 0 0 = 1 && !resHeaderBad cr.pair (partNat bs 0 64)) &&
      distinct (is.map (fun bs => bitsOf (partNat bs 0 64) 11 8))) &&
    itemsOk (iterItems xs) (fun is => is.all (fun bs => !itImageBad bs) &&
      distinct (is.map (fun bs => bitsOf (partNat bs 0 64) 66 64)))

/-- The largest image that a crew of a launch can yield (R308): every section at its largest size, and the tag. -/
def largestImage (cr : Crew) (launchLen : Nat) : Nat :=
  let n := cr.threads.length
  let clusters := if cr.pair then 2 else 1
  let bodies := [528 * cr.roles.length, 784 * 16, 272, 448 * n, cr.sharedSize, cr.window.itemLen, n * cr.stackSize,
    cr.tiles.length * (16 + 4096 + 128), cr.roles.length * (64 + 4096 + 8 * 16384),
    16 * 64 + clusters * 4 * 262144, 8 * (64 + 8 * 64 + 64 * 16),
    (match cr.reserve with | some r => (r.image cr.sharedSize).length | none => 0), launchLen]
  64 + (bodies.map (fun b => 16 + b + padding b)).sum + 16

end Sys2Proof.Machine
end

