-- ==== Sys2Proof/Machine/Context.lean ====
section
/-! DEFINITION. Time slices, the save of a crew and its restore (R297 to R303, R306 to R309, R365). -/

namespace Sys2Proof.Machine

open Sys2Proof

/-! ## The save (R300 to R302, R365) -/

/-- A stage holds an element that it has not passed on: a table read of an abandoned pull has left it there. -/
def ItStack.reading (st : ItStack) : Bool := st.stages.any (fun x => x.held.isSome && !x.expanding)

/-- The held elements of a stack go on to its top and become pending, at most n of them, since a record has no field for
one (R274; notes/assumptions/93.md). No source gives a new element. A table read that waits lands as that of an abandoned
pull does (R267). -/
def State.settleStack (s : State) (c k : Nat) : Nat → State
  | 0 => s
  | n + 1 =>
    match (s.crew? c).bind (fun cr => cr.stack? k) with
    | none => s
    | some st =>
      if !st.reading || st.failed || st.pull.isSome || st.flight.isSome then s
      else
        let x : ItPull := { st.puller s c 0 [] 8 64 with settling := true }
        match x.ask (st.stages.length - 1) (pullFuel x) with
        | (.elem e, x) =>
          State.settleStack (x.s.modCrew c (fun cr => cr.putStack k { x.stack st st.ended with pend := x.pend ++ [e] })) c k n
        | (.ended, x) => x.s.modCrew c (fun cr => cr.putStack k (x.stack st true))
        | (.fails code _, x) => x.failed k st st.ended code
        | (.poison code _, x) => x.failed k st st.ended code
        | (.parks d w, x) => x.s.modCrew c (fun cr => cr.putStack k
            { x.stack st st.ended with flight := some (w.pause d x.s.nextSeq) })
        | (_, x) => x.s.modCrew c (fun cr => cr.putStack k (x.stack st st.ended))

/-- The stacks of a crew settled. -/
def State.settleStacks (s : State) (c : Nat) : State :=
  match s.crew? c with
  | none => s
  | some cr => (Table.keys cr.iters).foldl (fun (s : State) k => s.settleStack c k 16) s

/-- Step 5 waits for nothing more: every table read and pop of the crew's pulls has completed. -/
def Crew.stacksSettled (cr : Crew) : Bool :=
  cr.iters.all (fun e => e.2.pull.isNone && e.2.flight.isNone && (!e.2.reading || e.2.failed))

/-! ### Step 4: the handler of R302 (notes/assumptions/52.md) -/

/-- The units that hold a lease or a reservation of a crew. -/
def State.usedUnits (s : State) (c : Nat) (cr : Crew) : List (Nat × Nat) :=
  cr.units.filter (fun ku =>
    (s.unit cr.die ku.1 ku.2).leases.any (fun e => e.2.crew = c) ||
      (s.unit cr.die ku.1 ku.2).reservations.any (fun e => e.2.crew = c))

/-- The crew thread id of a system thread while an instruction of its handler runs: beyond those of the crew (R100). -/
def systemTid (half : Nat) : Nat := 2048 + half

/-- A thread of the reserved system role starts on a cluster of a crew (R101, R302). It is none of the crew's threads: it
uses no register budget of the crew, and it forms no bundle with them. -/
def Crew.startSystem (cr : Crew) (half : Nat) : Crew :=
  if (Table.get? cr.system half).isSome then cr
  else { cr with system := Table.put cr.system half (Thread.start systemRole 0 half 0#32 none) }

/-- The bundle of one system thread. -/
def systemBundle (c half : Nat) : Bundle :=
  { Bundle.idle with crew := c, lanes := [{ tid := systemTid half, issued := true }], alone := true }

/-- An instruction of the handler runs on the system thread of a cluster, with an offset of the save area in v0. What it
does is no effect of the crew's own program (R352). -/
def State.runSystem (s : State) (c half off : Nat) (ins : State → Host.Outcome State Fault Refusal) : State :=
  match s.crew? c with
  | none => s
  | some cr =>
    match Table.get? cr.system half with
    | none => s
    | some th =>
      let tid := systemTid half
      let th := { th with wait := none, regs := Sparse.set 0#32 [] 0 (BitVec.ofNat 32 off) }
      let t := { s.modCrew c (fun x => { x with threads := Table.put x.threads tid th }) with cur := systemBundle c half }
      let t := match ins t with
        | .next u => u
        | _ => t
      { t.modCrew c (fun x =>
          { x with
            threads := Table.drop x.threads tid
            system := match Table.get? x.threads tid with
              | some u => Table.put x.system half u
              | none => x.system
            reserve := cr.reserve }) with cur := s.cur }

/-- The bytes that a slot takes in the save area: the image of the crew's lease or reservation, or a header that is not
valid. -/
def State.slotLen (s : State) (c : Nat) (u : MatrixUnit) (lease : Bool) (slot : Nat) : Nat :=
  if lease then
    (if (Table.get? u.leases slot).any (fun l => l.crew = c) then (s.leaseImage u slot).length else 64)
  else if (Table.get? u.reservations slot).any (fun r => r.crew = c) then (s.resImage u slot).length
  else 64

/-- `acc.drain` or `ob.drain` of a slot, if the crew holds it, behind what the save area holds: its window grows with the
image. -/
def State.drainSlot (s : State) (c : Nat) (cr : Crew) (ku : Nat × Nat) (lease : Bool) (slot : Nat) : State :=
  let u := s.unit cr.die ku.1 ku.2
  let n := s.slotLen c u lease slot
  let off := match s.crew? c with | some x => x.saveArea.size | none => 0
  let s := s.modCrew c (fun x => { x with saveArea := { x.saveArea with size := off + n } })
  let unit := BitVec.ofNat 2 ku.2
  if n = 64 then s
  else s.runSystem c (ku.1 - cr.cluster) off
    (if lease then execAccDrain 0#7 (BitVec.ofNat 3 slot) unit else execObDrain 0#7 (BitVec.ofNat 5 slot) unit)

/-- The handler's work on one unit (R302): `mx.freeze`, at which its thread parks until every accepted operation has
completed, then the drains of the crew's slots, and `mx.thaw`. -/
def State.drainUnit (s : State) (c : Nat) (cr : Crew) (ku : Nat × Nat) : State :=
  let half := ku.1 - cr.cluster
  let unit := BitVec.ofNat 2 ku.2
  let s := (s.modCrew c (fun x => x.startSystem half)).runSystem c half 0 (execMxFreeze unit)
  if (s.unit cr.die ku.1 ku.2).queue ≠ [] then s
  else
    let s := (List.range 8).foldl (fun (s : State) i => s.drainSlot c cr ku true i) s
    let s := (List.range 32).foldl (fun (s : State) i => s.drainSlot c cr ku false i) s
    (s.runSystem c half 0 (execMxThaw unit)).modCrew c (fun x => { x with areaUnits := x.areaUnits ++ [ku] })

/-- The handler of one cluster: its units in turn, as far as the unit at which its thread parks. -/
def State.runHandler (s : State) (c : Nat) (cr : Crew) : List (Nat × Nat) → State
  | [] => s
  | ku :: r =>
    let s := s.drainUnit c cr ku
    if (s.unit cr.die ku.1 ku.2).queue ≠ [] then s else State.runHandler s c cr r

/-- Step 4: the handlers of the clusters that hold a lease or a reservation of the crew run on; each ends with its last
unit. -/
def State.runHandlers (s : State) (c : Nat) (cr : Crew) : State :=
  let s := cr.clusters.foldl (fun (s : State) k => s.runHandler c cr ((s.usedUnits c cr).filter (fun ku => ku.1 = k))) s
  if s.usedUnits c cr = [] then s.modCrew c (fun x => { x with system := [] }) else s

/-! ### Filling a crew's matrix state -/

/-- An image is filled into a unit by a system thread of the crew on its cluster, from a save area of its own (R309, R365):
`mx.freeze`, the fill, and `mx.thaw`. -/
def State.systemFill (s : State) (c half unit : Nat) (bs : List Byte) (bad : List Nat)
    (fill : State → Host.Outcome State Fault Refusal) : State :=
  let area := match s.crew? c with | some x => x.saveArea | none => DieWindow.empty
  let u := BitVec.ofNat 2 unit
  let s := s.modCrew c (fun x =>
    { x.startSystem half with saveArea := { DieWindow.empty.writeImage 0 bs bad with size := bs.length } })
  (((s.runSystem c half 0 (execMxFreeze u)).runSystem c half 0 fill).runSystem c half 0 (execMxThaw u)).modCrew c
    (fun x => { x with system := [], saveArea := area })

/-- A unit can be filled now: no operation of it is in flight, and no handler has frozen it. -/
def MatrixUnit.calm (u : MatrixUnit) : Bool := u.queue.isEmpty && !u.frozen

/-- An image of the save area filled into its unit, if the unit has the slots and the granules for it (R250, R251). -/
def State.placeLease (s : State) (id die cluster half unit : Nat) (bs : List Byte) (bad : List Nat) : Option State :=
  let h := partNat bs 0 64
  let u := s.unit die (cluster + half) unit
  let need := bitsOf h 11 8 * (if bitsOf h 1 1 = 1 then 2 else 1)
  match u.freeLeases with
  | slot :: _ =>
    if u.calm && decide (need ≤ (u.tileSlots (bitsOf h 1 1 = 1)).length) then
      some (s.systemFill id half unit bs bad (execAccFill 0#7 (BitVec.ofNat 3 slot) (BitVec.ofNat 2 unit)))
    else none
  | [] => none
def State.placeRes (s : State) (id die cluster half unit : Nat) (bs : List Byte) (bad : List Nat) : Option State :=
  let u := s.unit die (cluster + half) unit
  match u.freeRes with
  | slot :: _ =>
    if u.calm && decide (u.granules + bitsOf (partNat bs 0 64) 282 272 ≤ 1024) then
      some (s.systemFill id half unit bs bad (execObFill 0#7 (BitVec.ofNat 5 slot) (BitVec.ofNat 2 unit)))
    else none
  | [] => none

/-- The crew's leases and reservations filled back from its save area (R365): none while a unit has no room. -/
def State.fillBack (s : State) (c : Nat) (cr : Crew) : Option State :=
  let t := (cr.drained true).foldl (fun (t : Option State) x =>
    t.bind (fun s => s.placeLease c cr.die cr.cluster x.half x.unit x.bytes x.poison)) (some s)
  (cr.drained false).foldl (fun (t : Option State) x =>
    t.bind (fun s => s.placeRes c cr.die cr.cluster x.half x.unit x.bytes x.poison)) t

/-- The save ends without a saved crew: its leases and reservations are filled back, and it resumes where it stands; every
thread restarts its region (R125, R365). -/
def State.resumeCrew (s : State) (c : Nat) (cr : Crew) : Option State :=
  (s.fillBack c cr).map (fun s =>
    cr.liveThreads.foldl (fun (s : State) e => s.restartThread c e.1) (s.modCrew c (fun cr =>
      { cr with
        saving := none, stopped := false, inh := [], saveArea := DieWindow.empty, areaUnits := [], formed := none,
        kickNamed := false })))

/-- Step 7: the crew's registers, memories, leases, reservations and stacks return to the die (R300). -/
def State.freeCrew (s : State) (c : Nat) (cr : Crew) : State :=
  let s := cr.units.foldl (fun (s : State) ku => s.modUnit cr.die ku.1 ku.2 (fun u => u.forgetCrew c)) s
  { s with crews := Table.drop s.crews c }

/-- Only this crew of its launch is left on its die: a slice's save of it sets WHOLE (R306). -/
def State.lastOnDie (s : State) (c : Nat) (cr : Crew) : Bool :=
  s.crews.all (fun e => e.1 = c || e.2.launch ≠ cr.launch || e.2.die ≠ cr.die || e.2.killed)

/-- A thread of a crew is parked for a kick whose MCAST names a cluster of its group. -/
def kickNames (cr : Crew) (th : Thread) (cluster : Nat) : Bool :=
  match th.wait with
  | some (.kick (some v)) => decide (cr.homeCluster th / 16 = cluster / 16) && (recMcast v).testBit (cluster % 16)
  | _ => false

/-- The crew is a multicast receiver of a kick that waits for it (R303). -/
def State.awaitedByKick (s : State) (cr : Crew) : Bool :=
  s.crews.any (fun e => e.2.launch = cr.launch && e.2.die = cr.die &&
    e.2.threads.any (fun t => kickNames e.2 t.2 cr.cluster))

/-- The saved crew that a save records (R299): the crew itself keeps which of its data held an error. -/
def State.savedOf (s : State) (c : Nat) (cr : Crew) (whole : Bool) (image : Option (List Byte)) : SavedCrew :=
  { id := c, launch := cr.launch, index := cr.index, savedAt := cr.saveC, live := cr.liveThreads.map (·.1), crew := cr,
    image := image, slice := cr.saving = some .slice, sections := (s.sections cr whole).map (·.type),
    leaseUnits := (cr.drained true).map (fun x => (x.half, x.unit)),
    resUnits := (cr.drained false).map (fun x => (x.half, x.unit)),
    leasePoison := (cr.drained true).map (·.poison), resPoison := (cr.drained false).map (·.poison),
    winPoison := (s.window cr launchBase).poison, homeFixed := cr.kickNamed || s.awaitedByKick cr }

/-- The operand words of a taken record. -/
def recordOp (r : BitVec 512) (k : Nat) : Nat := (r.extractLsb' (64 + 64 * k) 64).toNat

/-- The taken record of a slot. -/
def State.taken? (s : State) (fn slot : Nat) : Option Taken := (s.fn fn).taken.find? (fun t => t.slot = slot)

/-- The state with one taken record replaced by its image. -/
def State.modTaken (s : State) (fn slot : Nat) (f : Taken → Taken) : State :=
  s.modFn fn (fun h => { h with taken := h.taken.map (fun (t : Taken) => if t.slot = slot then f t else t) })

/-- The record of a save whose image cannot be written completes with a code, and the crew resumes; while a unit has no
room for what the crew held, that waits. -/
def State.saveEnds (s : State) (c : Nat) (cr : Crew) (code : Code) : State :=
  ((match cr.saving with
    | some (.record fn slot) => s.recordResult fn slot code 0#64
    | _ => s).resumeCrew c cr).getD s

/-- Step 7: the crew counts as saved, and leaves the die. -/
def State.saveDone (s : State) (c : Nat) (cr : Crew) (whole : Bool) (image : Option (List Byte)) : State :=
  let v := s.savedOf c cr whole image
  (s.freeCrew c cr).modContext cr.ctx (fun x => { x with saved := x.saved ++ [v] })

/-- The image of an RPC record goes to its address, or is too large (R365); the pages of the address must be there (R34),
and a record that could not write, or that is no longer there, saves no crew (R319; notes/assumptions/105.md). -/
def State.writeRecord (s : State) (c : Nat) (cr : Crew) (fn slot : Nat) (f : SaveImage) : State :=
  match s.taken? fn slot with
  | none => s.saveEnds c cr Code.rpcAddr
  | some t =>
    if t.result.isSome then s.saveEnds c cr Code.rpcAddr
    else if t.xlate.isSome then s
    else if recordOp t.record 3 < f.bytes.length then s.saveEnds c cr Code.rpcSpace
    else match s.readyMain cr.ctx (recordOp t.record 2) f.bytes.length 1 none with
      | (.ok, s) =>
        ((s.writeMain cr.ctx (recordOp t.record 2) f.bytes).saveDone c cr f.whole none).recordResult fn slot Code.ok
          (BitVec.ofNat 64 f.bytes.length)
      | (.waits r, s) => s.modTaken fn slot (fun t => { t with xlate := some r })
      | (_, s) => s.saveEnds c cr Code.rpcAddr

/-- Steps 6 and 7, with the image formed and sealed (R300, R306): an RPC record's image goes to its address; a slice's and
an eviction's stay with the device. -/
def State.writeSaved (s : State) (c : Nat) (cr : Crew) : State :=
  match cr.formed with
  | none => s
  | some f =>
    match cr.saving with
    | some (.record fn slot) => s.writeRecord c cr fn slot f
    | _ => s.saveDone c cr f.whole (some f.bytes)

/-- A seal cannot be made (R21, R22): the crew is not saved and resumes; a record completes with CTX_KEY, which is how the
hardware mode fails (notes/assumptions/31.md). -/
def State.sealFailed (s : State) (c : Nat) (cr : Crew) : State := s.saveEnds c cr Code.ctxKey

/-- A seal of a crew's image is with a worker. -/
def State.callOpen (s : State) (o : CallOrigin) : Bool := s.calls.any (fun e => e.2.origin = o && e.2.outcome.isNone)

/-- Where the image of a save goes: the record's address; a device-kept image has a free one. -/
def State.imageAddr (s : State) (cr : Crew) : Nat × State :=
  match cr.saving with
  | some (.record fn slot) => (match s.taken? fn slot with | some t => recordOp t.record 2 | none => 0, s)
  | _ => s.free

/-- The image of a crew is sealed. -/
def Crew.sealed (cr : Crew) : Crew := { cr with formed := cr.formed.map (fun f => { f with sealed := true }) }

/-- The image is sealed by the security engine, or needs no seal: it is written. -/
def State.sealedWrite (s : State) (c : Nat) (cr : Crew) : State := (s.modCrew c Crew.sealed).writeSaved c cr.sealed

/-- Step 6 of a protected context under row 6: the security engine seals, or a worker does. A request that is open ends in
the mode that it was raised in (R22). -/
def State.sealThenWrite (s : State) (c : Nat) (cr : Crew) (x : Context) : State :=
  match cr.formed with
  | none => s
  | some f =>
    if f.sealed || !x.prot then s.sealedWrite c cr
    else if s.callOpen (.seal c) then s
    else if x.key.isNone then s.sealFailed c cr
    else if !rowAssisted (s.dutyRow cr.ctx 6) then s.sealedWrite c cr
    else if !s.rowServed cr.ctx 6 then s.sealFailed c cr
    else
      let a := s.imageAddr cr
      (a.2.dutyCall cr.ctx 6 { launch := cr.srLaunch.toNat, index := cr.index, tid := 0 }
        [BitVec.ofNat 64 a.1, BitVec.ofNat 64 f.bytes.length, BitVec.ofNat 64 cr.saveC, 0#64] (.seal c)).2

/-- The worker's answer to a seal. -/
def State.sealDone (s : State) (c : Nat) (ok : Bool) : State :=
  match s.crew? c with
  | none => s
  | some cr => if cr.saving.isNone then s else if ok then s.sealedWrite c cr else s.sealFailed c cr

/-- Another crew of the launch on the die has formed its image at the slice's end and is still there: which crew is the
last, and so WHOLE, is settled one crew at a time (R306). -/
def State.formingBeside (s : State) (c : Nat) (cr : Crew) : Bool :=
  s.crews.any (fun e => e.1 ≠ c && e.2.launch = cr.launch && e.2.die = cr.die && e.2.saving = some .slice && e.2.formed.isSome &&
    !e.2.killed)

/-- Step 6 begins: the image is formed once, with the C that its save operation took (R225, R299). -/
def State.formImage (s : State) (c : Nat) (cr : Crew) (x : Context) : State :=
  if cr.formed.isSome || (cr.saving = some .slice && s.formingBeside c cr) then s
  else
    let whole := cr.saving = some .slice && s.lastOnDie c cr
    let f : SaveImage :=
      { whole := whole, bytes := s.imageOf cr whole x.prot (x.key.getD 0#256) cr.saveC, sealed := false }
    s.modCrew c (fun y => { y with formed := some f })

/-- Steps 4 to 7 of a save whose drain has ended (R302, R365): the handler drains the units, the stacks settle, and the
image is formed, sealed and written. -/
def State.finishSave (s : State) (c : Nat) (cr : Crew) : State :=
  let s := s.runHandlers c cr
  if s.usedUnits c cr ≠ [] then s
  else
    let s := s.settleStacks c
    match s.crew? c, Table.get? s.contexts cr.ctx with
    | some cr, some x =>
      if !cr.stacksSettled then s
      else
        let s := s.formImage c cr x
        match s.crew? c with
        | some cr => s.sealThenWrite c cr x
        | none => s
    | _, _ => s

/-- SAVE_DRAIN_COMPLETE (R301, R302, R349): after the drain, a consumed error is decided, or the save goes on. -/
def execSaveDrainComplete (crew : Nat) (s : State) : Host.Outcome State Fault Refusal :=
  .next (match s.crew? crew with
    | none => s
    | some cr =>
      if cr.killed then s
      else match cr.consumed with
        | some (code, info, addr) => if s.quiet crew then s.consumedDrained crew cr code info addr else s
        | none =>
          if cr.saving.isNone || !s.quiet crew then s else s.finishSave crew cr)

/-- DRAIN_LIMIT_EXPIRY (R301): every copy of the drain that is unfinished ends with CTX_DRAIN. -/
def execDrainLimitExpiry (crew : Nat) (s : State) : Host.Outcome State Fault Refusal :=
  .next (if !s.drainOver crew then s
    else
      let s := (s.copiesOf crew).foldl (fun (s : State) e => s.failCopy e.1 e.2 Code.ctxDrain Code.ctxDrain e.2.src) s
      (s.elems.filter (fun e => e.2.crew = crew)).foldl (fun (s : State) e =>
        s.endElem e.1 e.2 (some (Code.ctxDrain, e.2.dst))) s)

/-! ## Slices (R298) -/

/-- A function has work: a queued launch, a resident crew or a saved crew of one of its contexts. -/
def State.hasWork (s : State) (fn : Nat) : Bool :=
  s.contexts.any (fun x => x.2.fn = fn && (!x.2.saved.isEmpty || x.2.queues.any (fun q => q.2 ≠ []) ||
    s.crews.any (fun e => e.2.ctx = x.1 && !e.2.killed)))

/-- A row's slice length in reference cycles. -/
def State.sliceCycles (s : State) (fn : Nat) : Nat := ((s.fn fn).quantum.extractLsb' 8 20).toNat * cyclesPerUs

/-- The next function in ascending order, wrapping around, that takes part and has work. -/
def State.nextFn (s : State) (fn : Nat) : Option Nat :=
  ((List.range 16).map (fun i => (fn + 1 + i) % 16)).find? (fun g => s.sliced g && s.hasWork g)

/-- The function's crews that a slice's save covers. -/
def State.sliceCrews (s : State) (fn : Nat) : List (Nat × Crew) :=
  s.crews.filter (fun e => s.fnOf e.2.ctx = fn && !e.2.killed)

/-- One save operation for every resident crew of the function: C grows once in each context (R299). -/
def State.saveSlice (s : State) (fn : Nat) : State :=
  let crs := (s.sliceCrews fn).filter (fun e => e.2.saving.isNone)
  let s := (crs.map (fun e => e.2.ctx)).eraseDups.foldl (fun (s : State) x =>
    s.modContext x (fun x => { x with saveCount := x.saveCount + 1 })) s
  crs.foldl (fun (s : State) e => s.beginSave e.1 .slice false) s

/-- A slice begins: its restore comes first, and its length counts from the end of that (R298). -/
def State.openSlice (s : State) (fn : Nat) : State := { s with slice := some fn, sliceStart := s.now, sliceSaving := false }

/-- SLICE_EXPIRY (R298): the first slice opens; at the end of a quantum the function's crews are saved as one operation,
and when none is resident the next function's slice opens. A cooperative launch that has begun to start its crews starts
them all first (R283). A sole function with work keeps the device. -/
def execSliceExpiry (s : State) : Host.Outcome State Fault Refusal :=
  .next (if !s.slicing then { s with slice := none }
    else match s.slice with
      | none => match s.nextFn 15 with
        | some g => s.openSlice g
        | none => s
      | some f =>
        let expired := !s.sliced f || !s.hasWork f || decide (s.sliceStart + s.sliceCycles f ≤ s.now)
        match s.nextFn f with
        | none => s
        | some g =>
          let restoring := !s.sliceSaving && s.contexts.any (fun x => x.2.fn = f && x.2.saved.any (fun v => v.slice))
          if !expired || restoring || s.partStarted none then s
          else if g = f then { s with sliceStart := s.now }
          else if (s.sliceCrews f).any (fun e => e.2.saving.isNone) then { s.saveSlice f with sliceSaving := true }
          else if (s.sliceCrews f) ≠ [] then s
          else s.openSlice g)

/-! ## The restore (R308, R309) -/

/-- A saved crew of a context. -/
def Context.savedCrew? (x : Context) (id : Nat) : Option SavedCrew := x.saved.find? (fun v => v.id = id)

/-- The length of a crew's LAUNCH section. -/
def State.launchItemLen (s : State) (cr : Crew) : Nat := (s.window cr launchBase).itemLen

/-- The number of live-in sets of a crew's object. -/
def State.nlset (s : State) (cr : Crew) : Nat :=
  match s.object? cr.ctx cr.obj with
  | some o => o.lsets.length
  | none => 0

/-- Step 3 of R308, for the header of a staged image. -/
def headerFormed (h : Nat) (len ctx : Nat) (launch : Dword) (index : Nat) : Bool :=
  bitsOf h 31 0 = 0x43584D49 && bitsOf h 47 32 = 1 && bitsOf h 63 50 = 0 && bitsOf h 319 288 = 0 && bitsOf h 511 384 = 0 &&
    bitsOf h 383 320 = len && bitsOf h 159 128 = ctx && bitsOf h 223 160 = launch.toNat && bitsOf h 255 224 = index &&
    decide (1 ≤ bitsOf h 287 256) && decide (bitsOf h 287 256 ≤ 13)

/-- The body of a staged image, opened with a key when it is sealed. -/
def imageBody (bs : List Byte) (key : BitVec 256) (ctx : Nat) : List Byte :=
  let h := leNat (bs.take 64)
  if bitsOf h 48 48 = 1 then
    gcmCipher key (imageIv ctx (bitsOf h 127 64)) (part bs 64 (bs.length - 80))
  else bs.drop 64

/-- The tag of a staged image verifies (R307). -/
def tagVerifies (bs : List Byte) (key : BitVec 256) (ctx : Nat) : Bool :=
  let h := leNat (bs.take 64)
  (Config.gcmTag key (imageIv ctx (bitsOf h 127 64)) (bs.take 64) (part bs 64 (bs.length - 80))).toNat =
    partNat bs (bs.length - 16) 16

/-- Step 4 of R308: the image is not that of the crew's last save. -/
def staleImage (v : SavedCrew) (bs : List Byte) : Bool := bitsOf (leNat (bs.take 64)) 127 64 ≠ v.savedAt

/-- Steps 3 and 4 of R308 on a staged image. -/
def restoreEarly (v : SavedCrew) (bs : List Byte) (ctx : Nat) : Option Code :=
  let h := leNat (bs.take 64)
  if !headerFormed h bs.length ctx v.crew.srLaunch v.index then some Code.ctxForm
  else if staleImage v bs then some Code.ctxStale
  else none

/-- Steps 5 and 6 of R308; `tagged` when a worker of row 6 has verified the tag. -/
def State.restoreLate (s : State) (x : Context) (ctx : Nat) (v : SavedCrew) (bs : List Byte) (tagged : Bool) : Option Code :=
  let h := leNat (bs.take 64)
  let sealed := bitsOf h 48 48 = 1
  let key := x.key.getD 0#256
  if sealed && x.key.isNone then some Code.ctxKey
  else if sealed && (decide (bs.length < 96) || !(tagged || tagVerifies bs key ctx)) then some Code.ctxTag
  else if sealed ≠ x.prot then some Code.ctxForm
  else
    let whole := bitsOf h 49 49 = 1
    match readSections (bitsOf h 287 256) (imageBody bs key ctx) with
    | none => some Code.ctxForm
    | some xs =>
      if whole = v.sections.contains 13 && imageFormed v (s.nlset v.crew) (s.launchItemLen v.crew) xs then none
      else some Code.ctxForm

/-- The threads of a restored crew: those saved, at their region heads, and those that had ended (R309). -/
def State.restoredThreads (s : State) (v : SavedCrew) (homes : List Nat) (xs : List Section) : Table Thread :=
  let cr := v.crew
  let items := evenItems 448 v.live.length (sectionBody xs 4)
  let stks := evenItems cr.stackSize v.live.length (sectionBody xs 7)
  let arrived := idsOf (part (sectionBody xs 3) 16 256)
  let fresh := startThreads cr.width cr.pair homes 0#32 none 0 cr.roles
  Table.mapVals fresh (fun tid th =>
    let old := Table.get? cr.threads tid
    let th := match old with
      | some o =>
        { th with
          rot := o.rot, slotPoison := o.slotPoison, stackPoison := o.stackPoison, mxPoison := o.mxPoison,
          barPassed := o.barPassed }
      | none => th
    match v.live.idxOf? tid with
    | none => { th with ended := true }
    | some i =>
      let item := items.getD i []
      let r := regionOf (partNat item 16 32)
      let th := th.fill item (s.liveSet cr r.lset)
      { th with atBarrier := arrived.contains tid, stack := Mem.writeBytes [] 0 (stks.getD i []) })

/-- The crew as its image restores it at a place, without its leases and reservations. -/
def State.restoredCrew (s : State) (v : SavedCrew) (die cluster : Nat) (homes : List Nat) (xs : List Section) : Crew :=
  let cr := v.crew
  { cr with
    die := die
    cluster := cluster
    roles := cr.roles.zipIdx.map (fun r => r.1.fill (part (sectionBody xs 1) (528 * r.2) 528))
    tumblers := tumblersOf (sectionBody xs 2)
    barGen := BitVec.ofNat 32 (partNat (sectionBody xs 3) 0 4)
    threads := s.restoredThreads v homes xs
    shared := Mem.writeBytes [] 0 (sectionBody xs 5)
    saveArea := DieWindow.empty
    window := cr.window.fill (sectionBody xs 6)
    tiles := ((tileItems xs).getD []).foldl (fun ts bs => ts.modify (partNat bs 8 4) (fun _ => tileOf bs s.tick)) cr.tiles
    iters := ((iterItems xs).getD []).foldl (fun t bs =>
      Table.put t (bitsOf (partNat bs 0 64) 66 64) (itStackOf bs)) []
    reserve := cr.reserve.map (fun r => r.fill cr.sharedSize (sectionBody xs 12))
    stopped := false
    killed := false
    consumed := none
    saving := none
    inh := []
    kickNamed := false
    formed := none
    system := []
    areaUnits := [] }

/-- Every lease and reservation of an image placed: none while a unit has no room. -/
def State.placeUnits (s : State) (v : SavedCrew) (die cluster : Nat) (xs : List Section) : Option State :=
  let t := (((leaseItems xs).getD []).zip (v.leaseUnits.zip v.leasePoison)).foldl (fun (t : Option State) x =>
    t.bind (fun s => s.placeLease v.id die cluster x.2.1.1 x.2.1.2 x.1 x.2.2)) (some s)
  (((resItems xs).getD []).zip (v.resUnits.zip v.resPoison)).foldl (fun (t : Option State) x =>
    t.bind (fun s => s.placeRes v.id die cluster x.2.1.1 x.2.1.2 x.1 x.2.2)) t

/-- The place is one that the crew may return to (R303, R306, R308). -/
def State.placeAllowed (s : State) (v : SavedCrew) (die cluster : Nat) (homes : List Nat) : Bool :=
  let permits := match Table.get? s.launches v.launch with
    | some l => l.record.permits die || v.crew.node.isSome
    | none => false
  permits && homesOk v.crew.pair homes && (!(v.slice || v.crew.node.isSome) || die = v.crew.die) &&
    (!(v.homeFixed || s.awaitedByKick v.crew) || (die = v.crew.die && cluster = v.crew.cluster))

/-- What waited for a crew while it was saved: failures of its collective operations reach their latches (R340), and a
checkpoint slot that holds an error is consumed by the restart that reads it (R345). -/
def State.deliverLate (s : State) (v : SavedCrew) : State :=
  let s := s.colops.foldl (fun (s : State) o =>
    match o.2.late with
    | some code => if o.2.crew = v.id then s.failLatch v.id o.2.latch code else s
    | none => s) { s with colops := Table.mapVals s.colops (fun _ o => if o.crew = v.id then { o with late := none } else o) }
  v.live.foldl (fun (s : State) t =>
    match s.thread? v.id t with
    | some th => if th.slotPoison = [] then s else s.restartThread v.id t
    | none => s) s

/-- The launch of a saved crew with its window on a die, which the first crew there brings (R282), and the bytes that this
window takes. -/
def State.windowFor (s : State) (v : SavedCrew) (die : Nat) : Nat × State :=
  match Table.get? s.launches v.launch with
  | none => (0, s)
  | some l =>
    match s.launchEntry l.ctx l.record with
    | none => (0, s)
    | some e => (l.newWindow die e, s.modLaunch v.launch (fun l => l.openWindow die e.dieLaunch))

/-- A launch's window as the image of its last crew on a die restores it, with the aborts that came meanwhile (R306, R340). -/
def Launch.fillWindow (l : Launch) (die : Nat) (poison : List Nat) (bs : List Byte) : Launch :=
  let l := l.modWin die (fun w => { w with poison := poison }.fill bs)
  { l.modWin die (fun w => (l.lateAborts.filter (fun a => a.die = die)).foldl (fun (w : DieWindow) a => w.abortGen a) w) with
    lateAborts := l.lateAborts.filter (fun a => a.die ≠ die) }

/-- Step 7 of R308, and R309: the crew installed from the sections of its image, once its place has the room. -/
def State.installCrew (s : State) (ctx : Nat) (v : SavedCrew) (die cluster : Nat) (homes : List Nat) (xs : List Section) :
    Option State :=
  let cr := s.restoredCrew v die cluster homes xs
  let w := s.windowFor v die
  if !s.placeAllowed v die cluster homes || !s.roomFor cr w.1 || !s.awake cr || s.partStarted (some v.launch) || decide (64 < s.itSlots cr +
      (cr.iters.map (fun e => e.2.stages.length)).sum) then none
  else
    let t := { w.2 with crews := Table.put w.2.crews v.id cr }
    let t := t.modContext ctx (fun x => { x with saved := x.saved.filter (fun w => w.id ≠ v.id) })
    let t := if v.sections.contains 13 then
        t.modLaunch v.launch (fun l => l.fillWindow die v.winPoison (sectionBody xs 13))
      else t
    (t.placeUnits v die cluster xs).map (fun t => t.deliverLate v)

/-- An evicted crew returns when its launch is ready, or when no producer of it has a crew left to start (R285). -/
def State.mayReturn (s : State) (v : SavedCrew) : Bool :=
  match Table.get? s.launches v.launch with
  | some l => s.launchReady l || s.producersOf l = []
  | none => false

/-- The RESTORE record that waits to install a saved crew. -/
def State.restoreRecord (s : State) (ctx : Nat) (v : SavedCrew) : Option (Nat × Taken) :=
  s.fns.findSome? (fun f => (f.2.taken.find? (fun t =>
    bitsOf t.record.toNat 7 0 = 0x0C && bitsOf t.record.toNat 31 16 = ctx && t.opened && t.result.isNone &&
      recordOp t.record 0 = v.crew.srLaunch.toNat && recordOp t.record 1 = v.index)).map (fun t => (f.1, t)))

/-- RESTORE_INSTALL (R285, R298, R308): the image that a record has staged and that has passed its checks, or the image
that the device keeps of a slice or an eviction. -/
def execRestoreInstall (ctx saved die cluster : Nat) (homes : List Nat) (s : State) : Host.Outcome State Fault Refusal :=
  .next (match Table.get? s.contexts ctx with
    | none => s
    | some x =>
      match x.savedCrew? saved with
      | none => s
      | some v =>
        let go := fun (bs : List Byte) =>
          match readSections (bitsOf (leNat (bs.take 64)) 287 256) (imageBody bs (x.key.getD 0#256) ctx) with
          | some xs => s.installCrew ctx v die cluster homes xs
          | none => none
        match s.restoreRecord ctx v with
        | some (fn, t) =>
          if staleImage v t.staged then s.recordResult fn t.slot Code.ctxStale 0#64
          else match go t.staged with
          | some u => u.recordResult fn t.slot Code.ok 0#64
          | none => s
        | none =>
          match v.image with
          | none => s
          | some bs =>
            if v.slice then
              if s.slicing && s.slice ≠ some x.fn then s
              else match go bs with
                | some u => { u with sliceStart := u.now }
                | none => s
            else if s.mayReturn v then (go bs).getD s else s)

end Sys2Proof.Machine
end

