-- ==== Sys2Proof/Machine/CrossLane.lean ====
section
/-! DEFINITION. The cross-lane reads of lane major 0x2B (R106, R147, R148). -/

namespace Sys2Proof.Machine

open Sys2Proof

/-- The thread with a crew thread id, when it is present and active in the current bundle (R106). -/
def State.source (s : State) (id : Int) : Option Thread :=
  (s.activeLanes.find? (fun e => (e.1.tid : Int) = id)).map (·.2)

/-- The operand field of another thread's register: never an index form (R147). -/
def farOpnd (f : BitVec 7) (wide : Bool) : Opnd := { field := f, wide := wide, direct := true, reads := false }

/-- What a reading lane takes from its source, a 32-bit register or a pair; zero where there is none. -/
def State.sourceValue (s : State) (va : BitVec 7) (wide : Bool) (id : Int) : Dword :=
  match s.source id with
  | none => 0#64
  | some th => if wide then th.read64 va else (th.read32 va).setWidth 64

/-- The registers that a source's operand names. -/
def Thread.farRegs (th : Thread) (va : BitVec 7) (wide : Bool) : List Nat :=
  if wide then [th.regOf va, th.regHiOf va] else [th.regOf va]

/-- Where a cross-lane result goes, and the operands that the reading lane has of its own. -/
structure XlForm where
  vd : BitVec 7
  wide : Bool
  own : List Opnd
  far : List Opnd
  tr : Bool
deriving DecidableEq, Repr

/-- The destination operand. -/
def XlForm.dst (x : XlForm) : Dst := if x.wide then .r64 x.vd else .r32 x.vd

/-- The frame of a cross-lane instruction: every lane's value is taken before any is written (R128). `ids` gives the
sources that a lane reads, for the error check of R345. -/
def State.xlane (s : State) (x : XlForm) (va : BitVec 7) (ids : Lane → Thread → List Int)
    (f : Lane → Thread → Dword) : State :=
  s.guarded
    { opnds := x.dst.opnds .none ++ x.own ++ x.far
      illegal := false
      cls := { accepts := true, mz := true, rnd := .none, vc := false } }
    fun s =>
      let bad := s.activeLanes.flatMap (fun e => ((ids e.1 e.2).flatMap fun i =>
        match s.source i with
        | some th => (th.farRegs va (x.far.any (·.wide))).filter (fun r => th.readPoisoned r)
        | none => []).map (fun r => (r, e.1.tid)))
      match bad with
      | x :: _ => s.consume Code.ueReg x
      | [] => s.mapLanes fun l th =>
          let md : ResultMode := if x.tr then .forward else .now
          if s.cur.active l th then
            (th.commit s.cur.length md (th.regResults x.dst (f l th))).advanceIx (x.dst.opnds .none ++ x.own)
          else if s.cur.mz then th.commit s.cur.length md (th.regResults x.dst 0#64)
          else th.commit s.cur.length md []

/-- The forms that read one source thread: `src` gives its id from the reader's id and vb (Table 7.9). -/
def State.xlRead (s : State) (vd va vb : BitVec 7) (wide tr : Bool) (src : Nat → Nat → Int) : State :=
  s.xlane { vd := vd, wide := wide, own := [src32 vb], far := [farOpnd va wide], tr := tr } va
    (fun l th => [src l.tid (th.read32 vb).toNat])
    (fun l th => s.sourceValue va wide (src l.tid (th.read32 vb).toNat))

/-- `xl.idx.n32 vd, va, vb`. -/
def execXlIdxN32 (vd va vb : BitVec 7) (tr : Bool) (s : State) : Host.Outcome State Fault Refusal :=
  .next (s.xlRead vd va vb false tr fun _ b => b)

/-- `xl.xor.n32 vd, va, vb`. -/
def execXlXorN32 (vd va vb : BitVec 7) (tr : Bool) (s : State) : Host.Outcome State Fault Refusal :=
  .next (s.xlRead vd va vb false tr fun t b => (t ^^^ b : Nat))

/-- `xl.up.n32 vd, va, vb`. -/
def execXlUpN32 (vd va vb : BitVec 7) (tr : Bool) (s : State) : Host.Outcome State Fault Refusal :=
  .next (s.xlRead vd va vb false tr fun t b => (t : Int) - b)

/-- `xl.down.n32 vd, va, vb`. -/
def execXlDownN32 (vd va vb : BitVec 7) (tr : Bool) (s : State) : Host.Outcome State Fault Refusal :=
  .next (s.xlRead vd va vb false tr fun t b => (t : Int) + b)

/-- `xl.idx.n64 vd, va, vb`. -/
def execXlIdxN64 (vd va vb : BitVec 7) (tr : Bool) (s : State) : Host.Outcome State Fault Refusal :=
  .next (s.xlRead vd va vb true tr fun _ b => b)

/-- The first thread id of the aligned block of a thread (R102, R148). -/
def Crew.blockFirst (cr : Crew) (th : Thread) (tid : Nat) : Nat :=
  match cr.role? th.role with
  | some r => r.first + (tid - r.first) / cr.width * cr.width
  | none => 0

/-- One bit for each thread of the reader's block that is present, active and has the predicate set (R148). -/
def State.ballot (s : State) (pk : BitVec 3) (tid : Nat) (th : Thread) : Dword :=
  match s.curCrew? with
  | none => 0#64
  | some cr =>
    BitVec.ofNat 64 (((List.range cr.width).map (fun i =>
      match s.source ((cr.blockFirst th tid + i : Nat) : Int) with
      | some u => if u.role = th.role && u.pred pk.toNat then 2 ^ i else 0
      | none => 0)).sum)

/-- `xl.ballot.n64 vd, pk`. -/
def execXlBallotN64 (vd : BitVec 7) (pk : BitVec 3) (tr : Bool) (s : State) : Host.Outcome State Fault Refusal :=
  .next (s.xlane { vd := vd, wide := true, own := [], far := [], tr := tr } 0#7 (fun _ _ => [])
    (fun l th => s.ballot pk l.tid th))

/-- `xl.add.i32 vd, va`: the sum over every thread present and active (R148). -/
def execXlAddI32 (vd va : BitVec 7) (tr : Bool) (s : State) : Host.Outcome State Fault Refusal :=
  .next (s.xlane { vd := vd, wide := false, own := [], far := [farOpnd va false], tr := tr } va
    (fun _ _ => s.activeLanes.map (fun e => (e.1.tid : Int)))
    (fun _ _ => low32 ((s.activeLanes.map (fun e => (e.2.read32 va).toInt)).sum)))

end Sys2Proof.Machine
end

