-- ==== Sys2Proof/Machine/Contract.lean ====
section
/-! DEFINITION. The width contract of Gnotin IR (R181 to R184): W-groups, what a cross-lane operation of a declared kernel
reads, and the tumbler instructions that a lowering must hold. The IR's own operations and encoding are not in the spec
(notes/assumptions/94.md). -/

namespace Sys2Proof.Machine

open Sys2Proof

/-! ## W-groups (R182) -/

/-- The W-group of a thread: its role, and the block of W role-local indices that holds its own. -/
def Crew.wGroup (cr : Crew) (w : Nat) (tid : Nat) (th : Thread) : Nat × Nat :=
  (th.role, match cr.role? th.role with
    | some r => (tid - r.first) / w
    | none => 0)

/-- Why a declared kernel's read of a source gives zero (R182). -/
inductive ZeroCase where
  | outside
  | ended
  | elsewhere
  | inactive
deriving DecidableEq, Repr

/-- The zero case of a read under a declared width, if one holds: `active` are the threads that are active at the
operation. -/
def Crew.zeroCase (cr : Crew) (w pc : Nat) (active : List Nat) (reader source : Nat) : Option ZeroCase :=
  match Table.get? cr.threads reader, Table.get? cr.threads source with
  | some r, some u =>
    if cr.wGroup w source u ≠ cr.wGroup w reader r then some .outside
    else if u.ended then some .ended
    else if u.pc.toNat ≠ pc then some .elsewhere
    else if active.contains source then none
    else some .inactive
  | _, _ => some .outside

/-- What a declared kernel's cross-lane operation reads of a source's register or pair: the source's operand, or zero. -/
def State.contractRead (s : State) (w : Nat) (va : BitVec 7) (wide : Bool) (reader source : Nat) : Dword :=
  match s.curCrew? with
  | none => 0#64
  | some cr =>
    match cr.zeroCase w s.cur.pc.toNat (s.activeLanes.map (·.1.tid)) reader source, Table.get? cr.threads source with
    | none, some th => if wide then th.read64 va else (th.read32 va).setWidth 64
    | _, _ => 0#64

/-! ## What a lowering holds (R183, R184) -/

/-- The tumbler that a word of major 0x3B names, and its register (R170). -/
def tbOf (w : Word) : Nat := (w.extractLsb' 18 4).toNat
def tbReg (w : Word) : Nat := (w.extractLsb' 11 7).toNat

/-- A word is a tb.join, tb.sign, tb.wait or weld of a tumbler; a store to shared memory; a load from it. -/
def isJoin (k : Nat) (w : Word) : Bool := w &&& 0xFFC3FFFF#32 = 0x76000000#32 && tbOf w = k
def isSign (k : Nat) (w : Word) : Bool := w &&& 0xFFC0007F#32 = 0x76000001#32 && tbOf w = k
def isWait (k : Nat) (w : Word) : Bool := w &&& 0xFFC007FF#32 = 0x76000002#32 && tbOf w = k
def isWeld (k : Nat) (w : Word) : Bool := w &&& 0xFFC3FFFF#32 = 0x76000003#32 && tbOf w = k
def isStSh (w : Word) : Bool := w &&& 0xFE020780#32 = 0x5A020000#32
def isLdSh (w : Word) : Bool := w &&& 0xFE020000#32 = 0x5A000000#32

/-- The mask of tumblers that an unjoin names (R110). -/
def unjoinMask (w : Word) : Option Nat :=
  if w &&& 0xFE0007FC#32 = 0x7600000C#32 then
    some ((w.extractLsb' 18 7).toNat + (w.extractLsb' 11 7).toNat * 2 ^ 7 + (w.extractLsb' 0 2).toNat * 2 ^ 14)
  else none

/-- Words hold, in order, one that meets each test. -/
def holdsInOrder : List (Word → Bool) → List Word → Bool
  | [], _ => true
  | _ :: _, [] => false
  | t :: ts, w :: ws => if t w then holdsInOrder ts ws else holdsInOrder (t :: ts) ws

/-- What the native words at a marker hold: a group's own tumbler is welded at the kernel's entry, and a pair's third is
joined; entry to a scope is a tb.join; a convergence point is a tb.sign and a tb.wait for the generation that it gives;
an edge that leaves scopes is an unjoin of the tumblers that it leaves; and a cross-lane operation of a pair stores its
operand and flag in the scratch, signs and waits on the joined tumbler, and loads the source's slot. -/
def markerHolds (ws : List Word) : Config.Marker → Bool
  | .weld k => (ws.take 1).any (isWeld k)
  | .enter k => (ws.take 1).any (isJoin k)
  | .point k => match ws with
    | v :: w :: _ => isSign k v && isWait k w && tbReg v = tbReg w
    | _ => false
  | .leave mask => (ws.head?.bind unjoinMask) = some mask
  | .pairRead k n => holdsInOrder [isStSh, isSign k, isWait k, isLdSh] (ws.take n)

/-- The group tumblers of a kernel of n of them: tb15 and down. -/
def groupMask (n : Nat) : Nat := ((List.range n).map (fun i => 2 ^ (15 - i))).sum

/-- Every `end` has an unjoin of the group tumblers in front of it. -/
def endsUnjoined (mask : Nat) : List Word → Bool
  | [] => true
  | [w] => mask = 0 || w ≠ 0x78000000#32
  | v :: w :: ws =>
    (mask = 0 || w ≠ 0x78000000#32 || (match unjoinMask v with | some m => m &&& mask = mask | none => false)) &&
      endsUnjoined mask (w :: ws)

/-- A lowering of kernels with these numbers of group tumblers keeps the contract: its markers hold, every group tumbler
is welded, or joined as a pair's third, and is left before a kernel's end. -/
def loweringKeeps (l : Config.Lowered) (words : List Word) (groups : List Nat) : Bool :=
  l.marks.all (fun m => markerHolds (words.drop (m.1 / 4)) m.2) &&
    groups.all (fun n => (List.range n).all (fun i =>
      l.marks.any (fun m => m.2 = .weld (15 - i) || m.2 = .enter (15 - i)))) &&
    endsUnjoined (groupMask (groups.foldl Nat.min 16)) words

end Sys2Proof.Machine
end

