-- ==== Sys2Proof/Machine/FloatOps.lean ====
section
/-! DEFINITION. The floating-point instructions and conversions of lane majors 0x18 to 0x2A (R139 to R146, R367). -/

namespace Sys2Proof.Machine

open Sys2Proof

/-- An operation of three bit patterns of one format, on packed elements: two 16-bit or four 8-bit ones (R81). -/
def packF (w n : Nat) (f : Nat → Nat → Nat → Nat) (a b c : Dword) : Dword :=
  BitVec.ofNat 64 (((List.range n).map (fun i =>
    f (bitsOf a.toNat (w * i + w - 1) (w * i)) (bitsOf b.toNat (w * i + w - 1) (w * i))
      (bitsOf c.toNat (w * i + w - 1) (w * i)) * 2 ^ (w * i))).sum)

/-- The same as an operation under the prefix's rounding field, whose default is to the nearest even (R87). -/
def fOp (w n : Nat) (f : Rounding → Nat → Nat → Nat → Nat) : BitVec 3 → Dword → Dword → Dword → Dword :=
  fun rnd => packF w n (f (roundingOf .rne rnd))

/-- An immediate of the float LI forms (Table 4.6). -/
def immBf16 (imm : BitVec 16) : FVal := bf16Fmt.value imm.toNat
def immF32 (imm : BitVec 16) : Dword := BitVec.ofNat 64 (f32Fmt.ofVal .rne (immBf16 imm))
def immF64 (imm : BitVec 16) : Dword := BitVec.ofNat 64 (f64Fmt.ofVal .rne (immBf16 imm))
def immTwice (imm : BitVec 16) : Dword := (imm ++ imm : BitVec 32).setWidth 64
def immPackedBf16 (imm : BitVec 16) : Dword :=
  immTwice (BitVec.ofNat 16 (bf16Fmt.ofVal .rne (immBf16 imm)))

/-- The products of two FP8 registers, and c as f32 (R141). -/
def dotTerms (f : FloatFmt) (a b c : Nat) : List FVal :=
  f32Fmt.value c :: (List.range 4).map (fun e =>
    (f.value (bitsOf a (8 * e + 7) (8 * e))).mul (f.value (bitsOf b (8 * e + 7) (8 * e))))

/-- The two low FP8 elements as f16 (R141). -/
def widenPair (f : FloatFmt) (a : Nat) : Nat :=
  f.convert f16Fmt .rne (bitsOf a 7 0) + f.convert f16Fmt .rne (bitsOf a 15 8) * 2 ^ 16

/-- An integer result's bit pattern. -/
def intBits (w : Nat) (x : Int) : Nat := (BitVec.ofInt w x).toNat

/-- A conversion to an integer; the default mode is toward zero (R145). -/
def toIntOp (f : FloatFmt) (w : Nat) (lo hi : Int) : BitVec 3 → Dword → Dword → Dword → Dword :=
  fun rnd a _ _ => BitVec.ofNat 64 (intBits w ((f.value a.toNat).toIntClamped (roundingOf .rtz rnd) lo hi))

/-- A conversion from an integer. -/
def ofIntOp (f : FloatFmt) (x : Dword → Int) : BitVec 3 → Dword → Dword → Dword → Dword :=
  fun rnd a _ _ => BitVec.ofNat 64 (f.ofInt (roundingOf .rne rnd) (x a))

/-- A conversion of one bit pattern; a 16-bit source is the low half of its register. -/
def cvtOp (src dst : FloatFmt) (w : Nat) : BitVec 3 → Dword → Dword → Dword → Dword :=
  fun rnd a _ _ => BitVec.ofNat 64 (src.convert dst (roundingOf .rne rnd) (a.toNat % 2 ^ w))

/-- The FP8 packing conversions (R145). -/
def packFp8 (dst : FloatFmt) : BitVec 3 → Dword → Dword → Dword → Dword :=
  fun rnd a b _ => BitVec.ofNat 64 (f32Fmt.convert dst (roundingOf .rne rnd) a.toNat +
    f32Fmt.convert dst (roundingOf .rne rnd) b.toNat * 2 ^ 8)

/-- A compare's truth value. -/
def fcmpOp (f : FloatFmt) (cc : BitVec 3) (a b : Dword) : Dword := boolWord (f.cmp cc a.toNat b.toNat)

/-- A function of one bit pattern. -/
def bitsOp (f : Nat → Nat) (a : Dword) : Dword := BitVec.ofNat 64 (f a.toNat)

/-- The sign operations (R143). -/
def fabsOp (w : Nat) (a : Nat) : Nat := a % 2 ^ (w - 1)
def fnegOp (w : Nat) (a : Nat) : Nat := (a + 2 ^ (w - 1)) % 2 ^ w
def fcopysignOp (w : Nat) (a b : Dword) : Dword :=
  BitVec.ofNat 64 (a.toNat % 2 ^ (w - 1) + b.toNat / 2 ^ (w - 1) % 2 * 2 ^ (w - 1))

/-! ## SX blocks in registers (R129, R146) -/

/-- The registers of a run as one number, the first register lowest (R82). -/
def Thread.readBlock (th : Thread) (f : BitVec 7) (n : Nat) : Nat :=
  ((List.range n).map (fun i => (th.readReg (th.blockReg f i)).toNat * 2 ^ (32 * i))).sum

/-- A number written to a run of registers. -/
def Thread.blockResults (th : Thread) (f : BitVec 7) (n v : Nat) : Results :=
  (List.range n).map (fun i => (.reg (th.blockReg f i), BitVec.ofNat 32 (v / 2 ^ (32 * i))))

/-- The 16 values of block b of f32 registers, encoded; blocks lie back to back (R82, R92). -/
def sxEncodeBlocks (m n : Nat) (md : Rounding) (v : Nat) : Nat :=
  ((List.range n).map (fun b =>
    sxEncode m md ((List.range 16).map (fun j => bitsOf v (512 * b + 32 * j + 31) (512 * b + 32 * j))) *
      2 ^ (8 * sxBytes m * b))).sum

/-- n blocks decoded to f32 (R91). -/
def sxDecodeBlocks (m n v : Nat) : Nat :=
  ((List.range (16 * n)).map (fun j =>
    f32Fmt.ofVal .rne (sxValue m (v / 2 ^ (8 * sxBytes m * (j / 16))) (j % 16)) * 2 ^ (32 * j))).sum

/-- The frame of R128 over block operands (R129). -/
def State.blockOp (s : State) (vd va : BitVec 7) (nd na : Nat) (f : Rounding → Nat → Nat) : State :=
  s.guarded
    { opnds := []
      illegal := blockIllegal s.curBudget va na false || blockIllegal s.curBudget vd nd false
      cls := { accepts := true, mz := true, rnd := .rounding, vc := false }
      blocks := [(va, na)] }
    fun s => s.mapLanes fun l th =>
      if s.cur.active l th then
        th.commit s.cur.length .now (th.blockResults vd nd (f (roundingOf .rne s.cur.rnd) (th.readBlock va na)))
      else if s.cur.mz then th.commit s.cur.length .now (th.blockResults vd nd 0)
      else th.commit s.cur.length .now []

/-! ## The meanings -/

/-- `fadd.f32 vd, va, vb`. -/
def execFaddF32 (vd va vb : BitVec 7) (tr : Bool) (s : State) : Host.Outcome State Fault Refusal :=
  .next (s.alu ((fm32 vd va vb tr).rounded) (fOp 32 1 fun md a b _ => f32Fmt.add md a b))

/-- `fsub.f32 vd, va, vb`. -/
def execFsubF32 (vd va vb : BitVec 7) (tr : Bool) (s : State) : Host.Outcome State Fault Refusal :=
  .next (s.alu ((fm32 vd va vb tr).rounded) (fOp 32 1 fun md a b _ => f32Fmt.sub md a b))

/-- `fmul.f32 vd, va, vb`. -/
def execFmulF32 (vd va vb : BitVec 7) (tr : Bool) (s : State) : Host.Outcome State Fault Refusal :=
  .next (s.alu ((fm32 vd va vb tr).rounded) (fOp 32 1 fun md a b _ => f32Fmt.mul md a b))

/-- `fma.f32 vd, va, vb, vc`. -/
def execFmaF32 (vd va vb : BitVec 7) (tr : Bool) (s : State) : Host.Outcome State Fault Refusal :=
  .next (s.alu ((fm32 vd va vb tr).rounded.withVc32) (fOp 32 1 f32Fmt.fma))

/-- `fms.f32 vd, va, vb, vc`. -/
def execFmsF32 (vd va vb : BitVec 7) (tr : Bool) (s : State) : Host.Outcome State Fault Refusal :=
  .next (s.alu ((fm32 vd va vb tr).rounded.withVc32) (fOp 32 1 f32Fmt.fms))

/-- `fnma.f32 vd, va, vb, vc`. -/
def execFnmaF32 (vd va vb : BitVec 7) (tr : Bool) (s : State) : Host.Outcome State Fault Refusal :=
  .next (s.alu ((fm32 vd va vb tr).rounded.withVc32) (fOp 32 1 f32Fmt.fnma))

/-- `fmin.f32 vd, va, vb`. -/
def execFminF32 (vd va vb : BitVec 7) (tr : Bool) (s : State) : Host.Outcome State Fault Refusal :=
  .next (s.alu ((fm32 vd va vb tr).rounded) (fOp 32 1 fun _ a b _ => f32Fmt.min a b))

/-- `fmax.f32 vd, va, vb`. -/
def execFmaxF32 (vd va vb : BitVec 7) (tr : Bool) (s : State) : Host.Outcome State Fault Refusal :=
  .next (s.alu ((fm32 vd va vb tr).rounded) (fOp 32 1 fun _ a b _ => f32Fmt.max a b))

/-- `fcmp.cc.f32 pk, va, vb`. -/
def execFcmpF32 (pk : BitVec 3) (va vb : BitVec 7) (cc : BitVec 3) (s : State) : Host.Outcome State Fault Refusal :=
  .next (s.alu ({ dst := .pred pk, a := .r32 va, b := .r32 vb, c := .none, tr := false, rnd := .none }) (plain2 (fcmpOp f32Fmt cc)))

/-- `fadd.f64 vd, va, vb`. -/
def execFaddF64 (vd va vb : BitVec 7) (tr : Bool) (s : State) : Host.Outcome State Fault Refusal :=
  .next (s.alu ((fm64 vd va vb tr).rounded) (fOp 64 1 fun md a b _ => f64Fmt.add md a b))

/-- `fsub.f64 vd, va, vb`. -/
def execFsubF64 (vd va vb : BitVec 7) (tr : Bool) (s : State) : Host.Outcome State Fault Refusal :=
  .next (s.alu ((fm64 vd va vb tr).rounded) (fOp 64 1 fun md a b _ => f64Fmt.sub md a b))

/-- `fmul.f64 vd, va, vb`. -/
def execFmulF64 (vd va vb : BitVec 7) (tr : Bool) (s : State) : Host.Outcome State Fault Refusal :=
  .next (s.alu ((fm64 vd va vb tr).rounded) (fOp 64 1 fun md a b _ => f64Fmt.mul md a b))

/-- `fma.f64 vd, va, vb, vc`. -/
def execFmaF64 (vd va vb : BitVec 7) (tr : Bool) (s : State) : Host.Outcome State Fault Refusal :=
  .next (s.alu ((fm64 vd va vb tr).rounded.withVc64) (fOp 64 1 f64Fmt.fma))

/-- `fms.f64 vd, va, vb, vc`. -/
def execFmsF64 (vd va vb : BitVec 7) (tr : Bool) (s : State) : Host.Outcome State Fault Refusal :=
  .next (s.alu ((fm64 vd va vb tr).rounded.withVc64) (fOp 64 1 f64Fmt.fms))

/-- `fnma.f64 vd, va, vb, vc`. -/
def execFnmaF64 (vd va vb : BitVec 7) (tr : Bool) (s : State) : Host.Outcome State Fault Refusal :=
  .next (s.alu ((fm64 vd va vb tr).rounded.withVc64) (fOp 64 1 f64Fmt.fnma))

/-- `fmin.f64 vd, va, vb`. -/
def execFminF64 (vd va vb : BitVec 7) (tr : Bool) (s : State) : Host.Outcome State Fault Refusal :=
  .next (s.alu ((fm64 vd va vb tr).rounded) (fOp 64 1 fun _ a b _ => f64Fmt.min a b))

/-- `fmax.f64 vd, va, vb`. -/
def execFmaxF64 (vd va vb : BitVec 7) (tr : Bool) (s : State) : Host.Outcome State Fault Refusal :=
  .next (s.alu ((fm64 vd va vb tr).rounded) (fOp 64 1 fun _ a b _ => f64Fmt.max a b))

/-- `fcmp.cc.f64 pk, va, vb`. -/
def execFcmpF64 (pk : BitVec 3) (va vb : BitVec 7) (cc : BitVec 3) (s : State) : Host.Outcome State Fault Refusal :=
  .next (s.alu ({ dst := .pred pk, a := .r64 va, b := .r64 vb, c := .none, tr := false, rnd := .none }) (plain2 (fcmpOp f64Fmt cc)))

/-- `fadd.f16 vd, va, vb`. -/
def execFaddF16 (vd va vb : BitVec 7) (tr : Bool) (s : State) : Host.Outcome State Fault Refusal :=
  .next (s.alu ((fm32 vd va vb tr).rounded) (fOp 16 2 fun md a b _ => f16Fmt.add md a b))

/-- `fmul.f16 vd, va, vb`. -/
def execFmulF16 (vd va vb : BitVec 7) (tr : Bool) (s : State) : Host.Outcome State Fault Refusal :=
  .next (s.alu ((fm32 vd va vb tr).rounded) (fOp 16 2 fun md a b _ => f16Fmt.mul md a b))

/-- `fma.f16 vd, va, vb, vc`. -/
def execFmaF16 (vd va vb : BitVec 7) (tr : Bool) (s : State) : Host.Outcome State Fault Refusal :=
  .next (s.alu ((fm32 vd va vb tr).rounded.withVc32) (fOp 16 2 f16Fmt.fma))

/-- `fmax.f16 vd, va, vb`. -/
def execFmaxF16 (vd va vb : BitVec 7) (tr : Bool) (s : State) : Host.Outcome State Fault Refusal :=
  .next (s.alu ((fm32 vd va vb tr).rounded) (fOp 16 2 fun _ a b _ => f16Fmt.max a b))

/-- `fadd.bf16 vd, va, vb`. -/
def execFaddBf16 (vd va vb : BitVec 7) (tr : Bool) (s : State) : Host.Outcome State Fault Refusal :=
  .next (s.alu ((fm32 vd va vb tr).rounded) (fOp 16 2 fun md a b _ => bf16Fmt.add md a b))

/-- `fmul.bf16 vd, va, vb`. -/
def execFmulBf16 (vd va vb : BitVec 7) (tr : Bool) (s : State) : Host.Outcome State Fault Refusal :=
  .next (s.alu ((fm32 vd va vb tr).rounded) (fOp 16 2 fun md a b _ => bf16Fmt.mul md a b))

/-- `fma.bf16 vd, va, vb, vc`. -/
def execFmaBf16 (vd va vb : BitVec 7) (tr : Bool) (s : State) : Host.Outcome State Fault Refusal :=
  .next (s.alu ((fm32 vd va vb tr).rounded.withVc32) (fOp 16 2 bf16Fmt.fma))

/-- `fmax.bf16 vd, va, vb`. -/
def execFmaxBf16 (vd va vb : BitVec 7) (tr : Bool) (s : State) : Host.Outcome State Fault Refusal :=
  .next (s.alu ((fm32 vd va vb tr).rounded) (fOp 16 2 fun _ a b _ => bf16Fmt.max a b))

/-- `fadd.e4m3 vd, va, vb`. -/
def execFaddE4m3 (vd va vb : BitVec 7) (tr : Bool) (s : State) : Host.Outcome State Fault Refusal :=
  .next (s.alu ((fm32 vd va vb tr).rounded) (fOp 8 4 fun md a b _ => e4m3Fmt.add md a b))

/-- `fmul.e4m3 vd, va, vb`. -/
def execFmulE4m3 (vd va vb : BitVec 7) (tr : Bool) (s : State) : Host.Outcome State Fault Refusal :=
  .next (s.alu ((fm32 vd va vb tr).rounded) (fOp 8 4 fun md a b _ => e4m3Fmt.mul md a b))

/-- `fdot.f32.e4m3 vd, va, vb, vc`. -/
def execFdotF32E4m3 (vd va vb : BitVec 7) (tr : Bool) (s : State) : Host.Outcome State Fault Refusal :=
  .next (s.alu ((fm32 vd va vb tr).rounded.withVc32) (fOp 32 1 fun md a b c => f32Fmt.sumRound md (dotTerms e4m3Fmt a b c)))

/-- `cvt.f16.e4m3 vd, va`. -/
def execCvtF16E4m3 (vd va : BitVec 7) (tr : Bool) (s : State) : Host.Outcome State Fault Refusal :=
  .next (s.alu ((fm32u vd va tr).rounded) (plain1 (bitsOp (widenPair e4m3Fmt))))

/-- `fadd.e5m2 vd, va, vb`. -/
def execFaddE5m2 (vd va vb : BitVec 7) (tr : Bool) (s : State) : Host.Outcome State Fault Refusal :=
  .next (s.alu ((fm32 vd va vb tr).rounded) (fOp 8 4 fun md a b _ => e5m2Fmt.add md a b))

/-- `fmul.e5m2 vd, va, vb`. -/
def execFmulE5m2 (vd va vb : BitVec 7) (tr : Bool) (s : State) : Host.Outcome State Fault Refusal :=
  .next (s.alu ((fm32 vd va vb tr).rounded) (fOp 8 4 fun md a b _ => e5m2Fmt.mul md a b))

/-- `fdot.f32.e5m2 vd, va, vb, vc`. -/
def execFdotF32E5m2 (vd va vb : BitVec 7) (tr : Bool) (s : State) : Host.Outcome State Fault Refusal :=
  .next (s.alu ((fm32 vd va vb tr).rounded.withVc32) (fOp 32 1 fun md a b c => f32Fmt.sumRound md (dotTerms e5m2Fmt a b c)))

/-- `cvt.f16.e5m2 vd, va`. -/
def execCvtF16E5m2 (vd va : BitVec 7) (tr : Bool) (s : State) : Host.Outcome State Fault Refusal :=
  .next (s.alu ((fm32u vd va tr).rounded) (plain1 (bitsOp (widenPair e5m2Fmt))))

/-- `fdiv.f32 vd, va, vb`. -/
def execFdivF32 (vd va vb : BitVec 7) (tr : Bool) (s : State) : Host.Outcome State Fault Refusal :=
  .next (s.alu ((fm32 vd va vb tr).rounded) (fOp 32 1 fun md a b _ => f32Fmt.div md a b))

/-- `fdiv.f64 vd, va, vb`. -/
def execFdivF64 (vd va vb : BitVec 7) (tr : Bool) (s : State) : Host.Outcome State Fault Refusal :=
  .next (s.alu ((fm64 vd va vb tr).rounded) (fOp 64 1 fun md a b _ => f64Fmt.div md a b))

/-- `fsqrt.f32 vd, va`. -/
def execFsqrtF32 (vd va : BitVec 7) (tr : Bool) (s : State) : Host.Outcome State Fault Refusal :=
  .next (s.alu ((fm32u vd va tr).rounded) (fOp 32 1 fun md a _ _ => f32Fmt.sqrt md a))

/-- `fsqrt.f64 vd, va`. -/
def execFsqrtF64 (vd va : BitVec 7) (tr : Bool) (s : State) : Host.Outcome State Fault Refusal :=
  .next (s.alu ((fm64u vd va tr).rounded) (fOp 64 1 fun md a _ _ => f64Fmt.sqrt md a))

/-- `rcp.f32 vd, va`. -/
def execRcpF32 (vd va : BitVec 7) (tr : Bool) (s : State) : Host.Outcome State Fault Refusal :=
  .next (s.alu (fm32u vd va tr) (plain1 (bitsOp rcpF32)))

/-- `rsqrt.f32 vd, va`. -/
def execRsqrtF32 (vd va : BitVec 7) (tr : Bool) (s : State) : Host.Outcome State Fault Refusal :=
  .next (s.alu (fm32u vd va tr) (plain1 (bitsOp rsqrtF32)))

/-- `exp2.f32 vd, va`. -/
def execExp2F32 (vd va : BitVec 7) (tr : Bool) (s : State) : Host.Outcome State Fault Refusal :=
  .next (s.alu (fm32u vd va tr) (plain1 (bitsOp exp2F32)))

/-- `log2.f32 vd, va`. -/
def execLog2F32 (vd va : BitVec 7) (tr : Bool) (s : State) : Host.Outcome State Fault Refusal :=
  .next (s.alu (fm32u vd va tr) (plain1 (bitsOp log2F32)))

/-- `sinpi.f32 vd, va`. -/
def execSinpiF32 (vd va : BitVec 7) (tr : Bool) (s : State) : Host.Outcome State Fault Refusal :=
  .next (s.alu (fm32u vd va tr) (plain1 (bitsOp sinpiF32)))

/-- `cospi.f32 vd, va`. -/
def execCospiF32 (vd va : BitVec 7) (tr : Bool) (s : State) : Host.Outcome State Fault Refusal :=
  .next (s.alu (fm32u vd va tr) (plain1 (bitsOp cospiF32)))

/-- `fabs.f32 vd, va`. -/
def execFabsF32 (vd va : BitVec 7) (tr : Bool) (s : State) : Host.Outcome State Fault Refusal :=
  .next (s.alu (fm32u vd va tr) (plain1 (bitsOp (fabsOp 32))))

/-- `fneg.f32 vd, va`. -/
def execFnegF32 (vd va : BitVec 7) (tr : Bool) (s : State) : Host.Outcome State Fault Refusal :=
  .next (s.alu (fm32u vd va tr) (plain1 (bitsOp (fnegOp 32))))

/-- `fcopysign.f32 vd, va, vb`. -/
def execFcopysignF32 (vd va vb : BitVec 7) (tr : Bool) (s : State) : Host.Outcome State Fault Refusal :=
  .next (s.alu (fm32 vd va vb tr) (plain2 (fcopysignOp 32)))

/-- `fclass.f32 vd, va`. -/
def execFclassF32 (vd va : BitVec 7) (tr : Bool) (s : State) : Host.Outcome State Fault Refusal :=
  .next (s.alu (fm32u vd va tr) (plain1 (bitsOp f32Fmt.classOf)))

/-- `fabs.f64 vd, va`. -/
def execFabsF64 (vd va : BitVec 7) (tr : Bool) (s : State) : Host.Outcome State Fault Refusal :=
  .next (s.alu (fm64u vd va tr) (plain1 (bitsOp (fabsOp 64))))

/-- `fneg.f64 vd, va`. -/
def execFnegF64 (vd va : BitVec 7) (tr : Bool) (s : State) : Host.Outcome State Fault Refusal :=
  .next (s.alu (fm64u vd va tr) (plain1 (bitsOp (fnegOp 64))))

/-- `fcopysign.f64 vd, va, vb`. -/
def execFcopysignF64 (vd va vb : BitVec 7) (tr : Bool) (s : State) : Host.Outcome State Fault Refusal :=
  .next (s.alu (fm64 vd va vb tr) (plain2 (fcopysignOp 64)))

/-- `fclass.f64 vd, va`. -/
def execFclassF64 (vd va : BitVec 7) (tr : Bool) (s : State) : Host.Outcome State Fault Refusal :=
  .next (s.alu ({ fm64u vd va tr with dst := .r32 vd }) (plain1 (bitsOp f64Fmt.classOf)))

/-- `fadd.f32 vd, #imm`. -/
def execFaddF32Imm (vd : BitVec 7) (imm : BitVec 16) (s : State) : Host.Outcome State Fault Refusal :=
  .next (s.alu ((fmI32 vd (immF32 imm)).rounded) (fOp 32 1 fun md a b _ => f32Fmt.add md a b))

/-- `fmul.f32 vd, #imm`. -/
def execFmulF32Imm (vd : BitVec 7) (imm : BitVec 16) (s : State) : Host.Outcome State Fault Refusal :=
  .next (s.alu ((fmI32 vd (immF32 imm)).rounded) (fOp 32 1 fun md a b _ => f32Fmt.mul md a b))

/-- `fmax.f32 vd, #imm`. -/
def execFmaxF32Imm (vd : BitVec 7) (imm : BitVec 16) (s : State) : Host.Outcome State Fault Refusal :=
  .next (s.alu ((fmI32 vd (immF32 imm)).rounded) (fOp 32 1 fun _ a b _ => f32Fmt.max a b))

/-- `fmin.f32 vd, #imm`. -/
def execFminF32Imm (vd : BitVec 7) (imm : BitVec 16) (s : State) : Host.Outcome State Fault Refusal :=
  .next (s.alu ((fmI32 vd (immF32 imm)).rounded) (fOp 32 1 fun _ a b _ => f32Fmt.min a b))

/-- `fadd.f64 vd, #imm`. -/
def execFaddF64Imm (vd : BitVec 7) (imm : BitVec 16) (s : State) : Host.Outcome State Fault Refusal :=
  .next (s.alu ((fmI64 vd (immF64 imm)).rounded) (fOp 64 1 fun md a b _ => f64Fmt.add md a b))

/-- `fmul.f64 vd, #imm`. -/
def execFmulF64Imm (vd : BitVec 7) (imm : BitVec 16) (s : State) : Host.Outcome State Fault Refusal :=
  .next (s.alu ((fmI64 vd (immF64 imm)).rounded) (fOp 64 1 fun md a b _ => f64Fmt.mul md a b))

/-- `fmax.f64 vd, #imm`. -/
def execFmaxF64Imm (vd : BitVec 7) (imm : BitVec 16) (s : State) : Host.Outcome State Fault Refusal :=
  .next (s.alu ((fmI64 vd (immF64 imm)).rounded) (fOp 64 1 fun _ a b _ => f64Fmt.max a b))

/-- `fmin.f64 vd, #imm`. -/
def execFminF64Imm (vd : BitVec 7) (imm : BitVec 16) (s : State) : Host.Outcome State Fault Refusal :=
  .next (s.alu ((fmI64 vd (immF64 imm)).rounded) (fOp 64 1 fun _ a b _ => f64Fmt.min a b))

/-- `fmul.f16 vd, #imm`. -/
def execFmulF16Imm (vd : BitVec 7) (imm : BitVec 16) (s : State) : Host.Outcome State Fault Refusal :=
  .next (s.alu ((fmI32 vd (immTwice imm)).rounded) (fOp 16 2 fun md a b _ => f16Fmt.mul md a b))

/-- `fmul.bf16 vd, #imm`. -/
def execFmulBf16Imm (vd : BitVec 7) (imm : BitVec 16) (s : State) : Host.Outcome State Fault Refusal :=
  .next (s.alu ((fmI32 vd (immPackedBf16 imm)).rounded) (fOp 16 2 fun md a b _ => bf16Fmt.mul md a b))

/-- `fmul.e4m3 vd, #imm`. -/
def execFmulE4m3Imm (vd : BitVec 7) (imm : BitVec 16) (s : State) : Host.Outcome State Fault Refusal :=
  .next (s.alu ((fmI32 vd (immTwice imm)).rounded) (fOp 8 4 fun md a b _ => e4m3Fmt.mul md a b))

/-- `fmul.e5m2 vd, #imm`. -/
def execFmulE5m2Imm (vd : BitVec 7) (imm : BitVec 16) (s : State) : Host.Outcome State Fault Refusal :=
  .next (s.alu ((fmI32 vd (immTwice imm)).rounded) (fOp 8 4 fun md a b _ => e5m2Fmt.mul md a b))

/-- `cvt.f32.i32 vd, va`. -/
def execCvtF32I32 (vd va : BitVec 7) (tr : Bool) (s : State) : Host.Outcome State Fault Refusal :=
  .next (s.alu ((fm32u vd va tr).rounded) (ofIntOp f32Fmt fun a => (lo32 a).toInt))

/-- `cvt.f32.n32 vd, va`. -/
def execCvtF32N32 (vd va : BitVec 7) (tr : Bool) (s : State) : Host.Outcome State Fault Refusal :=
  .next (s.alu ((fm32u vd va tr).rounded) (ofIntOp f32Fmt fun a => ((lo32 a).toNat : Int)))

/-- `cvt.i32.f32 vd, va`. -/
def execCvtI32F32 (vd va : BitVec 7) (tr : Bool) (s : State) : Host.Outcome State Fault Refusal :=
  .next (s.alu ((fm32u vd va tr).rounded) (toIntOp f32Fmt 32 (-(2 ^ 31)) (2 ^ 31 - 1)))

/-- `cvt.n32.f32 vd, va`. -/
def execCvtN32F32 (vd va : BitVec 7) (tr : Bool) (s : State) : Host.Outcome State Fault Refusal :=
  .next (s.alu ((fm32u vd va tr).rounded) (toIntOp f32Fmt 32 0 (2 ^ 32 - 1)))

/-- `cvt.f64.i64 vd, va`. -/
def execCvtF64I64 (vd va : BitVec 7) (tr : Bool) (s : State) : Host.Outcome State Fault Refusal :=
  .next (s.alu ((fm64u vd va tr).rounded) (ofIntOp f64Fmt fun a => a.toInt))

/-- `cvt.i64.f64 vd, va`. -/
def execCvtI64F64 (vd va : BitVec 7) (tr : Bool) (s : State) : Host.Outcome State Fault Refusal :=
  .next (s.alu ((fm64u vd va tr).rounded) (toIntOp f64Fmt 64 (-(2 ^ 63)) (2 ^ 63 - 1)))

/-- `cvt.f64.i32 vd, va`. -/
def execCvtF64I32 (vd va : BitVec 7) (tr : Bool) (s : State) : Host.Outcome State Fault Refusal :=
  .next (s.alu ({ fm32u vd va tr with dst := .r64 vd, rnd := .rounding }) (ofIntOp f64Fmt fun a => (lo32 a).toInt))

/-- `cvt.i32.f64 vd, va`. -/
def execCvtI32F64 (vd va : BitVec 7) (tr : Bool) (s : State) : Host.Outcome State Fault Refusal :=
  .next (s.alu ({ fm64u vd va tr with dst := .r32 vd, rnd := .rounding }) (toIntOp f64Fmt 32 (-(2 ^ 31)) (2 ^ 31 - 1)))

/-- `cvt.f64.f32 vd, va`. -/
def execCvtF64F32 (vd va : BitVec 7) (tr : Bool) (s : State) : Host.Outcome State Fault Refusal :=
  .next (s.alu ({ fm32u vd va tr with dst := .r64 vd, rnd := .rounding }) (cvtOp f32Fmt f64Fmt 32))

/-- `cvt.f32.f64 vd, va`. -/
def execCvtF32F64 (vd va : BitVec 7) (tr : Bool) (s : State) : Host.Outcome State Fault Refusal :=
  .next (s.alu ({ fm64u vd va tr with dst := .r32 vd, rnd := .rounding }) (cvtOp f64Fmt f32Fmt 64))

/-- `cvt.f32.f16 vd, va`. -/
def execCvtF32F16 (vd va : BitVec 7) (tr : Bool) (s : State) : Host.Outcome State Fault Refusal :=
  .next (s.alu ((fm32u vd va tr).rounded) (cvtOp f16Fmt f32Fmt 16))

/-- `cvt.f16.f32 vd, va`. -/
def execCvtF16F32 (vd va : BitVec 7) (tr : Bool) (s : State) : Host.Outcome State Fault Refusal :=
  .next (s.alu ((fm32u vd va tr).rounded) (cvtOp f32Fmt f16Fmt 32))

/-- `cvt.f32.bf16 vd, va`. -/
def execCvtF32Bf16 (vd va : BitVec 7) (tr : Bool) (s : State) : Host.Outcome State Fault Refusal :=
  .next (s.alu ((fm32u vd va tr).rounded) (cvtOp bf16Fmt f32Fmt 16))

/-- `cvt.bf16.f32 vd, va`. -/
def execCvtBf16F32 (vd va : BitVec 7) (tr : Bool) (s : State) : Host.Outcome State Fault Refusal :=
  .next (s.alu ((fm32u vd va tr).rounded) (cvtOp f32Fmt bf16Fmt 32))

/-- `cvt.e4m3.f32 vd, va, vb`. -/
def execCvtE4m3F32 (vd va vb : BitVec 7) (tr : Bool) (s : State) : Host.Outcome State Fault Refusal :=
  .next (s.alu ((fm32 vd va vb tr).rounded) (packFp8 e4m3Fmt))

/-- `cvt.e5m2.f32 vd, va, vb`. -/
def execCvtE5m2F32 (vd va vb : BitVec 7) (tr : Bool) (s : State) : Host.Outcome State Fault Refusal :=
  .next (s.alu ((fm32 vd va vb tr).rounded) (packFp8 e5m2Fmt))

/-- `cvt.sx2.f32 vd, va`. -/
def execCvtSx2F32 (vd va : BitVec 7) (s : State) : Host.Outcome State Fault Refusal :=
  .next (s.blockOp vd va 2 16 fun md v => sxEncodeBlocks 2 1 md v)

/-- `cvt.f32.sx2 vd, va`. -/
def execCvtF32Sx2 (vd va : BitVec 7) (s : State) : Host.Outcome State Fault Refusal :=
  .next (s.blockOp vd va 16 2 fun _ v => sxDecodeBlocks 2 1 v)

/-- `cvt.sx4.f32 vd, va`. -/
def execCvtSx4F32 (vd va : BitVec 7) (s : State) : Host.Outcome State Fault Refusal :=
  .next (s.blockOp vd va 3 16 fun md v => sxEncodeBlocks 4 1 md v)

/-- `cvt.f32.sx4 vd, va`. -/
def execCvtF32Sx4 (vd va : BitVec 7) (s : State) : Host.Outcome State Fault Refusal :=
  .next (s.blockOp vd va 16 3 fun _ v => sxDecodeBlocks 4 1 v)

/-- `cvt.sx7.f32 vd, va`. -/
def execCvtSx7F32 (vd va : BitVec 7) (s : State) : Host.Outcome State Fault Refusal :=
  .next (s.blockOp vd va 9 32 fun md v => sxEncodeBlocks 7 2 md v)

/-- `cvt.f32.sx7 vd, va`. -/
def execCvtF32Sx7 (vd va : BitVec 7) (s : State) : Host.Outcome State Fault Refusal :=
  .next (s.blockOp vd va 32 9 fun _ v => sxDecodeBlocks 7 2 v)

end Sys2Proof.Machine
end

