-- ==== Sys2Proof/Machine/Uses.lean ====
section
/-! DEFINITION. Which lane registers a word reads and writes, as its fields name them: what the loader's checks of
straight-line code look at (R69, R127, R189). A field that names an index register names no register in the code, and a
rotating region is not followed (notes/assumptions/33.md). -/

namespace Sys2Proof.Machine

open Sys2Proof

/-- A run of registers: the first, and how many. -/
structure Run where
  first : Nat
  count : Nat
deriving DecidableEq, Repr

/-- What a word does with lane registers: its promise, whether it is region-closing (Table 6.7), and whether a promise
and straight-line code end at it (R69). -/
structure Uses where
  reads : List Run
  writes : List Run
  la : Nat
  closes : Bool
  ends : Bool
  /-- Registers whose result is only forwarded (R70). -/
  transient : List Run := []
deriving DecidableEq, Repr

/-- The run at a field. -/
def run (f : BitVec 7) (n : Nat) : List Run := if 0x78 ≤ f.toNat then [] else [{ first := f.toNat, count := n }]

/-- The registers of a source, and of a destination. -/
def Src.runs (vc : BitVec 7) : Src → List Run
  | .r32 f | .same32 f => run f 1
  | .r64 f | .same64 f => run f 2
  | .vc32 => run vc 1
  | .vc64 => run vc 2
  | _ => []
def Dst.runs : Dst → List Run
  | .r32 f => run f 1
  | .r64 f => run f 2
  | _ => []

/-- The registers of an arithmetic form. -/
def AluForm.uses (fm : AluForm) (vc : BitVec 7) : Uses :=
  { reads := fm.a.runs vc ++ fm.b.runs vc ++ fm.c.runs vc, writes := fm.dst.runs, la := 0, closes := false, ends := false }

/-- Registers of a data field: of an access size, and of a 1-bit size field. -/
def wide (sz : BitVec 2) : Nat := if sz = 3#2 then 2 else 1
def wide1 (sz : BitVec 1) : Nat := if sz = 1#1 then 2 else 1

/-- An LR word whose tr bit is set writes no lane register: its result is forwarded (R70). -/
def Uses.forwarded (u : Uses) (w : Word) : Uses :=
  if w.getLsbD 0 then { u with writes := [], transient := u.writes } else u

/-- No register. -/
def Uses.none : Uses := { reads := [], writes := [], la := 0, closes := false, ends := false }

/-- The register fields that most formats place alike: vd or a, va or b, and vb (Tables 4.1 and 4.3). -/
def fD (w : Word) : BitVec 7 := w.extractLsb' 18 7
def fM (w : Word) : BitVec 7 := w.extractLsb' 11 7
def fB (w : Word) : BitVec 7 := w.extractLsb' 4 7

/-- What a word does with lane registers, `vc` being the fourth operand of the prefix in front of it: each arm lists the
words of its rows of the opcode table, under the mask of their fixed bits; a word of no arm touches no lane register.
The rows of a matrix operation and the second register of an iterator element depend on a record that the word does
not hold: of a row the first register counts, and of an element both (notes/assumptions/33.md). -/
def wordUses (vc : BitVec 7) (w : Word) : Uses :=
  if w &&& 0xFE00000E#32 ∈ ([0x00000000#32, 0x00000002#32, 0x00000008#32, 0x0000000A#32, 0x0000000C#32, 0x0000000E#32,
      0x04000000#32, 0x04000002#32, 0x04000004#32, 0x04000006#32, 0x06000000#32, 0x06000002#32, 0x06000004#32,
      0x08000000#32, 0x08000002#32, 0x08000004#32, 0x08000006#32, 0x0A000000#32, 0x0A000002#32, 0x0A000004#32,
      0x0A000006#32, 0x0C000000#32, 0x0C000002#32, 0x0C000004#32, 0x0C000006#32, 0x0C000008#32, 0x0C00000A#32,
      0x0E000000#32, 0x0E000002#32, 0x0E000004#32, 0x0E000006#32, 0x0E000008#32, 0x12000000#32, 0x12000002#32,
      0x1A000000#32, 0x1A000002#32, 0x1A000004#32, 0x1A000006#32, 0x1A000008#32, 0x1A00000A#32, 0x1A00000C#32,
      0x30000000#32, 0x30000002#32, 0x30000004#32, 0x32000006#32, 0x32000008#32, 0x3C000000#32, 0x3C000002#32,
      0x3C000006#32, 0x3C000008#32, 0x3C00000C#32, 0x3C00000E#32, 0x3E000000#32, 0x3E000002#32, 0x3E000004#32,
      0x3E000006#32, 0x40000000#32, 0x44000004#32, 0x5200000C#32, 0x5200000E#32] : List Word) ∨ w &&& 0xFE000008#32 =
      0x18000000#32 then
    ((fm32 (fD w) (fM w) (fB w) false).uses vc).forwarded w
  else if w &&& 0xFE0007FE#32 ∈ ([0x00000004#32, 0x00000006#32, 0x04000008#32, 0x0400000A#32, 0x0C00000C#32,
      0x10000000#32, 0x10000002#32, 0x10000004#32, 0x10000006#32, 0x10000008#32, 0x1600000E#32, 0x3E00000C#32,
      0x3E00000E#32, 0x40000002#32, 0x40000004#32, 0x40000006#32, 0x40000008#32, 0x4000000A#32, 0x4000000C#32,
      0x4000000E#32, 0x44000000#32, 0x44000002#32, 0x44000006#32, 0x50000000#32, 0x50000002#32, 0x50000004#32,
      0x50000006#32, 0x52000004#32, 0x52000006#32, 0x52000008#32, 0x5200000A#32] : List Word) then
    ((fm32u (fD w) (fM w) false).uses vc).forwarded w
  else if w &&& 0xFE00000E#32 ∈ ([0x02000000#32, 0x02000002#32, 0x08000008#32, 0x0800000A#32, 0x0800000C#32,
      0x0800000E#32, 0x0A000008#32, 0x0A00000A#32, 0x0A00000C#32, 0x0A00000E#32, 0x1E000000#32, 0x36000000#32,
      0x36000002#32, 0x36000004#32, 0x38000006#32, 0x38000008#32, 0x42000000#32, 0x4400000C#32] : List Word) then
    ((fm64 (fD w) (fM w) (fB w) false).uses vc).forwarded w
  else if w &&& 0xFE0007FE#32 ∈ ([0x02000004#32, 0x02000006#32, 0x1E00000E#32, 0x42000002#32, 0x44000008#32,
      0x4400000A#32, 0x50000008#32, 0x5000000A#32] : List Word) then
    ((fm64u (fD w) (fM w) false).uses vc).forwarded w
  else if w &&& 0xFE00000E#32 ∈ ([0x02000008#32, 0x0200000A#32, 0x1E000002#32, 0x1E000004#32, 0x1E000006#32] : List
      Word) then
    ((fm64b32 (fD w) (fM w) (fB w) false).uses vc).forwarded w
  else if w &&& 0xFE00000E#32 ∈ ([0x06000006#32, 0x12000004#32, 0x1A00000E#32, 0x32000000#32, 0x32000002#32,
      0x32000004#32, 0x3C000004#32, 0x3C00000A#32, 0x3E000008#32, 0x3E00000A#32] : List Word) then
    (((fm32 (fD w) (fM w) (fB w) false).withVc32).uses vc).forwarded w
  else if w &&& 0xFE00000E#32 ∈ ([0x06000008#32, 0x0600000A#32] : List Word) then
    ((fmW (fD w) (fM w) (fB w) false).uses vc).forwarded w
  else if w &&& 0xFE0007FE#32 ∈ ([0x1000000A#32, 0x1000000C#32] : List Word) then
    ((fm64uTo32 (fD w) (fM w) false).uses vc).forwarded w
  else if w &&& 0xFFE00001#32 = 0x14000000#32 then
    (fmP32 (w.extractLsb' 18 3) (fM w) (fB w)).uses vc
  else if w &&& 0xFE000000#32 = 0x16000000#32 then
    (({ fm32 (fD w) (fM w) (fB w) false with c := .pred (w.extractLsb' 1 3) } : AluForm).uses vc).forwarded w
  else if w &&& 0xFE000008#32 = 0x18000008#32 then
    (({ fm64 (fD w) (fM w) (fB w) false with a := .r32 (fM w) } : AluForm).uses vc).forwarded w
  else if w &&& 0xFFE3C78F#32 ∈ ([0x1C000000#32, 0x1C000002#32, 0x1C000004#32, 0x1C000006#32] : List Word) then
    (fmPP (w.extractLsb' 18 3) (w.extractLsb' 11 3) (w.extractLsb' 4 3)).uses vc
  else if w &&& 0xFFE3C7FF#32 = 0x1C000008#32 then
    ({ fmPP (w.extractLsb' 18 3) (w.extractLsb' 11 3) 7#3 with b := .none } : AluForm).uses vc
  else if w &&& 0xFE03FFFE#32 = 0x1C00000A#32 then
    (({ dst := .r32 (fD w), a := .preds, b := .none, c := .none, tr := false, rnd := .none } : AluForm).uses vc).forwarded w
  else if w &&& 0xFFFC07FF#32 = 0x1C00000C#32 then
    ({ dst := .preds, a := .r32 (fM w), b := .none, c := .none, tr := false, rnd := .none } : AluForm).uses vc
  else if w &&& 0xFFE0000F#32 ∈ ([0x1E000008#32, 0x1E00000A#32, 0x1E00000C#32] : List Word) then
    (fmP64 (w.extractLsb' 18 3) (fM w) (fB w)).uses vc
  else if w &&& 0xFE030000#32 ∈ ([0x20000000#32, 0x20020000#32, 0x20030000#32, 0x22000000#32, 0x22010000#32,
      0x22020000#32, 0x24000000#32, 0x24010000#32, 0x24020000#32, 0x24030000#32, 0x26000000#32, 0x26010000#32,
      0x26020000#32, 0x26030000#32, 0x28000000#32, 0x28010000#32, 0x2A000000#32, 0x2C000000#32, 0x2C010000#32,
      0x2C020000#32, 0x2C030000#32, 0x48000000#32, 0x48010000#32, 0x48020000#32, 0x48030000#32, 0x4C000000#32,
      0x4C010000#32, 0x4C020000#32, 0x4C030000#32] : List Word) then
    (fmI32 (fD w) 0#64).uses vc
  else if w &&& 0xFE030000#32 ∈ ([0x20010000#32, 0x2A010000#32, 0x4A000000#32, 0x4A010000#32, 0x4A020000#32,
      0x4A030000#32] : List Word) then
    (fmI64 (fD w) 0#64).uses vc
  else if w &&& 0xFE030000#32 ∈ ([0x28020000#32, 0x28030000#32] : List Word) then
    ({ fmI32 (fD w) 0#64 with a := .none } : AluForm).uses vc
  else if w &&& 0xFFE00001#32 = 0x34000000#32 then
    ({ dst := .pred (w.extractLsb' 18 3), a := .r32 (fM w), b := .r32 (fB w), c := .none, tr := false, rnd := .none } : AluForm).uses vc
  else if w &&& 0xFE00000E#32 ∈ ([0x38000000#32, 0x38000002#32, 0x38000004#32] : List Word) then
    (((fm64 (fD w) (fM w) (fB w) false).withVc64).uses vc).forwarded w
  else if w &&& 0xFFE00001#32 = 0x3A000000#32 then
    ({ dst := .pred (w.extractLsb' 18 3), a := .r64 (fM w), b := .r64 (fB w), c := .none, tr := false, rnd := .none } : AluForm).uses vc
  else if w &&& 0xFE0007FE#32 = 0x4400000E#32 then
    (({ fm64u (fD w) (fM w) false with dst := .r32 (fD w) } : AluForm).uses vc).forwarded w
  else if w &&& 0xFE0007FE#32 ∈ ([0x5000000C#32, 0x52000000#32] : List Word) then
    (({ fm32u (fD w) (fM w) false with dst := .r64 (fD w), rnd := .rounding } : AluForm).uses vc).forwarded w
  else if w &&& 0xFE0007FE#32 ∈ ([0x5000000E#32, 0x52000002#32] : List Word) then
    (({ fm64u (fD w) (fM w) false with dst := .r32 (fD w), rnd := .rounding } : AluForm).uses vc).forwarded w
  else if w &&& 0xFE0007FF#32 = 0x54000000#32 then
    { reads := run (fM w) 16, writes := run (fD w) 2, la := 0, closes := false, ends := false }
  else if w &&& 0xFE0007FF#32 = 0x54000002#32 then
    { reads := run (fM w) 16, writes := run (fD w) 3, la := 0, closes := false, ends := false }
  else if w &&& 0xFE0007FF#32 = 0x54000004#32 then
    { reads := run (fM w) 32, writes := run (fD w) 9, la := 0, closes := false, ends := false }
  else if w &&& 0xFE0007FF#32 = 0x54000006#32 then
    { reads := run (fM w) 2, writes := run (fD w) 16, la := 0, closes := false, ends := false }
  else if w &&& 0xFE0007FF#32 = 0x54000008#32 then
    { reads := run (fM w) 3, writes := run (fD w) 16, la := 0, closes := false, ends := false }
  else if w &&& 0xFE0007FF#32 = 0x5400000A#32 then
    { reads := run (fM w) 9, writes := run (fD w) 32, la := 0, closes := false, ends := false }
  else if w &&& 0xFE00000E#32 ∈ ([0x56000000#32, 0x56000002#32, 0x56000004#32, 0x56000006#32] : List Word) then
    ({ reads := run (fM w) 1 ++ run (fB w) 1, writes := run (fD w) 1, la := 0, closes := false, ends := false } : Uses).forwarded w
  else if w &&& 0xFE00000E#32 = 0x56000008#32 then
    ({ reads := run (fM w) 2 ++ run (fB w) 1, writes := run (fD w) 2, la := 0, closes := false, ends := false } : Uses).forwarded w
  else if w &&& 0xFE03C7FE#32 = 0x5600000A#32 then
    ({ reads := [], writes := run (fD w) 2, la := 0, closes := false, ends := false } : Uses).forwarded w
  else if w &&& 0xFE0007FE#32 = 0x5600000C#32 then
    ({ reads := run (fM w) 1, writes := run (fD w) 1, la := 0, closes := false, ends := false } : Uses).forwarded w
  else if w &&& 0xFE020000#32 ∈ ([0x58000000#32, 0x5A000000#32, 0x5C000000#32, 0x5E000000#32] : List Word) then
    { reads := run ((w.extractLsb' 11 4).setWidth 7) 1, writes := run (fD w) (wide (w.extractLsb' 15 2)), la := (w.extractLsb' 7 4).toNat, closes := false, ends := false }
  else if w &&& 0xFE020780#32 ∈ ([0x58020000#32, 0x5A020000#32, 0x5C020000#32, 0x5E020000#32] : List Word) then
    { reads := run ((w.extractLsb' 11 4).setWidth 7) 1 ++ run (fD w) (wide (w.extractLsb' 15 2)), writes := [], la := 0, closes := false, ends := false }
  else if w &&& 0xFE038007#32 = 0x60000000#32 then
    { reads := run ((w.extractLsb' 11 4).setWidth 7) 1, writes := run (fD w) (wide (w.extractLsb' 3 2)), la := (w.extractLsb' 7 4).toNat, closes := false, ends := false }
  else if w &&& 0xFE038787#32 = 0x60008000#32 then
    { reads := run ((w.extractLsb' 11 4).setWidth 7) 1 ++ run (fD w) (wide (w.extractLsb' 3 2)), writes := [], la := 0, closes := false, ends := false }
  else if w &&& 0xFE038787#32 = 0x60010000#32 then
    { reads := run ((w.extractLsb' 11 4).setWidth 7) 1 ++ run (fD w) (wide (w.extractLsb' 3 2)), writes := [], la := 0, closes := true, ends := false }
  else if w &&& 0xFE000079#32 ∈ ([0x62000000#32, 0x62000008#32, 0x62000010#32, 0x62000018#32, 0x62000020#32,
      0x62000028#32, 0x62000030#32, 0x62000038#32, 0x62000040#32] : List Word) then
    { reads := run ((w.extractLsb' 14 4).setWidth 7) 1 ++ run (fD w) (wide1 (w.extractLsb' 13 1)), writes := run (fD w) (wide1 (w.extractLsb' 13 1)), la := (w.extractLsb' 7 4).toNat, closes := true, ends := false }
  else if w &&& 0xFE000079#32 = 0x62000048#32 then
    { reads := run ((w.extractLsb' 14 4).setWidth 7) 1 ++ run (fD w) (wide1 (w.extractLsb' 13 1)) ++ run vc (wide1 (w.extractLsb' 13 1)), writes := run (fD w) (wide1 (w.extractLsb' 13 1)), la := (w.extractLsb' 7 4).toNat, closes := true, ends := false }
  else if w &&& 0xFE000000#32 ∈ ([0x64000000#32, 0x66000000#32, 0xA0000000#32] : List Word) ∨ w &&& 0xFFE00000#32 =
      0x65E00000#32 ∨ w &&& 0xFFFFFFFF#32 ∈ ([0x68000001#32, 0x78000000#32, 0x78000002#32] : List Word) ∨ w &&&
      0xFE0007FF#32 = 0x78000001#32 then
    { reads := [], writes := [], la := 0, closes := false, ends := true }
  else if w &&& 0xFE03FFFF#32 ∈ ([0x68000002#32, 0x68000003#32] : List Word) then
    { reads := run (fD w) 1, writes := [], la := 0, closes := false, ends := true }
  else if w &&& 0xFE03E7FF#32 = 0x68000005#32 ∨ w &&& 0xFE03FFFF#32 = 0x6800000C#32 ∨ w &&& 0xFE03F7FF#32 =
      0x76000005#32 ∨ w &&& 0xFE0307FF#32 ∈ ([0x6A000027#32, 0x6A00002B#32] : List Word) ∨ w &&& 0xFE0007FF#32 ∈
      ([0x6A00002F#32, 0x6A000033#32] : List Word) ∨ w &&& 0xFE0207FF#32 = 0x6C00001B#32 then
    { reads := run (fD w) 1, writes := [], la := 0, closes := false, ends := false }
  else if w &&& 0xFE03E07F#32 = 0x68000006#32 ∨ w &&& 0xFE03F87F#32 = 0x6800000B#32 ∨ w &&& 0xFE03C07F#32 =
      0x6E000009#32 then
    { reads := [], writes := run (fD w) 1, la := (w.extractLsb' 7 4).toNat, closes := false, ends := false }
  else if w &&& 0xFE00007F#32 = 0x6800000A#32 then
    { reads := [], writes := run (fD w) (if srWide (fM w).toNat then 2 else 1), la := (w.extractLsb' 7 4).toNat, closes := false, ends := false }
  else if w &&& 0xFFC0007F#32 = 0x76000001#32 then
    { reads := [], writes := run (fM w) 1, la := (w.extractLsb' 7 4).toNat, closes := true, ends := false }
  else if w &&& 0xFFC007FF#32 = 0x76000002#32 then
    { reads := run (fM w) 1, writes := [], la := 0, closes := false, ends := false }
  else if w &&& 0xFE03FFFF#32 ∈ ([0x76000004#32, 0x6E000010#32, 0x70000000#32, 0x70000800#32, 0x70000001#32,
      0x70000003#32, 0x74000004#32] : List Word) ∨ w &&& 0xFE000783#32 ∈ ([0x6A000000#32, 0x6A000001#32] : List Word)
      ∨ w &&& 0xFE0387FF#32 = 0x6A00000B#32 ∨ w &&& 0xFE03C7FF#32 ∈ ([0x6C000000#32, 0x6C000001#32, 0x6C000002#32,
      0x6C000003#32, 0x6C000004#32, 0x6C000005#32, 0x6C000006#32, 0x6C000007#32, 0x6C000008#32] : List Word) then
    { reads := run (fD w) 1, writes := [], la := 0, closes := true, ends := false }
  else if w &&& 0xFE00007F#32 = 0x76000006#32 then
    { reads := run (fD w) 1, writes := run (fM w) 1, la := (w.extractLsb' 7 4).toNat, closes := false, ends := false }
  else if w &&& 0xFE0007FF#32 = 0x76000008#32 ∨ w &&& 0xFE0307FF#32 = 0x6A000013#32 then
    { reads := run (fD w) 2, writes := [], la := 0, closes := false, ends := false }
  else if w &&& 0xFE03807F#32 = 0x76000009#32 ∨ w &&& 0xFE03C07F#32 = 0x6C00001A#32 then
    { reads := [], writes := run (fD w) 2, la := (w.extractLsb' 7 4).toNat, closes := false, ends := false }
  else if w &&& 0xFFFFFFFF#32 ∈ ([0x7600000A#32, 0x6A000007#32, 0x74000003#32] : List Word) ∨ w &&& 0xFFFF87FF#32 =
      0x6A00000F#32 ∨ w &&& 0xFFFFC7FF#32 ∈ ([0x6C000018#32, 0x6C000019#32] : List Word) then
    { reads := [], writes := [], la := 0, closes := true, ends := false }
  else if w &&& 0xFE0007F8#32 = 0x6E000000#32 then
    { reads := run (fD w) 4 ++ run (fM w) 1, writes := [], la := 0, closes := Config.cptToMain w, ends := false }
  else if w &&& 0xFE00007F#32 ∈ ([0x6E000011#32, 0x72000002#32, 0x72000003#32] : List Word) then
    { reads := run (fM w) 1, writes := run (fD w) 2, la := (w.extractLsb' 7 4).toNat, closes := true, ends := false }
  else if w &&& 0xFE00007C#32 ∈ ([0x6E000040#32, 0x6E000044#32, 0x6E000048#32, 0x6E00004C#32, 0x6E000050#32,
      0x6E000054#32, 0x6E000058#32, 0x6E00005C#32, 0x6E000060#32] : List Word) then
    { reads := run ((w.extractLsb' 11 5).setWidth 7 <<< 1) 2 ++ run (fD w) (wide1 (w.extractLsb' 1 1)), writes := run (fD w) (wide1 (w.extractLsb' 1 1)), la := (w.extractLsb' 7 4).toNat, closes := true, ends := false }
  else if w &&& 0xFE00007C#32 = 0x6E000064#32 then
    { reads := run ((w.extractLsb' 11 5).setWidth 7 <<< 1) 2 ++ run (fD w) (2 * wide1 (w.extractLsb' 1 1)), writes := run (fD w) (wide1 (w.extractLsb' 1 1)), la := (w.extractLsb' 7 4).toNat, closes := true, ends := false }
  else if w &&& 0xFE00007F#32 = 0x70000002#32 then
    { reads := run (fM w) 1, writes := run (fD w) 1, la := (w.extractLsb' 7 4).toNat, closes := false, ends := false }
  else if w &&& 0xFE00007F#32 ∈ ([0x70000004#32, 0x72000004#32] : List Word) then
    { reads := run (fM w) 1, writes := run (fD w) 2, la := (w.extractLsb' 7 4).toNat, closes := false, ends := false }
  else if w &&& 0xFE0007FF#32 = 0x70000005#32 then
    { reads := run (fM w) 1, writes := run (fD w) 2, la := 0, closes := true, ends := false }
  else if w &&& 0xFE00007F#32 = 0x6A000003#32 then
    { reads := run (fM w) 1, writes := run (fD w) 1, la := (w.extractLsb' 7 4).toNat, closes := true, ends := false }
  else if w &&& 0xFE00007F#32 = 0x6A000017#32 then
    { reads := run (fM w) 1, writes := run (fD w) 16, la := (w.extractLsb' 7 4).toNat, closes := false, ends := false }
  else if w &&& 0xFE000078#32 = 0x6C000010#32 then
    { reads := [], writes := run (fD w) 2 ++ run (fM w) 1, la := (w.extractLsb' 7 4).toNat, closes := true, ends := false }
  else if w &&& 0xFE0007FF#32 ∈ ([0x72000000#32, 0x72000001#32, 0x72000005#32] : List Word) then
    { reads := run (fD w) 1 ++ run (fM w) 2, writes := [], la := 0, closes := true, ends := false }
  else if w &&& 0xFE0007FF#32 = 0x72000010#32 then
    { reads := run (fM w) 4, writes := run (fD w) 2, la := 0, closes := true, ends := false }
  else if w &&& 0xFE0007FF#32 ∈ ([0x74000000#32, 0x74000001#32, 0x74000002#32] : List Word) then
    { reads := run (fD w) 1 ++ run (fM w) 4, writes := [], la := 0, closes := true, ends := false }
  else if w &&& 0xFE0007FF#32 = 0x74000005#32 then
    { reads := run (fM w) 1, writes := run (fD w) 2, la := 0, closes := false, ends := false }
  else if w &&& 0xFE001FFF#32 = 0xA2000020#32 then
    { reads := run ((w.extractLsb' 13 6).setWidth 7) 1, writes := [], la := 0, closes := false, ends := false }
  else if w &&& 0xFE001FFF#32 = 0xA2000022#32 then
    { reads := [], writes := run ((w.extractLsb' 19 6).setWidth 7) 1, la := 0, closes := false, ends := false }
  else if w &&& 0xFE001FFF#32 = 0xA2000024#32 then
    { reads := [], writes := run ((w.extractLsb' 19 6).setWidth 7) 2, la := 0, closes := false, ends := false }
  else Uses.none

end Sys2Proof.Machine
end

