-- ==== Sys2Proof/Machine/Loader.lean ====
section
/-! DEFINITION. Code objects: their header, tables and manifest, and the checks of a load (R185 to R190, Tables 9.2 to
9.4). -/

namespace Sys2Proof.Machine

open Sys2Proof

/-! ## The tables of an object (R185 to R188) -/

/-- A field of the header. -/
def headerField (bs : List Byte) (hi lo : Nat) : Nat := bitsOf (partNat bs 0 128) hi lo

/-- A table of n entries of a size at an offset lies within the object. -/
def tableFits (bs : List Byte) (off n size : Nat) : Bool := decide (off + n * size ≤ bs.length)

/-- The entries of a table, as byte runs. -/
def tableItems (bs : List Byte) (off n size : Nat) : List (List Byte) := (List.range n).map (fun i => part bs (off + i * size) size)

/-- The header's fields are in range, and the tables lie within the object (Table 9.2). -/
def headerGood (bs : List Byte) : Bool :=
  let f := headerField bs
  decide (128 ≤ bs.length) && f 31 0 = 0x54484F43 && f 47 32 = 1 && decide (f 55 48 ≤ 1) && f 63 57 = 0 &&
    !(f 56 56 = 1 && f 55 48 = 1) && decide (4 ≤ f 95 64) && decide (f 95 64 ≤ 16777216) && f 95 64 % 4 = 0 &&
    decide (1 ≤ f 104 96) && decide (f 104 96 ≤ 256) && f 111 105 = 0 && decide (f 127 112 ≤ 16384) &&
    f 159 128 % 65536 = 0 && decide (1 ≤ f 287 272) && f 1023 352 = 0 && tableFits bs (f 159 128) 1 (f 95 64) &&
    tableFits bs (f 191 160) (f 104 96) 8 && tableFits bs (f 223 192) (f 127 112) 72 &&
    tableFits bs (f 255 224) (f 271 256) 36 && tableFits bs (f 319 288) (f 287 272) 64 &&
    tableFits bs (f 351 320) 1 (64 + 48 * f 104 96 + 96)

/-- A group table entry: its length, and whether it is in range within a code section (R187). -/
def groupGood (codeLen : Nat) (n : Nat) (bs : List Byte) : Bool :=
  let v := leNat bs
  let len := bitsOf v 16 0
  bitsOf v 63 17 = 0 && len % 4 = 0 && decide (4 ≤ len) && decide (len ≤ 65536) && decide (65536 * n + len ≤ codeLen)

/-- A live-in table entry's set, and whether its reserved bytes and its unused registers are zero; a set of more than 64
registers is the load's LOAD_LIVEIN (notes/assumptions/36.md). -/
def lsetOf (bs : List Byte) : List Nat := ((bs.drop 8).take (leNat (bs.take 1))).map (·.toNat)
def lsetGood (bs : List Byte) : Bool := partNat bs 1 7 = 0 && (bs.drop (8 + leNat (bs.take 1))).all (· = 0#8)
def lsetLarge (bs : List Byte) : Bool := decide (64 < leNat (bs.take 1))

/-- A code offset in the code section. -/
def codeOffset (codeLen off : Nat) : Bool := decide (off < codeLen) && off % 4 = 0

/-- A successor table entry: the function, and the successors of its used slots (R187). -/
def succOf (bs : List Byte) : Nat × List Nat :=
  (partNat bs 0 4, ((List.range 8).map (fun i => partNat bs (4 + 4 * i) 4)).filter (· ≠ 0xFFFFFFFF))
def succGood (codeLen : Nat) (es : List (Nat × List Nat)) : Bool :=
  ascending (es.map (·.1)) && es.all (fun e => codeOffset codeLen e.1 && e.2.all (codeOffset codeLen))

/-- The widths that an entry may declare (R182). -/
def declarable (w : Nat) : Bool := w = 0 || w = 8 || w = 16 || w = 32 || w = 64 || w = 128

/-- An entry record (Table 9.3). -/
def entryOf (bs : List Byte) : Entry :=
  let v := leNat bs
  { entry := bitsOf v 31 0, width := bitsOf v 39 32, twin := bitsOf v 40 40 = 1, rollback := bitsOf v 41 41 = 1,
    roles := (List.range (bitsOf v 51 48)).map (fun k =>
      (16 * (bitsOf v (259 + 32 * k) (256 + 32 * k) + 1), bitsOf v (271 + 32 * k) (260 + 32 * k))),
    regs := bitsOf v 63 56, shared := bitsOf v 95 64, dieCrew := bitsOf v 127 96, dieLaunch := bitsOf v 159 128,
    fleet := bitsOf v 175 160 }

/-- Its fields are in range. Of a ROLE entry at or beyond NROLE the reserved bits are checked and the others ignored: the
spec does not say what they hold (the model's choice, notes/assumptions/95.md). -/
def entryGood (codeLen : Nat) (bs : List Byte) : Bool :=
  let v := leNat bs
  let e := entryOf bs
  codeOffset codeLen e.entry && declarable e.width && bitsOf v 47 42 = 0 && decide (bitsOf v 51 48 ≤ 8) &&
    bitsOf v 55 52 = 0 && (if e.roles = [] then decide (1 ≤ e.regs) && decide (e.regs ≤ 16) else e.regs = 0) &&
    e.dieCrew % 64 = 0 && e.dieLaunch % 64 = 0 && bitsOf v 255 176 = 0 &&
    (List.range 8).all (fun k => bitsOf v (287 + 32 * k) (272 + 32 * k) = 0) &&
    e.roles.all (fun r => decide (1 ≤ r.2) && decide (r.2 ≤ 2048))

/-- The manifest's head names the groups and has its reserved bits zero (R188). -/
def manifestGood (bs : List Byte) : Bool :=
  let v := partNat bs (headerField bs 351 320) 64
  bitsOf v 31 0 = headerField bs 104 96 && bitsOf v 511 56 = 0

/-- Step 1 of a load: every field and table is in range (R189). -/
def objectFormed (bs : List Byte) : Bool :=
  let f := headerField bs
  headerGood bs &&
    ((tableItems bs (f 191 160) (f 104 96) 8).zipIdx.all (fun g => groupGood (f 95 64) g.2 g.1)) &&
    (tableItems bs (f 223 192) (f 127 112) 72).all lsetGood &&
    succGood (f 95 64) ((tableItems bs (f 255 224) (f 271 256) 36).map succOf) &&
    (tableItems bs (f 319 288) (f 287 272) 64).all (entryGood (f 95 64)) && manifestGood bs

/-! ## The signature and the digests (R188, R189) -/

/-- The bytes that the signature covers: up to the signature, without the code section. -/
def signedBytes (bs : List Byte) : List Byte :=
  let f := headerField bs
  let stop := f 351 320 + 64 + 48 * f 104 96
  let code := f 159 128
  (bs.take stop).take code ++ (bs.take stop).drop (code + f 95 64)

/-- Step 2: SIGALG is 1, KEYSLOT holds a key, and the signature verifies. -/
def signatureGood (bs : List Byte) (keys : Table (List Byte)) : Bool :=
  let m := headerField bs 351 320
  let v := partNat bs m 64
  bitsOf v 39 32 = 1 && match Table.get? keys (bitsOf v 55 40) with
    | some k => Config.ecdsaVerify k (part bs (m + 64 + 48 * headerField bs 104 96) 96) (Config.sha384 (signedBytes bs))
    | none => false

/-- A digest as its 48 bytes stand in the manifest. -/
def digestOf (bs : List Byte) : BitVec 384 := BitVec.ofNat 384 (leNat bs)

/-- The group lengths, the manifest's digests, and the code section. -/
def groupLens (bs : List Byte) : List Nat :=
  (tableItems bs (headerField bs 191 160) (headerField bs 104 96) 8).map (fun g => bitsOf (leNat g) 16 0)
def pageDigests (bs : List Byte) : List (BitVec 384) :=
  (tableItems bs (headerField bs 351 320 + 64) (headerField bs 104 96) 48).map digestOf
def codeSection (bs : List Byte) : List Byte := part bs (headerField bs 159 128) (headerField bs 95 64)

/-- The bytes of each group of a code section. -/
def groupRuns (code : List Byte) (lens : List Nat) : List (List Byte) :=
  lens.zipIdx.map (fun g => part code (groupBytes * g.2) g.1)

/-- Step 3: every group equals its digest. -/
def digestsGood (bs : List Byte) : Bool :=
  ((groupRuns (codeSection bs) (groupLens bs)).map Config.sha384) = pageDigests bs

/-! ## The native checks (Table 9.4) -/

/-- The words of a run of code. -/
def wordsOf (bs : List Byte) : List Word := (List.range (bs.length / 4)).map (fun i => BitVec.ofNat 32 (partNat bs (4 * i) 4))

/-- A word that may stand last in a group: `br` and `loop` with cond 0x7, `ret`, `br.ind`, `end`, `tret`, `g.br` with cond
000. -/
def mayClose (w : Word) : Bool :=
  w &&& 0xFFE00000#32 = 0x64E00000#32 || w &&& 0xFFE00000#32 = 0x66E00000#32 || w = 0x68000001#32 ||
    w &&& 0xFE03FFFF#32 = 0x68000002#32 || w = 0x78000000#32 || w = 0x78000002#32 || w &&& 0xFFC00000#32 = 0xA0000000#32

/-- Every group that must end in a control transfer does. -/
def groupsClose (runs : List (List Byte)) : Bool :=
  runs.zipIdx.all (fun g => (g.1.length = groupBytes && decide (g.2 + 1 < runs.length)) ||
    mayClose ((wordsOf g.1).getLastD 0#32))

/-- An instruction of straight-line code: what it does, and the live-in set that it names if it is an rgn. -/
structure CodeItem where
  uses : Uses
  rgn : Option Nat
deriving DecidableEq, Repr

/-- A word, with the vc field of the prefix in front of it. -/
def itemOf (vc : BitVec 7) (w : Word) : CodeItem :=
  { uses := wordUses vc w
    rgn := if w &&& 0xFE0007FF#32 = 0x68000004#32 then some ((fM w).toNat + 128 * (fD w).toNat) else none }

/-- The instructions of a run of words; a prefixed pair is one (R69). -/
def itemsOf : List Word → List CodeItem
  | [] => []
  | [w] => if isPrefix w then [] else [itemOf 0#7 w]
  | w :: b :: r => if isPrefix w then itemOf (pxVc w) b :: itemsOf r else itemOf 0#7 w :: itemsOf (b :: r)

/-- The registers of a run. -/
def Run.regs (r : Run) : List Nat := (List.range r.count).map (r.first + ·)

/-- The registers whose transient value a reader still finds, each with the number of instructions that are left to it
(R70): one instruction on. A write ends a register's window, and a transient result opens one of eight. -/
def Uses.window (u : Uses) (open_ : List (Nat × Nat)) : List (Nat × Nat) :=
  let rest := (open_.filter (fun e => decide (1 < e.2) && !(u.writes.flatMap Run.regs ++ u.transient.flatMap Run.regs).contains e.1)).map
    (fun e => (e.1, e.2 - 1))
  rest ++ (u.transient.flatMap Run.regs).map (fun r => (r, 8))

/-- The registers that an instruction reads from the register file. -/
def Uses.fileReads (u : Uses) (open_ : List (Nat × Nat)) : List Nat :=
  (u.reads.flatMap Run.regs).filter (fun r => !open_.any (fun e => e.1 = r))

/-- One of the k instructions that a promise covers reads or writes its destination (R69); a transient result is no write,
and a reader of one does not read the destination (R70). -/
def promiseBroken (dest : List Nat) : Nat → List (Nat × Nat) → List CodeItem → Bool
  | 0, _, _ => false
  | _ + 1, _, [] => false
  | k + 1, open_, i :: is =>
    if i.uses.ends then false
    else (i.uses.fileReads open_ ++ i.uses.writes.flatMap Run.regs).any dest.contains ||
      promiseBroken dest k (i.uses.window open_) is

/-- LOAD_LA (R69). -/
def laBad : List CodeItem → Bool
  | [] => false
  | i :: is => promiseBroken (i.uses.writes.flatMap Run.regs) i.uses.la [] is || laBad is

/-- A register is read that the region has not written and that is outside its set, in straight-line code from a head:
`region` holds the live-in set and the registers written since the head, none outside such code (R127). The implicit
entry after a region-closing instruction is a head with the same set (R124). A register that holds a transient value, of
which `open_` has the windows, is not read from the file (R70). -/
def liveinBad (sets : List (List Nat)) : List (Nat × Nat) → Option (List Nat × List Nat) → List CodeItem → Bool
  | _, _, [] => false
  | open_, region, i :: is =>
    let bad := match region with
      | some (live, written) => (i.uses.fileReads open_).any (fun r => !live.contains r && !written.contains r)
      | none => false
    let next := match i.rgn, region with
      | some k, _ => some (sets.getD k [], [])
      | none, some (live, written) =>
        if i.uses.ends then none
        else if i.uses.closes then some (live, [])
        else some (live, written ++ i.uses.writes.flatMap Run.regs)
      | none, none => none
    bad || liveinBad sets (if i.uses.ends then [] else i.uses.window open_) next is

/-- An rgn names a set that the table does not hold (R162). -/
def rgnOutside (n : Nat) (is : List CodeItem) : Bool := is.any (fun i => match i.rgn with | some k => decide (n ≤ k) | none => false)

/-- The code from an offset on: the rest of its group, which may be shorter than 64 KiB, and the groups behind it. -/
def wordsFrom (runs : List (List Byte)) (off : Nat) : List Word :=
  let own := (runs.getD (groupOf off) []).drop (inGroup off)
  if own = [] then [] else wordsOf own ++ (runs.drop (groupOf off + 1)).flatMap wordsOf

/-- The same from an entry, whose region has an empty live-in set (R103). -/
def entryLiveinBad (sets : List (List Nat)) (runs : List (List Byte)) (e : Entry) : Bool :=
  liveinBad sets [] (some ([], [])) (itemsOf (wordsFrom runs e.entry))

/-- LOAD_WIDTH. -/
def widthBad (e : Entry) : Bool :=
  (e.width ≠ 0 && e.roles.any (fun r => r.2 % e.width ≠ 0)) ||
    decide (clusterRegs < (e.roles.map (fun r => r.1 * r.2)).sum)

/-- Step 5 on native code, in the order of Table 9.4. -/
def nativeBad (runs : List (List Byte)) (sets : List (List Nat)) (large oldread : Bool) (entries : List Entry) :
    Option Code :=
  let items := itemsOf (runs.flatMap wordsOf)
  if !groupsClose runs then some Code.codeForm
  else if !oldread && laBad items then some Code.loadLa
  else if large || rgnOutside sets.length items || liveinBad sets [] none items ||
    entries.any (entryLiveinBad sets runs) then some Code.loadLivein
  else if entries.any widthBad then some Code.loadWidth
  else none

/-! ## The load (R189, R190) -/

/-- The successor table. -/
def succTable (es : List (Nat × List Nat)) : Table (List Nat) := es.foldl (fun t e => Table.put t e.1 e.2) []

/-- The rotating region of an entry's kernel, if it may have it (R115, R164). -/
def rotateTable (bs : List Byte) (entries : List Entry) : Table (Nat × Nat) :=
  entries.zipIdx.foldl (fun t e =>
    match Config.rotateOf bs e.2 with
    | some r => if rotAllowed 256 r.1 r.2 then Table.put t e.2 r else t
    | none => t) []

/-- The object that native code gives. -/
def nativeObject (addr : Nat) (bs : List Byte) : CodeObject :=
  let f := headerField bs
  let entries := (tableItems bs (f 319 288) (f 287 272) 64).map entryOf
  { addr := addr, codeOff := f 159 128, codeLen := f 95 64, groups := groupLens bs, digests := pageDigests bs,
    lsets := (tableItems bs (f 223 192) (f 127 112) 72).map lsetOf,
    succ := succTable ((tableItems bs (f 255 224) (f 271 256) 36).map succOf), entries := entries, translated := none,
    rotate := rotateTable bs entries }

/-- The W-groups of a kernel's crews (R182): by its roles, or as its lowering provides for. -/
def wGroups (e : Entry) (free : Nat) : Nat :=
  if e.width = 0 then 0 else if e.roles = [] then free else (e.roles.map (fun r => r.2 / e.width)).sum

/-- The group tumblers of n W-groups, and the shared scratch of their pairs (Table 9.1). -/
def groupTumblers (width n : Nat) : Nat := if width = 128 then 3 * n else n
def pairScratch (width n : Nat) : Nat := if width = 128 then 1024 * n else 0

/-- The number of group tumblers of each entry's kernel. -/
def entryGroups (l : Config.Lowered) (entries : List Entry) : List Nat :=
  entries.zipIdx.map (fun e => groupTumblers e.1.width (wGroups e.1 (l.wgroups.getD e.2 1)))

/-- LOAD_TUMBLER: the scopes that may be live at once, with the group tumblers, do not fit in tb0 to tb15 (R184). -/
def tumblersBad (l : Config.Lowered) (entries : List Entry) : Bool :=
  (entryGroups l entries).zipIdx.any (fun g => decide (16 < l.scopes.getD g.2 0 + g.1))

/-- The object that a translation gives (R183, R190): its own code, digests and tables. -/
def loweredObject (addr : Nat) (bs : List Byte) (l : Config.Lowered) : CodeObject :=
  let o := nativeObject addr bs
  let entries := o.entries.zipIdx.map (fun e =>
    { e.1 with entry := l.entries.getD e.2 0, shared := e.1.shared + pairScratch e.1.width (wGroups e.1 (l.wgroups.getD e.2 1)) })
  { o with
    codeLen := l.code.length, groups := l.groups, digests := (groupRuns l.code l.groups).map Config.sha384, lsets := l.lsets,
    succ := succTable l.succ, entries := entries, translated := some l.code }

/-- A live-in entry names more than 64 registers (R187): in the object's table, or in the sets of its native code. -/
def setsLarge (bs : List Byte) (o : CodeObject) : Bool :=
  (tableItems bs (headerField bs 223 192) (headerField bs 127 112) 72).any lsetLarge || o.lsets.any (fun l => decide (64 < l.length))

/-- The steps of a load in order, on the bytes of an object (R189): the object, or the status of the first failure. Words
that do not keep the contract of R183 and R184 are no lowering of the IR (notes/assumptions/94.md). -/
def loadObject (addr : Nat) (bs : List Byte) (keys : Table (List Byte)) : Except Code CodeObject :=
  if !objectFormed bs then .error Code.codeForm
  else if !signatureGood bs keys then .error Code.codeSig
  else if !digestsGood bs then .error Code.codeHash
  else if headerField bs 55 48 = 0 then
    let o := nativeObject addr bs
    match nativeBad (groupRuns (codeSection bs) o.groups) o.lsets (setsLarge bs o) (headerField bs 56 56 = 1) o.entries with
    | some c => .error c
    | none => .ok o
  else
    let entries := (nativeObject addr bs).entries
    let l := Config.lowerIr (codeSection bs) (entries.map (fun e => (e.width, e.roles.map (·.2))))
    let o := loweredObject addr bs l
    if tumblersBad l entries then .error Code.loadTumbler
    else if !loweringKeeps l (wordsOf l.code) (entryGroups l entries) then .error Code.codeForm
    else match nativeBad (groupRuns l.code l.groups) o.lsets (setsLarge bs o) false o.entries with
      | some c => .error c
      | none => .ok o

/-- A load ends (R189, R190): the object is installed under the context's next number, or refused with a status. -/
def State.finishLoad (s : State) (fn slot : Nat) : State :=
  match s.taken? fn slot with
  | none => s
  | some t =>
    let ctx := (t.record.extractLsb' 16 16).toNat
    match Table.get? s.contexts ctx with
    | none => s
    | some x =>
      let a := recordOp t.record 0
      match loadObject a (s.readMain ctx a (recordOp t.record 1)) x.signKeys with
      | .error c => s.recordResult fn slot c 0#64
      | .ok o =>
        (s.modContext ctx (fun x =>
          { x with objects := Table.put x.objects x.nextObj o, nextObj := x.nextObj + 1 })).recordResult fn slot Code.ok
          (BitVec.ofNat 64 x.nextObj)

/-- A worker of duty row 1 has done a load's steps, under the same rules, or could not (R189, CODE_FETCH). -/
def State.loadDone (s : State) (fn slot : Nat) (ok : Bool) : State :=
  if ok then s.finishLoad fn slot else s.recordResult fn slot Code.codeFetch 0#64

end Sys2Proof.Machine
end

