-- ==== Sys2Proof/Machine/Restore.lean ====
section
/-! DEFINITION. Command records that have been taken: when one may act, and the SAVE and RESTORE records (R299, R308, R317
to R319). -/

namespace Sys2Proof.Machine

open Sys2Proof

/-! ## A taken record (Table 20.3, R317) -/

/-- A field of a record. -/
def cmdField (r : BitVec 512) (hi lo : Nat) : Nat := bitsOf r.toNat hi lo

/-- The context that a record names; 0xFFFF for the function itself. -/
def Taken.ctx (t : Taken) : Nat := cmdField t.record 31 16

/-- An operand of a taken record. -/
def Taken.p (t : Taken) (k : Nat) : Nat := recordOp t.record k

/-- The records of the window that were taken before a slot's and have not completed. -/
def HostFn.before (f : HostFn) (slot : Nat) : List Taken := f.taken.takeWhile (fun (t : Taken) => t.slot ≠ slot)

/-- A record may start: in slot order, and with FENCE only after every earlier one has completed (R317). -/
def State.recordMayStart (s : State) (fn : Nat) (t : Taken) : Bool :=
  let e := (s.fn fn).before t.slot
  if cmdField t.record 8 8 = 1 then e.isEmpty else e.all (fun (u : Taken) => u.started || u.result.isSome)

/-- A record of an operation acts: it starts, or goes on once what it waited for has ended. -/
def State.onRecord (s : State) (fn slot op : Nat) (go : State → Taken → State) : State :=
  match s.taken? fn slot with
  | none => s
  | some t =>
    if cmdField t.record 7 0 ≠ op || t.result.isSome || t.xlate.isSome || (!t.started && !s.recordMayStart fn t) then s
    else go (s.modTaken fn slot (fun t => { t with started := true })) t

/-- The same for an operation of a context, which must be one of the function's (R319). -/
def State.onContext (s : State) (fn slot op : Nat) (go : State → Taken → Context → State) : State :=
  s.onRecord fn slot op fun s t =>
    match Table.get? s.contexts t.ctx with
    | none => s.recordResult fn slot Code.rpcBad 0#64
    | some x => if x.fn ≠ fn then s.recordResult fn slot Code.rpcBad 0#64 else go s t x

/-- A record reads or writes a range of main memory: it waits for a translation, or completes with RPC_ADDR when the range
is not main, is not permitted, or stays unresolved (R319); so does a read of bytes that hold an uncorrectable error
(notes/assumptions/38.md). -/
def State.recordRange (s : State) (fn slot ctx a n kind : Nat) (go : State → State) : State :=
  if !isMain a || decide (2 ^ 57 < a + n) then s.recordResult fn slot Code.rpcAddr 0#64
  else match s.readyMain ctx a n kind none with
    | (.ok, s) => if kind = 0 && s.mainPoisoned ctx a n then s.recordResult fn slot Code.rpcAddr 0#64 else go s
    | (.waits r, s) => s.modTaken fn slot (fun t => { t with xlate := some r })
    | (_, s) => s.recordResult fn slot Code.rpcAddr 0#64

/-! ## SAVE (R299, R319) -/

/-- The launch of a context that has not completed, by sr.launch (R277). -/
def State.launchOf (s : State) (ctx : Nat) (srLaunch : Nat) : Option (Nat × Launch) :=
  s.launches.find? (fun e => e.2.ctx = ctx && e.2.srLaunch.toNat = srLaunch)

/-- The resident crew of a launch with an sr.crew; successor crews of graph nodes have no number of their own there. -/
def State.crewOf (s : State) (launch index : Nat) : Option (Nat × Crew) :=
  s.crews.find? (fun e => e.2.launch = launch && e.2.index = index && e.2.node.isNone && !e.2.killed)

/-- A SAVE or RESTORE names a crew of a launch that has not completed (R319). -/
def State.namedCrew (s : State) (fn slot : Nat) (t : Taken) (go : Nat → Launch → State) : State :=
  match s.launchOf t.ctx (t.p 0) with
  | none => s.recordResult fn slot Code.rpcBad 0#64
  | some (lid, l) =>
    if l.record.ncrew ≤ t.p 1 then s.recordResult fn slot Code.rpcBad 0#64 else go lid l

/-- SAVE. -/
def execSave (fn slot : Nat) (s : State) : Host.Outcome State Fault Refusal :=
  .next (s.onContext fn slot 0x0B fun s t _ =>
    if s.crews.any (fun e => e.2.saving = some (.record fn slot)) then s
    else s.namedCrew fn slot t fun lid _ =>
      match s.crewOf lid (t.p 1) with
      | none => s.recordResult fn slot Code.ctxBusy 0#64
      | some (c, cr) =>
        if cr.saving.isSome then s.recordResult fn slot Code.ctxBusy 0#64
        else if cr.consumed.isSome then s
        else s.recordRange fn slot t.ctx (t.p 2) (t.p 3) 1 fun s => s.beginSave c (.record fn slot) true)

/-! ## RESTORE (R308) -/

/-- The crew whose largest image bounds BYTES: as it was saved, as it is resident, or as it would start. -/
def State.imageCrew (s : State) (x : Context) (lid : Nat) (l : Launch) (index : Nat) : Option Crew :=
  match x.saved.find? (fun v => v.launch = lid && v.index = index && v.crew.node.isNone) with
  | some v => some v.crew
  | none => match s.crewOf lid index with
    | some (_, cr) => some cr
    | none => (s.crewAt lid l l.record index 0 0 []).map (·.2)

/-- The bound that step 1 puts on BYTES. -/
def bytesBad (bytes largest : Nat) : Bool := bytes % 16 ≠ 0 || decide (bytes < 96) || decide (largest < bytes)

/-- Steps 5 and 6 have ended: the image waits to be installed, or the record completes. -/
def State.restoreChecked (s : State) (fn slot : Nat) (bad : Option Code) : State :=
  match bad with
  | some c => s.recordResult fn slot c 0#64
  | none => s.modTaken fn slot (fun t => { t with opened := true, call := none })

/-- The saved crew that a record names. -/
def State.savedFor (s : State) (x : Context) (t : Taken) : Option SavedCrew :=
  x.saved.find? (fun v => v.crew.srLaunch.toNat = t.p 0 && v.index = t.p 1 && v.crew.node.isNone &&
    (s.launchOf t.ctx (t.p 0)).any (fun l => l.1 = v.launch))

/-- Steps 2 to 6 on a staged image; a sealed one is opened by the security engine or by a worker of duty row 6. -/
def State.checkStaged (s : State) (fn slot : Nat) (t : Taken) (x : Context) (bs : List Byte) : State :=
  match s.savedFor x t with
  | none => s.recordResult fn slot Code.ctxBusy 0#64
  | some v =>
    match restoreEarly v bs t.ctx with
    | some c => s.recordResult fn slot c 0#64
    | none =>
      let sealed := bitsOf (leNat (bs.take 64)) 48 48 = 1
      if sealed && x.key.isSome && rowAssisted (s.dutyRow t.ctx 6) then
        if s.rowServed t.ctx 6 then
          let r := s.dutyCall t.ctx 6 { launch := v.crew.srLaunch.toNat, index := v.index, tid := 0 }
            [BitVec.ofNat 64 (t.p 2), BitVec.ofNat 64 bs.length, BitVec.ofNat 64 v.savedAt, 1#64] (.restoreStep fn slot)
          r.2.modTaken fn slot (fun t => { t with call := some r.1 })
        else s.recordResult fn slot Code.ctxKey 0#64
      else s.restoreChecked fn slot (s.restoreLate x t.ctx v bs false)

/-- Step 1 behind the header, which stands in staging: BYTES, and the rest copied behind it. -/
def State.stageRest (s : State) (fn slot : Nat) (t : Taken) (x : Context) (lid : Nat) (l : Launch) (head : List Byte) :
    State :=
  let bytes := bitsOf (leNat head) 383 320
  let largest := match s.imageCrew x lid l (t.p 1) with
    | some cr => largestImage cr (s.launchItemLen cr)
    | none => 0
  if bytesBad bytes largest then s.recordResult fn slot Code.ctxForm 0#64
  else s.recordRange fn slot t.ctx (t.p 2 + 64) (bytes - 64) 0 fun s =>
    let bs := head ++ s.readMain t.ctx (t.p 2 + 64) (bytes - 64)
    (s.modTaken fn slot (fun t => { t with staged := bs })).checkStaged fn slot t x bs

/-- Step 1: the header copied to staging, once, and then the rest. -/
def State.stageImage (s : State) (fn slot : Nat) (t : Taken) (x : Context) (lid : Nat) (l : Launch) : State :=
  if t.staged ≠ [] then s.stageRest fn slot t x lid l (t.staged.take 64)
  else s.recordRange fn slot t.ctx (t.p 2) 64 0 fun s =>
    let head := s.readMain t.ctx (t.p 2) 64
    (s.modTaken fn slot (fun t => { t with staged := head })).stageRest fn slot t x lid l head

/-- RESTORE. One that has staged its image waits for a worker, or for RESTORE_INSTALL. -/
def execRestore (fn slot : Nat) (s : State) : Host.Outcome State Fault Refusal :=
  .next (s.onContext fn slot 0x0C fun s t x =>
    if t.opened then (match s.savedFor x t with
      | none => s.recordResult fn slot Code.ctxBusy 0#64
      | some v => if staleImage v t.staged then s.recordResult fn slot Code.ctxStale 0#64 else s)
    else if t.call.isSome then s
    else s.namedCrew fn slot t fun lid l => s.stageImage fn slot t x lid l)

/-- A worker of row 6 has opened a staged image, or could not (Table 20.10; notes/assumptions/31.md). -/
def State.restoreDone (s : State) (fn slot : Nat) (status : Code) : State :=
  match s.taken? fn slot with
  | none => s
  | some t =>
    match Table.get? s.contexts t.ctx with
    | none => s
    | some x =>
      match s.savedFor x t with
      | none => s.recordResult fn slot Code.ctxBusy 0#64
      | some v =>
        if status = Code.ctxTag then s.recordResult fn slot Code.ctxTag 0#64
        else if status ≠ Code.ok then s.recordResult fn slot Code.ctxKey 0#64
        else if staleImage v t.staged then s.recordResult fn slot Code.ctxStale 0#64
        else s.restoreChecked fn slot (s.restoreLate x t.ctx v t.staged true)

end Sys2Proof.Machine
end

