-- ==== Sys2Proof/Machine/HostCall.lean ====
section
/-! DEFINITION. Host calls: hcall, the end of a call, dispatch to workers, replies and deadlines, and the duty requests
that travel as calls (R20 to R24, R321 to R330, R348). -/

namespace Sys2Proof.Machine

open Sys2Proof

/-! ## Tags and workers (R323, R326) -/

/-- The tags that outstanding calls hold. -/
def State.usedTags (s : State) : List Nat := s.calls.filterMap (fun e => e.2.tag)

/-- A free tag from 1 to 65,535, the first at or after a free value: which one a call takes is not fixed (R323). -/
def State.freeTag (s : State) : Option Nat × State :=
  let used := s.usedTags
  let f := s.free
  (((List.range (used.length + 1)).map (fun i => (f.1 + i) % 65535 + 1)).find? (fun g => !used.contains g), f.2)

/-- Some worker holds a call. -/
def State.held (s : State) (id : Nat) : Bool := s.fns.any (fun f => f.2.workers.any (fun w => w.2.call = some id))

/-- The state with one call, or one worker, replaced by its image. -/
def State.modCall (s : State) (id : Nat) (f : Call → Call) : State := { s with calls := Table.adjust s.calls id f }
def State.modWorker (s : State) (fn w : Nat) (f : Worker → Worker) : State :=
  s.modFn fn (fun h => { h with workers := Table.adjust h.workers w f })

/-- A call goes only to attendant cores: a duty request of row 1 or 6 (R21), and every call once the host link is down
(R348). -/
def State.coresOnly (s : State) (c : Call) : Bool := (c.sys && (c.func = 1 || c.func = 6)) || s.link = .down

/-- The registered workers that may serve a call: its class's, less those that a WORKER_DEL has named
(notes/assumptions/37.md). -/
def State.serving (s : State) (c : Call) : List (Nat × Nat × Worker) := s.workersOf c.ctx c.cls (s.coresOnly c)

/-- A thread with an outstanding call. -/
def Thread.calling (th : Thread) : Bool := !th.ended && th.callTag.isSome

/-- The thread that a call belongs to has still to take its end: it is resident, or saved (R323, R329). -/
def State.awaited (s : State) (c : Call) : Bool :=
  match c.origin with
  | .thread crew tid =>
    !c.taken && ((s.thread? crew tid).any Thread.calling ||
      s.contexts.any (fun x => x.2.saved.any (fun v => v.id = crew && (Table.get? v.crew.threads tid).any Thread.calling)))
  | _ => false

/-- A call that has ended, and that no worker holds, gives its tag back; it leaves unless its thread has still to take its
end (R323). -/
def State.sweepCall (s : State) (id : Nat) : State :=
  match Table.get? s.calls id with
  | none => s
  | some c =>
    if c.outcome.isNone || s.held id then s
    else if s.awaited c then s.modCall id (fun c => { c with tag := none })
    else { s with calls := Table.drop s.calls id }

/-- A thread takes the end of its call. -/
def State.takeEnd (s : State) (id : Nat) : State := s.modCall id (fun c => { c with taken := true })

/-- A call leaves its class queue. -/
def State.unqueue (s : State) (ctx cls id : Nat) : State :=
  s.modContext ctx (fun x =>
    { x with classQueues := Table.adjust x.classQueues cls (fun q => q.filter (· ≠ id)) })

/-- A worker's number is given back: it no longer counts as having held a call. -/
def State.dropWorker (s : State) (fn w ctx : Nat) : State :=
  let s := s.modFn fn (fun f => { f with workers := Table.drop f.workers w })
  { s with calls := Table.mapVals s.calls (fun _ c => if c.ctx = ctx then { c with heldBy := c.heldBy.filter (· ≠ w) } else c) }

/-- A worker is idle: its attendant core serves no call. One that a WORKER_DEL has named lets its record complete, and its
number is free once that has happened (R321, R329); one that CTX_END deletes leaves. -/
def State.freeWorker (s : State) (fn w : Nat) (k : Worker) : State :=
  let s := match k.core with
    | some n => s.modCore n (fun x => if x.call = k.call then { x with call := none } else x)
    | none => s
  let s := s.modWorker fn w (fun k => { k with call := none })
  if !k.deleting then s
  else match k.delSlot with
    | some slot => s.recordResult fn slot Code.ok 0#64
    | none => s.dropWorker fn w k.ctx

/-- A WORKER_DEL has completed: the number of its worker is free (R321). -/
def State.workerDeleted (s : State) (fn slot : Nat) : State :=
  match (s.fn fn).workers.find? (fun w => w.2.delSlot = some slot) with
  | some (w, k) => s.dropWorker fn w k.ctx
  | none => s

/-! ## The end of a call (R323, R326, R330) -/

/-- The results of an hcall in a thread: the status, and RET [31:0] (R323). -/
def callResults (th : Thread) (vd : BitVec 7) (status : Code) (ret : Word) : Results :=
  [(.reg (th.blockReg vd 0), status.setWidth 32), (.reg (th.blockReg vd 1), ret)]

/-- A thread that has its results goes on: HCP := 0, and a region entry at the next instruction (R124, R323). -/
def State.callOver (s : State) (c tid : Nat) : State :=
  (s.modThread c tid (fun th => { th with callTag := none })).closeRegion c tid

/-- A thread that is parked for a call takes its end; one that is not takes it when it executes its hcall again. -/
def State.answerThread (s : State) (id c tid : Nat) (status : Code) (ret : Word) : State :=
  match s.thread? c tid with
  | none => s
  | some th =>
    if th.wait = some (.hostCall id) then
      ((s.takeEnd id).release c tid 0 (callResults th (th.parkWord.extractLsb' 18 7) status ret)).callOver c tid
    else s

/-- The fetch that a worker serves. -/
def State.fetchOf (s : State) (die cluster id : Nat) : Option Fetch :=
  (s.cluster die cluster).fetches.find? (fun f => f.call = some id)

/-- The records of a churn request reach the ring of its queue, through a crew of the launch on the die (R290, R303). -/
def State.churned (s : State) (launch die q : Nat) (recs : List Nat) : State :=
  match s.crewOn launch die, Table.get? s.launches launch with
  | some (crew, _), some l => if (l.queueAt die q).failed then s else s.appendSpilled crew q recs
  | _, _ => s

/-- What the end of a call does for what raised it. A status of zero is a reply OK; any other is a reply FAULT, a class
without a worker, or a deadline, and a duty request then fails as its hardware mode fails (R22, Table 20.10). A fetch that
is OK still meets the translation of its group's pages (R193). A churn fails its queue (R292), whether or not a crew is
left on the die; its FCODE, "the duty failure code", is the status that a call of a program would take: the model's choice
(notes/assumptions/91.md). -/
def State.callEnded (s : State) (id : Nat) (c : Call) (status : Code) (ret : Dword) (data : List Dword) : State :=
  let ok := status = Code.ok
  match c.origin with
  | .thread crew tid => s.answerThread id crew tid status (lo32 ret)
  | .xlate r =>
    match Table.get? s.xlates r with
    | none => s
    | some q => if ok then s.retryAts r q else s.xlateUnresolved r
  | .overlay die cluster obj group =>
    match s.fetchOf die cluster id with
    | none => s
    | some f =>
      if ok then
        let g := { f with call := none }
        (s.modCluster die cluster (fun k => { k with fetches := k.fetches.map (fun h => if h = f then g else h) })).stepFetch
          die cluster g
      else s.fetchFailed die cluster f.ctx obj group
  | .churn launch die q =>
    let n := match c.data with | [_, _, _, n] => n.toNat | _ => 0
    if ok then s.churned launch die q ((List.range n).map (fun i => (data.getD i 0#64).toNat))
    else s.failQueueAt launch die q status none
  | .far r =>
    match Table.get? s.fars r with
    | none => s
    | some f => if ok then s.returnFar r f ret.toNat else s.failFar r f Code.atomUnsup
  | .reroute _ => s
  | .errorLog _ => s
  | .decide crew => s.decideCrew crew (ok && ret = 1#64)
  | .seal crew => s.sealDone crew ok
  | .loadStep fn slot => s.loadDone fn slot ok
  | .restoreStep fn slot => s.restoreDone fn slot status

/-- A worker that a WORKER_DEL has named is free of a call that has ended by its deadline (R329). -/
def State.freeTimedOut (s : State) (id : Nat) : State :=
  s.fns.foldl (fun (t : State) f => f.2.workers.foldl (fun (t : State) w =>
    if w.2.call = some id && w.2.deleting then t.freeWorker f.1 w.1 w.2 else t) t) s

/-- A call ends for the first time; it is no longer open in its context's call stream (R11). -/
def State.endOne (s : State) (id : Nat) (status : Code) (ret : Dword) (data : List Dword) : State :=
  match Table.get? s.calls id with
  | none => s
  | some c =>
    if c.outcome.isSome then s
    else
      let s := s.modCall id (fun c => { c with outcome := some (status, lo32 ret) })
      let s := s.modContext c.ctx (fun x => { x with callTl := x.callTl.finish c.op })
      let s := (s.unqueue c.ctx c.cls id).callEnded id c status ret data
      (if status = Code.hcTimeout then s.freeTimedOut id else s).sweepCall id

/-- A call goes to the front of its class queue, for the worker that duty row 4 has picked, or any. -/
def State.queueFront (s : State) (id : Nat) (c : Call) (pick : Option Nat) : State :=
  (s.modCall id (fun c => { c with pick := pick })).modContext c.ctx (fun x =>
    { x with classQueues := Table.put x.classQueues c.cls (id :: (Table.get? x.classQueues c.cls).getD []) })

/-- The worker that a reply of row 4 names may take a call: it serves the class and has not held it. -/
def State.mayPick (s : State) (c : Call) (w : Nat) : Bool :=
  (s.serving c).any (fun x => x.2.1 = w) && !c.heldBy.contains w

/-- A call ends; the end of a row 4 request sends the call that it was raised for to the worker chosen, or ends that call
with HC_TIMEOUT (R327, Table 20.10; notes/assumptions/28.md). The depth is that of row 4 requests about row 4 requests. -/
def State.endCallAt (s : State) (id : Nat) (status : Code) (ret : Dword) (data : List Dword) : Nat → State
  | 0 => s
  | n + 1 =>
    match Table.get? s.calls id with
    | none => s
    | some c =>
      let t := s.endOne id status ret data
      match c.origin with
      | .reroute target =>
        if c.outcome.isSome then t
        else match Table.get? t.calls target with
          | none => t
          | some d =>
            if d.outcome.isSome then t
            else if status = Code.ok && t.mayPick d ret.toNat then t.queueFront target d (some ret.toNat)
            else State.endCallAt t target Code.hcTimeout 0#64 [] n
      | _ => t

/-- A call ends with a status, RET and DATA. -/
def State.endCall (s : State) (id : Nat) (status : Code) (ret : Dword) (data : List Dword) : State :=
  s.endCallAt id status ret data (s.calls.length + 1)

/-! ## hcall (R322, R323) -/

/-- The register at fault of an operand block whose zero fields are checked: 2 or 3. -/
def callBlockBad (th : Thread) (va : BitVec 7) : Option Nat :=
  if bitsOf (th.readReg (th.blockReg va 2)).toNat 15 5 ≠ 0 then some 2
  else if bitsOf (th.readReg (th.blockReg va 3)).toNat 31 16 ≠ 0 then some 3
  else none

/-- ARG of an operand block. -/
def callArg (th : Thread) (va : BitVec 7) : Nat := (th.blockValue va 0 true).toNat

/-- DEADLINE of an operand block in microseconds; 0 selects 65,536. -/
def callDuration (th : Thread) (va : BitVec 7) : Nat :=
  let d := bitsOf (th.readReg (th.blockReg va 3)).toNat 15 0
  if d = 0 then 65536 else d

/-- A lane's call ends without being raised. -/
def State.callAtOnce (s : State) (tid : Nat) (th : Thread) (vd : BitVec 7) (status : Code) (ret : Word) : State :=
  (s.finishLane tid .now (callResults th vd status ret) []).callOver s.cur.crew tid

/-- A lane's call is raised under a tag, as one commit with a region entry at the hcall itself, and the thread parks. -/
def State.raiseLane (s : State) (cr : Crew) (tid : Nat) (th : Thread) (va : BitVec 7) (g : Nat) : State :=
  let w := (th.readReg (th.blockReg va 2)).toNat
  let d := callDuration th va
  let r := s.raiseCall
    { ctx := cr.ctx, tag := some g, cls := bitsOf w 3 0, reroute := bitsOf w 4 4 = 1, sys := false, func := bitsOf w 31 16,
      arg := callArg th va, launch := cr.srLaunch.toNat, crew := cr.index, tid := tid, tick := s.tick, duration := d,
      deadline := s.now + d * cyclesPerUs, data := [], origin := .thread s.cur.crew tid, worker := none, heldBy := [],
      pick := none, outcome := none, op := 0, taken := false }
  ((r.2.closeRegion s.cur.crew tid).modThread s.cur.crew tid (fun th => { th with callTag := some g })).park s.cur.crew tid
    (.hostCall r.1)

/-- A lane of hcall that has no call outstanding: its earlier accesses perform first. A class without a worker, and one of
host threads alone once the host link is down (R348), end the call at once. -/
def State.hcallLane (s : State) (vd va : BitVec 7) (tid : Nat) (th : Thread) : State :=
  s.drained tid none .fence fun s =>
    match s.curCrew? with
    | none => s
    | some cr =>
      let cls := bitsOf (th.readReg (th.blockReg va 2)).toNat 3 0
      if s.workersOf cr.ctx cls false = [] then s.callAtOnce tid th vd Code.hcNoclass 0#32
      else if s.link = .down && s.workersOf cr.ctx cls true = [] then s.callAtOnce tid th vd Code.hcTimeout 0#32
      else match s.freeTag with
        | (none, s) => s.park s.cur.crew tid .callTag
        | (some g, s) => s.raiseLane cr tid th va g

/-- A lane that has a call outstanding does not raise it again: it parks for the call's tag, or takes an end that was held
for it (R300, R323). -/
def State.hcallAgain (s : State) (vd : BitVec 7) (tid : Nat) (th : Thread) : State :=
  match s.calls.find? (fun e => e.2.origin = .thread s.cur.crew tid && !e.2.taken) with
  | none => s.callAtOnce tid th vd Code.hcTimeout 0#32
  | some (id, c) =>
    match c.outcome with
    | none => s.park s.cur.crew tid (.hostCall id)
    | some (status, ret) => ((s.takeEnd id).callAtOnce tid th vd status ret).sweepCall id

/-- `hcall vd, va`. -/
def execHcall (vd va : BitVec 7) (s : State) : Host.Outcome State Fault Refusal :=
  let l : Legality :=
    { opnds := [lxDst64 vd], illegal := blockIllegal s.curBudget va 4 true, cls := PfxClass.predOnly, blocks := [(va, 4)] }
  .next (s.guarded l fun s =>
    orElse
      [s.codeTrap (fun _ th => if th.callTag.isSome then none else (callBlockBad th va).map (fun k => (Code.hcBad, k))),
       s.codeTrap (fun _ th =>
         if th.callTag.isSome || callArg th va = 0 || isMain (callArg th va) then none
         else some (Code.addrForm, callArg th va))]
      (s.outwardActive.lanewise .now (fun _ => []) fun t ln th =>
        if th.callTag.isSome then t.hcallAgain vd ln.tid th else t.hcallLane vd va ln.tid th))

/-! ## Dispatch (R324, R326, R331) -/

/-- A call pail (Table 20.7), as 128 bytes. -/
def pailBytes (c : Call) (g pasid left : Nat) (ph : Bool) : List Byte :=
  leBytes (g + c.cls * 2 ^ 16 + (if c.reroute then 2 ^ 20 else 0) + (if c.sys then 2 ^ 21 else 0) +
    (if ph then 2 ^ 22 else 0) + c.func * 2 ^ 32 + c.ctx * 2 ^ 48 + pasid * 2 ^ 64 + left * 2 ^ 96 + c.arg * 2 ^ 128 +
    c.launch * 2 ^ 192 + c.crew * 2 ^ 256 + c.tid * 2 ^ 288 + c.tick * 2 ^ 320) 48 ++
  ((c.data ++ List.replicate 8 0#64).take 8).flatMap (fun d => leBytes d.toNat 8) ++ List.replicate 16 0#8

/-- Bytes written to the host memory of a context's process. -/
def State.writeProcess (s : State) (ctx a : Nat) (bs : List Byte) : State :=
  bs.zipIdx.foldl (fun (t : State) b => t.writePlace (.host (t.pasid ctx) (a + b.2)) b.1) s

/-- A core that takes a program call runs the entry of its function table that FUNC names (R331). -/
def State.coreEntry (s : State) (c : Call) (k : Worker) (x : AttendantCore) : AttendantCore :=
  if c.sys then x else { x with pc := BitVec.ofNat 64 (leNat (s.readMain c.ctx (k.tableAddr + 8 * c.func) 8)) }

/-- A worker takes a call: it is busy from the pail's write, which goes to the host memory of a host thread, and for an
attendant core to where its firmware holds it (R324, R331). -/
def State.takeCall (s : State) (id : Nat) (c : Call) (g fn w : Nat) (k : Worker) : State :=
  let s := s.unqueue c.ctx c.cls id
  let s := s.modCall id (fun c => { c with tag := some g, worker := some w, heldBy := c.heldBy ++ [w], pick := none })
  let bs := pailBytes c g (s.pasid c.ctx) ((c.deadline - s.now) / cyclesPerUs) (!k.callPh)
  let s := s.modWorker fn w (fun k => { k with call := some id, callPh := !k.callPh })
  match k.core with
  | some n => s.modCore n (fun x => { s.coreEntry c k x with call := some id, pail := bs })
  | none => s.writeProcess c.ctx k.pail bs

/-- An idle worker may take a call now. -/
def State.mayTake (c : Call) (w : Nat) (k : Worker) : Bool :=
  k.call.isNone && !c.heldBy.contains w && (match c.pick with | some p => w = p | none => true)

/-- The first call of a class queue, in order, that an idle worker may take, with the lowest such worker (R326;
notes/assumptions/29.md). A call whose deadline has passed goes to no worker before CALL_DEADLINE has dealt with it
(R327). -/
def State.nextCall (s : State) (ctx cls : Nat) : Option (Nat × Call × Nat × Nat × Worker) :=
  let q := match Table.get? s.contexts ctx with
    | some x => (Table.get? x.classQueues cls).getD []
    | none => []
  q.findSome? (fun id => (Table.get? s.calls id).bind (fun c =>
    if c.deadline ≤ s.now then none
    else ((s.serving c).find? (fun x => State.mayTake c x.2.1 x.2.2)).map (fun x => (id, c, x.1, x.2.1, x.2.2))))

/-- CALL_DISPATCH (R326). A duty request takes its tag now, and waits without one (R330). An attendant core answers an
entry beyond its table with HC_FAULT (R331). -/
def execCallDispatch (ctx cls : Nat) (s : State) : Host.Outcome State Fault Refusal :=
  .next (match s.nextCall ctx cls with
    | none => s
    | some (id, c, fn, w, k) =>
      if k.core.isSome && !c.sys && decide (k.tableLen ≤ c.func) then s.endCall id Code.hcFault 0#64 []
      else match c.tag with
        | some g => s.takeCall id c g fn w k
        | none => match s.freeTag with
          | (some g, s) => s.takeCall id c g fn w k
          | (none, s) => s)

/-! ## Deadlines and re-routing (R22, R327) -/

/-- Every worker that may serve a call has held it. -/
def State.heldByAll (s : State) (c : Call) : Bool := (s.serving c).all (fun x => c.heldBy.contains x.2.1)

/-- A request of row 4 about a call is open. -/
def State.rerouting (s : State) (id : Nat) : Bool :=
  s.calls.any (fun e => e.2.origin = .reroute id && e.2.outcome.isNone)

/-- A duty request waits in its class queue for a tag: none is free (R330). -/
def State.tagless (s : State) (c : Call) : Bool := c.sys && c.tag.isNone && decide (65535 ≤ s.usedTags.length)

/-- A call has a fresh deadline; so has the translation that it serves (R35). -/
def State.freshDeadline (s : State) (id : Nat) (c : Call) : State :=
  let d := s.now + c.duration * cyclesPerUs
  let s := s.modCall id (fun c => { c with deadline := d })
  match c.origin with
  | .xlate r => { s with xlates := Table.adjust s.xlates r (fun q => { q with deadline := d }) }
  | _ => s

/-- A call's deadline has passed before it ended: it ends, or with REROUTE = 1 it has a fresh deadline and goes to a
worker that has not held it, which the engine or a worker of row 4 picks. A duty request that waits for a tag fails
(R330). -/
def State.passDeadline (s : State) (id : Nat) (c : Call) : State :=
  if !c.reroute || s.heldByAll c || s.tagless c then s.endCall id Code.hcTimeout 0#64 []
  else
    let s := s.freshDeadline id c
    if s.rerouting id then s
    else
      let s := s.unqueue c.ctx c.cls id
      if !rowAssisted (s.dutyRow c.ctx 4) then s.queueFront id c none
      else if s.rowServed c.ctx 4 then
        (s.dutyCall c.ctx 4 { launch := c.launch, index := c.crew, tid := c.tid } [BitVec.ofNat 64 (c.tag.getD 0), BitVec.ofNat 64 c.cls] (.reroute id)).2
      else s.endCall id Code.hcTimeout 0#64 []

/-- CALL_DEADLINE (R23, R327). -/
def execCallDeadline (call : Nat) (s : State) : Host.Outcome State Fault Refusal :=
  .next (match Table.get? s.calls call with
    | none => s
    | some c => if c.outcome.isSome || decide (s.now < c.deadline) then s else s.passDeadline call c)

/-! ## The windows' bytes (R314) -/

/-- The key under which hostMem holds host memory by its own addresses, beyond every PASID (notes/assumptions/7.md). -/
def hostPhys : Nat := 2 ^ 20

/-- Bytes of host memory by their own addresses. -/
def State.physMem (s : State) : Sparse Byte := (Table.get? s.hostMem hostPhys).getD []

/-- n bytes of a function's window: host memory at WINBASE in CXL mode, and storage of C-die 0 otherwise. -/
def State.windowNat (s : State) (fn off n : Nat) : Nat :=
  if s.link = .cxl then Mem.readNat s.physMem ((s.fn fn).winbase + off) n else Mem.readNat (s.fn fn).window off n

/-- The state with bytes of a function's window written by the engine. -/
def State.putWindow (s : State) (fn off : Nat) (bs : List Byte) : State :=
  if s.link = .cxl then
    { s with hostMem := Table.put s.hostMem hostPhys (Mem.writeBytes s.physMem ((s.fn fn).winbase + off) bs) }
  else s.modFn fn (fun f => { f with window := Mem.writeBytes f.window off bs })

/-! ## Replies (R325, R326, R329) -/

/-- Window offset of a worker's reply pail (R321). -/
def replyOffset (w : Nat) : Nat := 0x5000 + 128 * w

/-- All bytes of a run have been written since the engine last took them. -/
def HostFn.complete (f : HostFn) (off n : Nat) : Bool := (List.range n).all (fun i => f.written.contains (off + i))

/-- The engine takes a line. -/
def HostFn.takeLine (f : HostFn) (off : Nat) : HostFn :=
  { f with written := f.written.filter (fun a => decide (a < off) || decide (off + 64 ≤ a)) }

/-- A run of window bytes has arrived: its whole line in PCIe mode, and the bytes themselves in CXL mode (R314, R325). -/
def State.arrivedLine (s : State) (f : HostFn) (off n : Nat) : Bool :=
  match s.link with
  | .pcie => f.complete off 64
  | .cxl => f.complete off n
  | _ => false

/-- A reply to the call that a worker holds: it frees the worker, and ends the call if nothing has. -/
def State.acceptReply (s : State) (fn w : Nat) (k : Worker) (id : Nat) (status : Code) (ret : Dword) (data : List Dword) :
    State :=
  let s := match Table.get? s.calls id with
    | some c => if c.outcome.isNone && decide (c.deadline ≤ s.now) then s.passDeadline id c else s
    | none => s
  let s := s.freeWorker fn w k
  (s.endCall id status ret data).sweepCall id

/-- A reply whose tag is not that of the call its worker holds (R326). -/
def State.stray (s : State) (ctx w g : Nat) : State :=
  s.log ctx { code := Code.hcStray, action := 0, crew := 0xFFFFFFFF, info := w, launch := 0, tick := s.tick, addr := 0,
              info2 := g } none

/-- The status that a call takes from a reply: HC_FAULT for every value but 0 (Table 20.8); a request of row 6 sees the
reply's own, which tells a failed tag (Table 20.10). -/
def replyStatus (c : Option Call) (v : Nat) : Code :=
  match c with
  | some c => if (c.sys && c.func = 6) || v = 0 then BitVec.ofNat 16 v else Code.hcFault
  | none => Code.ok

/-- REPLY_PAIL (R325, R326): bytes 0 to 15 of a worker's reply pail, whose PH has turned; an attendant core's need no host
link (R331, R348). -/
def execReplyPail (fn worker : Nat) (s : State) : Host.Outcome State Fault Refusal :=
  .next (match Table.get? (s.fn fn).workers worker with
    | none => s
    | some k =>
      let f := s.fn fn
      let off := replyOffset worker
      let v := s.windowNat fn off 128
      let ph := bitsOf v 32 32 = 1
      if !(s.arrivedLine f off 16 || (k.core.isSome && f.complete off 16)) || ph = k.replyPh then s
      else
        let s := (s.modFn fn (fun f => f.takeLine off)).modWorker fn worker (fun k => { k with replyPh := ph })
        let g := bitsOf v 15 0
        match k.call with
        | none => s.stray k.ctx worker g
        | some id =>
          let c := Table.get? s.calls id
          if (c.bind (·.tag)) ≠ some g then s.stray k.ctx worker g
          else s.acceptReply fn worker { k with replyPh := ph } id (replyStatus c (bitsOf v 31 16))
            (BitVec.ofNat 64 (bitsOf v 127 64))
            ((List.range 8).map (fun i => BitVec.ofNat 64 (bitsOf v (191 + 64 * i) (128 + 64 * i)))))

/-! ## The host link goes down (R348) -/

/-- A call that ends with the link: it is a duty request, or a host thread holds it, or no attendant core can take it. -/
def State.losesHost (s : State) (id : Nat) (c : Call) : Bool :=
  c.outcome.isNone && (c.sys || s.fns.any (fun f => f.2.workers.any (fun w => w.2.call = some id && w.2.core.isNone)) ||
    (!s.held id && s.workersOf c.ctx c.cls true = []))

/-- A far atomic that has been sent to host memory. -/
def State.farAtHost (s : State) (r : FarReq) : Bool :=
  r.stage = .sent && match s.translate r.ctx r.addr with
    | .found (.host _ _) _ => true
    | .hostAbsent => true
    | _ => false

/-- HOST_LINK_DOWN (R313, R348). Accesses that wait for a translation retry, and find their host lost. -/
def execHostLinkDown (s : State) : Host.Outcome State Fault Refusal :=
  .next (if !s.hostUp then s
    else
      let ends := s.calls.filter (fun e => s.losesHost e.1 e.2)
      let fars := s.fars.filter (fun e => s.farAtHost e.2)
      let s := { s with link := .down }
      let s := ends.foldl (fun (s : State) e => s.endCall e.1 Code.hcTimeout 0#64 []) s
      let s := fars.foldl (fun (s : State) e => s.failFar e.1 e.2 Code.hostLost) s
      (Table.keys s.xlates).foldl (fun (s : State) r => s.xlateServed r) s)

end Sys2Proof.Machine
end

