-- ==== Sys2Proof/Machine/Attendant.lean ====
section
/-! DEFINITION. The attendant cores as workers: their fetch, and the two instructions that the spec adds to RV64GCV (R331,
R332). -/

namespace Sys2Proof.Machine

open Sys2Proof

/-! ## Exceptions (R331, R332) -/

/-- The exception causes of the RISC-V privileged architecture (notes/assumptions/44.md). -/
def causeFetch : Nat := 1
def causeIllegal : Nat := 2
def causeMisaligned (store : Bool) : Nat := if store then 6 else 4
def causeAccess (store : Bool) : Nat := if store then 7 else 5

/-- The worker that a core runs for: the one that holds a call, or else the first that is registered on it. -/
def State.coreWorker (s : State) (n : Nat) : Option (Nat × Nat × Worker) :=
  let ws := s.fns.flatMap (fun f => f.2.workers.filterMap (fun w =>
    if w.2.core = some n then some (f.1, w.1, w.2) else none))
  match ws.find? (fun w => w.2.2.call.isSome) with
  | some w => some w
  | none => ws.head?

/-- A core takes an exception: a fault in the service of a call is answered with HC_FAULT, and the worker stays
registered. -/
def State.coreFault (s : State) (n cause : Nat) : State :=
  let s := s.modCore n (fun k => { k with cause := some cause, stored := 0 })
  match s.coreWorker n with
  | none => s
  | some (fn, w, k) =>
    match k.call with
    | none => s
    | some id => ((s.freeWorker fn w k).endCall id Code.hcFault 0#64 []).sweepCall id

/-! ## The window of a call (R332) -/

/-- The resident crew that a call's pail names by its launch and its number. -/
def State.crewNamed (s : State) (c : Call) : Option Nat :=
  (s.crews.find? (fun e => e.2.ctx = c.ctx && e.2.srLaunch.toNat = c.launch && e.2.index = c.crew && !e.2.killed)).map (·.1)

/-- The crew that a call was raised for, directly or, for a request of row 4, as the caller of the call that it is about.
The depth is that of row 4 requests about row 4 requests. -/
def State.callCrewAt (s : State) : Nat → Call → Option Nat
  | 0, _ => none
  | n + 1, c =>
    match c.origin with
    | .thread crew _ => some crew
    | .errorLog crew => crew
    | .decide crew => some crew
    | .seal crew => some crew
    | .far r => (Table.get? s.fars r).map (·.crew)
    | .xlate r => (Table.get? s.xlates r).bind (fun q => q.tid.map (·.1))
    | .churn l d _ => (s.crewOn l d).map (·.1)
    | .overlay _ _ _ _ => s.crewNamed c
    | .reroute call => (Table.get? s.calls call).bind (State.callCrewAt s n)
    | .loadStep _ _ => none
    | .restoreStep _ _ => none
def State.callCrew (s : State) (c : Call) : Option Nat := s.callCrewAt (s.calls.length + 1) c

/-- The crew whose windows the core's instruction may reach. -/
def State.servedCrew (s : State) (n : Nat) : Option (Nat × Crew) :=
  match (s.core n).call.bind (fun id => Table.get? s.calls id) with
  | none => none
  | some c => (s.callCrew c).bind (fun id => (s.crew? id).map (fun cr => (id, cr)))

/-- The window of an offset on a C-die: the caller's crew window stands on its own die only. -/
def State.coreWindow (s : State) (cr : Crew) (die off : Nat) : DieWindow :=
  if off < launchBase then (if cr.die = die then cr.window else DieWindow.empty)
  else match Table.get? s.launches cr.launch with
    | some l => l.win die
    | none => DieWindow.empty

/-- The state with 64 bytes stored in that window. -/
def State.storeLine (s : State) (id : Nat) (cr : Crew) (die off : Nat) (bs : List Byte) : State :=
  if off < launchBase then s.modCrew id (fun c => { c with window := c.window.write off bs })
  else s.modLaunch cr.launch (fun l => l.modWin die (fun w => w.write (inWindow off) bs))

/-! ## xsf.vld and xsf.vst (R332) -/

/-- How many registers an nf field names. -/
def xsfCount (nf : BitVec 3) : Option Nat :=
  match nf.toNat with
  | 0 => some 1
  | 1 => some 2
  | 3 => some 4
  | 7 => some 8
  | _ => none

/-- An integer register of a core; x0 reads zero. -/
def AttendantCore.reg (k : AttendantCore) (r : BitVec 5) : Dword := if r = 0#5 then 0#64 else Sparse.get 0#64 k.x r.toNat

/-- A vector register of a core. -/
def AttendantCore.vec (k : AttendantCore) (r : Nat) : BitVec 1024 := Sparse.get 0#1024 k.v r

/-- What an instruction moves: the crew and its identifier, the C-die, the offset, the window, and the register count. -/
structure XsfPlace where
  id : Nat
  crew : Crew
  die : Nat
  off : Nat
  window : DieWindow
  count : Nat

/-- The checks in front of a move: the encoding and the service of a call, the alignment, the extent. rs2 [63:1] other than
0 names no C-die (notes/assumptions/44.md). -/
def State.xsfPlace (s : State) (nf : BitVec 3) (rs2 rs1 v : BitVec 5) (store : Bool) : Except Nat XsfPlace :=
  let k := s.core s.curCore
  match xsfCount nf with
  | none => .error causeIllegal
  | some n =>
    if v.toNat % n ≠ 0 || k.call.isNone then .error causeIllegal
    else
      let off := (k.reg rs1).toNat % 2 ^ 32
      let d := (k.reg rs2).toNat
      if off % 64 ≠ 0 then .error (causeMisaligned store)
      else match s.servedCrew s.curCore with
        | none => .error (causeAccess store)
        | some (id, cr) =>
          let w := s.coreWindow cr d off
          if 1 < d ∨ w.size < inWindow off + 128 * n then .error (causeAccess store)
          else .ok { id := id, crew := cr, die := d, off := off, window := w, count := n }

/-- The first line, of those from one on, that is absent or cannot be used: its number, and whether it faults. -/
def XsfPlace.blocked (p : XsfPlace) (start : Nat) (load : Bool) : Option (Nat × Bool) :=
  ((List.range (2 * p.count)).drop start).findSome? (fun i =>
    let l := p.window.line (inWindow p.off / 64 + i)
    if l.faulted || (load && poisonHit p.window.poison 8 (inWindow p.off + 64 * i) 64) then some (i, true)
    else if l.present then none else some (i, false))

/-- The core goes on at its next instruction. -/
def State.coreNext (s : State) (f : AttendantCore → AttendantCore) : State :=
  s.modCore s.curCore (fun k => { f k with pc := k.pc + 4#64, stored := 0 })

/-- Line i of a place in the lower or upper half of its register; the other half stays. -/
def AttendantCore.loadLine (k : AttendantCore) (p : XsfPlace) (vd i : Nat) : AttendantCore :=
  let r := vd + i / 2
  let line := Mem.readNat p.window.bytes (inWindow p.off + 64 * i) 64
  let old := (k.vec r).toNat
  let both := if i % 2 = 0 then old / 2 ^ 512 * 2 ^ 512 + line else old % 2 ^ 512 + line * 2 ^ 512
  { k with v := Sparse.set 0#1024 k.v r (BitVec.ofNat 1024 both) }

/-- Lines of a place loaded from one to another. -/
def AttendantCore.loadLines (k : AttendantCore) (p : XsfPlace) (vd first last : Nat) : AttendantCore :=
  ((List.range last).drop first).foldl (fun k i => k.loadLine p vd i) k

/-- `xsf.vld`: one access a line, in ascending order. The lines before one that stalls the core, or faults, have been
loaded, and are not accessed again. -/
def execXsfVld (nf : BitVec 3) (rs2 rs1 vd : BitVec 5) (s : State) : Host.Outcome State Fault Refusal :=
  .next (match s.xsfPlace nf rs2 rs1 vd false with
    | .error c => s.coreFault s.curCore c
    | .ok p =>
      let done := (s.core s.curCore).stored
      let upTo := fun i => s.modCore s.curCore (fun k => { k.loadLines p vd.toNat done i with stored := i })
      match p.blocked done true with
      | some (i, true) => (upTo i).coreFault s.curCore (causeAccess false)
      | some (i, false) => upTo i
      | none => s.coreNext (fun k => k.loadLines p vd.toNat done (2 * p.count)))

/-- Line i of a register group, as bytes. -/
def AttendantCore.line (k : AttendantCore) (v : Nat) (i : Nat) : List Byte :=
  leBytes ((k.vec (v + i / 2)).toNat / 2 ^ (512 * (i % 2))) 64

/-- Lines of a group stored from one to another. -/
def State.storeLines (s : State) (p : XsfPlace) (v first last : Nat) : State :=
  let k := s.core s.curCore
  ((List.range last).drop first).foldl (fun (t : State) i => t.storeLine p.id p.crew p.die (p.off + 64 * i) (k.line v i)) s

/-- `xsf.vst`: the lines before one that stalls the core, or faults, have been stored. -/
def execXsfVst (nf : BitVec 3) (rs2 rs1 vs : BitVec 5) (s : State) : Host.Outcome State Fault Refusal :=
  .next (match s.xsfPlace nf rs2 rs1 vs true with
    | .error c => s.coreFault s.curCore c
    | .ok p =>
      let done := (s.core s.curCore).stored
      match p.blocked done false with
      | some (i, true) => (s.storeLines p vs.toNat done i).coreFault s.curCore (causeAccess true)
      | some (i, false) => (s.storeLines p vs.toNat done i).modCore s.curCore (fun k => { k with stored := i })
      | none => (s.storeLines p vs.toNat done (2 * p.count)).coreNext id)

/-! ## Fetch (R331) -/

/-- What a core's fetch gives: one of the two instructions, a state, or a word of RV64GCV. -/
inductive CoreFetch where
  | run (i : Instr) (s : State)
  | done (s : State)
  | base (w : Word)

/-- A core fetches at its pc in the address space of its worker's context. A word of custom-0 that is neither instruction
is illegal. -/
noncomputable def State.coreInstr (s : State) (n : Nat) : CoreFetch :=
  let s := { s with curCore := n }
  let pc := (s.core n).pc.toNat
  match s.coreWorker n with
  | none => .done s
  | some (_, _, k) =>
    if !isMain (pc + 3) || (s.mainFault k.ctx pc 4 false).isSome || s.mainPoisoned k.ctx pc 4 then
      .done (s.coreFault n causeFetch)
    else
      let w := BitVec.ofNat 32 (leNat (s.readMain k.ctx pc 4))
      if w.extractLsb' 0 7 ≠ 0x0B#7 then .base w
      else match decodeAttendant w with
        | .ok i => .run i s
        | .error _ => .done (s.coreFault n causeIllegal)

end Sys2Proof.Machine
end

