-- ==== Sys2Proof/Machine/Power.lean ====
section
/-! DEFINITION. The power controls, module reset and boot, pod boot, and the attestation quote (R356, R358 to R364). -/

namespace Sys2Proof.Machine

open Sys2Proof

/-! ## Power controls (R359, R360) -/

/-- A setting of a cluster's controls: six slices at 2/8 to 8/8, and a pass count above 1 only when all are at 2/8. -/
def powerSetting (ratios : List Nat) (passes : Nat) : Bool :=
  ratios.length = 6 && ratios.all (fun r => decide (2 ≤ r) && decide (r ≤ 8)) &&
    (passes = 1 || ((passes = 2 || passes = 4) && ratios.all (· = 2)))

/-- POWER_CONTROL_APPLY (R359): both controls change timing only. -/
def execPowerControlApply (die cluster : Nat) (ratios : List Nat) (passes : Nat) (s : State) :
    Host.Outcome State Fault Refusal :=
  .next (if powerSetting ratios passes then
      s.modCluster die cluster (fun k => { k with ratios := ratios, passes := passes })
    else s)

/-- Some other unit than this one has a rate. -/
def State.otherBallast (s : State) (die cluster unit : Nat) : Bool :=
  (s.modCluster die cluster (fun k => { k with ballast := k.ballast.set unit 0 })).clusters.any (fun e => e.2.ballast.any (· ≠ 0))

/-- BALLAST_STEP (R360): a unit's ballast rate in sixteenths of the full operation rate, other than 0 only while the draw
follows the ramp above its load; meanwhile some unit runs ballast, so its last rate is not set to 0. Ballast touches no lease, tile, reservation, row store or timeline (R229), and what a
unit has accepted executes before it (R361). -/
def execBallastStep (die cluster unit rate : Nat) (s : State) : Host.Outcome State Fault Refusal :=
  .next (if rate ≤ 16 ∧ unit < 4 ∧ (if s.ballastWatts = 0 then rate = 0 else rate ≠ 0 ∨ s.otherBallast die cluster unit) then
      s.modCluster die cluster (fun k => { k with ballast := k.ballast.set unit rate })
    else s)

/-! ## Boot (R362) -/

/-- Why an image fails verification: either signature, a key that is not the fuses', or its version. -/
def State.imageFails (s : State) (i : Config.Image) : Option Code :=
  let d := Config.sha384 i.bytes
  if Config.sha384 i.rsaKey ≠ s.fuseRsa || Config.sha384 i.slhKey ≠ s.fuseSlh || !Config.rsaVerify i.rsaKey i.rsaSig d ||
      !Config.slhVerify i.slhKey i.slhSig d then some Code.bootSig
  else if i.version < s.fuseVersion then some Code.bootVer
  else none

/-- The image of a stage verifies; one that is not there does not. -/
def State.stageFails (s : State) (stage : Nat) : Option Code :=
  match Table.get? s.images stage with
  | none => some Code.bootSig
  | some i => s.imageFails i

/-- A stage's image goes to the module's children in the pod's tree (R363). -/
def State.forwardImage (s : State) (stage : Nat) : State :=
  s.podChildren.foldl (fun (t : State) p => t.send (.podImage p stage)) s

/-- Boot from a stage on, from the module's own flash; then stage 2 tests the clusters (CLUSTER_WAKE). -/
def State.bootFrom (s : State) : Nat → Nat → State
  | 0, _ => { s with boot := .waiting 4 }
  | n + 1, stage =>
    match s.stageFails stage with
    | some c => { s with boot := .failed c stage }
    | none => State.bootFrom (s.forwardImage stage) n (stage + 1)

/-- What a module reset keeps: the fuses, the root's flash, the module's place in the pod, and what is not the module's; and
its draw, which falls along the ramp though no load is left (R360). -/
def State.afterReset (s : State) : State :=
  State.someBallast { State.reset with
    draw := s.draw, draws := s.draws, ballastWatts := s.draw, ramp := s.ramp, capNow := Nat.max 2000 s.capNow,
    agenda := s.agenda, freeIx := s.freeIx, hostMem := s.hostMem, peerMem := s.peerMem, hostPages := s.hostPages,
    hostAtomics := s.hostAtomics, fuseVersion := s.fuseVersion, fuseRsa := s.fuseRsa, fuseSlh := s.fuseSlh,
    images := if s.podRoot then s.images else [], boots := s.boots + 1, podRoot := s.podRoot, podParent := s.podParent,
    podChildren := s.podChildren, module := s.module, sent := s.sent }

/-- MODULE_RESET (R362, R363): the root, or a module alone, boots from its flash; another waits for its images. -/
def execModuleReset (s : State) : Host.Outcome State Fault Refusal :=
  let t := s.afterReset
  .next (if t.podRoot then t.bootFrom 3 1 else { t with boot := .waiting 1 })

/-! ## The configuration space (R362) -/

/-- A read of a function's configuration space: it reports a boot that has failed, with function 0 only. -/
def State.configRead (s : State) (fn : Nat) : State :=
  if s.link = .untrained || s.link = .down || decide (16 ≤ fn) then s
  else match s.boot with
    | .failed c k => if fn = 0 then s.send (.configReport fn (some (c, k))) else s.send .unsupported
    | _ => s.send (.configReport fn none)

/-! ## Pod boot (R363) -/

/-- A cable: a module and its port at either end. -/
structure Cable where
  a : Nat
  pa : Nat
  b : Nat
  pb : Nat
deriving DecidableEq, Repr

/-- The other end of the cable in a module's port. -/
def cableEnd (cables : List Cable) (m p : Nat) : Option (Nat × Nat) :=
  cables.findSome? (fun c =>
    if c.a = m ∧ c.pa = p then some (c.b, c.pb) else if c.b = m ∧ c.pb = p then some (c.a, c.pa) else none)

/-- The edges that a module adds to the tree, ports in ascending order: to each neighbour that is not in it yet. -/
def addEdges (cables : List Cable) (m : Nat) (tree : List Cable) (seen : List Nat) : List Cable × List Nat :=
  (List.range 12).foldl (fun (t : List Cable × List Nat) p =>
    match cableEnd cables m p with
    | some (n, q) => if t.2.contains n then t else (t.1 ++ [{ a := m, pa := p, b := n, pb := q }], t.2 ++ [n])
    | none => t) (tree, seen)

/-- The spanning tree, breadth first: the modules in `seen` are those reached, in the order in which they were; the first k
of them have been looked at. -/
def spanTree (cables : List Cable) : Nat → Nat → List Cable → List Nat → List Cable
  | 0, _, tree, _ => tree
  | n + 1, k, tree, seen =>
    match seen[k]? with
    | none => tree
    | some m =>
      let t := addEdges cables m tree seen
      spanTree cables n (k + 1) t.1 t.2

/-- The root has formed the pod's tree (R363): this module's parent and children in it. -/
def State.formTree (s : State) (root : Nat) (cables : List Cable) : State :=
  let tree := spanTree cables (cables.length + 1) 0 [] [root]
  { s with
    podRoot := s.module = root
    podParent := (tree.find? (fun e => e.b = s.module)).map (·.pb)
    podChildren := (tree.filter (fun e => e.a = s.module)).map (·.pa) }

/-- A port from which the module takes an image: its parent's, or a neighbour's that it has asked. -/
def State.imagePort (s : State) (port : Nat) : Bool := s.podParent = some port || s.podTried.contains port

/-- POD_IMAGE_RECEIVE: an image that verifies is kept, forwarded and run, and for the next stage every neighbour may be
asked again; another is discarded, and POD_IMAGE with this module's number goes to the parent (Table 24.2). -/
def execPodImageReceive (port stage : Nat) (image : List (BitVec 8)) (s : State) : Host.Outcome State Fault Refusal :=
  .next (if s.boot ≠ .waiting stage || decide (3 < stage) || !s.imagePort port then s
    else
      let i := Config.readImage image
      let s := { s with podHeard := s.now }
      match s.imageFails i with
      | some _ => s.send (.podError (s.podParent.getD port) Code.podImage s.module)
      | none =>
        { { s with images := Table.put s.images stage i, podTried := [] }.forwardImage stage with
          boot := .waiting (stage + 1) }.afterTest)

/-- The next neighbour to ask, in ascending port order. -/
def State.nextNeighbour (s : State) : Option Nat :=
  (List.range 12).find? (fun p => s.podParent ≠ some p && !s.podTried.contains p && decide (2 ≤ (s.port p).width))

/-- Reference cycles in a second. -/
def cyclesPerSecond : Nat := 1000000 * cyclesPerUs

/-- PARENT_SILENCE_TIMEOUT: the parent has been silent for 1 s. -/
def execParentSilenceTimeout (s : State) : Host.Outcome State Fault Refusal :=
  .next (match s.boot with
    | .waiting stage =>
      if s.now < s.podHeard + cyclesPerSecond || decide (3 < stage) then s
      else match s.nextNeighbour with
        | none => s
        | some p => { s.send (.podAsk p stage) with podTried := s.podTried ++ [p] }
    | _ => s)

/-- The module has verified a stage's image. -/
def State.verified (s : State) (stage : Nat) : Bool :=
  (Table.get? s.images stage).isSome && match s.boot with
    | .open => true
    | .waiting k => decide (stage < k)
    | .failed _ k => decide (stage < k)
    | .off => false

/-- IMAGE_REQUEST: a neighbour whose parent is silent asks for an image; the module forwards one only after verifying it. -/
def execImageRequest (port stage : Nat) (s : State) : Host.Outcome State Fault Refusal :=
  .next (if s.verified stage then s.send (.podImage port stage) else s)

/-! ## Attestation (R364, Table 24.1) -/

/-- A stage's measurement. -/
def State.measure (s : State) (stage : Nat) : BitVec 384 :=
  match Table.get? s.images stage with
  | some i => Config.sha384 i.bytes
  | none => 0#384

/-- The bits of a quote that both signatures cover, as bytes. -/
def State.quoteBody (s : State) (nonce : BitVec 256) : List Byte :=
  let cfg := match Table.get? s.images 2 with | some i => Config.configBlock i.bytes | none => []
  leBytes 0x41545351 4 ++ leBytes 1 2 ++ leBytes 0 2 ++ leBytes nonce.toNat 32 ++ leBytes s.fuseVersion 4 ++ leBytes 0 4 ++
    leBytes (s.measure 1).toNat 48 ++ leBytes (s.measure 2).toNat 48 ++ leBytes (s.measure 3).toNat 48 ++
    leBytes (Config.sha384 cfg).toNat 48 ++ leBytes s.boots 4 ++ leBytes 0 4

/-- A signature field of n bytes. -/
def signatureField (n : Nat) (bs : List Byte) : List Byte := (bs ++ List.replicate n 0#8).take n

/-- ATTEST_QUOTE: one request of the DOE mailbox of a trained port, after a boot that has failed too (R362); always with
both signatures. -/
def execAttestQuote (nonce : BitVec 256) (s : State) : Host.Outcome State Fault Refusal :=
  let b := s.quoteBody nonce
  .next (if s.link = .untrained || s.link = .down then s
    else s.send (.quote (b ++ signatureField 384 (Config.quoteRsa b) ++ signatureField 16224 (Config.quoteSlh b))))

end Sys2Proof.Machine
end

