-- ==== Sys2Proof/Machine/Rpc.lean ====
section
/-! DEFINITION. The host port and its command records: training, the slots of a window, the operations of Table 20.4, and
completion entries (R313 to R321, R329, R366). -/

namespace Sys2Proof.Machine

open Sys2Proof

/-! ## The link and the windows (R313 to R315) -/

/-- HOST_LINK_TRAIN (R313): the mode chosen stays until the next reset; a boot that has failed trains too (R362). -/
def execHostLinkTrain (cxl : Bool) (s : State) : Host.Outcome State Fault Refusal :=
  .next (match s.link, s.boot with
    | .untrained, .open => { s with link := if cxl then .cxl else .pcie }
    | .untrained, .failed _ _ => { s with link := if cxl then .cxl else .pcie }
    | _, _ => s)

/-- The 512 bits of a window's slot. -/
def State.slotRecord (s : State) (fn slot : Nat) : BitVec 512 := BitVec.ofNat 512 (s.windowNat fn (64 * slot) 64)

/-- The line of the slot at the cursor has arrived: complete in PCIe mode, written in CXL mode. -/
def State.slotArrived (s : State) (f : HostFn) : Bool :=
  match s.link with
  | .pcie => f.complete (64 * f.cursor) 64
  | .cxl => f.written.any (fun a => a / 64 = f.cursor)
  | _ => false

/-- The windows open when boot has succeeded (R362). -/
def State.windowsOpen (s : State) (fn : Nat) : Bool := s.hostUp && s.boot = .open && decide (fn < 16)

/-- The three conditions under which the engine takes the slot at the cursor (R315). -/
def State.slotReady (s : State) (fn : Nat) : Bool :=
  let f := s.fn fn
  s.windowsOpen fn && s.slotArrived f && cmdField (s.slotRecord fn f.cursor) 511 504 = f.lap &&
    !f.pendingEntry.contains f.cursor

/-- The cursor after a slot, and its lap: lap 0 is skipped. -/
def HostFn.advance (f : HostFn) : HostFn :=
  { f with
    cursor := (f.cursor + 1) % 256
    lap := if f.cursor = 255 then (if f.lap = 255 then 1 else f.lap + 1) else f.lap }

/-! ## The form of a record (R316, R318, R319) -/

/-- An operation of the function itself, for which CTX is 0xFFFF (Table 20.4). -/
def functionOp (op : Nat) : Bool := op = 0x01 || op = 0x0A

/-- The operands beyond the first n are zero. -/
def restZero (p : Nat → Nat) (n : Nat) : Bool := ((List.range 6).drop n).all (fun k => p k = 0)

/-- The operands of a record lie in their ranges, and what Table 20.4 does not name is zero. -/
def operandsGood (op : Nat) (p : Nat → Nat) : Bool :=
  match op with
  | 0x01 => decide (p 0 < 2 ^ 21) && restZero p 1
  | 0x02 => restZero p 0
  | 0x03 => decide (p 2 < 64) && bitsOf (p 2) 1 0 ≠ 3 && bitsOf (p 2) 5 4 ≠ 3 && restZero p 5
  | 0x04 => restZero p 2
  | 0x05 => restZero p 2
  | 0x06 => restZero p 1
  | 0x07 => p 0 % 64 = 0 && decide (p 1 < 64) && restZero p 2
  | 0x08 => decide (p 0 < 2 ^ 12) && bitsOf (p 0) 7 6 = 0 && bitsOf (p 0) 11 8 ≠ 0 && restZero p 1
  | 0x09 => decide (p 0 < 8) && restZero p 2
  | 0x0A => decide (p 0 < 16) && restZero p 2
  | 0x0B => restZero p 4
  | 0x0C => restZero p 3
  | 0x0D => decide (p 0 < 4096) && restZero p 2
  | 0x0E => decide (p 0 < 4096) && restZero p 1
  | 0x0F =>
    if bitsOf (p 0) 4 4 = 0 then decide (p 0 < 16) && p 1 % 128 = 0 && restZero p 2
    else decide (p 0 < 2 ^ 13) && bitsOf (p 0) 7 5 = 0 && restZero p 4
  | 0x10 => decide (p 0 < 64) && restZero p 1
  | _ => false

/-- A record completes with RPC_BAD whatever the state holds: OP unassigned, a checked field or operand, CTX. A record of
the function itself has no context whose timeline SIGTL could be (notes/assumptions/39.md). -/
def recordFormed (r : BitVec 512) : Bool :=
  let op := cmdField r 7 0
  cmdField r 15 10 = 0 && cmdField r 63 61 = 0 && cmdField r 503 448 = 0 && operandsGood op (recordOp r) &&
    ((cmdField r 31 16 = 0xFFFF) == functionOp op) && !(functionOp op && cmdField r 60 60 = 1)

/-- A record with SIGUSE = 1 is numbered in SIGTL when it is taken (R317). -/
def State.numberRecord (s : State) (fn : Nat) (r : BitVec 512) : State × Option Nat :=
  let ctx := cmdField r 31 16
  match Table.get? s.contexts ctx with
  | none => (s, none)
  | some x =>
    if cmdField r 60 60 = 0 || x.fn ≠ fn then (s, none)
    else
      let n := cmdField r 59 48
      let t := ((Table.get? x.timelines n).getD Timeline.zero).accept
      (s.modContext ctx (fun x => { x with timelines := Table.put x.timelines n t }), some t.accepted)

/-- The engine takes the slot at the cursor. -/
def State.takeSlot (s : State) (fn : Nat) : State :=
  let f := s.fn fn
  let r := s.slotRecord fn f.cursor
  let n := s.numberRecord fn r
  let t : Taken :=
    { slot := f.cursor, record := r, seq := f.lap, started := false, sigOp := n.2,
      result := if recordFormed r then none else some (Code.rpcBad, 0#64), xlate := none, call := none, staged := [],
      opened := false }
  n.1.modFn fn (fun f =>
    ({ f.takeLine (64 * f.cursor) with
      taken := f.taken ++ [t]
      pendingEntry := f.pendingEntry ++ [f.cursor] }).advance)

/-- SLOT_TAKE (R315). -/
def execSlotTake (fn : Nat) (s : State) : Host.Outcome State Fault Refusal :=
  .next (if s.slotReady fn then s.takeSlot fn else s)

/-! ## Completion (R317, Table 20.5) -/

/-- A completion entry. -/
def entryNat (t : Taken) (status : Code) (value : Dword) : Nat :=
  cmdField t.record 47 32 + status.toNat * 2 ^ 16 + t.seq * 2 ^ 32 + value.toNat * 2 ^ 64

/-- A record leaves the engine with its completion entry. -/
def State.completeRecord (s : State) (fn : Nat) (t : Taken) (status : Code) (value : Dword) : State :=
  let s := (s.putWindow fn (0x4000 + 16 * t.slot) (leBytes (entryNat t status value) 16)).modFn fn (fun f =>
    { f with
      taken := f.taken.filter (fun (u : Taken) => u.slot ≠ t.slot)
      pendingEntry := f.pendingEntry.filter (· ≠ t.slot) })
  let s := s.workerDeleted fn t.slot
  let s := match t.sigOp with
    | some op => s.finishNamed t.ctx (cmdField t.record 59 48) op
    | none => s
  if cmdField t.record 9 9 = 1 then s.send (.msi fn) else s

/-- A crew is still being saved for a record: it resumes, or leaves, before the record's completion is seen (R365). -/
def State.savingFor (s : State) (fn slot : Nat) : Bool :=
  s.crews.any (fun e => e.2.saving = some (.record fn slot) && !e.2.killed)

/-- RECORD_COMPLETION (R317): with FENCE, only after every earlier record; never once the link is down (R348). -/
def execRecordCompletion (fn slot : Nat) (s : State) : Host.Outcome State Fault Refusal :=
  .next (match s.taken? fn slot with
    | none => s
    | some t =>
      match t.result with
      | none => s
      | some (status, value) =>
        if !s.hostUp || s.savingFor fn slot || (cmdField t.record 8 8 = 1 && !((s.fn fn).before slot).isEmpty) then s
        else s.completeRecord fn t status value)

/-! ## Contexts (R307, R318, R329) -/

/-- A free context number, the first at or after a free value: which one a context takes is not fixed. -/
def State.freeContext (s : State) : Option Nat × State :=
  let f := s.free
  (((List.range (s.contexts.length + 1)).map (fun i => (f.1 + i) % 4096)).find? (fun n =>
    (Table.get? s.contexts n).isNone), f.2)

/-- A context as CTX_NEW makes it, with a key of the security engine's if it is protected (R307). -/
def newContext (fn pasid : Nat) (prot : Bool) (ix : Nat) : Context :=
  { Context.fresh fn pasid prot with
    key := if prot then some (Config.contextKey ix) else none
    signKeys := (Config.signingKeys ix).foldl (fun t e => Table.put t e.1 e.2) [] }

/-- CTX_NEW. -/
def execCtxNew (fn slot : Nat) (s : State) : Host.Outcome State Fault Refusal :=
  .next (s.onRecord fn slot 0x01 fun s t =>
    if 4096 ≤ s.contexts.length then s.recordResult fn slot Code.rpcBusy 0#64
    else match s.freeContext with
      | (none, s) => s.recordResult fn slot Code.rpcBusy 0#64
      | (some n, s) =>
        let x := newContext fn (bitsOf (t.p 0) 19 0) (bitsOf (t.p 0) 20 20 = 1) s.freeIx
        ({ s with contexts := Table.put s.contexts n x, freeIx := s.freeIx + 1 }).recordResult fn slot Code.ok
          (BitVec.ofNat 64 n))

/-- A worker that takes no further call: it leaves at once if it is idle, or holds a call that has ended by its deadline
(R329). -/
def State.deleteWorker (s : State) (fn w : Nat) (delSlot : Option Nat) : State :=
  match Table.get? (s.fn fn).workers w with
  | none => s
  | some k =>
    let k' : Worker := { k with deleting := true, delSlot := match delSlot with | some d => some d | none => k.delSlot }
    let s := s.modWorker fn w (fun _ => k')
    match k.call with
    | none => s.freeWorker fn w k'
    | some id =>
      if (Table.get? s.calls id).any (fun c => c.outcome.any (fun o => o.1 = Code.hcTimeout)) then
        (s.freeWorker fn w k').sweepCall id
      else s

/-- The workers of a context, with their function and number. -/
def State.contextWorkers (s : State) (ctx : Nat) : List (Nat × Nat) :=
  s.fns.flatMap (fun f => f.2.workers.filterMap (fun w => if w.2.ctx = ctx then some (f.1, w.1) else none))

/-- The resident groups and fetches of a context's objects that satisfy a condition leave the scratchpads. -/
def State.dropFrames (s : State) (ctx : Nat) (obj : Nat → Bool) : State :=
  { s with clusters := Table.mapVals s.clusters (fun _ k =>
      { k with
        frames := k.frames.filter (fun f => f.ctx ≠ ctx || !obj f.obj)
        fetches := k.fetches.filter (fun f => f.ctx ≠ ctx || !obj f.obj) }) }

/-- A context ends: its objects, key and requests go. -/
def State.dropContext (s : State) (ctx : Nat) : State :=
  let s := s.xlates.foldl (fun (t : State) e =>
    if e.2.ctx = ctx then ({ t with xlates := Table.drop t.xlates e.1 }).unlinkXlate e.1 else t) s
  let s := s.dropFrames ctx (fun _ => true)
  { s with
    contexts := Table.drop s.contexts ctx
    calls := s.calls.filter (fun e => e.2.ctx ≠ ctx) }

/-- CTX_END: it waits for the context's launches, and then for its workers. -/
def execCtxEnd (fn slot : Nat) (s : State) : Host.Outcome State Fault Refusal :=
  .next (s.onContext fn slot 0x02 fun s t _ =>
    if s.launches.any (fun l => l.2.ctx = t.ctx) then s
    else
      let s := (s.contextWorkers t.ctx).foldl (fun (u : State) w => u.deleteWorker w.1 w.2 none) s
      if s.contextWorkers t.ctx ≠ [] then s
      else (s.dropContext t.ctx).recordResult fn slot Code.ok 0#64)

/-! ## MAP and UNMAP (R366) -/

/-- The page sizes of MAP. -/
def mapPageSize (c : Nat) : Nat := if c = 0 then 65536 else if c = 1 then 2097152 else 268435456

/-- A page and a range have a byte in common. -/
def Page.meets (p : Page) (a n : Nat) : Bool := decide (p.base < a + n) && decide (a < p.base + p.size)

/-- MAP is refused. -/
def mapRefused (x : Context) (a n size : Nat) : Bool :=
  decide (a % size ≠ 0) || decide (n % size ≠ 0) || decide (n = 0) || decide (2 ^ 57 < a + n) ||
    x.pages.any (fun p => p.meets a n)

/-- The pages of a MAP: backed by new device frames, or by a peer module's memory. -/
def newPages (a n size flags peer peerAddr frame : Nat) : List Page :=
  let home := bitsOf flags 5 4
  (List.range (n / size)).map (fun i =>
    { base := a + i * size, size := size, writable := bitsOf flags 2 2 = 1, hostVisible := bitsOf flags 3 3 = 1,
      home := home, peer := peer, frame := (if home = 2 then peerAddr else frame) + i * size })

/-- Bytes of the HBM and of the capacity tier (R9), and those of a home that the module's contexts have mapped. -/
def homeSize (home : Nat) : Nat := if home = 0 then 384 * 2 ^ 30 else 2 ^ 40
def State.homeUsed (s : State) (home : Nat) : Nat :=
  (s.contexts.map (fun x => ((x.2.pages.filter (fun p => p.home = home)).map (·.size)).sum)).sum

/-- A MAP must wait for backing: its home, which is not a peer's, has no room (R9; notes/assumptions/65.md). -/
def State.backingShort (s : State) (home n : Nat) : Bool := home ≠ 2 && decide (homeSize home < s.homeUsed home + n)

/-- New frames read zero, whatever wrote their addresses before (R366). -/
def State.zeroFrames (s : State) (frame n : Nat) : State :=
  let old := fun (a : Nat) => decide (frame ≤ a) && decide (a < frame + n)
  { s with devMem := s.devMem.filter (fun e => !old e.1), mainPoison := s.mainPoison.filter (fun a => !old a) }

/-- The TLB entries of a PASID for a range of addresses go. -/
def State.dropTlb (s : State) (pasid a n : Nat) : State :=
  let t := (Table.get? s.tlb pasid).getD []
  { s with tlb := Table.put s.tlb pasid (t.filter (fun e => decide (e.1 * pageBytes < a) || decide (a + n ≤ e.1 * pageBytes))) }

/-- A range is mapped again, and no longer counts as unmapped. -/
def Context.remap (x : Context) (ps : List Page) : Context :=
  { x with
    pages := x.pages ++ ps
    gone := x.gone.filter (fun g => !ps.any (fun p => decide (p.base ≤ g.1) && decide (g.1 + g.2 ≤ p.base + p.size))) }

/-- MAP. It changes the mapping of host pages that the range held, and so it is an invalidation of them: it waits for the
far atomics that have been sent there, and removes their TLB entries (R33). -/
def execMap (fn slot : Nat) (s : State) : Host.Outcome State Fault Refusal :=
  .next (s.onContext fn slot 0x03 fun s t x =>
    let a := t.p 0
    let n := t.p 1
    let size := mapPageSize (bitsOf (t.p 2) 1 0)
    let home := bitsOf (t.p 2) 5 4
    if mapRefused x a n size then s.recordResult fn slot Code.rpcBad 0#64
    else if s.backingShort home n || s.farUsesPasid x.pasid (fun v => decide (a ≤ v) && decide (v < a + n)) then s
    else
      let ps := newPages a n size (t.p 2) (t.p 3) (t.p 4) s.nextFrame
      let s := (s.modContext t.ctx (fun x => x.remap ps)).dropTlb x.pasid a n
      let s := if home = 2 then s else { s.zeroFrames s.nextFrame n with nextFrame := s.nextFrame + n }
      s.recordResult fn slot Code.ok 0#64)

/-- A page lies wholly in a range. -/
def Page.inside (p : Page) (a n : Nat) : Bool := decide (a ≤ p.base) && decide (p.base + p.size ≤ a + n)

/-- UNMAP is refused: the range is not of whole 64 KiB pages, is empty, or covers a part of a larger page only. -/
def unmapRefused (x : Context) (a n : Nat) : Bool :=
  decide (a % pageBytes ≠ 0) || decide (n % pageBytes ≠ 0) || decide (n = 0) ||
    x.pages.any (fun p => p.meets a n && !p.inside a n)

/-- The pages of a range unmapped: an access there finds no translation of a device-homed or peer page (R34;
notes/assumptions/15.md). -/
def Context.unmap (x : Context) (a n : Nat) : Context :=
  { x with
    pages := x.pages.filter (fun p => !p.inside a n)
    gone := x.gone ++ (x.pages.filter (fun p => p.inside a n)).map (fun p => (p.base, p.size)) }

/-- UNMAP: its address must be a main virtual address (R30, R319), and its invalidation waits for the far atomics that use
a page of the range (R33); copy elements translate and perform in one step. -/
def execUnmap (fn slot : Nat) (s : State) : Host.Outcome State Fault Refusal :=
  .next (s.onContext fn slot 0x04 fun s t x =>
    let a := t.p 0
    let n := t.p 1
    if unmapRefused x a n then s.recordResult fn slot Code.rpcBad 0#64
    else if !isMain a then s.recordResult fn slot Code.rpcAddr 0#64
    else if s.farUses (fun ctx v => ctx = t.ctx && x.pages.any (fun p => p.inside a n && p.covers v)) then s
    else (s.modContext t.ctx (fun x => x.unmap a n)).recordResult fn slot Code.ok 0#64)

/-! ## LOAD and UNLOAD (R189, R190) -/

/-- LOAD, by the overlay engine or by a worker of duty row 1. -/
def execLoad (fn slot : Nat) (s : State) : Host.Outcome State Fault Refusal :=
  .next (s.onContext fn slot 0x05 fun s t x =>
    if t.call.isSome then s
    else s.recordRange fn slot t.ctx (t.p 0) (t.p 1) 0 fun s =>
      if !rowAssisted (s.dutyRow t.ctx 1) then s.finishLoad fn slot
      else if s.rowServed t.ctx 1 then
        let r := s.dutyCall t.ctx 1 {} [BitVec.ofNat 64 x.nextObj, 0#64, BitVec.ofNat 64 (t.p 0)] (.loadStep fn slot)
        r.2.modTaken fn slot (fun t => { t with call := some r.1 })
      else s.recordResult fn slot Code.codeFetch 0#64)

/-- A launch of an object runs: its own, or a node's template. -/
def State.objectRuns (s : State) (ctx obj : Nat) : Bool :=
  s.launches.any (fun l => l.2.ctx = ctx &&
    (l.2.record.code = obj || l.2.nodes.any (fun n => n.template.code = obj)))

/-- UNLOAD. -/
def execUnload (fn slot : Nat) (s : State) : Host.Outcome State Fault Refusal :=
  .next (s.onContext fn slot 0x06 fun s t _ =>
    if (s.object? t.ctx (t.p 0)).isNone then s.recordResult fn slot Code.rpcBad 0#64
    else if s.objectRuns t.ctx (t.p 0) then s.recordResult fn slot Code.rpcBusy 0#64
    else ((s.modContext t.ctx (fun x => { x with objects := Table.drop x.objects (t.p 0) })).dropFrames t.ctx
      (· = t.p 0)).recordResult fn slot Code.ok 0#64)

/-! ## LAUNCH and QWEIGHT (R277, R278) -/

/-- A launch record that the scheduler accepts, with the operation of SIGNAL numbered (R279). -/
def State.acceptLaunch (s : State) (fn slot ctx queue : Nat) (tag : Dword) (r : LaunchRecord) : State :=
  let id := s.nextId
  let sig := match r.signal, Table.get? s.contexts ctx with
    | some n, some x => some (n, ((Table.get? x.timelines n).getD Timeline.zero).accept)
    | _, _ => none
  let l : Launch :=
    { ctx := ctx, fn := fn, slot := slot, srLaunch := tag, record := r, queue := queue, started := 0,
      sigOp := sig.map (fun p => p.2.accepted), killed := none, cut := false, failedGroups := [], win0 := none, win1 := none,
      nodes := [], hwChurn := [], groupTls := [], hashRecord := none, lateAborts := [] }
  let s := { s with nextId := id + 1, launches := Table.put s.launches id l }
  s.modContext ctx (fun x =>
    { x with
      queues := Table.put x.queues queue ((Table.get? x.queues queue).getD [] ++ [id])
      timelines := match sig with | some (n, t) => Table.put x.timelines n t | none => x.timelines })

/-- The scheduler reads a submission once (R278). -/
def State.submit (s : State) (fn slot : Nat) (t : Taken) : State :=
  let r := leNat (s.readMain t.ctx (t.p 0) 256)
  let tag := BitVec.ofNat 64 (cmdField t.record 47 32)
  match s.launchBad t.ctx r with
  | some b => s.recordResult fn slot Code.launchBad (BitVec.ofNat 64 b)
  | none =>
    let l := parseLaunch r
    match s.launchEntry t.ctx l with
    | none => s.recordResult fn slot Code.launchBad 64#64
    | some e =>
      if s.fits l e then
        s.acceptLaunch fn slot t.ctx (t.p 1) tag l
      else s.recordResult fn slot Code.launchFit 0#64

/-- LAUNCH. An accepted launch completes its record later (R279). -/
def execLaunch (fn slot : Nat) (s : State) : Host.Outcome State Fault Refusal :=
  .next (s.onContext fn slot 0x07 fun s t _ =>
    if s.launches.any (fun l => l.2.fn = fn && l.2.slot = slot) then s
    else if (s.launchOf t.ctx (cmdField t.record 47 32)).isSome then s.recordResult fn slot Code.rpcBusy 0#64
    else s.recordRange fn slot t.ctx (t.p 0) 256 0 fun s => s.submit fn slot t)

/-- QWEIGHT. -/
def execQweight (fn slot : Nat) (s : State) : Host.Outcome State Fault Refusal :=
  .next (s.onContext fn slot 0x08 fun s t _ =>
    (s.modContext t.ctx (fun x =>
      { x with weights := Sparse.set 1 x.weights (bitsOf (t.p 0) 5 0) (bitsOf (t.p 0) 11 8) })).recordResult fn slot
      Code.ok 0#64)

/-! ## DUTY and QUANTUM (R20, R21, R297) -/

/-- The duty controller refuses a row write (R21). -/
def State.dutyRefused (s : State) (ctx row : Nat) (v : Dword) : Bool :=
  decide (bitsOf v.toNat 3 2 ≠ 0) || decide (bitsOf v.toNat 15 8 ≠ 0) || decide (bitsOf v.toNat 63 32 ≠ 0) ||
    (row = 7 && rowAssisted v) || (row = 3 && rowReroute v) ||
    ((row = 1 || row = 6) && rowAssisted v && s.workersOf ctx (rowClass v) true = [])

/-- A duty row takes a value (R20). -/
def State.writeDuty (s : State) (ctx row : Nat) (v : Dword) : State :=
  s.modContext ctx (fun x => { x with duty := Sparse.set 0#64 x.duty row v })

/-- DUTY. -/
def execDuty (fn slot : Nat) (s : State) : Host.Outcome State Fault Refusal :=
  .next (s.onContext fn slot 0x09 fun s t _ =>
    let v := BitVec.ofNat 64 (t.p 1)
    if s.dutyRefused t.ctx (t.p 0) v then s.recordResult fn slot Code.dutyBad 0#64
    else (s.writeDuty t.ctx (t.p 0) v).recordResult fn slot Code.ok 0#64)

/-- Duty firmware writes a row, under the same checks (R20, R21). -/
def State.firmwareDuty (s : State) (ctx row : Nat) (v : Dword) : State :=
  if 7 < row || s.dutyRefused ctx row v then s else s.writeDuty ctx row v

/-- A row write that is refused (R297). -/
def quantumRefused (v : Nat) : Bool :=
  decide (bitsOf v 7 1 ≠ 0) || decide (bitsOf v 31 28 ≠ 0) || decide (bitsOf v 63 48 ≠ 0) ||
    (bitsOf v 0 0 = 1 && (decide (bitsOf v 27 8 < 100) || decide (1000000 < bitsOf v 27 8)))

/-- QUANTUM. -/
def execQuantum (fn slot : Nat) (s : State) : Host.Outcome State Fault Refusal :=
  .next (s.onRecord fn slot 0x0A fun s t =>
    if fn ≠ 0 || quantumRefused (t.p 1) then s.recordResult fn slot Code.sliceBad 0#64
    else (s.modFn (t.p 0) (fun f => { f with quantum := BitVec.ofNat 64 (t.p 1) })).recordResult fn slot Code.ok 0#64)

/-! ## Timelines and workers (R279, R321, R329) -/

/-- TL_WAIT. -/
def execTlWaitRecord (fn slot : Nat) (s : State) : Host.Outcome State Fault Refusal :=
  .next (s.onContext fn slot 0x0D fun s t _ =>
    if s.namedCounter t.ctx (t.p 0) < t.p 1 then s else s.recordResult fn slot Code.ok 0#64)

/-- TL_READ. -/
def execTlRead (fn slot : Nat) (s : State) : Host.Outcome State Fault Refusal :=
  .next (s.onContext fn slot 0x0E fun s t _ =>
    s.recordResult fn slot Code.ok (BitVec.ofNat 64 (s.namedCounter t.ctx (t.p 0))))

/-- A new worker under the lowest number that is free. -/
def State.addWorker (s : State) (fn slot : Nat) (w : Worker) : State :=
  match (List.range 64).find? (fun n => (Table.get? (s.fn fn).workers n).isNone) with
  | none => s.recordResult fn slot Code.rpcBusy 0#64
  | some n => (s.modFn fn (fun f => { f with workers := Table.put f.workers n w })).recordResult fn slot Code.ok
      (BitVec.ofNat 64 n)

/-- A host thread's call pail lies in host memory. -/
def State.hostHomed (s : State) (ctx a : Nat) : Bool :=
  match s.translate ctx a with
  | .found (.host _ _) _ => true
  | _ => false

/-- WORKER_ADD. -/
def execWorkerAdd (fn slot : Nat) (s : State) : Host.Outcome State Fault Refusal :=
  .next (s.onContext fn slot 0x0F fun s t _ =>
    let w : Worker :=
      { ctx := t.ctx, cls := bitsOf (t.p 0) 3 0, core := none, pail := t.p 1, tableAddr := 0, tableLen := 0, callPh := false,
        replyPh := false, call := none, deleting := false, delSlot := none }
    if (List.range 64).all (fun n => (Table.get? (s.fn fn).workers n).isSome) then s.recordResult fn slot Code.rpcBusy 0#64
    else if bitsOf (t.p 0) 4 4 = 1 then
      if !isMain (t.p 2) then s.recordResult fn slot Code.rpcAddr 0#64
      else s.addWorker fn slot { w with
        core := some (bitsOf (t.p 0) 12 8), pail := 0, tableAddr := t.p 2, tableLen := t.p 3 }
    else s.recordRange fn slot t.ctx (t.p 1) 128 1 fun s =>
      if s.hostHomed t.ctx (t.p 1) then s.addWorker fn slot w else s.recordResult fn slot Code.rpcBad 0#64)

/-- WORKER_DEL. -/
def execWorkerDel (fn slot : Nat) (s : State) : Host.Outcome State Fault Refusal :=
  .next (s.onContext fn slot 0x10 fun s t _ =>
    match Table.get? (s.fn fn).workers (t.p 0) with
    | none => s.recordResult fn slot Code.rpcBad 0#64
    | some w =>
      if w.ctx ≠ t.ctx then s.recordResult fn slot Code.rpcBad 0#64
      else if w.deleting then s
      else s.deleteWorker fn (t.p 0) (some slot))

end Sys2Proof.Machine
end

