-- ==== Sys2Proof/Machine/System.lean ====
section
/-! DEFINITION. Thread end, software traps and the return from a trap (major 0x3C: R174 to R178), the prefix word (R66,
R67) and the words that no chapter assigns (R75). -/

namespace Sys2Proof.Machine

open Sys2Proof

/-- A thread ends (R174): it leaves every tumbler and the crew barrier, and its crew ends with its last thread. -/
def State.endThread (s : State) (c tid : Nat) : State :=
  let s := s.modThread c tid (fun th =>
    { th with ended := true, wait := none, pend := [], trans := [], regs := [], poison := [], atBarrier := false })
  let s := (List.range 16).foldl (fun (s : State) k => s.leaveTumbler c k tid) s
  let s := (s.checkBarrier c).checkGangs
  match s.crew? c with
  | some cr => if cr.threads.all (fun e => e.2.ended) then s.endCrew c else s
  | none => s

/-- `end` (R174, R201): the thread's per-thread copies, its stores and its non-temporal stores come first; a tag error
that is outstanding traps in place of ending: of several, that of the lowest tag (notes/assumptions/89.md). -/
def execEndThread (s : State) : Host.Outcome State Fault Refusal :=
  .next (s.flushed.guarded (lx [] false) fun s =>
    s.lanewise .now (fun _ => []) fun t ln th =>
      let t := t.drainFifo t.cur.crew ln.tid
      if !t.stillHere ln.tid then t
      else if th.tagCount ≠ [] || !t.fifoEmpty t.cur.crew ln.tid || th.ntStores ≠ [] then
        t.park t.cur.crew ln.tid .ending
      else match th.tagErr with
        | (k, e) :: _ =>
          (t.modThread t.cur.crew ln.tid (fun u => { u with tagErr := Table.drop u.tagErr k })).trapLane ln.tid
            e.code e.addr
        | [] => t.endThread t.cur.crew ln.tid)

/-- `trap #n` (R175). -/
def execTrap (hi lo : BitVec 7) (s : State) : Host.Outcome State Fault Refusal :=
  let n := hi.toNat * 128 + lo.toNat
  .next (s.flushed.guarded (lx [] false) fun s =>
    match s.laneTrap Code.trapSw (fun _ _ => true) (fun _ _ => (n : Int)) with
    | some t => t
    | none => s.completeNone)

/-- The frame below a thread's stack pointer, as the thread reads it (R40, Table 8.4). It is stack memory: what a handler
has stored over CODE, MASK, INFO and TIDS, which Table 8.4 marks RO, a later load reads (notes/assumptions/114.md). -/
def Thread.frame (th : Thread) : Nat := leNat (th.stackBytes (th.sp.toNat - 256) 64)

/-- RESUME and PRED of a frame (Table 8.4). -/
def frameResume (f : Nat) : Word := BitVec.ofNat 32 (bitsOf f 319 288)
def framePred (f : Nat) : BitVec 7 := BitVec.ofNat 7 (bitsOf f 358 352)

/-- THE RETURN FROM A TRAP, of one thread (R178): PRED, SP and the in-handler mark, then RESUME. RESUME and PRED are the
handler's to write; SP is as the entry wrote it, whatever the handler has stored over it (Table 8.4;
notes/assumptions/19.md). -/
def Thread.leaveHandler (th : Thread) (len : Nat) : Thread :=
  let f := th.frame
  { th.goTo len (frameResume f) with preds := framePred f, sp := th.trapSp, inHandler := false }

/-- The lines of a thread's frame that a restore has not filled. -/
def Thread.frameMissing (th : Thread) : Bool := th.stackMissing (th.sp.toNat - 256) || th.stackMissing (th.sp.toNat - 193)

/-- `tret` (R178): outside a handler it is illegal; the frame's bounds, then RESUME as a computed target. -/
def execTret (s : State) : Host.Outcome State Fault Refusal :=
  .next (s.flushed.guarded (lx [] false) fun s =>
    match s.laneTrap Code.illegalOp (fun _ th => !th.inHandler) (fun _ _ => 0) with
    | some t => t
    | none =>
      match s.curCrew? with
      | none => s
      | some cr =>
        match s.laneTrap Code.boundsStk (fun _ th => decide (th.sp.toNat < 256) || decide (cr.stackSize < th.sp.toNat))
            (fun _ th => th.sp.toNat) with
        | some t => t
        | none =>
          match s.lanePoison .stk 48 false (fun _ th => (th.sp.toNat : Int) - 256) with
          | some off => s.consume Code.ueDie off
          | none =>
            match s.laneTrap Code.illegalOp (fun _ th => !th.frameMissing && s.badTarget (frameResume th.frame))
                (fun _ th => (frameResume th.frame).toNat) with
            | some t => t
            | none =>
              s.lanewise .now (fun _ => []) fun t ln th =>
                t.withLine ln.tid .stk (th.sp.toNat - 256) fun t =>
                  t.withLine ln.tid .stk (th.sp.toNat - 193) fun t =>
                    t.modThread t.cur.crew ln.tid (fun u => u.leaveHandler t.cur.length))

/-- The prefix word (R66): its fields stand in front of the base word that follows. A prefix in front of a prefix is
ILLEGAL_PREFIX (R67). -/
def execPfx (pred : BitVec 3) (mz : Bool) (rnd : BitVec 3) (vc : BitVec 7) (neg : Bool) (s : State) :
    Host.Outcome State Fault Refusal :=
  .next (if s.curLanes = [] then s
    else if s.cur.pfx.isSome then s.illegalPrefix
    else
      let p : PrefixWord :=
        { word := s.cur.word, pred := pred, mz := mz, rnd := rnd, vc := vc, neg := neg,
          clean := s.cur.word.extractLsb' 0 10 = 0#10 }
      { s with cur := { s.cur with pfx := some p } })

/-- A word that no chapter assigns (R75). -/
def execUnassignedEncoding (_word : BitVec 32) (s : State) : Host.Outcome State Fault Refusal :=
  .next (if s.curLanes = [] then s else s.illegalOp)

end Sys2Proof.Machine
end

