-- ==== Sys2Proof/Machine/World.lean ====
section
/-! DEFINITION. What comes from outside the module, and what the engines do of their own accord: host accesses, peer
requests, the fleeting tick, and the moves that are no row of the opcode table (R214, R314, R320, R335, R342, R345). -/

namespace Sys2Proof.Machine

open Sys2Proof

/-! ## Time (R214) -/

/-- FLEETING_TICK: the reference clock reaches the next multiple of 1,024 cycles. -/
def execFleetingTick (s : State) : Host.Outcome State Fault Refusal := .next { s with now := (s.now / 1024 + 1) * 1024 }

/-! ## Host accesses to device memory (R320) -/

/-- A byte of a context's address space is reachable by the host: on a device-homed page mapped host-visible, for a write
a writable one (notes/assumptions/45.md). -/
def State.hostReaches (s : State) (ctx a : Nat) (write : Bool) : Bool :=
  match Table.get? s.contexts ctx with
  | none => false
  | some x => match x.pages.find? (fun p => p.covers a) with
    | some p => p.hostVisible && p.home ≠ 2 && (!write || p.writable)
    | none => false

/-- An access that gets no data: Unsupported Request, or a poisoned response in CXL mode. -/
def State.noData (s : State) : State := if s.link = .cxl then s.send .poisoned else s.send .unsupported

/-- HOST_ACCESS: the data of a read are as many bytes as its argument has. -/
def execHostAccess (ctx addr : Nat) (write : Bool) (data : List (BitVec 8)) (s : State) : Host.Outcome State Fault Refusal :=
  .next (if !s.hostUp then s
    else if !(List.range data.length).all (fun i => s.hostReaches ctx (addr + i) write) then s.noData
    else if write then s.writeMain ctx addr data
    else if s.mainPoisoned ctx addr data.length then s.send .poisoned
    else s.send (.hostReply (s.readMain ctx addr data.length)))

/-! ## Requests of peer modules (R210, R335) -/

/-- The operation of an aop field (Table 4.2). -/
def atomOfCode (aop : Nat) : Option AtomOp :=
  [AtomOp.add, .and, .or, .xor, .minI, .maxI, .minN, .maxN, .exch, .cas].find? (fun o => o.code = aop)

/-- A run of device bytes by frame address holds an uncorrectable error. -/
def State.framePoisoned (s : State) (a n : Nat) : Bool := poisonHit s.mainPoison 64 a n

/-- A run of device bytes written by frame address. -/
def State.writeFrames (s : State) (a : Nat) (bs : List Byte) : State :=
  bs.zipIdx.foldl (fun (t : State) b => t.writePlace (.device (a + b.2)) b.1) s

/-- An atomic of a peer performed at its home unit here, as one access: the reply carries the old value. -/
def State.peerAtomic (s : State) (port addr : Nat) (op : AtomOp) (wide : Bool) (x c : Dword) : State :=
  let n := if wide then 8 else 4
  if s.framePoisoned addr n then s.send (.peerPoisoned port)
  else
    let old := Mem.readNat s.devMem addr n
    let s := match op.apply (8 * n) old x.toNat c.toNat with
      | some v => s.writeFrames addr (leBytes v n)
      | none => s
    s.send (.peerReply port (leBytes old n))

/-- PEER_REQUEST: kind 0 reads as many bytes as its data has, 1 writes them, 2 is a far atomic (Table 10.3). -/
def execPeerRequest (port addr kind aop : Nat) (wide : Bool) (x c : BitVec 64) (data : List (BitVec 8)) (s : State) :
    Host.Outcome State Fault Refusal :=
  .next (if 12 ≤ port || (s.port port).width = 0 then s
    else match kind with
      | 0 =>
        if s.framePoisoned addr data.length then s.send (.peerPoisoned port)
        else s.send (.peerReply port (Mem.readBytes s.devMem addr data.length))
      | 1 => (s.writeFrames addr data).send (.peerReply port [])
      | 2 =>
        match atomOfCode aop with
        | some op => s.peerAtomic port addr op wide x c
        | none => s
      | _ => s)

/-! ## Moves that are no row of the opcode table -/

/-- A window byte that the host may write: a command slot's or a reply pail's. The completion entries are read only (R6,
Table 20.5), and what lies behind the pails ignores writes (Table 20.2). -/
def windowWritable (off : Nat) : Bool := decide (off < 0x4000) || (decide (0x5000 ≤ off) && decide (off < 0x7000))

/-- A byte of a window that the host has written: its line has it since the engine last took the line. -/
def State.markWritten (s : State) (fn off : Nat) : State := s.modFn fn (fun f => { f with written := insertId off f.written })

/-- The function whose window in host memory holds an address, and the offset there (R314). -/
def State.windowAt (s : State) (a : Nat) : Option (Nat × Nat) :=
  (List.range 16).findSome? (fun fn =>
    let b := (s.fn fn).winbase
    if s.windowsOpen fn && decide (b ≤ a) && decide (a < b + 0x8000) then some (fn, a - b) else none)

/-- A host write of one byte of host memory by its own address: in CXL mode the X-die sees one that falls into a window. -/
def State.physWrite (s : State) (a : Nat) (b : Byte) : State :=
  match if s.link = .cxl then s.windowAt a else none with
  | none => s.writePlace (.host hostPhys a) b
  | some (fn, off) => if windowWritable off then (s.writePlace (.host hostPhys a) b).markWritten fn off else s

/-- A write to a window: to BAR 0 in PCIe mode, to host memory at WINBASE in CXL mode (R314). -/
def State.windowWrites (s : State) (fn off : Nat) (data : List Byte) : State :=
  data.zipIdx.foldl (fun (t : State) b =>
    let o := off + b.2
    if s.link = .cxl then t.physWrite ((s.fn fn).winbase + o) b.1
    else if windowWritable o then (t.putWindow fn o [b.1]).markWritten fn o else t) s

/-- A host write to a window, which must be open to it. -/
def State.hostWrites (s : State) (fn off : Nat) (data : List Byte) : State :=
  if s.windowsOpen fn then s.windowWrites fn off data else s

/-- The user code of an attendant core that serves a worker executes an instruction other than the two of R332, in the
address space of the worker's context; a load or store that its translation does not let through is a fault of the
user code (R331). -/
def State.coreUser (s : State) (n : Nat) (act : CoreAct) : State :=
  let s := { s with curCore := n }
  match s.coreWorker n with
  | none => s
  | some (fn, w, k) =>
    match act with
    | .goto pc => s.modCore n (fun x => { x with pc := pc })
    | .setX rd v => s.coreNext (fun x => { x with x := Sparse.set 0#64 x.x rd.toNat v })
    | .setV vd v => s.coreNext (fun x => { x with v := Sparse.set 0#1024 x.v vd.toNat v })
    | .load rd a b =>
      if decide (8 < b) || (s.mainFault k.ctx a b false).isSome || s.mainPoisoned k.ctx a b then s.coreFault n (causeAccess false)
      else s.coreNext (fun x => { x with x := Sparse.set 0#64 x.x rd.toNat (BitVec.ofNat 64 (leNat (s.readMain k.ctx a b))) })
    | .store a b v =>
      if decide (8 < b) || (s.mainFault k.ctx a b true).isSome then s.coreFault n (causeAccess true)
      else (s.writeMain k.ctx a (leBytes v.toNat b)).coreNext id
    | .readPail rd off => s.coreNext (fun x =>
        { x with x := Sparse.set 0#64 x.x rd.toNat (BitVec.ofNat 64 (leNat ((x.pail.drop off).take 8))) })
    | .reply off data =>
      if 128 < off + data.length then s.coreFault n (causeAccess true)
      else (s.windowWrites fn (replyOffset w + off) data).coreNext id

/-- A host write of host memory, of a process or by its own addresses. -/
def State.hostStores (s : State) (pasid a : Nat) (data : List Byte) : State :=
  data.zipIdx.foldl (fun (t : State) b =>
    if pasid = hostPhys then t.physWrite (a + b.2) b.1 else t.writePlace (.host pasid (a + b.2)) b.1) s

/-- After a failed boot the host port has function 0 only (R362). -/
def State.fnTrains (s : State) (fn : Nat) : Bool :=
  match s.boot with
  | .failed _ _ => fn = 0
  | _ => true

/-- The host writes WINBASE, before the first record of the function (R314). -/
def State.setWinbase (s : State) (fn a : Nat) : State :=
  if s.fnTrains fn && a % 0x8000 = 0 && (s.fn fn).taken = [] && (s.fn fn).lap = 1 && (s.fn fn).cursor = 0 && decide (fn < 16) then
    s.modFn fn (fun f => { f with winbase := a })
  else s

/-- A byte of a non-temporal store waits: for its thread's ordinary stores and older non-temporal ones to the same byte, and
for those that a lower lane of its instruction makes to it (R41, R58). -/
def Crew.ntBehind (cr : Crew) (tid ix : Nat) (th : Thread) (e : StoreEntry) : Bool :=
  th.fifo.any e.meets || (th.ntStores.take ix).any e.meets ||
    cr.threads.any (fun t => decide (t.1 < tid) && t.2.ntStores.any (fun x => x.group = e.group && e.meets x))

/-- A byte of a non-temporal store performs (R58); on a line that a copy failed to write the store traps, and none of its
bytes that remain performs. -/
def State.drainNtAt (s : State) (c tid ix : Nat) : State :=
  match s.thread? c tid with
  | none => s
  | some th =>
    match th.ntStores[ix]? with
    | none => s
    | some e =>
      match s.crew? c with
      | none => s
      | some cr =>
        if cr.ntBehind tid ix th e then s
        else match s.storeBlocked cr e with
        | some .absent => s
        | some .faulted =>
          let s := s.modThread c tid (fun th => { th with ntStores := th.ntStores.filter (fun x => x.group ≠ e.group) })
          if th.ended then s.reap c else s.trapThread c tid Code.copyFault (e.addr / 64 * 64) e.pc e.word e.pfx
        | none =>
          ((s.modThread c tid (fun th =>
            { th with ntStores := th.ntStores.eraseIdx ix, ntDone := th.ntDone ++ [e] })).performStore c tid e).reap c

/-- Pod firmware installs a gang (R342); budget group and limit (R343). -/
def Gang.installed (members : List Nat) (window : Nat) : Gang :=
  { members := members, window := window, launch := none, startedAt := 0, acks := [], failed := false, barGen := 0,
    arrived := [], localArrived := [], passed := [] }

/-- A resident group leaves a cluster's scratchpad (R191, R194). -/
def State.dropGroup (s : State) (die cluster ctx obj group : Nat) : State :=
  s.modCluster die cluster (fun k =>
    { k with frames := k.frames.filter (fun f => !(f.ctx = ctx && f.obj = obj && f.group = group)) })

/-- The moves of the world, and of the engines, that need no more than the state. -/
def State.world (s : State) : Move → State
  | .drain c tid => ((s.drainHead c tid).1).reap c
  | .drainNt c tid ix => s.drainNtAt c tid ix
  | .time n => { s with now := s.now + n }
  | .hostWindow fn off data => s.hostWrites fn off data
  | .hostMem pasid a data => s.hostStores pasid a data
  | .hostPage pasid page entry =>
    let t := (Table.get? s.hostPages pasid).getD []
    { s with hostPages := Table.put s.hostPages pasid (match entry with
        | some h => Table.put t page h
        | none => Table.drop t page) }
  | .upset place => s.upset place
  | .corrected => { s with corrected := s.corrected + 1 }
  | .slip place => s.slip place
  | .twinDisagree c tids => s.disagree c tids
  | .evict c => s.evict c
  | .churn launch die queue => match execChurnMove launch die queue s with | .next t => t | _ => s
  | .evictGroup die cluster ctx obj group => s.dropGroup die cluster ctx obj group
  | .podConfig gang members window => { s with gangs := Table.put s.gangs gang (Gang.installed members window) }
  | .budgetConfig limit self group =>
    if 1200 * group.length ≤ limit ∧ group.length ≤ 64 ∧ group.Nodup ∧ self ∈ group then
      { s with budget := some { limit := limit, self := self, group := group, req := 2000, seq := 0, members := [] } }
    else s
  | .portConfig port peers =>
    if port < 12 then { s with ports := Table.put s.ports port { s.port port with peers := peers } } else s
  | .podTree root links => s.formTree root (links.map (fun l => { a := l.1, pa := l.2.1, b := l.2.2.1, pb := l.2.2.2 }))
  | .dutyWrite ctx row v => s.firmwareDuty ctx row v
  | .winbase fn addr => s.setWinbase fn addr
  | .configRead fn => s.configRead fn
  | .powerGate die cluster =>
    if s.occupied die cluster then s else s.modCluster die cluster (fun k => { k with gated := true })
  | .narrowPort port width =>
    if port < 12 ∧ (width = 8 ∨ width = 4 ∨ width = 2) then
      let p := s.port port
      { s with ports := Table.put s.ports port { p with narrowed := width, width := widest p.lanes width } }
    else s
  | .provision version rsa slh images =>
    { s with fuseVersion := version, fuseRsa := rsa, fuseSlh := slh, images := images }
  | .coreUser core act => s.coreUser core act
  | .board n atomics => { s with module := n, hostAtomics := atomics }
  | _ => s

end Sys2Proof.Machine
end

