-- ==== Sys2Proof/Machine/Dispatch.lean ====
section
/-! DEFINITION. The dispatch: one arm for each constructor of Instr, each one direct call of its meaning. -/

namespace Sys2Proof.Machine

open Sys2Proof

/-- The meaning of an instruction. -/
def exec (i : Instr) (s : State) : Host.Outcome State Fault Refusal :=
  match i with
  | .addI32 vd va vb tr => Sys2Proof.Machine.execAddI32 vd va vb tr s
  | .subI32 vd va vb tr => Sys2Proof.Machine.execSubI32 vd va vb tr s
  | .negI32 vd va tr => Sys2Proof.Machine.execNegI32 vd va tr s
  | .absI32 vd va tr => Sys2Proof.Machine.execAbsI32 vd va tr s
  | .avgI32 vd va vb tr => Sys2Proof.Machine.execAvgI32 vd va vb tr s
  | .avgN32 vd va vb tr => Sys2Proof.Machine.execAvgN32 vd va vb tr s
  | .adiffI32 vd va vb tr => Sys2Proof.Machine.execAdiffI32 vd va vb tr s
  | .adiffN32 vd va vb tr => Sys2Proof.Machine.execAdiffN32 vd va vb tr s
  | .addI64 vd va vb tr => Sys2Proof.Machine.execAddI64 vd va vb tr s
  | .subI64 vd va vb tr => Sys2Proof.Machine.execSubI64 vd va vb tr s
  | .negI64 vd va tr => Sys2Proof.Machine.execNegI64 vd va tr s
  | .absI64 vd va tr => Sys2Proof.Machine.execAbsI64 vd va tr s
  | .addwI64I32 vd va vb tr => Sys2Proof.Machine.execAddwI64I32 vd va vb tr s
  | .addwN64N32 vd va vb tr => Sys2Proof.Machine.execAddwN64N32 vd va vb tr s
  | .addsatI32 vd va vb tr => Sys2Proof.Machine.execAddsatI32 vd va vb tr s
  | .subsatI32 vd va vb tr => Sys2Proof.Machine.execSubsatI32 vd va vb tr s
  | .addsatN32 vd va vb tr => Sys2Proof.Machine.execAddsatN32 vd va vb tr s
  | .subsatN32 vd va vb tr => Sys2Proof.Machine.execSubsatN32 vd va vb tr s
  | .negsatI32 vd va tr => Sys2Proof.Machine.execNegsatI32 vd va tr s
  | .abssatI32 vd va tr => Sys2Proof.Machine.execAbssatI32 vd va tr s
  | .mulI32 vd va vb tr => Sys2Proof.Machine.execMulI32 vd va vb tr s
  | .mulhiI32 vd va vb tr => Sys2Proof.Machine.execMulhiI32 vd va vb tr s
  | .mulhiN32 vd va vb tr => Sys2Proof.Machine.execMulhiN32 vd va vb tr s
  | .madI32 vd va vb tr => Sys2Proof.Machine.execMadI32 vd va vb tr s
  | .mulwI32 vd va vb tr => Sys2Proof.Machine.execMulwI32 vd va vb tr s
  | .mulwN32 vd va vb tr => Sys2Proof.Machine.execMulwN32 vd va vb tr s
  | .divI32 vd va vb tr => Sys2Proof.Machine.execDivI32 vd va vb tr s
  | .divN32 vd va vb tr => Sys2Proof.Machine.execDivN32 vd va vb tr s
  | .remI32 vd va vb tr => Sys2Proof.Machine.execRemI32 vd va vb tr s
  | .remN32 vd va vb tr => Sys2Proof.Machine.execRemN32 vd va vb tr s
  | .divI64 vd va vb tr => Sys2Proof.Machine.execDivI64 vd va vb tr s
  | .divN64 vd va vb tr => Sys2Proof.Machine.execDivN64 vd va vb tr s
  | .remI64 vd va vb tr => Sys2Proof.Machine.execRemI64 vd va vb tr s
  | .remN64 vd va vb tr => Sys2Proof.Machine.execRemN64 vd va vb tr s
  | .minI32 vd va vb tr => Sys2Proof.Machine.execMinI32 vd va vb tr s
  | .maxI32 vd va vb tr => Sys2Proof.Machine.execMaxI32 vd va vb tr s
  | .minN32 vd va vb tr => Sys2Proof.Machine.execMinN32 vd va vb tr s
  | .maxN32 vd va vb tr => Sys2Proof.Machine.execMaxN32 vd va vb tr s
  | .minI64 vd va vb tr => Sys2Proof.Machine.execMinI64 vd va vb tr s
  | .maxI64 vd va vb tr => Sys2Proof.Machine.execMaxI64 vd va vb tr s
  | .minN64 vd va vb tr => Sys2Proof.Machine.execMinN64 vd va vb tr s
  | .maxN64 vd va vb tr => Sys2Proof.Machine.execMaxN64 vd va vb tr s
  | .andN32 vd va vb tr => Sys2Proof.Machine.execAndN32 vd va vb tr s
  | .orN32 vd va vb tr => Sys2Proof.Machine.execOrN32 vd va vb tr s
  | .xorN32 vd va vb tr => Sys2Proof.Machine.execXorN32 vd va vb tr s
  | .andnN32 vd va vb tr => Sys2Proof.Machine.execAndnN32 vd va vb tr s
  | .ornN32 vd va vb tr => Sys2Proof.Machine.execOrnN32 vd va vb tr s
  | .xnorN32 vd va vb tr => Sys2Proof.Machine.execXnorN32 vd va vb tr s
  | .notN32 vd va tr => Sys2Proof.Machine.execNotN32 vd va tr s
  | .shlN32 vd va vb tr => Sys2Proof.Machine.execShlN32 vd va vb tr s
  | .shrN32 vd va vb tr => Sys2Proof.Machine.execShrN32 vd va vb tr s
  | .shrI32 vd va vb tr => Sys2Proof.Machine.execShrI32 vd va vb tr s
  | .rolN32 vd va vb tr => Sys2Proof.Machine.execRolN32 vd va vb tr s
  | .rorN32 vd va vb tr => Sys2Proof.Machine.execRorN32 vd va vb tr s
  | .popcN32 vd va tr => Sys2Proof.Machine.execPopcN32 vd va tr s
  | .clzN32 vd va tr => Sys2Proof.Machine.execClzN32 vd va tr s
  | .ctzN32 vd va tr => Sys2Proof.Machine.execCtzN32 vd va tr s
  | .brevN32 vd va tr => Sys2Proof.Machine.execBrevN32 vd va tr s
  | .bswapN32 vd va tr => Sys2Proof.Machine.execBswapN32 vd va tr s
  | .popcN64 vd va tr => Sys2Proof.Machine.execPopcN64 vd va tr s
  | .clzN64 vd va tr => Sys2Proof.Machine.execClzN64 vd va tr s
  | .bfeN32 vd va vb tr => Sys2Proof.Machine.execBfeN32 vd va vb tr s
  | .bfeI32 vd va vb tr => Sys2Proof.Machine.execBfeI32 vd va vb tr s
  | .bfiN32 vd va vb tr => Sys2Proof.Machine.execBfiN32 vd va vb tr s
  | .cmpI32 pk va vb cc => Sys2Proof.Machine.execCmpI32 pk va vb cc s
  | .selN32 vd va vb pk tr => Sys2Proof.Machine.execSelN32 vd va vb pk tr s
  | .movN32 vd va tr => Sys2Proof.Machine.execMovN32 vd va tr s
  | .shaddN32 vd va vb sh tr => Sys2Proof.Machine.execShaddN32 vd va vb sh tr s
  | .shaddN64 vd va vb sh tr => Sys2Proof.Machine.execShaddN64 vd va vb sh tr s
  | .addI16 vd va vb tr => Sys2Proof.Machine.execAddI16 vd va vb tr s
  | .subI16 vd va vb tr => Sys2Proof.Machine.execSubI16 vd va vb tr s
  | .addI8 vd va vb tr => Sys2Proof.Machine.execAddI8 vd va vb tr s
  | .subI8 vd va vb tr => Sys2Proof.Machine.execSubI8 vd va vb tr s
  | .addsatI16 vd va vb tr => Sys2Proof.Machine.execAddsatI16 vd va vb tr s
  | .subsatI16 vd va vb tr => Sys2Proof.Machine.execSubsatI16 vd va vb tr s
  | .addsatN8 vd va vb tr => Sys2Proof.Machine.execAddsatN8 vd va vb tr s
  | .dotI8 vd va vb tr => Sys2Proof.Machine.execDotI8 vd va vb tr s
  | .pand vd va vb => Sys2Proof.Machine.execPand vd va vb s
  | .por vd va vb => Sys2Proof.Machine.execPor vd va vb s
  | .pxor vd va vb => Sys2Proof.Machine.execPxor vd va vb s
  | .pandn vd va vb => Sys2Proof.Machine.execPandn vd va vb s
  | .pnot vd va => Sys2Proof.Machine.execPnot vd va s
  | .ptovN32 vd tr => Sys2Proof.Machine.execPtovN32 vd tr s
  | .vtopN32 va => Sys2Proof.Machine.execVtopN32 va s
  | .mulI64 vd va vb tr => Sys2Proof.Machine.execMulI64 vd va vb tr s
  | .shlN64 vd va vb tr => Sys2Proof.Machine.execShlN64 vd va vb tr s
  | .shrN64 vd va vb tr => Sys2Proof.Machine.execShrN64 vd va vb tr s
  | .shrI64 vd va vb tr => Sys2Proof.Machine.execShrI64 vd va vb tr s
  | .cmpEqI64 pk va vb => Sys2Proof.Machine.execCmpEqI64 pk va vb s
  | .cmpLtI64 pk va vb => Sys2Proof.Machine.execCmpLtI64 pk va vb s
  | .cmpLtN64 pk va vb => Sys2Proof.Machine.execCmpLtN64 pk va vb s
  | .movN64 vd va tr => Sys2Proof.Machine.execMovN64 vd va tr s
  | .addI32Imm vd imm => Sys2Proof.Machine.execAddI32Imm vd imm s
  | .addI64Imm vd imm => Sys2Proof.Machine.execAddI64Imm vd imm s
  | .addsatI32Imm vd imm => Sys2Proof.Machine.execAddsatI32Imm vd imm s
  | .addsatN32Imm vd imm => Sys2Proof.Machine.execAddsatN32Imm vd imm s
  | .andN32Imm vd imm => Sys2Proof.Machine.execAndN32Imm vd imm s
  | .orN32Imm vd imm => Sys2Proof.Machine.execOrN32Imm vd imm s
  | .xorN32Imm vd imm => Sys2Proof.Machine.execXorN32Imm vd imm s
  | .shlN32Imm vd imm => Sys2Proof.Machine.execShlN32Imm vd imm s
  | .shrN32Imm vd imm => Sys2Proof.Machine.execShrN32Imm vd imm s
  | .shrI32Imm vd imm => Sys2Proof.Machine.execShrI32Imm vd imm s
  | .rorN32Imm vd imm => Sys2Proof.Machine.execRorN32Imm vd imm s
  | .setEqI32 vd imm => Sys2Proof.Machine.execSetEqI32 vd imm s
  | .setNeI32 vd imm => Sys2Proof.Machine.execSetNeI32 vd imm s
  | .setLtI32 vd imm => Sys2Proof.Machine.execSetLtI32 vd imm s
  | .setLtN32 vd imm => Sys2Proof.Machine.execSetLtN32 vd imm s
  | .movlN32 vd imm => Sys2Proof.Machine.execMovlN32 vd imm s
  | .movhN32 vd imm => Sys2Proof.Machine.execMovhN32 vd imm s
  | .movI32Imm vd imm => Sys2Proof.Machine.execMovI32Imm vd imm s
  | .movN32Imm vd imm => Sys2Proof.Machine.execMovN32Imm vd imm s
  | .mulI32Imm vd imm => Sys2Proof.Machine.execMulI32Imm vd imm s
  | .mulI64Imm vd imm => Sys2Proof.Machine.execMulI64Imm vd imm s
  | .minI32Imm vd imm => Sys2Proof.Machine.execMinI32Imm vd imm s
  | .maxI32Imm vd imm => Sys2Proof.Machine.execMaxI32Imm vd imm s
  | .minN32Imm vd imm => Sys2Proof.Machine.execMinN32Imm vd imm s
  | .maxN32Imm vd imm => Sys2Proof.Machine.execMaxN32Imm vd imm s
  | .faddF32 vd va vb tr => Sys2Proof.Machine.execFaddF32 vd va vb tr s
  | .fsubF32 vd va vb tr => Sys2Proof.Machine.execFsubF32 vd va vb tr s
  | .fmulF32 vd va vb tr => Sys2Proof.Machine.execFmulF32 vd va vb tr s
  | .fmaF32 vd va vb tr => Sys2Proof.Machine.execFmaF32 vd va vb tr s
  | .fmsF32 vd va vb tr => Sys2Proof.Machine.execFmsF32 vd va vb tr s
  | .fnmaF32 vd va vb tr => Sys2Proof.Machine.execFnmaF32 vd va vb tr s
  | .fminF32 vd va vb tr => Sys2Proof.Machine.execFminF32 vd va vb tr s
  | .fmaxF32 vd va vb tr => Sys2Proof.Machine.execFmaxF32 vd va vb tr s
  | .fcmpF32 pk va vb cc => Sys2Proof.Machine.execFcmpF32 pk va vb cc s
  | .faddF64 vd va vb tr => Sys2Proof.Machine.execFaddF64 vd va vb tr s
  | .fsubF64 vd va vb tr => Sys2Proof.Machine.execFsubF64 vd va vb tr s
  | .fmulF64 vd va vb tr => Sys2Proof.Machine.execFmulF64 vd va vb tr s
  | .fmaF64 vd va vb tr => Sys2Proof.Machine.execFmaF64 vd va vb tr s
  | .fmsF64 vd va vb tr => Sys2Proof.Machine.execFmsF64 vd va vb tr s
  | .fnmaF64 vd va vb tr => Sys2Proof.Machine.execFnmaF64 vd va vb tr s
  | .fminF64 vd va vb tr => Sys2Proof.Machine.execFminF64 vd va vb tr s
  | .fmaxF64 vd va vb tr => Sys2Proof.Machine.execFmaxF64 vd va vb tr s
  | .fcmpF64 pk va vb cc => Sys2Proof.Machine.execFcmpF64 pk va vb cc s
  | .faddF16 vd va vb tr => Sys2Proof.Machine.execFaddF16 vd va vb tr s
  | .fmulF16 vd va vb tr => Sys2Proof.Machine.execFmulF16 vd va vb tr s
  | .fmaF16 vd va vb tr => Sys2Proof.Machine.execFmaF16 vd va vb tr s
  | .faddBf16 vd va vb tr => Sys2Proof.Machine.execFaddBf16 vd va vb tr s
  | .fmulBf16 vd va vb tr => Sys2Proof.Machine.execFmulBf16 vd va vb tr s
  | .fmaBf16 vd va vb tr => Sys2Proof.Machine.execFmaBf16 vd va vb tr s
  | .fmaxF16 vd va vb tr => Sys2Proof.Machine.execFmaxF16 vd va vb tr s
  | .fmaxBf16 vd va vb tr => Sys2Proof.Machine.execFmaxBf16 vd va vb tr s
  | .faddE4m3 vd va vb tr => Sys2Proof.Machine.execFaddE4m3 vd va vb tr s
  | .fmulE4m3 vd va vb tr => Sys2Proof.Machine.execFmulE4m3 vd va vb tr s
  | .faddE5m2 vd va vb tr => Sys2Proof.Machine.execFaddE5m2 vd va vb tr s
  | .fmulE5m2 vd va vb tr => Sys2Proof.Machine.execFmulE5m2 vd va vb tr s
  | .fdotF32E4m3 vd va vb tr => Sys2Proof.Machine.execFdotF32E4m3 vd va vb tr s
  | .fdotF32E5m2 vd va vb tr => Sys2Proof.Machine.execFdotF32E5m2 vd va vb tr s
  | .cvtF16E4m3 vd va tr => Sys2Proof.Machine.execCvtF16E4m3 vd va tr s
  | .cvtF16E5m2 vd va tr => Sys2Proof.Machine.execCvtF16E5m2 vd va tr s
  | .fdivF32 vd va vb tr => Sys2Proof.Machine.execFdivF32 vd va vb tr s
  | .fsqrtF32 vd va tr => Sys2Proof.Machine.execFsqrtF32 vd va tr s
  | .rcpF32 vd va tr => Sys2Proof.Machine.execRcpF32 vd va tr s
  | .rsqrtF32 vd va tr => Sys2Proof.Machine.execRsqrtF32 vd va tr s
  | .exp2F32 vd va tr => Sys2Proof.Machine.execExp2F32 vd va tr s
  | .log2F32 vd va tr => Sys2Proof.Machine.execLog2F32 vd va tr s
  | .sinpiF32 vd va tr => Sys2Proof.Machine.execSinpiF32 vd va tr s
  | .cospiF32 vd va tr => Sys2Proof.Machine.execCospiF32 vd va tr s
  | .fdivF64 vd va vb tr => Sys2Proof.Machine.execFdivF64 vd va vb tr s
  | .fsqrtF64 vd va tr => Sys2Proof.Machine.execFsqrtF64 vd va tr s
  | .fabsF32 vd va tr => Sys2Proof.Machine.execFabsF32 vd va tr s
  | .fnegF32 vd va tr => Sys2Proof.Machine.execFnegF32 vd va tr s
  | .fcopysignF32 vd va vb tr => Sys2Proof.Machine.execFcopysignF32 vd va vb tr s
  | .fclassF32 vd va tr => Sys2Proof.Machine.execFclassF32 vd va tr s
  | .fabsF64 vd va tr => Sys2Proof.Machine.execFabsF64 vd va tr s
  | .fnegF64 vd va tr => Sys2Proof.Machine.execFnegF64 vd va tr s
  | .fcopysignF64 vd va vb tr => Sys2Proof.Machine.execFcopysignF64 vd va vb tr s
  | .fclassF64 vd va tr => Sys2Proof.Machine.execFclassF64 vd va tr s
  | .faddF32Imm vd imm => Sys2Proof.Machine.execFaddF32Imm vd imm s
  | .fmulF32Imm vd imm => Sys2Proof.Machine.execFmulF32Imm vd imm s
  | .fmaxF32Imm vd imm => Sys2Proof.Machine.execFmaxF32Imm vd imm s
  | .fminF32Imm vd imm => Sys2Proof.Machine.execFminF32Imm vd imm s
  | .faddF64Imm vd imm => Sys2Proof.Machine.execFaddF64Imm vd imm s
  | .fmulF64Imm vd imm => Sys2Proof.Machine.execFmulF64Imm vd imm s
  | .fmaxF64Imm vd imm => Sys2Proof.Machine.execFmaxF64Imm vd imm s
  | .fminF64Imm vd imm => Sys2Proof.Machine.execFminF64Imm vd imm s
  | .fmulF16Imm vd imm => Sys2Proof.Machine.execFmulF16Imm vd imm s
  | .fmulBf16Imm vd imm => Sys2Proof.Machine.execFmulBf16Imm vd imm s
  | .fmulE4m3Imm vd imm => Sys2Proof.Machine.execFmulE4m3Imm vd imm s
  | .fmulE5m2Imm vd imm => Sys2Proof.Machine.execFmulE5m2Imm vd imm s
  | .cvtF32I32 vd va tr => Sys2Proof.Machine.execCvtF32I32 vd va tr s
  | .cvtF32N32 vd va tr => Sys2Proof.Machine.execCvtF32N32 vd va tr s
  | .cvtI32F32 vd va tr => Sys2Proof.Machine.execCvtI32F32 vd va tr s
  | .cvtN32F32 vd va tr => Sys2Proof.Machine.execCvtN32F32 vd va tr s
  | .cvtF64I64 vd va tr => Sys2Proof.Machine.execCvtF64I64 vd va tr s
  | .cvtI64F64 vd va tr => Sys2Proof.Machine.execCvtI64F64 vd va tr s
  | .cvtF64I32 vd va tr => Sys2Proof.Machine.execCvtF64I32 vd va tr s
  | .cvtI32F64 vd va tr => Sys2Proof.Machine.execCvtI32F64 vd va tr s
  | .cvtF64F32 vd va tr => Sys2Proof.Machine.execCvtF64F32 vd va tr s
  | .cvtF32F64 vd va tr => Sys2Proof.Machine.execCvtF32F64 vd va tr s
  | .cvtF32F16 vd va tr => Sys2Proof.Machine.execCvtF32F16 vd va tr s
  | .cvtF16F32 vd va tr => Sys2Proof.Machine.execCvtF16F32 vd va tr s
  | .cvtF32Bf16 vd va tr => Sys2Proof.Machine.execCvtF32Bf16 vd va tr s
  | .cvtBf16F32 vd va tr => Sys2Proof.Machine.execCvtBf16F32 vd va tr s
  | .cvtE4m3F32 vd va vb tr => Sys2Proof.Machine.execCvtE4m3F32 vd va vb tr s
  | .cvtE5m2F32 vd va vb tr => Sys2Proof.Machine.execCvtE5m2F32 vd va vb tr s
  | .cvtSx2F32 vd va => Sys2Proof.Machine.execCvtSx2F32 vd va s
  | .cvtSx4F32 vd va => Sys2Proof.Machine.execCvtSx4F32 vd va s
  | .cvtSx7F32 vd va => Sys2Proof.Machine.execCvtSx7F32 vd va s
  | .cvtF32Sx2 vd va => Sys2Proof.Machine.execCvtF32Sx2 vd va s
  | .cvtF32Sx4 vd va => Sys2Proof.Machine.execCvtF32Sx4 vd va s
  | .cvtF32Sx7 vd va => Sys2Proof.Machine.execCvtF32Sx7 vd va s
  | .xlIdxN32 vd va vb tr => Sys2Proof.Machine.execXlIdxN32 vd va vb tr s
  | .xlXorN32 vd va vb tr => Sys2Proof.Machine.execXlXorN32 vd va vb tr s
  | .xlUpN32 vd va vb tr => Sys2Proof.Machine.execXlUpN32 vd va vb tr s
  | .xlDownN32 vd va vb tr => Sys2Proof.Machine.execXlDownN32 vd va vb tr s
  | .xlIdxN64 vd va vb tr => Sys2Proof.Machine.execXlIdxN64 vd va vb tr s
  | .xlBallotN64 vd pk tr => Sys2Proof.Machine.execXlBallotN64 vd pk tr s
  | .xlAddI32 vd va tr => Sys2Proof.Machine.execXlAddI32 vd va tr s
  | .ldStk vd sz va la off => Sys2Proof.Machine.execLdStk vd sz va la off s
  | .stStk vs sz va off => Sys2Proof.Machine.execStStk vs sz va off s
  | .ldSh vd sz va la off => Sys2Proof.Machine.execLdSh vd sz va la off s
  | .stSh vs sz va off => Sys2Proof.Machine.execStSh vs sz va off s
  | .ldDie vd sz va la off => Sys2Proof.Machine.execLdDie vd sz va la off s
  | .stDie vs sz va off => Sys2Proof.Machine.execStDie vs sz va off s
  | .ldFl vd sz va la off => Sys2Proof.Machine.execLdFl vd sz va la off s
  | .stFl vs sz va off => Sys2Proof.Machine.execStFl vs sz va off s
  | .ldAcq vd va la sp sz => Sys2Proof.Machine.execLdAcq vd va la sp sz s
  | .stRel vs va sp sz => Sys2Proof.Machine.execStRel vs va sp sz s
  | .stNt vs va sp sz => Sys2Proof.Machine.execStNt vs va sp sz s
  | .atomAdd vd va sz ord la sp => Sys2Proof.Machine.execAtomAdd vd va sz ord la sp s
  | .atomAnd vd va sz ord la sp => Sys2Proof.Machine.execAtomAnd vd va sz ord la sp s
  | .atomOr vd va sz ord la sp => Sys2Proof.Machine.execAtomOr vd va sz ord la sp s
  | .atomXor vd va sz ord la sp => Sys2Proof.Machine.execAtomXor vd va sz ord la sp s
  | .atomMinI vd va sz ord la sp => Sys2Proof.Machine.execAtomMinI vd va sz ord la sp s
  | .atomMaxI vd va sz ord la sp => Sys2Proof.Machine.execAtomMaxI vd va sz ord la sp s
  | .atomMinN vd va sz ord la sp => Sys2Proof.Machine.execAtomMinN vd va sz ord la sp s
  | .atomMaxN vd va sz ord la sp => Sys2Proof.Machine.execAtomMaxN vd va sz ord la sp s
  | .atomExch vd va sz ord la sp => Sys2Proof.Machine.execAtomExch vd va sz ord la sp s
  | .atomCas vd va sz ord la sp => Sys2Proof.Machine.execAtomCas vd va sz ord la sp s
  | .br cc off => Sys2Proof.Machine.execBr cc off s
  | .call off => Sys2Proof.Machine.execCall off s
  | .loopBr cc off => Sys2Proof.Machine.execLoopBr cc off s
  | .nop => Sys2Proof.Machine.execNop s
  | .ret => Sys2Proof.Machine.execRet s
  | .brInd va => Sys2Proof.Machine.execBrInd va s
  | .callInd va => Sys2Proof.Machine.execCallInd va s
  | .rgn hi lo => Sys2Proof.Machine.execRgn hi lo s
  | .ixSet va k => Sys2Proof.Machine.execIxSet va k s
  | .ixGet vd k la => Sys2Proof.Machine.execIxGet vd k la s
  | .rotSet vB size => Sys2Proof.Machine.execRotSet vB size s
  | .fence sc => Sys2Proof.Machine.execFence sc s
  | .ntDrain => Sys2Proof.Machine.execNtDrain s
  | .srRd vd sr la => Sys2Proof.Machine.execSrRd vd sr la s
  | .spGet vd la => Sys2Proof.Machine.execSpGet vd la s
  | .spSet va => Sys2Proof.Machine.execSpSet va s
  | .tbJoin k => Sys2Proof.Machine.execTbJoin k s
  | .tbSign k vd la => Sys2Proof.Machine.execTbSign k vd la s
  | .tbWait k va => Sys2Proof.Machine.execTbWait k va s
  | .weld k => Sys2Proof.Machine.execWeld k s
  | .ltArrive va => Sys2Proof.Machine.execLtArrive va s
  | .ltWait va ph => Sys2Proof.Machine.execLtWait va ph s
  | .ltPhase va vd la => Sys2Proof.Machine.execLtPhase va vd la s
  | .tlWait va sc k => Sys2Proof.Machine.execTlWait va sc k s
  | .tlRd vd k la => Sys2Proof.Machine.execTlRd vd k la s
  | .barCrew => Sys2Proof.Machine.execBarCrew s
  | .unjoin m0 m1 m2 => Sys2Proof.Machine.execUnjoin m0 m1 m2 s
  | .endThread => Sys2Proof.Machine.execEndThread s
  | .trap hi lo => Sys2Proof.Machine.execTrap hi lo s
  | .tret => Sys2Proof.Machine.execTret s
  | .cpT va vb k => Sys2Proof.Machine.execCpT va vb k s
  | .cpWait k => Sys2Proof.Machine.execCpWait k s
  | .cpCnt vd k la => Sys2Proof.Machine.execCpCnt vd k la s
  | .cpWaitAll => Sys2Proof.Machine.execCpWaitAll s
  | .kick va => Sys2Proof.Machine.execKick va s
  | .kickN vd va la => Sys2Proof.Machine.execKickN vd va la s
  | .atomFarAdd vd ord pr la sz sc => Sys2Proof.Machine.execAtomFarAdd vd ord pr la sz sc s
  | .atomFarAnd vd ord pr la sz sc => Sys2Proof.Machine.execAtomFarAnd vd ord pr la sz sc s
  | .atomFarOr vd ord pr la sz sc => Sys2Proof.Machine.execAtomFarOr vd ord pr la sz sc s
  | .atomFarXor vd ord pr la sz sc => Sys2Proof.Machine.execAtomFarXor vd ord pr la sz sc s
  | .atomFarMinI vd ord pr la sz sc => Sys2Proof.Machine.execAtomFarMinI vd ord pr la sz sc s
  | .atomFarMaxI vd ord pr la sz sc => Sys2Proof.Machine.execAtomFarMaxI vd ord pr la sz sc s
  | .atomFarMinN vd ord pr la sz sc => Sys2Proof.Machine.execAtomFarMinN vd ord pr la sz sc s
  | .atomFarMaxN vd ord pr la sz sc => Sys2Proof.Machine.execAtomFarMaxN vd ord pr la sz sc s
  | .atomFarExch vd ord pr la sz sc => Sys2Proof.Machine.execAtomFarExch vd ord pr la sz sc s
  | .atomFarCas vd ord pr la sz sc => Sys2Proof.Machine.execAtomFarCas vd ord pr la sz sc s
  | .flBirth va => Sys2Proof.Machine.execFlBirth va s
  | .flBirthZ va => Sys2Proof.Machine.execFlBirthZ va s
  | .flRenew va => Sys2Proof.Machine.execFlRenew va s
  | .flLife vd va la => Sys2Proof.Machine.execFlLife vd va la s
  | .flFree va => Sys2Proof.Machine.execFlFree va s
  | .flStat vd va la => Sys2Proof.Machine.execFlStat vd va la s
  | .flStatClr vd va => Sys2Proof.Machine.execFlStatClr vd va s
  | .mma va acc ob tb keep => Sys2Proof.Machine.execMma va acc ob tb keep s
  | .mmaZero va acc ob tb keep => Sys2Proof.Machine.execMmaZero va acc ob tb keep s
  | .mxLease vd va la => Sys2Proof.Machine.execMxLease vd va la s
  | .mxRelease => Sys2Proof.Machine.execMxRelease s
  | .obResv va k => Sys2Proof.Machine.execObResv va k s
  | .obFree k => Sys2Proof.Machine.execObFree k s
  | .obLd va die k => Sys2Proof.Machine.execObLd va die k s
  | .accRd vd va la => Sys2Proof.Machine.execAccRd vd va la s
  | .accWait role acc => Sys2Proof.Machine.execAccWait role acc s
  | .mxFreeze unit => Sys2Proof.Machine.execMxFreeze unit s
  | .mxThaw unit => Sys2Proof.Machine.execMxThaw unit s
  | .accDrain va slot unit => Sys2Proof.Machine.execAccDrain va slot unit s
  | .accFill va slot unit => Sys2Proof.Machine.execAccFill va slot unit s
  | .obDrain va slot unit => Sys2Proof.Machine.execObDrain va slot unit s
  | .obFill va slot unit => Sys2Proof.Machine.execObFill va slot unit s
  | .itRange va k => Sys2Proof.Machine.execItRange va k s
  | .itList va k => Sys2Proof.Machine.execItList va k s
  | .itBits va k => Sys2Proof.Machine.execItBits va k s
  | .itQueue va k => Sys2Proof.Machine.execItQueue va k s
  | .itMap va k => Sys2Proof.Machine.execItMap va k s
  | .itFilter va k => Sys2Proof.Machine.execItFilter va k s
  | .itZip va k => Sys2Proof.Machine.execItZip va k s
  | .itChain va k => Sys2Proof.Machine.execItChain va k s
  | .itFlat va k => Sys2Proof.Machine.execItFlat va k s
  | .itNext vd vn la k => Sys2Proof.Machine.execItNext vd vn la k s
  | .itEnough k => Sys2Proof.Machine.execItEnough k s
  | .itFree k => Sys2Proof.Machine.execItFree k s
  | .itStat vd k la => Sys2Proof.Machine.execItStat vd k la s
  | .itRd va depth k => Sys2Proof.Machine.execItRd va depth k s
  | .qPush va sz => Sys2Proof.Machine.execQPush va sz s
  | .qPushNb va sz => Sys2Proof.Machine.execQPushNb va sz s
  | .qPop vd va la => Sys2Proof.Machine.execQPop vd va la s
  | .qPopNb vd va la => Sys2Proof.Machine.execQPopNb vd va la s
  | .qStat vd va la => Sys2Proof.Machine.execQStat vd va la s
  | .emit va sz => Sys2Proof.Machine.execEmit va sz s
  | .hcall vd va => Sys2Proof.Machine.execHcall vd va s
  | .colSend va vb => Sys2Proof.Machine.execColSend va vb s
  | .colRecv va vb => Sys2Proof.Machine.execColRecv va vb s
  | .colRed va vb => Sys2Proof.Machine.execColRed va vb s
  | .colGangbar => Sys2Proof.Machine.execColGangbar s
  | .colAbort va => Sys2Proof.Machine.execColAbort va s
  | .colStat vd va => Sys2Proof.Machine.execColStat vd va s
  | .pfx pred mz rnd vc neg => Sys2Proof.Machine.execPfx pred mz rnd vc neg s
  | .gAddI64 gd ga gb => Sys2Proof.Machine.execGAddI64 gd ga gb s
  | .gSubI64 gd ga gb => Sys2Proof.Machine.execGSubI64 gd ga gb s
  | .gNegI64 gd ga => Sys2Proof.Machine.execGNegI64 gd ga s
  | .gAbsI64 gd ga => Sys2Proof.Machine.execGAbsI64 gd ga s
  | .gMulI64 gd ga gb => Sys2Proof.Machine.execGMulI64 gd ga gb s
  | .gMulhiI64 gd ga gb => Sys2Proof.Machine.execGMulhiI64 gd ga gb s
  | .gMulhiN64 gd ga gb => Sys2Proof.Machine.execGMulhiN64 gd ga gb s
  | .gDivI64 gd ga gb => Sys2Proof.Machine.execGDivI64 gd ga gb s
  | .gDivN64 gd ga gb => Sys2Proof.Machine.execGDivN64 gd ga gb s
  | .gRemI64 gd ga gb => Sys2Proof.Machine.execGRemI64 gd ga gb s
  | .gRemN64 gd ga gb => Sys2Proof.Machine.execGRemN64 gd ga gb s
  | .gAndN64 gd ga gb => Sys2Proof.Machine.execGAndN64 gd ga gb s
  | .gOrN64 gd ga gb => Sys2Proof.Machine.execGOrN64 gd ga gb s
  | .gXorN64 gd ga gb => Sys2Proof.Machine.execGXorN64 gd ga gb s
  | .gAndnN64 gd ga gb => Sys2Proof.Machine.execGAndnN64 gd ga gb s
  | .gNotN64 gd ga => Sys2Proof.Machine.execGNotN64 gd ga s
  | .gShlN64 gd ga gb => Sys2Proof.Machine.execGShlN64 gd ga gb s
  | .gShrN64 gd ga gb => Sys2Proof.Machine.execGShrN64 gd ga gb s
  | .gShrI64 gd ga gb => Sys2Proof.Machine.execGShrI64 gd ga gb s
  | .gRolN64 gd ga gb => Sys2Proof.Machine.execGRolN64 gd ga gb s
  | .gRorN64 gd ga gb => Sys2Proof.Machine.execGRorN64 gd ga gb s
  | .gSetEqI64 gd ga gb => Sys2Proof.Machine.execGSetEqI64 gd ga gb s
  | .gSetNeI64 gd ga gb => Sys2Proof.Machine.execGSetNeI64 gd ga gb s
  | .gSetLtI64 gd ga gb => Sys2Proof.Machine.execGSetLtI64 gd ga gb s
  | .gSetLeI64 gd ga gb => Sys2Proof.Machine.execGSetLeI64 gd ga gb s
  | .gSetLtN64 gd ga gb => Sys2Proof.Machine.execGSetLtN64 gd ga gb s
  | .gSetLeN64 gd ga gb => Sys2Proof.Machine.execGSetLeN64 gd ga gb s
  | .gMinI64 gd ga gb => Sys2Proof.Machine.execGMinI64 gd ga gb s
  | .gMaxI64 gd ga gb => Sys2Proof.Machine.execGMaxI64 gd ga gb s
  | .gMinN64 gd ga gb => Sys2Proof.Machine.execGMinN64 gd ga gb s
  | .gMaxN64 gd ga gb => Sys2Proof.Machine.execGMaxN64 gd ga gb s
  | .gMovN64 gd ga => Sys2Proof.Machine.execGMovN64 gd ga s
  | .gMovnzN64 gd ga gb => Sys2Proof.Machine.execGMovnzN64 gd ga gb s
  | .gMovzN64 gd ga gb => Sys2Proof.Machine.execGMovzN64 gd ga gb s
  | .gPopcN64 gd ga => Sys2Proof.Machine.execGPopcN64 gd ga s
  | .gClzN64 gd ga => Sys2Proof.Machine.execGClzN64 gd ga s
  | .gCtzN64 gd ga => Sys2Proof.Machine.execGCtzN64 gd ga s
  | .gBrevN64 gd ga => Sys2Proof.Machine.execGBrevN64 gd ga s
  | .gAddI64Imm gd imm => Sys2Proof.Machine.execGAddI64Imm gd imm s
  | .gMulI64Imm gd imm => Sys2Proof.Machine.execGMulI64Imm gd imm s
  | .gMinI64Imm gd imm => Sys2Proof.Machine.execGMinI64Imm gd imm s
  | .gMaxI64Imm gd imm => Sys2Proof.Machine.execGMaxI64Imm gd imm s
  | .gAndN64Imm gd imm => Sys2Proof.Machine.execGAndN64Imm gd imm s
  | .gOrN64Imm gd imm => Sys2Proof.Machine.execGOrN64Imm gd imm s
  | .gXorN64Imm gd imm => Sys2Proof.Machine.execGXorN64Imm gd imm s
  | .gAndI64Imm gd imm => Sys2Proof.Machine.execGAndI64Imm gd imm s
  | .gShlN64Imm gd imm => Sys2Proof.Machine.execGShlN64Imm gd imm s
  | .gShrN64Imm gd imm => Sys2Proof.Machine.execGShrN64Imm gd imm s
  | .gShrI64Imm gd imm => Sys2Proof.Machine.execGShrI64Imm gd imm s
  | .gRolN64Imm gd imm => Sys2Proof.Machine.execGRolN64Imm gd imm s
  | .gMovI64Imm gd imm => Sys2Proof.Machine.execGMovI64Imm gd imm s
  | .gMovN64Imm gd imm => Sys2Proof.Machine.execGMovN64Imm gd imm s
  | .gMovk16 gd imm => Sys2Proof.Machine.execGMovk16 gd imm s
  | .gMovk32 gd imm => Sys2Proof.Machine.execGMovk32 gd imm s
  | .gMovk48 gd imm => Sys2Proof.Machine.execGMovk48 gd imm s
  | .gLdSh gd ga sz la off => Sys2Proof.Machine.execGLdSh gd ga sz la off s
  | .gStSh gd ga sz off => Sys2Proof.Machine.execGStSh gd ga sz off s
  | .gLdDie gd ga sz la off => Sys2Proof.Machine.execGLdDie gd ga sz la off s
  | .gStDie gd ga sz off => Sys2Proof.Machine.execGStDie gd ga sz off s
  | .gBr cc ga off => Sys2Proof.Machine.execGBr cc ga off s
  | .gRdsr gd ga => Sys2Proof.Machine.execGRdsr gd ga s
  | .gUconfClr => Sys2Proof.Machine.execGUconfClr s
  | .gRdvN32 gd ga => Sys2Proof.Machine.execGRdvN32 gd ga s
  | .gWrvN32 gd ga => Sys2Proof.Machine.execGWrvN32 gd ga s
  | .gWrvN64 gd ga => Sys2Proof.Machine.execGWrvN64 gd ga s
  | .xsfVld nf rs2 rs1 vd => Sys2Proof.Machine.execXsfVld nf rs2 rs1 vd s
  | .xsfVst nf rs2 rs1 vd => Sys2Proof.Machine.execXsfVst nf rs2 rs1 vd s
  | .mmaAccept die cluster unit => Sys2Proof.Machine.execMmaAccept die cluster unit s
  | .mmaComplete die cluster unit => Sys2Proof.Machine.execMmaComplete die cluster unit s
  | .overlayFetchComplete die cluster obj group => Sys2Proof.Machine.execOverlayFetchComplete die cluster obj group s
  | .copyElementWrite copy elem => Sys2Proof.Machine.execCopyElementWrite copy elem s
  | .pageResponse req success => Sys2Proof.Machine.execPageResponse req success s
  | .cptElementPerform elem => Sys2Proof.Machine.execCptElementPerform elem s
  | .farAtomicResponse req => Sys2Proof.Machine.execFarAtomicResponse req s
  | .atomicopUrCompletion req => Sys2Proof.Machine.execAtomicopUrCompletion req s
  | .atsInvalidation pasid page bytes => Sys2Proof.Machine.execAtsInvalidation pasid page bytes s
  | .fleetingTick => Sys2Proof.Machine.execFleetingTick s
  | .crewStart launch die cluster node homes => Sys2Proof.Machine.execCrewStart launch die cluster node homes s
  | .launchComplete launch => Sys2Proof.Machine.execLaunchComplete launch s
  | .nodeFlushTimer launch die node cluster homes => Sys2Proof.Machine.execNodeFlushTimer launch die node cluster homes s
  | .churnMove launch die queue => Sys2Proof.Machine.execChurnMove launch die queue s
  | .pullResume crew stack => Sys2Proof.Machine.execPullResume crew stack s
  | .sliceExpiry => Sys2Proof.Machine.execSliceExpiry s
  | .saveDrainComplete crew => Sys2Proof.Machine.execSaveDrainComplete crew s
  | .drainLimitExpiry crew => Sys2Proof.Machine.execDrainLimitExpiry crew s
  | .restoreInstall ctx saved die cluster homes => Sys2Proof.Machine.execRestoreInstall ctx saved die cluster homes s
  | .hostLinkTrain cxl => Sys2Proof.Machine.execHostLinkTrain cxl s
  | .slotTake fn => Sys2Proof.Machine.execSlotTake fn s
  | .ctxNew fn slot => Sys2Proof.Machine.execCtxNew fn slot s
  | .ctxEnd fn slot => Sys2Proof.Machine.execCtxEnd fn slot s
  | .map fn slot => Sys2Proof.Machine.execMap fn slot s
  | .unmap fn slot => Sys2Proof.Machine.execUnmap fn slot s
  | .load fn slot => Sys2Proof.Machine.execLoad fn slot s
  | .unload fn slot => Sys2Proof.Machine.execUnload fn slot s
  | .launch fn slot => Sys2Proof.Machine.execLaunch fn slot s
  | .qweight fn slot => Sys2Proof.Machine.execQweight fn slot s
  | .duty fn slot => Sys2Proof.Machine.execDuty fn slot s
  | .quantum fn slot => Sys2Proof.Machine.execQuantum fn slot s
  | .save fn slot => Sys2Proof.Machine.execSave fn slot s
  | .restore fn slot => Sys2Proof.Machine.execRestore fn slot s
  | .tlWaitRecord fn slot => Sys2Proof.Machine.execTlWaitRecord fn slot s
  | .tlRead fn slot => Sys2Proof.Machine.execTlRead fn slot s
  | .workerAdd fn slot => Sys2Proof.Machine.execWorkerAdd fn slot s
  | .workerDel fn slot => Sys2Proof.Machine.execWorkerDel fn slot s
  | .recordCompletion fn slot => Sys2Proof.Machine.execRecordCompletion fn slot s
  | .callDispatch ctx cls => Sys2Proof.Machine.execCallDispatch ctx cls s
  | .replyPail fn worker => Sys2Proof.Machine.execReplyPail fn worker s
  | .callDeadline call => Sys2Proof.Machine.execCallDeadline call s
  | .dutyDeadline req => Sys2Proof.Machine.execDutyDeadline req s
  | .colTransferReceive ctx gen src dst kind k unitIx len op data => Sys2Proof.Machine.execColTransferReceive ctx gen src dst kind k unitIx len op data s
  | .colTimeoutExpiry colop => Sys2Proof.Machine.execColTimeoutExpiry colop s
  | .abortFlit gid gen => Sys2Proof.Machine.execAbortFlit gid gen s
  | .gangAck gang member => Sys2Proof.Machine.execGangAck gang member s
  | .gangWindowExpiry gang => Sys2Proof.Machine.execGangWindowExpiry gang s
  | .gangFailFlit gang member => Sys2Proof.Machine.execGangFailFlit gang member s
  | .budgetTick draw => Sys2Proof.Machine.execBudgetTick draw s
  | .budgetMessage msg => Sys2Proof.Machine.execBudgetMessage msg s
  | .powerControlApply die cluster ratios passes => Sys2Proof.Machine.execPowerControlApply die cluster ratios passes s
  | .ballastStep die cluster unit rate => Sys2Proof.Machine.execBallastStep die cluster unit rate s
  | .flitCrcReplay port => Sys2Proof.Machine.execFlitCrcReplay port s
  | .laneFailure port => Sys2Proof.Machine.execLaneFailure port s
  | .hostLinkDown => Sys2Proof.Machine.execHostLinkDown s
  | .moduleReset => Sys2Proof.Machine.execModuleReset s
  | .podImageReceive port stage image => Sys2Proof.Machine.execPodImageReceive port stage image s
  | .parentSilenceTimeout => Sys2Proof.Machine.execParentSilenceTimeout s
  | .attestQuote nonce => Sys2Proof.Machine.execAttestQuote nonce s
  | .clusterWake die cluster passed => Sys2Proof.Machine.execClusterWake die cluster passed s
  | .unassignedEncoding word => Sys2Proof.Machine.execUnassignedEncoding word s
  | .hostAccess ctx addr write data => Sys2Proof.Machine.execHostAccess ctx addr write data s
  | .peerRequest port addr kind aop wide x c data => Sys2Proof.Machine.execPeerRequest port addr kind aop wide x c data s
  | .atsCompletion req success => Sys2Proof.Machine.execAtsCompletion req success s
  | .unrecoveredLink => Sys2Proof.Machine.execUnrecoveredLink s
  | .receiverConfirmation colop => Sys2Proof.Machine.execReceiverConfirmation colop s
  | .gangbarArrival gang member => Sys2Proof.Machine.execGangbarArrival gang member s
  | .imageRequest port stage => Sys2Proof.Machine.execImageRequest port stage s

end Sys2Proof.Machine
end

