-- ==== Sys2Proof/Machine/Step.lean ====
section
/-! DEFINITION. One step of the module: the next move of the agenda, and what it carries out. -/

namespace Sys2Proof.Machine

open Sys2Proof

/-- Words carried out in order within one step: a prefix word and its base word, or one word. -/
def runWords : List (Word × Instr) → State → Host.Outcome State Fault Refusal
  | [], s => .next s
  | (w, i) :: r, s =>
    match exec i (s.withWord w) with
    | .next t => runWords r t
    | .fault f => .fault f
    | .refused f => .refused f

/-- What a fetch gave is carried out. -/
def runFetched : Fetched → Host.Outcome State Fault Refusal
  | .done s => .next s
  | .run is s => runWords is s

/-- One move. -/
noncomputable def State.move (s : State) : Move → Host.Outcome State Fault Refusal
  | .issue c tids => runFetched (s.fetchIssue c tids)
  | .retry c tid => runFetched (s.fetchRetry c tid)
  | .event e => if e.kind = .event then exec e s else .next s
  | .attendant core =>
    match s.coreInstr core with
    | .run i t => exec i t
    | .done t => .next t
    | .base w => .refused (.attendantBase w)
  | m => .next (s.world m)

/-- One step: the head of the agenda moves; a stopped module takes no step (R345). -/
noncomputable def step (s : State) : Host.Outcome State Fault Refusal :=
  if s.stopped then .fault .moduleStopped
  else { s with agenda := s.nextMove.2 }.move s.nextMove.1

/-- The state with an instruction of the opcode table placed where the next step fetches it, as the program of the one
thread of a crew that has just started (notes/assumptions/16.md). -/
def State.withFetchWord (s : State) (_nbits w : Nat) : State := s.placed w

end Sys2Proof.Machine
end

