-- ==== Sys2Proof/Laws/Decode.lean ====
section
/-! SUPPORT. The fields of an encoded word, and the arm of the decoder that its major opcode takes. -/

namespace Sys2Proof

set_option Elab.async false

/-- A field of a word that is written as a number. -/
theorem field_ofNat {len : Nat} (n k : Nat) (x : BitVec len) (hk : k + len ≤ 32)
    (h : n / 2 ^ k % 2 ^ len = x.toNat) : (BitVec.ofNat 32 n).extractLsb' k len = x := by
  apply BitVec.eq_of_toNat_eq
  have e : 2 ^ 32 = 2 ^ k * 2 ^ (32 - k) := by rw [← Nat.pow_add]; congr 1; omega
  rw [BitVec.extractLsb'_toNat, BitVec.toNat_ofNat, Nat.shiftRight_eq_div_pow, ← h, e, Nat.mod_mul_right_div_self,
    Nat.mod_mod_of_dvd _ (Nat.pow_dvd_pow 2 (by omega))]

@[simp] theorem majorOf_wordLR (maj : BitVec 7) (d : BitVec 7) (a : BitVec 7) (b : BitVec 7) (fn : BitVec 3) (t : BitVec 1) :
    majorOf (wordLR maj d a b fn t) = maj := by
  refine field_ofNat _ _ _ (by decide) ?_
  have h := And.intro maj.isLt <| And.intro d.isLt <| And.intro a.isLt <| And.intro b.isLt <| And.intro fn.isLt t.isLt
  generalize maj.toNat = x0, d.toNat = x1, a.toNat = x2, b.toNat = x3, fn.toNat = x4, t.toNat = x5 at h ⊢
  omega

@[simp] theorem lrD_wordLR (maj : BitVec 7) (d : BitVec 7) (a : BitVec 7) (b : BitVec 7) (fn : BitVec 3) (t : BitVec 1) :
    lrD (wordLR maj d a b fn t) = d := by
  refine field_ofNat _ _ _ (by decide) ?_
  have h := And.intro maj.isLt <| And.intro d.isLt <| And.intro a.isLt <| And.intro b.isLt <| And.intro fn.isLt t.isLt
  generalize maj.toNat = x0, d.toNat = x1, a.toNat = x2, b.toNat = x3, fn.toNat = x4, t.toNat = x5 at h ⊢
  omega

@[simp] theorem lrA_wordLR (maj : BitVec 7) (d : BitVec 7) (a : BitVec 7) (b : BitVec 7) (fn : BitVec 3) (t : BitVec 1) :
    lrA (wordLR maj d a b fn t) = a := by
  refine field_ofNat _ _ _ (by decide) ?_
  have h := And.intro maj.isLt <| And.intro d.isLt <| And.intro a.isLt <| And.intro b.isLt <| And.intro fn.isLt t.isLt
  generalize maj.toNat = x0, d.toNat = x1, a.toNat = x2, b.toNat = x3, fn.toNat = x4, t.toNat = x5 at h ⊢
  omega

@[simp] theorem lrB_wordLR (maj : BitVec 7) (d : BitVec 7) (a : BitVec 7) (b : BitVec 7) (fn : BitVec 3) (t : BitVec 1) :
    lrB (wordLR maj d a b fn t) = b := by
  refine field_ofNat _ _ _ (by decide) ?_
  have h := And.intro maj.isLt <| And.intro d.isLt <| And.intro a.isLt <| And.intro b.isLt <| And.intro fn.isLt t.isLt
  generalize maj.toNat = x0, d.toNat = x1, a.toNat = x2, b.toNat = x3, fn.toNat = x4, t.toNat = x5 at h ⊢
  omega

@[simp] theorem lrFn_wordLR (maj : BitVec 7) (d : BitVec 7) (a : BitVec 7) (b : BitVec 7) (fn : BitVec 3) (t : BitVec 1) :
    lrFn (wordLR maj d a b fn t) = fn := by
  refine field_ofNat _ _ _ (by decide) ?_
  have h := And.intro maj.isLt <| And.intro d.isLt <| And.intro a.isLt <| And.intro b.isLt <| And.intro fn.isLt t.isLt
  generalize maj.toNat = x0, d.toNat = x1, a.toNat = x2, b.toNat = x3, fn.toNat = x4, t.toNat = x5 at h ⊢
  omega

@[simp] theorem lrT_wordLR (maj : BitVec 7) (d : BitVec 7) (a : BitVec 7) (b : BitVec 7) (fn : BitVec 3) (t : BitVec 1) :
    lrT (wordLR maj d a b fn t) = t := by
  refine field_ofNat _ _ _ (by decide) ?_
  have h := And.intro maj.isLt <| And.intro d.isLt <| And.intro a.isLt <| And.intro b.isLt <| And.intro fn.isLt t.isLt
  generalize maj.toNat = x0, d.toNat = x1, a.toNat = x2, b.toNat = x3, fn.toNat = x4, t.toNat = x5 at h ⊢
  omega

@[simp] theorem majorOf_wordLI (maj : BitVec 7) (d : BitVec 7) (fn : BitVec 2) (imm : BitVec 16) :
    majorOf (wordLI maj d fn imm) = maj := by
  refine field_ofNat _ _ _ (by decide) ?_
  have h := And.intro maj.isLt <| And.intro d.isLt <| And.intro fn.isLt imm.isLt
  generalize maj.toNat = x0, d.toNat = x1, fn.toNat = x2, imm.toNat = x3 at h ⊢
  omega

@[simp] theorem liD_wordLI (maj : BitVec 7) (d : BitVec 7) (fn : BitVec 2) (imm : BitVec 16) :
    liD (wordLI maj d fn imm) = d := by
  refine field_ofNat _ _ _ (by decide) ?_
  have h := And.intro maj.isLt <| And.intro d.isLt <| And.intro fn.isLt imm.isLt
  generalize maj.toNat = x0, d.toNat = x1, fn.toNat = x2, imm.toNat = x3 at h ⊢
  omega

@[simp] theorem liFn_wordLI (maj : BitVec 7) (d : BitVec 7) (fn : BitVec 2) (imm : BitVec 16) :
    liFn (wordLI maj d fn imm) = fn := by
  refine field_ofNat _ _ _ (by decide) ?_
  have h := And.intro maj.isLt <| And.intro d.isLt <| And.intro fn.isLt imm.isLt
  generalize maj.toNat = x0, d.toNat = x1, fn.toNat = x2, imm.toNat = x3 at h ⊢
  omega

@[simp] theorem liImm_wordLI (maj : BitVec 7) (d : BitVec 7) (fn : BitVec 2) (imm : BitVec 16) :
    liImm (wordLI maj d fn imm) = imm := by
  refine field_ofNat _ _ _ (by decide) ?_
  have h := And.intro maj.isLt <| And.intro d.isLt <| And.intro fn.isLt imm.isLt
  generalize maj.toNat = x0, d.toNat = x1, fn.toNat = x2, imm.toNat = x3 at h ⊢
  omega

@[simp] theorem majorOf_wordLM (maj : BitVec 7) (d : BitVec 7) (op : BitVec 3) (a : BitVec 4) (la : BitVec 4) (off : BitVec 7) :
    majorOf (wordLM maj d op a la off) = maj := by
  refine field_ofNat _ _ _ (by decide) ?_
  have h := And.intro maj.isLt <| And.intro d.isLt <| And.intro op.isLt <| And.intro a.isLt <| And.intro la.isLt off.isLt
  generalize maj.toNat = x0, d.toNat = x1, op.toNat = x2, a.toNat = x3, la.toNat = x4, off.toNat = x5 at h ⊢
  omega

@[simp] theorem lmD_wordLM (maj : BitVec 7) (d : BitVec 7) (op : BitVec 3) (a : BitVec 4) (la : BitVec 4) (off : BitVec 7) :
    lmD (wordLM maj d op a la off) = d := by
  refine field_ofNat _ _ _ (by decide) ?_
  have h := And.intro maj.isLt <| And.intro d.isLt <| And.intro op.isLt <| And.intro a.isLt <| And.intro la.isLt off.isLt
  generalize maj.toNat = x0, d.toNat = x1, op.toNat = x2, a.toNat = x3, la.toNat = x4, off.toNat = x5 at h ⊢
  omega

@[simp] theorem lmOp_wordLM (maj : BitVec 7) (d : BitVec 7) (op : BitVec 3) (a : BitVec 4) (la : BitVec 4) (off : BitVec 7) :
    lmOp (wordLM maj d op a la off) = op := by
  refine field_ofNat _ _ _ (by decide) ?_
  have h := And.intro maj.isLt <| And.intro d.isLt <| And.intro op.isLt <| And.intro a.isLt <| And.intro la.isLt off.isLt
  generalize maj.toNat = x0, d.toNat = x1, op.toNat = x2, a.toNat = x3, la.toNat = x4, off.toNat = x5 at h ⊢
  omega

@[simp] theorem lmA_wordLM (maj : BitVec 7) (d : BitVec 7) (op : BitVec 3) (a : BitVec 4) (la : BitVec 4) (off : BitVec 7) :
    lmA (wordLM maj d op a la off) = a := by
  refine field_ofNat _ _ _ (by decide) ?_
  have h := And.intro maj.isLt <| And.intro d.isLt <| And.intro op.isLt <| And.intro a.isLt <| And.intro la.isLt off.isLt
  generalize maj.toNat = x0, d.toNat = x1, op.toNat = x2, a.toNat = x3, la.toNat = x4, off.toNat = x5 at h ⊢
  omega

@[simp] theorem lmLa_wordLM (maj : BitVec 7) (d : BitVec 7) (op : BitVec 3) (a : BitVec 4) (la : BitVec 4) (off : BitVec 7) :
    lmLa (wordLM maj d op a la off) = la := by
  refine field_ofNat _ _ _ (by decide) ?_
  have h := And.intro maj.isLt <| And.intro d.isLt <| And.intro op.isLt <| And.intro a.isLt <| And.intro la.isLt off.isLt
  generalize maj.toNat = x0, d.toNat = x1, op.toNat = x2, a.toNat = x3, la.toNat = x4, off.toNat = x5 at h ⊢
  omega

@[simp] theorem lmOff_wordLM (maj : BitVec 7) (d : BitVec 7) (op : BitVec 3) (a : BitVec 4) (la : BitVec 4) (off : BitVec 7) :
    lmOff (wordLM maj d op a la off) = off := by
  refine field_ofNat _ _ _ (by decide) ?_
  have h := And.intro maj.isLt <| And.intro d.isLt <| And.intro op.isLt <| And.intro a.isLt <| And.intro la.isLt off.isLt
  generalize maj.toNat = x0, d.toNat = x1, op.toNat = x2, a.toNat = x3, la.toNat = x4, off.toNat = x5 at h ⊢
  omega

@[simp] theorem majorOf_wordLO (maj : BitVec 7) (d : BitVec 7) (kind : BitVec 3) (a : BitVec 4) (la : BitVec 4) (sp : BitVec 2) (sz : BitVec 2) (z : BitVec 3) :
    majorOf (wordLO maj d kind a la sp sz z) = maj := by
  refine field_ofNat _ _ _ (by decide) ?_
  have h := And.intro maj.isLt <| And.intro d.isLt <| And.intro kind.isLt <| And.intro a.isLt <| And.intro la.isLt <| And.intro sp.isLt <| And.intro sz.isLt z.isLt
  generalize maj.toNat = x0, d.toNat = x1, kind.toNat = x2, a.toNat = x3, la.toNat = x4, sp.toNat = x5, sz.toNat = x6, z.toNat = x7 at h ⊢
  omega

@[simp] theorem loD_wordLO (maj : BitVec 7) (d : BitVec 7) (kind : BitVec 3) (a : BitVec 4) (la : BitVec 4) (sp : BitVec 2) (sz : BitVec 2) (z : BitVec 3) :
    loD (wordLO maj d kind a la sp sz z) = d := by
  refine field_ofNat _ _ _ (by decide) ?_
  have h := And.intro maj.isLt <| And.intro d.isLt <| And.intro kind.isLt <| And.intro a.isLt <| And.intro la.isLt <| And.intro sp.isLt <| And.intro sz.isLt z.isLt
  generalize maj.toNat = x0, d.toNat = x1, kind.toNat = x2, a.toNat = x3, la.toNat = x4, sp.toNat = x5, sz.toNat = x6, z.toNat = x7 at h ⊢
  omega

@[simp] theorem loKind_wordLO (maj : BitVec 7) (d : BitVec 7) (kind : BitVec 3) (a : BitVec 4) (la : BitVec 4) (sp : BitVec 2) (sz : BitVec 2) (z : BitVec 3) :
    loKind (wordLO maj d kind a la sp sz z) = kind := by
  refine field_ofNat _ _ _ (by decide) ?_
  have h := And.intro maj.isLt <| And.intro d.isLt <| And.intro kind.isLt <| And.intro a.isLt <| And.intro la.isLt <| And.intro sp.isLt <| And.intro sz.isLt z.isLt
  generalize maj.toNat = x0, d.toNat = x1, kind.toNat = x2, a.toNat = x3, la.toNat = x4, sp.toNat = x5, sz.toNat = x6, z.toNat = x7 at h ⊢
  omega

@[simp] theorem loA_wordLO (maj : BitVec 7) (d : BitVec 7) (kind : BitVec 3) (a : BitVec 4) (la : BitVec 4) (sp : BitVec 2) (sz : BitVec 2) (z : BitVec 3) :
    loA (wordLO maj d kind a la sp sz z) = a := by
  refine field_ofNat _ _ _ (by decide) ?_
  have h := And.intro maj.isLt <| And.intro d.isLt <| And.intro kind.isLt <| And.intro a.isLt <| And.intro la.isLt <| And.intro sp.isLt <| And.intro sz.isLt z.isLt
  generalize maj.toNat = x0, d.toNat = x1, kind.toNat = x2, a.toNat = x3, la.toNat = x4, sp.toNat = x5, sz.toNat = x6, z.toNat = x7 at h ⊢
  omega

@[simp] theorem loLa_wordLO (maj : BitVec 7) (d : BitVec 7) (kind : BitVec 3) (a : BitVec 4) (la : BitVec 4) (sp : BitVec 2) (sz : BitVec 2) (z : BitVec 3) :
    loLa (wordLO maj d kind a la sp sz z) = la := by
  refine field_ofNat _ _ _ (by decide) ?_
  have h := And.intro maj.isLt <| And.intro d.isLt <| And.intro kind.isLt <| And.intro a.isLt <| And.intro la.isLt <| And.intro sp.isLt <| And.intro sz.isLt z.isLt
  generalize maj.toNat = x0, d.toNat = x1, kind.toNat = x2, a.toNat = x3, la.toNat = x4, sp.toNat = x5, sz.toNat = x6, z.toNat = x7 at h ⊢
  omega

@[simp] theorem loSp_wordLO (maj : BitVec 7) (d : BitVec 7) (kind : BitVec 3) (a : BitVec 4) (la : BitVec 4) (sp : BitVec 2) (sz : BitVec 2) (z : BitVec 3) :
    loSp (wordLO maj d kind a la sp sz z) = sp := by
  refine field_ofNat _ _ _ (by decide) ?_
  have h := And.intro maj.isLt <| And.intro d.isLt <| And.intro kind.isLt <| And.intro a.isLt <| And.intro la.isLt <| And.intro sp.isLt <| And.intro sz.isLt z.isLt
  generalize maj.toNat = x0, d.toNat = x1, kind.toNat = x2, a.toNat = x3, la.toNat = x4, sp.toNat = x5, sz.toNat = x6, z.toNat = x7 at h ⊢
  omega

@[simp] theorem loSz_wordLO (maj : BitVec 7) (d : BitVec 7) (kind : BitVec 3) (a : BitVec 4) (la : BitVec 4) (sp : BitVec 2) (sz : BitVec 2) (z : BitVec 3) :
    loSz (wordLO maj d kind a la sp sz z) = sz := by
  refine field_ofNat _ _ _ (by decide) ?_
  have h := And.intro maj.isLt <| And.intro d.isLt <| And.intro kind.isLt <| And.intro a.isLt <| And.intro la.isLt <| And.intro sp.isLt <| And.intro sz.isLt z.isLt
  generalize maj.toNat = x0, d.toNat = x1, kind.toNat = x2, a.toNat = x3, la.toNat = x4, sp.toNat = x5, sz.toNat = x6, z.toNat = x7 at h ⊢
  omega

@[simp] theorem loZ_wordLO (maj : BitVec 7) (d : BitVec 7) (kind : BitVec 3) (a : BitVec 4) (la : BitVec 4) (sp : BitVec 2) (sz : BitVec 2) (z : BitVec 3) :
    loZ (wordLO maj d kind a la sp sz z) = z := by
  refine field_ofNat _ _ _ (by decide) ?_
  have h := And.intro maj.isLt <| And.intro d.isLt <| And.intro kind.isLt <| And.intro a.isLt <| And.intro la.isLt <| And.intro sp.isLt <| And.intro sz.isLt z.isLt
  generalize maj.toNat = x0, d.toNat = x1, kind.toNat = x2, a.toNat = x3, la.toNat = x4, sp.toNat = x5, sz.toNat = x6, z.toNat = x7 at h ⊢
  omega

@[simp] theorem majorOf_wordLA (maj : BitVec 7) (d : BitVec 7) (a : BitVec 4) (sz : BitVec 1) (ord : BitVec 2) (la : BitVec 4) (aop : BitVec 4) (sp : BitVec 2) (z : BitVec 1) :
    majorOf (wordLA maj d a sz ord la aop sp z) = maj := by
  refine field_ofNat _ _ _ (by decide) ?_
  have h := And.intro maj.isLt <| And.intro d.isLt <| And.intro a.isLt <| And.intro sz.isLt <| And.intro ord.isLt <| And.intro la.isLt <| And.intro aop.isLt <| And.intro sp.isLt z.isLt
  generalize maj.toNat = x0, d.toNat = x1, a.toNat = x2, sz.toNat = x3, ord.toNat = x4, la.toNat = x5, aop.toNat = x6, sp.toNat = x7, z.toNat = x8 at h ⊢
  omega

@[simp] theorem laD_wordLA (maj : BitVec 7) (d : BitVec 7) (a : BitVec 4) (sz : BitVec 1) (ord : BitVec 2) (la : BitVec 4) (aop : BitVec 4) (sp : BitVec 2) (z : BitVec 1) :
    laD (wordLA maj d a sz ord la aop sp z) = d := by
  refine field_ofNat _ _ _ (by decide) ?_
  have h := And.intro maj.isLt <| And.intro d.isLt <| And.intro a.isLt <| And.intro sz.isLt <| And.intro ord.isLt <| And.intro la.isLt <| And.intro aop.isLt <| And.intro sp.isLt z.isLt
  generalize maj.toNat = x0, d.toNat = x1, a.toNat = x2, sz.toNat = x3, ord.toNat = x4, la.toNat = x5, aop.toNat = x6, sp.toNat = x7, z.toNat = x8 at h ⊢
  omega

@[simp] theorem laA_wordLA (maj : BitVec 7) (d : BitVec 7) (a : BitVec 4) (sz : BitVec 1) (ord : BitVec 2) (la : BitVec 4) (aop : BitVec 4) (sp : BitVec 2) (z : BitVec 1) :
    laA (wordLA maj d a sz ord la aop sp z) = a := by
  refine field_ofNat _ _ _ (by decide) ?_
  have h := And.intro maj.isLt <| And.intro d.isLt <| And.intro a.isLt <| And.intro sz.isLt <| And.intro ord.isLt <| And.intro la.isLt <| And.intro aop.isLt <| And.intro sp.isLt z.isLt
  generalize maj.toNat = x0, d.toNat = x1, a.toNat = x2, sz.toNat = x3, ord.toNat = x4, la.toNat = x5, aop.toNat = x6, sp.toNat = x7, z.toNat = x8 at h ⊢
  omega

@[simp] theorem laSz_wordLA (maj : BitVec 7) (d : BitVec 7) (a : BitVec 4) (sz : BitVec 1) (ord : BitVec 2) (la : BitVec 4) (aop : BitVec 4) (sp : BitVec 2) (z : BitVec 1) :
    laSz (wordLA maj d a sz ord la aop sp z) = sz := by
  refine field_ofNat _ _ _ (by decide) ?_
  have h := And.intro maj.isLt <| And.intro d.isLt <| And.intro a.isLt <| And.intro sz.isLt <| And.intro ord.isLt <| And.intro la.isLt <| And.intro aop.isLt <| And.intro sp.isLt z.isLt
  generalize maj.toNat = x0, d.toNat = x1, a.toNat = x2, sz.toNat = x3, ord.toNat = x4, la.toNat = x5, aop.toNat = x6, sp.toNat = x7, z.toNat = x8 at h ⊢
  omega

@[simp] theorem laOrd_wordLA (maj : BitVec 7) (d : BitVec 7) (a : BitVec 4) (sz : BitVec 1) (ord : BitVec 2) (la : BitVec 4) (aop : BitVec 4) (sp : BitVec 2) (z : BitVec 1) :
    laOrd (wordLA maj d a sz ord la aop sp z) = ord := by
  refine field_ofNat _ _ _ (by decide) ?_
  have h := And.intro maj.isLt <| And.intro d.isLt <| And.intro a.isLt <| And.intro sz.isLt <| And.intro ord.isLt <| And.intro la.isLt <| And.intro aop.isLt <| And.intro sp.isLt z.isLt
  generalize maj.toNat = x0, d.toNat = x1, a.toNat = x2, sz.toNat = x3, ord.toNat = x4, la.toNat = x5, aop.toNat = x6, sp.toNat = x7, z.toNat = x8 at h ⊢
  omega

@[simp] theorem laLa_wordLA (maj : BitVec 7) (d : BitVec 7) (a : BitVec 4) (sz : BitVec 1) (ord : BitVec 2) (la : BitVec 4) (aop : BitVec 4) (sp : BitVec 2) (z : BitVec 1) :
    laLa (wordLA maj d a sz ord la aop sp z) = la := by
  refine field_ofNat _ _ _ (by decide) ?_
  have h := And.intro maj.isLt <| And.intro d.isLt <| And.intro a.isLt <| And.intro sz.isLt <| And.intro ord.isLt <| And.intro la.isLt <| And.intro aop.isLt <| And.intro sp.isLt z.isLt
  generalize maj.toNat = x0, d.toNat = x1, a.toNat = x2, sz.toNat = x3, ord.toNat = x4, la.toNat = x5, aop.toNat = x6, sp.toNat = x7, z.toNat = x8 at h ⊢
  omega

@[simp] theorem laAop_wordLA (maj : BitVec 7) (d : BitVec 7) (a : BitVec 4) (sz : BitVec 1) (ord : BitVec 2) (la : BitVec 4) (aop : BitVec 4) (sp : BitVec 2) (z : BitVec 1) :
    laAop (wordLA maj d a sz ord la aop sp z) = aop := by
  refine field_ofNat _ _ _ (by decide) ?_
  have h := And.intro maj.isLt <| And.intro d.isLt <| And.intro a.isLt <| And.intro sz.isLt <| And.intro ord.isLt <| And.intro la.isLt <| And.intro aop.isLt <| And.intro sp.isLt z.isLt
  generalize maj.toNat = x0, d.toNat = x1, a.toNat = x2, sz.toNat = x3, ord.toNat = x4, la.toNat = x5, aop.toNat = x6, sp.toNat = x7, z.toNat = x8 at h ⊢
  omega

@[simp] theorem laSp_wordLA (maj : BitVec 7) (d : BitVec 7) (a : BitVec 4) (sz : BitVec 1) (ord : BitVec 2) (la : BitVec 4) (aop : BitVec 4) (sp : BitVec 2) (z : BitVec 1) :
    laSp (wordLA maj d a sz ord la aop sp z) = sp := by
  refine field_ofNat _ _ _ (by decide) ?_
  have h := And.intro maj.isLt <| And.intro d.isLt <| And.intro a.isLt <| And.intro sz.isLt <| And.intro ord.isLt <| And.intro la.isLt <| And.intro aop.isLt <| And.intro sp.isLt z.isLt
  generalize maj.toNat = x0, d.toNat = x1, a.toNat = x2, sz.toNat = x3, ord.toNat = x4, la.toNat = x5, aop.toNat = x6, sp.toNat = x7, z.toNat = x8 at h ⊢
  omega

@[simp] theorem laZ_wordLA (maj : BitVec 7) (d : BitVec 7) (a : BitVec 4) (sz : BitVec 1) (ord : BitVec 2) (la : BitVec 4) (aop : BitVec 4) (sp : BitVec 2) (z : BitVec 1) :
    laZ (wordLA maj d a sz ord la aop sp z) = z := by
  refine field_ofNat _ _ _ (by decide) ?_
  have h := And.intro maj.isLt <| And.intro d.isLt <| And.intro a.isLt <| And.intro sz.isLt <| And.intro ord.isLt <| And.intro la.isLt <| And.intro aop.isLt <| And.intro sp.isLt z.isLt
  generalize maj.toNat = x0, d.toNat = x1, a.toNat = x2, sz.toNat = x3, ord.toNat = x4, la.toNat = x5, aop.toNat = x6, sp.toNat = x7, z.toNat = x8 at h ⊢
  omega

@[simp] theorem majorOf_wordLB (maj : BitVec 7) (cond : BitVec 4) (off : BitVec 21) :
    majorOf (wordLB maj cond off) = maj := by
  refine field_ofNat _ _ _ (by decide) ?_
  have h := And.intro maj.isLt <| And.intro cond.isLt off.isLt
  generalize maj.toNat = x0, cond.toNat = x1, off.toNat = x2 at h ⊢
  omega

@[simp] theorem lbCond_wordLB (maj : BitVec 7) (cond : BitVec 4) (off : BitVec 21) :
    lbCond (wordLB maj cond off) = cond := by
  refine field_ofNat _ _ _ (by decide) ?_
  have h := And.intro maj.isLt <| And.intro cond.isLt off.isLt
  generalize maj.toNat = x0, cond.toNat = x1, off.toNat = x2 at h ⊢
  omega

@[simp] theorem lbOff_wordLB (maj : BitVec 7) (cond : BitVec 4) (off : BitVec 21) :
    lbOff (wordLB maj cond off) = off := by
  refine field_ofNat _ _ _ (by decide) ?_
  have h := And.intro maj.isLt <| And.intro cond.isLt off.isLt
  generalize maj.toNat = x0, cond.toNat = x1, off.toNat = x2 at h ⊢
  omega

@[simp] theorem majorOf_wordLX (maj : BitVec 7) (a : BitVec 7) (b : BitVec 7) (la : BitVec 4) (c : BitVec 7) :
    majorOf (wordLX maj a b la c) = maj := by
  refine field_ofNat _ _ _ (by decide) ?_
  have h := And.intro maj.isLt <| And.intro a.isLt <| And.intro b.isLt <| And.intro la.isLt c.isLt
  generalize maj.toNat = x0, a.toNat = x1, b.toNat = x2, la.toNat = x3, c.toNat = x4 at h ⊢
  omega

@[simp] theorem lxA_wordLX (maj : BitVec 7) (a : BitVec 7) (b : BitVec 7) (la : BitVec 4) (c : BitVec 7) :
    lxA (wordLX maj a b la c) = a := by
  refine field_ofNat _ _ _ (by decide) ?_
  have h := And.intro maj.isLt <| And.intro a.isLt <| And.intro b.isLt <| And.intro la.isLt c.isLt
  generalize maj.toNat = x0, a.toNat = x1, b.toNat = x2, la.toNat = x3, c.toNat = x4 at h ⊢
  omega

@[simp] theorem lxB_wordLX (maj : BitVec 7) (a : BitVec 7) (b : BitVec 7) (la : BitVec 4) (c : BitVec 7) :
    lxB (wordLX maj a b la c) = b := by
  refine field_ofNat _ _ _ (by decide) ?_
  have h := And.intro maj.isLt <| And.intro a.isLt <| And.intro b.isLt <| And.intro la.isLt c.isLt
  generalize maj.toNat = x0, a.toNat = x1, b.toNat = x2, la.toNat = x3, c.toNat = x4 at h ⊢
  omega

@[simp] theorem lxLa_wordLX (maj : BitVec 7) (a : BitVec 7) (b : BitVec 7) (la : BitVec 4) (c : BitVec 7) :
    lxLa (wordLX maj a b la c) = la := by
  refine field_ofNat _ _ _ (by decide) ?_
  have h := And.intro maj.isLt <| And.intro a.isLt <| And.intro b.isLt <| And.intro la.isLt c.isLt
  generalize maj.toNat = x0, a.toNat = x1, b.toNat = x2, la.toNat = x3, c.toNat = x4 at h ⊢
  omega

@[simp] theorem lxC_wordLX (maj : BitVec 7) (a : BitVec 7) (b : BitVec 7) (la : BitVec 4) (c : BitVec 7) :
    lxC (wordLX maj a b la c) = c := by
  refine field_ofNat _ _ _ (by decide) ?_
  have h := And.intro maj.isLt <| And.intro a.isLt <| And.intro b.isLt <| And.intro la.isLt c.isLt
  generalize maj.toNat = x0, a.toNat = x1, b.toNat = x2, la.toNat = x3, c.toNat = x4 at h ⊢
  omega

@[simp] theorem majorOf_wordMX (maj : BitVec 7) (a : BitVec 7) (acc : BitVec 3) (ob : BitVec 4) (la : BitVec 4) (tb : BitVec 4) (keep : BitVec 1) (sub : BitVec 2) :
    majorOf (wordMX maj a acc ob la tb keep sub) = maj := by
  refine field_ofNat _ _ _ (by decide) ?_
  have h := And.intro maj.isLt <| And.intro a.isLt <| And.intro acc.isLt <| And.intro ob.isLt <| And.intro la.isLt <| And.intro tb.isLt <| And.intro keep.isLt sub.isLt
  generalize maj.toNat = x0, a.toNat = x1, acc.toNat = x2, ob.toNat = x3, la.toNat = x4, tb.toNat = x5, keep.toNat = x6, sub.toNat = x7 at h ⊢
  omega

@[simp] theorem mxA_wordMX (maj : BitVec 7) (a : BitVec 7) (acc : BitVec 3) (ob : BitVec 4) (la : BitVec 4) (tb : BitVec 4) (keep : BitVec 1) (sub : BitVec 2) :
    mxA (wordMX maj a acc ob la tb keep sub) = a := by
  refine field_ofNat _ _ _ (by decide) ?_
  have h := And.intro maj.isLt <| And.intro a.isLt <| And.intro acc.isLt <| And.intro ob.isLt <| And.intro la.isLt <| And.intro tb.isLt <| And.intro keep.isLt sub.isLt
  generalize maj.toNat = x0, a.toNat = x1, acc.toNat = x2, ob.toNat = x3, la.toNat = x4, tb.toNat = x5, keep.toNat = x6, sub.toNat = x7 at h ⊢
  omega

@[simp] theorem mxAcc_wordMX (maj : BitVec 7) (a : BitVec 7) (acc : BitVec 3) (ob : BitVec 4) (la : BitVec 4) (tb : BitVec 4) (keep : BitVec 1) (sub : BitVec 2) :
    mxAcc (wordMX maj a acc ob la tb keep sub) = acc := by
  refine field_ofNat _ _ _ (by decide) ?_
  have h := And.intro maj.isLt <| And.intro a.isLt <| And.intro acc.isLt <| And.intro ob.isLt <| And.intro la.isLt <| And.intro tb.isLt <| And.intro keep.isLt sub.isLt
  generalize maj.toNat = x0, a.toNat = x1, acc.toNat = x2, ob.toNat = x3, la.toNat = x4, tb.toNat = x5, keep.toNat = x6, sub.toNat = x7 at h ⊢
  omega

@[simp] theorem mxOb_wordMX (maj : BitVec 7) (a : BitVec 7) (acc : BitVec 3) (ob : BitVec 4) (la : BitVec 4) (tb : BitVec 4) (keep : BitVec 1) (sub : BitVec 2) :
    mxOb (wordMX maj a acc ob la tb keep sub) = ob := by
  refine field_ofNat _ _ _ (by decide) ?_
  have h := And.intro maj.isLt <| And.intro a.isLt <| And.intro acc.isLt <| And.intro ob.isLt <| And.intro la.isLt <| And.intro tb.isLt <| And.intro keep.isLt sub.isLt
  generalize maj.toNat = x0, a.toNat = x1, acc.toNat = x2, ob.toNat = x3, la.toNat = x4, tb.toNat = x5, keep.toNat = x6, sub.toNat = x7 at h ⊢
  omega

@[simp] theorem mxLa_wordMX (maj : BitVec 7) (a : BitVec 7) (acc : BitVec 3) (ob : BitVec 4) (la : BitVec 4) (tb : BitVec 4) (keep : BitVec 1) (sub : BitVec 2) :
    mxLa (wordMX maj a acc ob la tb keep sub) = la := by
  refine field_ofNat _ _ _ (by decide) ?_
  have h := And.intro maj.isLt <| And.intro a.isLt <| And.intro acc.isLt <| And.intro ob.isLt <| And.intro la.isLt <| And.intro tb.isLt <| And.intro keep.isLt sub.isLt
  generalize maj.toNat = x0, a.toNat = x1, acc.toNat = x2, ob.toNat = x3, la.toNat = x4, tb.toNat = x5, keep.toNat = x6, sub.toNat = x7 at h ⊢
  omega

@[simp] theorem mxTb_wordMX (maj : BitVec 7) (a : BitVec 7) (acc : BitVec 3) (ob : BitVec 4) (la : BitVec 4) (tb : BitVec 4) (keep : BitVec 1) (sub : BitVec 2) :
    mxTb (wordMX maj a acc ob la tb keep sub) = tb := by
  refine field_ofNat _ _ _ (by decide) ?_
  have h := And.intro maj.isLt <| And.intro a.isLt <| And.intro acc.isLt <| And.intro ob.isLt <| And.intro la.isLt <| And.intro tb.isLt <| And.intro keep.isLt sub.isLt
  generalize maj.toNat = x0, a.toNat = x1, acc.toNat = x2, ob.toNat = x3, la.toNat = x4, tb.toNat = x5, keep.toNat = x6, sub.toNat = x7 at h ⊢
  omega

@[simp] theorem mxKeep_wordMX (maj : BitVec 7) (a : BitVec 7) (acc : BitVec 3) (ob : BitVec 4) (la : BitVec 4) (tb : BitVec 4) (keep : BitVec 1) (sub : BitVec 2) :
    mxKeep (wordMX maj a acc ob la tb keep sub) = keep := by
  refine field_ofNat _ _ _ (by decide) ?_
  have h := And.intro maj.isLt <| And.intro a.isLt <| And.intro acc.isLt <| And.intro ob.isLt <| And.intro la.isLt <| And.intro tb.isLt <| And.intro keep.isLt sub.isLt
  generalize maj.toNat = x0, a.toNat = x1, acc.toNat = x2, ob.toNat = x3, la.toNat = x4, tb.toNat = x5, keep.toNat = x6, sub.toNat = x7 at h ⊢
  omega

@[simp] theorem mxSub_wordMX (maj : BitVec 7) (a : BitVec 7) (acc : BitVec 3) (ob : BitVec 4) (la : BitVec 4) (tb : BitVec 4) (keep : BitVec 1) (sub : BitVec 2) :
    mxSub (wordMX maj a acc ob la tb keep sub) = sub := by
  refine field_ofNat _ _ _ (by decide) ?_
  have h := And.intro maj.isLt <| And.intro a.isLt <| And.intro acc.isLt <| And.intro ob.isLt <| And.intro la.isLt <| And.intro tb.isLt <| And.intro keep.isLt sub.isLt
  generalize maj.toNat = x0, a.toNat = x1, acc.toNat = x2, ob.toNat = x3, la.toNat = x4, tb.toNat = x5, keep.toNat = x6, sub.toNat = x7 at h ⊢
  omega

@[simp] theorem majorOf_wordPX (maj : BitVec 7) (pred : BitVec 3) (mz : BitVec 1) (rnd : BitVec 3) (vc : BitVec 7) (neg : BitVec 1) (z : BitVec 10) :
    majorOf (wordPX maj pred mz rnd vc neg z) = maj := by
  refine field_ofNat _ _ _ (by decide) ?_
  have h := And.intro maj.isLt <| And.intro pred.isLt <| And.intro mz.isLt <| And.intro rnd.isLt <| And.intro vc.isLt <| And.intro neg.isLt z.isLt
  generalize maj.toNat = x0, pred.toNat = x1, mz.toNat = x2, rnd.toNat = x3, vc.toNat = x4, neg.toNat = x5, z.toNat = x6 at h ⊢
  omega

@[simp] theorem pxPred_wordPX (maj : BitVec 7) (pred : BitVec 3) (mz : BitVec 1) (rnd : BitVec 3) (vc : BitVec 7) (neg : BitVec 1) (z : BitVec 10) :
    pxPred (wordPX maj pred mz rnd vc neg z) = pred := by
  refine field_ofNat _ _ _ (by decide) ?_
  have h := And.intro maj.isLt <| And.intro pred.isLt <| And.intro mz.isLt <| And.intro rnd.isLt <| And.intro vc.isLt <| And.intro neg.isLt z.isLt
  generalize maj.toNat = x0, pred.toNat = x1, mz.toNat = x2, rnd.toNat = x3, vc.toNat = x4, neg.toNat = x5, z.toNat = x6 at h ⊢
  omega

@[simp] theorem pxMz_wordPX (maj : BitVec 7) (pred : BitVec 3) (mz : BitVec 1) (rnd : BitVec 3) (vc : BitVec 7) (neg : BitVec 1) (z : BitVec 10) :
    pxMz (wordPX maj pred mz rnd vc neg z) = mz := by
  refine field_ofNat _ _ _ (by decide) ?_
  have h := And.intro maj.isLt <| And.intro pred.isLt <| And.intro mz.isLt <| And.intro rnd.isLt <| And.intro vc.isLt <| And.intro neg.isLt z.isLt
  generalize maj.toNat = x0, pred.toNat = x1, mz.toNat = x2, rnd.toNat = x3, vc.toNat = x4, neg.toNat = x5, z.toNat = x6 at h ⊢
  omega

@[simp] theorem pxRnd_wordPX (maj : BitVec 7) (pred : BitVec 3) (mz : BitVec 1) (rnd : BitVec 3) (vc : BitVec 7) (neg : BitVec 1) (z : BitVec 10) :
    pxRnd (wordPX maj pred mz rnd vc neg z) = rnd := by
  refine field_ofNat _ _ _ (by decide) ?_
  have h := And.intro maj.isLt <| And.intro pred.isLt <| And.intro mz.isLt <| And.intro rnd.isLt <| And.intro vc.isLt <| And.intro neg.isLt z.isLt
  generalize maj.toNat = x0, pred.toNat = x1, mz.toNat = x2, rnd.toNat = x3, vc.toNat = x4, neg.toNat = x5, z.toNat = x6 at h ⊢
  omega

@[simp] theorem pxVc_wordPX (maj : BitVec 7) (pred : BitVec 3) (mz : BitVec 1) (rnd : BitVec 3) (vc : BitVec 7) (neg : BitVec 1) (z : BitVec 10) :
    pxVc (wordPX maj pred mz rnd vc neg z) = vc := by
  refine field_ofNat _ _ _ (by decide) ?_
  have h := And.intro maj.isLt <| And.intro pred.isLt <| And.intro mz.isLt <| And.intro rnd.isLt <| And.intro vc.isLt <| And.intro neg.isLt z.isLt
  generalize maj.toNat = x0, pred.toNat = x1, mz.toNat = x2, rnd.toNat = x3, vc.toNat = x4, neg.toNat = x5, z.toNat = x6 at h ⊢
  omega

@[simp] theorem pxNeg_wordPX (maj : BitVec 7) (pred : BitVec 3) (mz : BitVec 1) (rnd : BitVec 3) (vc : BitVec 7) (neg : BitVec 1) (z : BitVec 10) :
    pxNeg (wordPX maj pred mz rnd vc neg z) = neg := by
  refine field_ofNat _ _ _ (by decide) ?_
  have h := And.intro maj.isLt <| And.intro pred.isLt <| And.intro mz.isLt <| And.intro rnd.isLt <| And.intro vc.isLt <| And.intro neg.isLt z.isLt
  generalize maj.toNat = x0, pred.toNat = x1, mz.toNat = x2, rnd.toNat = x3, vc.toNat = x4, neg.toNat = x5, z.toNat = x6 at h ⊢
  omega

@[simp] theorem pxZ_wordPX (maj : BitVec 7) (pred : BitVec 3) (mz : BitVec 1) (rnd : BitVec 3) (vc : BitVec 7) (neg : BitVec 1) (z : BitVec 10) :
    pxZ (wordPX maj pred mz rnd vc neg z) = z := by
  refine field_ofNat _ _ _ (by decide) ?_
  have h := And.intro maj.isLt <| And.intro pred.isLt <| And.intro mz.isLt <| And.intro rnd.isLt <| And.intro vc.isLt <| And.intro neg.isLt z.isLt
  generalize maj.toNat = x0, pred.toNat = x1, mz.toNat = x2, rnd.toNat = x3, vc.toNat = x4, neg.toNat = x5, z.toNat = x6 at h ⊢
  omega

@[simp] theorem majorOf_wordGR (maj : BitVec 7) (d : BitVec 6) (a : BitVec 6) (b : BitVec 6) (fn : BitVec 6) (z : BitVec 1) :
    majorOf (wordGR maj d a b fn z) = maj := by
  refine field_ofNat _ _ _ (by decide) ?_
  have h := And.intro maj.isLt <| And.intro d.isLt <| And.intro a.isLt <| And.intro b.isLt <| And.intro fn.isLt z.isLt
  generalize maj.toNat = x0, d.toNat = x1, a.toNat = x2, b.toNat = x3, fn.toNat = x4, z.toNat = x5 at h ⊢
  omega

@[simp] theorem grD_wordGR (maj : BitVec 7) (d : BitVec 6) (a : BitVec 6) (b : BitVec 6) (fn : BitVec 6) (z : BitVec 1) :
    grD (wordGR maj d a b fn z) = d := by
  refine field_ofNat _ _ _ (by decide) ?_
  have h := And.intro maj.isLt <| And.intro d.isLt <| And.intro a.isLt <| And.intro b.isLt <| And.intro fn.isLt z.isLt
  generalize maj.toNat = x0, d.toNat = x1, a.toNat = x2, b.toNat = x3, fn.toNat = x4, z.toNat = x5 at h ⊢
  omega

@[simp] theorem grA_wordGR (maj : BitVec 7) (d : BitVec 6) (a : BitVec 6) (b : BitVec 6) (fn : BitVec 6) (z : BitVec 1) :
    grA (wordGR maj d a b fn z) = a := by
  refine field_ofNat _ _ _ (by decide) ?_
  have h := And.intro maj.isLt <| And.intro d.isLt <| And.intro a.isLt <| And.intro b.isLt <| And.intro fn.isLt z.isLt
  generalize maj.toNat = x0, d.toNat = x1, a.toNat = x2, b.toNat = x3, fn.toNat = x4, z.toNat = x5 at h ⊢
  omega

@[simp] theorem grB_wordGR (maj : BitVec 7) (d : BitVec 6) (a : BitVec 6) (b : BitVec 6) (fn : BitVec 6) (z : BitVec 1) :
    grB (wordGR maj d a b fn z) = b := by
  refine field_ofNat _ _ _ (by decide) ?_
  have h := And.intro maj.isLt <| And.intro d.isLt <| And.intro a.isLt <| And.intro b.isLt <| And.intro fn.isLt z.isLt
  generalize maj.toNat = x0, d.toNat = x1, a.toNat = x2, b.toNat = x3, fn.toNat = x4, z.toNat = x5 at h ⊢
  omega

@[simp] theorem grFn_wordGR (maj : BitVec 7) (d : BitVec 6) (a : BitVec 6) (b : BitVec 6) (fn : BitVec 6) (z : BitVec 1) :
    grFn (wordGR maj d a b fn z) = fn := by
  refine field_ofNat _ _ _ (by decide) ?_
  have h := And.intro maj.isLt <| And.intro d.isLt <| And.intro a.isLt <| And.intro b.isLt <| And.intro fn.isLt z.isLt
  generalize maj.toNat = x0, d.toNat = x1, a.toNat = x2, b.toNat = x3, fn.toNat = x4, z.toNat = x5 at h ⊢
  omega

@[simp] theorem grZ_wordGR (maj : BitVec 7) (d : BitVec 6) (a : BitVec 6) (b : BitVec 6) (fn : BitVec 6) (z : BitVec 1) :
    grZ (wordGR maj d a b fn z) = z := by
  refine field_ofNat _ _ _ (by decide) ?_
  have h := And.intro maj.isLt <| And.intro d.isLt <| And.intro a.isLt <| And.intro b.isLt <| And.intro fn.isLt z.isLt
  generalize maj.toNat = x0, d.toNat = x1, a.toNat = x2, b.toNat = x3, fn.toNat = x4, z.toNat = x5 at h ⊢
  omega

@[simp] theorem majorOf_wordGI (maj : BitVec 7) (d : BitVec 6) (fn : BitVec 3) (imm : BitVec 16) :
    majorOf (wordGI maj d fn imm) = maj := by
  refine field_ofNat _ _ _ (by decide) ?_
  have h := And.intro maj.isLt <| And.intro d.isLt <| And.intro fn.isLt imm.isLt
  generalize maj.toNat = x0, d.toNat = x1, fn.toNat = x2, imm.toNat = x3 at h ⊢
  omega

@[simp] theorem giD_wordGI (maj : BitVec 7) (d : BitVec 6) (fn : BitVec 3) (imm : BitVec 16) :
    giD (wordGI maj d fn imm) = d := by
  refine field_ofNat _ _ _ (by decide) ?_
  have h := And.intro maj.isLt <| And.intro d.isLt <| And.intro fn.isLt imm.isLt
  generalize maj.toNat = x0, d.toNat = x1, fn.toNat = x2, imm.toNat = x3 at h ⊢
  omega

@[simp] theorem giFn_wordGI (maj : BitVec 7) (d : BitVec 6) (fn : BitVec 3) (imm : BitVec 16) :
    giFn (wordGI maj d fn imm) = fn := by
  refine field_ofNat _ _ _ (by decide) ?_
  have h := And.intro maj.isLt <| And.intro d.isLt <| And.intro fn.isLt imm.isLt
  generalize maj.toNat = x0, d.toNat = x1, fn.toNat = x2, imm.toNat = x3 at h ⊢
  omega

@[simp] theorem giImm_wordGI (maj : BitVec 7) (d : BitVec 6) (fn : BitVec 3) (imm : BitVec 16) :
    giImm (wordGI maj d fn imm) = imm := by
  refine field_ofNat _ _ _ (by decide) ?_
  have h := And.intro maj.isLt <| And.intro d.isLt <| And.intro fn.isLt imm.isLt
  generalize maj.toNat = x0, d.toNat = x1, fn.toNat = x2, imm.toNat = x3 at h ⊢
  omega

@[simp] theorem majorOf_wordGM (maj : BitVec 7) (d : BitVec 6) (a : BitVec 6) (sz : BitVec 2) (la : BitVec 4) (off : BitVec 7) :
    majorOf (wordGM maj d a sz la off) = maj := by
  refine field_ofNat _ _ _ (by decide) ?_
  have h := And.intro maj.isLt <| And.intro d.isLt <| And.intro a.isLt <| And.intro sz.isLt <| And.intro la.isLt off.isLt
  generalize maj.toNat = x0, d.toNat = x1, a.toNat = x2, sz.toNat = x3, la.toNat = x4, off.toNat = x5 at h ⊢
  omega

@[simp] theorem gmD_wordGM (maj : BitVec 7) (d : BitVec 6) (a : BitVec 6) (sz : BitVec 2) (la : BitVec 4) (off : BitVec 7) :
    gmD (wordGM maj d a sz la off) = d := by
  refine field_ofNat _ _ _ (by decide) ?_
  have h := And.intro maj.isLt <| And.intro d.isLt <| And.intro a.isLt <| And.intro sz.isLt <| And.intro la.isLt off.isLt
  generalize maj.toNat = x0, d.toNat = x1, a.toNat = x2, sz.toNat = x3, la.toNat = x4, off.toNat = x5 at h ⊢
  omega

@[simp] theorem gmA_wordGM (maj : BitVec 7) (d : BitVec 6) (a : BitVec 6) (sz : BitVec 2) (la : BitVec 4) (off : BitVec 7) :
    gmA (wordGM maj d a sz la off) = a := by
  refine field_ofNat _ _ _ (by decide) ?_
  have h := And.intro maj.isLt <| And.intro d.isLt <| And.intro a.isLt <| And.intro sz.isLt <| And.intro la.isLt off.isLt
  generalize maj.toNat = x0, d.toNat = x1, a.toNat = x2, sz.toNat = x3, la.toNat = x4, off.toNat = x5 at h ⊢
  omega

@[simp] theorem gmSz_wordGM (maj : BitVec 7) (d : BitVec 6) (a : BitVec 6) (sz : BitVec 2) (la : BitVec 4) (off : BitVec 7) :
    gmSz (wordGM maj d a sz la off) = sz := by
  refine field_ofNat _ _ _ (by decide) ?_
  have h := And.intro maj.isLt <| And.intro d.isLt <| And.intro a.isLt <| And.intro sz.isLt <| And.intro la.isLt off.isLt
  generalize maj.toNat = x0, d.toNat = x1, a.toNat = x2, sz.toNat = x3, la.toNat = x4, off.toNat = x5 at h ⊢
  omega

@[simp] theorem gmLa_wordGM (maj : BitVec 7) (d : BitVec 6) (a : BitVec 6) (sz : BitVec 2) (la : BitVec 4) (off : BitVec 7) :
    gmLa (wordGM maj d a sz la off) = la := by
  refine field_ofNat _ _ _ (by decide) ?_
  have h := And.intro maj.isLt <| And.intro d.isLt <| And.intro a.isLt <| And.intro sz.isLt <| And.intro la.isLt off.isLt
  generalize maj.toNat = x0, d.toNat = x1, a.toNat = x2, sz.toNat = x3, la.toNat = x4, off.toNat = x5 at h ⊢
  omega

@[simp] theorem gmOff_wordGM (maj : BitVec 7) (d : BitVec 6) (a : BitVec 6) (sz : BitVec 2) (la : BitVec 4) (off : BitVec 7) :
    gmOff (wordGM maj d a sz la off) = off := by
  refine field_ofNat _ _ _ (by decide) ?_
  have h := And.intro maj.isLt <| And.intro d.isLt <| And.intro a.isLt <| And.intro sz.isLt <| And.intro la.isLt off.isLt
  generalize maj.toNat = x0, d.toNat = x1, a.toNat = x2, sz.toNat = x3, la.toNat = x4, off.toNat = x5 at h ⊢
  omega

@[simp] theorem majorOf_wordGB (maj : BitVec 7) (cond : BitVec 3) (a : BitVec 6) (off : BitVec 16) :
    majorOf (wordGB maj cond a off) = maj := by
  refine field_ofNat _ _ _ (by decide) ?_
  have h := And.intro maj.isLt <| And.intro cond.isLt <| And.intro a.isLt off.isLt
  generalize maj.toNat = x0, cond.toNat = x1, a.toNat = x2, off.toNat = x3 at h ⊢
  omega

@[simp] theorem gbCond_wordGB (maj : BitVec 7) (cond : BitVec 3) (a : BitVec 6) (off : BitVec 16) :
    gbCond (wordGB maj cond a off) = cond := by
  refine field_ofNat _ _ _ (by decide) ?_
  have h := And.intro maj.isLt <| And.intro cond.isLt <| And.intro a.isLt off.isLt
  generalize maj.toNat = x0, cond.toNat = x1, a.toNat = x2, off.toNat = x3 at h ⊢
  omega

@[simp] theorem gbA_wordGB (maj : BitVec 7) (cond : BitVec 3) (a : BitVec 6) (off : BitVec 16) :
    gbA (wordGB maj cond a off) = a := by
  refine field_ofNat _ _ _ (by decide) ?_
  have h := And.intro maj.isLt <| And.intro cond.isLt <| And.intro a.isLt off.isLt
  generalize maj.toNat = x0, cond.toNat = x1, a.toNat = x2, off.toNat = x3 at h ⊢
  omega

@[simp] theorem gbOff_wordGB (maj : BitVec 7) (cond : BitVec 3) (a : BitVec 6) (off : BitVec 16) :
    gbOff (wordGB maj cond a off) = off := by
  refine field_ofNat _ _ _ (by decide) ?_
  have h := And.intro maj.isLt <| And.intro cond.isLt <| And.intro a.isLt off.isLt
  generalize maj.toNat = x0, cond.toNat = x1, a.toNat = x2, off.toNat = x3 at h ⊢
  omega

/-! ## The parts of a field -/

theorem low_append {m n : Nat} (x : BitVec m) (y : BitVec n) : (x ++ y).extractLsb' 0 n = y := by
  apply BitVec.eq_of_getLsbD_eq
  intro i h
  rw [BitVec.getLsbD_extractLsb', BitVec.getLsbD_append]
  simp [h]

theorem high_append {m n : Nat} (x : BitVec m) (y : BitVec n) : (x ++ y).extractLsb' n m = x := by
  apply BitVec.eq_of_getLsbD_eq
  intro i h
  rw [BitVec.getLsbD_extractLsb', BitVec.getLsbD_append]
  simp [h]

theorem mid_append {l m n : Nat} (x : BitVec l) (y : BitVec m) (z : BitVec n) :
    (x ++ y ++ z).extractLsb' n m = y := by
  apply BitVec.eq_of_getLsbD_eq
  intro i h
  rw [BitVec.getLsbD_extractLsb', BitVec.getLsbD_append, BitVec.getLsbD_append]
  simp [h]

theorem top_append {l m n : Nat} (x : BitVec l) (y : BitVec m) (z : BitVec n) :
    (x ++ y ++ z).extractLsb' (n + m) l = x := by
  apply BitVec.eq_of_getLsbD_eq
  intro i h
  rw [BitVec.getLsbD_extractLsb', BitVec.getLsbD_append, BitVec.getLsbD_append]
  simp [h, show ¬ n + m + i < n by omega, show n + m + i - n = m + i by omega]

@[simp] theorem low_4_3 (x : BitVec 4) (y : BitVec 3) : BitVec.extractLsb' (n := 7) 0 3 (x ++ y) = y :=
  low_append x y
@[simp] theorem high_4_3 (x : BitVec 4) (y : BitVec 3) : BitVec.extractLsb' (n := 7) 3 4 (x ++ y) = x :=
  high_append x y
@[simp] theorem low_5_2 (x : BitVec 5) (y : BitVec 2) : BitVec.extractLsb' (n := 7) 0 2 (x ++ y) = y :=
  low_append x y
@[simp] theorem high_5_2 (x : BitVec 5) (y : BitVec 2) : BitVec.extractLsb' (n := 7) 2 5 (x ++ y) = x :=
  high_append x y
@[simp] theorem low_3_4 (x : BitVec 3) (y : BitVec 4) : BitVec.extractLsb' (n := 7) 0 4 (x ++ y) = y :=
  low_append x y
@[simp] theorem high_3_4 (x : BitVec 3) (y : BitVec 4) : BitVec.extractLsb' (n := 7) 4 3 (x ++ y) = x :=
  high_append x y
@[simp] theorem low_6_1 (x : BitVec 6) (y : BitVec 1) : BitVec.extractLsb' (n := 7) 0 1 (x ++ y) = y :=
  low_append x y
@[simp] theorem high_6_1 (x : BitVec 6) (y : BitVec 1) : BitVec.extractLsb' (n := 7) 1 6 (x ++ y) = x :=
  high_append x y
@[simp] theorem low_2_5 (x : BitVec 2) (y : BitVec 5) : BitVec.extractLsb' (n := 7) 0 5 (x ++ y) = y :=
  low_append x y
@[simp] theorem high_2_5 (x : BitVec 2) (y : BitVec 5) : BitVec.extractLsb' (n := 7) 5 2 (x ++ y) = x :=
  high_append x y
@[simp] theorem low_1_2 (x : BitVec 1) (y : BitVec 2) : BitVec.extractLsb' (n := 3) 0 2 (x ++ y) = y :=
  low_append x y
@[simp] theorem high_1_2 (x : BitVec 1) (y : BitVec 2) : BitVec.extractLsb' (n := 3) 2 1 (x ++ y) = x :=
  high_append x y
@[simp] theorem low_2_1_4 (x : BitVec 2) (y : BitVec 1) (z : BitVec 4) :
    BitVec.extractLsb' (n := 7) 0 4 (x ++ y ++ z) = z :=
  low_append (x ++ y) z
@[simp] theorem mid_2_1_4 (x : BitVec 2) (y : BitVec 1) (z : BitVec 4) :
    BitVec.extractLsb' (n := 7) 4 1 (x ++ y ++ z) = y :=
  mid_append x y z
@[simp] theorem high_2_1_4 (x : BitVec 2) (y : BitVec 1) (z : BitVec 4) :
    BitVec.extractLsb' (n := 7) 5 2 (x ++ y ++ z) = x :=
  top_append x y z
@[simp] theorem low_1_3_3 (x : BitVec 1) (y : BitVec 3) (z : BitVec 3) :
    BitVec.extractLsb' (n := 7) 0 3 (x ++ y ++ z) = z :=
  low_append (x ++ y) z
@[simp] theorem mid_1_3_3 (x : BitVec 1) (y : BitVec 3) (z : BitVec 3) :
    BitVec.extractLsb' (n := 7) 3 3 (x ++ y ++ z) = y :=
  mid_append x y z
@[simp] theorem high_1_3_3 (x : BitVec 1) (y : BitVec 3) (z : BitVec 3) :
    BitVec.extractLsb' (n := 7) 6 1 (x ++ y ++ z) = x :=
  top_append x y z
@[simp] theorem low_2_3_2 (x : BitVec 2) (y : BitVec 3) (z : BitVec 2) :
    BitVec.extractLsb' (n := 7) 0 2 (x ++ y ++ z) = z :=
  low_append (x ++ y) z
@[simp] theorem mid_2_3_2 (x : BitVec 2) (y : BitVec 3) (z : BitVec 2) :
    BitVec.extractLsb' (n := 7) 2 3 (x ++ y ++ z) = y :=
  mid_append x y z
@[simp] theorem high_2_3_2 (x : BitVec 2) (y : BitVec 3) (z : BitVec 2) :
    BitVec.extractLsb' (n := 7) 5 2 (x ++ y ++ z) = x :=
  top_append x y z
@[simp] theorem low_5_1_1 (x : BitVec 5) (y : BitVec 1) (z : BitVec 1) :
    BitVec.extractLsb' (n := 7) 0 1 (x ++ y ++ z) = z :=
  low_append (x ++ y) z
@[simp] theorem mid_5_1_1 (x : BitVec 5) (y : BitVec 1) (z : BitVec 1) :
    BitVec.extractLsb' (n := 7) 1 1 (x ++ y ++ z) = y :=
  mid_append x y z
@[simp] theorem high_5_1_1 (x : BitVec 5) (y : BitVec 1) (z : BitVec 1) :
    BitVec.extractLsb' (n := 7) 2 5 (x ++ y ++ z) = x :=
  top_append x y z
@[simp] theorem opcode_wordXsf (nf : BitVec 3) (rs2 rs1 : BitVec 5) (f3 : BitVec 3) (vd : BitVec 5) :
    (wordXsf nf rs2 rs1 f3 vd).extractLsb' 0 7 = 0x0B#7 := by
  refine field_ofNat _ _ _ (by decide) ?_
  have h := And.intro nf.isLt <| And.intro rs2.isLt <| And.intro rs1.isLt <| And.intro f3.isLt vd.isLt
  generalize nf.toNat = x0, rs2.toNat = x1, rs1.toNat = x2, f3.toNat = x3, vd.toNat = x4 at h ⊢
  simp only [BitVec.toNat_ofNat]
  omega

@[simp] theorem zero_wordXsf (nf : BitVec 3) (rs2 rs1 : BitVec 5) (f3 : BitVec 3) (vd : BitVec 5) :
    (wordXsf nf rs2 rs1 f3 vd).extractLsb' 28 4 = 0#4 := by
  refine field_ofNat _ _ _ (by decide) ?_
  have h := And.intro nf.isLt <| And.intro rs2.isLt <| And.intro rs1.isLt <| And.intro f3.isLt vd.isLt
  generalize nf.toNat = x0, rs2.toNat = x1, rs1.toNat = x2, f3.toNat = x3, vd.toNat = x4 at h ⊢
  simp only [BitVec.toNat_ofNat]
  omega

@[simp] theorem funct3_wordXsf (nf : BitVec 3) (rs2 rs1 : BitVec 5) (f3 : BitVec 3) (vd : BitVec 5) :
    (wordXsf nf rs2 rs1 f3 vd).extractLsb' 12 3 = f3 := by
  refine field_ofNat _ _ _ (by decide) ?_
  have h := And.intro nf.isLt <| And.intro rs2.isLt <| And.intro rs1.isLt <| And.intro f3.isLt vd.isLt
  generalize nf.toNat = x0, rs2.toNat = x1, rs1.toNat = x2, f3.toNat = x3, vd.toNat = x4 at h ⊢

  omega

@[simp] theorem nf_wordXsf (nf : BitVec 3) (rs2 rs1 : BitVec 5) (f3 : BitVec 3) (vd : BitVec 5) :
    (wordXsf nf rs2 rs1 f3 vd).extractLsb' 25 3 = nf := by
  refine field_ofNat _ _ _ (by decide) ?_
  have h := And.intro nf.isLt <| And.intro rs2.isLt <| And.intro rs1.isLt <| And.intro f3.isLt vd.isLt
  generalize nf.toNat = x0, rs2.toNat = x1, rs1.toNat = x2, f3.toNat = x3, vd.toNat = x4 at h ⊢

  omega

@[simp] theorem rs2_wordXsf (nf : BitVec 3) (rs2 rs1 : BitVec 5) (f3 : BitVec 3) (vd : BitVec 5) :
    (wordXsf nf rs2 rs1 f3 vd).extractLsb' 20 5 = rs2 := by
  refine field_ofNat _ _ _ (by decide) ?_
  have h := And.intro nf.isLt <| And.intro rs2.isLt <| And.intro rs1.isLt <| And.intro f3.isLt vd.isLt
  generalize nf.toNat = x0, rs2.toNat = x1, rs1.toNat = x2, f3.toNat = x3, vd.toNat = x4 at h ⊢

  omega

@[simp] theorem rs1_wordXsf (nf : BitVec 3) (rs2 rs1 : BitVec 5) (f3 : BitVec 3) (vd : BitVec 5) :
    (wordXsf nf rs2 rs1 f3 vd).extractLsb' 15 5 = rs1 := by
  refine field_ofNat _ _ _ (by decide) ?_
  have h := And.intro nf.isLt <| And.intro rs2.isLt <| And.intro rs1.isLt <| And.intro f3.isLt vd.isLt
  generalize nf.toNat = x0, rs2.toNat = x1, rs1.toNat = x2, f3.toNat = x3, vd.toNat = x4 at h ⊢

  omega

@[simp] theorem vd_wordXsf (nf : BitVec 3) (rs2 rs1 : BitVec 5) (f3 : BitVec 3) (vd : BitVec 5) :
    (wordXsf nf rs2 rs1 f3 vd).extractLsb' 7 5 = vd := by
  refine field_ofNat _ _ _ (by decide) ?_
  have h := And.intro nf.isLt <| And.intro rs2.isLt <| And.intro rs1.isLt <| And.intro f3.isLt vd.isLt
  generalize nf.toNat = x0, rs2.toNat = x1, rs1.toNat = x2, f3.toNat = x3, vd.toNat = x4 at h ⊢

  omega

@[simp] theorem bit1_ofBit (b : Bool) : bit1 (ofBit b) = b := by cases b <;> rfl

/-- The sub-op of Table 4.1's MX format is the low part of c in the LX format (R231). -/
@[simp] theorem mxSub_wordLX (maj a b : BitVec 7) (la : BitVec 4) (c : BitVec 7) :
    mxSub (wordLX maj a b la c) = c.extractLsb' 0 2 := by
  conv_rhs => rw [← lxC_wordLX maj a b la c]
  apply BitVec.eq_of_getLsbD_eq
  intro i h
  simp only [mxSub, lxC, BitVec.getLsbD_extractLsb']
  simp [h, show i < 7 by omega]

/-! ## The arm of the decoder -/

theorem decodeWord_lane00 {w : Word} (h : majorOf w = 0#7) : decodeWord w = decodeLane00 w := by
  unfold decodeWord; rw [h]; rfl
theorem decodeWord_lane01 {w : Word} (h : majorOf w = 1#7) : decodeWord w = decodeLane01 w := by
  unfold decodeWord; rw [h]; rfl
theorem decodeWord_lane02 {w : Word} (h : majorOf w = 2#7) : decodeWord w = decodeLane02 w := by
  unfold decodeWord; rw [h]; rfl
theorem decodeWord_lane03 {w : Word} (h : majorOf w = 3#7) : decodeWord w = decodeLane03 w := by
  unfold decodeWord; rw [h]; rfl
theorem decodeWord_lane04 {w : Word} (h : majorOf w = 4#7) : decodeWord w = decodeLane04 w := by
  unfold decodeWord; rw [h]; rfl
theorem decodeWord_lane05 {w : Word} (h : majorOf w = 5#7) : decodeWord w = decodeLane05 w := by
  unfold decodeWord; rw [h]; rfl
theorem decodeWord_lane06 {w : Word} (h : majorOf w = 6#7) : decodeWord w = decodeLane06 w := by
  unfold decodeWord; rw [h]; rfl
theorem decodeWord_lane07 {w : Word} (h : majorOf w = 7#7) : decodeWord w = decodeLane07 w := by
  unfold decodeWord; rw [h]; rfl
theorem decodeWord_lane08 {w : Word} (h : majorOf w = 8#7) : decodeWord w = decodeLane08 w := by
  unfold decodeWord; rw [h]; rfl
theorem decodeWord_lane09 {w : Word} (h : majorOf w = 9#7) : decodeWord w = decodeLane09 w := by
  unfold decodeWord; rw [h]; rfl
theorem decodeWord_lane0A {w : Word} (h : majorOf w = 10#7) : decodeWord w = decodeLane0A w := by
  unfold decodeWord; rw [h]; rfl
theorem decodeWord_lane0B {w : Word} (h : majorOf w = 11#7) : decodeWord w = decodeLane0B w := by
  unfold decodeWord; rw [h]; rfl
theorem decodeWord_lane0C {w : Word} (h : majorOf w = 12#7) : decodeWord w = decodeLane0C w := by
  unfold decodeWord; rw [h]; rfl
theorem decodeWord_lane0D {w : Word} (h : majorOf w = 13#7) : decodeWord w = decodeLane0D w := by
  unfold decodeWord; rw [h]; rfl
theorem decodeWord_lane0E {w : Word} (h : majorOf w = 14#7) : decodeWord w = decodeLane0E w := by
  unfold decodeWord; rw [h]; rfl
theorem decodeWord_lane0F {w : Word} (h : majorOf w = 15#7) : decodeWord w = decodeLane0F w := by
  unfold decodeWord; rw [h]; rfl
theorem decodeWord_lane10 {w : Word} (h : majorOf w = 16#7) : decodeWord w = decodeLane10 w := by
  unfold decodeWord; rw [h]; rfl
theorem decodeWord_lane11 {w : Word} (h : majorOf w = 17#7) : decodeWord w = decodeLane11 w := by
  unfold decodeWord; rw [h]; rfl
theorem decodeWord_lane12 {w : Word} (h : majorOf w = 18#7) : decodeWord w = decodeLane12 w := by
  unfold decodeWord; rw [h]; rfl
theorem decodeWord_lane13 {w : Word} (h : majorOf w = 19#7) : decodeWord w = decodeLane13 w := by
  unfold decodeWord; rw [h]; rfl
theorem decodeWord_lane14 {w : Word} (h : majorOf w = 20#7) : decodeWord w = decodeLane14 w := by
  unfold decodeWord; rw [h]; rfl
theorem decodeWord_lane15 {w : Word} (h : majorOf w = 21#7) : decodeWord w = decodeLane15 w := by
  unfold decodeWord; rw [h]; rfl
theorem decodeWord_lane16 {w : Word} (h : majorOf w = 22#7) : decodeWord w = decodeLane16 w := by
  unfold decodeWord; rw [h]; rfl
theorem decodeWord_lane18 {w : Word} (h : majorOf w = 24#7) : decodeWord w = decodeLane18 w := by
  unfold decodeWord; rw [h]; rfl
theorem decodeWord_lane19 {w : Word} (h : majorOf w = 25#7) : decodeWord w = decodeLane19 w := by
  unfold decodeWord; rw [h]; rfl
theorem decodeWord_lane1A {w : Word} (h : majorOf w = 26#7) : decodeWord w = decodeLane1A w := by
  unfold decodeWord; rw [h]; rfl
theorem decodeWord_lane1B {w : Word} (h : majorOf w = 27#7) : decodeWord w = decodeLane1B w := by
  unfold decodeWord; rw [h]; rfl
theorem decodeWord_lane1C {w : Word} (h : majorOf w = 28#7) : decodeWord w = decodeLane1C w := by
  unfold decodeWord; rw [h]; rfl
theorem decodeWord_lane1D {w : Word} (h : majorOf w = 29#7) : decodeWord w = decodeLane1D w := by
  unfold decodeWord; rw [h]; rfl
theorem decodeWord_lane1E {w : Word} (h : majorOf w = 30#7) : decodeWord w = decodeLane1E w := by
  unfold decodeWord; rw [h]; rfl
theorem decodeWord_lane1F {w : Word} (h : majorOf w = 31#7) : decodeWord w = decodeLane1F w := by
  unfold decodeWord; rw [h]; rfl
theorem decodeWord_lane20 {w : Word} (h : majorOf w = 32#7) : decodeWord w = decodeLane20 w := by
  unfold decodeWord; rw [h]; rfl
theorem decodeWord_lane21 {w : Word} (h : majorOf w = 33#7) : decodeWord w = decodeLane21 w := by
  unfold decodeWord; rw [h]; rfl
theorem decodeWord_lane22 {w : Word} (h : majorOf w = 34#7) : decodeWord w = decodeLane22 w := by
  unfold decodeWord; rw [h]; rfl
theorem decodeWord_lane24 {w : Word} (h : majorOf w = 36#7) : decodeWord w = decodeLane24 w := by
  unfold decodeWord; rw [h]; rfl
theorem decodeWord_lane25 {w : Word} (h : majorOf w = 37#7) : decodeWord w = decodeLane25 w := by
  unfold decodeWord; rw [h]; rfl
theorem decodeWord_lane26 {w : Word} (h : majorOf w = 38#7) : decodeWord w = decodeLane26 w := by
  unfold decodeWord; rw [h]; rfl
theorem decodeWord_lane28 {w : Word} (h : majorOf w = 40#7) : decodeWord w = decodeLane28 w := by
  unfold decodeWord; rw [h]; rfl
theorem decodeWord_lane29 {w : Word} (h : majorOf w = 41#7) : decodeWord w = decodeLane29 w := by
  unfold decodeWord; rw [h]; rfl
theorem decodeWord_lane2A {w : Word} (h : majorOf w = 42#7) : decodeWord w = decodeLane2A w := by
  unfold decodeWord; rw [h]; rfl
theorem decodeWord_lane2B {w : Word} (h : majorOf w = 43#7) : decodeWord w = decodeLane2B w := by
  unfold decodeWord; rw [h]; rfl
theorem decodeWord_lane2C {w : Word} (h : majorOf w = 44#7) : decodeWord w = decodeLane2C w := by
  unfold decodeWord; rw [h]; rfl
theorem decodeWord_lane2D {w : Word} (h : majorOf w = 45#7) : decodeWord w = decodeLane2D w := by
  unfold decodeWord; rw [h]; rfl
theorem decodeWord_lane2E {w : Word} (h : majorOf w = 46#7) : decodeWord w = decodeLane2E w := by
  unfold decodeWord; rw [h]; rfl
theorem decodeWord_lane2F {w : Word} (h : majorOf w = 47#7) : decodeWord w = decodeLane2F w := by
  unfold decodeWord; rw [h]; rfl
theorem decodeWord_lane30 {w : Word} (h : majorOf w = 48#7) : decodeWord w = decodeLane30 w := by
  unfold decodeWord; rw [h]; rfl
theorem decodeWord_lane31 {w : Word} (h : majorOf w = 49#7) : decodeWord w = decodeLane31 w := by
  unfold decodeWord; rw [h]; rfl
theorem decodeWord_lane32 {w : Word} (h : majorOf w = 50#7) : decodeWord w = decodeLane32 w := by
  unfold decodeWord; rw [h]; rfl
theorem decodeWord_lane33 {w : Word} (h : majorOf w = 51#7) : decodeWord w = decodeLane33 w := by
  unfold decodeWord; rw [h]; rfl
theorem decodeWord_lane34 {w : Word} (h : majorOf w = 52#7) : decodeWord w = decodeLane34 w := by
  unfold decodeWord; rw [h]; rfl
theorem decodeWord_lane3B {w : Word} (h : majorOf w = 59#7) : decodeWord w = decodeLane3B w := by
  unfold decodeWord; rw [h]; rfl
theorem decodeWord_lane3C {w : Word} (h : majorOf w = 60#7) : decodeWord w = decodeLane3C w := by
  unfold decodeWord; rw [h]; rfl
theorem decodeWord_lane37 {w : Word} (h : majorOf w = 55#7) : decodeWord w = decodeLane37 w := by
  unfold decodeWord; rw [h]; rfl
theorem decodeWord_lane38 {w : Word} (h : majorOf w = 56#7) : decodeWord w = decodeLane38 w := by
  unfold decodeWord; rw [h]; rfl
theorem decodeWord_lane35 {w : Word} (h : majorOf w = 53#7) : decodeWord w = decodeLane35 w := by
  unfold decodeWord; rw [h]; rfl
theorem decodeWord_lane36 {w : Word} (h : majorOf w = 54#7) : decodeWord w = decodeLane36 w := by
  unfold decodeWord; rw [h]; rfl
theorem decodeWord_lane39 {w : Word} (h : majorOf w = 57#7) : decodeWord w = decodeLane39 w := by
  unfold decodeWord; rw [h]; rfl
theorem decodeWord_lane3A {w : Word} (h : majorOf w = 58#7) : decodeWord w = decodeLane3A w := by
  unfold decodeWord; rw [h]; rfl
theorem decodeWord_lane3F {w : Word} (h : majorOf w = 63#7) : decodeWord w = decodeLane3F w := by
  unfold decodeWord; rw [h]; rfl
theorem decodeWord_uniform00 {w : Word} (h : majorOf w = 64#7) : decodeWord w = decodeUniform00 w := by
  unfold decodeWord; rw [h]; rfl
theorem decodeWord_uniform01 {w : Word} (h : majorOf w = 65#7) : decodeWord w = decodeUniform01 w := by
  unfold decodeWord; rw [h]; rfl
theorem decodeWord_uniform02 {w : Word} (h : majorOf w = 66#7) : decodeWord w = decodeUniform02 w := by
  unfold decodeWord; rw [h]; rfl
theorem decodeWord_uniform03 {w : Word} (h : majorOf w = 67#7) : decodeWord w = decodeUniform03 w := by
  unfold decodeWord; rw [h]; rfl
theorem decodeWord_uniform04 {w : Word} (h : majorOf w = 68#7) : decodeWord w = decodeUniform04 w := by
  unfold decodeWord; rw [h]; rfl
theorem decodeWord_uniform05 {w : Word} (h : majorOf w = 69#7) : decodeWord w = decodeUniform05 w := by
  unfold decodeWord; rw [h]; rfl
theorem decodeWord_uniform06 {w : Word} (h : majorOf w = 70#7) : decodeWord w = decodeUniform06 w := by
  unfold decodeWord; rw [h]; rfl
theorem decodeWord_uniform07 {w : Word} (h : majorOf w = 71#7) : decodeWord w = decodeUniform07 w := by
  unfold decodeWord; rw [h]; rfl
theorem decodeWord_uniform08 {w : Word} (h : majorOf w = 72#7) : decodeWord w = decodeUniform08 w := by
  unfold decodeWord; rw [h]; rfl
theorem decodeWord_uniform09 {w : Word} (h : majorOf w = 73#7) : decodeWord w = decodeUniform09 w := by
  unfold decodeWord; rw [h]; rfl
theorem decodeWord_uniform0A {w : Word} (h : majorOf w = 74#7) : decodeWord w = decodeUniform0A w := by
  unfold decodeWord; rw [h]; rfl
theorem decodeWord_uniform0B {w : Word} (h : majorOf w = 75#7) : decodeWord w = decodeUniform0B w := by
  unfold decodeWord; rw [h]; rfl
theorem decodeWord_uniform0C {w : Word} (h : majorOf w = 76#7) : decodeWord w = decodeUniform0C w := by
  unfold decodeWord; rw [h]; rfl
theorem decodeWord_uniform0D {w : Word} (h : majorOf w = 77#7) : decodeWord w = decodeUniform0D w := by
  unfold decodeWord; rw [h]; rfl
theorem decodeWord_uniform0E {w : Word} (h : majorOf w = 78#7) : decodeWord w = decodeUniform0E w := by
  unfold decodeWord; rw [h]; rfl
theorem decodeWord_uniform0F {w : Word} (h : majorOf w = 79#7) : decodeWord w = decodeUniform0F w := by
  unfold decodeWord; rw [h]; rfl
theorem decodeWord_uniform10 {w : Word} (h : majorOf w = 80#7) : decodeWord w = decodeUniform10 w := by
  unfold decodeWord; rw [h]; rfl
theorem decodeWord_uniform11 {w : Word} (h : majorOf w = 81#7) : decodeWord w = decodeUniform11 w := by
  unfold decodeWord; rw [h]; rfl

end Sys2Proof
end

