-- ==== Sys2Proof/Laws/PerInstr.lean ====
section
/-! SUPPORT. The statements that are made of every instruction as syntax, one lemma for each constructor. -/

namespace Sys2Proof.Laws

set_option Elab.async false

open Sys2Proof

/-- The encoder and the decoder agree on a well-formed instruction: a thread-engine instruction is one word, which
decodes to it; an attendant core's instruction is one word of the attendant's own decoder (R332); an event has none. -/
def RoundTrip.Statement (i : Instr) : Prop :=
  i.wellFormed = true →
    match i.kind with
    | .thread => ∃ w, encode i = [w] ∧ decodeWord w = .ok i
    | .attendant => ∃ w, encode i = [w] ∧ decodeAttendant w = .ok i
    | .event => encode i = []

theorem bit_cases (b : BitVec 1) : b = 0#1 ∨ b = 1#1 := by revert b; decide
theorem two_cases (b : BitVec 2) : b = 0#2 ∨ b = 1#2 ∨ b = 2#2 ∨ b = 3#2 := by revert b; decide
theorem three_cases (b : BitVec 3) : b = 0#3 ∨ b = 1#3 ∨ b = 2#3 ∨ b = 3#3 ∨ b = 4#3 ∨ b = 5#3 ∨ b = 6#3 ∨ b = 7#3 := by
  revert b; decide

theorem roundTrip_ofThread {i : Instr} {w : Word} (hk : i.kind = .thread) (he : encode i = [w])
    (hd : i.wellFormed = true → decodeWord w = .ok i) : RoundTrip.Statement i := by
  intro h; rw [hk]; exact ⟨w, he, hd h⟩

theorem roundTrip_ofAttendant {i : Instr} {w : Word} (hk : i.kind = .attendant) (he : encode i = [w])
    (hd : decodeAttendant w = .ok i) : RoundTrip.Statement i := by
  intro _; rw [hk]; exact ⟨w, he, hd⟩

theorem roundTrip_ofEvent {i : Instr} (hk : i.kind = .event) (he : encode i = []) : RoundTrip.Statement i := by
  intro _; rw [hk]; exact he

theorem RoundTrip.addI32 vd va vb tr : RoundTrip.Statement (.addI32 vd va vb tr) :=
  roundTrip_ofThread rfl rfl (by intro _; rw [decodeWord_lane00 (majorOf_wordLR ..)]; simp [decodeLane00])
theorem RoundTrip.subI32 vd va vb tr : RoundTrip.Statement (.subI32 vd va vb tr) :=
  roundTrip_ofThread rfl rfl (by intro _; rw [decodeWord_lane00 (majorOf_wordLR ..)]; simp [decodeLane00])
theorem RoundTrip.negI32 vd va tr : RoundTrip.Statement (.negI32 vd va tr) :=
  roundTrip_ofThread rfl rfl (by intro _; rw [decodeWord_lane00 (majorOf_wordLR ..)]; simp [decodeLane00])
theorem RoundTrip.absI32 vd va tr : RoundTrip.Statement (.absI32 vd va tr) :=
  roundTrip_ofThread rfl rfl (by intro _; rw [decodeWord_lane00 (majorOf_wordLR ..)]; simp [decodeLane00])
theorem RoundTrip.avgI32 vd va vb tr : RoundTrip.Statement (.avgI32 vd va vb tr) :=
  roundTrip_ofThread rfl rfl (by intro _; rw [decodeWord_lane00 (majorOf_wordLR ..)]; simp [decodeLane00])
theorem RoundTrip.avgN32 vd va vb tr : RoundTrip.Statement (.avgN32 vd va vb tr) :=
  roundTrip_ofThread rfl rfl (by intro _; rw [decodeWord_lane00 (majorOf_wordLR ..)]; simp [decodeLane00])
theorem RoundTrip.adiffI32 vd va vb tr : RoundTrip.Statement (.adiffI32 vd va vb tr) :=
  roundTrip_ofThread rfl rfl (by intro _; rw [decodeWord_lane00 (majorOf_wordLR ..)]; simp [decodeLane00])
theorem RoundTrip.adiffN32 vd va vb tr : RoundTrip.Statement (.adiffN32 vd va vb tr) :=
  roundTrip_ofThread rfl rfl (by intro _; rw [decodeWord_lane00 (majorOf_wordLR ..)]; simp [decodeLane00])
theorem RoundTrip.addI64 vd va vb tr : RoundTrip.Statement (.addI64 vd va vb tr) :=
  roundTrip_ofThread rfl rfl (by intro _; rw [decodeWord_lane01 (majorOf_wordLR ..)]; simp [decodeLane01])
theorem RoundTrip.subI64 vd va vb tr : RoundTrip.Statement (.subI64 vd va vb tr) :=
  roundTrip_ofThread rfl rfl (by intro _; rw [decodeWord_lane01 (majorOf_wordLR ..)]; simp [decodeLane01])
theorem RoundTrip.negI64 vd va tr : RoundTrip.Statement (.negI64 vd va tr) :=
  roundTrip_ofThread rfl rfl (by intro _; rw [decodeWord_lane01 (majorOf_wordLR ..)]; simp [decodeLane01])
theorem RoundTrip.absI64 vd va tr : RoundTrip.Statement (.absI64 vd va tr) :=
  roundTrip_ofThread rfl rfl (by intro _; rw [decodeWord_lane01 (majorOf_wordLR ..)]; simp [decodeLane01])
theorem RoundTrip.addwI64I32 vd va vb tr : RoundTrip.Statement (.addwI64I32 vd va vb tr) :=
  roundTrip_ofThread rfl rfl (by intro _; rw [decodeWord_lane01 (majorOf_wordLR ..)]; simp [decodeLane01])
theorem RoundTrip.addwN64N32 vd va vb tr : RoundTrip.Statement (.addwN64N32 vd va vb tr) :=
  roundTrip_ofThread rfl rfl (by intro _; rw [decodeWord_lane01 (majorOf_wordLR ..)]; simp [decodeLane01])
theorem RoundTrip.addsatI32 vd va vb tr : RoundTrip.Statement (.addsatI32 vd va vb tr) :=
  roundTrip_ofThread rfl rfl (by intro _; rw [decodeWord_lane02 (majorOf_wordLR ..)]; simp [decodeLane02])
theorem RoundTrip.subsatI32 vd va vb tr : RoundTrip.Statement (.subsatI32 vd va vb tr) :=
  roundTrip_ofThread rfl rfl (by intro _; rw [decodeWord_lane02 (majorOf_wordLR ..)]; simp [decodeLane02])
theorem RoundTrip.addsatN32 vd va vb tr : RoundTrip.Statement (.addsatN32 vd va vb tr) :=
  roundTrip_ofThread rfl rfl (by intro _; rw [decodeWord_lane02 (majorOf_wordLR ..)]; simp [decodeLane02])
theorem RoundTrip.subsatN32 vd va vb tr : RoundTrip.Statement (.subsatN32 vd va vb tr) :=
  roundTrip_ofThread rfl rfl (by intro _; rw [decodeWord_lane02 (majorOf_wordLR ..)]; simp [decodeLane02])
theorem RoundTrip.negsatI32 vd va tr : RoundTrip.Statement (.negsatI32 vd va tr) :=
  roundTrip_ofThread rfl rfl (by intro _; rw [decodeWord_lane02 (majorOf_wordLR ..)]; simp [decodeLane02])
theorem RoundTrip.abssatI32 vd va tr : RoundTrip.Statement (.abssatI32 vd va tr) :=
  roundTrip_ofThread rfl rfl (by intro _; rw [decodeWord_lane02 (majorOf_wordLR ..)]; simp [decodeLane02])
theorem RoundTrip.mulI32 vd va vb tr : RoundTrip.Statement (.mulI32 vd va vb tr) :=
  roundTrip_ofThread rfl rfl (by intro _; rw [decodeWord_lane03 (majorOf_wordLR ..)]; simp [decodeLane03])
theorem RoundTrip.mulhiI32 vd va vb tr : RoundTrip.Statement (.mulhiI32 vd va vb tr) :=
  roundTrip_ofThread rfl rfl (by intro _; rw [decodeWord_lane03 (majorOf_wordLR ..)]; simp [decodeLane03])
theorem RoundTrip.mulhiN32 vd va vb tr : RoundTrip.Statement (.mulhiN32 vd va vb tr) :=
  roundTrip_ofThread rfl rfl (by intro _; rw [decodeWord_lane03 (majorOf_wordLR ..)]; simp [decodeLane03])
theorem RoundTrip.madI32 vd va vb tr : RoundTrip.Statement (.madI32 vd va vb tr) :=
  roundTrip_ofThread rfl rfl (by intro _; rw [decodeWord_lane03 (majorOf_wordLR ..)]; simp [decodeLane03])
theorem RoundTrip.mulwI32 vd va vb tr : RoundTrip.Statement (.mulwI32 vd va vb tr) :=
  roundTrip_ofThread rfl rfl (by intro _; rw [decodeWord_lane03 (majorOf_wordLR ..)]; simp [decodeLane03])
theorem RoundTrip.mulwN32 vd va vb tr : RoundTrip.Statement (.mulwN32 vd va vb tr) :=
  roundTrip_ofThread rfl rfl (by intro _; rw [decodeWord_lane03 (majorOf_wordLR ..)]; simp [decodeLane03])
theorem RoundTrip.divI32 vd va vb tr : RoundTrip.Statement (.divI32 vd va vb tr) :=
  roundTrip_ofThread rfl rfl (by intro _; rw [decodeWord_lane04 (majorOf_wordLR ..)]; simp [decodeLane04])
theorem RoundTrip.divN32 vd va vb tr : RoundTrip.Statement (.divN32 vd va vb tr) :=
  roundTrip_ofThread rfl rfl (by intro _; rw [decodeWord_lane04 (majorOf_wordLR ..)]; simp [decodeLane04])
theorem RoundTrip.remI32 vd va vb tr : RoundTrip.Statement (.remI32 vd va vb tr) :=
  roundTrip_ofThread rfl rfl (by intro _; rw [decodeWord_lane04 (majorOf_wordLR ..)]; simp [decodeLane04])
theorem RoundTrip.remN32 vd va vb tr : RoundTrip.Statement (.remN32 vd va vb tr) :=
  roundTrip_ofThread rfl rfl (by intro _; rw [decodeWord_lane04 (majorOf_wordLR ..)]; simp [decodeLane04])
theorem RoundTrip.divI64 vd va vb tr : RoundTrip.Statement (.divI64 vd va vb tr) :=
  roundTrip_ofThread rfl rfl (by intro _; rw [decodeWord_lane04 (majorOf_wordLR ..)]; simp [decodeLane04])
theorem RoundTrip.divN64 vd va vb tr : RoundTrip.Statement (.divN64 vd va vb tr) :=
  roundTrip_ofThread rfl rfl (by intro _; rw [decodeWord_lane04 (majorOf_wordLR ..)]; simp [decodeLane04])
theorem RoundTrip.remI64 vd va vb tr : RoundTrip.Statement (.remI64 vd va vb tr) :=
  roundTrip_ofThread rfl rfl (by intro _; rw [decodeWord_lane04 (majorOf_wordLR ..)]; simp [decodeLane04])
theorem RoundTrip.remN64 vd va vb tr : RoundTrip.Statement (.remN64 vd va vb tr) :=
  roundTrip_ofThread rfl rfl (by intro _; rw [decodeWord_lane04 (majorOf_wordLR ..)]; simp [decodeLane04])
theorem RoundTrip.minI32 vd va vb tr : RoundTrip.Statement (.minI32 vd va vb tr) :=
  roundTrip_ofThread rfl rfl (by intro _; rw [decodeWord_lane05 (majorOf_wordLR ..)]; simp [decodeLane05])
theorem RoundTrip.maxI32 vd va vb tr : RoundTrip.Statement (.maxI32 vd va vb tr) :=
  roundTrip_ofThread rfl rfl (by intro _; rw [decodeWord_lane05 (majorOf_wordLR ..)]; simp [decodeLane05])
theorem RoundTrip.minN32 vd va vb tr : RoundTrip.Statement (.minN32 vd va vb tr) :=
  roundTrip_ofThread rfl rfl (by intro _; rw [decodeWord_lane05 (majorOf_wordLR ..)]; simp [decodeLane05])
theorem RoundTrip.maxN32 vd va vb tr : RoundTrip.Statement (.maxN32 vd va vb tr) :=
  roundTrip_ofThread rfl rfl (by intro _; rw [decodeWord_lane05 (majorOf_wordLR ..)]; simp [decodeLane05])
theorem RoundTrip.minI64 vd va vb tr : RoundTrip.Statement (.minI64 vd va vb tr) :=
  roundTrip_ofThread rfl rfl (by intro _; rw [decodeWord_lane05 (majorOf_wordLR ..)]; simp [decodeLane05])
theorem RoundTrip.maxI64 vd va vb tr : RoundTrip.Statement (.maxI64 vd va vb tr) :=
  roundTrip_ofThread rfl rfl (by intro _; rw [decodeWord_lane05 (majorOf_wordLR ..)]; simp [decodeLane05])
theorem RoundTrip.minN64 vd va vb tr : RoundTrip.Statement (.minN64 vd va vb tr) :=
  roundTrip_ofThread rfl rfl (by intro _; rw [decodeWord_lane05 (majorOf_wordLR ..)]; simp [decodeLane05])
theorem RoundTrip.maxN64 vd va vb tr : RoundTrip.Statement (.maxN64 vd va vb tr) :=
  roundTrip_ofThread rfl rfl (by intro _; rw [decodeWord_lane05 (majorOf_wordLR ..)]; simp [decodeLane05])
theorem RoundTrip.andN32 vd va vb tr : RoundTrip.Statement (.andN32 vd va vb tr) :=
  roundTrip_ofThread rfl rfl (by intro _; rw [decodeWord_lane06 (majorOf_wordLR ..)]; simp [decodeLane06])
theorem RoundTrip.orN32 vd va vb tr : RoundTrip.Statement (.orN32 vd va vb tr) :=
  roundTrip_ofThread rfl rfl (by intro _; rw [decodeWord_lane06 (majorOf_wordLR ..)]; simp [decodeLane06])
theorem RoundTrip.xorN32 vd va vb tr : RoundTrip.Statement (.xorN32 vd va vb tr) :=
  roundTrip_ofThread rfl rfl (by intro _; rw [decodeWord_lane06 (majorOf_wordLR ..)]; simp [decodeLane06])
theorem RoundTrip.andnN32 vd va vb tr : RoundTrip.Statement (.andnN32 vd va vb tr) :=
  roundTrip_ofThread rfl rfl (by intro _; rw [decodeWord_lane06 (majorOf_wordLR ..)]; simp [decodeLane06])
theorem RoundTrip.ornN32 vd va vb tr : RoundTrip.Statement (.ornN32 vd va vb tr) :=
  roundTrip_ofThread rfl rfl (by intro _; rw [decodeWord_lane06 (majorOf_wordLR ..)]; simp [decodeLane06])
theorem RoundTrip.xnorN32 vd va vb tr : RoundTrip.Statement (.xnorN32 vd va vb tr) :=
  roundTrip_ofThread rfl rfl (by intro _; rw [decodeWord_lane06 (majorOf_wordLR ..)]; simp [decodeLane06])
theorem RoundTrip.notN32 vd va tr : RoundTrip.Statement (.notN32 vd va tr) :=
  roundTrip_ofThread rfl rfl (by intro _; rw [decodeWord_lane06 (majorOf_wordLR ..)]; simp [decodeLane06])
theorem RoundTrip.shlN32 vd va vb tr : RoundTrip.Statement (.shlN32 vd va vb tr) :=
  roundTrip_ofThread rfl rfl (by intro _; rw [decodeWord_lane07 (majorOf_wordLR ..)]; simp [decodeLane07])
theorem RoundTrip.shrN32 vd va vb tr : RoundTrip.Statement (.shrN32 vd va vb tr) :=
  roundTrip_ofThread rfl rfl (by intro _; rw [decodeWord_lane07 (majorOf_wordLR ..)]; simp [decodeLane07])
theorem RoundTrip.shrI32 vd va vb tr : RoundTrip.Statement (.shrI32 vd va vb tr) :=
  roundTrip_ofThread rfl rfl (by intro _; rw [decodeWord_lane07 (majorOf_wordLR ..)]; simp [decodeLane07])
theorem RoundTrip.rolN32 vd va vb tr : RoundTrip.Statement (.rolN32 vd va vb tr) :=
  roundTrip_ofThread rfl rfl (by intro _; rw [decodeWord_lane07 (majorOf_wordLR ..)]; simp [decodeLane07])
theorem RoundTrip.rorN32 vd va vb tr : RoundTrip.Statement (.rorN32 vd va vb tr) :=
  roundTrip_ofThread rfl rfl (by intro _; rw [decodeWord_lane07 (majorOf_wordLR ..)]; simp [decodeLane07])
theorem RoundTrip.popcN32 vd va tr : RoundTrip.Statement (.popcN32 vd va tr) :=
  roundTrip_ofThread rfl rfl (by intro _; rw [decodeWord_lane08 (majorOf_wordLR ..)]; simp [decodeLane08])
theorem RoundTrip.clzN32 vd va tr : RoundTrip.Statement (.clzN32 vd va tr) :=
  roundTrip_ofThread rfl rfl (by intro _; rw [decodeWord_lane08 (majorOf_wordLR ..)]; simp [decodeLane08])
theorem RoundTrip.ctzN32 vd va tr : RoundTrip.Statement (.ctzN32 vd va tr) :=
  roundTrip_ofThread rfl rfl (by intro _; rw [decodeWord_lane08 (majorOf_wordLR ..)]; simp [decodeLane08])
theorem RoundTrip.brevN32 vd va tr : RoundTrip.Statement (.brevN32 vd va tr) :=
  roundTrip_ofThread rfl rfl (by intro _; rw [decodeWord_lane08 (majorOf_wordLR ..)]; simp [decodeLane08])
theorem RoundTrip.bswapN32 vd va tr : RoundTrip.Statement (.bswapN32 vd va tr) :=
  roundTrip_ofThread rfl rfl (by intro _; rw [decodeWord_lane08 (majorOf_wordLR ..)]; simp [decodeLane08])
theorem RoundTrip.popcN64 vd va tr : RoundTrip.Statement (.popcN64 vd va tr) :=
  roundTrip_ofThread rfl rfl (by intro _; rw [decodeWord_lane08 (majorOf_wordLR ..)]; simp [decodeLane08])
theorem RoundTrip.clzN64 vd va tr : RoundTrip.Statement (.clzN64 vd va tr) :=
  roundTrip_ofThread rfl rfl (by intro _; rw [decodeWord_lane08 (majorOf_wordLR ..)]; simp [decodeLane08])
theorem RoundTrip.bfeN32 vd va vb tr : RoundTrip.Statement (.bfeN32 vd va vb tr) :=
  roundTrip_ofThread rfl rfl (by intro _; rw [decodeWord_lane09 (majorOf_wordLR ..)]; simp [decodeLane09])
theorem RoundTrip.bfeI32 vd va vb tr : RoundTrip.Statement (.bfeI32 vd va vb tr) :=
  roundTrip_ofThread rfl rfl (by intro _; rw [decodeWord_lane09 (majorOf_wordLR ..)]; simp [decodeLane09])
theorem RoundTrip.bfiN32 vd va vb tr : RoundTrip.Statement (.bfiN32 vd va vb tr) :=
  roundTrip_ofThread rfl rfl (by intro _; rw [decodeWord_lane09 (majorOf_wordLR ..)]; simp [decodeLane09])
theorem RoundTrip.cmpI32 pk va vb cc : RoundTrip.Statement (.cmpI32 pk va vb cc) :=
  roundTrip_ofThread rfl rfl (by intro _; rw [decodeWord_lane0A (majorOf_wordLR ..)]; simp [decodeLane0A])
theorem RoundTrip.selN32 vd va vb pk tr : RoundTrip.Statement (.selN32 vd va vb pk tr) :=
  roundTrip_ofThread rfl rfl (by intro h; simp [Instr.wellFormed] at h; rw [decodeWord_lane0B (majorOf_wordLR ..)]; simp [decodeLane0B]; tauto)
theorem RoundTrip.movN32 vd va tr : RoundTrip.Statement (.movN32 vd va tr) :=
  roundTrip_ofThread rfl rfl (by intro _; rw [decodeWord_lane0B (majorOf_wordLR ..)]; simp [decodeLane0B])
theorem RoundTrip.shaddN32 vd va vb sh tr : RoundTrip.Statement (.shaddN32 vd va vb sh tr) :=
  roundTrip_ofThread rfl rfl (by intro _; rw [decodeWord_lane0C (majorOf_wordLR ..)]; simp [decodeLane0C])
theorem RoundTrip.shaddN64 vd va vb sh tr : RoundTrip.Statement (.shaddN64 vd va vb sh tr) :=
  roundTrip_ofThread rfl rfl (by intro _; rw [decodeWord_lane0C (majorOf_wordLR ..)]; simp [decodeLane0C])
theorem RoundTrip.addI16 vd va vb tr : RoundTrip.Statement (.addI16 vd va vb tr) :=
  roundTrip_ofThread rfl rfl (by intro _; rw [decodeWord_lane0D (majorOf_wordLR ..)]; simp [decodeLane0D])
theorem RoundTrip.subI16 vd va vb tr : RoundTrip.Statement (.subI16 vd va vb tr) :=
  roundTrip_ofThread rfl rfl (by intro _; rw [decodeWord_lane0D (majorOf_wordLR ..)]; simp [decodeLane0D])
theorem RoundTrip.addI8 vd va vb tr : RoundTrip.Statement (.addI8 vd va vb tr) :=
  roundTrip_ofThread rfl rfl (by intro _; rw [decodeWord_lane0D (majorOf_wordLR ..)]; simp [decodeLane0D])
theorem RoundTrip.subI8 vd va vb tr : RoundTrip.Statement (.subI8 vd va vb tr) :=
  roundTrip_ofThread rfl rfl (by intro _; rw [decodeWord_lane0D (majorOf_wordLR ..)]; simp [decodeLane0D])
theorem RoundTrip.addsatI16 vd va vb tr : RoundTrip.Statement (.addsatI16 vd va vb tr) :=
  roundTrip_ofThread rfl rfl (by intro _; rw [decodeWord_lane0D (majorOf_wordLR ..)]; simp [decodeLane0D])
theorem RoundTrip.subsatI16 vd va vb tr : RoundTrip.Statement (.subsatI16 vd va vb tr) :=
  roundTrip_ofThread rfl rfl (by intro _; rw [decodeWord_lane0D (majorOf_wordLR ..)]; simp [decodeLane0D])
theorem RoundTrip.addsatN8 vd va vb tr : RoundTrip.Statement (.addsatN8 vd va vb tr) :=
  roundTrip_ofThread rfl rfl (by intro _; rw [decodeWord_lane0D (majorOf_wordLR ..)]; simp [decodeLane0D])
theorem RoundTrip.dotI8 vd va vb tr : RoundTrip.Statement (.dotI8 vd va vb tr) :=
  roundTrip_ofThread rfl rfl (by intro _; rw [decodeWord_lane0D (majorOf_wordLR ..)]; simp [decodeLane0D])
theorem RoundTrip.pand vd va vb : RoundTrip.Statement (.pand vd va vb) :=
  roundTrip_ofThread rfl rfl (by intro _; rw [decodeWord_lane0E (majorOf_wordLR ..)]; simp [decodeLane0E])
theorem RoundTrip.por vd va vb : RoundTrip.Statement (.por vd va vb) :=
  roundTrip_ofThread rfl rfl (by intro _; rw [decodeWord_lane0E (majorOf_wordLR ..)]; simp [decodeLane0E])
theorem RoundTrip.pxor vd va vb : RoundTrip.Statement (.pxor vd va vb) :=
  roundTrip_ofThread rfl rfl (by intro _; rw [decodeWord_lane0E (majorOf_wordLR ..)]; simp [decodeLane0E])
theorem RoundTrip.pandn vd va vb : RoundTrip.Statement (.pandn vd va vb) :=
  roundTrip_ofThread rfl rfl (by intro _; rw [decodeWord_lane0E (majorOf_wordLR ..)]; simp [decodeLane0E])
theorem RoundTrip.pnot vd va : RoundTrip.Statement (.pnot vd va) :=
  roundTrip_ofThread rfl rfl (by intro _; rw [decodeWord_lane0E (majorOf_wordLR ..)]; simp [decodeLane0E])
theorem RoundTrip.ptovN32 vd tr : RoundTrip.Statement (.ptovN32 vd tr) :=
  roundTrip_ofThread rfl rfl (by intro _; rw [decodeWord_lane0E (majorOf_wordLR ..)]; simp [decodeLane0E])
theorem RoundTrip.vtopN32 va : RoundTrip.Statement (.vtopN32 va) :=
  roundTrip_ofThread rfl rfl (by intro _; rw [decodeWord_lane0E (majorOf_wordLR ..)]; simp [decodeLane0E])
theorem RoundTrip.mulI64 vd va vb tr : RoundTrip.Statement (.mulI64 vd va vb tr) :=
  roundTrip_ofThread rfl rfl (by intro _; rw [decodeWord_lane0F (majorOf_wordLR ..)]; simp [decodeLane0F])
theorem RoundTrip.shlN64 vd va vb tr : RoundTrip.Statement (.shlN64 vd va vb tr) :=
  roundTrip_ofThread rfl rfl (by intro _; rw [decodeWord_lane0F (majorOf_wordLR ..)]; simp [decodeLane0F])
theorem RoundTrip.shrN64 vd va vb tr : RoundTrip.Statement (.shrN64 vd va vb tr) :=
  roundTrip_ofThread rfl rfl (by intro _; rw [decodeWord_lane0F (majorOf_wordLR ..)]; simp [decodeLane0F])
theorem RoundTrip.shrI64 vd va vb tr : RoundTrip.Statement (.shrI64 vd va vb tr) :=
  roundTrip_ofThread rfl rfl (by intro _; rw [decodeWord_lane0F (majorOf_wordLR ..)]; simp [decodeLane0F])
theorem RoundTrip.cmpEqI64 pk va vb : RoundTrip.Statement (.cmpEqI64 pk va vb) :=
  roundTrip_ofThread rfl rfl (by intro _; rw [decodeWord_lane0F (majorOf_wordLR ..)]; simp [decodeLane0F])
theorem RoundTrip.cmpLtI64 pk va vb : RoundTrip.Statement (.cmpLtI64 pk va vb) :=
  roundTrip_ofThread rfl rfl (by intro _; rw [decodeWord_lane0F (majorOf_wordLR ..)]; simp [decodeLane0F])
theorem RoundTrip.cmpLtN64 pk va vb : RoundTrip.Statement (.cmpLtN64 pk va vb) :=
  roundTrip_ofThread rfl rfl (by intro _; rw [decodeWord_lane0F (majorOf_wordLR ..)]; simp [decodeLane0F])
theorem RoundTrip.movN64 vd va tr : RoundTrip.Statement (.movN64 vd va tr) :=
  roundTrip_ofThread rfl rfl (by intro _; rw [decodeWord_lane0F (majorOf_wordLR ..)]; simp [decodeLane0F])
theorem RoundTrip.addI32Imm vd imm : RoundTrip.Statement (.addI32Imm vd imm) :=
  roundTrip_ofThread rfl rfl (by intro _; rw [decodeWord_lane10 (majorOf_wordLI ..)]; simp [decodeLane10])
theorem RoundTrip.addI64Imm vd imm : RoundTrip.Statement (.addI64Imm vd imm) :=
  roundTrip_ofThread rfl rfl (by intro _; rw [decodeWord_lane10 (majorOf_wordLI ..)]; simp [decodeLane10])
theorem RoundTrip.addsatI32Imm vd imm : RoundTrip.Statement (.addsatI32Imm vd imm) :=
  roundTrip_ofThread rfl rfl (by intro _; rw [decodeWord_lane10 (majorOf_wordLI ..)]; simp [decodeLane10])
theorem RoundTrip.addsatN32Imm vd imm : RoundTrip.Statement (.addsatN32Imm vd imm) :=
  roundTrip_ofThread rfl rfl (by intro _; rw [decodeWord_lane10 (majorOf_wordLI ..)]; simp [decodeLane10])
theorem RoundTrip.andN32Imm vd imm : RoundTrip.Statement (.andN32Imm vd imm) :=
  roundTrip_ofThread rfl rfl (by intro _; rw [decodeWord_lane11 (majorOf_wordLI ..)]; simp [decodeLane11])
theorem RoundTrip.orN32Imm vd imm : RoundTrip.Statement (.orN32Imm vd imm) :=
  roundTrip_ofThread rfl rfl (by intro _; rw [decodeWord_lane11 (majorOf_wordLI ..)]; simp [decodeLane11])
theorem RoundTrip.xorN32Imm vd imm : RoundTrip.Statement (.xorN32Imm vd imm) :=
  roundTrip_ofThread rfl rfl (by intro _; rw [decodeWord_lane11 (majorOf_wordLI ..)]; simp [decodeLane11])
theorem RoundTrip.shlN32Imm vd imm : RoundTrip.Statement (.shlN32Imm vd imm) :=
  roundTrip_ofThread rfl rfl (by intro _; rw [decodeWord_lane12 (majorOf_wordLI ..)]; simp [decodeLane12])
theorem RoundTrip.shrN32Imm vd imm : RoundTrip.Statement (.shrN32Imm vd imm) :=
  roundTrip_ofThread rfl rfl (by intro _; rw [decodeWord_lane12 (majorOf_wordLI ..)]; simp [decodeLane12])
theorem RoundTrip.shrI32Imm vd imm : RoundTrip.Statement (.shrI32Imm vd imm) :=
  roundTrip_ofThread rfl rfl (by intro _; rw [decodeWord_lane12 (majorOf_wordLI ..)]; simp [decodeLane12])
theorem RoundTrip.rorN32Imm vd imm : RoundTrip.Statement (.rorN32Imm vd imm) :=
  roundTrip_ofThread rfl rfl (by intro _; rw [decodeWord_lane12 (majorOf_wordLI ..)]; simp [decodeLane12])
theorem RoundTrip.setEqI32 vd imm : RoundTrip.Statement (.setEqI32 vd imm) :=
  roundTrip_ofThread rfl rfl (by intro _; rw [decodeWord_lane13 (majorOf_wordLI ..)]; simp [decodeLane13])
theorem RoundTrip.setNeI32 vd imm : RoundTrip.Statement (.setNeI32 vd imm) :=
  roundTrip_ofThread rfl rfl (by intro _; rw [decodeWord_lane13 (majorOf_wordLI ..)]; simp [decodeLane13])
theorem RoundTrip.setLtI32 vd imm : RoundTrip.Statement (.setLtI32 vd imm) :=
  roundTrip_ofThread rfl rfl (by intro _; rw [decodeWord_lane13 (majorOf_wordLI ..)]; simp [decodeLane13])
theorem RoundTrip.setLtN32 vd imm : RoundTrip.Statement (.setLtN32 vd imm) :=
  roundTrip_ofThread rfl rfl (by intro _; rw [decodeWord_lane13 (majorOf_wordLI ..)]; simp [decodeLane13])
theorem RoundTrip.movlN32 vd imm : RoundTrip.Statement (.movlN32 vd imm) :=
  roundTrip_ofThread rfl rfl (by intro _; rw [decodeWord_lane14 (majorOf_wordLI ..)]; simp [decodeLane14])
theorem RoundTrip.movhN32 vd imm : RoundTrip.Statement (.movhN32 vd imm) :=
  roundTrip_ofThread rfl rfl (by intro _; rw [decodeWord_lane14 (majorOf_wordLI ..)]; simp [decodeLane14])
theorem RoundTrip.movI32Imm vd imm : RoundTrip.Statement (.movI32Imm vd imm) :=
  roundTrip_ofThread rfl rfl (by intro _; rw [decodeWord_lane14 (majorOf_wordLI ..)]; simp [decodeLane14])
theorem RoundTrip.movN32Imm vd imm : RoundTrip.Statement (.movN32Imm vd imm) :=
  roundTrip_ofThread rfl rfl (by intro _; rw [decodeWord_lane14 (majorOf_wordLI ..)]; simp [decodeLane14])
theorem RoundTrip.mulI32Imm vd imm : RoundTrip.Statement (.mulI32Imm vd imm) :=
  roundTrip_ofThread rfl rfl (by intro _; rw [decodeWord_lane15 (majorOf_wordLI ..)]; simp [decodeLane15])
theorem RoundTrip.mulI64Imm vd imm : RoundTrip.Statement (.mulI64Imm vd imm) :=
  roundTrip_ofThread rfl rfl (by intro _; rw [decodeWord_lane15 (majorOf_wordLI ..)]; simp [decodeLane15])
theorem RoundTrip.minI32Imm vd imm : RoundTrip.Statement (.minI32Imm vd imm) :=
  roundTrip_ofThread rfl rfl (by intro _; rw [decodeWord_lane16 (majorOf_wordLI ..)]; simp [decodeLane16])
theorem RoundTrip.maxI32Imm vd imm : RoundTrip.Statement (.maxI32Imm vd imm) :=
  roundTrip_ofThread rfl rfl (by intro _; rw [decodeWord_lane16 (majorOf_wordLI ..)]; simp [decodeLane16])
theorem RoundTrip.minN32Imm vd imm : RoundTrip.Statement (.minN32Imm vd imm) :=
  roundTrip_ofThread rfl rfl (by intro _; rw [decodeWord_lane16 (majorOf_wordLI ..)]; simp [decodeLane16])
theorem RoundTrip.maxN32Imm vd imm : RoundTrip.Statement (.maxN32Imm vd imm) :=
  roundTrip_ofThread rfl rfl (by intro _; rw [decodeWord_lane16 (majorOf_wordLI ..)]; simp [decodeLane16])
theorem RoundTrip.faddF32 vd va vb tr : RoundTrip.Statement (.faddF32 vd va vb tr) :=
  roundTrip_ofThread rfl rfl (by intro _; rw [decodeWord_lane18 (majorOf_wordLR ..)]; simp [decodeLane18])
theorem RoundTrip.fsubF32 vd va vb tr : RoundTrip.Statement (.fsubF32 vd va vb tr) :=
  roundTrip_ofThread rfl rfl (by intro _; rw [decodeWord_lane18 (majorOf_wordLR ..)]; simp [decodeLane18])
theorem RoundTrip.fmulF32 vd va vb tr : RoundTrip.Statement (.fmulF32 vd va vb tr) :=
  roundTrip_ofThread rfl rfl (by intro _; rw [decodeWord_lane18 (majorOf_wordLR ..)]; simp [decodeLane18])
theorem RoundTrip.fmaF32 vd va vb tr : RoundTrip.Statement (.fmaF32 vd va vb tr) :=
  roundTrip_ofThread rfl rfl (by intro _; rw [decodeWord_lane19 (majorOf_wordLR ..)]; simp [decodeLane19])
theorem RoundTrip.fmsF32 vd va vb tr : RoundTrip.Statement (.fmsF32 vd va vb tr) :=
  roundTrip_ofThread rfl rfl (by intro _; rw [decodeWord_lane19 (majorOf_wordLR ..)]; simp [decodeLane19])
theorem RoundTrip.fnmaF32 vd va vb tr : RoundTrip.Statement (.fnmaF32 vd va vb tr) :=
  roundTrip_ofThread rfl rfl (by intro _; rw [decodeWord_lane19 (majorOf_wordLR ..)]; simp [decodeLane19])
theorem RoundTrip.fminF32 vd va vb tr : RoundTrip.Statement (.fminF32 vd va vb tr) :=
  roundTrip_ofThread rfl rfl (by intro _; rw [decodeWord_lane19 (majorOf_wordLR ..)]; simp [decodeLane19])
theorem RoundTrip.fmaxF32 vd va vb tr : RoundTrip.Statement (.fmaxF32 vd va vb tr) :=
  roundTrip_ofThread rfl rfl (by intro _; rw [decodeWord_lane19 (majorOf_wordLR ..)]; simp [decodeLane19])
theorem RoundTrip.fcmpF32 pk va vb cc : RoundTrip.Statement (.fcmpF32 pk va vb cc) :=
  roundTrip_ofThread rfl rfl (by intro _; rw [decodeWord_lane1A (majorOf_wordLR ..)]; simp [decodeLane1A])
theorem RoundTrip.faddF64 vd va vb tr : RoundTrip.Statement (.faddF64 vd va vb tr) :=
  roundTrip_ofThread rfl rfl (by intro _; rw [decodeWord_lane1B (majorOf_wordLR ..)]; simp [decodeLane1B])
theorem RoundTrip.fsubF64 vd va vb tr : RoundTrip.Statement (.fsubF64 vd va vb tr) :=
  roundTrip_ofThread rfl rfl (by intro _; rw [decodeWord_lane1B (majorOf_wordLR ..)]; simp [decodeLane1B])
theorem RoundTrip.fmulF64 vd va vb tr : RoundTrip.Statement (.fmulF64 vd va vb tr) :=
  roundTrip_ofThread rfl rfl (by intro _; rw [decodeWord_lane1B (majorOf_wordLR ..)]; simp [decodeLane1B])
theorem RoundTrip.fmaF64 vd va vb tr : RoundTrip.Statement (.fmaF64 vd va vb tr) :=
  roundTrip_ofThread rfl rfl (by intro _; rw [decodeWord_lane1C (majorOf_wordLR ..)]; simp [decodeLane1C])
theorem RoundTrip.fmsF64 vd va vb tr : RoundTrip.Statement (.fmsF64 vd va vb tr) :=
  roundTrip_ofThread rfl rfl (by intro _; rw [decodeWord_lane1C (majorOf_wordLR ..)]; simp [decodeLane1C])
theorem RoundTrip.fnmaF64 vd va vb tr : RoundTrip.Statement (.fnmaF64 vd va vb tr) :=
  roundTrip_ofThread rfl rfl (by intro _; rw [decodeWord_lane1C (majorOf_wordLR ..)]; simp [decodeLane1C])
theorem RoundTrip.fminF64 vd va vb tr : RoundTrip.Statement (.fminF64 vd va vb tr) :=
  roundTrip_ofThread rfl rfl (by intro _; rw [decodeWord_lane1C (majorOf_wordLR ..)]; simp [decodeLane1C])
theorem RoundTrip.fmaxF64 vd va vb tr : RoundTrip.Statement (.fmaxF64 vd va vb tr) :=
  roundTrip_ofThread rfl rfl (by intro _; rw [decodeWord_lane1C (majorOf_wordLR ..)]; simp [decodeLane1C])
theorem RoundTrip.fcmpF64 pk va vb cc : RoundTrip.Statement (.fcmpF64 pk va vb cc) :=
  roundTrip_ofThread rfl rfl (by intro _; rw [decodeWord_lane1D (majorOf_wordLR ..)]; simp [decodeLane1D])
theorem RoundTrip.faddF16 vd va vb tr : RoundTrip.Statement (.faddF16 vd va vb tr) :=
  roundTrip_ofThread rfl rfl (by intro _; rw [decodeWord_lane1E (majorOf_wordLR ..)]; simp [decodeLane1E])
theorem RoundTrip.fmulF16 vd va vb tr : RoundTrip.Statement (.fmulF16 vd va vb tr) :=
  roundTrip_ofThread rfl rfl (by intro _; rw [decodeWord_lane1E (majorOf_wordLR ..)]; simp [decodeLane1E])
theorem RoundTrip.fmaF16 vd va vb tr : RoundTrip.Statement (.fmaF16 vd va vb tr) :=
  roundTrip_ofThread rfl rfl (by intro _; rw [decodeWord_lane1E (majorOf_wordLR ..)]; simp [decodeLane1E])
theorem RoundTrip.faddBf16 vd va vb tr : RoundTrip.Statement (.faddBf16 vd va vb tr) :=
  roundTrip_ofThread rfl rfl (by intro _; rw [decodeWord_lane1E (majorOf_wordLR ..)]; simp [decodeLane1E])
theorem RoundTrip.fmulBf16 vd va vb tr : RoundTrip.Statement (.fmulBf16 vd va vb tr) :=
  roundTrip_ofThread rfl rfl (by intro _; rw [decodeWord_lane1E (majorOf_wordLR ..)]; simp [decodeLane1E])
theorem RoundTrip.fmaBf16 vd va vb tr : RoundTrip.Statement (.fmaBf16 vd va vb tr) :=
  roundTrip_ofThread rfl rfl (by intro _; rw [decodeWord_lane1E (majorOf_wordLR ..)]; simp [decodeLane1E])
theorem RoundTrip.fmaxF16 vd va vb tr : RoundTrip.Statement (.fmaxF16 vd va vb tr) :=
  roundTrip_ofThread rfl rfl (by intro _; rw [decodeWord_lane1E (majorOf_wordLR ..)]; simp [decodeLane1E])
theorem RoundTrip.fmaxBf16 vd va vb tr : RoundTrip.Statement (.fmaxBf16 vd va vb tr) :=
  roundTrip_ofThread rfl rfl (by intro _; rw [decodeWord_lane1E (majorOf_wordLR ..)]; simp [decodeLane1E])
theorem RoundTrip.faddE4m3 vd va vb tr : RoundTrip.Statement (.faddE4m3 vd va vb tr) :=
  roundTrip_ofThread rfl rfl (by intro _; rw [decodeWord_lane1F (majorOf_wordLR ..)]; simp [decodeLane1F])
theorem RoundTrip.fmulE4m3 vd va vb tr : RoundTrip.Statement (.fmulE4m3 vd va vb tr) :=
  roundTrip_ofThread rfl rfl (by intro _; rw [decodeWord_lane1F (majorOf_wordLR ..)]; simp [decodeLane1F])
theorem RoundTrip.faddE5m2 vd va vb tr : RoundTrip.Statement (.faddE5m2 vd va vb tr) :=
  roundTrip_ofThread rfl rfl (by intro _; rw [decodeWord_lane1F (majorOf_wordLR ..)]; simp [decodeLane1F])
theorem RoundTrip.fmulE5m2 vd va vb tr : RoundTrip.Statement (.fmulE5m2 vd va vb tr) :=
  roundTrip_ofThread rfl rfl (by intro _; rw [decodeWord_lane1F (majorOf_wordLR ..)]; simp [decodeLane1F])
theorem RoundTrip.fdotF32E4m3 vd va vb tr : RoundTrip.Statement (.fdotF32E4m3 vd va vb tr) :=
  roundTrip_ofThread rfl rfl (by intro _; rw [decodeWord_lane1F (majorOf_wordLR ..)]; simp [decodeLane1F])
theorem RoundTrip.fdotF32E5m2 vd va vb tr : RoundTrip.Statement (.fdotF32E5m2 vd va vb tr) :=
  roundTrip_ofThread rfl rfl (by intro _; rw [decodeWord_lane1F (majorOf_wordLR ..)]; simp [decodeLane1F])
theorem RoundTrip.cvtF16E4m3 vd va tr : RoundTrip.Statement (.cvtF16E4m3 vd va tr) :=
  roundTrip_ofThread rfl rfl (by intro _; rw [decodeWord_lane1F (majorOf_wordLR ..)]; simp [decodeLane1F])
theorem RoundTrip.cvtF16E5m2 vd va tr : RoundTrip.Statement (.cvtF16E5m2 vd va tr) :=
  roundTrip_ofThread rfl rfl (by intro _; rw [decodeWord_lane1F (majorOf_wordLR ..)]; simp [decodeLane1F])
theorem RoundTrip.fdivF32 vd va vb tr : RoundTrip.Statement (.fdivF32 vd va vb tr) :=
  roundTrip_ofThread rfl rfl (by intro _; rw [decodeWord_lane20 (majorOf_wordLR ..)]; simp [decodeLane20])
theorem RoundTrip.fsqrtF32 vd va tr : RoundTrip.Statement (.fsqrtF32 vd va tr) :=
  roundTrip_ofThread rfl rfl (by intro _; rw [decodeWord_lane20 (majorOf_wordLR ..)]; simp [decodeLane20])
theorem RoundTrip.rcpF32 vd va tr : RoundTrip.Statement (.rcpF32 vd va tr) :=
  roundTrip_ofThread rfl rfl (by intro _; rw [decodeWord_lane20 (majorOf_wordLR ..)]; simp [decodeLane20])
theorem RoundTrip.rsqrtF32 vd va tr : RoundTrip.Statement (.rsqrtF32 vd va tr) :=
  roundTrip_ofThread rfl rfl (by intro _; rw [decodeWord_lane20 (majorOf_wordLR ..)]; simp [decodeLane20])
theorem RoundTrip.exp2F32 vd va tr : RoundTrip.Statement (.exp2F32 vd va tr) :=
  roundTrip_ofThread rfl rfl (by intro _; rw [decodeWord_lane20 (majorOf_wordLR ..)]; simp [decodeLane20])
theorem RoundTrip.log2F32 vd va tr : RoundTrip.Statement (.log2F32 vd va tr) :=
  roundTrip_ofThread rfl rfl (by intro _; rw [decodeWord_lane20 (majorOf_wordLR ..)]; simp [decodeLane20])
theorem RoundTrip.sinpiF32 vd va tr : RoundTrip.Statement (.sinpiF32 vd va tr) :=
  roundTrip_ofThread rfl rfl (by intro _; rw [decodeWord_lane20 (majorOf_wordLR ..)]; simp [decodeLane20])
theorem RoundTrip.cospiF32 vd va tr : RoundTrip.Statement (.cospiF32 vd va tr) :=
  roundTrip_ofThread rfl rfl (by intro _; rw [decodeWord_lane20 (majorOf_wordLR ..)]; simp [decodeLane20])
theorem RoundTrip.fdivF64 vd va vb tr : RoundTrip.Statement (.fdivF64 vd va vb tr) :=
  roundTrip_ofThread rfl rfl (by intro _; rw [decodeWord_lane21 (majorOf_wordLR ..)]; simp [decodeLane21])
theorem RoundTrip.fsqrtF64 vd va tr : RoundTrip.Statement (.fsqrtF64 vd va tr) :=
  roundTrip_ofThread rfl rfl (by intro _; rw [decodeWord_lane21 (majorOf_wordLR ..)]; simp [decodeLane21])
theorem RoundTrip.fabsF32 vd va tr : RoundTrip.Statement (.fabsF32 vd va tr) :=
  roundTrip_ofThread rfl rfl (by intro _; rw [decodeWord_lane22 (majorOf_wordLR ..)]; simp [decodeLane22])
theorem RoundTrip.fnegF32 vd va tr : RoundTrip.Statement (.fnegF32 vd va tr) :=
  roundTrip_ofThread rfl rfl (by intro _; rw [decodeWord_lane22 (majorOf_wordLR ..)]; simp [decodeLane22])
theorem RoundTrip.fcopysignF32 vd va vb tr : RoundTrip.Statement (.fcopysignF32 vd va vb tr) :=
  roundTrip_ofThread rfl rfl (by intro _; rw [decodeWord_lane22 (majorOf_wordLR ..)]; simp [decodeLane22])
theorem RoundTrip.fclassF32 vd va tr : RoundTrip.Statement (.fclassF32 vd va tr) :=
  roundTrip_ofThread rfl rfl (by intro _; rw [decodeWord_lane22 (majorOf_wordLR ..)]; simp [decodeLane22])
theorem RoundTrip.fabsF64 vd va tr : RoundTrip.Statement (.fabsF64 vd va tr) :=
  roundTrip_ofThread rfl rfl (by intro _; rw [decodeWord_lane22 (majorOf_wordLR ..)]; simp [decodeLane22])
theorem RoundTrip.fnegF64 vd va tr : RoundTrip.Statement (.fnegF64 vd va tr) :=
  roundTrip_ofThread rfl rfl (by intro _; rw [decodeWord_lane22 (majorOf_wordLR ..)]; simp [decodeLane22])
theorem RoundTrip.fcopysignF64 vd va vb tr : RoundTrip.Statement (.fcopysignF64 vd va vb tr) :=
  roundTrip_ofThread rfl rfl (by intro _; rw [decodeWord_lane22 (majorOf_wordLR ..)]; simp [decodeLane22])
theorem RoundTrip.fclassF64 vd va tr : RoundTrip.Statement (.fclassF64 vd va tr) :=
  roundTrip_ofThread rfl rfl (by intro _; rw [decodeWord_lane22 (majorOf_wordLR ..)]; simp [decodeLane22])
theorem RoundTrip.faddF32Imm vd imm : RoundTrip.Statement (.faddF32Imm vd imm) :=
  roundTrip_ofThread rfl rfl (by intro _; rw [decodeWord_lane24 (majorOf_wordLI ..)]; simp [decodeLane24])
theorem RoundTrip.fmulF32Imm vd imm : RoundTrip.Statement (.fmulF32Imm vd imm) :=
  roundTrip_ofThread rfl rfl (by intro _; rw [decodeWord_lane24 (majorOf_wordLI ..)]; simp [decodeLane24])
theorem RoundTrip.fmaxF32Imm vd imm : RoundTrip.Statement (.fmaxF32Imm vd imm) :=
  roundTrip_ofThread rfl rfl (by intro _; rw [decodeWord_lane24 (majorOf_wordLI ..)]; simp [decodeLane24])
theorem RoundTrip.fminF32Imm vd imm : RoundTrip.Statement (.fminF32Imm vd imm) :=
  roundTrip_ofThread rfl rfl (by intro _; rw [decodeWord_lane24 (majorOf_wordLI ..)]; simp [decodeLane24])
theorem RoundTrip.faddF64Imm vd imm : RoundTrip.Statement (.faddF64Imm vd imm) :=
  roundTrip_ofThread rfl rfl (by intro _; rw [decodeWord_lane25 (majorOf_wordLI ..)]; simp [decodeLane25])
theorem RoundTrip.fmulF64Imm vd imm : RoundTrip.Statement (.fmulF64Imm vd imm) :=
  roundTrip_ofThread rfl rfl (by intro _; rw [decodeWord_lane25 (majorOf_wordLI ..)]; simp [decodeLane25])
theorem RoundTrip.fmaxF64Imm vd imm : RoundTrip.Statement (.fmaxF64Imm vd imm) :=
  roundTrip_ofThread rfl rfl (by intro _; rw [decodeWord_lane25 (majorOf_wordLI ..)]; simp [decodeLane25])
theorem RoundTrip.fminF64Imm vd imm : RoundTrip.Statement (.fminF64Imm vd imm) :=
  roundTrip_ofThread rfl rfl (by intro _; rw [decodeWord_lane25 (majorOf_wordLI ..)]; simp [decodeLane25])
theorem RoundTrip.fmulF16Imm vd imm : RoundTrip.Statement (.fmulF16Imm vd imm) :=
  roundTrip_ofThread rfl rfl (by intro _; rw [decodeWord_lane26 (majorOf_wordLI ..)]; simp [decodeLane26])
theorem RoundTrip.fmulBf16Imm vd imm : RoundTrip.Statement (.fmulBf16Imm vd imm) :=
  roundTrip_ofThread rfl rfl (by intro _; rw [decodeWord_lane26 (majorOf_wordLI ..)]; simp [decodeLane26])
theorem RoundTrip.fmulE4m3Imm vd imm : RoundTrip.Statement (.fmulE4m3Imm vd imm) :=
  roundTrip_ofThread rfl rfl (by intro _; rw [decodeWord_lane26 (majorOf_wordLI ..)]; simp [decodeLane26])
theorem RoundTrip.fmulE5m2Imm vd imm : RoundTrip.Statement (.fmulE5m2Imm vd imm) :=
  roundTrip_ofThread rfl rfl (by intro _; rw [decodeWord_lane26 (majorOf_wordLI ..)]; simp [decodeLane26])
theorem RoundTrip.cvtF32I32 vd va tr : RoundTrip.Statement (.cvtF32I32 vd va tr) :=
  roundTrip_ofThread rfl rfl (by intro _; rw [decodeWord_lane28 (majorOf_wordLR ..)]; simp [decodeLane28])
theorem RoundTrip.cvtF32N32 vd va tr : RoundTrip.Statement (.cvtF32N32 vd va tr) :=
  roundTrip_ofThread rfl rfl (by intro _; rw [decodeWord_lane28 (majorOf_wordLR ..)]; simp [decodeLane28])
theorem RoundTrip.cvtI32F32 vd va tr : RoundTrip.Statement (.cvtI32F32 vd va tr) :=
  roundTrip_ofThread rfl rfl (by intro _; rw [decodeWord_lane28 (majorOf_wordLR ..)]; simp [decodeLane28])
theorem RoundTrip.cvtN32F32 vd va tr : RoundTrip.Statement (.cvtN32F32 vd va tr) :=
  roundTrip_ofThread rfl rfl (by intro _; rw [decodeWord_lane28 (majorOf_wordLR ..)]; simp [decodeLane28])
theorem RoundTrip.cvtF64I64 vd va tr : RoundTrip.Statement (.cvtF64I64 vd va tr) :=
  roundTrip_ofThread rfl rfl (by intro _; rw [decodeWord_lane28 (majorOf_wordLR ..)]; simp [decodeLane28])
theorem RoundTrip.cvtI64F64 vd va tr : RoundTrip.Statement (.cvtI64F64 vd va tr) :=
  roundTrip_ofThread rfl rfl (by intro _; rw [decodeWord_lane28 (majorOf_wordLR ..)]; simp [decodeLane28])
theorem RoundTrip.cvtF64I32 vd va tr : RoundTrip.Statement (.cvtF64I32 vd va tr) :=
  roundTrip_ofThread rfl rfl (by intro _; rw [decodeWord_lane28 (majorOf_wordLR ..)]; simp [decodeLane28])
theorem RoundTrip.cvtI32F64 vd va tr : RoundTrip.Statement (.cvtI32F64 vd va tr) :=
  roundTrip_ofThread rfl rfl (by intro _; rw [decodeWord_lane28 (majorOf_wordLR ..)]; simp [decodeLane28])
theorem RoundTrip.cvtF64F32 vd va tr : RoundTrip.Statement (.cvtF64F32 vd va tr) :=
  roundTrip_ofThread rfl rfl (by intro _; rw [decodeWord_lane29 (majorOf_wordLR ..)]; simp [decodeLane29])
theorem RoundTrip.cvtF32F64 vd va tr : RoundTrip.Statement (.cvtF32F64 vd va tr) :=
  roundTrip_ofThread rfl rfl (by intro _; rw [decodeWord_lane29 (majorOf_wordLR ..)]; simp [decodeLane29])
theorem RoundTrip.cvtF32F16 vd va tr : RoundTrip.Statement (.cvtF32F16 vd va tr) :=
  roundTrip_ofThread rfl rfl (by intro _; rw [decodeWord_lane29 (majorOf_wordLR ..)]; simp [decodeLane29])
theorem RoundTrip.cvtF16F32 vd va tr : RoundTrip.Statement (.cvtF16F32 vd va tr) :=
  roundTrip_ofThread rfl rfl (by intro _; rw [decodeWord_lane29 (majorOf_wordLR ..)]; simp [decodeLane29])
theorem RoundTrip.cvtF32Bf16 vd va tr : RoundTrip.Statement (.cvtF32Bf16 vd va tr) :=
  roundTrip_ofThread rfl rfl (by intro _; rw [decodeWord_lane29 (majorOf_wordLR ..)]; simp [decodeLane29])
theorem RoundTrip.cvtBf16F32 vd va tr : RoundTrip.Statement (.cvtBf16F32 vd va tr) :=
  roundTrip_ofThread rfl rfl (by intro _; rw [decodeWord_lane29 (majorOf_wordLR ..)]; simp [decodeLane29])
theorem RoundTrip.cvtE4m3F32 vd va vb tr : RoundTrip.Statement (.cvtE4m3F32 vd va vb tr) :=
  roundTrip_ofThread rfl rfl (by intro _; rw [decodeWord_lane29 (majorOf_wordLR ..)]; simp [decodeLane29])
theorem RoundTrip.cvtE5m2F32 vd va vb tr : RoundTrip.Statement (.cvtE5m2F32 vd va vb tr) :=
  roundTrip_ofThread rfl rfl (by intro _; rw [decodeWord_lane29 (majorOf_wordLR ..)]; simp [decodeLane29])
theorem RoundTrip.cvtSx2F32 vd va : RoundTrip.Statement (.cvtSx2F32 vd va) :=
  roundTrip_ofThread rfl rfl (by intro _; rw [decodeWord_lane2A (majorOf_wordLR ..)]; simp [decodeLane2A])
theorem RoundTrip.cvtSx4F32 vd va : RoundTrip.Statement (.cvtSx4F32 vd va) :=
  roundTrip_ofThread rfl rfl (by intro _; rw [decodeWord_lane2A (majorOf_wordLR ..)]; simp [decodeLane2A])
theorem RoundTrip.cvtSx7F32 vd va : RoundTrip.Statement (.cvtSx7F32 vd va) :=
  roundTrip_ofThread rfl rfl (by intro _; rw [decodeWord_lane2A (majorOf_wordLR ..)]; simp [decodeLane2A])
theorem RoundTrip.cvtF32Sx2 vd va : RoundTrip.Statement (.cvtF32Sx2 vd va) :=
  roundTrip_ofThread rfl rfl (by intro _; rw [decodeWord_lane2A (majorOf_wordLR ..)]; simp [decodeLane2A])
theorem RoundTrip.cvtF32Sx4 vd va : RoundTrip.Statement (.cvtF32Sx4 vd va) :=
  roundTrip_ofThread rfl rfl (by intro _; rw [decodeWord_lane2A (majorOf_wordLR ..)]; simp [decodeLane2A])
theorem RoundTrip.cvtF32Sx7 vd va : RoundTrip.Statement (.cvtF32Sx7 vd va) :=
  roundTrip_ofThread rfl rfl (by intro _; rw [decodeWord_lane2A (majorOf_wordLR ..)]; simp [decodeLane2A])
theorem RoundTrip.xlIdxN32 vd va vb tr : RoundTrip.Statement (.xlIdxN32 vd va vb tr) :=
  roundTrip_ofThread rfl rfl (by intro _; rw [decodeWord_lane2B (majorOf_wordLR ..)]; simp [decodeLane2B])
theorem RoundTrip.xlXorN32 vd va vb tr : RoundTrip.Statement (.xlXorN32 vd va vb tr) :=
  roundTrip_ofThread rfl rfl (by intro _; rw [decodeWord_lane2B (majorOf_wordLR ..)]; simp [decodeLane2B])
theorem RoundTrip.xlUpN32 vd va vb tr : RoundTrip.Statement (.xlUpN32 vd va vb tr) :=
  roundTrip_ofThread rfl rfl (by intro _; rw [decodeWord_lane2B (majorOf_wordLR ..)]; simp [decodeLane2B])
theorem RoundTrip.xlDownN32 vd va vb tr : RoundTrip.Statement (.xlDownN32 vd va vb tr) :=
  roundTrip_ofThread rfl rfl (by intro _; rw [decodeWord_lane2B (majorOf_wordLR ..)]; simp [decodeLane2B])
theorem RoundTrip.xlIdxN64 vd va vb tr : RoundTrip.Statement (.xlIdxN64 vd va vb tr) :=
  roundTrip_ofThread rfl rfl (by intro _; rw [decodeWord_lane2B (majorOf_wordLR ..)]; simp [decodeLane2B])
theorem RoundTrip.xlBallotN64 vd pk tr : RoundTrip.Statement (.xlBallotN64 vd pk tr) :=
  roundTrip_ofThread rfl rfl (by intro _; rw [decodeWord_lane2B (majorOf_wordLR ..)]; simp [decodeLane2B])
theorem RoundTrip.xlAddI32 vd va tr : RoundTrip.Statement (.xlAddI32 vd va tr) :=
  roundTrip_ofThread rfl rfl (by intro _; rw [decodeWord_lane2B (majorOf_wordLR ..)]; simp [decodeLane2B])
theorem RoundTrip.ldStk vd sz va la off : RoundTrip.Statement (.ldStk vd sz va la off) :=
  roundTrip_ofThread rfl rfl (by intro _; rw [decodeWord_lane2C (majorOf_wordLM ..)]; simp [decodeLane2C])
theorem RoundTrip.stStk vs sz va off : RoundTrip.Statement (.stStk vs sz va off) :=
  roundTrip_ofThread rfl rfl (by intro _; rw [decodeWord_lane2C (majorOf_wordLM ..)]; simp [decodeLane2C])
theorem RoundTrip.ldSh vd sz va la off : RoundTrip.Statement (.ldSh vd sz va la off) :=
  roundTrip_ofThread rfl rfl (by intro _; rw [decodeWord_lane2D (majorOf_wordLM ..)]; simp [decodeLane2D])
theorem RoundTrip.stSh vs sz va off : RoundTrip.Statement (.stSh vs sz va off) :=
  roundTrip_ofThread rfl rfl (by intro _; rw [decodeWord_lane2D (majorOf_wordLM ..)]; simp [decodeLane2D])
theorem RoundTrip.ldDie vd sz va la off : RoundTrip.Statement (.ldDie vd sz va la off) :=
  roundTrip_ofThread rfl rfl (by intro _; rw [decodeWord_lane2E (majorOf_wordLM ..)]; simp [decodeLane2E])
theorem RoundTrip.stDie vs sz va off : RoundTrip.Statement (.stDie vs sz va off) :=
  roundTrip_ofThread rfl rfl (by intro _; rw [decodeWord_lane2E (majorOf_wordLM ..)]; simp [decodeLane2E])
theorem RoundTrip.ldFl vd sz va la off : RoundTrip.Statement (.ldFl vd sz va la off) :=
  roundTrip_ofThread rfl rfl (by intro _; rw [decodeWord_lane2F (majorOf_wordLM ..)]; simp [decodeLane2F])
theorem RoundTrip.stFl vs sz va off : RoundTrip.Statement (.stFl vs sz va off) :=
  roundTrip_ofThread rfl rfl (by intro _; rw [decodeWord_lane2F (majorOf_wordLM ..)]; simp [decodeLane2F])
theorem RoundTrip.ldAcq vd va la sp sz : RoundTrip.Statement (.ldAcq vd va la sp sz) :=
  roundTrip_ofThread rfl rfl (by intro h; simp [Instr.wellFormed] at h; rw [decodeWord_lane30 (majorOf_wordLO ..)]; simp_all [decodeLane30])
theorem RoundTrip.stRel vs va sp sz : RoundTrip.Statement (.stRel vs va sp sz) :=
  roundTrip_ofThread rfl rfl (by intro h; simp [Instr.wellFormed] at h; rw [decodeWord_lane30 (majorOf_wordLO ..)]; simp_all [decodeLane30])
theorem RoundTrip.stNt vs va sp sz : RoundTrip.Statement (.stNt vs va sp sz) :=
  roundTrip_ofThread rfl rfl (by intro h; simp [Instr.wellFormed] at h; rw [decodeWord_lane30 (majorOf_wordLO ..)]; simp_all [decodeLane30])
theorem RoundTrip.atomAdd vd va sz ord la sp : RoundTrip.Statement (.atomAdd vd va sz ord la sp) :=
  roundTrip_ofThread rfl rfl (by intro h; simp [Instr.wellFormed] at h; rw [decodeWord_lane31 (majorOf_wordLA ..)]; simp_all [decodeLane31])
theorem RoundTrip.atomAnd vd va sz ord la sp : RoundTrip.Statement (.atomAnd vd va sz ord la sp) :=
  roundTrip_ofThread rfl rfl (by intro h; simp [Instr.wellFormed] at h; rw [decodeWord_lane31 (majorOf_wordLA ..)]; simp_all [decodeLane31])
theorem RoundTrip.atomOr vd va sz ord la sp : RoundTrip.Statement (.atomOr vd va sz ord la sp) :=
  roundTrip_ofThread rfl rfl (by intro h; simp [Instr.wellFormed] at h; rw [decodeWord_lane31 (majorOf_wordLA ..)]; simp_all [decodeLane31])
theorem RoundTrip.atomXor vd va sz ord la sp : RoundTrip.Statement (.atomXor vd va sz ord la sp) :=
  roundTrip_ofThread rfl rfl (by intro h; simp [Instr.wellFormed] at h; rw [decodeWord_lane31 (majorOf_wordLA ..)]; simp_all [decodeLane31])
theorem RoundTrip.atomMinI vd va sz ord la sp : RoundTrip.Statement (.atomMinI vd va sz ord la sp) :=
  roundTrip_ofThread rfl rfl (by intro h; simp [Instr.wellFormed] at h; rw [decodeWord_lane31 (majorOf_wordLA ..)]; simp_all [decodeLane31])
theorem RoundTrip.atomMaxI vd va sz ord la sp : RoundTrip.Statement (.atomMaxI vd va sz ord la sp) :=
  roundTrip_ofThread rfl rfl (by intro h; simp [Instr.wellFormed] at h; rw [decodeWord_lane31 (majorOf_wordLA ..)]; simp_all [decodeLane31])
theorem RoundTrip.atomMinN vd va sz ord la sp : RoundTrip.Statement (.atomMinN vd va sz ord la sp) :=
  roundTrip_ofThread rfl rfl (by intro h; simp [Instr.wellFormed] at h; rw [decodeWord_lane31 (majorOf_wordLA ..)]; simp_all [decodeLane31])
theorem RoundTrip.atomMaxN vd va sz ord la sp : RoundTrip.Statement (.atomMaxN vd va sz ord la sp) :=
  roundTrip_ofThread rfl rfl (by intro h; simp [Instr.wellFormed] at h; rw [decodeWord_lane31 (majorOf_wordLA ..)]; simp_all [decodeLane31])
theorem RoundTrip.atomExch vd va sz ord la sp : RoundTrip.Statement (.atomExch vd va sz ord la sp) :=
  roundTrip_ofThread rfl rfl (by intro h; simp [Instr.wellFormed] at h; rw [decodeWord_lane31 (majorOf_wordLA ..)]; simp_all [decodeLane31])
theorem RoundTrip.atomCas vd va sz ord la sp : RoundTrip.Statement (.atomCas vd va sz ord la sp) :=
  roundTrip_ofThread rfl rfl (by intro h; simp [Instr.wellFormed] at h; rw [decodeWord_lane31 (majorOf_wordLA ..)]; simp_all [decodeLane31])
theorem RoundTrip.br cc off : RoundTrip.Statement (.br cc off) :=
  roundTrip_ofThread rfl rfl (by intro h; simp [Instr.wellFormed] at h; rw [decodeWord_lane32 (majorOf_wordLB ..)]; simp_all [decodeLane32])
theorem RoundTrip.call off : RoundTrip.Statement (.call off) :=
  roundTrip_ofThread rfl rfl (by intro _; rw [decodeWord_lane32 (majorOf_wordLB ..)]; simp [decodeLane32])
theorem RoundTrip.loopBr cc off : RoundTrip.Statement (.loopBr cc off) :=
  roundTrip_ofThread rfl rfl (by intro h; simp [Instr.wellFormed] at h; rw [decodeWord_lane33 (majorOf_wordLB ..)]; simp_all [decodeLane33])
theorem RoundTrip.nop : RoundTrip.Statement (.nop) :=
  roundTrip_ofThread rfl rfl (by intro _; rw [decodeWord_lane34 (majorOf_wordLX ..)]; simp [decodeLane34])
theorem RoundTrip.ret : RoundTrip.Statement (.ret) :=
  roundTrip_ofThread rfl rfl (by intro _; rw [decodeWord_lane34 (majorOf_wordLX ..)]; simp [decodeLane34])
theorem RoundTrip.brInd va : RoundTrip.Statement (.brInd va) :=
  roundTrip_ofThread rfl rfl (by intro _; rw [decodeWord_lane34 (majorOf_wordLX ..)]; simp [decodeLane34])
theorem RoundTrip.callInd va : RoundTrip.Statement (.callInd va) :=
  roundTrip_ofThread rfl rfl (by intro _; rw [decodeWord_lane34 (majorOf_wordLX ..)]; simp [decodeLane34])
theorem RoundTrip.rgn hi lo : RoundTrip.Statement (.rgn hi lo) :=
  roundTrip_ofThread rfl rfl (by intro _; rw [decodeWord_lane34 (majorOf_wordLX ..)]; simp [decodeLane34])
theorem RoundTrip.ixSet va k : RoundTrip.Statement (.ixSet va k) :=
  roundTrip_ofThread rfl rfl (by intro _; rw [decodeWord_lane34 (majorOf_wordLX ..)]; simp [decodeLane34])
theorem RoundTrip.ixGet vd k la : RoundTrip.Statement (.ixGet vd k la) :=
  roundTrip_ofThread rfl rfl (by intro _; rw [decodeWord_lane34 (majorOf_wordLX ..)]; simp [decodeLane34])
theorem RoundTrip.rotSet vB size : RoundTrip.Statement (.rotSet vB size) :=
  roundTrip_ofThread rfl rfl (by intro _; rw [decodeWord_lane34 (majorOf_wordLX ..)]; simp [decodeLane34])
theorem RoundTrip.fence sc : RoundTrip.Statement (.fence sc) :=
  roundTrip_ofThread rfl rfl (by intro h; simp [Instr.wellFormed] at h; rw [decodeWord_lane34 (majorOf_wordLX ..)]; simp_all [decodeLane34])
theorem RoundTrip.ntDrain : RoundTrip.Statement (.ntDrain) :=
  roundTrip_ofThread rfl rfl (by intro _; rw [decodeWord_lane34 (majorOf_wordLX ..)]; simp [decodeLane34])
theorem RoundTrip.srRd vd sr la : RoundTrip.Statement (.srRd vd sr la) :=
  roundTrip_ofThread rfl rfl (by intro h; simp [Instr.wellFormed] at h; rw [decodeWord_lane34 (majorOf_wordLX ..)]; simp_all [decodeLane34])
theorem RoundTrip.spGet vd la : RoundTrip.Statement (.spGet vd la) :=
  roundTrip_ofThread rfl rfl (by intro _; rw [decodeWord_lane34 (majorOf_wordLX ..)]; simp [decodeLane34])
theorem RoundTrip.spSet va : RoundTrip.Statement (.spSet va) :=
  roundTrip_ofThread rfl rfl (by intro _; rw [decodeWord_lane34 (majorOf_wordLX ..)]; simp [decodeLane34])
theorem RoundTrip.tbJoin k : RoundTrip.Statement (.tbJoin k) :=
  roundTrip_ofThread rfl rfl (by intro _; rw [decodeWord_lane3B (majorOf_wordLX ..)]; simp [decodeLane3B])
theorem RoundTrip.tbSign k vd la : RoundTrip.Statement (.tbSign k vd la) :=
  roundTrip_ofThread rfl rfl (by intro _; rw [decodeWord_lane3B (majorOf_wordLX ..)]; simp [decodeLane3B])
theorem RoundTrip.tbWait k va : RoundTrip.Statement (.tbWait k va) :=
  roundTrip_ofThread rfl rfl (by intro _; rw [decodeWord_lane3B (majorOf_wordLX ..)]; simp [decodeLane3B])
theorem RoundTrip.weld k : RoundTrip.Statement (.weld k) :=
  roundTrip_ofThread rfl rfl (by intro _; rw [decodeWord_lane3B (majorOf_wordLX ..)]; simp [decodeLane3B])
theorem RoundTrip.ltArrive va : RoundTrip.Statement (.ltArrive va) :=
  roundTrip_ofThread rfl rfl (by intro _; rw [decodeWord_lane3B (majorOf_wordLX ..)]; simp [decodeLane3B])
theorem RoundTrip.ltWait va ph : RoundTrip.Statement (.ltWait va ph) :=
  roundTrip_ofThread rfl rfl (by intro _; rw [decodeWord_lane3B (majorOf_wordLX ..)]; simp [decodeLane3B])
theorem RoundTrip.ltPhase va vd la : RoundTrip.Statement (.ltPhase va vd la) :=
  roundTrip_ofThread rfl rfl (by intro _; rw [decodeWord_lane3B (majorOf_wordLX ..)]; simp [decodeLane3B])
theorem RoundTrip.tlWait va sc k : RoundTrip.Statement (.tlWait va sc k) :=
  roundTrip_ofThread rfl rfl (by intro h; simp [Instr.wellFormed] at h; rw [decodeWord_lane3B (majorOf_wordLX ..)]; simp_all [decodeLane3B])
theorem RoundTrip.tlRd vd k la : RoundTrip.Statement (.tlRd vd k la) :=
  roundTrip_ofThread rfl rfl (by intro _; rw [decodeWord_lane3B (majorOf_wordLX ..)]; simp [decodeLane3B])
theorem RoundTrip.barCrew : RoundTrip.Statement (.barCrew) :=
  roundTrip_ofThread rfl rfl (by intro _; rw [decodeWord_lane3B (majorOf_wordLX ..)]; simp [decodeLane3B])
theorem RoundTrip.unjoin m0 m1 m2 : RoundTrip.Statement (.unjoin m0 m1 m2) :=
  roundTrip_ofThread rfl rfl (by
    intro _; rw [decodeWord_lane3B (majorOf_wordLX ..)]
    obtain rfl | rfl | rfl | rfl := two_cases m2 <;> simp [decodeLane3B])
theorem RoundTrip.endThread : RoundTrip.Statement (.endThread) :=
  roundTrip_ofThread rfl rfl (by intro _; rw [decodeWord_lane3C (majorOf_wordLX ..)]; simp [decodeLane3C])
theorem RoundTrip.trap hi lo : RoundTrip.Statement (.trap hi lo) :=
  roundTrip_ofThread rfl rfl (by intro _; rw [decodeWord_lane3C (majorOf_wordLX ..)]; simp [decodeLane3C])
theorem RoundTrip.tret : RoundTrip.Statement (.tret) :=
  roundTrip_ofThread rfl rfl (by intro _; rw [decodeWord_lane3C (majorOf_wordLX ..)]; simp [decodeLane3C])
theorem RoundTrip.cpT va vb k : RoundTrip.Statement (.cpT va vb k) :=
  roundTrip_ofThread rfl rfl (by intro _; rw [decodeWord_lane37 (majorOf_wordLX ..)]; simp [decodeLane37])
theorem RoundTrip.cpWait k : RoundTrip.Statement (.cpWait k) :=
  roundTrip_ofThread rfl rfl (by intro _; rw [decodeWord_lane37 (majorOf_wordLX ..)]; simp [decodeLane37])
theorem RoundTrip.cpCnt vd k la : RoundTrip.Statement (.cpCnt vd k la) :=
  roundTrip_ofThread rfl rfl (by intro _; rw [decodeWord_lane37 (majorOf_wordLX ..)]; simp [decodeLane37])
theorem RoundTrip.cpWaitAll : RoundTrip.Statement (.cpWaitAll) :=
  roundTrip_ofThread rfl rfl (by intro _; rw [decodeWord_lane37 (majorOf_wordLX ..)]; simp [decodeLane37])
theorem RoundTrip.kick va : RoundTrip.Statement (.kick va) :=
  roundTrip_ofThread rfl rfl (by intro _; rw [decodeWord_lane37 (majorOf_wordLX ..)]; simp [decodeLane37])
theorem RoundTrip.kickN vd va la : RoundTrip.Statement (.kickN vd va la) :=
  roundTrip_ofThread rfl rfl (by intro _; rw [decodeWord_lane37 (majorOf_wordLX ..)]; simp [decodeLane37])
theorem RoundTrip.atomFarAdd vd ord pr la sz sc : RoundTrip.Statement (.atomFarAdd vd ord pr la sz sc) :=
  roundTrip_ofThread rfl rfl (by
    intro _; rw [decodeWord_lane37 (majorOf_wordLX ..)]
    obtain rfl | rfl := bit_cases sz <;> obtain rfl | rfl := bit_cases sc <;> simp [decodeLane37])
theorem RoundTrip.atomFarAnd vd ord pr la sz sc : RoundTrip.Statement (.atomFarAnd vd ord pr la sz sc) :=
  roundTrip_ofThread rfl rfl (by
    intro _; rw [decodeWord_lane37 (majorOf_wordLX ..)]
    obtain rfl | rfl := bit_cases sz <;> obtain rfl | rfl := bit_cases sc <;> simp [decodeLane37])
theorem RoundTrip.atomFarOr vd ord pr la sz sc : RoundTrip.Statement (.atomFarOr vd ord pr la sz sc) :=
  roundTrip_ofThread rfl rfl (by
    intro _; rw [decodeWord_lane37 (majorOf_wordLX ..)]
    obtain rfl | rfl := bit_cases sz <;> obtain rfl | rfl := bit_cases sc <;> simp [decodeLane37])
theorem RoundTrip.atomFarXor vd ord pr la sz sc : RoundTrip.Statement (.atomFarXor vd ord pr la sz sc) :=
  roundTrip_ofThread rfl rfl (by
    intro _; rw [decodeWord_lane37 (majorOf_wordLX ..)]
    obtain rfl | rfl := bit_cases sz <;> obtain rfl | rfl := bit_cases sc <;> simp [decodeLane37])
theorem RoundTrip.atomFarMinI vd ord pr la sz sc : RoundTrip.Statement (.atomFarMinI vd ord pr la sz sc) :=
  roundTrip_ofThread rfl rfl (by
    intro _; rw [decodeWord_lane37 (majorOf_wordLX ..)]
    obtain rfl | rfl := bit_cases sz <;> obtain rfl | rfl := bit_cases sc <;> simp [decodeLane37])
theorem RoundTrip.atomFarMaxI vd ord pr la sz sc : RoundTrip.Statement (.atomFarMaxI vd ord pr la sz sc) :=
  roundTrip_ofThread rfl rfl (by
    intro _; rw [decodeWord_lane37 (majorOf_wordLX ..)]
    obtain rfl | rfl := bit_cases sz <;> obtain rfl | rfl := bit_cases sc <;> simp [decodeLane37])
theorem RoundTrip.atomFarMinN vd ord pr la sz sc : RoundTrip.Statement (.atomFarMinN vd ord pr la sz sc) :=
  roundTrip_ofThread rfl rfl (by
    intro _; rw [decodeWord_lane37 (majorOf_wordLX ..)]
    obtain rfl | rfl := bit_cases sz <;> obtain rfl | rfl := bit_cases sc <;> simp [decodeLane37])
theorem RoundTrip.atomFarMaxN vd ord pr la sz sc : RoundTrip.Statement (.atomFarMaxN vd ord pr la sz sc) :=
  roundTrip_ofThread rfl rfl (by
    intro _; rw [decodeWord_lane37 (majorOf_wordLX ..)]
    obtain rfl | rfl := bit_cases sz <;> obtain rfl | rfl := bit_cases sc <;> simp [decodeLane37])
theorem RoundTrip.atomFarExch vd ord pr la sz sc : RoundTrip.Statement (.atomFarExch vd ord pr la sz sc) :=
  roundTrip_ofThread rfl rfl (by
    intro _; rw [decodeWord_lane37 (majorOf_wordLX ..)]
    obtain rfl | rfl := bit_cases sz <;> obtain rfl | rfl := bit_cases sc <;> simp [decodeLane37])
theorem RoundTrip.atomFarCas vd ord pr la sz sc : RoundTrip.Statement (.atomFarCas vd ord pr la sz sc) :=
  roundTrip_ofThread rfl rfl (by
    intro _; rw [decodeWord_lane37 (majorOf_wordLX ..)]
    obtain rfl | rfl := bit_cases sz <;> obtain rfl | rfl := bit_cases sc <;> simp [decodeLane37])
theorem RoundTrip.flBirth va : RoundTrip.Statement (.flBirth va) :=
  roundTrip_ofThread rfl rfl (by intro _; rw [decodeWord_lane38 (majorOf_wordLX ..)]; simp [decodeLane38])
theorem RoundTrip.flBirthZ va : RoundTrip.Statement (.flBirthZ va) :=
  roundTrip_ofThread rfl rfl (by intro _; rw [decodeWord_lane38 (majorOf_wordLX ..)]; simp [decodeLane38])
theorem RoundTrip.flRenew va : RoundTrip.Statement (.flRenew va) :=
  roundTrip_ofThread rfl rfl (by intro _; rw [decodeWord_lane38 (majorOf_wordLX ..)]; simp [decodeLane38])
theorem RoundTrip.flLife vd va la : RoundTrip.Statement (.flLife vd va la) :=
  roundTrip_ofThread rfl rfl (by intro _; rw [decodeWord_lane38 (majorOf_wordLX ..)]; simp [decodeLane38])
theorem RoundTrip.flFree va : RoundTrip.Statement (.flFree va) :=
  roundTrip_ofThread rfl rfl (by intro _; rw [decodeWord_lane38 (majorOf_wordLX ..)]; simp [decodeLane38])
theorem RoundTrip.flStat vd va la : RoundTrip.Statement (.flStat vd va la) :=
  roundTrip_ofThread rfl rfl (by intro _; rw [decodeWord_lane38 (majorOf_wordLX ..)]; simp [decodeLane38])
theorem RoundTrip.flStatClr vd va : RoundTrip.Statement (.flStatClr vd va) :=
  roundTrip_ofThread rfl rfl (by intro _; rw [decodeWord_lane38 (majorOf_wordLX ..)]; simp [decodeLane38])
theorem RoundTrip.mma va acc ob tb keep : RoundTrip.Statement (.mma va acc ob tb keep) :=
  roundTrip_ofThread rfl rfl (by intro _; rw [decodeWord_lane35 (majorOf_wordMX ..)]; simp [decodeLane35])
theorem RoundTrip.mmaZero va acc ob tb keep : RoundTrip.Statement (.mmaZero va acc ob tb keep) :=
  roundTrip_ofThread rfl rfl (by intro _; rw [decodeWord_lane35 (majorOf_wordMX ..)]; simp [decodeLane35])
theorem RoundTrip.mxLease vd va la : RoundTrip.Statement (.mxLease vd va la) :=
  roundTrip_ofThread rfl rfl (by intro _; rw [decodeWord_lane35 (majorOf_wordLX ..)]; simp [decodeLane35])
theorem RoundTrip.mxRelease : RoundTrip.Statement (.mxRelease) :=
  roundTrip_ofThread rfl rfl (by intro _; rw [decodeWord_lane35 (majorOf_wordLX ..)]; simp [decodeLane35])
theorem RoundTrip.obResv va k : RoundTrip.Statement (.obResv va k) :=
  roundTrip_ofThread rfl rfl (by intro _; rw [decodeWord_lane35 (majorOf_wordLX ..)]; simp [decodeLane35])
theorem RoundTrip.obFree k : RoundTrip.Statement (.obFree k) :=
  roundTrip_ofThread rfl rfl (by intro _; rw [decodeWord_lane35 (majorOf_wordLX ..)]; simp [decodeLane35])
theorem RoundTrip.obLd va die k : RoundTrip.Statement (.obLd va die k) :=
  roundTrip_ofThread rfl rfl (by intro _; rw [decodeWord_lane35 (majorOf_wordLX ..)]; simp [decodeLane35])
theorem RoundTrip.accRd vd va la : RoundTrip.Statement (.accRd vd va la) :=
  roundTrip_ofThread rfl rfl (by intro _; rw [decodeWord_lane35 (majorOf_wordLX ..)]; simp [decodeLane35])
theorem RoundTrip.accWait role acc : RoundTrip.Statement (.accWait role acc) :=
  roundTrip_ofThread rfl rfl (by intro _; rw [decodeWord_lane35 (majorOf_wordLX ..)]; simp [decodeLane35])
theorem RoundTrip.mxFreeze unit : RoundTrip.Statement (.mxFreeze unit) :=
  roundTrip_ofThread rfl rfl (by intro _; rw [decodeWord_lane35 (majorOf_wordLX ..)]; simp [decodeLane35])
theorem RoundTrip.mxThaw unit : RoundTrip.Statement (.mxThaw unit) :=
  roundTrip_ofThread rfl rfl (by intro _; rw [decodeWord_lane35 (majorOf_wordLX ..)]; simp [decodeLane35])
theorem RoundTrip.accDrain va slot unit : RoundTrip.Statement (.accDrain va slot unit) :=
  roundTrip_ofThread rfl rfl (by intro _; rw [decodeWord_lane35 (majorOf_wordLX ..)]; simp [decodeLane35])
theorem RoundTrip.accFill va slot unit : RoundTrip.Statement (.accFill va slot unit) :=
  roundTrip_ofThread rfl rfl (by intro _; rw [decodeWord_lane35 (majorOf_wordLX ..)]; simp [decodeLane35])
theorem RoundTrip.obDrain va slot unit : RoundTrip.Statement (.obDrain va slot unit) :=
  roundTrip_ofThread rfl rfl (by intro _; rw [decodeWord_lane35 (majorOf_wordLX ..)]; simp [decodeLane35])
theorem RoundTrip.obFill va slot unit : RoundTrip.Statement (.obFill va slot unit) :=
  roundTrip_ofThread rfl rfl (by intro _; rw [decodeWord_lane35 (majorOf_wordLX ..)]; simp [decodeLane35])
theorem RoundTrip.itRange va k : RoundTrip.Statement (.itRange va k) :=
  roundTrip_ofThread rfl rfl (by intro _; rw [decodeWord_lane36 (majorOf_wordLX ..)]; simp [decodeLane36])
theorem RoundTrip.itList va k : RoundTrip.Statement (.itList va k) :=
  roundTrip_ofThread rfl rfl (by intro _; rw [decodeWord_lane36 (majorOf_wordLX ..)]; simp [decodeLane36])
theorem RoundTrip.itBits va k : RoundTrip.Statement (.itBits va k) :=
  roundTrip_ofThread rfl rfl (by intro _; rw [decodeWord_lane36 (majorOf_wordLX ..)]; simp [decodeLane36])
theorem RoundTrip.itQueue va k : RoundTrip.Statement (.itQueue va k) :=
  roundTrip_ofThread rfl rfl (by intro _; rw [decodeWord_lane36 (majorOf_wordLX ..)]; simp [decodeLane36])
theorem RoundTrip.itMap va k : RoundTrip.Statement (.itMap va k) :=
  roundTrip_ofThread rfl rfl (by intro _; rw [decodeWord_lane36 (majorOf_wordLX ..)]; simp [decodeLane36])
theorem RoundTrip.itFilter va k : RoundTrip.Statement (.itFilter va k) :=
  roundTrip_ofThread rfl rfl (by intro _; rw [decodeWord_lane36 (majorOf_wordLX ..)]; simp [decodeLane36])
theorem RoundTrip.itZip va k : RoundTrip.Statement (.itZip va k) :=
  roundTrip_ofThread rfl rfl (by intro _; rw [decodeWord_lane36 (majorOf_wordLX ..)]; simp [decodeLane36])
theorem RoundTrip.itChain va k : RoundTrip.Statement (.itChain va k) :=
  roundTrip_ofThread rfl rfl (by intro _; rw [decodeWord_lane36 (majorOf_wordLX ..)]; simp [decodeLane36])
theorem RoundTrip.itFlat va k : RoundTrip.Statement (.itFlat va k) :=
  roundTrip_ofThread rfl rfl (by intro _; rw [decodeWord_lane36 (majorOf_wordLX ..)]; simp [decodeLane36])
theorem RoundTrip.itNext vd vn la k : RoundTrip.Statement (.itNext vd vn la k) :=
  roundTrip_ofThread rfl rfl (by
    intro _; rw [decodeWord_lane36 (majorOf_wordLX ..)]
    obtain rfl | rfl | rfl | rfl | rfl | rfl | rfl | rfl := three_cases k <;> simp [decodeLane36])
theorem RoundTrip.itEnough k : RoundTrip.Statement (.itEnough k) :=
  roundTrip_ofThread rfl rfl (by intro _; rw [decodeWord_lane36 (majorOf_wordLX ..)]; simp [decodeLane36])
theorem RoundTrip.itFree k : RoundTrip.Statement (.itFree k) :=
  roundTrip_ofThread rfl rfl (by intro _; rw [decodeWord_lane36 (majorOf_wordLX ..)]; simp [decodeLane36])
theorem RoundTrip.itStat vd k la : RoundTrip.Statement (.itStat vd k la) :=
  roundTrip_ofThread rfl rfl (by intro _; rw [decodeWord_lane36 (majorOf_wordLX ..)]; simp [decodeLane36])
theorem RoundTrip.itRd va depth k : RoundTrip.Statement (.itRd va depth k) :=
  roundTrip_ofThread rfl rfl (by intro _; rw [decodeWord_lane36 (majorOf_wordLX ..)]; simp [decodeLane36])
theorem RoundTrip.qPush va sz : RoundTrip.Statement (.qPush va sz) :=
  roundTrip_ofThread rfl rfl (by intro _; rw [decodeWord_lane39 (majorOf_wordLX ..)]; simp [decodeLane39])
theorem RoundTrip.qPushNb va sz : RoundTrip.Statement (.qPushNb va sz) :=
  roundTrip_ofThread rfl rfl (by intro _; rw [decodeWord_lane39 (majorOf_wordLX ..)]; simp [decodeLane39])
theorem RoundTrip.qPop vd va la : RoundTrip.Statement (.qPop vd va la) :=
  roundTrip_ofThread rfl rfl (by intro _; rw [decodeWord_lane39 (majorOf_wordLX ..)]; simp [decodeLane39])
theorem RoundTrip.qPopNb vd va la : RoundTrip.Statement (.qPopNb vd va la) :=
  roundTrip_ofThread rfl rfl (by intro _; rw [decodeWord_lane39 (majorOf_wordLX ..)]; simp [decodeLane39])
theorem RoundTrip.qStat vd va la : RoundTrip.Statement (.qStat vd va la) :=
  roundTrip_ofThread rfl rfl (by intro _; rw [decodeWord_lane39 (majorOf_wordLX ..)]; simp [decodeLane39])
theorem RoundTrip.emit va sz : RoundTrip.Statement (.emit va sz) :=
  roundTrip_ofThread rfl rfl (by intro _; rw [decodeWord_lane39 (majorOf_wordLX ..)]; simp [decodeLane39])
theorem RoundTrip.hcall vd va : RoundTrip.Statement (.hcall vd va) :=
  roundTrip_ofThread rfl rfl (by intro _; rw [decodeWord_lane39 (majorOf_wordLX ..)]; simp [decodeLane39])
theorem RoundTrip.colSend va vb : RoundTrip.Statement (.colSend va vb) :=
  roundTrip_ofThread rfl rfl (by intro _; rw [decodeWord_lane3A (majorOf_wordLX ..)]; simp [decodeLane3A])
theorem RoundTrip.colRecv va vb : RoundTrip.Statement (.colRecv va vb) :=
  roundTrip_ofThread rfl rfl (by intro _; rw [decodeWord_lane3A (majorOf_wordLX ..)]; simp [decodeLane3A])
theorem RoundTrip.colRed va vb : RoundTrip.Statement (.colRed va vb) :=
  roundTrip_ofThread rfl rfl (by intro _; rw [decodeWord_lane3A (majorOf_wordLX ..)]; simp [decodeLane3A])
theorem RoundTrip.colGangbar : RoundTrip.Statement (.colGangbar) :=
  roundTrip_ofThread rfl rfl (by intro _; rw [decodeWord_lane3A (majorOf_wordLX ..)]; simp [decodeLane3A])
theorem RoundTrip.colAbort va : RoundTrip.Statement (.colAbort va) :=
  roundTrip_ofThread rfl rfl (by intro _; rw [decodeWord_lane3A (majorOf_wordLX ..)]; simp [decodeLane3A])
theorem RoundTrip.colStat vd va : RoundTrip.Statement (.colStat vd va) :=
  roundTrip_ofThread rfl rfl (by intro _; rw [decodeWord_lane3A (majorOf_wordLX ..)]; simp [decodeLane3A])
theorem RoundTrip.pfx pred mz rnd vc neg : RoundTrip.Statement (.pfx pred mz rnd vc neg) :=
  roundTrip_ofThread rfl rfl (by intro _; rw [decodeWord_lane3F (majorOf_wordPX ..)]; simp [decodeLane3F])
theorem RoundTrip.gAddI64 gd ga gb : RoundTrip.Statement (.gAddI64 gd ga gb) :=
  roundTrip_ofThread rfl rfl (by intro _; rw [decodeWord_uniform00 (majorOf_wordGR ..)]; simp [decodeUniform00])
theorem RoundTrip.gSubI64 gd ga gb : RoundTrip.Statement (.gSubI64 gd ga gb) :=
  roundTrip_ofThread rfl rfl (by intro _; rw [decodeWord_uniform00 (majorOf_wordGR ..)]; simp [decodeUniform00])
theorem RoundTrip.gNegI64 gd ga : RoundTrip.Statement (.gNegI64 gd ga) :=
  roundTrip_ofThread rfl rfl (by intro _; rw [decodeWord_uniform00 (majorOf_wordGR ..)]; simp [decodeUniform00])
theorem RoundTrip.gAbsI64 gd ga : RoundTrip.Statement (.gAbsI64 gd ga) :=
  roundTrip_ofThread rfl rfl (by intro _; rw [decodeWord_uniform00 (majorOf_wordGR ..)]; simp [decodeUniform00])
theorem RoundTrip.gMulI64 gd ga gb : RoundTrip.Statement (.gMulI64 gd ga gb) :=
  roundTrip_ofThread rfl rfl (by intro _; rw [decodeWord_uniform01 (majorOf_wordGR ..)]; simp [decodeUniform01])
theorem RoundTrip.gMulhiI64 gd ga gb : RoundTrip.Statement (.gMulhiI64 gd ga gb) :=
  roundTrip_ofThread rfl rfl (by intro _; rw [decodeWord_uniform01 (majorOf_wordGR ..)]; simp [decodeUniform01])
theorem RoundTrip.gMulhiN64 gd ga gb : RoundTrip.Statement (.gMulhiN64 gd ga gb) :=
  roundTrip_ofThread rfl rfl (by intro _; rw [decodeWord_uniform01 (majorOf_wordGR ..)]; simp [decodeUniform01])
theorem RoundTrip.gDivI64 gd ga gb : RoundTrip.Statement (.gDivI64 gd ga gb) :=
  roundTrip_ofThread rfl rfl (by intro _; rw [decodeWord_uniform01 (majorOf_wordGR ..)]; simp [decodeUniform01])
theorem RoundTrip.gDivN64 gd ga gb : RoundTrip.Statement (.gDivN64 gd ga gb) :=
  roundTrip_ofThread rfl rfl (by intro _; rw [decodeWord_uniform01 (majorOf_wordGR ..)]; simp [decodeUniform01])
theorem RoundTrip.gRemI64 gd ga gb : RoundTrip.Statement (.gRemI64 gd ga gb) :=
  roundTrip_ofThread rfl rfl (by intro _; rw [decodeWord_uniform01 (majorOf_wordGR ..)]; simp [decodeUniform01])
theorem RoundTrip.gRemN64 gd ga gb : RoundTrip.Statement (.gRemN64 gd ga gb) :=
  roundTrip_ofThread rfl rfl (by intro _; rw [decodeWord_uniform01 (majorOf_wordGR ..)]; simp [decodeUniform01])
theorem RoundTrip.gAndN64 gd ga gb : RoundTrip.Statement (.gAndN64 gd ga gb) :=
  roundTrip_ofThread rfl rfl (by intro _; rw [decodeWord_uniform02 (majorOf_wordGR ..)]; simp [decodeUniform02])
theorem RoundTrip.gOrN64 gd ga gb : RoundTrip.Statement (.gOrN64 gd ga gb) :=
  roundTrip_ofThread rfl rfl (by intro _; rw [decodeWord_uniform02 (majorOf_wordGR ..)]; simp [decodeUniform02])
theorem RoundTrip.gXorN64 gd ga gb : RoundTrip.Statement (.gXorN64 gd ga gb) :=
  roundTrip_ofThread rfl rfl (by intro _; rw [decodeWord_uniform02 (majorOf_wordGR ..)]; simp [decodeUniform02])
theorem RoundTrip.gAndnN64 gd ga gb : RoundTrip.Statement (.gAndnN64 gd ga gb) :=
  roundTrip_ofThread rfl rfl (by intro _; rw [decodeWord_uniform02 (majorOf_wordGR ..)]; simp [decodeUniform02])
theorem RoundTrip.gNotN64 gd ga : RoundTrip.Statement (.gNotN64 gd ga) :=
  roundTrip_ofThread rfl rfl (by intro _; rw [decodeWord_uniform02 (majorOf_wordGR ..)]; simp [decodeUniform02])
theorem RoundTrip.gShlN64 gd ga gb : RoundTrip.Statement (.gShlN64 gd ga gb) :=
  roundTrip_ofThread rfl rfl (by intro _; rw [decodeWord_uniform03 (majorOf_wordGR ..)]; simp [decodeUniform03])
theorem RoundTrip.gShrN64 gd ga gb : RoundTrip.Statement (.gShrN64 gd ga gb) :=
  roundTrip_ofThread rfl rfl (by intro _; rw [decodeWord_uniform03 (majorOf_wordGR ..)]; simp [decodeUniform03])
theorem RoundTrip.gShrI64 gd ga gb : RoundTrip.Statement (.gShrI64 gd ga gb) :=
  roundTrip_ofThread rfl rfl (by intro _; rw [decodeWord_uniform03 (majorOf_wordGR ..)]; simp [decodeUniform03])
theorem RoundTrip.gRolN64 gd ga gb : RoundTrip.Statement (.gRolN64 gd ga gb) :=
  roundTrip_ofThread rfl rfl (by intro _; rw [decodeWord_uniform03 (majorOf_wordGR ..)]; simp [decodeUniform03])
theorem RoundTrip.gRorN64 gd ga gb : RoundTrip.Statement (.gRorN64 gd ga gb) :=
  roundTrip_ofThread rfl rfl (by intro _; rw [decodeWord_uniform03 (majorOf_wordGR ..)]; simp [decodeUniform03])
theorem RoundTrip.gSetEqI64 gd ga gb : RoundTrip.Statement (.gSetEqI64 gd ga gb) :=
  roundTrip_ofThread rfl rfl (by intro _; rw [decodeWord_uniform04 (majorOf_wordGR ..)]; simp [decodeUniform04])
theorem RoundTrip.gSetNeI64 gd ga gb : RoundTrip.Statement (.gSetNeI64 gd ga gb) :=
  roundTrip_ofThread rfl rfl (by intro _; rw [decodeWord_uniform04 (majorOf_wordGR ..)]; simp [decodeUniform04])
theorem RoundTrip.gSetLtI64 gd ga gb : RoundTrip.Statement (.gSetLtI64 gd ga gb) :=
  roundTrip_ofThread rfl rfl (by intro _; rw [decodeWord_uniform04 (majorOf_wordGR ..)]; simp [decodeUniform04])
theorem RoundTrip.gSetLeI64 gd ga gb : RoundTrip.Statement (.gSetLeI64 gd ga gb) :=
  roundTrip_ofThread rfl rfl (by intro _; rw [decodeWord_uniform04 (majorOf_wordGR ..)]; simp [decodeUniform04])
theorem RoundTrip.gSetLtN64 gd ga gb : RoundTrip.Statement (.gSetLtN64 gd ga gb) :=
  roundTrip_ofThread rfl rfl (by intro _; rw [decodeWord_uniform04 (majorOf_wordGR ..)]; simp [decodeUniform04])
theorem RoundTrip.gSetLeN64 gd ga gb : RoundTrip.Statement (.gSetLeN64 gd ga gb) :=
  roundTrip_ofThread rfl rfl (by intro _; rw [decodeWord_uniform04 (majorOf_wordGR ..)]; simp [decodeUniform04])
theorem RoundTrip.gMinI64 gd ga gb : RoundTrip.Statement (.gMinI64 gd ga gb) :=
  roundTrip_ofThread rfl rfl (by intro _; rw [decodeWord_uniform05 (majorOf_wordGR ..)]; simp [decodeUniform05])
theorem RoundTrip.gMaxI64 gd ga gb : RoundTrip.Statement (.gMaxI64 gd ga gb) :=
  roundTrip_ofThread rfl rfl (by intro _; rw [decodeWord_uniform05 (majorOf_wordGR ..)]; simp [decodeUniform05])
theorem RoundTrip.gMinN64 gd ga gb : RoundTrip.Statement (.gMinN64 gd ga gb) :=
  roundTrip_ofThread rfl rfl (by intro _; rw [decodeWord_uniform05 (majorOf_wordGR ..)]; simp [decodeUniform05])
theorem RoundTrip.gMaxN64 gd ga gb : RoundTrip.Statement (.gMaxN64 gd ga gb) :=
  roundTrip_ofThread rfl rfl (by intro _; rw [decodeWord_uniform05 (majorOf_wordGR ..)]; simp [decodeUniform05])
theorem RoundTrip.gMovN64 gd ga : RoundTrip.Statement (.gMovN64 gd ga) :=
  roundTrip_ofThread rfl rfl (by intro _; rw [decodeWord_uniform06 (majorOf_wordGR ..)]; simp [decodeUniform06])
theorem RoundTrip.gMovnzN64 gd ga gb : RoundTrip.Statement (.gMovnzN64 gd ga gb) :=
  roundTrip_ofThread rfl rfl (by intro _; rw [decodeWord_uniform06 (majorOf_wordGR ..)]; simp [decodeUniform06])
theorem RoundTrip.gMovzN64 gd ga gb : RoundTrip.Statement (.gMovzN64 gd ga gb) :=
  roundTrip_ofThread rfl rfl (by intro _; rw [decodeWord_uniform06 (majorOf_wordGR ..)]; simp [decodeUniform06])
theorem RoundTrip.gPopcN64 gd ga : RoundTrip.Statement (.gPopcN64 gd ga) :=
  roundTrip_ofThread rfl rfl (by intro _; rw [decodeWord_uniform07 (majorOf_wordGR ..)]; simp [decodeUniform07])
theorem RoundTrip.gClzN64 gd ga : RoundTrip.Statement (.gClzN64 gd ga) :=
  roundTrip_ofThread rfl rfl (by intro _; rw [decodeWord_uniform07 (majorOf_wordGR ..)]; simp [decodeUniform07])
theorem RoundTrip.gCtzN64 gd ga : RoundTrip.Statement (.gCtzN64 gd ga) :=
  roundTrip_ofThread rfl rfl (by intro _; rw [decodeWord_uniform07 (majorOf_wordGR ..)]; simp [decodeUniform07])
theorem RoundTrip.gBrevN64 gd ga : RoundTrip.Statement (.gBrevN64 gd ga) :=
  roundTrip_ofThread rfl rfl (by intro _; rw [decodeWord_uniform07 (majorOf_wordGR ..)]; simp [decodeUniform07])
theorem RoundTrip.gAddI64Imm gd imm : RoundTrip.Statement (.gAddI64Imm gd imm) :=
  roundTrip_ofThread rfl rfl (by intro _; rw [decodeWord_uniform08 (majorOf_wordGI ..)]; simp [decodeUniform08])
theorem RoundTrip.gMulI64Imm gd imm : RoundTrip.Statement (.gMulI64Imm gd imm) :=
  roundTrip_ofThread rfl rfl (by intro _; rw [decodeWord_uniform08 (majorOf_wordGI ..)]; simp [decodeUniform08])
theorem RoundTrip.gMinI64Imm gd imm : RoundTrip.Statement (.gMinI64Imm gd imm) :=
  roundTrip_ofThread rfl rfl (by intro _; rw [decodeWord_uniform08 (majorOf_wordGI ..)]; simp [decodeUniform08])
theorem RoundTrip.gMaxI64Imm gd imm : RoundTrip.Statement (.gMaxI64Imm gd imm) :=
  roundTrip_ofThread rfl rfl (by intro _; rw [decodeWord_uniform08 (majorOf_wordGI ..)]; simp [decodeUniform08])
theorem RoundTrip.gAndN64Imm gd imm : RoundTrip.Statement (.gAndN64Imm gd imm) :=
  roundTrip_ofThread rfl rfl (by intro _; rw [decodeWord_uniform09 (majorOf_wordGI ..)]; simp [decodeUniform09])
theorem RoundTrip.gOrN64Imm gd imm : RoundTrip.Statement (.gOrN64Imm gd imm) :=
  roundTrip_ofThread rfl rfl (by intro _; rw [decodeWord_uniform09 (majorOf_wordGI ..)]; simp [decodeUniform09])
theorem RoundTrip.gXorN64Imm gd imm : RoundTrip.Statement (.gXorN64Imm gd imm) :=
  roundTrip_ofThread rfl rfl (by intro _; rw [decodeWord_uniform09 (majorOf_wordGI ..)]; simp [decodeUniform09])
theorem RoundTrip.gAndI64Imm gd imm : RoundTrip.Statement (.gAndI64Imm gd imm) :=
  roundTrip_ofThread rfl rfl (by intro _; rw [decodeWord_uniform09 (majorOf_wordGI ..)]; simp [decodeUniform09])
theorem RoundTrip.gShlN64Imm gd imm : RoundTrip.Statement (.gShlN64Imm gd imm) :=
  roundTrip_ofThread rfl rfl (by intro _; rw [decodeWord_uniform0A (majorOf_wordGI ..)]; simp [decodeUniform0A])
theorem RoundTrip.gShrN64Imm gd imm : RoundTrip.Statement (.gShrN64Imm gd imm) :=
  roundTrip_ofThread rfl rfl (by intro _; rw [decodeWord_uniform0A (majorOf_wordGI ..)]; simp [decodeUniform0A])
theorem RoundTrip.gShrI64Imm gd imm : RoundTrip.Statement (.gShrI64Imm gd imm) :=
  roundTrip_ofThread rfl rfl (by intro _; rw [decodeWord_uniform0A (majorOf_wordGI ..)]; simp [decodeUniform0A])
theorem RoundTrip.gRolN64Imm gd imm : RoundTrip.Statement (.gRolN64Imm gd imm) :=
  roundTrip_ofThread rfl rfl (by intro _; rw [decodeWord_uniform0A (majorOf_wordGI ..)]; simp [decodeUniform0A])
theorem RoundTrip.gMovI64Imm gd imm : RoundTrip.Statement (.gMovI64Imm gd imm) :=
  roundTrip_ofThread rfl rfl (by intro _; rw [decodeWord_uniform0B (majorOf_wordGI ..)]; simp [decodeUniform0B])
theorem RoundTrip.gMovN64Imm gd imm : RoundTrip.Statement (.gMovN64Imm gd imm) :=
  roundTrip_ofThread rfl rfl (by intro _; rw [decodeWord_uniform0B (majorOf_wordGI ..)]; simp [decodeUniform0B])
theorem RoundTrip.gMovk16 gd imm : RoundTrip.Statement (.gMovk16 gd imm) :=
  roundTrip_ofThread rfl rfl (by intro _; rw [decodeWord_uniform0B (majorOf_wordGI ..)]; simp [decodeUniform0B])
theorem RoundTrip.gMovk32 gd imm : RoundTrip.Statement (.gMovk32 gd imm) :=
  roundTrip_ofThread rfl rfl (by intro _; rw [decodeWord_uniform0B (majorOf_wordGI ..)]; simp [decodeUniform0B])
theorem RoundTrip.gMovk48 gd imm : RoundTrip.Statement (.gMovk48 gd imm) :=
  roundTrip_ofThread rfl rfl (by intro _; rw [decodeWord_uniform0B (majorOf_wordGI ..)]; simp [decodeUniform0B])
theorem RoundTrip.gLdSh gd ga sz la off : RoundTrip.Statement (.gLdSh gd ga sz la off) :=
  roundTrip_ofThread rfl rfl (by intro _; rw [decodeWord_uniform0C (majorOf_wordGM ..)]; simp [decodeUniform0C])
theorem RoundTrip.gStSh gd ga sz off : RoundTrip.Statement (.gStSh gd ga sz off) :=
  roundTrip_ofThread rfl rfl (by intro _; rw [decodeWord_uniform0D (majorOf_wordGM ..)]; simp [decodeUniform0D])
theorem RoundTrip.gLdDie gd ga sz la off : RoundTrip.Statement (.gLdDie gd ga sz la off) :=
  roundTrip_ofThread rfl rfl (by intro _; rw [decodeWord_uniform0E (majorOf_wordGM ..)]; simp [decodeUniform0E])
theorem RoundTrip.gStDie gd ga sz off : RoundTrip.Statement (.gStDie gd ga sz off) :=
  roundTrip_ofThread rfl rfl (by intro _; rw [decodeWord_uniform0F (majorOf_wordGM ..)]; simp [decodeUniform0F])
theorem RoundTrip.gBr cc ga off : RoundTrip.Statement (.gBr cc ga off) :=
  roundTrip_ofThread rfl rfl (by intro h; simp [Instr.wellFormed] at h; rw [decodeWord_uniform10 (majorOf_wordGB ..)]; simp_all [decodeUniform10])
theorem RoundTrip.gRdsr gd ga : RoundTrip.Statement (.gRdsr gd ga) :=
  roundTrip_ofThread rfl rfl (by intro h; simp [Instr.wellFormed] at h; rw [decodeWord_uniform11 (majorOf_wordGR ..)]; simp_all [decodeUniform11])
theorem RoundTrip.gUconfClr : RoundTrip.Statement (.gUconfClr) :=
  roundTrip_ofThread rfl rfl (by intro _; rw [decodeWord_uniform11 (majorOf_wordGR ..)]; simp [decodeUniform11])
theorem RoundTrip.gRdvN32 gd ga : RoundTrip.Statement (.gRdvN32 gd ga) :=
  roundTrip_ofThread rfl rfl (by intro _; rw [decodeWord_uniform11 (majorOf_wordGR ..)]; simp [decodeUniform11])
theorem RoundTrip.gWrvN32 gd ga : RoundTrip.Statement (.gWrvN32 gd ga) :=
  roundTrip_ofThread rfl rfl (by intro _; rw [decodeWord_uniform11 (majorOf_wordGR ..)]; simp [decodeUniform11])
theorem RoundTrip.gWrvN64 gd ga : RoundTrip.Statement (.gWrvN64 gd ga) :=
  roundTrip_ofThread rfl rfl (by intro _; rw [decodeWord_uniform11 (majorOf_wordGR ..)]; simp [decodeUniform11])
theorem RoundTrip.xsfVld nf rs2 rs1 vd : RoundTrip.Statement (.xsfVld nf rs2 rs1 vd) :=
  roundTrip_ofAttendant rfl rfl (by simp [decodeAttendant])
theorem RoundTrip.xsfVst nf rs2 rs1 vd : RoundTrip.Statement (.xsfVst nf rs2 rs1 vd) :=
  roundTrip_ofAttendant rfl rfl (by simp [decodeAttendant])
theorem RoundTrip.mmaAccept x0 x1 x2 : RoundTrip.Statement (.mmaAccept x0 x1 x2) :=
  roundTrip_ofEvent rfl rfl
theorem RoundTrip.mmaComplete x0 x1 x2 : RoundTrip.Statement (.mmaComplete x0 x1 x2) :=
  roundTrip_ofEvent rfl rfl
theorem RoundTrip.overlayFetchComplete x0 x1 x2 x3 : RoundTrip.Statement (.overlayFetchComplete x0 x1 x2 x3) :=
  roundTrip_ofEvent rfl rfl
theorem RoundTrip.copyElementWrite x0 x1 : RoundTrip.Statement (.copyElementWrite x0 x1) :=
  roundTrip_ofEvent rfl rfl
theorem RoundTrip.pageResponse x0 x1 : RoundTrip.Statement (.pageResponse x0 x1) :=
  roundTrip_ofEvent rfl rfl
theorem RoundTrip.cptElementPerform x0 : RoundTrip.Statement (.cptElementPerform x0) :=
  roundTrip_ofEvent rfl rfl
theorem RoundTrip.farAtomicResponse x0 : RoundTrip.Statement (.farAtomicResponse x0) :=
  roundTrip_ofEvent rfl rfl
theorem RoundTrip.atomicopUrCompletion x0 : RoundTrip.Statement (.atomicopUrCompletion x0) :=
  roundTrip_ofEvent rfl rfl
theorem RoundTrip.atsInvalidation x0 x1 x2 : RoundTrip.Statement (.atsInvalidation x0 x1 x2) :=
  roundTrip_ofEvent rfl rfl
theorem RoundTrip.fleetingTick : RoundTrip.Statement (.fleetingTick) :=
  roundTrip_ofEvent rfl rfl
theorem RoundTrip.crewStart x0 x1 x2 x3 x4 : RoundTrip.Statement (.crewStart x0 x1 x2 x3 x4) :=
  roundTrip_ofEvent rfl rfl
theorem RoundTrip.launchComplete x0 : RoundTrip.Statement (.launchComplete x0) :=
  roundTrip_ofEvent rfl rfl
theorem RoundTrip.nodeFlushTimer x0 x1 x2 x3 x4 : RoundTrip.Statement (.nodeFlushTimer x0 x1 x2 x3 x4) :=
  roundTrip_ofEvent rfl rfl
theorem RoundTrip.churnMove x0 x1 x2 : RoundTrip.Statement (.churnMove x0 x1 x2) :=
  roundTrip_ofEvent rfl rfl
theorem RoundTrip.pullResume x0 x1 : RoundTrip.Statement (.pullResume x0 x1) :=
  roundTrip_ofEvent rfl rfl
theorem RoundTrip.sliceExpiry : RoundTrip.Statement (.sliceExpiry) :=
  roundTrip_ofEvent rfl rfl
theorem RoundTrip.saveDrainComplete x0 : RoundTrip.Statement (.saveDrainComplete x0) :=
  roundTrip_ofEvent rfl rfl
theorem RoundTrip.drainLimitExpiry x0 : RoundTrip.Statement (.drainLimitExpiry x0) :=
  roundTrip_ofEvent rfl rfl
theorem RoundTrip.restoreInstall x0 x1 x2 x3 x4 : RoundTrip.Statement (.restoreInstall x0 x1 x2 x3 x4) :=
  roundTrip_ofEvent rfl rfl
theorem RoundTrip.hostLinkTrain x0 : RoundTrip.Statement (.hostLinkTrain x0) :=
  roundTrip_ofEvent rfl rfl
theorem RoundTrip.slotTake x0 : RoundTrip.Statement (.slotTake x0) :=
  roundTrip_ofEvent rfl rfl
theorem RoundTrip.ctxNew x0 x1 : RoundTrip.Statement (.ctxNew x0 x1) :=
  roundTrip_ofEvent rfl rfl
theorem RoundTrip.ctxEnd x0 x1 : RoundTrip.Statement (.ctxEnd x0 x1) :=
  roundTrip_ofEvent rfl rfl
theorem RoundTrip.map x0 x1 : RoundTrip.Statement (.map x0 x1) :=
  roundTrip_ofEvent rfl rfl
theorem RoundTrip.unmap x0 x1 : RoundTrip.Statement (.unmap x0 x1) :=
  roundTrip_ofEvent rfl rfl
theorem RoundTrip.load x0 x1 : RoundTrip.Statement (.load x0 x1) :=
  roundTrip_ofEvent rfl rfl
theorem RoundTrip.unload x0 x1 : RoundTrip.Statement (.unload x0 x1) :=
  roundTrip_ofEvent rfl rfl
theorem RoundTrip.launch x0 x1 : RoundTrip.Statement (.launch x0 x1) :=
  roundTrip_ofEvent rfl rfl
theorem RoundTrip.qweight x0 x1 : RoundTrip.Statement (.qweight x0 x1) :=
  roundTrip_ofEvent rfl rfl
theorem RoundTrip.duty x0 x1 : RoundTrip.Statement (.duty x0 x1) :=
  roundTrip_ofEvent rfl rfl
theorem RoundTrip.quantum x0 x1 : RoundTrip.Statement (.quantum x0 x1) :=
  roundTrip_ofEvent rfl rfl
theorem RoundTrip.save x0 x1 : RoundTrip.Statement (.save x0 x1) :=
  roundTrip_ofEvent rfl rfl
theorem RoundTrip.restore x0 x1 : RoundTrip.Statement (.restore x0 x1) :=
  roundTrip_ofEvent rfl rfl
theorem RoundTrip.tlWaitRecord x0 x1 : RoundTrip.Statement (.tlWaitRecord x0 x1) :=
  roundTrip_ofEvent rfl rfl
theorem RoundTrip.tlRead x0 x1 : RoundTrip.Statement (.tlRead x0 x1) :=
  roundTrip_ofEvent rfl rfl
theorem RoundTrip.workerAdd x0 x1 : RoundTrip.Statement (.workerAdd x0 x1) :=
  roundTrip_ofEvent rfl rfl
theorem RoundTrip.workerDel x0 x1 : RoundTrip.Statement (.workerDel x0 x1) :=
  roundTrip_ofEvent rfl rfl
theorem RoundTrip.recordCompletion x0 x1 : RoundTrip.Statement (.recordCompletion x0 x1) :=
  roundTrip_ofEvent rfl rfl
theorem RoundTrip.callDispatch x0 x1 : RoundTrip.Statement (.callDispatch x0 x1) :=
  roundTrip_ofEvent rfl rfl
theorem RoundTrip.replyPail x0 x1 : RoundTrip.Statement (.replyPail x0 x1) :=
  roundTrip_ofEvent rfl rfl
theorem RoundTrip.callDeadline x0 : RoundTrip.Statement (.callDeadline x0) :=
  roundTrip_ofEvent rfl rfl
theorem RoundTrip.dutyDeadline x0 : RoundTrip.Statement (.dutyDeadline x0) :=
  roundTrip_ofEvent rfl rfl
theorem RoundTrip.colTransferReceive x0 x1 x2 x3 x4 x5 x6 x7 x8 x9 : RoundTrip.Statement (.colTransferReceive x0 x1 x2 x3 x4 x5 x6 x7 x8 x9) :=
  roundTrip_ofEvent rfl rfl
theorem RoundTrip.colTimeoutExpiry x0 : RoundTrip.Statement (.colTimeoutExpiry x0) :=
  roundTrip_ofEvent rfl rfl
theorem RoundTrip.abortFlit x0 x1 : RoundTrip.Statement (.abortFlit x0 x1) :=
  roundTrip_ofEvent rfl rfl
theorem RoundTrip.gangAck x0 x1 : RoundTrip.Statement (.gangAck x0 x1) :=
  roundTrip_ofEvent rfl rfl
theorem RoundTrip.gangWindowExpiry x0 : RoundTrip.Statement (.gangWindowExpiry x0) :=
  roundTrip_ofEvent rfl rfl
theorem RoundTrip.gangFailFlit x0 x1 : RoundTrip.Statement (.gangFailFlit x0 x1) :=
  roundTrip_ofEvent rfl rfl
theorem RoundTrip.budgetTick x0 : RoundTrip.Statement (.budgetTick x0) :=
  roundTrip_ofEvent rfl rfl
theorem RoundTrip.budgetMessage x0 : RoundTrip.Statement (.budgetMessage x0) :=
  roundTrip_ofEvent rfl rfl
theorem RoundTrip.powerControlApply x0 x1 x2 x3 : RoundTrip.Statement (.powerControlApply x0 x1 x2 x3) :=
  roundTrip_ofEvent rfl rfl
theorem RoundTrip.ballastStep x0 x1 x2 x3 : RoundTrip.Statement (.ballastStep x0 x1 x2 x3) :=
  roundTrip_ofEvent rfl rfl
theorem RoundTrip.flitCrcReplay x0 : RoundTrip.Statement (.flitCrcReplay x0) :=
  roundTrip_ofEvent rfl rfl
theorem RoundTrip.laneFailure x0 : RoundTrip.Statement (.laneFailure x0) :=
  roundTrip_ofEvent rfl rfl
theorem RoundTrip.hostLinkDown : RoundTrip.Statement (.hostLinkDown) :=
  roundTrip_ofEvent rfl rfl
theorem RoundTrip.moduleReset : RoundTrip.Statement (.moduleReset) :=
  roundTrip_ofEvent rfl rfl
theorem RoundTrip.podImageReceive x0 x1 x2 : RoundTrip.Statement (.podImageReceive x0 x1 x2) :=
  roundTrip_ofEvent rfl rfl
theorem RoundTrip.parentSilenceTimeout : RoundTrip.Statement (.parentSilenceTimeout) :=
  roundTrip_ofEvent rfl rfl
theorem RoundTrip.attestQuote x0 : RoundTrip.Statement (.attestQuote x0) :=
  roundTrip_ofEvent rfl rfl
theorem RoundTrip.clusterWake x0 x1 x2 : RoundTrip.Statement (.clusterWake x0 x1 x2) :=
  roundTrip_ofEvent rfl rfl
theorem RoundTrip.unassignedEncoding x0 : RoundTrip.Statement (.unassignedEncoding x0) :=
  roundTrip_ofEvent rfl rfl
theorem RoundTrip.hostAccess x0 x1 x2 x3 : RoundTrip.Statement (.hostAccess x0 x1 x2 x3) :=
  roundTrip_ofEvent rfl rfl
theorem RoundTrip.peerRequest x0 x1 x2 x3 x4 x5 x6 x7 : RoundTrip.Statement (.peerRequest x0 x1 x2 x3 x4 x5 x6 x7) :=
  roundTrip_ofEvent rfl rfl
theorem RoundTrip.atsCompletion x0 x1 : RoundTrip.Statement (.atsCompletion x0 x1) :=
  roundTrip_ofEvent rfl rfl
theorem RoundTrip.unrecoveredLink : RoundTrip.Statement (.unrecoveredLink) :=
  roundTrip_ofEvent rfl rfl
theorem RoundTrip.receiverConfirmation x0 : RoundTrip.Statement (.receiverConfirmation x0) :=
  roundTrip_ofEvent rfl rfl
theorem RoundTrip.gangbarArrival x0 x1 : RoundTrip.Statement (.gangbarArrival x0 x1) :=
  roundTrip_ofEvent rfl rfl
theorem RoundTrip.imageRequest x0 x1 : RoundTrip.Statement (.imageRequest x0 x1) :=
  roundTrip_ofEvent rfl rfl

end Sys2Proof.Laws
end

