-- ==== Sys2Proof/Safety.lean ====
section
/-! DEFINITION. The words that the statements are made of: safe states and steps; an instruction that nothing stops before
its effect; what an instruction leaves of the machine, of a crew and of a thread; and the result of a lane. -/

namespace Sys2Proof.Machine

open Sys2Proof

/-! ## Safe states -/

/-- The memories of a crew: shared memory, die window, save area, stacks, tiles, and the bytes that its reserve shadows. -/
def Crew.memories (c : Crew) : List (Sparse Byte) :=
  [c.shared, c.window.bytes, c.saveArea.bytes] ++ (Table.vals c.threads ++ Table.vals c.system).map (·.stack) ++
    c.tiles.map (·.bytes) ++ c.reserve.toList.map (·.shadow)

/-- The memories of a cluster: its resident code groups and the operand buffers of its matrix units. -/
def Cluster.memories (k : Cluster) : List (Sparse Byte) :=
  k.frames.map (·.bytes) ++ (Table.vals k.mx).flatMap fun u => (Table.vals u.reservations).map (·.bytes)

/-- Every memory of the machine: device, host and peer memory, the windows of the host port, the launches' die windows,
those of the clusters, and those of each crew, resident or saved. -/
def State.memories (s : State) : List (Sparse Byte) :=
  s.devMem :: Table.vals s.hostMem ++ Table.vals s.peerMem ++ (Table.vals s.fns).map (·.window) ++
    (Table.vals s.launches).flatMap (fun l => [(l.win 0).bytes, (l.win 1).bytes]) ++
    (Table.vals s.clusters).flatMap Cluster.memories ++ (Table.vals s.crews).flatMap Crew.memories ++
    (Table.vals s.contexts).flatMap fun x => x.saved.flatMap (·.crew.memories)

/-- Every memory is in its canonical form. -/
def State.memoriesWf (s : State) : Bool := s.memories.all Memory.wf

/-- CAP and CAP_BOOT lie between 1,200 and 2,000 W, the cap in force is no lower than CAP, the draw of the last 100 µs is at
most 2,300 W, and the newest 10 - k draws leave the k after them the cap in force within a millisecond whose mean is no
higher than that of its caps (R358); RAMP lies between 50 and 1,000 W/ms (R360). -/
def State.powerOk (s : State) : Bool :=
  decide (1200 ≤ s.cap) && decide (s.cap ≤ s.capBoot) && decide (s.capBoot ≤ 2000) && decide (50 ≤ s.ramp) &&
    decide (s.ramp ≤ 1000) && decide (s.cap ≤ s.capNow) && decide (s.capNow ≤ 2000) && decide (s.draw ≤ 2300) &&
    (List.range 10).all fun k =>
      decide (((s.drawWindow.take (10 - k)).map (·.1)).sum ≤ ((s.drawWindow.take (10 - k)).map (·.2)).sum + k * s.capNow)

/-- A slot cursor names a slot, and its lap is 1 to 255 (R315). -/
def HostFn.cursorOk (f : HostFn) : Bool := decide (f.cursor < 256) && decide (1 ≤ f.lap) && decide (f.lap ≤ 255)

/-- A step that neither faults nor is refused. -/
def State.goesOn (s : State) : Prop := ∃ t, step s = .next t

/-! ## An instruction that reaches its effect -/

/-- Nothing of R76 that stands in front of its effect stops the bundle's instruction: no ILLEGAL_OP, no ILLEGAL_PREFIX,
no IX_RANGE, and no uncorrectable error in a register that an active lane reads. -/
def State.Clear (s : State) (l : Legality) : Prop :=
  s.curLanes ≠ [] ∧ s.opIllegal l = false ∧ s.prefixIllegal l = false ∧ s.ixFailures l.opnds = [] ∧
    s.poisonedRead l = none

/-- A uniform instruction that nothing stops: its role exists, no thread of the role is parked on an earlier uniform
instruction that it must follow (R157), `uses` being what it uses beside registers, and no register that it reads holds an
error. -/
def State.UniformClear (s : State) (os : List Opnd) (reads writes : List (BitVec 6)) (cr : Crew) (r : Role)
    (uses : List Nat := []) : Prop :=
  s.Clear { opnds := os, illegal := false, cls := PfxClass.noPrefix } ∧ s.uniformPoison (reads.map (·.toNat)) = none ∧
    s.crew? s.cur.crew = some cr ∧ cr.role? s.curRole = some r ∧
    cr.uniformBehind s.curRole s.cur.seq (reads.map (·.toNat)) (writes.map (·.toNat) ++ uses) = false

/-- The bundle is one thread, which is active. -/
def State.Solo (s : State) (tid : Nat) (cr : Crew) (th : Thread) : Prop :=
  s.cur.lanes = [{ tid := tid, issued := true }] ∧ s.crew? s.cur.crew = some cr ∧
    Table.get? cr.threads tid = some th ∧ s.cur.active { tid := tid, issued := true } th = true

/-! ## What is left as it was -/

/-- A crew without its threads. -/
def Crew.bare (c : Crew) : Crew := { c with threads := [] }

/-- Everything but the bundle's crew is as it was: every other crew with its memories, and all of the machine outside the
crews. -/
def State.CrewOnly (s t : State) : Prop :=
  { t with crews := s.crews } = s ∧ ∀ c, c ≠ s.cur.crew → t.crew? c = s.crew? c

/-- Everything but the threads that issue is as it was: of their crew every memory, every uniform register and every
other thread too. -/
def State.ThreadsOnly (s t : State) : Prop :=
  s.CrewOnly t ∧ (t.crew? s.cur.crew).map Crew.bare = (s.crew? s.cur.crew).map Crew.bare ∧
    ∀ u, u ∉ s.cur.tids → t.thread? s.cur.crew u = s.thread? s.cur.crew u

/-- Everything but one thread of the bundle's crew is as it was, and that thread is now th. -/
def State.OnlyThread (s t : State) (tid : Nat) (th : Thread) : Prop :=
  s.CrewOnly t ∧ (t.crew? s.cur.crew).map Crew.bare = (s.crew? s.cur.crew).map Crew.bare ∧
    t.thread? s.cur.crew tid = some th ∧ ∀ u, u ≠ tid → t.thread? s.cur.crew u = s.thread? s.cur.crew u

/-- Nothing that the window or a promise holds for a name lands or runs out with one more instruction (R69, R70). -/
def Thread.Quiet (th : Thread) (n : ResultName) : Prop :=
  (∀ h ∈ th.pend, h.name = n → 1 < h.left) ∧ ∀ h ∈ th.trans, h.name = n → 1 < h.left

/-- A thread without what every instruction moves: pc and where it came from, wait, the registers and predicates, the
window, the promises and the index registers. -/
def Thread.rest (th : Thread) : Thread :=
  { th with
    pc := 0#32, cameFrom := none, wait := none, regs := [], preds := 0#7, poison := [], pend := [], trans := [], icount := 0
    ix0 := { base := 0, len := 0, cur := 0 }, ix1 := { base := 0, len := 0, cur := 0 }
    ix2 := { base := 0, len := 0, cur := 0 }, ix3 := { base := 0, len := 0, cur := 0 } }

/-- What an instruction that writes the registers rs and the predicates ps leaves of its thread: the other registers and
predicates, the stack and its pointer, the FIFO, the region and its checkpoint, the rotation, the tags and marks. -/
structure Thread.Keeps (th th' : Thread) (rs ps : List Nat) : Prop where
  regs : ∀ r, r ∉ rs → th.Quiet (.reg r) → th'.readReg r = th.readReg r
  preds : ∀ k, k ∉ ps → (k = 6 → th.Quiet .p6) → th'.pred k = th.pred k
  rest : th'.rest = th.rest

/-! ## The result of a lane -/

/-- The registers, and the predicates, that a destination names in a thread. -/
def Dst.regs (th : Thread) : Dst → List Nat
  | .r32 f => [th.regOf f]
  | .r64 f => [th.regOf f, th.regHiOf f]
  | _ => []
def Dst.predsOf : Dst → List Nat
  | .pred k => [k.toNat]
  | .preds => [0, 1, 2, 3, 4, 5, 6]
  | _ => []

/-- The destination that an instruction of a thread has named holds a value: a register or a pair its words, a predicate
the value's truth, and p0 to p6 its bits; p7 reads as true whatever is written (R65). -/
def Thread.Holds (th th' : Thread) (d : Dst) (v : Dword) : Prop :=
  match d with
  | .r32 f => th'.readReg (th.regOf f) = lo32 v
  | .r64 f => th'.readReg (th.regOf f) = lo32 v ∧ th'.readReg (th.regHiOf f) = hi32 v
  | .pred k => th'.pred k.toNat = if k = 7#3 then true else wordBool v
  | .preds => ∀ k, k < 7 → th'.pred k = v.getLsbD k

/-- What R128 leaves of the machine: every active lane that issues has the value in its destination, an inactive one
zero in a lane register under mz, and all else is as it was; the threads stand at the next instruction, and the index
registers named with ++ have advanced in the active lanes (R64). -/
def State.LaneResults (s t : State) (d : Dst) (os : List Opnd) (v : Lane → Thread → Dword) : Prop :=
  s.ThreadsOnly t ∧
    ∀ l th, l ∈ s.cur.lanes → l.issued = true → s.thread? s.cur.crew l.tid = some th →
      ∃ th', t.thread? s.cur.crew l.tid = some th' ∧ th'.pc = th.pc + BitVec.ofNat 32 s.cur.length ∧
        if s.cur.active l th then
          th.Holds th' d (v l th) ∧ th.Keeps th' (d.regs th) d.predsOf ∧ ∀ k, th'.ix k = (th.advanceIx os).ix k
        else
          (if s.cur.mz && d.isReg then th.Holds th' d 0#64 ∧ th.Keeps th' (d.regs th) [] else th.Keeps th' [] []) ∧
            ∀ k, th'.ix k = th.ix k

/-- R128: an instruction of a form, when nothing stops it, completes with this value in each active lane. -/
def State.LanesGive (s : State) (i : Instr) (fm : AluForm) (v : Thread → Dword) : Prop :=
  s.Clear (fm.legality s.cur) →
    ∃ t, exec i s = .next t ∧ s.LaneResults t fm.dst (fm.legality s.cur).opnds (fun _ => v)

/-- The operands of a cross-lane form, and the prefix that it accepts (R147). -/
def XlForm.legality (x : XlForm) : Legality :=
  { opnds := x.dst.opnds .none ++ x.own ++ x.far, illegal := false
    cls := { accepts := true, mz := true, rnd := .none, vc := false } }

/-- R147, R148: a cross-lane instruction that nothing stops, with no error in a register of the bundle, completes with this
value in each active lane. -/
def State.XlGives (s : State) (i : Instr) (x : XlForm) (v : Lane → Thread → Dword) : Prop :=
  s.Clear x.legality → (∀ e ∈ s.activeLanes, e.2.poison = []) →
    ∃ t, exec i s = .next t ∧ s.LaneResults t x.dst (x.dst.opnds .none ++ x.own) v

/-- R147: the 32-bit register that a field names in the thread with an id, zero where that thread is not present and active
in the bundle. -/
def State.farWord (s : State) (a : BitVec 7) (id : Int) : Dword :=
  match s.source id with
  | some u => (u.read32 a).setWidth 64
  | none => 0#64

/-- The registers of a run of n from a field (R129). -/
def Thread.runRegs (th : Thread) (f : BitVec 7) (n : Nat) : List Nat := (List.range n).map (th.blockReg f)

/-- R129, R146: an instruction over runs of registers, when nothing stops it, completes: the run of nd registers from vd
holds the words of the value, lowest first, in every active lane that issues, zeros in an inactive one under mz, and all
else is as it was. -/
def State.BlocksGive (s : State) (i : Instr) (vd va : BitVec 7) (nd na : Nat) (v : Thread → Nat) : Prop :=
  s.Clear
      { opnds := [], illegal := blockIllegal s.curBudget va na false || blockIllegal s.curBudget vd nd false
        cls := { accepts := true, mz := true, rnd := .rounding, vc := false }, blocks := [(va, na)] } →
    ∃ t, exec i s = .next t ∧ s.ThreadsOnly t ∧
      ∀ l th, l ∈ s.cur.lanes → l.issued = true → s.thread? s.cur.crew l.tid = some th →
        ∃ th', t.thread? s.cur.crew l.tid = some th' ∧ th'.pc = th.pc + BitVec.ofNat 32 s.cur.length ∧
          (∀ k, th'.ix k = th.ix k) ∧
          if s.cur.active l th then
            (∀ j < nd, th'.readReg (th.blockReg vd j) = BitVec.ofNat 32 (v th / 2 ^ (32 * j))) ∧
              th.Keeps th' (th.runRegs vd nd) []
          else if s.cur.mz then
            (∀ j < nd, th'.readReg (th.blockReg vd j) = 0#32) ∧ th.Keeps th' (th.runRegs vd nd) []
          else th.Keeps th' [] []

/-- A function of 32-bit values as a value that a 32-bit destination takes. -/
def word (f : Thread → Word) : Thread → Dword := fun th => (f th).setWidth 64

/-- A function to bit patterns as a value. -/
def pattern (f : Thread → Nat) : Thread → Dword := fun th => BitVec.ofNat 64 (f th)

/-- The rounding mode of a floating-point instruction of the bundle: the prefix's, or to the nearest even (R87). -/
def State.mode (s : State) : Rounding := roundingOf .rne s.cur.rnd

/-- The number of zero bits above the highest one; the width for zero. -/
def leadingZeros {w : Nat} (v : BitVec w) : Nat := ((List.range w).takeWhile (fun i => !v.getMsbD i)).length

/-- The word whose bit i is f i. -/
def bitsWhere (f : Nat → Bool) : Word := BitVec.ofFnLE fun i => f i

/-- R134: the field of the bits a that b describes, pos = b[7:0] and len = b[15:8], cut off at bit 31; above it the word
is filled by a function of the field's top bit, and an empty field is 0. -/
def bitField (a fill : Nat → Bool) (b : Word) : Word :=
  let pos := (b.extractLsb' 0 8).toNat
  let top := min (pos + (b.extractLsb' 8 8).toNat) 32
  if top ≤ pos then 0#32 else bitsWhere fun i => if pos + i < top then a (pos + i) else fill (top - 1)

/-- Byte e of a word, the lowest first, and half e (R81). -/
def byteOf (v : Word) (e : Nat) : Byte := v.extractLsb' (8 * e) 8
def halfOf (v : Word) (e : Nat) : BitVec 16 := v.extractLsb' (16 * e) 16

/-- An operation on each of the two halves, and on each of the four bytes, of two words (R81). -/
def halves (f : BitVec 16 → BitVec 16 → BitVec 16) (a b : Word) : Word :=
  f (halfOf a 1) (halfOf b 1) ++ f (halfOf a 0) (halfOf b 0)
def bytes4 (f : Byte → Byte → Byte) (a b : Word) : Word :=
  f (byteOf a 3) (byteOf b 3) ++ f (byteOf a 2) (byteOf b 2) ++ f (byteOf a 1) (byteOf b 1) ++ f (byteOf a 0) (byteOf b 0)

def halves3 (f : BitVec 16 → BitVec 16 → BitVec 16 → BitVec 16) (a b c : Word) : Word :=
  f (halfOf a 1) (halfOf b 1) (halfOf c 1) ++ f (halfOf a 0) (halfOf b 0) (halfOf c 0)

/-- R140: the condition of a floating-point compare, of two values. -/
def compared (cc : BitVec 3) (x y : FVal) : Bool :=
  if x.isNan || y.isNan then cc = 1#3 || cc = 6#3
  else if cc = 0#3 then x.order y = .eq
  else if cc = 1#3 then x.order y ≠ .eq
  else if cc = 2#3 then x.order y = .lt
  else if cc = 3#3 then x.order y = .lt || x.order y = .eq
  else if cc = 4#3 then x.order y = .gt
  else if cc = 5#3 then x.order y = .gt || x.order y = .eq
  else cc = 7#3

/-- R143: the class of a bit pattern of e exponent and f fraction bits. -/
def classBit (e f v : Nat) : Nat :=
  let neg := v / 2 ^ (e + f) % 2 = 1
  let ex := v / 2 ^ f % 2 ^ e
  let fr := v % 2 ^ f
  if ex = 2 ^ e - 1 then (if fr ≠ 0 then 2 ^ 8 else if neg then 2 ^ 0 else 2 ^ 7)
  else if ex = 0 then
    (if fr = 0 then (if neg then 2 ^ 3 else 2 ^ 4) else if neg then 2 ^ 2 else 2 ^ 5)
  else if neg then 2 ^ 1 else 2 ^ 6

/-- Every thread that issues stands at the next instruction with nothing else changed, and all else is as it was. -/
def State.Passed (s t : State) : Prop :=
  s.ThreadsOnly t ∧
    ∀ l th, l ∈ s.cur.lanes → l.issued = true → s.thread? s.cur.crew l.tid = some th →
      ∃ th', t.thread? s.cur.crew l.tid = some th' ∧ th'.pc = th.pc + BitVec.ofNat 32 s.cur.length ∧
        th.Keeps th' [] [] ∧ ∀ k, th'.ix k = th.ix k

/-- What the one write of a uniform instruction leaves (R118, R119): gd of the role holds the value (g63 still reads as
zero), the role's sr.uconf is as R119 says, every other uniform register and every other role is as it was, the threads
that issue stand at the next instruction, and all else is as it was. -/
def State.UniformWrote (s t : State) (cr : Crew) (r : Role) (gd : BitVec 6) (v : Dword) : Prop :=
  s.CrewOnly t ∧ ∃ cr' r', t.crew? s.cur.crew = some cr' ∧ { cr'.bare with roles := cr.roles } = cr.bare ∧
    cr'.role? s.curRole = some r' ∧ (∀ q, q ≠ s.curRole → cr'.role? q = cr.role? q) ∧
    r'.uread gd.toNat = (if gd = 63#6 then 0#64 else v) ∧ (∀ g, g ≠ gd.toNat → r'.uread g = r.uread g) ∧
    (let conflict := gd ≠ 63#6 ∧ r.uread gd.toNat ≠ v ∧ ∃ a, Table.get? r.uwriter gd.toNat = some a ∧ a ≠ s.cur.pc
     (r'.uconfSet = true ↔ r.uconfSet = true ∨ conflict) ∧
      (r'.uconfMulti = true ↔ r.uconfMulti = true ∨ (conflict ∧ r.uconfSet = true)) ∧
      (conflict ∧ r.uconfSet = false → r'.uconfReg = gd.toNat) ∧
      (¬(conflict ∧ r.uconfSet = false) → r'.uconfReg = r.uconfReg)) ∧
    (gd ≠ 63#6 → Table.get? r'.uwriter gd.toNat = some s.cur.pc) ∧
    (∀ u, u ∉ s.cur.tids → t.thread? s.cur.crew u = s.thread? s.cur.crew u) ∧
    ∀ l th, l ∈ s.cur.lanes → l.issued = true → s.thread? s.cur.crew l.tid = some th →
      ∃ th', t.thread? s.cur.crew l.tid = some th' ∧ th'.pc = th.pc + BitVec.ofNat 32 s.cur.length ∧
        th.Keeps th' [] [] ∧ ∀ k, th'.ix k = th.ix k

/-- R118, R119, R149: a uniform instruction that nothing stops completes, with this value in gd. -/
def State.UniformGives (s : State) (i : Instr) (reads : List (BitVec 6)) (gd : BitVec 6) (v : Role → Dword) : Prop :=
  ∀ cr r, s.UniformClear [] reads [gd] cr r → ∃ t, exec i s = .next t ∧ s.UniformWrote t cr r gd (v r)

/-- A function of one, and of two, uniform registers of a role. -/
def onUniform (a : BitVec 6) (f : Dword → Dword) : Role → Dword := fun r => f (r.uread a.toNat)
def onUniform2 (a b : BitVec 6) (f : Dword → Dword → Dword) : Role → Dword :=
  fun r => f (r.uread a.toNat) (r.uread b.toNat)

/-- Every thread that issues is its image, and all else is as it was. -/
def State.LanesBecome (s t : State) (f : Lane → Thread → Thread) : Prop :=
  s.ThreadsOnly t ∧
    ∀ l th, l ∈ s.cur.lanes → l.issued = true → s.thread? s.cur.crew l.tid = some th →
      t.thread? s.cur.crew l.tid = some (f l th)

/-- Every active lane is its image, an inactive one stands at the next instruction with nothing written, and all else is
as it was. -/
def State.ActiveBecome (s t : State) (f : Lane → Thread → Thread) : Prop :=
  s.LanesBecome t fun l th => if s.cur.active l th then f l th else th.commit s.cur.length .now []

/-- A thread after a call (R159): the store of the offset of the instruction after the call to stk[SP] in its FIFO, SP + 4,
the target. -/
def Thread.called (th : Thread) (s : State) (target : Word) : Thread :=
  { th.goTo s.cur.length target with
    fifo := th.fifo ++ [s.storeEntry .stk th.sp.toNat (leBytes (s.cur.pc + BitVec.ofNat 32 s.cur.length).toNat 4)]
    sp := th.sp + 4#32 }

/-- One thread has called, and all else is as it was, but for what the call-graph prefetcher starts (R194): fetches of
clusters and the calls that they raise. -/
def State.Called (s t : State) (tid : Nat) (th : Thread) : Prop :=
  ∃ v, s.OnlyThread v tid th ∧
    { t with clusters := v.clusters, contexts := v.contexts, calls := v.calls, nextId := v.nextId } = v

/-! ## Local memory -/

/-- The lanes of the bundle hold different threads. -/
def State.Distinct (s : State) : Prop := (s.cur.lanes.map (·.tid)).Nodup

/-- Everything but the bundle's crew is as it was, and that crew is now cr. -/
def State.NowCrew (s t : State) (cr : Crew) : Prop := s.CrewOnly t ∧ t.crew? s.cur.crew = some cr

/-- Everything but the bundle's crew is as it was; that crew is cr, but for one thread, which is th. -/
def State.NowThread (s t : State) (cr : Crew) (tid : Nat) (th : Thread) : Prop :=
  s.CrewOnly t ∧ (t.crew? s.cur.crew).map Crew.bare = some cr.bare ∧ t.thread? s.cur.crew tid = some th ∧
    ∀ u, u ≠ tid → t.thread? s.cur.crew u = Table.get? cr.threads u

/-- A thread parks at the bundle's instruction: nothing else changes but the count that orders the parked threads. -/
def State.Parks (s t : State) (tid : Nat) (th : Thread) (w : Wait) : Prop :=
  ∃ th', s.OnlyThread { t with nextSeq := s.nextSeq } tid th' ∧
    th' = { th with
      wait := some w, parkSeq := th'.parkSeq, parkLen := s.cur.length, parkWord := s.cur.word
      parkPfx := s.cur.pfxWord, parkIssue := s.cur.seq }

/-- The threads of the bundle that issue park, each as itself: nothing else changes but that count. -/
def State.BundleParks (s t : State) (w : Wait) : Prop :=
  s.ThreadsOnly { t with nextSeq := s.nextSeq } ∧
    ∀ l th, l ∈ s.cur.lanes → l.issued = true → s.thread? s.cur.crew l.tid = some th →
      ∃ th', t.thread? s.cur.crew l.tid = some th' ∧
        th' = { th with
          wait := some w, parkSeq := th'.parkSeq, parkLen := s.cur.length, parkWord := s.cur.word
          parkPfx := s.cur.pfxWord, parkIssue := s.cur.seq }

/-- Every active lane's access of n bytes passes R27 and meets a line that is ready (R19). -/
def State.Reaches (s : State) (cr : Crew) (sp : Space) (n : Nat) (addr : Thread → Int) : Prop :=
  ∀ e ∈ s.activeLanes, s.inBounds cr sp (addr e.2) n = true ∧ addr e.2 % n = 0 ∧
    s.lineState cr e.2 sp (addr e.2).toNat = .ready

/-- No thread of a crew has parked at the issue that is under way: no store or atomic of it waits for a lower lane
(R41). -/
def State.FirstIssue (s : State) (cr : Crew) : Prop :=
  ∀ e ∈ cr.threads, e.2.parkIssue = s.cur.seq → e.2.wait = none

/-- What a thread reads at an address: its own latest store to a byte, or the memory's byte (R40). -/
def State.seen (s : State) (cr : Crew) (th : Thread) (sp : Space) (a n : Nat) : Dword :=
  BitVec.ofNat 64 (leNat (forwardedBytes th.fifo sp a (s.readSpace cr th sp a n)))

/-- The address of a lane's access (R26). -/
def Thread.address (th : Thread) (va : BitVec 4) (off : BitVec 7) (n : Nat) : Int :=
  ((th.read32 (va.setWidth 7)).toNat : Int) + off.toInt * n

/-- R152: a load that nothing stops completes in every active lane with the zero-extended bytes, an inactive lane writes
zero under mz, and all else is as it was. A strong load reads a release store of its own thread once that has performed
(R48): here no such store waits. -/
def State.LoadsGive (s : State) (i : Instr) (sp : Space) (n : Nat) (vd : BitVec 7) (la : Nat) (strong : Bool)
    (addr : Thread → Int) (l : Legality) : Prop :=
  ∀ cr, s.crew? s.cur.crew = some cr → s.Clear l → s.Distinct → s.Reaches cr sp n addr →
    (∀ e ∈ s.activeLanes, s.spacePoison cr e.2 sp (addr e.2).toNat n false = none) →
    (strong = true → ∀ e ∈ s.activeLanes, e.2.awaitsStrong sp (addr e.2).toNat n = false) →
    ∃ t, exec i s = .next t ∧ s.LanesBecome t fun ln th =>
      if s.cur.active ln th then
        (th.commit s.cur.length (.after la)
          (th.loadResults vd (n = 8) (s.seen cr th sp (addr th).toNat n))).advanceIx l.opnds
      else th.commit s.cur.length (.after la) (if s.cur.mz then th.loadResults vd (n = 8) 0#64 else [])

/-- R152, R218: the same for one thread and the fleeting space: an expired tile gives zero, and p6 says which. -/
def State.FleetingLoads (s : State) (i : Instr) (n : Nat) (vd : BitVec 7) (la : Nat) (addr : Thread → Int) (l : Legality) :
    Prop :=
  ∀ tid cr th, s.Solo tid cr th → s.Clear l → s.Reaches cr .fl n addr →
    s.spacePoison cr th .fl (addr th).toNat n true = none → (∀ e ∈ th.fifo, e.space ≠ .fl) →
    ∃ t, exec i s = .next t ∧
      if (cr.tile ((addr th).toNat / 4096)).live s.tick then
        s.OnlyThread t tid ((th.commit s.cur.length (.after la)
          (th.loadResults vd (n = 8) (s.seen cr th .fl (addr th).toNat n) ++ [(.p6, 0#32)])).advanceIx l.opnds)
      else
        s.NowThread t (cr.modTile ((addr th).toNat / 4096) fun x => { x with expLoads := min 65535 (x.expLoads + 1) }) tid
          ((th.commit s.cur.length (.after la) (th.loadResults vd (n = 8) 0#64 ++ [(.p6, 1#32)])).advanceIx l.opnds)

/-- R152: a store that nothing stops enters the store FIFO of every active lane's thread, a release store as a strong one
(R40, R48). All else is as it was. -/
def State.StoresGive (s : State) (i : Instr) (sp : Space) (n : Nat) (vs : BitVec 7) (strong : Bool) (addr : Thread → Int)
    (l : Legality) : Prop :=
  ∀ cr, s.crew? s.cur.crew = some cr → s.Clear l → s.Distinct → s.FirstIssue cr → s.Reaches cr sp n addr →
    (∀ e ∈ s.activeLanes, e.2.fifo.length < 8) →
    ∃ t, exec i s = .next t ∧ s.ActiveBecome t fun _ th =>
      let bs := leBytes (if n = 8 then (th.read64 vs).toNat else (th.read32 vs).toNat) n
      (({ th with fifo := th.fifo ++ [s.storeEntry sp (addr th).toNat bs strong] }).commit s.cur.length .now []).advanceIx
        l.opnds

/-- A thread after a region-closing instruction: the next instruction is the head of a region with the same live-in set
(R124). -/
def State.closed (s : State) (cr : Crew) (th : Thread) : Thread :=
  th.enterRegion th.region.lset (s.liveSet cr th.region.lset)

/-- The operands of a local atomic. -/
def State.atomLegality (s : State) (cas : Bool) (vd : BitVec 7) (va : BitVec 4) (sz : BitVec 1) (sp : BitVec 2) :
    Legality :=
  { opnds := [{ field := vd, wide := sz = 1#1, direct := false, reads := true }, addrSrc va] ++
      (if cas then [s.cur.vcOpnd (sz = 1#1)] else [])
    illegal := sp = 0#2 || (cas && s.cur.pfx.isNone)
    cls := { accepts := true, mz := true, rnd := .scope, vc := cas } }

/-- R156: an atomic of one thread that nothing stops. With old the value at its home, x the value of vd and c that of vc,
both of the width, f gives the value written, or none; vd takes old, and the thread enters a region. In the fleeting space
p6 says that the tile has expired, which writes nothing and gives zero. Bytes of the thread's non-temporal stores that the
write covers perform again (R58). -/
def State.AtomGives (s : State) (i : Instr) (cas : Bool) (f : ∀ w, BitVec w → BitVec w → BitVec w → Option (BitVec w))
    (vd : BitVec 7) (va : BitVec 4) (sz : BitVec 1) (la : BitVec 4) (sp : BitVec 2) : Prop :=
  ∀ tid cr th n a, n = (if sz = 1#1 then 8 else 4) → a = (th.address va 0#7 n).toNat → s.Solo tid cr th →
    s.Clear (s.atomLegality cas vd va sz sp) → th.fifo = [] → s.FirstIssue cr →
    s.Reaches cr (spaceOf sp) n (fun u => u.address va 0#7 n) → s.spacePoison cr th (spaceOf sp) a n true = none →
    let read := fun (r : BitVec 7) => BitVec.ofNat (8 * n) (if n = 8 then (th.read64 r).toNat else (th.read32 r).toNat)
    let old := leNat (s.readSpace cr th (spaceOf sp) a n)
    let u := if spaceOf sp = .sh then s else s.outward
    let written := f (8 * n) (BitVec.ofNat (8 * n) old) (read vd) (read s.cur.vc)
    let done := fun (w : Thread) (v : Dword) (p6 : Results) => s.closed cr
      ((w.commit s.cur.length (.after la.toNat) (th.loadResults vd (n = 8) v ++ p6)).advanceIx
        (s.atomLegality cas vd va sz sp).opnds)
    ∃ t, exec i s = .next t ∧
      if spaceOf sp = .fl ∧ (cr.tile (a / 4096)).live s.tick = false then
        s.NowThread t (cr.outward.modTile (a / 4096) fun x =>
          { x with expLoads := min 65535 (x.expLoads + 1), storeExp := true }) tid (done th 0#64 [(.p6, 1#32)])
      else
        State.OnlyThread
          (match written with
            | some v => u.performStore s.cur.crew tid (s.storeEntry (spaceOf sp) a (leBytes v.toNat n))
            | none => u)
          t tid (done (if written.isSome then th.rearmNt (spaceOf sp) a n else th) (BitVec.ofNat 64 old) (if spaceOf sp = .fl then [(.p6, 0#32)] else []))

/-- R222: an instruction of major 0x38 of one thread that nothing stops acts once on the tile that its register names, with
results of the tile as it stood, and is an outward effect; a region-closing one begins a region. -/
def State.TileGives (s : State) (i : Instr) (os : List Opnd) (va : BitVec 7) (la : Nat) (closing : Bool) (f : Tile → Tile)
    (res : Thread → Tile → Results) : Prop :=
  ∀ tid cr th, s.Solo tid cr th → s.Clear (lx os false) → s.FirstIssue cr → s.Reaches cr .fl 4096 (fun u => ((u.read32 va).toNat : Int)) →
    (∀ e ∈ th.fifo, e.space ≠ .fl) →
    let k := (th.read32 va).toNat / 4096
    let th' := th.commit s.cur.length (.after la) (res th (cr.tile k))
    ∃ t, exec i s = .next t ∧ s.NowThread t (cr.outward.modTile k f) tid (if closing then s.closed cr th' else th')

/-! ## Queues -/

/-- An instruction of one thread that changes a launch's die window: the thread is now th, and what else changes is the
launch of the crew, whose windows are as before outside the bytes that may change. -/
def State.QueueStep (s t : State) (cr : Crew) (tid : Nat) (th : Thread) (changes : Nat → Prop) : Prop :=
  { t with crews := s.crews, launches := s.launches } = s ∧ (t.crew? s.cur.crew).map Crew.bare = some cr.outward.bare ∧
    t.thread? s.cur.crew tid = some th ∧ (∀ u, u ≠ tid → t.thread? s.cur.crew u = s.thread? s.cur.crew u) ∧
    (∀ c, c ≠ s.cur.crew → t.crew? c = s.crew? c) ∧
    (∀ l, l ≠ cr.launch → Table.get? t.launches l = Table.get? s.launches l) ∧
    ∀ a, launchBase ≤ a → ¬changes a → t.readDie cr a 1 = s.readDie cr a 1

/-! ## Translation requests -/

/-- Of the accesses of the machine only these far atomics, per-thread elements and bulk copies have joined a request
(R36). -/
def State.OnlyJoined (s : State) (q : Nat) (fars elems copies : List Nat) : Prop :=
  Table.wf s.fars = true ∧ Table.wf s.elems = true ∧ Table.wf s.copies = true ∧
    (∀ e ∈ s.fars, e.2.xlate = some q ↔ e.1 ∈ fars) ∧ (∀ e ∈ s.elems, e.2.xlate = some q ↔ e.1 ∈ elems) ∧
    (∀ e ∈ s.copies, (∃ i, e.2.stalled = some (i, q)) ↔ e.1 ∈ copies) ∧
    (∀ k ∈ s.clusters, ∀ f ∈ k.2.fetches, f.xlate ≠ some q) ∧ (∀ f ∈ s.fns, ∀ t ∈ f.2.taken, t.xlate ≠ some q) ∧
    ∀ c ∈ s.crews, (∀ t ∈ c.2.threads, t.2.wait ≠ some (.xlate q)) ∧
      ∀ i ∈ c.2.iters, (∀ w ∈ i.2.flight, w.xlate ≠ some q) ∧ ∀ p ∈ i.2.pull, ∀ w ∈ p.pause, w.xlate ≠ some q

/-! ## Consumed errors (R349 to R353) -/

/-- A crew has consumed an error, and all else is as it was: it has stopped, and code, INFO, ADDR, tick and thread of the
event are kept for its record. -/
def State.Consumes (s t : State) (c : Nat) (cr : Crew) (code : Code) (info addr tid : Nat) : Prop :=
  { t with crews := s.crews } = s ∧ (∀ d, d ≠ c → t.crew? d = s.crew? d) ∧ t.crew? c = some { cr with
    stopped := true, consumed := some (code, info, addr), consumedTick := s.tick, consumedTid := tid
    consumedLogged := false, drainStart := s.now }

/-- The record of a crew's consumed error (Table 23.2), with an ACTION. -/
def Crew.errorRecord (cr : Crew) (code : Code) (info addr action : Nat) : LogRecord :=
  { code := code, action := action, crew := cr.index, info := info, launch := cr.srLaunch.toNat, tick := cr.consumedTick
    addr := addr, info2 := 0 }

/-- The record, not logged before, is in the log of the crew's context with its ACTION; beside that log nothing outside
the crews has changed, and no other crew. -/
def State.Recorded (s t : State) (c : Nat) (cr : Crew) (r : LogRecord) : Prop :=
  { t with crews := s.crews, contexts := s.contexts } = s ∧ (∀ d, d ≠ c → t.crew? d = s.crew? d) ∧
    (∀ k, k ≠ cr.ctx → Table.get? t.contexts k = Table.get? s.contexts k) ∧
    (cr.consumedLogged = false → Table.get? t.contexts cr.ctx =
      (Table.get? s.contexts cr.ctx).map fun x => { x with log := pushLog x.log r })

/-- A crew has been rolled back from its reserve (R353). -/
def State.RolledBack (s t : State) (c : Nat) (cr : Crew) (r : Reserve) (code : Code) (info addr : Nat) : Prop :=
  s.Recorded t c cr (cr.errorRecord code info addr 2) ∧ ∃ cr', t.crew? c = some cr' ∧
    (cr'.stopped, cr'.consumed, cr'.reserve) = (false, none, some { r with used := true }) ∧
    (cr'.roles, cr'.tumblers, cr'.barGen) = (r.roles, r.tumblers, r.barGen) ∧
    (cr'.window, cr'.tiles) = (cr.window, cr.tiles) ∧
    (∀ a, Mem.read cr'.shared a = if a / 64 ∈ r.shadowed then Mem.read r.shadow a else Mem.read cr.shared a) ∧
    ∀ tid th p, Table.get? cr.threads tid = some th → Table.get? r.threads tid = some p →
      ∃ th', Table.get? cr'.threads tid = some th' ∧ (th'.pc, th'.ended) = (p.region.head, false) ∧
        (th'.region, th'.slot, th'.preds, th'.sp) = (p.region, p.slot, p.region.pred, p.region.sp) ∧
        (th'.pend, th'.trans, th'.inHandler) = ([], [], false) ∧
        (th'.stack, th'.fifo, th'.tagErr) = (th.stack, th.fifo, th.tagErr) ∧
        ((s.liveSet cr p.region.lset).Nodup → ∀ i g, (s.liveSet cr p.region.lset)[i]? = some g →
          Sparse.get 0#32 th'.regs g = Sparse.get 0#32 p.slot i)

/-- A crew has been killed with the code of its consumed error (R349): its record stands with ACTION 1, and it has ended as
a killed crew ends (R179). -/
def State.KilledBy (s t : State) (c : Nat) (cr : Crew) (code : Code) (info addr : Nat) : Prop :=
  (∃ v, s.Recorded v c cr (cr.errorRecord code info addr 1) ∧ v.crew? c = some { cr with consumedLogged := true } ∧
    t = v.endKilled c cr code) ∧
    ∀ cr', t.crew? c = some cr' → cr'.killed = true ∧ ∀ e ∈ cr'.threads, e.2.ended = true

/-- The decision on a consumed error (R349, R352): a rollback where it is asked for and all four conditions hold, and the
end of the crew otherwise. -/
def State.Decides (s t : State) (c : Nat) (cr : Crew) (wanted : Bool) (code : Code) (info addr : Nat) : Prop :=
  (∀ r, cr.reserve = some r → wanted = true → (r.outward, r.used, r.poison) = (false, false, false) →
    s.RolledBack t c cr r code info addr) ∧
    (cr.reserve = none ∨ wanted = false ∨
      (∃ r, cr.reserve = some r ∧ (r.outward = true ∨ r.used = true ∨ r.poison = true)) →
      s.KilledBy t c cr code info addr)

/-! ## Matrix units -/

/-- What a unit holds is in slots of its own, and every image of it is longer than a header (R234, R237). -/
def MatrixUnit.Drainable (u : MatrixUnit) : Prop :=
  Table.wf u.leases = true ∧ Table.wf u.reservations = true ∧
    (∀ l ∈ u.leases, l.1 < 8 ∧ 1 ≤ l.2.tiles ∧ l.2.tiles ≤ 8) ∧
    ∀ r ∈ u.reservations, r.1 < 32 ∧ bitsOf r.2.record 26 16 ≠ 0

/-! ## Command records -/

/-- A taken record of an operation that may act: it has started, or may start, and has no result. -/
def State.Ready (s : State) (fn slot op : Nat) (t : Taken) : Prop :=
  s.taken? fn slot = some t ∧ cmdField t.record 7 0 = op ∧ t.result = none ∧ t.xlate = none ∧
    (t.started = true ∨ s.recordMayStart fn t = true)

/-- The same for an operation of a context of the function (R319). -/
def State.ReadyIn (s : State) (fn slot op : Nat) (t : Taken) (x : Context) : Prop :=
  s.Ready fn slot op t ∧ Table.get? s.contexts t.ctx = some x ∧ x.fn = fn

/-- Nothing else of the host port has changed than the taken record of a slot. -/
def State.RecordOnly (s t : State) (fn slot : Nat) : Prop :=
  { t with fns := s.fns } = s ∧ (∀ g, g ≠ fn → t.fn g = s.fn g) ∧
    { t.fn fn with taken := (s.fn fn).taken } = s.fn fn ∧ ∀ k, k ≠ slot → t.taken? fn k = s.taken? fn k

/-- A record has its result, and all else is as it was. -/
def State.Answers (s t : State) (fn slot : Nat) (code : Code) (v : Dword) : Prop :=
  s.RecordOnly t fn slot ∧ ∃ r, t.taken? fn slot = some r ∧ r.result = some (code, v)

end Sys2Proof.Machine
end

