-- ==== Sys2Proof/Certificates/Slice0/Obligations.lean ====
section
/-! DEFINITION. The statements for the provers. Each says what a rule of the spec says, or a rule of the whole machine, in
the words of Sys2Proof/Safety.lean. -/

open Sys2Proof Sys2Proof.Machine

/-- For every state, every operand and tr: add, sub, neg, abs, avg, adiff and the saturating forms over 32-bit
registers, when nothing stops them, complete with the value of Table 7.1 in every active lane (low 32 bits, floor of
the average, or clamped to the type), zero in an inactive lane under mz, and leave everything else as it was. For
every state and operand: the 64-bit add, sub, neg and abs, the widening adds of a 32-bit register to a pair, the
widening multiplies into a pair and the 64-bit multiply, when nothing stops them, give the value of Table 7.1 in the
destination pair of every active lane and leave everything else as it was. (R131) -/
def Obligations.IntegerSums : Prop :=
  (
  ∀ (s : State) (d a b : BitVec 7) (t : Bool),
    s.LanesGive (.addI32 d a b t) (fm32 d a b t) (word fun th => th.read32 a + th.read32 b) ∧
    s.LanesGive (.subI32 d a b t) (fm32 d a b t) (word fun th => th.read32 a - th.read32 b) ∧
    s.LanesGive (.negI32 d a t) (fm32u d a t) (word fun th => -th.read32 a) ∧
    s.LanesGive (.absI32 d a t) (fm32u d a t) (word fun th => if (th.read32 a).msb then -th.read32 a else th.read32 a) ∧
    s.LanesGive (.avgI32 d a b t) (fm32 d a b t)
      (word fun th => BitVec.ofInt 32 (((th.read32 a).toInt + (th.read32 b).toInt + 1) / 2)) ∧
    s.LanesGive (.avgN32 d a b t) (fm32 d a b t)
      (word fun th => BitVec.ofNat 32 (((th.read32 a).toNat + (th.read32 b).toNat + 1) / 2)) ∧
    s.LanesGive (.adiffI32 d a b t) (fm32 d a b t)
      (word fun th => if (th.read32 a).slt (th.read32 b) then th.read32 b - th.read32 a else th.read32 a - th.read32 b) ∧
    s.LanesGive (.adiffN32 d a b t) (fm32 d a b t)
      (word fun th => if (th.read32 a).ult (th.read32 b) then th.read32 b - th.read32 a else th.read32 a - th.read32 b) ∧
    s.LanesGive (.addsatI32 d a b t) (fm32 d a b t)
      (word fun th => BitVec.ofInt 32 (max (-2147483648) (min 2147483647 ((th.read32 a).toInt + (th.read32 b).toInt)))) ∧
    s.LanesGive (.subsatI32 d a b t) (fm32 d a b t)
      (word fun th => BitVec.ofInt 32 (max (-2147483648) (min 2147483647 ((th.read32 a).toInt - (th.read32 b).toInt)))) ∧
    s.LanesGive (.addsatN32 d a b t) (fm32 d a b t)
      (word fun th => BitVec.ofNat 32 (min 4294967295 ((th.read32 a).toNat + (th.read32 b).toNat))) ∧
    s.LanesGive (.subsatN32 d a b t) (fm32 d a b t)
      (word fun th => BitVec.ofNat 32 ((th.read32 a).toNat - (th.read32 b).toNat)) ∧
    s.LanesGive (.negsatI32 d a t) (fm32u d a t)
      (word fun th => if th.read32 a = 0x80000000#32 then 0x7FFFFFFF#32 else -th.read32 a) ∧
    s.LanesGive (.abssatI32 d a t) (fm32u d a t)
      (word fun th => if th.read32 a = 0x80000000#32 then 0x7FFFFFFF#32 else (th.read32 a).abs)) ∧ (
  ∀ (s : State) (d a b : BitVec 7) (t : Bool),
    s.LanesGive (.addI64 d a b t) (fm64 d a b t) (fun th => th.read64 a + th.read64 b) ∧
    s.LanesGive (.subI64 d a b t) (fm64 d a b t) (fun th => th.read64 a - th.read64 b) ∧
    s.LanesGive (.negI64 d a t) (fm64u d a t) (fun th => -th.read64 a) ∧
    s.LanesGive (.absI64 d a t) (fm64u d a t) (fun th => (th.read64 a).abs) ∧
    s.LanesGive (.addwI64I32 d a b t) (fm64b32 d a b t) (fun th => th.read64 a + (th.read32 b).signExtend 64) ∧
    s.LanesGive (.addwN64N32 d a b t) (fm64b32 d a b t) (fun th => th.read64 a + (th.read32 b).setWidth 64) ∧
    s.LanesGive (.mulwI32 d a b t) (fmW d a b t) (fun th => (th.read32 a).signExtend 64 * (th.read32 b).signExtend 64) ∧
    s.LanesGive (.mulwN32 d a b t) (fmW d a b t) (fun th => (th.read32 a).setWidth 64 * (th.read32 b).setWidth 64) ∧
    s.LanesGive (.mulI64 d a b t) (fm64 d a b t) (fun th => th.read64 a * th.read64 b))

/-- For every state and operand: mul, mulhi and mad give the low or high half of the exact product or sum; division
truncates toward zero; a divisor of zero gives a quotient of all ones and the remainder a; the least signed value
divided by -1 gives itself and remainder 0; nothing traps, and everything else is left as it was. For every state and
operand: popc counts the ones; clz and ctz give the number of zeros above or below the outermost one, 32 or 64 for
zero; brev and bswap reverse bits and bytes; bfe extracts the field from pos for len bits cut off at bit 31, extended
by zero or by its top bit; bfi replaces exactly the bits of the field; everything else is left as it was. (R132, R134)
-/
def Obligations.ProductsCountsAndFields : Prop :=
  (
  ∀ (s : State) (d a b : BitVec 7) (t : Bool),
    s.LanesGive (.mulI32 d a b t) (fm32 d a b t) (word fun th => th.read32 a * th.read32 b) ∧
    s.LanesGive (.mulhiI32 d a b t) (fm32 d a b t)
      (word fun th => ((th.read32 a).signExtend 64 * (th.read32 b).signExtend 64).extractLsb' 32 32) ∧
    s.LanesGive (.mulhiN32 d a b t) (fm32 d a b t)
      (word fun th => ((th.read32 a).setWidth 64 * (th.read32 b).setWidth 64).extractLsb' 32 32) ∧
    s.LanesGive (.madI32 d a b t) (fm32 d a b t).withVc32
      (word fun th => th.read32 a * th.read32 b + th.read32 s.cur.vc) ∧
    s.LanesGive (.divI32 d a b t) (fm32 d a b t)
      (word fun th => if th.read32 b = 0#32 then BitVec.allOnes 32 else (th.read32 a).sdiv (th.read32 b)) ∧
    s.LanesGive (.divN32 d a b t) (fm32 d a b t)
      (word fun th => if th.read32 b = 0#32 then BitVec.allOnes 32 else (th.read32 a).udiv (th.read32 b)) ∧
    s.LanesGive (.remI32 d a b t) (fm32 d a b t)
      (word fun th => if th.read32 b = 0#32 then th.read32 a
        else th.read32 a - th.read32 b * (th.read32 a).sdiv (th.read32 b)) ∧
    s.LanesGive (.remN32 d a b t) (fm32 d a b t)
      (word fun th => if th.read32 b = 0#32 then th.read32 a else (th.read32 a).umod (th.read32 b)) ∧
    s.LanesGive (.divI64 d a b t) (fm64 d a b t)
      (fun th => if th.read64 b = 0#64 then BitVec.allOnes 64 else (th.read64 a).sdiv (th.read64 b)) ∧
    s.LanesGive (.divN64 d a b t) (fm64 d a b t)
      (fun th => if th.read64 b = 0#64 then BitVec.allOnes 64 else (th.read64 a).udiv (th.read64 b)) ∧
    s.LanesGive (.remI64 d a b t) (fm64 d a b t)
      (fun th => if th.read64 b = 0#64 then th.read64 a
        else th.read64 a - th.read64 b * (th.read64 a).sdiv (th.read64 b)) ∧
    s.LanesGive (.remN64 d a b t) (fm64 d a b t)
      (fun th => if th.read64 b = 0#64 then th.read64 a else (th.read64 a).umod (th.read64 b))) ∧ (
  ∀ (s : State) (d a b : BitVec 7) (t : Bool),
    s.LanesGive (.popcN32 d a t) (fm32u d a t)
      (word fun th => BitVec.ofNat 32 ((List.range 32).filter (fun i => (th.read32 a).getLsbD i)).length) ∧
    s.LanesGive (.clzN32 d a t) (fm32u d a t) (word fun th => BitVec.ofNat 32 (leadingZeros (th.read32 a))) ∧
    s.LanesGive (.ctzN32 d a t) (fm32u d a t) (word fun th => BitVec.ofNat 32 (leadingZeros (th.read32 a).reverse)) ∧
    s.LanesGive (.popcN64 d a t) (fm64uTo32 d a t)
      (word fun th => BitVec.ofNat 32 ((List.range 64).filter (fun i => (th.read64 a).getLsbD i)).length) ∧
    s.LanesGive (.clzN64 d a t) (fm64uTo32 d a t) (word fun th => BitVec.ofNat 32 (leadingZeros (th.read64 a))) ∧
    s.LanesGive (.brevN32 d a t) (fm32u d a t) (word fun th => (th.read32 a).reverse) ∧
    s.LanesGive (.bswapN32 d a t) (fm32u d a t)
      (word fun th => ((th.read32 a).extractLsb' 0 8 ++ (th.read32 a).extractLsb' 8 8 ++ (th.read32 a).extractLsb' 16 8 ++
        (th.read32 a).extractLsb' 24 8 : BitVec 32)) ∧
    s.LanesGive (.bfeN32 d a b t) (fm32 d a b t)
      (word fun th => bitField (fun i => (th.read32 a).getLsbD i) (fun _ => false) (th.read32 b)) ∧
    s.LanesGive (.bfeI32 d a b t) (fm32 d a b t)
      (word fun th => bitField (fun i => (th.read32 a).getLsbD i) (fun n => (th.read32 a).getLsbD n) (th.read32 b)) ∧
    s.LanesGive (.bfiN32 d a b t) (fm32 d a b t).withVc32
      (word fun th => bitsWhere fun i =>
        if ((th.read32 b).extractLsb' 0 8).toNat ≤ i ∧
            i < ((th.read32 b).extractLsb' 0 8).toNat + ((th.read32 b).extractLsb' 8 8).toNat then
          (th.read32 a).getLsbD (i - ((th.read32 b).extractLsb' 0 8).toNat)
        else (th.read32 s.cur.vc).getLsbD i))

/-- For every state and operand: the signed and unsigned minimum and maximum over 32-bit registers and pairs, and the
seven bitwise operations, when nothing stops them, give the value of Table 7.1 in every active lane and leave
everything else as it was. For every state and operand: a shift by less than the width shifts; by the width or more,
shl and shr.n give 0 and shr.i the sign in every bit; rotates take the amount modulo 32; everything else is left as it
was. (R133) -/
def Obligations.ExtremesLogicAndShifts : Prop :=
  (
  ∀ (s : State) (d a b : BitVec 7) (t : Bool),
    s.LanesGive (.minI32 d a b t) (fm32 d a b t) (word fun th => if (th.read32 a).slt (th.read32 b) then th.read32 a else th.read32 b) ∧
    s.LanesGive (.maxI32 d a b t) (fm32 d a b t) (word fun th => if (th.read32 a).slt (th.read32 b) then th.read32 b else th.read32 a) ∧
    s.LanesGive (.minN32 d a b t) (fm32 d a b t) (word fun th => if (th.read32 a).ult (th.read32 b) then th.read32 a else th.read32 b) ∧
    s.LanesGive (.maxN32 d a b t) (fm32 d a b t) (word fun th => if (th.read32 a).ult (th.read32 b) then th.read32 b else th.read32 a) ∧
    s.LanesGive (.minI64 d a b t) (fm64 d a b t) (fun th => if (th.read64 a).slt (th.read64 b) then th.read64 a else th.read64 b) ∧
    s.LanesGive (.maxI64 d a b t) (fm64 d a b t) (fun th => if (th.read64 a).slt (th.read64 b) then th.read64 b else th.read64 a) ∧
    s.LanesGive (.minN64 d a b t) (fm64 d a b t) (fun th => if (th.read64 a).ult (th.read64 b) then th.read64 a else th.read64 b) ∧
    s.LanesGive (.maxN64 d a b t) (fm64 d a b t) (fun th => if (th.read64 a).ult (th.read64 b) then th.read64 b else th.read64 a) ∧
    s.LanesGive (.andN32 d a b t) (fm32 d a b t) (word fun th => th.read32 a &&& th.read32 b) ∧
    s.LanesGive (.orN32 d a b t) (fm32 d a b t) (word fun th => th.read32 a ||| th.read32 b) ∧
    s.LanesGive (.xorN32 d a b t) (fm32 d a b t) (word fun th => th.read32 a ^^^ th.read32 b) ∧
    s.LanesGive (.andnN32 d a b t) (fm32 d a b t) (word fun th => th.read32 a &&& ~~~th.read32 b) ∧
    s.LanesGive (.ornN32 d a b t) (fm32 d a b t) (word fun th => th.read32 a ||| ~~~th.read32 b) ∧
    s.LanesGive (.xnorN32 d a b t) (fm32 d a b t) (word fun th => ~~~(th.read32 a ^^^ th.read32 b)) ∧
    s.LanesGive (.notN32 d a t) (fm32u d a t) (word fun th => ~~~th.read32 a)) ∧ (
  ∀ (s : State) (d a b : BitVec 7) (t : Bool),
    s.LanesGive (.shlN32 d a b t) (fm32 d a b t)
      (word fun th => if (th.read32 b).toNat < 32 then th.read32 a <<< (th.read32 b).toNat else 0#32) ∧
    s.LanesGive (.shrN32 d a b t) (fm32 d a b t)
      (word fun th => if (th.read32 b).toNat < 32 then th.read32 a >>> (th.read32 b).toNat else 0#32) ∧
    s.LanesGive (.shrI32 d a b t) (fm32 d a b t)
      (word fun th => if (th.read32 b).toNat < 32 then (th.read32 a).sshiftRight (th.read32 b).toNat
        else if (th.read32 a).msb then BitVec.allOnes 32 else 0#32) ∧
    s.LanesGive (.rolN32 d a b t) (fm32 d a b t)
      (word fun th => (th.read32 a).rotateLeft ((th.read32 b).toNat % 32)) ∧
    s.LanesGive (.rorN32 d a b t) (fm32 d a b t)
      (word fun th => (th.read32 a).rotateRight ((th.read32 b).toNat % 32)) ∧
    s.LanesGive (.shlN64 d a b t) (fm64b32 d a b t)
      (fun th => if (th.read32 b).toNat < 64 then th.read64 a <<< (th.read32 b).toNat else 0#64) ∧
    s.LanesGive (.shrN64 d a b t) (fm64b32 d a b t)
      (fun th => if (th.read32 b).toNat < 64 then th.read64 a >>> (th.read32 b).toNat else 0#64) ∧
    s.LanesGive (.shrI64 d a b t) (fm64b32 d a b t)
      (fun th => if (th.read32 b).toNat < 64 then (th.read64 a).sshiftRight (th.read32 b).toNat
        else if (th.read64 a).msb then BitVec.allOnes 64 else 0#64))

/-- For every state and operand: each packed element of the result is the sum or difference of the same elements of a
and b, low 16 or low 8 bits or clamped to the element's type, with no carry between elements; dot.i8 adds the four
products of signed bytes to c modulo 2^32; everything else is left as it was. For every state, vd and imm16: the forms
of majors 0x10 to 0x16 give the result of Table 7.1 with the immediate sign-extended for an i type and zero-extended
for an n type (shift amounts always n16); set gives all ones or 0; movl and movh replace one half; mov gives the
immediate; everything else is left as it was. (spec/07_thread_arithmetic.md R131, R138, spec/05_number_formats.md R81)
-/
def Obligations.PackedElementsAndImmediates : Prop :=
  (
  ∀ (s : State) (d a b : BitVec 7) (t : Bool),
    s.LanesGive (.addI16 d a b t) (fm32 d a b t) (word fun th => halves (fun x y => x + y) (th.read32 a) (th.read32 b)) ∧
    s.LanesGive (.subI16 d a b t) (fm32 d a b t) (word fun th => halves (fun x y => x - y) (th.read32 a) (th.read32 b)) ∧
    s.LanesGive (.addI8 d a b t) (fm32 d a b t) (word fun th => bytes4 (fun x y => x + y) (th.read32 a) (th.read32 b)) ∧
    s.LanesGive (.subI8 d a b t) (fm32 d a b t) (word fun th => bytes4 (fun x y => x - y) (th.read32 a) (th.read32 b)) ∧
    s.LanesGive (.addsatI16 d a b t) (fm32 d a b t)
      (word fun th => halves (fun x y => BitVec.ofInt 16 (max (-32768) (min 32767 (x.toInt + y.toInt)))) (th.read32 a) (th.read32 b)) ∧
    s.LanesGive (.subsatI16 d a b t) (fm32 d a b t)
      (word fun th => halves (fun x y => BitVec.ofInt 16 (max (-32768) (min 32767 (x.toInt - y.toInt)))) (th.read32 a) (th.read32 b)) ∧
    s.LanesGive (.addsatN8 d a b t) (fm32 d a b t)
      (word fun th => bytes4 (fun x y => BitVec.ofNat 8 (min 255 (x.toNat + y.toNat))) (th.read32 a) (th.read32 b)) ∧
    s.LanesGive (.dotI8 d a b t) (fm32 d a b t).withVc32
      (word fun th => th.read32 s.cur.vc +
        (byteOf (th.read32 a) 0).signExtend 32 * (byteOf (th.read32 b) 0).signExtend 32 +
        (byteOf (th.read32 a) 1).signExtend 32 * (byteOf (th.read32 b) 1).signExtend 32 +
        (byteOf (th.read32 a) 2).signExtend 32 * (byteOf (th.read32 b) 2).signExtend 32 +
        (byteOf (th.read32 a) 3).signExtend 32 * (byteOf (th.read32 b) 3).signExtend 32)) ∧ (
  ∀ (s : State) (d : BitVec 7) (m : BitVec 16),
    s.LanesGive (.addI32Imm d m) (fmI32 d (immI32 m)) (word fun th => th.read32 d + m.signExtend 32) ∧
    s.LanesGive (.addI64Imm d m) (fmI64 d (immI m)) (fun th => th.read64 d + m.signExtend 64) ∧
    s.LanesGive (.addsatI32Imm d m) (fmI32 d (immI32 m))
      (word fun th => BitVec.ofInt 32 (max (-2147483648) (min 2147483647 ((th.read32 d).toInt + m.toInt)))) ∧
    s.LanesGive (.addsatN32Imm d m) (fmI32 d (immN m))
      (word fun th => BitVec.ofNat 32 (min 4294967295 ((th.read32 d).toNat + m.toNat))) ∧
    s.LanesGive (.andN32Imm d m) (fmI32 d (immN m)) (word fun th => th.read32 d &&& m.setWidth 32) ∧
    s.LanesGive (.orN32Imm d m) (fmI32 d (immN m)) (word fun th => th.read32 d ||| m.setWidth 32) ∧
    s.LanesGive (.xorN32Imm d m) (fmI32 d (immN m)) (word fun th => th.read32 d ^^^ m.setWidth 32) ∧
    s.LanesGive (.shlN32Imm d m) (fmI32 d (immN m)) (word fun th => if m.toNat < 32 then th.read32 d <<< m.toNat else 0#32) ∧
    s.LanesGive (.shrN32Imm d m) (fmI32 d (immN m)) (word fun th => if m.toNat < 32 then th.read32 d >>> m.toNat else 0#32) ∧
    s.LanesGive (.shrI32Imm d m) (fmI32 d (immN m))
      (word fun th => if m.toNat < 32 then (th.read32 d).sshiftRight m.toNat
        else if (th.read32 d).msb then BitVec.allOnes 32 else 0#32) ∧
    s.LanesGive (.rorN32Imm d m) (fmI32 d (immN m)) (word fun th => (th.read32 d).rotateRight (m.toNat % 32)) ∧
    s.LanesGive (.setEqI32 d m) (fmI32 d (immI32 m))
      (word fun th => if th.read32 d = m.signExtend 32 then BitVec.allOnes 32 else 0#32) ∧
    s.LanesGive (.setNeI32 d m) (fmI32 d (immI32 m))
      (word fun th => if th.read32 d = m.signExtend 32 then 0#32 else BitVec.allOnes 32) ∧
    s.LanesGive (.setLtI32 d m) (fmI32 d (immI32 m))
      (word fun th => if (th.read32 d).slt (m.signExtend 32) then BitVec.allOnes 32 else 0#32) ∧
    s.LanesGive (.setLtN32 d m) (fmI32 d (immN m))
      (word fun th => if (th.read32 d).ult (m.setWidth 32) then BitVec.allOnes 32 else 0#32) ∧
    s.LanesGive (.movlN32 d m) (fmI32 d (immN m)) (word fun th => ((th.read32 d).extractLsb' 16 16 ++ m : BitVec 32)) ∧
    s.LanesGive (.movhN32 d m) (fmI32 d (immN m)) (word fun th => (m ++ (th.read32 d).extractLsb' 0 16 : BitVec 32)) ∧
    s.LanesGive (.movI32Imm d m) ({ fmI32 d (immI32 m) with a := .none }) (word fun _ => m.signExtend 32) ∧
    s.LanesGive (.movN32Imm d m) ({ fmI32 d (immN m) with a := .none }) (word fun _ => m.setWidth 32) ∧
    s.LanesGive (.mulI32Imm d m) (fmI32 d (immI32 m)) (word fun th => th.read32 d * m.signExtend 32) ∧
    s.LanesGive (.mulI64Imm d m) (fmI64 d (immI m)) (fun th => th.read64 d * m.signExtend 64) ∧
    s.LanesGive (.minI32Imm d m) (fmI32 d (immI32 m))
      (word fun th => if (th.read32 d).slt (m.signExtend 32) then th.read32 d else m.signExtend 32) ∧
    s.LanesGive (.maxI32Imm d m) (fmI32 d (immI32 m))
      (word fun th => if (th.read32 d).slt (m.signExtend 32) then m.signExtend 32 else th.read32 d) ∧
    s.LanesGive (.minN32Imm d m) (fmI32 d (immN m))
      (word fun th => if (th.read32 d).ult (m.setWidth 32) then th.read32 d else m.setWidth 32) ∧
    s.LanesGive (.maxN32Imm d m) (fmI32 d (immN m))
      (word fun th => if (th.read32 d).ult (m.setWidth 32) then m.setWidth 32 else th.read32 d))

/-- For every state and operand: a compare writes the truth of its condition to the predicate it names, and p7 still
reads as true; sel takes a where pk holds in the lane and b otherwise; mov copies; shadd adds a shifted left by 0 to
3; everything else is left as it was. For every state and operand: pand, por, pxor, pandn and pnot write the named
predicate, a write to p7 being ignored; ptov writes p0 to p7 (p7 true) to bits 7:0 and zero above; vtop writes bits
6:0 to p0 to p6; everything else is left as it was. (R135, R136, R137) -/
def Obligations.ComparesSelectsAndPredicates : Prop :=
  (
  ∀ (s : State) (d a b : BitVec 7) (t : Bool) (p : BitVec 3) (cc : BitVec 3) (sh : BitVec 2),
    s.LanesGive (.cmpI32 p a b cc) (fmP32 p a b) (fun th => boolWord (
      if cc = 0#3 then th.read32 a == th.read32 b
      else if cc = 1#3 then th.read32 a != th.read32 b
      else if cc = 2#3 then (th.read32 a).slt (th.read32 b)
      else if cc = 3#3 then (th.read32 a).sle (th.read32 b)
      else if cc = 4#3 then (th.read32 b).slt (th.read32 a)
      else if cc = 5#3 then (th.read32 b).sle (th.read32 a)
      else if cc = 6#3 then (th.read32 a).ult (th.read32 b)
      else (th.read32 a).ule (th.read32 b))) ∧
    s.LanesGive (.cmpEqI64 p a b) (fmP64 p a b) (fun th => boolWord (th.read64 a == th.read64 b)) ∧
    s.LanesGive (.cmpLtI64 p a b) (fmP64 p a b) (fun th => boolWord ((th.read64 a).slt (th.read64 b))) ∧
    s.LanesGive (.cmpLtN64 p a b) (fmP64 p a b) (fun th => boolWord ((th.read64 a).ult (th.read64 b))) ∧
    s.LanesGive (.selN32 d a b p t) ({ fm32 d a b t with c := .pred p })
      (word fun th => if th.pred p.toNat then th.read32 a else th.read32 b) ∧
    s.LanesGive (.movN32 d a t) (fm32u d a t) (word fun th => th.read32 a) ∧
    s.LanesGive (.movN64 d a t) (fm64u d a t) (fun th => th.read64 a) ∧
    s.LanesGive (.shaddN32 d a b sh t) (fm32 d a b t) (word fun th => (th.read32 a <<< sh.toNat) + th.read32 b) ∧
    s.LanesGive (.shaddN64 d a b sh t) ({ fm64 d a b t with a := .r32 a })
      (fun th => ((th.read32 a).setWidth 64 <<< sh.toNat) + th.read64 b)) ∧ (
  ∀ (s : State) (p q r : BitVec 3) (d a : BitVec 7) (t : Bool),
    s.LanesGive (.pand p q r) (fmPP p q r) (fun th => boolWord (th.pred q.toNat && th.pred r.toNat)) ∧
    s.LanesGive (.por p q r) (fmPP p q r) (fun th => boolWord (th.pred q.toNat || th.pred r.toNat)) ∧
    s.LanesGive (.pxor p q r) (fmPP p q r) (fun th => boolWord (th.pred q.toNat ^^ th.pred r.toNat)) ∧
    s.LanesGive (.pandn p q r) (fmPP p q r) (fun th => boolWord (th.pred q.toNat && !th.pred r.toNat)) ∧
    s.LanesGive (.pnot p q) ({ fmPP p q 7#3 with b := .none }) (fun th => boolWord (!th.pred q.toNat)) ∧
    s.LanesGive (.ptovN32 d t) ({ dst := .r32 d, a := .preds, b := .none, c := .none, tr := t, rnd := .none })
      (word fun th => bitsWhere fun i => i < 8 && th.pred i) ∧
    s.LanesGive (.vtopN32 a) ({ dst := .preds, a := .r32 a, b := .none, c := .none, tr := false, rnd := .none })
      (fun th => (th.read32 a).setWidth 64))

/-- For every state, operand and rounding field: each f32 and f64 instruction of majors 0x18 to 0x21, when nothing
stops it, writes the one rounded result of the exact operation on the values of its operands, under the mode of the
prefix (to the nearest even by default), to its register or pair in every active lane and leaves everything else as it
was. The operations are those of the model's number formats; exp2, log2, sinpi and cospi to 400 fraction bits before
the one rounding, and which of the other forms take a rounding field, are the model's choices (assumption log rows 48
and 49). (spec/07_thread_arithmetic.md R139, R142, spec/05_number_formats.md R87, notes/assumptions/48.md,
notes/assumptions/49.md) -/
def Obligations.FloatArithmetic : Prop :=
  ∀ (s : State) (d a b : BitVec 7) (t : Bool),
    s.LanesGive (.faddF32 d a b t) (fm32 d a b t).rounded (pattern fun th => f32Fmt.add s.mode (th.read32 a).toNat (th.read32 b).toNat) ∧
    s.LanesGive (.fsubF32 d a b t) (fm32 d a b t).rounded (pattern fun th => f32Fmt.sub s.mode (th.read32 a).toNat (th.read32 b).toNat) ∧
    s.LanesGive (.fmulF32 d a b t) (fm32 d a b t).rounded (pattern fun th => f32Fmt.mul s.mode (th.read32 a).toNat (th.read32 b).toNat) ∧
    s.LanesGive (.fdivF32 d a b t) (fm32 d a b t).rounded (pattern fun th => f32Fmt.div s.mode (th.read32 a).toNat (th.read32 b).toNat) ∧
    s.LanesGive (.fmaF32 d a b t) (fm32 d a b t).rounded.withVc32 (pattern fun th => f32Fmt.fma s.mode (th.read32 a).toNat (th.read32 b).toNat (th.read32 s.cur.vc).toNat) ∧
    s.LanesGive (.fmsF32 d a b t) (fm32 d a b t).rounded.withVc32 (pattern fun th => f32Fmt.fms s.mode (th.read32 a).toNat (th.read32 b).toNat (th.read32 s.cur.vc).toNat) ∧
    s.LanesGive (.fnmaF32 d a b t) (fm32 d a b t).rounded.withVc32 (pattern fun th => f32Fmt.fnma s.mode (th.read32 a).toNat (th.read32 b).toNat (th.read32 s.cur.vc).toNat) ∧
    s.LanesGive (.fminF32 d a b t) (fm32 d a b t).rounded (pattern fun th => f32Fmt.min (th.read32 a).toNat (th.read32 b).toNat) ∧
    s.LanesGive (.fmaxF32 d a b t) (fm32 d a b t).rounded (pattern fun th => f32Fmt.max (th.read32 a).toNat (th.read32 b).toNat) ∧
    s.LanesGive (.faddF64 d a b t) (fm64 d a b t).rounded (pattern fun th => f64Fmt.add s.mode (th.read64 a).toNat (th.read64 b).toNat) ∧
    s.LanesGive (.fsubF64 d a b t) (fm64 d a b t).rounded (pattern fun th => f64Fmt.sub s.mode (th.read64 a).toNat (th.read64 b).toNat) ∧
    s.LanesGive (.fmulF64 d a b t) (fm64 d a b t).rounded (pattern fun th => f64Fmt.mul s.mode (th.read64 a).toNat (th.read64 b).toNat) ∧
    s.LanesGive (.fdivF64 d a b t) (fm64 d a b t).rounded (pattern fun th => f64Fmt.div s.mode (th.read64 a).toNat (th.read64 b).toNat) ∧
    s.LanesGive (.fmaF64 d a b t) (fm64 d a b t).rounded.withVc64 (pattern fun th => f64Fmt.fma s.mode (th.read64 a).toNat (th.read64 b).toNat (th.read64 s.cur.vc).toNat) ∧
    s.LanesGive (.fmsF64 d a b t) (fm64 d a b t).rounded.withVc64 (pattern fun th => f64Fmt.fms s.mode (th.read64 a).toNat (th.read64 b).toNat (th.read64 s.cur.vc).toNat) ∧
    s.LanesGive (.fnmaF64 d a b t) (fm64 d a b t).rounded.withVc64 (pattern fun th => f64Fmt.fnma s.mode (th.read64 a).toNat (th.read64 b).toNat (th.read64 s.cur.vc).toNat) ∧
    s.LanesGive (.fminF64 d a b t) (fm64 d a b t).rounded (pattern fun th => f64Fmt.min (th.read64 a).toNat (th.read64 b).toNat) ∧
    s.LanesGive (.fmaxF64 d a b t) (fm64 d a b t).rounded (pattern fun th => f64Fmt.max (th.read64 a).toNat (th.read64 b).toNat) ∧
    s.LanesGive (.fsqrtF32 d a t) (fm32u d a t).rounded (pattern fun th => f32Fmt.sqrt s.mode (th.read32 a).toNat) ∧
    s.LanesGive (.fsqrtF64 d a t) (fm64u d a t).rounded (pattern fun th => f64Fmt.sqrt s.mode (th.read64 a).toNat) ∧
    s.LanesGive (.rcpF32 d a t) (fm32u d a t) (pattern fun th => rcpF32 (th.read32 a).toNat) ∧
    s.LanesGive (.rsqrtF32 d a t) (fm32u d a t) (pattern fun th => rsqrtF32 (th.read32 a).toNat) ∧
    s.LanesGive (.exp2F32 d a t) (fm32u d a t) (pattern fun th => exp2F32 (th.read32 a).toNat) ∧
    s.LanesGive (.log2F32 d a t) (fm32u d a t) (pattern fun th => log2F32 (th.read32 a).toNat) ∧
    s.LanesGive (.sinpiF32 d a t) (fm32u d a t) (pattern fun th => sinpiF32 (th.read32 a).toNat) ∧
    s.LanesGive (.cospiF32 d a t) (fm32u d a t) (pattern fun th => cospiF32 (th.read32 a).toNat)

/-- For every state, operand and rounding field: the packed forms of majors 0x1E and 0x1F act on each element
independently, element e of the result from element e of each operand, each rounded to its own format; fdot sums c and
the four exact products and rounds once; cvt.f16 widens bytes 0 and 1 and ignores bytes 2 and 3; everything else is
left as it was. (R141) -/
def Obligations.PackedFloatArithmetic : Prop :=
  ∀ (s : State) (d a b : BitVec 7) (t : Bool),
    s.LanesGive (.faddF16 d a b t) (fm32 d a b t).rounded (word fun th => halves (fun x y => BitVec.ofNat 16 (f16Fmt.add s.mode x.toNat y.toNat)) (th.read32 a) (th.read32 b)) ∧
    s.LanesGive (.fmulF16 d a b t) (fm32 d a b t).rounded (word fun th => halves (fun x y => BitVec.ofNat 16 (f16Fmt.mul s.mode x.toNat y.toNat)) (th.read32 a) (th.read32 b)) ∧
    s.LanesGive (.fmaF16 d a b t) (fm32 d a b t).rounded.withVc32 (word fun th => halves3 (fun x y z => BitVec.ofNat 16 (f16Fmt.fma s.mode x.toNat y.toNat z.toNat))
        (th.read32 a) (th.read32 b) (th.read32 s.cur.vc)) ∧
    s.LanesGive (.fmaxF16 d a b t) (fm32 d a b t).rounded (word fun th => halves (fun x y => BitVec.ofNat 16 (f16Fmt.max x.toNat y.toNat)) (th.read32 a) (th.read32 b)) ∧
    s.LanesGive (.faddBf16 d a b t) (fm32 d a b t).rounded (word fun th => halves (fun x y => BitVec.ofNat 16 (bf16Fmt.add s.mode x.toNat y.toNat)) (th.read32 a) (th.read32 b)) ∧
    s.LanesGive (.fmulBf16 d a b t) (fm32 d a b t).rounded (word fun th => halves (fun x y => BitVec.ofNat 16 (bf16Fmt.mul s.mode x.toNat y.toNat)) (th.read32 a) (th.read32 b)) ∧
    s.LanesGive (.fmaBf16 d a b t) (fm32 d a b t).rounded.withVc32 (word fun th => halves3 (fun x y z => BitVec.ofNat 16 (bf16Fmt.fma s.mode x.toNat y.toNat z.toNat))
        (th.read32 a) (th.read32 b) (th.read32 s.cur.vc)) ∧
    s.LanesGive (.fmaxBf16 d a b t) (fm32 d a b t).rounded (word fun th => halves (fun x y => BitVec.ofNat 16 (bf16Fmt.max x.toNat y.toNat)) (th.read32 a) (th.read32 b)) ∧
    s.LanesGive (.faddE4m3 d a b t) (fm32 d a b t).rounded (word fun th => bytes4 (fun x y => BitVec.ofNat 8 (e4m3Fmt.add s.mode x.toNat y.toNat)) (th.read32 a) (th.read32 b)) ∧
    s.LanesGive (.fmulE4m3 d a b t) (fm32 d a b t).rounded (word fun th => bytes4 (fun x y => BitVec.ofNat 8 (e4m3Fmt.mul s.mode x.toNat y.toNat)) (th.read32 a) (th.read32 b)) ∧
    s.LanesGive (.fdotF32E4m3 d a b t) (fm32 d a b t).rounded.withVc32 (pattern fun th => f32Fmt.sumRound s.mode (f32Fmt.value (th.read32 s.cur.vc).toNat ::
        [0, 1, 2, 3].map (fun e => (e4m3Fmt.value (byteOf (th.read32 a) e).toNat).mul (e4m3Fmt.value (byteOf (th.read32 b) e).toNat)))) ∧
    s.LanesGive (.cvtF16E4m3 d a t) (fm32u d a t).rounded (word fun th => (BitVec.ofNat 16 (e4m3Fmt.convert f16Fmt .rne (byteOf (th.read32 a) 1).toNat) ++
        BitVec.ofNat 16 (e4m3Fmt.convert f16Fmt .rne (byteOf (th.read32 a) 0).toNat) : BitVec 32)) ∧
    s.LanesGive (.faddE5m2 d a b t) (fm32 d a b t).rounded (word fun th => bytes4 (fun x y => BitVec.ofNat 8 (e5m2Fmt.add s.mode x.toNat y.toNat)) (th.read32 a) (th.read32 b)) ∧
    s.LanesGive (.fmulE5m2 d a b t) (fm32 d a b t).rounded (word fun th => bytes4 (fun x y => BitVec.ofNat 8 (e5m2Fmt.mul s.mode x.toNat y.toNat)) (th.read32 a) (th.read32 b)) ∧
    s.LanesGive (.fdotF32E5m2 d a b t) (fm32 d a b t).rounded.withVc32 (pattern fun th => f32Fmt.sumRound s.mode (f32Fmt.value (th.read32 s.cur.vc).toNat ::
        [0, 1, 2, 3].map (fun e => (e5m2Fmt.value (byteOf (th.read32 a) e).toNat).mul (e5m2Fmt.value (byteOf (th.read32 b) e).toNat)))) ∧
    s.LanesGive (.cvtF16E5m2 d a t) (fm32u d a t).rounded (word fun th => (BitVec.ofNat 16 (e5m2Fmt.convert f16Fmt .rne (byteOf (th.read32 a) 1).toNat) ++
        BitVec.ofNat 16 (e5m2Fmt.convert f16Fmt .rne (byteOf (th.read32 a) 0).toNat) : BitVec 32))

/-- For every state and operand: fabs clears, fneg inverts and fcopysign replaces the sign bit and no other bit;
fclass writes the one bit of its class; fcmp writes the condition's truth, an unordered pair making ne and un true and
every other condition false; everything else is left as it was. For every state, vd, imm16 and rounding field: each
form of majors 0x24 to 0x26 gives the result of the LR form of the same mnemonic with b the immediate: a bf16 value
widened for f32, f64 and bf16 (a NaN immediate as the canonical NaN), the pattern itself in each half or pair of bytes
for f16 and FP8; everything else is left as it was. That fabs, fneg, fcopysign and fclass take no rounding field is
the model's choice (assumption log row 49). (spec/07_thread_arithmetic.md R138, R143, notes/assumptions/49.md) -/
def Obligations.FloatComparesAndImmediates : Prop :=
  (
  ∀ (s : State) (d a b : BitVec 7) (t : Bool) (p cc : BitVec 3),
    s.LanesGive (.fabsF32 d a t) (fm32u d a t) (word fun th => th.read32 a &&& 0x7FFFFFFF#32) ∧
    s.LanesGive (.fnegF32 d a t) (fm32u d a t) (word fun th => th.read32 a ^^^ 0x80000000#32) ∧
    s.LanesGive (.fcopysignF32 d a b t) (fm32 d a b t)
      (word fun th => (th.read32 a &&& 0x7FFFFFFF#32) ||| (th.read32 b &&& 0x80000000#32)) ∧
    s.LanesGive (.fclassF32 d a t) (fm32u d a t) (pattern fun th => classBit 8 23 (th.read32 a).toNat) ∧
    s.LanesGive (.fabsF64 d a t) (fm64u d a t) (fun th => th.read64 a &&& 0x7FFFFFFFFFFFFFFF#64) ∧
    s.LanesGive (.fnegF64 d a t) (fm64u d a t) (fun th => th.read64 a ^^^ 0x8000000000000000#64) ∧
    s.LanesGive (.fcopysignF64 d a b t) (fm64 d a b t)
      (fun th => (th.read64 a &&& 0x7FFFFFFFFFFFFFFF#64) ||| (th.read64 b &&& 0x8000000000000000#64)) ∧
    s.LanesGive (.fclassF64 d a t) ({ fm64u d a t with dst := .r32 d }) (pattern fun th => classBit 11 52 (th.read64 a).toNat) ∧
    s.LanesGive (.fcmpF32 p a b cc) ({ dst := .pred p, a := .r32 a, b := .r32 b, c := .none, tr := false, rnd := .none })
      (fun th => boolWord (compared cc (f32Fmt.value (th.read32 a).toNat) (f32Fmt.value (th.read32 b).toNat))) ∧
    s.LanesGive (.fcmpF64 p a b cc) ({ dst := .pred p, a := .r64 a, b := .r64 b, c := .none, tr := false, rnd := .none })
      (fun th => boolWord (compared cc (f64Fmt.value (th.read64 a).toNat) (f64Fmt.value (th.read64 b).toNat)))) ∧ (
  ∀ (s : State) (d : BitVec 7) (m : BitVec 16),
    s.LanesGive (.faddF32Imm d m) (fmI32 d (immF32 m)).rounded (pattern fun th => f32Fmt.add s.mode (th.read32 d).toNat (f32Fmt.ofVal .rne (bf16Fmt.value m.toNat))) ∧
    s.LanesGive (.fmulF32Imm d m) (fmI32 d (immF32 m)).rounded (pattern fun th => f32Fmt.mul s.mode (th.read32 d).toNat (f32Fmt.ofVal .rne (bf16Fmt.value m.toNat))) ∧
    s.LanesGive (.fmaxF32Imm d m) (fmI32 d (immF32 m)).rounded (pattern fun th => f32Fmt.max (th.read32 d).toNat (f32Fmt.ofVal .rne (bf16Fmt.value m.toNat))) ∧
    s.LanesGive (.fminF32Imm d m) (fmI32 d (immF32 m)).rounded (pattern fun th => f32Fmt.min (th.read32 d).toNat (f32Fmt.ofVal .rne (bf16Fmt.value m.toNat))) ∧
    s.LanesGive (.faddF64Imm d m) (fmI64 d (immF64 m)).rounded (pattern fun th => f64Fmt.add s.mode (th.read64 d).toNat (f64Fmt.ofVal .rne (bf16Fmt.value m.toNat))) ∧
    s.LanesGive (.fmulF64Imm d m) (fmI64 d (immF64 m)).rounded (pattern fun th => f64Fmt.mul s.mode (th.read64 d).toNat (f64Fmt.ofVal .rne (bf16Fmt.value m.toNat))) ∧
    s.LanesGive (.fmaxF64Imm d m) (fmI64 d (immF64 m)).rounded (pattern fun th => f64Fmt.max (th.read64 d).toNat (f64Fmt.ofVal .rne (bf16Fmt.value m.toNat))) ∧
    s.LanesGive (.fminF64Imm d m) (fmI64 d (immF64 m)).rounded (pattern fun th => f64Fmt.min (th.read64 d).toNat (f64Fmt.ofVal .rne (bf16Fmt.value m.toNat))) ∧
    s.LanesGive (.fmulF16Imm d m) (fmI32 d (immTwice m)).rounded (word fun th => halves (fun x y => BitVec.ofNat 16 (f16Fmt.mul s.mode x.toNat y.toNat)) (th.read32 d) (m ++ m)) ∧
    s.LanesGive (.fmulBf16Imm d m) (fmI32 d (immPackedBf16 m)).rounded (word fun th => halves (fun x y => BitVec.ofNat 16 (bf16Fmt.mul s.mode x.toNat y.toNat)) (th.read32 d)
        (BitVec.ofNat 16 (bf16Fmt.ofVal .rne (bf16Fmt.value m.toNat)) ++ BitVec.ofNat 16 (bf16Fmt.ofVal .rne (bf16Fmt.value m.toNat)))) ∧
    s.LanesGive (.fmulE4m3Imm d m) (fmI32 d (immTwice m)).rounded (word fun th => bytes4 (fun x y => BitVec.ofNat 8 (e4m3Fmt.mul s.mode x.toNat y.toNat)) (th.read32 d) (m ++ m)) ∧
    s.LanesGive (.fmulE5m2Imm d m) (fmI32 d (immTwice m)).rounded (word fun th => bytes4 (fun x y => BitVec.ofNat 8 (e5m2Fmt.mul s.mode x.toNat y.toNat)) (th.read32 d) (m ++ m)))

/-- For every state, operand and rounding field: each conversion of majors 0x28 and 0x29 rounds once (float to integer
toward zero by default and clamped to the type, everything else to the nearest even by default); a 16-bit source is
the low half and a 16-bit result clears the upper half; the FP8 packing forms write a to bits 7:0 and b to bits 15:8
and clear the rest; everything else is left as it was. For every state, destination and source run and rounding field:
the six forms of major 0x2A, when nothing stops them, write the words of the encoded or decoded blocks to their
destination run in every active lane (the rest of a register that a block ends in is 0), zeros to every register of
the run in an inactive lane under mz, and leave everything else as it was; a source run may overlap the destination
run, since every read comes first. (R145, R146) -/
def Obligations.ConversionsAndBlocks : Prop :=
  (
  ∀ (s : State) (d a b : BitVec 7) (t : Bool),
    s.LanesGive (.cvtF32I32 d a t) (fm32u d a t).rounded (pattern fun th => f32Fmt.ofInt s.mode (th.read32 a).toInt) ∧
    s.LanesGive (.cvtF32N32 d a t) (fm32u d a t).rounded (pattern fun th => f32Fmt.ofInt s.mode (th.read32 a).toNat) ∧
    s.LanesGive (.cvtI32F32 d a t) (fm32u d a t).rounded (word fun th => BitVec.ofInt 32 ((f32Fmt.value (th.read32 a).toNat).toIntClamped (roundingOf .rtz s.cur.rnd) (-2147483648) 2147483647)) ∧
    s.LanesGive (.cvtN32F32 d a t) (fm32u d a t).rounded (word fun th => BitVec.ofInt 32 ((f32Fmt.value (th.read32 a).toNat).toIntClamped (roundingOf .rtz s.cur.rnd) 0 4294967295)) ∧
    s.LanesGive (.cvtF64I64 d a t) (fm64u d a t).rounded (pattern fun th => f64Fmt.ofInt s.mode (th.read64 a).toInt) ∧
    s.LanesGive (.cvtI64F64 d a t) (fm64u d a t).rounded (fun th => BitVec.ofInt 64 ((f64Fmt.value (th.read64 a).toNat).toIntClamped (roundingOf .rtz s.cur.rnd) (-9223372036854775808)
        9223372036854775807)) ∧
    s.LanesGive (.cvtF64I32 d a t) ({ fm32u d a t with dst := .r64 d, rnd := .rounding }) (pattern fun th => f64Fmt.ofInt s.mode (th.read32 a).toInt) ∧
    s.LanesGive (.cvtI32F64 d a t) ({ fm64u d a t with dst := .r32 d, rnd := .rounding }) (word fun th => BitVec.ofInt 32 ((f64Fmt.value (th.read64 a).toNat).toIntClamped (roundingOf .rtz s.cur.rnd) (-2147483648) 2147483647)) ∧
    s.LanesGive (.cvtF64F32 d a t) ({ fm32u d a t with dst := .r64 d, rnd := .rounding }) (pattern fun th => f64Fmt.ofVal s.mode (f32Fmt.value (th.read32 a).toNat)) ∧
    s.LanesGive (.cvtF32F64 d a t) ({ fm64u d a t with dst := .r32 d, rnd := .rounding }) (pattern fun th => f32Fmt.ofVal s.mode (f64Fmt.value (th.read64 a).toNat)) ∧
    s.LanesGive (.cvtF32F16 d a t) (fm32u d a t).rounded (pattern fun th => f32Fmt.ofVal s.mode (f16Fmt.value (halfOf (th.read32 a) 0).toNat)) ∧
    s.LanesGive (.cvtF16F32 d a t) (fm32u d a t).rounded (word fun th => (0#16 ++ BitVec.ofNat 16 (f16Fmt.ofVal s.mode (f32Fmt.value (th.read32 a).toNat)) : BitVec 32)) ∧
    s.LanesGive (.cvtF32Bf16 d a t) (fm32u d a t).rounded (pattern fun th => f32Fmt.ofVal s.mode (bf16Fmt.value (halfOf (th.read32 a) 0).toNat)) ∧
    s.LanesGive (.cvtBf16F32 d a t) (fm32u d a t).rounded (word fun th => (0#16 ++ BitVec.ofNat 16 (bf16Fmt.ofVal s.mode (f32Fmt.value (th.read32 a).toNat)) : BitVec 32)) ∧
    s.LanesGive (.cvtE4m3F32 d a b t) (fm32 d a b t).rounded (word fun th => (0#16 ++ BitVec.ofNat 8 (e4m3Fmt.ofVal s.mode (f32Fmt.value (th.read32 b).toNat)) ++ BitVec.ofNat 8 (e4m3Fmt.ofVal s.mode (f32Fmt.value (th.read32 a).toNat)) : BitVec 32)) ∧
    s.LanesGive (.cvtE5m2F32 d a b t) (fm32 d a b t).rounded (word fun th => (0#16 ++ BitVec.ofNat 8 (e5m2Fmt.ofVal s.mode (f32Fmt.value (th.read32 b).toNat)) ++ BitVec.ofNat 8 (e5m2Fmt.ofVal s.mode (f32Fmt.value (th.read32 a).toNat)) : BitVec 32))) ∧ (
  ∀ (s : State) (d a : BitVec 7),
    s.BlocksGive (.cvtSx2F32 d a) d a 2 16 (fun th => sxEncodeBlocks 2 1 s.mode (th.readBlock a 16)) ∧
    s.BlocksGive (.cvtSx4F32 d a) d a 3 16 (fun th => sxEncodeBlocks 4 1 s.mode (th.readBlock a 16)) ∧
    s.BlocksGive (.cvtSx7F32 d a) d a 9 32 (fun th => sxEncodeBlocks 7 2 s.mode (th.readBlock a 32)) ∧
    s.BlocksGive (.cvtF32Sx2 d a) d a 16 2 (fun th => sxDecodeBlocks 2 1 (th.readBlock a 2)) ∧
    s.BlocksGive (.cvtF32Sx4 d a) d a 16 3 (fun th => sxDecodeBlocks 4 1 (th.readBlock a 3)) ∧
    s.BlocksGive (.cvtF32Sx7 d a) d a 32 9 (fun th => sxDecodeBlocks 7 2 (th.readBlock a 9)))

/-- For every state and operand: each form of major 0x2B, when nothing stops it, gives every active lane the register
of its source thread as it was before the instruction, zero where that thread is not present and active in the bundle;
the ballot sets one bit for each such thread of the reader's aligned block whose predicate holds; xl.add gives the low
32 bits of the sum over every thread present and active; everything else is left as it was. (R147, R148) -/
def Obligations.CrossLaneReads : Prop :=
  ∀ (s : State) (d a b : BitVec 7) (p : BitVec 3) (t : Bool),
    s.XlGives (.xlIdxN32 d a b t) { vd := d, wide := false, own := [src32 b], far := [farOpnd a false], tr := t }
      (fun _ th => s.farWord a (th.read32 b).toNat) ∧
    s.XlGives (.xlXorN32 d a b t) { vd := d, wide := false, own := [src32 b], far := [farOpnd a false], tr := t }
      (fun l th => s.farWord a (l.tid ^^^ (th.read32 b).toNat : Nat)) ∧
    s.XlGives (.xlUpN32 d a b t) { vd := d, wide := false, own := [src32 b], far := [farOpnd a false], tr := t }
      (fun l th => s.farWord a (l.tid - (th.read32 b).toNat)) ∧
    s.XlGives (.xlDownN32 d a b t) { vd := d, wide := false, own := [src32 b], far := [farOpnd a false], tr := t }
      (fun l th => s.farWord a (l.tid + (th.read32 b).toNat)) ∧
    s.XlGives (.xlIdxN64 d a b t) { vd := d, wide := true, own := [src32 b], far := [farOpnd a true], tr := t }
      (fun _ th => match s.source (th.read32 b).toNat with | some u => u.read64 a | none => 0#64) ∧
    s.XlGives (.xlBallotN64 d p t) { vd := d, wide := true, own := [], far := [], tr := t } (fun l th => s.ballot p l.tid th) ∧
    s.XlGives (.xlAddI32 d a t) { vd := d, wide := false, own := [], far := [farOpnd a false], tr := t }
      (fun _ _ => ((s.activeLanes.map (fun (e : Lane × Thread) => e.2.read32 a)).sum).setWidth 64) ∧
    (∀ id u, s.source id = some u → ∃ l ∈ s.cur.lanes, (l.tid : Int) = id ∧ s.thread? s.cur.crew l.tid = some u ∧
      s.cur.active l u = true) ∧
    (∀ id, s.source id = none → ∀ l u, l ∈ s.cur.lanes → (l.tid : Int) = id → s.thread? s.cur.crew l.tid = some u →
      s.cur.active l u = false) ∧
    (∀ cr tid th, s.curCrew? = some cr → cr.width ≤ 64 → ∀ i, (s.ballot p tid th).getLsbD i =
      (decide (i < cr.width) && match s.source ((cr.blockFirst th tid + i : Nat) : Int) with
        | some u => decide (u.role = th.role) && u.pred p.toNat
        | none => false))

/-- For every state and operand: each arithmetic form of GR majors 0x00 to 0x07, when nothing stops it, writes its
result to gd of the bundle's role once (g63 discards it), keeps sr.uconf as R119 says, takes every thread that issues
to the next instruction, and leaves all else as it was. The shifts read the low 32 bits of gb as their amount; rotates
take b mod 64. For every state, gd and imm16: each form of GI majors 0x08 to 0x0B, when nothing stops it, writes its
result of gd and the immediate (sign-extended for an i type, zero-extended for an n type, a shift amount always n16)
to gd of the role; movk replaces one 16-bit field of gd; all else is left as it was. That a uniform shift reads the
low 32 bits of its amount is the model's choice (assumption log row 17). (spec/07_thread_arithmetic.md R149, R150,
notes/assumptions/17.md) -/
def Obligations.UniformResults : Prop :=
  (
  ∀ (s : State) (d a b : BitVec 6),
    s.UniformGives (.gAddI64 d a b) [a, b] d (onUniform2 a b fun x y => x + y) ∧
    s.UniformGives (.gSubI64 d a b) [a, b] d (onUniform2 a b fun x y => x - y) ∧
    s.UniformGives (.gNegI64 d a) [a] d (onUniform a fun x => -x) ∧
    s.UniformGives (.gAbsI64 d a) [a] d (onUniform a fun x => if x.msb then -x else x) ∧
    s.UniformGives (.gMulI64 d a b) [a, b] d (onUniform2 a b fun x y => x * y) ∧
    s.UniformGives (.gMulhiI64 d a b) [a, b] d (onUniform2 a b fun x y => (x.signExtend 128 * y.signExtend 128).extractLsb' 64 64) ∧
    s.UniformGives (.gMulhiN64 d a b) [a, b] d (onUniform2 a b fun x y => (x.setWidth 128 * y.setWidth 128).extractLsb' 64 64) ∧
    s.UniformGives (.gDivI64 d a b) [a, b] d (onUniform2 a b fun x y => if y = 0#64 then BitVec.allOnes 64 else x.sdiv y) ∧
    s.UniformGives (.gDivN64 d a b) [a, b] d (onUniform2 a b fun x y => if y = 0#64 then BitVec.allOnes 64 else x / y) ∧
    s.UniformGives (.gRemI64 d a b) [a, b] d (onUniform2 a b fun x y => if y = 0#64 then x else x.srem y) ∧
    s.UniformGives (.gRemN64 d a b) [a, b] d (onUniform2 a b fun x y => if y = 0#64 then x else x % y) ∧
    s.UniformGives (.gAndN64 d a b) [a, b] d (onUniform2 a b fun x y => x &&& y) ∧
    s.UniformGives (.gOrN64 d a b) [a, b] d (onUniform2 a b fun x y => x ||| y) ∧
    s.UniformGives (.gXorN64 d a b) [a, b] d (onUniform2 a b fun x y => x ^^^ y) ∧
    s.UniformGives (.gAndnN64 d a b) [a, b] d (onUniform2 a b fun x y => x &&& ~~~y) ∧
    s.UniformGives (.gNotN64 d a) [a] d (onUniform a fun x => ~~~x) ∧
    s.UniformGives (.gShlN64 d a b) [a, b] d (onUniform2 a b fun x y => if (lo32 y).toNat < 64 then x <<< (lo32 y).toNat else 0#64) ∧
    s.UniformGives (.gShrN64 d a b) [a, b] d (onUniform2 a b fun x y => if (lo32 y).toNat < 64 then x >>> (lo32 y).toNat else 0#64) ∧
    s.UniformGives (.gShrI64 d a b) [a, b] d (onUniform2 a b fun x y => if (lo32 y).toNat < 64 then x.sshiftRight (lo32 y).toNat else if x.msb then BitVec.allOnes 64 else 0#64) ∧
    s.UniformGives (.gRolN64 d a b) [a, b] d (onUniform2 a b fun x y => x.rotateLeft (y.toNat % 64)) ∧
    s.UniformGives (.gRorN64 d a b) [a, b] d (onUniform2 a b fun x y => x.rotateRight (y.toNat % 64)) ∧
    s.UniformGives (.gSetEqI64 d a b) [a, b] d (onUniform2 a b fun x y => if x = y then 1#64 else 0#64) ∧
    s.UniformGives (.gSetNeI64 d a b) [a, b] d (onUniform2 a b fun x y => if x = y then 0#64 else 1#64) ∧
    s.UniformGives (.gSetLtI64 d a b) [a, b] d (onUniform2 a b fun x y => if x.slt y then 1#64 else 0#64) ∧
    s.UniformGives (.gSetLeI64 d a b) [a, b] d (onUniform2 a b fun x y => if x.sle y then 1#64 else 0#64) ∧
    s.UniformGives (.gSetLtN64 d a b) [a, b] d (onUniform2 a b fun x y => if x.ult y then 1#64 else 0#64) ∧
    s.UniformGives (.gSetLeN64 d a b) [a, b] d (onUniform2 a b fun x y => if x.ule y then 1#64 else 0#64) ∧
    s.UniformGives (.gMinI64 d a b) [a, b] d (onUniform2 a b fun x y => if x.slt y then x else y) ∧
    s.UniformGives (.gMaxI64 d a b) [a, b] d (onUniform2 a b fun x y => if x.slt y then y else x) ∧
    s.UniformGives (.gMinN64 d a b) [a, b] d (onUniform2 a b fun x y => if x.ult y then x else y) ∧
    s.UniformGives (.gMaxN64 d a b) [a, b] d (onUniform2 a b fun x y => if x.ult y then y else x) ∧
    s.UniformGives (.gMovN64 d a) [a] d (onUniform a fun x => x) ∧
    s.UniformGives (.gPopcN64 d a) [a] d (onUniform a fun x => BitVec.ofNat 64 ((List.range 64).countP fun i => x.getLsbD i)) ∧
    s.UniformGives (.gClzN64 d a) [a] d (onUniform a fun x => BitVec.ofNat 64 (leadingZeros x)) ∧
    s.UniformGives (.gCtzN64 d a) [a] d (onUniform a fun x => BitVec.ofNat 64 (leadingZeros x.reverse)) ∧
    s.UniformGives (.gBrevN64 d a) [a] d (onUniform a fun x => BitVec.ofFnLE fun i : Fin 64 => x.getLsbD (63 - i))) ∧ (
  ∀ (s : State) (d : BitVec 6) (m : BitVec 16),
    s.UniformGives (.gAddI64Imm d m) [d] d (onUniform d fun x => x + m.signExtend 64) ∧
    s.UniformGives (.gMulI64Imm d m) [d] d (onUniform d fun x => x * m.signExtend 64) ∧
    s.UniformGives (.gMinI64Imm d m) [d] d (onUniform d fun x => if x.slt (m.signExtend 64) then x else m.signExtend 64) ∧
    s.UniformGives (.gMaxI64Imm d m) [d] d (onUniform d fun x => if x.slt (m.signExtend 64) then m.signExtend 64 else x) ∧
    s.UniformGives (.gAndN64Imm d m) [d] d (onUniform d fun x => x &&& m.setWidth 64) ∧
    s.UniformGives (.gOrN64Imm d m) [d] d (onUniform d fun x => x ||| m.setWidth 64) ∧
    s.UniformGives (.gXorN64Imm d m) [d] d (onUniform d fun x => x ^^^ m.setWidth 64) ∧
    s.UniformGives (.gAndI64Imm d m) [d] d (onUniform d fun x => x &&& m.signExtend 64) ∧
    s.UniformGives (.gShlN64Imm d m) [d] d (onUniform d fun x => if m.toNat < 64 then x <<< m.toNat else 0#64) ∧
    s.UniformGives (.gShrN64Imm d m) [d] d (onUniform d fun x => if m.toNat < 64 then x >>> m.toNat else 0#64) ∧
    s.UniformGives (.gShrI64Imm d m) [d] d (onUniform d fun x => if m.toNat < 64 then x.sshiftRight m.toNat else if x.msb then BitVec.allOnes 64 else 0#64) ∧
    s.UniformGives (.gRolN64Imm d m) [d] d (onUniform d fun x => x.rotateLeft (m.toNat % 64)) ∧
    s.UniformGives (.gMovI64Imm d m) [] d (fun _ => m.signExtend 64) ∧
    s.UniformGives (.gMovN64Imm d m) [] d (fun _ => m.setWidth 64) ∧
    s.UniformGives (.gMovk16 d m) [d] d (onUniform d fun x => x.extractLsb' 32 32 ++ m ++ x.extractLsb' 0 16) ∧
    s.UniformGives (.gMovk32 d m) [d] d (onUniform d fun x => x.extractLsb' 48 16 ++ m ++ x.extractLsb' 0 32) ∧
    s.UniformGives (.gMovk48 d m) [d] d (onUniform d fun x => m ++ x.extractLsb' 0 48))

/-- For every state and operand, when nothing stops the instruction: g.movnz and g.movz write ga to gd when their
condition on gb holds, and otherwise write nothing and record no write; g.rdv zero-extends the lane register of the
bundle's lowest thread into gd; g.wrv writes va (or the pair) of every thread that issues; g.rdsr writes the system
register of its number, a per-thread register being the lowest thread's; g.uconf.clr clears sr.uconf and begins a
uniform epoch. All else is left as it was. That g.wrv writes no member of the bundle that does not issue is the
model's choice (assumption log row 87). (spec/07_thread_arithmetic.md R151, spec/06_threads_and_bundles.md R119,
notes/assumptions/87.md) -/
def Obligations.UniformMoves : Prop :=
  ∀ (s : State) (d a b : BitVec 6) (cr : Crew) (r : Role),
    (s.UniformClear [] [a, b] [d] cr r →
      (∃ t, exec (.gMovnzN64 d a b) s = .next t ∧
        if r.uread b.toNat ≠ 0#64 then s.UniformWrote t cr r d (r.uread a.toNat) else s.Passed t) ∧
      ∃ t, exec (.gMovzN64 d a b) s = .next t ∧
        if r.uread b.toNat = 0#64 then s.UniformWrote t cr r d (r.uread a.toNat) else s.Passed t) ∧
    (s.UniformClear [uniformLane a false] [] [d] cr r → ∀ l th, s.curLanes.head? = some (l, th) → a.toNat ∉ th.poison →
      ∃ t, exec (.gRdvN32 d a) s = .next t ∧ s.UniformWrote t cr r d ((th.readReg a.toNat).setWidth 64)) ∧
    (s.UniformClear [uniformLane d false] [a] [] cr r →
      ∃ t, exec (.gWrvN32 d a) s = .next t ∧ s.LanesBecome t fun _ th =>
        th.commit s.cur.length .now [(.reg d.toNat, lo32 (r.uread a.toNat))]) ∧
    (s.UniformClear [uniformLane d true] [a] [] cr r →
      ∃ t, exec (.gWrvN64 d a) s = .next t ∧ s.LanesBecome t fun _ th =>
        th.commit s.cur.length .now
          [(.reg d.toNat, lo32 (r.uread a.toNat)), (.reg (d.toNat + 1), hi32 (r.uread a.toNat))]) ∧
    (s.UniformClear [] [] [d] cr r (if a.toNat = 11 then [uconfUse] else []) → a.toNat ≤ 11 → ∀ l th, s.curLanes.head? = some (l, th) →
      ∃ t, exec (.gRdsr d a) s = .next t ∧ s.UniformWrote t cr r d (s.sysReg cr l.tid th a.toNat)) ∧
    (s.UniformClear [] [] [] cr r [uconfUse] →
      ∃ t cr' r', exec .gUconfClr s = .next t ∧ s.CrewOnly t ∧ t.crew? s.cur.crew = some cr' ∧
        { cr'.bare with roles := cr.roles } = cr.bare ∧ cr'.role? s.curRole = some r' ∧
        (∀ q, q ≠ s.curRole → cr'.role? q = cr.role? q) ∧
        r' = { r with uwriter := [], uconfSet := false, uconfReg := 0, uconfMulti := false } ∧
        (∀ u, u ∉ s.cur.tids → t.thread? s.cur.crew u = s.thread? s.cur.crew u) ∧
        ∀ l th, l ∈ s.cur.lanes → l.issued = true → s.thread? s.cur.crew l.tid = some th →
          t.thread? s.cur.crew l.tid = some (th.commit s.cur.length .now []))

/-- For every state and operand, with every promise of the threads ended first: br takes each lane whose condition
holds (R72: a predicate, or its inverse) to the target and every other lane to the next instruction, and changes
nothing else; loop does the same and steps sr.rb down by one modulo the size of the rotating region in each lane that
it takes; g.br takes every thread that issues by one uniform condition; cond 0xF of loop and cond 101 to 111 of g.br
are ILLEGAL_OP. For every state, with every promise of the threads ended first: br.ind takes an active lane to its
register's value and any other lane to the next instruction, when every active target is a multiple of 4 below the
code's size; for a bundle of one active thread, call and call.ind with SP + 4 within the stack enter the store of the
offset of the next instruction to stk[SP] in the FIFO, add 4 to SP and continue at the target, and trap with
BOUNDS_STK with SP + 4 beyond it; ret with SP ≥ 4 and an acceptable loaded target takes 4 from SP and continues at the
word that the thread reads there, its own stores to the stack first; nothing else changes but what the call-graph
prefetcher starts (R194). A target that is refused traps with ILLEGAL_OP before the stack check. That the return reads
the newest store to its slot, as the FIFO forwards it, is the model's reading (assumption log row 14).
(spec/08_thread_control_memory.md R158, R159, R160, R167, spec/09_code_objects.md R194, notes/assumptions/14.md) -/
def Obligations.ControlTransfers : Prop :=
  (
  ∀ (s u : State) (cc : BitVec 4) (off : BitVec 21), u = s.flushed →
    s.LanesBecome u (fun _ th => th.flushPend) ∧
    (∀ th : Thread, branchHolds cc th = if cc.toNat < 8 then th.pred (cc.toNat % 8) else !th.pred (cc.toNat % 8)) ∧
    (cc ≠ 15#4 → u.Clear { opnds := [], illegal := false, cls := PfxClass.noPrefix } →
      (∃ t, exec (.br cc off) s = .next t ∧ u.LanesBecome t fun _ th =>
        th.goTo 4 (if branchHolds cc th then s.cur.pc + off.signExtend 32 * 4#32 else s.cur.pc + 4#32)) ∧
      ∃ t, exec (.loopBr cc off) s = .next t ∧ u.LanesBecome t fun _ th =>
        if branchHolds cc th then
          let th' := th.goTo 4 (s.cur.pc + off.signExtend 32 * 4#32)
          match th.rot with
          | some (_, size) => { th' with rb := (th.rb + size - 1) % size }
          | none => th'
        else th.goTo 4 (s.cur.pc + 4#32)) ∧
    (cc = 15#4 → u.curLanes ≠ [] → exec (.loopBr cc off) s = .next u.illegalOp) ∧
    (∀ (c : BitVec 3) (ga : BitVec 6) (m : BitVec 16) cr r,
      (c.toNat ≤ 4 → s.UniformClear [] [ga] [] cr r →
        ∃ t, exec (.gBr c ga m) s = .next t ∧ s.LanesBecome t fun _ th =>
          let x := r.uread ga.toNat
          th.goTo 4 (if c = 0#3 ∨ (c = 1#3 ∧ x = 0#64) ∨ (c = 2#3 ∧ x ≠ 0#64) ∨ (c = 3#3 ∧ x.msb = true) ∨
            (c = 4#3 ∧ x.msb = false) then s.cur.pc + m.signExtend 32 * 4#32 else s.cur.pc + 4#32)) ∧
      (4 < c.toNat → s.curLanes ≠ [] → exec (.gBr c ga m) s = .next s.illegalOp))) ∧ (
  ∀ (s u : State) (va : BitVec 7) (off : BitVec 21), u = s.flushed →
    (u.Clear (lx [lxSrc32 va] false) →
      (∀ l th, (l, th) ∈ u.activeLanes → u.badTarget (th.read32 va) = false) →
      ∃ t, exec (.brInd va) s = .next t ∧ u.LanesBecome t fun l th =>
        th.goTo u.cur.length (if u.cur.active l th then th.read32 va else u.nextPc)) ∧
    (∀ a, u.badTarget a = false ↔ a.toNat % 4 = 0 ∧
      ∃ cr o, u.crew? u.cur.crew = some cr ∧ u.object? cr.ctx cr.obj = some o ∧ a.toNat < o.codeLen) ∧
    ∀ tid cr th, u.Solo tid cr th →
      (u.Clear { opnds := [], illegal := false, cls := PfxClass.noPrefix } → th.sp.toNat + 4 ≤ cr.stackSize →
        th.stackAbsent.contains (th.sp.toNat / 64) = false → th.fifo.length < 8 →
        ∃ t, exec (.call off) s = .next t ∧
          u.Called t tid (th.called u (s.cur.pc + off.signExtend 32 * 4#32))) ∧
      (u.Clear { opnds := [], illegal := false, cls := PfxClass.noPrefix } → cr.stackSize < th.sp.toNat + 4 →
        exec (.call off) s = .next (u.trap Code.boundsStk (u.maskOf fun e => u.cur.active e.1 e.2) th.sp.toNat)) ∧
      (u.Clear (lx [lxSrc32 va] false) → u.badTarget (th.read32 va) = false → cr.stackSize < th.sp.toNat + 4 →
        exec (.callInd va) s = .next (u.trap Code.boundsStk (u.maskOf fun e => u.cur.active e.1 e.2) th.sp.toNat)) ∧
      (u.Clear (lx [lxSrc32 va] false) → u.badTarget (th.read32 va) = false → th.sp.toNat + 4 ≤ cr.stackSize →
        th.stackAbsent.contains (th.sp.toNat / 64) = false → th.fifo.length < 8 →
        ∃ t, exec (.callInd va) s = .next t ∧ u.Called t tid (th.called u (th.read32 va))) ∧
      (u.Clear (lx [lxSrc32 va] false) → u.badTarget (th.read32 va) = true →
        exec (.callInd va) s = .next (u.trap Code.illegalOp (u.maskOf fun e => u.cur.active e.1 e.2)
          (th.read32 va).toNat)) ∧
      (u.Clear (lx [] false) → 4 ≤ th.sp.toNat → th.stackAbsent.contains ((th.sp.toNat - 4) / 64) = false →
        u.spacePoison cr th .stk (th.sp.toNat - 4) 4 false = none →
        ∀ w : Word, w = BitVec.ofNat 32 (leNat (th.stackBytes (th.sp.toNat - 4) 4)) → u.badTarget w = false →
        ∃ t, exec .ret s = .next t ∧ u.OnlyThread t tid { th.goTo u.cur.length w with sp := th.sp - 4#32 }) ∧
      (u.Clear (lx [] false) → th.sp.toNat < 4 →
        exec .ret s = .next (u.trap Code.boundsStk (u.maskOf fun e => u.cur.active e.1 e.2) th.sp.toNat)))

/-- For every state and operand, when nothing stops the instruction: nop only goes on; rgn enters the region of its
live-in set in every active lane; ix.set sets ixk from the packing of the region record and ix.get writes it; rot.set
sets or removes the rotating region and clears sr.rb; sr.rd writes the register of Table 8.2, of which tick, cycle and
launch are 64 bits wide (sr.cycle from a counter whose start is open); sp.get writes SP and sp.set sets it; inactive
lanes only go on, and all else is as it was. The start of sr.cycle and of sr.tick, sr.rb after rot.set #0, and the
value that a live-in register with an unwritten transient result leaves in its slot are the model's choices
(assumption log rows 4, 5, 80 and 88). (spec/08_thread_control_memory.md R162, R163, R164, R165,
spec/06_threads_and_bundles.md R121, R122, notes/assumptions/4.md, notes/assumptions/5.md, notes/assumptions/80.md,
notes/assumptions/88.md) -/
def Obligations.RegionsIndexAndSystemRegisters : Prop :=
  ∀ (s : State) (a b : BitVec 7) (k : BitVec 2) (la : BitVec 4),
    (s.Clear (lx [] false) → ∃ t, exec .nop s = .next t ∧ s.Passed t) ∧
    (∀ cr o, s.crew? s.cur.crew = some cr → s.object? cr.ctx cr.obj = some o →
      ∀ n, n = a.toNat * 128 + b.toNat → n < o.lsets.length → s.Clear (lx [] false) →
      (∀ l th r, (l, th) ∈ s.activeLanes → r ∈ o.lsets.getD n [] → r ∉ th.poison) →
      ∃ t, exec (.rgn a b) s = .next t ∧ s.ActiveBecome t fun _ th =>
        (th.commit s.cur.length .now []).enterRegion n (o.lsets.getD n [])) ∧
    (s.Clear (lx [lxSrc32 a] false) →
      (∀ l th, (l, th) ∈ s.activeLanes → (th.read32 a).extractLsb' 26 6 = 0#6 ∧
        ((th.read32 a).extractLsb' 0 8).toNat + ((th.read32 a).extractLsb' 8 9).toNat ≤ s.curBudget ∧
        ((th.read32 a).extractLsb' 17 9).toNat ≤ ((th.read32 a).extractLsb' 8 9).toNat) →
      ∃ t, exec (.ixSet a k) s = .next t ∧ s.ActiveBecome t fun _ th =>
        (th.commit s.cur.length .now []).setIx k.toNat
          { base := ((th.read32 a).extractLsb' 0 8).toNat, len := ((th.read32 a).extractLsb' 8 9).toNat
            cur := ((th.read32 a).extractLsb' 17 9).toNat }) ∧
    (s.Clear (lx [lxDst32 a] false) →
      (∃ t, exec (.ixGet a k la) s = .next t ∧ s.ActiveBecome t fun _ th =>
        th.commit s.cur.length (.after la.toNat) [(.reg (th.regOf a),
          BitVec.ofNat 32 ((th.ix k.toNat).base + (th.ix k.toNat).len * 2 ^ 8 + (th.ix k.toNat).cur * 2 ^ 17))]) ∧
      ∃ t, exec (.spGet a la) s = .next t ∧ s.ActiveBecome t fun _ th =>
        th.commit s.cur.length (.after la.toNat) [(.reg (th.regOf a), th.sp)]) ∧
    (s.Clear (lx [] false) →
      (∃ t, exec (.rotSet 0#7 0#7) s = .next t ∧ s.ActiveBecome t fun _ th =>
        { th.commit s.cur.length .now [] with rot := none, rb := 0 }) ∧
      ((b = 8#7 ∨ b = 16#7 ∨ b = 32#7) → 64 ≤ a.toNat → a.toNat + b.toNat ≤ 120 → a.toNat % b.toNat = 0 →
        a.toNat + b.toNat ≤ s.curBudget →
        ∃ t, exec (.rotSet a b) s = .next t ∧ s.ActiveBecome t fun _ th =>
          { th.commit s.cur.length .now [] with rot := some (a.toNat, b.toNat), rb := 0 })) ∧
    (∀ cr, s.crew? s.cur.crew = some cr →
      (∀ n : BitVec 7, n.toNat ≤ 11 → s.Clear (lx [if n = 5#7 ∨ n = 6#7 ∨ n = 9#7 then lxDst64 a else lxDst32 a] false) →
        ∃ t, exec (.srRd a n la) s = .next t ∧ s.ActiveBecome t fun l th =>
          th.commit s.cur.length (.after la.toNat)
            (if n = 5#7 ∨ n = 6#7 ∨ n = 9#7 then
              [(.reg (th.regOf a), lo32 (s.sysReg cr l.tid th n.toNat)),
                (.reg (th.regHiOf a), hi32 (s.sysReg cr l.tid th n.toNat))]
            else [(.reg (th.regOf a), lo32 (s.sysReg cr l.tid th n.toNat))])) ∧
      (∀ tid th, (List.range 12).map (s.sysReg cr tid th) =
        [BitVec.ofNat 64 tid, BitVec.ofNat 64 cr.index, BitVec.ofNat 64 th.role, BitVec.ofNat 64 (s.cur.laneOf tid),
          BitVec.ofNat 64 cr.width, BitVec.ofNat 64 (s.now / 1024),
          BitVec.ofNat 64 (s.now + Config.cycleOffset (clusterKey cr.die (cr.homeCluster th))),
          BitVec.ofNat 64 (cr.cluster + th.home), BitVec.ofNat 64 cr.die, cr.srLaunch, BitVec.ofNat 64 th.rb,
          match cr.role? th.role with
          | some r => r.uconf.setWidth 64
          | none => 0#64]) ∧
      (s.Clear (lx [lxSrc32 a] false) →
        (∀ l th, (l, th) ∈ s.activeLanes → (th.read32 a).toNat ≤ cr.stackSize ∧ (th.read32 a).toNat % 4 = 0) →
        ∃ t, exec (.spSet a) s = .next t ∧ s.ActiveBecome t fun _ th =>
          { th.commit s.cur.length .now [] with sp := th.read32 a }))

/-- For every state and operand: the loads of the stk, sh and die spaces and the acquire loads of sh and die, when
nothing stops them and their lines are ready, give every active lane the zero-extended bytes that it sees at its
address (its own latest stores before memory), promised by la, zero to an inactive lane under mz, and leave all else
as it was; a fleeting load of one thread also writes p6, and on an expired tile gives zero and counts the miss. (R152)
-/
def Obligations.LocalLoads : Prop :=
  ∀ (s : State) (vd : BitVec 7) (sz : BitVec 2) (va la : BitVec 4) (off : BitVec 7) (l m : Legality),
    l = { opnds := [loadDst vd (2 ^ sz.toNat), addrSrc va], illegal := false, cls := loadClass .none } → m = { l with cls := loadClass .scope } →
    s.LoadsGive (.ldStk vd sz va la off) .stk (2 ^ sz.toNat) vd la.toNat false (fun th => th.address va off (2 ^ sz.toNat)) l ∧
    s.LoadsGive (.ldSh vd sz va la off) .sh (2 ^ sz.toNat) vd la.toNat false (fun th => th.address va off (2 ^ sz.toNat)) l ∧
    s.LoadsGive (.ldDie vd sz va la off) .die (2 ^ sz.toNat) vd la.toNat false (fun th => th.address va off (2 ^ sz.toNat)) l ∧
    s.FleetingLoads (.ldFl vd sz va la off) (2 ^ sz.toNat) vd la.toNat (fun th => th.address va off (2 ^ sz.toNat)) l ∧
    s.LoadsGive (.ldAcq vd va la 1#2 sz) .sh (2 ^ sz.toNat) vd la.toNat true (fun th => th.address va 0#7 (2 ^ sz.toNat)) m ∧
    s.LoadsGive (.ldAcq vd va la 2#2 sz) .die (2 ^ sz.toNat) vd la.toNat true (fun th => th.address va 0#7 (2 ^ sz.toNat)) m ∧
    s.FleetingLoads (.ldAcq vd va la 3#2 sz) (2 ^ sz.toNat) vd la.toNat (fun th => th.address va 0#7 (2 ^ sz.toNat)) m ∧
    (s.curLanes ≠ [] → exec (.ldAcq vd va la 0#2 sz) s = .next s.illegalOp)

/-- For every state and operand: a store or release store that nothing stops and whose thread's FIFO has room appends
the low bytes of its register or pair, at its address, to the FIFO of every active lane's thread, and nothing else
changes; a non-temporal store is held apart, each byte to perform by itself, which is the reading of log entry 46,
closes the region, and to the die space is an outward effect; sp = 00, and st.nt to the fleeting space, are
ILLEGAL_OP. (spec/08_thread_control_memory.md R152, R154, spec/03_ordering_layers.md R40, R58,
notes/assumptions/46.md) -/
def Obligations.LocalStores : Prop :=
  ∀ (s : State) (vs : BitVec 7) (sz : BitVec 2) (va : BitVec 4) (off : BitVec 7) (l m : Legality),
    l = { opnds := [storeSrc vs (2 ^ sz.toNat), addrSrc va], illegal := false, cls := storeClass .none } → m = { l with cls := storeClass .scope } →
    s.StoresGive (.stStk vs sz va off) .stk (2 ^ sz.toNat) vs false (fun th => th.address va off (2 ^ sz.toNat)) l ∧
    s.StoresGive (.stSh vs sz va off) .sh (2 ^ sz.toNat) vs false (fun th => th.address va off (2 ^ sz.toNat)) l ∧
    s.StoresGive (.stDie vs sz va off) .die (2 ^ sz.toNat) vs false (fun th => th.address va off (2 ^ sz.toNat)) l ∧
    s.StoresGive (.stFl vs sz va off) .fl (2 ^ sz.toNat) vs false (fun th => th.address va off (2 ^ sz.toNat)) l ∧
    s.StoresGive (.stRel vs va 1#2 sz) .sh (2 ^ sz.toNat) vs true (fun th => th.address va 0#7 (2 ^ sz.toNat)) m ∧
    s.StoresGive (.stRel vs va 2#2 sz) .die (2 ^ sz.toNat) vs true (fun th => th.address va 0#7 (2 ^ sz.toNat)) m ∧
    s.StoresGive (.stRel vs va 3#2 sz) .fl (2 ^ sz.toNat) vs true (fun th => th.address va 0#7 (2 ^ sz.toNat)) m ∧
    (∀ sp : BitVec 2, sp = 1#2 ∨ sp = 2#2 → ∀ tid cr th, s.Solo tid cr th → s.Clear l → s.FirstIssue cr →
      s.Reaches cr (spaceOf sp) (2 ^ sz.toNat) (fun u => u.address va 0#7 (2 ^ sz.toNat)) →
      ∀ es, es = s.ntEntries (spaceOf sp) (th.address va 0#7 (2 ^ sz.toNat)).toNat (th.storeBytes vs (2 ^ sz.toNat)) →
      ∃ t, exec (.stNt vs va sp sz) s = .next t ∧
        State.OnlyThread (if sp = 2#2 then s.outward else s) t tid (s.closed cr
          (({ th with ntStores := th.ntStores ++ es }.commit
            s.cur.length .now []).advanceIx l.opnds))) ∧
    (∀ (sp : Space) (a : Nat) (b : Byte) bs, s.ntEntries sp a [] = [] ∧
      s.ntEntries sp a (bs ++ [b]) = s.ntEntries sp a bs ++ [s.storeEntry sp (a + bs.length) [b]]) ∧
    (s.curLanes ≠ [] → exec (.stRel vs va 0#2 sz) s = .next s.illegalOp ∧
      exec (.stNt vs va 0#2 sz) s = .next s.illegalOp ∧ exec (.stNt vs va 3#2 sz) s = .next s.illegalOp)

/-- For every state, operand, width, space and ordering field: an atomic of one thread that nothing stops, with its
FIFO drained, reads the value at its home, writes the value of its operation there (a cas only where the comparison
holds), gives the old value to vd, promised by la, and begins a region; in the fleeting space p6 says whether the tile
had expired, and then zero is given and nothing is written; in the die and fleeting spaces the effect is outward. sp =
00, and cas without a prefix, are ILLEGAL_OP. (R156) -/
def Obligations.LocalAtomics : Prop :=
  ∀ (s : State) (vd : BitVec 7) (va : BitVec 4) (sz : BitVec 1) (o : BitVec 2) (la : BitVec 4) (sp : BitVec 2),
    s.AtomGives (.atomAdd vd va sz o la sp) false (fun _ old x _ => some (old + x)) vd va sz la sp ∧
    s.AtomGives (.atomAnd vd va sz o la sp) false (fun _ old x _ => some (old &&& x)) vd va sz la sp ∧
    s.AtomGives (.atomOr vd va sz o la sp) false (fun _ old x _ => some (old ||| x)) vd va sz la sp ∧
    s.AtomGives (.atomXor vd va sz o la sp) false (fun _ old x _ => some (old ^^^ x)) vd va sz la sp ∧
    s.AtomGives (.atomMinI vd va sz o la sp) false (fun _ old x _ => some (if x.slt old then x else old)) vd va sz la sp ∧
    s.AtomGives (.atomMaxI vd va sz o la sp) false (fun _ old x _ => some (if old.slt x then x else old)) vd va sz la sp ∧
    s.AtomGives (.atomMinN vd va sz o la sp) false (fun _ old x _ => some (if x.ult old then x else old)) vd va sz la sp ∧
    s.AtomGives (.atomMaxN vd va sz o la sp) false (fun _ old x _ => some (if old.ult x then x else old)) vd va sz la sp ∧
    s.AtomGives (.atomExch vd va sz o la sp) false (fun _ _ x _ => some x) vd va sz la sp ∧
    s.AtomGives (.atomCas vd va sz o la sp) true (fun _ old x c => if old = c then some x else none) vd va sz la sp ∧
    (s.curLanes ≠ [] → (sp = 0#2 → exec (.atomAdd vd va sz o la sp) s = .next s.illegalOp) ∧
      (s.cur.pfx = none → exec (.atomCas vd va sz o la sp) s = .next s.illegalOp))

/-- For every state and every LM load and store form that nothing else stops: where some active lane lies outside its
window, the bundle traps with the space's bounds code, those lanes in MASK and the lowest one's offset as INFO;
otherwise, where some lane's offset is no multiple of the access size, with ALIGN. The windows are the stack, the
shared allocation, the crew's and the launch's die window and the crew's tiles. (spec/02_memory_spaces.md R26, R27,
spec/08_thread_control_memory.md R152, R180) -/
def Obligations.AddressChecks : Prop :=
  ∀ (s : State) (vd : BitVec 7) (sz : BitVec 2) (va la : BitVec 4) (off : BitVec 7) (cr : Crew) (n : Nat),
    s.crew? s.cur.crew = some cr → n = 2 ^ sz.toNat →
    (∀ a : Int, s.inBounds cr .stk a n = decide (0 ≤ a ∧ a + n ≤ cr.stackSize) ∧
      s.inBounds cr .sh a n = decide (0 ≤ a ∧ a + n ≤ cr.sharedSize) ∧
      s.inBounds cr .fl a n = decide (0 ≤ a ∧ a + n ≤ 4096 * cr.tiles.length) ∧
      (a < 0x80000000 → s.inBounds cr .die a n = decide (0 ≤ a ∧ a + n ≤ cr.window.size)) ∧
      (0x80000000 ≤ a → s.inBounds cr .die a n = decide (a + n ≤ 0x80000000 + (s.window cr 0x80000000).size))) ∧
    ∀ e ∈ [(Instr.ldStk vd sz va la off, Space.stk, Code.boundsStk, true), (.ldSh vd sz va la off, .sh, Code.boundsSh, true),
        (.ldDie vd sz va la off, .die, Code.boundsDie, true), (.ldFl vd sz va la off, .fl, Code.boundsFl, true),
        (.stStk vd sz va off, .stk, Code.boundsStk, false), (.stSh vd sz va off, .sh, Code.boundsSh, false),
        (.stDie vd sz va off, .die, Code.boundsDie, false), (.stFl vd sz va off, .fl, Code.boundsFl, false)],
      s.Clear (if e.2.2.2 then { opnds := [loadDst vd n, addrSrc va], illegal := false, cls := loadClass .none }
        else { opnds := [storeSrc vd n, addrSrc va], illegal := false, cls := storeClass .none }) →
      ∀ (bad : Bool) (g : Lane × Thread → Bool),
        g = (fun x => s.cur.active x.1 x.2 && if bad then !s.inBounds cr e.2.1 (x.2.address va off n) n
          else decide (x.2.address va off n % (n : Int) ≠ 0)) →
        (bad = false → ∀ x ∈ s.activeLanes, s.inBounds cr e.2.1 (x.2.address va off n) n = true) →
        ∀ x, s.curLanes.find? g = some x →
          exec e.1 s = .next (s.trap (if bad then e.2.2.1 else Code.align) (s.maskOf g)
            (BitVec.ofInt 64 (x.2.address va off n)).toNat)

/-- For every state and operand: an offset a[31:0] + sext(off7) × size outside the window of its space, and then one
that is no multiple of the size, traps with every lane that issues in the mask and the offset as INFO, in each of the
four forms; otherwise, with its line ready, a uniform load writes the zero-extended bytes, as the lowest thread that
issues sees them, to gd of the role; a uniform store performs the low bytes of gs at that offset; every thread that
issues goes on, and all else is as it was; on an absent line of the die store every thread that issues parks, and all
else but that is as it was. (R157) -/
def Obligations.UniformAccesses : Prop :=
  ∀ (s : State) (d a : BitVec 6) (sz : BitVec 2) (la : BitVec 4) (off : BitVec 7) (cr : Crew) (r : Role) (l : Lane)
       (th : Thread) (n : Nat) (at0 : Int), n = 2 ^ sz.toNat →
       at0 = ((lo32 (r.uread a.toNat)).toNat : Int) + off.toInt * n →
       s.curLanes.find? (fun e => e.1.issued) = some (l, th) →
       (s.UniformClear [] [a] [d] cr r [accessUse, uconfUse] →
         (s.inBounds cr .sh at0 n = true → at0 % n = 0 →
           s.lineState cr th .sh at0.toNat = .ready → s.spacePoison cr th .sh at0.toNat n false = none →
           ∃ t, exec (.gLdSh d a sz la off) s = .next t ∧ s.UniformWrote t cr r d (s.seen cr th .sh at0.toNat n)) ∧
         (s.inBounds cr .sh at0 n = false →
           exec (.gLdSh d a sz la off) s = .next (s.trap Code.boundsSh s.fullMask (BitVec.ofInt 64 at0).toNat)) ∧
         (s.inBounds cr .sh at0 n = true → at0 % n ≠ 0 →
           exec (.gLdSh d a sz la off) s = .next (s.trap Code.align s.fullMask (BitVec.ofInt 64 at0).toNat))) ∧
       (s.UniformClear [] [d, a] [] cr r [accessUse] →
         (s.inBounds cr .sh at0 n = true → at0 % n = 0 →
           s.lineState cr th .sh at0.toNat = .ready → th.fifo = [] → th.ended = false → th.pc = s.cur.pc →
           ∃ t, exec (.gStSh d a sz off) s = .next t ∧
             ((s.modThread s.cur.crew l.tid fun u => u.rearmNt .sh at0.toNat n).performStore s.cur.crew l.tid
               (s.storeEntry .sh at0.toNat (leBytes (r.uread d.toNat).toNat n))).Passed t) ∧
         (s.inBounds cr .sh at0 n = false →
           exec (.gStSh d a sz off) s = .next (s.trap Code.boundsSh s.fullMask (BitVec.ofInt 64 at0).toNat)) ∧
         (s.inBounds cr .sh at0 n = true → at0 % n ≠ 0 →
           exec (.gStSh d a sz off) s = .next (s.trap Code.align s.fullMask (BitVec.ofInt 64 at0).toNat))) ∧
       (s.UniformClear [] [a] [d] cr r [accessUse, uconfUse] →
         (s.inBounds cr .die at0 n = true → at0 % n = 0 →
           s.lineState cr th .die at0.toNat = .ready → s.spacePoison cr th .die at0.toNat n false = none →
           ∃ t, exec (.gLdDie d a sz la off) s = .next t ∧ s.UniformWrote t cr r d (s.seen cr th .die at0.toNat n)) ∧
         (s.inBounds cr .die at0 n = false →
           exec (.gLdDie d a sz la off) s = .next (s.trap Code.boundsDie s.fullMask (BitVec.ofInt 64 at0).toNat)) ∧
         (s.inBounds cr .die at0 n = true → at0 % n ≠ 0 →
           exec (.gLdDie d a sz la off) s = .next (s.trap Code.align s.fullMask (BitVec.ofInt 64 at0).toNat))) ∧
       (s.UniformClear [] [d, a] [] cr r [accessUse] →
         (s.inBounds cr .die at0 n = true → at0 % n = 0 →
           s.lineState cr th .die at0.toNat = .ready → th.fifo = [] → th.ended = false → th.pc = s.cur.pc →
           ∃ t, exec (.gStDie d a sz off) s = .next t ∧
             ((s.modThread s.cur.crew l.tid fun u => u.rearmNt .die at0.toNat n).performStore s.cur.crew l.tid
               (s.storeEntry .die at0.toNat (leBytes (r.uread d.toNat).toNat n))).Passed t) ∧
         (s.inBounds cr .die at0 n = false →
           exec (.gStDie d a sz off) s = .next (s.trap Code.boundsDie s.fullMask (BitVec.ofInt 64 at0).toNat)) ∧
         (s.inBounds cr .die at0 n = true → at0 % n ≠ 0 →
           exec (.gStDie d a sz off) s = .next (s.trap Code.align s.fullMask (BitVec.ofInt 64 at0).toNat))) ∧
       (s.inBounds cr .die at0 n = true → at0 % n = 0 → s.lineState cr th .die at0.toNat = .waits (.line at0.toNat) →
         (s.UniformClear [] [a] [d] cr r [accessUse, uconfUse] → ∃ t, exec (.gLdDie d a sz la off) s = .next t ∧
           s.BundleParks t (.uniformLine at0.toNat [a.toNat] [d.toNat, accessUse, uconfUse])) ∧
         (s.UniformClear [] [d, a] [] cr r [accessUse] → ∃ t, exec (.gStDie d a sz off) s = .next t ∧
           s.BundleParks t (.uniformLine at0.toNat [d.toNat, a.toNat] [accessUse])))

/-- For every state with a bundle of one active thread: a fence of scope 1 to 5 drains the thread's FIFO, oldest store
first, and completes when it is empty; the other scope codes are ILLEGAL_OP; nt.drain completes when no non-temporal
store of the thread is held and no older store of the thread to a byte of one that has performed is left, and
otherwise the thread parks and nothing else changes. For every state, crew and thread: one byte as its thread sees it
is that of the latest store of its FIFO that covers it, or memory's; the oldest store of the FIFO performs first, on a
line that is present and has not failed, and after a lower lane's store of its instruction to some of its bytes, and
bytes of the thread's non-temporal stores that have performed there are to perform again after it (the reading of log
entry 100); and a store that performs changes exactly the bytes of its run in its space, as the thread reads that
space, and no other byte. (R166) -/
def Obligations.FencesAndStoreOrder : Prop :=
  (
  ∀ (s : State) (b : BitVec 7),
    (∀ tid cr th, s.Solo tid cr th → s.Clear (lx [] false) →
      (1 ≤ b.toNat → b.toNat ≤ 5 → ∀ w th', w = s.drainFifo s.cur.crew tid →
        w.thread? w.cur.crew tid = some th' → th'.fifo = [] → th'.ended = false → th'.pc = w.cur.pc →
        ∃ t, exec (.fence b) s = .next t ∧ w.OnlyThread t tid (th'.commit w.cur.length .now [])) ∧
      (th.ntStores = [] → (∀ e ∈ th.ntDone, ∀ x ∈ th.fifo, e.meets x = false) → ∃ t, exec .ntDrain s = .next t ∧
        s.OnlyThread t tid ({ th with ntDone := [] }.commit s.cur.length .now [])) ∧
      (th.ntStores ≠ [] ∨ (∃ e ∈ th.ntDone, ∃ x ∈ th.fifo, e.meets x = true) →
        ∃ t, exec .ntDrain s = .next t ∧ s.Parks t tid th .ntDrain)) ∧
    (s.curLanes ≠ [] → b.toNat = 0 ∨ 6 ≤ b.toNat → exec (.fence b) s = .next s.illegalOp)) ∧ (
  (∀ (sp : Space) (a : Nat) (b : Byte), forwardedByte [] sp a b = b) ∧
    (∀ fifo e (sp : Space) (a : Nat) (b : Byte), forwardedByte (fifo ++ [e]) sp a b =
      if e.space = sp ∧ e.addr ≤ a ∧ a < e.addr + e.bytes.length then e.bytes.getD (a - e.addr) 0#8
      else forwardedByte fifo sp a b) ∧
    ∀ (s : State) (c tid : Nat) (cr : Crew) (th : Thread) (e : StoreEntry),
      s.crew? c = some cr → Table.get? cr.threads tid = some th →
      (∀ rest, th.fifo = e :: rest → cr.killed = false → s.storeBlocked cr e = none →
        (∀ u x y, u < tid → Table.get? cr.threads u = some x → y ∈ x.fifo → y.group = e.group → e.space ≠ .stk → y.meets e = false) →
        Table.wf cr.threads = true →
        s.world (.drain c tid) =
          (s.modThread c tid fun u => { u with fifo := rest }.rearmNt e.space e.addr e.bytes.length).performStore c tid e) ∧
      (∀ (sp : Space) (a n : Nat) (w : Thread), w = th.rearmNt sp a n →
        let hit := fun (x : StoreEntry) => x.space = sp ∧ x.addr < a + n ∧ a < x.addr + x.bytes.length
        w = { th with ntStores := w.ntStores, ntDone := w.ntDone } ∧
          (∀ x, x ∈ w.ntDone ↔ x ∈ th.ntDone ∧ ¬hit x) ∧ ∀ x, x ∈ w.ntStores ↔ x ∈ th.ntStores ∨ (x ∈ th.ntDone ∧ hit x)) ∧
      ((e.space = .die → e.addr < launchBase → e.addr + e.bytes.length ≤ launchBase) →
        (e.space = .die → launchBase ≤ e.addr → ∃ l, Table.get? s.launches cr.launch = some l ∧
          (if cr.die = 0 then l.win0 else l.win1).isSome = true) →
        (e.space = .fl → e.addr / 4096 < cr.tiles.length ∧ e.addr % 4096 + e.bytes.length ≤ 4096 ∧
          (cr.tile (e.addr / 4096)).live s.tick = true) →
        ∃ cr' th', (s.performStore c tid e).crew? c = some cr' ∧ Table.get? cr'.threads tid = some th' ∧
          ∀ sp a, (s.performStore c tid e).readSpace cr' th' sp a 1 =
            if sp = e.space ∧ e.addr ≤ a ∧ a < e.addr + e.bytes.length then [e.bytes.getD (a - e.addr) 0#8]
            else s.readSpace cr th sp a 1))

/-- For every state with a bundle of one active thread and a tile in range: a tile is live from its birth for 256
ticks unless freed; fl.birth sets BIRTH to the tick and keeps the contents of a live tile (of an expired one, and
always under .z, they are zero); fl.renew moves the birth of a live tile only; fl.free frees; fl.life and fl.stat read
the remaining life and the status word, fl.stat.clr also clears the sticky status; p6 says whether the tile stood
expired; the changing forms begin a region; all is outward and nothing else changes. (spec/11_fleeting_memory.md R215,
R217, R221, R222) -/
def Obligations.FleetingForms : Prop :=
  ∀ (s : State) (d a : BitVec 7) (la : BitVec 4),
    (∀ x : Tile, x.live s.tick = (x.born && !x.freed && decide ((s.tick : Int) < x.birth + 256)) ∧
      x.life s.tick = if x.live s.tick then (x.birth + 256 - s.tick).toNat else 0) ∧
    s.TileGives (.flBirth a) [lxSrc32 a] a 0 true
      (fun x => { x with
        bytes := if x.live s.tick then x.bytes else [], poison := if x.live s.tick then x.poison else []
        birth := s.tick, born := true, freed := false })
      (fun _ x => [(.p6, if x.live s.tick then 0#32 else 1#32)]) ∧
    s.TileGives (.flBirthZ a) [lxSrc32 a] a 0 true
      (fun x => { x with bytes := [], poison := [], birth := s.tick, born := true, freed := false })
      (fun _ x => [(.p6, if x.live s.tick then 0#32 else 1#32)]) ∧
    s.TileGives (.flRenew a) [lxSrc32 a] a 0 true
      (fun x => { x with birth := if x.live s.tick then s.tick else x.birth })
      (fun _ x => [(.p6, if x.live s.tick then 0#32 else 1#32)]) ∧
    s.TileGives (.flFree a) [lxSrc32 a] a 0 true (fun x => { x with freed := true }) (fun _ _ => []) ∧
    s.TileGives (.flLife d a la) [lxDst32 d, lxSrc32 a] a la.toNat false id
      (fun th x => [(.reg (th.regOf d), BitVec.ofNat 32 (x.life s.tick)), (.p6, if x.life s.tick = 0 then 1#32 else 0#32)]) ∧
    s.TileGives (.flStat d a la) [lxDst64 d, lxSrc32 a] a la.toNat false id
      (fun th x => th.loadResults d true (x.status s.tick)) ∧
    s.TileGives (.flStatClr d a) [lxDst64 d, lxSrc32 a] a 0 true (fun x => { x with storeExp := false, expLoads := 0 })
      (fun th x => th.loadResults d true (x.status s.tick)) ∧
    (∀ x : Tile, x.expLoads < 2 ^ 16 → x.life s.tick ≤ 256 → let v := x.status s.tick
      (v.extractLsb' 0 9).toNat = x.life s.tick ∧ v.getLsbD 9 = x.live s.tick ∧ v.getLsbD 10 = x.born ∧
        v.getLsbD 11 = x.freed ∧ v.getLsbD 12 = x.storeExp ∧ v.getLsbD 13 = decide (x.poison ≠ []) ∧
        v.extractLsb' 14 2 = 0#2 ∧ (v.extractLsb' 16 16).toNat = x.expLoads ∧ v.extractLsb' 32 32 = BitVec.ofInt 32 x.birth)

/-- For every state with a bundle of one active thread: tb.join adds the thread to the declared set; a signature of a
member that has not signed, with its stores performed, gives the generation to vd, begins a region and is counted, and
the one that completes the declared set turns the generation: its number grows by one, no signature stands, and every
parked waiter completes, while outside the crew only row stores that this turn turns change, and, where a claim on it
had lost its lease, the error log and its duty request; a second signature parks, and one by no member traps with
TUMBLER_NM; tb.wait completes when the generation differs or no member is declared, and otherwise parks; weld joins
both sets, and traps with WELD_BAD and the reason where the thread is welded elsewhere, or the weld set is another
role's or another aligned block's; unjoin leaves every tumbler of its mask and no other.
(spec/08_thread_control_memory.md R170, spec/01_engines.md R16, R17, spec/06_threads_and_bundles.md R108, R110) -/
def Obligations.Tumblers : Prop :=
  ∀ (s : State) (k : BitVec 4) (d : BitVec 7) (la : BitVec 4) (tid : Nat) (cr : Crew) (th : Thread) (tb : Tumbler),
    s.Solo tid cr th → tb = cr.tumbler k.toNat →
    (s.Clear (lx [] false) → ∃ t, exec (.tbJoin k) s = .next t ∧
      s.NowThread t (cr.putTumbler k.toNat { tb with declared := insertId tid tb.declared }) tid
        (th.commit s.cur.length .now [])) ∧
    (∀ ids u, u ∈ insertId tid ids ↔ u = tid ∨ u ∈ ids) ∧
    (s.Clear (lx [lxDst32 d] false) → tid ∈ tb.declared → tid ∉ tb.signed → th.fifo = [] →
      Table.wf cr.threads = true → ∃ t, exec (.tbSign k d la) s = .next t ∧
        let th' := s.closed cr (th.commit s.cur.length (.after la.toNat) [(.reg (th.regOf d), tb.gen)])
        if ∃ m ∈ tb.declared, m ≠ tid ∧ m ∉ tb.signed then
          s.NowThread t (cr.putTumbler k.toNat { tb with signed := insertId tid tb.signed }) tid th'
        else ∃ cr', t.crew? s.cur.crew = some cr' ∧ Table.get? cr'.threads tid = some th' ∧
          s.CrewOnly (if tb.orphan then
              { t with clusters := s.clusters, contexts := s.contexts, calls := s.calls, nextId := s.nextId }
            else { t with clusters := s.clusters }) ∧
          { cr' with tumblers := cr.tumblers, threads := cr.threads } = cr ∧ (cr'.tumbler k.toNat).gen = tb.gen + 1#32 ∧
          (cr'.tumbler k.toNat).signed = [] ∧ (cr'.tumbler k.toNat).declared = tb.declared ∧
          (∀ j, j ≠ k.toNat → cr'.tumbler j = cr.tumbler j) ∧
          ∀ v u, v ≠ tid → Table.get? cr.threads v = some u → Table.get? cr'.threads v = some
            (if u.wait = some (.tumbler k.toNat) then u.commit u.parkLen .now [] else u)) ∧
    (s.Clear (lx [lxDst32 d] false) → tid ∈ tb.declared → tid ∈ tb.signed →
      ∃ t, exec (.tbSign k d la) s = .next t ∧ s.Parks t tid th (.sign k.toNat)) ∧
    (s.Clear (lx [lxDst32 d] false) → tid ∉ tb.declared →
      exec (.tbSign k d la) s = .next (s.trap Code.tumblerNm (s.maskOf fun e => s.cur.active e.1 e.2) k.toNat)) ∧
    (s.Clear (lx [lxSrc32 d] false) → ∃ t, exec (.tbWait k d) s = .next t ∧
      if tb.gen ≠ th.read32 d ∨ tb.declared = [] then s.OnlyThread t tid (th.commit s.cur.length .now [])
      else s.Parks t tid th (.tumbler k.toNat)) ∧
    (s.Clear (lx [] false) → Table.wf cr.tumblers = true → ∀ first why, first = tb.weld.headD tid →
      ((∃ j, j ≠ k.toNat ∧ tid ∈ (cr.tumbler j).weld) → why = 1) →
      ((∀ j, j ≠ k.toNat → tid ∉ (cr.tumbler j).weld) → ∀ f, Table.get? cr.threads first = some f →
        why = if f.role ≠ th.role then 2 else if cr.block first f ≠ cr.block tid th then 3 else 0) →
      (Table.get? cr.threads first).isSome = true →
      if why = 0 then ∃ t, exec (.weld k) s = .next t ∧
        s.NowThread t
          (cr.putTumbler k.toNat { tb with declared := insertId tid tb.declared, weld := insertId tid tb.weld }) tid
          (th.commit s.cur.length .now [])
      else exec (.weld k) s = .next (s.trap 0x0109#16 (s.maskOf fun e => s.cur.active e.1 e.2) why)) ∧
    ∀ (m0 m1 : BitVec 7) (m2 : BitVec 2), s.Clear (lx [] false) → ∃ t cr', exec (.unjoin m0 m1 m2) s = .next t ∧
      t.crew? s.cur.crew = some cr' ∧ t.thread? s.cur.crew tid = some (th.commit s.cur.length .now []) ∧
      ∀ j < 16, if (m2 ++ m1 ++ m0 : BitVec 16).getLsbD j then
          tid ∉ (cr'.tumbler j).declared ∧ tid ∉ (cr'.tumbler j).weld ∧
            (∀ u, u ≠ tid → (u ∈ (cr'.tumbler j).declared ↔ u ∈ (cr.tumbler j).declared))
        else cr'.tumbler j = cr.tumbler j

/-- For every state with a bundle of one active thread and a latch in range that holds no error: an arrival at a well-
formed latch, with the thread's stores performed, takes 1 from ARRIVE, and when BYTES and ARRIVE are then 0 inverts
PHASE, sets ARRIVE to ARRIVE_INIT and releases the waiters on the old phase, into the trap of ERR where ERR is not 0;
one that finds ARRIVE 0 writes LATCH_OVER to an ERR of 0; the thread begins a region and goes on, whatever ERR holds.
lt.wait traps on ERR, completes when PHASE differs from ph and otherwise parks; on a malformed latch both trap with
LATCH_FORM. lt.phase reads PHASE and ERR of the latch that the lane sees. For every state with a bundle of one active
thread: tl.wait on a bound handle completes when the counter has reached the pair's value, parks while it has not, and
takes COPY_FAULT with the lowest failed operation's number as INFO when the value reaches one (R209); tl.rd writes the
counter; an unbound handle and the scope codes 110 and 111 are ILLEGAL_OP. bar.crew, with the thread's stores
performed, records the thread as arrived; while some thread that has not ended has not arrived it parks and nothing
else changes. The arrival of the last one completes the generation: its number grows by one, no arrival stands, every
uniform epoch ends, a rollback epoch begins where the crew has a reserve (R351), the thread and every other one that
is parked at the barrier go on at the next instruction in a new region, each with its own live-in set, and a thread
that had arrived before a pre-emption passes when it comes back (R173). That a thread which had arrived before a pre-
emption passes when it comes back is the reading of log entry 20, and that the trap of tl.wait is a single-thread trap
that of log entry 21. (spec/01_engines.md R12, R13, R14, R15, spec/08_thread_control_memory.md R171, R172, R173,
spec/10_copy_engine.md R209, spec/23_reliability.md R351, notes/assumptions/20.md, notes/assumptions/21.md) -/
def Obligations.LatchesTimelinesAndBarrier : Prop :=
  (
  ∀ (s : State) (a d : BitVec 7) (ph : BitVec 1) (la : BitVec 4) (tid : Nat) (cr : Crew) (th : Thread) (off : Nat)
      (v : LatchView), s.Solo tid cr th → off = (th.read32 a).toNat → v = cr.latch off →
    off + 16 ≤ cr.sharedSize → off % 16 = 0 → (∀ b, s.spacePoison cr th .sh off 16 b = none) →
    v = viewLatch (Mem.readNat cr.shared off 16) ∧
    (s.Clear (lx [lxSrc32 a] false) → th.fifo = [] → th.ended = false → th.pc = s.cur.pc →
      (v.malformed = false → Table.wf cr.threads = true → s.FirstIssue cr →
        ∃ u cr', exec (.ltArrive a) s = .next (if v.bytes = 0 ∧ v.arrive = 1 then
            (cr'.latchWaiters off v.phase).foldl (fun (x : State) w =>
              if v.err = 0 then x.release s.cur.crew w 0 [] else x.trapWaiter s.cur.crew w (BitVec.ofNat 16 v.err) off) u
            else u) ∧
          s.NowCrew u cr' ∧ Table.get? cr'.threads tid = some (s.closed cr (th.commit s.cur.length .now [])) ∧
          { cr' with shared := cr.shared, shPoison := cr.shPoison, reserve := cr.reserve, threads := cr.threads } = cr ∧
          cr'.latch off = (if v.arrive = 0 then { v with err := if v.err = 0 then 0x0106 else v.err }
            else if v.bytes = 0 ∧ v.arrive = 1 then { v with arrive := v.init, phase := !v.phase }
            else { v with arrive := v.arrive - 1 }) ∧
          (∀ b, b < off ∨ off + 16 ≤ b → Mem.read cr'.shared b = Mem.read cr.shared b) ∧
          ∀ w, w ≠ tid → Table.get? cr'.threads w = Table.get? cr.threads w) ∧
      (v.malformed = false → v.err = 0 → v.phase ≠ (ph == 1#1) →
        ∃ t, exec (.ltWait a ph) s = .next t ∧ s.OnlyThread t tid (th.commit s.cur.length .now [])) ∧
      (v.malformed = false → v.err = 0 → v.phase = (ph == 1#1) →
        ∃ t, exec (.ltWait a ph) s = .next t ∧ s.Parks t tid th (.latch off v.phase)) ∧
      (v.malformed = false → v.err ≠ 0 →
        exec (.ltWait a ph) s = .next (s.trapLane tid (BitVec.ofNat 16 v.err) off)) ∧
      (v.malformed = true → ∀ e, e = s.trap Code.latchForm (s.maskOf fun x => s.cur.active x.1 x.2) off →
        exec (.ltArrive a) s = .next e ∧ exec (.ltWait a ph) s = .next e)) ∧
    (s.Clear (lx [lxSrc32 a, lxDst32 d] false) → ∃ t, exec (.ltPhase a d la) s = .next t ∧
      s.OnlyThread t tid (th.commit s.cur.length (.after la.toNat) [(.reg (th.regOf d),
        let x := viewLatch (leNat (forwardedBytes th.fifo .sh off (Mem.readBytes cr.shared off 16)))
        BitVec.ofNat 32 ((if x.phase then 1 else 0) + x.err * 2 ^ 16))]))) ∧ (
  ∀ (s : State) (a : BitVec 7) (sc : BitVec 3) (k la : BitVec 4) (tid : Nat) (cr : Crew) (th : Thread),
    s.Solo tid cr th →
    (cr.handle k.toNat ≠ .unbound →
      (sc.toNat ≤ 5 → s.Clear (lx [lxSrc64 a] false) →
        (cr.failedAt (cr.handle k.toNat) (th.read64 a).toNat = none →
          ((th.read64 a).toNat ≤ (s.timeline cr (cr.handle k.toNat)).counter →
            ∃ t, exec (.tlWait a sc k) s = .next t ∧ s.OnlyThread t tid (th.commit s.cur.length .now [])) ∧
          ((s.timeline cr (cr.handle k.toNat)).counter < (th.read64 a).toNat →
            ∃ t, exec (.tlWait a sc k) s = .next t ∧ s.Parks t tid th (.timeline k.toNat))) ∧
        (∀ f, cr.failedAt (cr.handle k.toNat) (th.read64 a).toNat = some f →
          exec (.tlWait a sc k) s = .next (s.trapLane tid Code.copyFault f))) ∧
      (s.Clear (lx [lxDst64 a] false) → ∃ t, exec (.tlRd a k la) s = .next t ∧
        s.OnlyThread t tid (th.commit s.cur.length (.after la.toNat)
          (th.loadResults a true (BitVec.ofNat 64 (s.timeline cr (cr.handle k.toNat)).counter))))) ∧
    (cr.handle k.toNat = .unbound → exec (.tlWait a sc k) s = .next s.illegalOp ∧
      exec (.tlRd a k la) s = .next s.illegalOp) ∧
    (5 < sc.toNat → exec (.tlWait a sc k) s = .next s.illegalOp) ∧
    (s.Clear (lx [] false) → th.fifo = [] → th.ended = false → th.barPassed = false → Table.wf cr.threads = true →
      ((∃ u x, u ≠ tid ∧ Table.get? cr.threads u = some x ∧ x.ended = false ∧ x.atBarrier = false) →
        ∃ t, exec .barCrew s = .next t ∧ s.Parks t tid { th with atBarrier := true } .barrier) ∧
      ((∀ u x, u ≠ tid → Table.get? cr.threads u = some x → x.ended = true ∨ x.atBarrier = true) →
        ∃ t cr', exec .barCrew s = .next t ∧ t.crew? s.cur.crew = some cr' ∧ s.CrewOnly { t with nextSeq := s.nextSeq } ∧
          { cr' with barGen := cr.barGen, roles := cr.roles, reserve := cr.reserve, threads := cr.threads } = cr ∧
          cr'.barGen = cr.barGen + 1#32 ∧ (∀ r ∈ cr'.roles, r.uwriter = []) ∧
          cr'.reserve = cr.reserve.map (fun _ => cr'.openEpoch) ∧
          (∃ th' : Thread, Table.get? cr'.threads tid = some (s.closed cr (th'.commit s.cur.length .now [])) ∧
            th' = { th with
              atBarrier := false, parkSeq := th'.parkSeq, parkLen := s.cur.length, parkWord := s.cur.word
              parkPfx := s.cur.pfxWord, parkIssue := s.cur.seq }) ∧
          ∀ u x, u ≠ tid → Table.get? cr.threads u = some x → Table.get? cr'.threads u = some
            (if x.wait = some .barrier then
              s.closed cr ({ x with atBarrier := false, barPassed := false }.commit x.parkLen .now [])
            else { x with atBarrier := false, barPassed := x.atBarrier }))))

/-- For every state with a handler and a bundle of at most 64 different lanes of which every thread that issues is
outside a handler and has room for a frame: a trap takes each of those threads, active or not, to the handler with SP
+ 256 and the in-handler mark, and stores at stk[SP], after the thread's own earlier stores to its stack, a frame
whose fields are those of Table 8.4; its registers and all else stay. Where some such thread is in a handler or lacks
room, the crew is killed with TRAP_NEST, in whose INFO [15:0] stands the code of the second trap (the trap itself in a
handler, BOUNDS_STK where the frame has no room) and ADDR in [63:32]; without a handler it is killed with the code of
the trap. That the frame is written at once, behind the thread's own stores to its stack, which leave its FIFO, is the
reading of log entry 14. (spec/08_thread_control_memory.md R175, R176, R177, R179, notes/assumptions/14.md) -/
def Obligations.TrapEntry : Prop :=
  ∀ (s : State) (code : Code) (mask : BitVec 64) (info : Nat) (cr : Crew),
    s.crew? s.cur.crew = some cr → s.cur.alone = false → s.Distinct → s.cur.lanes.length ≤ 64 →
    (cr.handler = none → s.trap code mask info =
      s.killCrew s.cur.crew code (BitVec.ofNat 64 info).toNat s.cur.pc.toNat (s.cur.tids.headD 0)) ∧
    ∀ h, cr.handler = some h →
      (∀ l th, s.curLanes.find? (fun e => e.1.issued && (e.2.inHandler || decide (cr.stackSize < e.2.sp.toNat + 256))) =
          some (l, th) →
        s.trap code mask info = s.killCrew s.cur.crew 0x010B#16
          ((if th.inHandler then code else 0x0103#16).toNat + s.cur.pc.toNat * 2 ^ 32) s.cur.pc.toNat l.tid) ∧
      ((∀ l th, l ∈ s.cur.lanes → l.issued = true → s.thread? s.cur.crew l.tid = some th →
          th.inHandler = false ∧ th.sp.toNat + 256 ≤ cr.stackSize) →
        s.ThreadsOnly (s.trap code mask info) ∧
        ∀ l th, l ∈ s.cur.lanes → l.issued = true → s.thread? s.cur.crew l.tid = some th →
          ∃ th' f, (s.trap code mask info).thread? s.cur.crew l.tid = some th' ∧
            th' = { th with
              stack := th'.stack, stackPoison := th'.stackPoison, fifo := th.fifo.filter (fun e => e.space ≠ .stk)
              sp := th.sp + 256#32, trapSp := th.sp, inHandler := true, wait := none, cameFrom := none
              pc := BitVec.ofNat 32 h } ∧
            (∀ b, b < th.sp.toNat ∨ th.sp.toNat + 256 ≤ b → th'.stackBytes b 1 = th.stackBytes b 1) ∧
            f = BitVec.ofNat 2048 (Mem.readNat th'.stack th.sp.toNat 256) ∧
            f.extractLsb' 0 16 = code ∧ f.extractLsb' 16 16 = 0 ∧ f.extractLsb' 32 32 = s.cur.pc ∧
            f.extractLsb' 64 32 = s.cur.word ∧ f.extractLsb' 96 32 = s.cur.pfxWord ∧ f.extractLsb' 128 64 = mask ∧
            f.extractLsb' 192 64 = BitVec.ofNat 64 info ∧ (f.extractLsb' 256 6).toNat = s.cur.laneOf l.tid ∧
            f.extractLsb' 262 2 = 0 ∧ (f.extractLsb' 264 7).toNat = s.cur.lanes.length ∧ f.extractLsb' 271 17 = 0 ∧
            f.extractLsb' 288 32 = s.cur.pc ∧ f.extractLsb' 320 32 = th.sp ∧ f.extractLsb' 352 7 = th.preds ∧
            f.extractLsb' 359 153 = 0 ∧ f.extractLsb' 1536 512 = 0 ∧
            ∀ i < 64, f.extractLsb' (512 + 16 * i) 16 = match s.cur.lanes[i]? with
              | some k => BitVec.ofNat 16 k.tid
              | none => 0xFFFF#16)

/-- For every state: trap #n takes TRAP_SW with the active lanes and INFO n, once every promise has ended; a word that
no chapter assigns takes ILLEGAL_OP; a prefix word gives its fields to the base word that follows, and behind another
prefix takes ILLEGAL_PREFIX; tret of one thread in a handler, whose frame lies in its stack and whose RESUME is an
acceptable target, sets p0 to p6 from the frame and SP to the value that the entry wrote there (the frame's SP is RO
to the handler: the model's reading of R6 and R178, log entry 19), clears the mark and continues at RESUME; outside a
handler it takes ILLEGAL_OP. That ILLEGAL_OP and ILLEGAL_PREFIX name every lane that issues is the reading of log
entry 12, and that tret reads its frame through the FIFO that of log entry 14. (spec/08_thread_control_memory.md R175,
R178, spec/04_instruction_words.md R66, R67, R75, notes/assumptions/12.md, notes/assumptions/14.md,
notes/assumptions/19.md) -/
def Obligations.TrapsAndReturn : Prop :=
  ∀ (s u : State), u = s.flushed →
    (∀ hi lo : BitVec 7, u.Clear (lx [] false) → u.activeLanes ≠ [] →
      exec (.trap hi lo) s = .next (u.trap 0x010A#16 (u.maskOf fun e => u.cur.active e.1 e.2) (hi.toNat * 128 + lo.toNat))) ∧
    (s.curLanes ≠ [] → ∀ w, exec (.unassignedEncoding w) s = .next (s.trap 0x0110#16 s.fullMask 0)) ∧
    (s.curLanes ≠ [] → ∀ (p r : BitVec 3) (z n : Bool) (vc : BitVec 7),
      (s.cur.pfx.isSome = true → exec (.pfx p z r vc n) s = .next (s.trap 0x0111#16 s.fullMask 0)) ∧
      (s.cur.pfx = none → ∃ t x, exec (.pfx p z r vc n) s = .next t ∧ t.cur.pfx = some x ∧
        (x.pred, x.mz, x.rnd, x.vc, x.neg) = (p, z, r, vc, n) ∧ x.word = s.cur.word ∧
        (x.clean = true ↔ s.cur.word.extractLsb' 0 10 = 0#10) ∧ { t with cur := s.cur } = s ∧
        { t.cur with pfx := none } = s.cur)) ∧
    ∀ tid cr th, u.Solo tid cr th → u.Clear (lx [] false) →
      (th.inHandler = false → exec .tret s = .next (u.trap 0x0110#16 (u.maskOf fun e => u.cur.active e.1 e.2) 0)) ∧
      (th.inHandler = true → th.sp.toNat < 256 ∨ cr.stackSize < th.sp.toNat →
        exec .tret s = .next (u.trap 0x0103#16 (u.maskOf fun e => u.cur.active e.1 e.2) th.sp.toNat)) ∧
      (th.inHandler = true → 256 ≤ th.sp.toNat → th.sp.toNat ≤ cr.stackSize →
        u.spacePoison cr th .stk (th.sp.toNat - 256) 48 false = none →
        (∀ a, th.sp.toNat - 256 ≤ a → a < th.sp.toNat - 192 → th.stackAbsent.contains (a / 64) = false) →
        ∀ f : BitVec 512, f = BitVec.ofNat 512 (leNat (th.stackBytes (th.sp.toNat - 256) 64)) →
          u.badTarget (f.extractLsb' 288 32) = false →
          ∃ t, exec .tret s = .next t ∧ u.OnlyThread t tid { th.goTo u.cur.length (f.extractLsb' 288 32) with
            preds := f.extractLsb' 352 7, sp := th.trapSp, inHandler := false })

/-- For every state with a bundle of one active thread, every promise ended: end parks while the thread's per-thread
copies, stores or non-temporal stores are outstanding; a tag error that is outstanding traps in place of ending;
otherwise the thread ends: it holds no register and no promise and is in no tumbler. A crew whose last thread ends, or
that a trap kills, leaves no thread that has not ended. Which tag's error is taken where several hold one, the
lowest's, is the choice of log entry 89. (spec/08_thread_control_memory.md R174, R179, spec/10_copy_engine.md R201,
notes/assumptions/89.md) -/
def Obligations.ThreadsEnd : Prop :=
  ∀ (s u : State) (tid : Nat) (cr : Crew) (th : Thread), u = s.flushed → u.Solo tid cr th → u.Clear (lx [] false) →
    Table.wf cr.threads = true →
    (th.fifo = [] → th.ended = false → th.pc = u.cur.pc →
      (th.tagCount ≠ [] ∨ th.ntStores ≠ [] → ∃ t, exec .endThread s = .next t ∧ u.Parks t tid th .ending) ∧
      (th.tagCount = [] → th.ntStores = [] →
        (∀ k e r, th.tagErr = (k, e) :: r → exec .endThread s = .next
          ((u.modThread u.cur.crew tid fun x => { x with tagErr := Table.drop x.tagErr k }).trapLane tid e.code e.addr)) ∧
        (th.tagErr = [] → ∃ t, exec .endThread s = .next t ∧
          ∀ cr', t.crew? u.cur.crew = some cr' →
            (∃ th', Table.get? cr'.threads tid = some th' ∧ th'.ended = true ∧ th'.regs = [] ∧ th'.pend = [] ∧ th'.wait = none) ∧
            (∀ k < 16, tid ∉ (cr'.tumbler k).declared ∧ tid ∉ (cr'.tumbler k).weld) ∧
            ((∀ v x, v ≠ tid → Table.get? cr.threads v = some x → x.ended = true) → cr'.killed = true)))) ∧
    ∀ (code : Code) (info addr : Nat) (cr' : Crew), cr.killed = false →
      (u.killCrew u.cur.crew code info addr).crew? u.cur.crew = some cr' →
      cr'.killed = true ∧ ∀ e ∈ cr'.threads, e.2.ended = true

/-- For every state with a bundle of one active thread: cp.t, with a count of at most 32, acceptable addresses, its
stores performed, room in the tag and the die lines ready, records one element of that destination, source and count
(the bytes of a local source read at once), counts it in the tag, marks a die destination line as being written, moves
no byte yet, and goes on, beginning a region for a main destination; a count above 32 traps with COPY_COUNT. cp.wait
and cp.wait.all complete when their tags count 0, trap with the error of the lowest tag that has one and clear it (the
order of log 89 for several tags), and otherwise park; cp.cnt reads the count. (spec/10_copy_engine.md R197, R198,
R199, R201, spec/01_engines.md R18, notes/assumptions/89.md) -/
def Obligations.PerThreadCopies : Prop :=
  ∀ (s : State) (a b : BitVec 7) (k : BitVec 3) (la : BitVec 4) (tid : Nat) (cr : Crew) (th : Thread) (dst src n : Nat),
    s.Solo tid cr th → n = (th.read32 b).toNat →
    dst = (pairOf (th.readReg (th.blockReg a 0)) (th.readReg (th.blockReg a 1))).toNat →
    src = (pairOf (th.readReg (th.blockReg a 2)) (th.readReg (th.blockReg a 3))).toNat →
    (s.Clear
        { opnds := [lxSrc32 b], illegal := blockIllegal s.curBudget a 4 true, cls := PfxClass.predOnly
          blocks := [(a, 4)] } →
      (32 < n → exec (.cpT a b k) s = .next (s.trap Code.copyCount (s.maskOf fun e => s.cur.active e.1 e.2) n)) ∧
      (n ≤ 32 → cpTForm dst src = none → cpTAlign dst src n = none → s.cpTBounds cr dst src n = none → th.fifo = [] →
        th.wait = none → s.FirstIssue cr → th.tag k.toNat < 63 → (∀ o, addrForm dst = .die o → (s.dieLine cr o).writers < 15) →
        (∀ o, addrForm src = .die o → (s.dieLine cr o).present = true ∧ (s.dieLine cr o).faulted = false) →
        (∀ sp o, (addrForm src).local? = some (sp, o) → s.enginePoison cr sp o n = false) →
        ∃ t e cr', exec (.cpT a b k) s = .next t ∧ t.elems = Table.put s.elems s.nextId e ∧ t.nextId = s.nextId + 1 ∧
          e =
            { crew := s.cur.crew, tid := tid, ctx := cr.ctx, die := cr.die, cluster := cr.homeCluster th, tag := k.toNat
              dst := dst, src := src, n := n, failed := none, xlate := none
              data := if n = 0 then some [] else ((addrForm src).local?).map fun p => s.engineBytes cr p.1 p.2 n } ∧
          { t with crews := s.crews, launches := s.launches, elems := s.elems, nextId := s.nextId } = s ∧
          t.crew? s.cur.crew = some cr' ∧ cr'.shared = cr.shared ∧ cr'.tiles = cr.tiles ∧
          cr'.window.bytes = cr.window.bytes ∧
          (∀ o, addrForm dst = .die o → t.dieLine cr' o =
            { s.dieLine cr o with writers := (s.dieLine cr o).writers + 1, present := false }) ∧
          (∀ u, u ≠ tid → t.thread? s.cur.crew u = s.thread? s.cur.crew u) ∧
          let th' := { th with tagCount := Sparse.set 0 th.tagCount k.toNat (th.tag k.toNat + 1) }.commit s.cur.length .now []
          t.thread? s.cur.crew tid = some (if dst < 2 ^ 57 then s.closed cr th' else th'))) ∧
    (∀ i ks, (i, ks) ∈ [(Instr.cpWait k, [k.toNat]), (.cpWaitAll, [0, 1, 2, 3, 4, 5, 6, 7])] → s.Clear (lx [] false) →
      ((∃ j ∈ ks, th.tag j ≠ 0) → ∃ t, exec i s = .next t ∧ s.Parks t tid th .copyTag) ∧
      ((∀ j ∈ ks, th.tag j = 0) → (∀ j ∈ ks, Table.get? th.tagErr j = none) →
        ∃ t, exec i s = .next t ∧ s.OnlyThread t tid (th.commit s.cur.length .now []))) ∧
    (s.Clear (lx [] false) → ∀ i ks, (i, ks) ∈ [(Instr.cpWait k, [k.toNat]), (.cpWaitAll, [0, 1, 2, 3, 4, 5, 6, 7])] →
      (∀ j ∈ ks, th.tag j = 0) → ∀ j e, j ∈ ks → Table.get? th.tagErr j = some e →
      (∀ l ∈ ks, l < j → Table.get? th.tagErr l = none) →
      exec i s = .next ((s.modThread s.cur.crew tid fun u =>
        { u with tagErr := Table.drop u.tagErr j }).trapLane tid e.code e.addr)) ∧
    (s.Clear (lx [lxDst32 a] false) → ∃ t, exec (.cpCnt a k la) s = .next t ∧
      s.OnlyThread t tid (th.commit s.cur.length (.after la.toNat) [(.reg (th.regOf a), BitVec.ofNat 32 (th.tag k.toNat))]))

/-- For every state with a bundle of one active thread whose record lies in shared memory and passes every check of
R204, with its stores performed and room in the engine: a kick is accepted as one copy with the fields of Table 10.2
of the record as the thread sees it, under the next number of the copy context; the latch of its own crew grows by the
bytes of the copy; kick.n also gives the number to its pair; the thread begins a region and goes on. A record that is
not a multiple of 64 traps with ALIGN. (spec/10_copy_engine.md R202, R203, R204) -/
def Obligations.KicksAreAccepted : Prop :=
  ∀ (s : State) (a d : BitVec 7) (la : BitVec 4) (tid : Nat) (cr : Crew) (th : Thread) (off v : Nat) (r : BitVec 512),
    s.Solo tid cr th → off = (th.read32 a).toNat →
    v = leNat (forwardedBytes th.fifo .sh off (Mem.readBytes cr.shared off 64)) → r = BitVec.ofNat 512 v →
    (∀ c, c = s.copyOf s.cur.crew cr (cr.homeCluster th) v →
      c.src = (r.extractLsb' 0 64).toNat ∧ c.dst = (r.extractLsb' 64 64).toNat ∧ c.op = cr.copyTl.accepted + 1 ∧
      (c.shape.n0, c.shape.n1, c.shape.n2, c.shape.n3) = ((r.extractLsb' 128 16).toNat, (r.extractLsb' 144 16).toNat,
        (r.extractLsb' 160 16).toNat, (r.extractLsb' 176 16).toNat) ∧
      (c.shape.ss1, c.shape.ss2, c.shape.ss3) = ((r.extractLsb' 192 32).toInt, (r.extractLsb' 224 32).toInt,
        (r.extractLsb' 256 32).toInt) ∧
      (c.shape.ds1, c.shape.ds2, c.shape.ds3) = ((r.extractLsb' 288 32).toInt, (r.extractLsb' 320 32).toInt,
        (r.extractLsb' 352 32).toInt) ∧
      c.shape.esize = 2 ^ (r.extractLsb' 384 3).toNat ∧ c.fill = r.getLsbD 393 ∧ c.mcast = (r.extractLsb' 400 16).toNat ∧
      c.latch = if r.getLsbD 392 then some (16 * (r.extractLsb' 416 17).toNat) else none) ∧
    ∀ i vd, (i, vd) ∈ [(Instr.kick a, (none : Option (BitVec 7))), (.kickN d a la, some d)] →
      s.Clear (lx (match vd with | some f => [lxDst64 f, lxSrc32 a] | none => [lxSrc32 a]) false) →
      th.wait = none → s.FirstIssue cr → s.engineRoom cr.die (cr.homeCluster th) = true →
      (off % 64 ≠ 0 → exec i s = .next (s.trap Code.align (s.maskOf fun e => s.cur.active e.1 e.2) off)) ∧
      (off % 64 = 0 → off + 64 ≤ cr.sharedSize → s.spacePoison cr th .sh off 64 true = none → th.fifo = [] →
        (∀ chk ∈ s.recordChecks cr ++ [s.latchCheck s.cur.crew cr, s.mcastCheck s.cur.crew cr],
          chk (cr.homeCluster th) v = none) →
        s.mcastSaved cr (cr.homeCluster th) (recMcast v) = false →
        ∀ c, c = s.copyOf s.cur.crew cr (cr.homeCluster th) v → s.kickRoom c = true →
        (∀ l x, c.latch = some l → x ∈ c.dests → s.armOverflows x l (c.shape.count * c.shape.esize) = false) →
        ∃ t cr', exec i s = .next t ∧ t.copies = Table.put s.copies s.nextId c ∧ t.nextId = s.nextId + 1 ∧
          t.crew? s.cur.crew = some cr' ∧ cr'.copyTl = { cr.copyTl with accepted := cr.copyTl.accepted + 1 } ∧
          (∀ l, c.latch = some l → c.dests = [s.cur.crew] → (cr.latch l).malformed = false → l + 16 ≤ cr.sharedSize →
            cr.latchPoisoned l = false →
            (cr'.latch l).bytes = (cr.latch l).bytes + c.shape.count * c.shape.esize) ∧
          t.thread? s.cur.crew tid = some (s.closed cr (th.commit s.cur.length
            (.after (match vd with | some _ => la.toNat | none => 0))
            (match vd with | some f => th.loadResults f true (BitVec.ofNat 64 (cr.copyTl.accepted + 1)) | none => []))))

/-- For every state: an element of a bulk copy whose source bytes are in shared memory (or that fills) and whose
destination is the shared memory of its own crew is written once; the latch of the copy, where it has one, counts the
element's bytes off BYTES (a count too small or a malformed latch only writes ERR, and the phase completes where BYTES
and ARRIVE are then 0); and the last element completes the operation in its context; a per-thread element with its
data writes 32 bytes at a shared destination, zeros behind its count, and counts its tag down; an element that has
failed writes nothing and leaves its code to the tag when it is the first. No other byte of the crew's shared memory
changes. An element of a copy with FILL is zeros, whatever SRC is. (spec/10_copy_engine.md R198, R200, R201, R205,
R206) -/
def Obligations.CopiesPerform : Prop :=
  (∀ (s : State) (id i : Nat) (c : Copy) (cr : Crew) (o a b x : Nat), Table.get? s.copies id = some c →
      s.crew? c.crew = some cr → cr.killed = false → s.drainOver c.crew = false → i < c.shape.count → i ∉ c.written →
      (∀ e ∈ s.copies, e.2.stalled = none) → addrForm c.dst = .sh o → c.dests = [c.crew] →
      x = ((o : Int) + c.shape.dstOff i).toNat → b = ((a : Int) + c.shape.srcOff i).toNat →
      (c.fill = true ∨ (addrForm c.src = .sh a ∧ s.enginePoison cr .sh b c.shape.esize = false)) →
      (∀ l, c.latch = some l → l % 16 = 0 ∧ (l + 16 ≤ x ∨ x + c.shape.esize ≤ l) ∧ cr.latchPoisoned l = false ∧
        ((cr.latch l).err = 0 ∨ cr.latchWaiters l (cr.latch l).phase = [])) →
      ∃ t cr', exec (.copyElementWrite id i) s = .next t ∧ t.crew? c.crew = some cr' ∧
        (∀ j < c.shape.esize, Mem.read cr'.shared (x + j) = if c.fill then 0#8 else Mem.read cr.shared (b + j)) ∧
        (∀ j, j < x ∨ x + c.shape.esize ≤ j → (∀ l, c.latch = some l → j < l ∨ l + 16 ≤ j) →
          Mem.read cr'.shared j = Mem.read cr.shared j) ∧
        (∀ l v, c.latch = some l → v = cr.latch l → cr'.latch l =
          if v.malformed then { v with err := if v.err = 0 then 0x010D else v.err }
          else if v.bytes < c.shape.esize then { v with err := if v.err = 0 then 0x0106 else v.err }
          else if v.bytes = c.shape.esize ∧ v.arrive = 0 then { v with bytes := 0, arrive := v.init, phase := !v.phase }
          else { v with bytes := v.bytes - c.shape.esize }) ∧
        if (insertId i c.written).length = c.shape.count then
          Table.get? t.copies id = none ∧ cr'.copyTl = cr.copyTl.finish c.op ∧ cr'.copyFailed = cr.copyFailed
        else Table.get? t.copies id = some { c with written := insertId i c.written } ∧ cr'.copyTl = cr.copyTl) ∧
    (∀ tl n, n ∉ tl.done → (Timeline.finish tl n).counter = tl.counter + ((List.range (tl.done.length + 2)).takeWhile
      fun j => decide (tl.counter + 1 + j = n ∨ tl.counter + 1 + j ∈ tl.done)).length) ∧
    (∀ (s : State) (id : Nat) (e : TElem) (cr : Crew) (th : Thread), Table.get? s.elems id = some e →
      s.crew? e.crew = some cr → Table.get? cr.threads e.tid = some th → cr.killed = false → e.xlate = none →
      s.elemBehind id e = false → s.drainOver e.crew = false →
      (∀ bs o, e.failed = none → e.data = some bs → bs.length ≤ 32 → addrForm e.dst = .sh o →
        ∃ t cr' th', exec (.cptElementPerform id) s = .next t ∧ t.elems = Table.drop s.elems id ∧
          t.crew? e.crew = some cr' ∧ Table.get? cr'.threads e.tid = some th' ∧
          th' = { th with tagCount := Sparse.set 0 th.tagCount e.tag (th.tag e.tag - 1) } ∧
          (∀ j < 32, Mem.read cr'.shared (o + j) = bs.getD j 0#8) ∧
          ∀ j, j < o ∨ o + 32 ≤ j → Mem.read cr'.shared j = Mem.read cr.shared j) ∧
      (∀ f o, e.failed = some f → addrForm e.dst = .sh o →
        ∃ t cr' th', exec (.cptElementPerform id) s = .next t ∧ t.elems = Table.drop s.elems id ∧
          t.crew? e.crew = some cr' ∧ Table.get? cr'.threads e.tid = some th' ∧ cr'.shared = cr.shared ∧
          th' = { th with
            tagCount := Sparse.set 0 th.tagCount e.tag (th.tag e.tag - 1)
            tagErr := if (Table.get? th.tagErr e.tag).isSome then th.tagErr
              else Table.put th.tagErr e.tag { code := f.1, addr := f.2 } }))

/-- For every state with a bundle of one active thread: a far atomic on an aligned main address whose translation
stands sends one request with the operation, the operand of vd (and the comparand above it for cas), the width and the
destination registers, and parks its thread, the effect being outward and nothing else changing but the TLB; an
address of another form traps with ADDR_FORM, and a misaligned one with ALIGN. The response performs the operation at
its home, which is device, peer or host memory, as one access, gives the old value to the destination, promised by la,
and begins a region. An atomic on host memory over PCIe whose operation has no AtomicOp, or that the host answers with
Unsupported Request, traps its thread alone with ATOM_UNSUP and the address, through a handler or to the end of its
crew, where duty row 3 is in hardware mode. A request asks the peer module that homes its location (R335).
(spec/10_copy_engine.md R210, R211, spec/08_thread_control_memory.md R176, spec/22_fabric_collectives.md R335) -/
def Obligations.FarAtomics : Prop :=
  (∀ (s : State) (d : BitVec 7) (o : BitVec 2) (pr : BitVec 5) (la : BitVec 4) (sz sc : BitVec 1) (i : Instr) (op : AtomOp),
      (i, op) ∈ [(Instr.atomFarAdd d o pr la sz sc, AtomOp.add), (.atomFarAnd d o pr la sz sc, .and), (.atomFarOr d o pr la sz sc, .or), (.atomFarXor d o pr la sz sc, .xor), (.atomFarMinI d o pr la sz sc, .minI), (.atomFarMaxI d o pr la sz sc, .maxI), (.atomFarMinN d o pr la sz sc, .minN), (.atomFarMaxN d o pr la sz sc, .maxN), (.atomFarExch d o pr la sz sc, .exch), (.atomFarCas d o pr la sz sc, .cas)] →
      ∀ tid cr th w n addr, s.Solo tid cr th → w = (if sz = 1#1 then 2 else 1) → n = (if op = .cas then 2 * w else w) →
      addr = (th.read64 (pr.setWidth 7 <<< 1)).toNat →
      s.Clear
          { opnds := [lxSrc64 (pr.setWidth 7 <<< 1)], cls := PfxClass.predOnly, blocks := [(d, n)]
            illegal := blockIllegal s.curBudget d n false || decide (d.toNat % n ≠ 0) } →
      (2 ^ 57 ≤ addr → exec i s = .next (s.trap Code.addrForm (s.maskOf fun e => s.cur.active e.1 e.2) addr)) ∧
      (addr < 2 ^ 57 → addr % (4 * w) ≠ 0 →
        exec i s = .next (s.trap Code.align (s.maskOf fun e => s.cur.active e.1 e.2) addr)) ∧
      (addr < 2 ^ 57 → addr % (4 * w) = 0 → th.fifo = [] → s.mainFault cr.ctx addr (4 * w) true = none →
        ∀ r : FarReq, r =
          { crew := s.cur.crew, tid := tid, ctx := cr.ctx, die := cr.die, cluster := cr.homeCluster th, addr := addr
            op := op, wide := decide (sz = 1#1)
            x := if w = 2 then pairOf (th.readReg (th.blockReg d 0)) (th.readReg (th.blockReg d 1))
              else (th.readReg (th.blockReg d 0)).setWidth 64
            cmp := if op ≠ .cas then 0#64
              else if w = 2 then pairOf (th.readReg (th.blockReg d 2)) (th.readReg (th.blockReg d 3))
              else (th.readReg (th.blockReg d 1)).setWidth 64
            dest := if w = 2 then [th.blockReg d 0, th.blockReg d 1] else [th.blockReg d 0]
            la := la.toNat, stage := .sent, group := s.cur.seq, restart := false, xlate := none } →
        (s.byAtomicOp r = false ∨ op = .add ∨ op = .exch ∨ op = .cas →
          ∃ t, exec i s = .next t ∧
            (∀ k, Table.get? t.fars k = if k = s.nextId then some r else Table.get? s.fars k) ∧
            { t with
              crews := s.crews, fars := s.fars, tlb := s.tlb, nextId := s.nextId, nextSeq := s.nextSeq, sent := s.sent } = s ∧
            t.sent = s.sent ++ (match s.translate cr.ctx addr with
              | .found (.peer m p) _ => [.peerRequest m p (4 * w) 2]
              | _ => []) ∧
            t.nextId = s.nextId + 1 ∧ (t.crew? s.cur.crew).map Crew.bare = some cr.outward.bare ∧
            (∀ c, c ≠ s.cur.crew → t.crew? c = s.crew? c) ∧
            (∀ u, u ≠ tid → t.thread? s.cur.crew u = s.thread? s.cur.crew u) ∧
            ∃ th', t.thread? s.cur.crew tid = some th' ∧ th' = { th with
              wait := some (.far s.nextId), parkSeq := th'.parkSeq, parkLen := s.cur.length, parkWord := s.cur.word
              parkPfx := s.cur.pfxWord, parkIssue := s.cur.seq }) ∧
        (s.byAtomicOp r = true → op ≠ .add → op ≠ .exch → op ≠ .cas → rowAssisted (s.dutyRow cr.ctx 3) = false →
          ∃ (u : State) (th' : Thread), exec i s = .next ((u.trapWaiter s.cur.crew tid Code.atomUnsup addr).reap s.cur.crew) ∧
            (∀ k, Table.get? u.fars k = if k = s.nextId then none else Table.get? s.fars k) ∧
            { u with crews := s.crews, fars := s.fars, tlb := s.tlb, nextId := s.nextId, nextSeq := s.nextSeq } = s ∧
            (u.crew? s.cur.crew).map Crew.bare = some cr.outward.bare ∧ (∀ c, c ≠ s.cur.crew → u.crew? c = s.crew? c) ∧
            (∀ v, v ≠ tid → u.thread? s.cur.crew v = s.thread? s.cur.crew v) ∧
            u.thread? s.cur.crew tid = some th' ∧ th' = { th with
              wait := some (.far s.nextId), parkSeq := th'.parkSeq, parkLen := s.cur.length, parkWord := s.cur.word
              parkPfx := s.cur.pfxWord, parkIssue := s.cur.seq }))) ∧
    (∀ (s : State) (id n : Nat) (r : FarReq) (cr : Crew) (th : Thread), Table.get? s.fars id = some r →
      n = (if r.wide then 8 else 4) → r.stage = .sent → s.farBehind r = false → s.crew? r.crew = some cr →
      cr.killed = false → Table.get? cr.threads r.tid = some th → th.wait = some (.far id) →
      ((s.byAtomicOp r = false ∨ s.hostAtomics = true) → r.restart = false → s.mainFault r.ctx r.addr n true = none →
        s.mainPoisoned r.ctx r.addr n = false →
        ∃ t, exec (.farAtomicResponse id) s = .next t ∧ Table.get? t.fars id = none ∧
          ∀ old u, old = leNat (s.readMain r.ctx r.addr n) →
            u = (match r.op.apply (8 * n) old r.x.toNat r.cmp.toNat with
              | some v => s.writeMain r.ctx r.addr (leBytes v n)
              | none => s) →
            t.thread? r.crew r.tid = some (s.closed cr (th.commit th.parkLen (.after r.la)
              (match r.dest with
                | [x, y] => [(.reg x, lo32 (BitVec.ofNat 64 old)), (.reg y, hi32 (BitVec.ofNat 64 old))]
                | [x] => [(.reg x, BitVec.ofNat 32 old)]
                | _ => []))) ∧
            (∀ c v, ¬(c = r.crew ∧ v = r.tid) → t.thread? c v = s.thread? c v) ∧
            (∀ c, (t.crew? c).map Crew.bare = (s.crew? c).map Crew.bare) ∧
            (t.devMem, t.hostMem, t.peerMem, t.mainPoison) = (u.devMem, u.hostMem, u.peerMem, u.mainPoison)) ∧
      (s.byAtomicOp r = true → rowAssisted (s.dutyRow r.ctx 3) = false →
        exec (.atomicopUrCompletion id) s = .next
          (({ s with fars := Table.drop s.fars id }.trapWaiter r.crew r.tid Code.atomUnsup r.addr).reap r.crew)))

/-- For every state: a page response of success before the row's deadline makes the unit issue the ATS translation
request again, and the completion that then finds the page serves the request: it is gone, the page is in the TLB of
its process, the elements, copies and far atomics that had joined it wait for it no more, and each such atomic has
been sent. An unsuccessful response, an unsuccessful completion, an answer after the deadline, and the deadline itself
(hardware mode) end it unresolved: it is gone, and what had joined it fails (clauses for one access alone): a far
atomic traps its thread with XLATE_UNRES; a per-thread element ends with XLATE_UNRES in its tag; a bulk copy ends with
COPY_FAULT in its latch, its lines faulted, its number as the lowest failed one, and XLATE_UNRES in the log (R209). An
ATS invalidation that no far atomic in flight uses removes every entry of its range for its process, and no other.
(spec/02_memory_spaces.md R33, R34, R35, R36, spec/10_copy_engine.md R201, R209, R211) -/
def Obligations.TranslationRequests : Prop :=
  ∀ (s : State) (q : Nat) (r : XlateReq), Table.get? s.xlates q = some r →
    (r.retried = false → r.call = none → s.now < r.deadline → exec (.pageResponse q true) s = .next
      { s.send (.atsRequest (s.pasid r.ctx) r.page) with
        xlates := Table.adjust s.xlates q fun x => { x with retried := true, call := none } }) ∧
    (r.retried = true → s.now < r.deadline → (∃ h, s.translate r.ctx r.page = .found (.host (s.pasid r.ctx) r.page) h.writable ∧
        s.hostPage? (s.pasid r.ctx) (r.page / 65536) = some h) → Table.wf s.fars = true →
      (∀ e ∈ s.fars, e.2.xlate = some q → s.mainFault e.2.ctx e.2.addr e.2.width true = none ∧
        (s.byAtomicOp e.2 = false ∨ e.2.op.hasAtomicOp = true)) →
      ∃ t, exec (.atsCompletion q true) s = .next t ∧ Table.get? t.xlates q = none ∧
        (∃ h, Table.get? ((Table.get? t.tlb (s.pasid r.ctx)).getD []) (r.page / 65536) = some h) ∧
        (∀ e ∈ t.elems, e.2.xlate ≠ some q) ∧ (∀ e ∈ t.copies, ∀ i, e.2.stalled ≠ some (i, q)) ∧
        ∀ id f, Table.get? s.fars id = some f → Table.get? t.fars id =
          some (if f.xlate = some q then { f with stage := .sent, xlate := none } else f)) ∧
    (∃ u, (r.retried = false → r.call = none → exec (.pageResponse q false) s = .next u) ∧
      (r.retried = false → r.call = none → r.deadline ≤ s.now → exec (.pageResponse q true) s = .next u) ∧
      (r.retried = true → exec (.atsCompletion q false) s = .next u) ∧
      (r.retried = true → r.deadline ≤ s.now → exec (.atsCompletion q true) s = .next u) ∧
      (r.call = none → r.deadline ≤ s.now → exec (.dutyDeadline q) s = .next u) ∧
      Table.get? u.xlates q = none ∧
      (r.queues = [] →
        (∀ id f, s.OnlyJoined q [id] [] [] → Table.get? s.fars id = some f → ∀ th, s.thread? f.crew f.tid = some th →
          th.wait = some (.far id) → ∃ v w : State, { v with xlates := s.xlates } = { s with fars := Table.drop s.fars id } ∧
            w = (v.trapWaiter f.crew f.tid Code.xlateUnres f.addr).reap f.crew ∧
            u = { w with xlates := Table.drop w.xlates q }) ∧
        ((∀ y ∈ s.crews, ∀ x ∈ y.2.threads, x.2.wait = none) →
          (∀ id e cr th, s.OnlyJoined q [] [id] [] → Table.get? s.elems id = some e → s.crew? e.crew = some cr →
            cr.killed = false → Table.get? cr.threads e.tid = some th →
            Table.get? u.elems id = none ∧ u.thread? e.crew e.tid = some { th with
              tagCount := Sparse.set 0 th.tagCount e.tag (th.tag e.tag - 1)
              tagErr := if (Table.get? th.tagErr e.tag).isSome then th.tagErr
                else Table.put th.tagErr e.tag { code := Code.xlateUnres, addr := e.accessAt r.page } }) ∧
          (∀ id c cr x i, s.OnlyJoined q [] [] [id] → Table.get? s.copies id = some c → c.stalled = some (i, q) →
            s.crew? c.crew = some cr → cr.killed = false → rowAssisted (s.dutyRow cr.ctx 5) = false →
            Table.get? s.contexts cr.ctx = some x → Table.get? u.copies id = none ∧
            ∃ cr' x', u.crew? c.crew = some cr' ∧ cr'.copyTl = cr.copyTl.finish c.op ∧
              cr'.copyFailed = some (match cr.copyFailed with | some f => min f c.op | none => c.op) ∧
              (∀ l, c.latch = some l → c.dests = [c.crew] → cr.latchPoisoned l = false →
                (cr'.latch l).err = if (cr.latch l).err = 0 then 0x0404 else (cr.latch l).err) ∧
              (∀ l ∈ c.openLines, l < launchBase → (u.dieLine cr' l).faulted = true) ∧
              Table.get? u.contexts cr.ctx = some x' ∧
              x'.log = pushLog x.log (s.crewRecord cr Code.xlateUnres 0 (c.accessAt i r.page) 0 c.op))))) ∧
    ∀ (p page bytes : Nat), (∀ e ∈ s.fars, e.2.stage ≠ .sent) → ∃ t, exec (.atsInvalidation p page bytes) s = .next t ∧
      { t with tlb := s.tlb } = s ∧ ∀ u n, Table.get? ((Table.get? t.tlb u).getD []) n =
        if u = p ∧ page ≤ n * 65536 ∧ n * 65536 < page + bytes then none
        else Table.get? ((Table.get? s.tlb u).getD []) n

/-- For every state with a bundle of one active thread whose role has met no matrix error: mma on a lease and a
reservation that fit it deposits the thread's row, claims the row store for its tumbler's generation with the fields
of the word, signs, and begins a region; a role without a lease traps with MX_NOLEASE, and a base register that is an
index form or at or beyond the budget is illegal. The free slots that a lease takes, the lowest first and in adjacent
pairs for f64, are the model's choice (log entry 53). mx.lease installs a lease of the request in the first unit that
has room and gives its word, or the word of the lease that the role holds; mx.release drops an idle lease; ob.resv,
ob.ld (from shared memory or the die store) and ob.free make, fill and drop a reservation; acc.rd reads the elements
that its word names, acc.wait completes when no operation on the tile is in flight. (spec/13_matrix_engine.md R233,
R236, R237, R238, R240, R242, R245, R246, spec/04_instruction_words.md R65, notes/assumptions/53.md) -/
def Obligations.MatrixForms : Prop :=
  ∀ (s : State) (a d : BitVec 7) (la : BitVec 4) (tid : Nat) (cr : Crew) (th : Thread), s.Solo tid cr th →
    th.mxPoison = none → th.fifo = [] →
    (∀ (i : Instr) (acc : BitVec 3) (ob tb : BitVec 4) (keep zero : Bool),
      (i, zero) ∈ [(Instr.mma a acc ob tb keep, false), (.mmaZero a acc ob tb keep, true)] →
      s.Clear { opnds := [], illegal := s.baseIllegal a, cls := PfxClass.predOnly } →
      (s.roleLease s.cur.crew cr th.role = none →
        exec i s = .next (s.trap Code.mxNolease (s.maskOf fun e => s.cur.active e.1 e.2) th.role)) ∧
      ∀ (x : LeaseAt) (r : ResAt), s.roleLease s.cur.crew cr th.role = some x →
        s.reservation s.cur.crew cr ob.toNat = some r →
        Table.get? (s.unit cr.die x.cluster x.unit).leases x.slot = some x.lease →
        ∀ fmt n, fmt = bitsOf r.res.record 3 0 → n = [4, 4, 16, 16, 16, 16, 16, 12, 9].getD fmt 0 →
        acc.toNat < x.lease.tiles → (r.cluster, r.unit) = (x.cluster, x.unit) → (x.lease.f64 = true ↔ fmt = 0) →
        blockIllegal s.curBudget a n (decide (fmt = 0)) = false → tid ∈ (cr.tumbler tb.toNat).declared →
        tid ∉ (cr.tumbler tb.toNat).signed → x.lease.claim = none → x.lease.kept = none →
        s.claimedElsewhere s.cur.crew cr th.role tb.toNat (cr.tumbler tb.toNat).gen = false →
        (∀ j < n, th.blockReg a j ∉ th.poison) → th.poison = [] →
        ∃ t l m, exec i s = .next t ∧
          Table.get? (t.unit cr.die x.cluster x.unit).leases x.slot = some l ∧ l.claim = some m ∧
          (m.acc, m.ob, m.tb, m.gen, m.keep, m.zero) =
            (acc.toNat, ob.toNat, tb.toNat, (cr.tumbler tb.toNat).gen, keep, zero) ∧
          m.rows = [(cr.roleLocal tid th % 64,
            (List.range n).flatMap fun j => leBytes (th.readReg (th.blockReg a j)).toNat 4)] ∧
          (m.turned = true ↔ ∀ u ∈ (cr.tumbler tb.toNat).declared, u = tid ∨ u ∈ (cr.tumbler tb.toNat).signed) ∧
          t.thread? s.cur.crew tid = some (s.closed cr (th.commit s.cur.length .now []))) ∧
    (s.Clear (lx [lxDst32 d, lxSrc32 a] false) → leaseBad cr.pair (th.read32 a).toNat = false → th.wait = none →
      (∀ x, s.roleLease s.cur.crew cr th.role = some x → ∃ t, exec (.mxLease d a la) s = .next t ∧
        t.thread? s.cur.crew tid = some (s.closed cr (th.commit s.cur.length (.after la.toNat)
          [(.reg (th.regOf d), leaseWord x.unit x.lease)]))) ∧
      ∀ q k u, s.roleLease s.cur.crew cr th.role = none → q = viewLease (th.read32 a).toNat → k = cr.cluster + q.half →
        s.leaseUnit cr.die k s.nextSeq q = some u →
        ∃ t l, exec (.mxLease d a la) s = .next t ∧
          (t.unit cr.die k u).leases = Table.put (s.unit cr.die k u).leases ((s.unit cr.die k u).freeLeases.headD 0) l ∧
          (l.crew, l.role, l.half, l.f64, l.tiles, l.quota) = (s.cur.crew, th.role, q.half, q.f64, q.tiles, q.quota) ∧
          l.slots = ((s.unit cr.die k u).tileSlots q.f64).take (if q.f64 then 2 * q.tiles else q.tiles) ∧ l.acc = [] ∧
          (q.f64 = true → ∀ i < q.tiles, l.slots.getD (2 * i + 1) 0 = l.slots.getD (2 * i) 0 + 1) ∧
          l.claim = none ∧ t.thread? s.cur.crew tid = some (s.closed cr (th.commit s.cur.length (.after la.toNat)
            [(.reg (th.regOf d), leaseWord u l)]))) ∧
    (s.Clear (lx [] false) → ∀ x, s.roleLease s.cur.crew cr th.role = some x →
      (s.unit cr.die x.cluster x.unit).busySlot x.slot = false → x.lease.claim = none →
      ∃ t, exec .mxRelease s = .next t ∧ Table.get? (t.unit cr.die x.cluster x.unit).leases x.slot = none ∧
        t.thread? s.cur.crew tid = some (s.closed cr (th.commit s.cur.length .now []))) ∧
    (s.Clear (lx [lxSrc32 a] false) → ∀ (k : BitVec 4) v q u, (th.read32 a).toNat % 32 = 0 →
      (th.read32 a).toNat + 32 ≤ cr.sharedSize → s.spacePoison cr th .sh (th.read32 a).toNat 32 false = none →
      v = leNat (Mem.readBytes cr.shared (th.read32 a).toNat 32) → resBad cr.pair v = none →
      s.reservation s.cur.crew cr k.toNat = none → q = viewRes v →
      u = s.unit cr.die (cr.cluster + q.half) q.unit → u.freeRes ≠ [] → u.granules + q.len ≤ 1024 →
      ∃ t, exec (.obResv a k) s = .next t ∧
        (t.unit cr.die (cr.cluster + q.half) q.unit).reservations = Table.put u.reservations (u.freeRes.headD 0)
          { crew := s.cur.crew, handle := k.toNat, record := v, bytes := [], poison := [] } ∧
        t.thread? s.cur.crew tid = some (s.closed cr (th.commit s.cur.length .now []))) ∧
    (s.Clear (lx [] false) → ∀ (k : BitVec 4) r, s.reservation s.cur.crew cr k.toNat = some r →
      s.handleClaimed s.cur.crew cr k.toNat = false →
      ∃ t, exec (.obFree k) s = .next t ∧ (t.unit cr.die r.cluster r.unit).reservations =
        Table.drop (s.unit cr.die r.cluster r.unit).reservations r.slot) ∧
    (s.Clear (lx [lxSrc64 a] false) → ∀ (k : BitVec 4) r src dst, s.reservation s.cur.crew cr k.toNat = some r →
      Table.get? (s.unit cr.die r.cluster r.unit).reservations r.slot = some r.res →
      src = (lo32 (th.read64 a)).toNat → dst = (hi32 (th.read64 a)).toNat → src % 64 = 0 → dst % 64 = 0 →
      ∀ (die : BitVec 1) (sp : Space), sp = (if die = 1#1 then .die else .sh) → s.inBounds cr sp src 64 = true →
      s.lineState cr th sp src = .ready → dst + 64 ≤ 256 * (viewRes r.res.record).len →
      s.spacePoison cr th sp src 64 false = none →
      ∃ t x, exec (.obLd a die k) s = .next t ∧
        Table.get? (t.unit cr.die r.cluster r.unit).reservations r.slot = some x ∧
        (∀ j < 64, Mem.read x.bytes (dst + j) = (s.readSpace cr th sp src 64).getD j 0#8) ∧
        (∀ j, j < dst ∨ dst + 64 ≤ j → Mem.read x.bytes j = Mem.read r.res.bytes j) ∧
        t.thread? s.cur.crew tid = some (th.commit s.cur.length .now [])) ∧
    (s.Clear (lx [lxSrc32 a] (s.baseIllegal d)) → ∀ w x, w = th.read32 a →
      s.roleLease s.cur.crew cr (w.extractLsb' 13 3).toNat = some x → (w.extractLsb' 10 3).toNat < x.lease.tiles →
      w.extractLsb' 16 16 = 0#16 → (w.extractLsb' 6 4).toNat < (if x.lease.f64 then 8 else 4) →
      blockIllegal s.curBudget d 16 x.lease.f64 = false → s.tileBusy cr x w = none → x.lease.accPoison = [] →
      ∃ t, exec (.accRd d a la) s = .next t ∧ t.thread? s.cur.crew tid =
        some (th.commit s.cur.length (.after la.toNat) (x.lease.chunkResults th d w))) ∧
    (s.Clear (lx [] false) → ∀ (r acc : BitVec 3) x, s.roleLease s.cur.crew cr r.toNat = some x → th.wait = none →
      acc.toNat < x.lease.tiles →
      (s.tileInFlight s.cur.crew cr r.toNat acc.toNat (cr.mxAccepted r.toNat) = false →
        ∃ t, exec (.accWait r acc) s = .next t ∧ t.thread? s.cur.crew tid = some (th.commit s.cur.length .now [])) ∧
      (s.tileInFlight s.cur.crew cr r.toNat acc.toNat (cr.mxAccepted r.toNat) = true →
        ∃ t th', exec (.accWait r acc) s = .next t ∧ t.thread? s.cur.crew tid = some th' ∧ th'.pc = th.pc ∧
          th'.wait = some (.accumulator (cr.mxAccepted r.toNat)))) ∧
    ∀ f : BitVec 7, s.baseIllegal f = true ↔ 0x78 ≤ f.toNat ∨ s.curBudget ≤ f.toNat

/-- For every state with a bundle of one active thread of the system role: mx.freeze stops its unit's accepts and
completes when its queue is empty, and mx.thaw lets them go on; acc.drain and ob.drain of a frozen unit write the
image of the lease or reservation in their slot to the save area and drop it, and acc.fill and ob.fill install what an
image there describes, acc.fill with the accumulator's elements, the kept or deposited rows, the claim and the QLEFT
of the image (which a turned claim may replace at once by a fresh grant, where no lease holds the issue rights); a
unit that is not frozen traps all four with MX_STATE and reason 1, and any thread of another role with MX_PRIV.
(spec/13_matrix_engine.md R232, R248, R249, R250, R251) -/
def Obligations.MatrixSystemForms : Prop :=
  ∀ (s : State) (u : BitVec 2) (a : BitVec 7) (tid : Nat) (cr : Crew) (th : Thread) (x : MatrixUnit) (off k : Nat),
    s.Solo tid cr th → th.mxPoison = none → k = cr.cluster + th.home → x = s.unit cr.die k u.toNat →
    off = (th.read32 a).toNat →
    (th.role ≠ 8 → ∀ i ∈ [Instr.mxFreeze u, .mxThaw u], s.Clear (lx [] false) →
      exec i s = .next (s.trap Code.mxPriv (s.maskOf fun e => s.cur.active e.1 e.2) 0)) ∧
    (th.role ≠ 8 → ∀ (q : BitVec 3) (p : BitVec 5), ∀ i ∈ [Instr.accDrain a q u, .accFill a q u, .obDrain a p u, .obFill a p u],
      s.Clear (lx [lxSrc32 a] false) →
      exec i s = .next (s.trap Code.mxPriv (s.maskOf fun e => s.cur.active e.1 e.2) 0)) ∧
    (th.role = 8 → s.Clear (lx [] false) →
      (x.queue = [] → ∃ t, exec (.mxFreeze u) s = .next t ∧ t.unit cr.die k u.toNat = { x with frozen := true } ∧
        t.thread? s.cur.crew tid = some (th.commit s.cur.length .now [])) ∧
      (x.queue ≠ [] → ∃ t th', exec (.mxFreeze u) s = .next t ∧ t.unit cr.die k u.toNat = { x with frozen := true } ∧
        t.thread? s.cur.crew tid = some th' ∧ th'.pc = th.pc ∧ th'.wait = some .matrix) ∧
      ∃ t, exec (.mxThaw u) s = .next t ∧ t.unit cr.die k u.toNat = { x with frozen := false } ∧
        t.thread? s.cur.crew tid = some (th.commit s.cur.length .now [])) ∧
    (th.role = 8 → s.Clear (lx [lxSrc32 a] false) →
      (x.frozen = false →
        (∀ q : BitVec 3, ∀ i ∈ [Instr.accDrain a q u, .accFill a q u], exec i s =
          .next (s.trap Code.mxState (s.maskOf fun e => s.cur.active e.1 e.2) (1 + q.toNat * 2 ^ 8))) ∧
        ∀ p : BitVec 5, ∀ i ∈ [Instr.obDrain a p u, .obFill a p u], exec i s =
          .next (s.trap Code.mxState (s.maskOf fun e => s.cur.active e.1 e.2) (1 + p.toNat * 2 ^ 8))) ∧
      (x.frozen = true → off % 64 = 0 →
        (∀ (q : BitVec 3) l, Table.get? x.leases q.toNat = some l → ∀ ow, s.crew? l.crew = some ow →
          ∀ bs, bs = l.image ow.index (ow.mxAccepted l.role) → off + bs.length ≤ cr.saveArea.size →
          ∃ t cr', exec (.accDrain a q u) s = .next t ∧ t.crew? s.cur.crew = some cr' ∧
            (∀ j < bs.length, Mem.read cr'.saveArea.bytes (off + j) = bs.getD j 0#8) ∧
            Table.get? (t.unit cr.die k u.toNat).leases q.toNat = none ∧
            t.thread? s.cur.crew tid = some (th.commit s.cur.length .now [])) ∧
        (∀ (p : BitVec 5) r, Table.get? x.reservations p.toNat = some r → ∀ ow, s.crew? r.crew = some ow →
          ∀ bs, bs = r.image ow.index → off + bs.length ≤ cr.saveArea.size →
          ∃ t cr', exec (.obDrain a p u) s = .next t ∧ t.crew? s.cur.crew = some cr' ∧
            (∀ j < bs.length, Mem.read cr'.saveArea.bytes (off + j) = bs.getD j 0#8) ∧
            Table.get? (t.unit cr.die k u.toNat).reservations p.toNat = none ∧
            t.thread? s.cur.crew tid = some (th.commit s.cur.length .now [])) ∧
        (∀ h : Nat, h = Mem.readNat cr.saveArea.bytes off 64 → h.testBit 0 = true → off + 64 ≤ cr.saveArea.size →
          (∀ q : BitVec 3, off + leaseImageLen h ≤ cr.saveArea.size → Table.get? x.leases q.toNat = none →
            bitsOf h 11 8 * (if h.testBit 1 then 2 else 1) ≤ (x.tileSlots (h.testBit 1)).length → leaseHeaderBad h = none →
            ∃ t l cr', exec (.accFill a q u) s = .next t ∧
              Table.get? (t.unit cr.die k u.toNat).leases q.toNat = some l ∧
              (l.crew, l.role, l.tiles, l.quota) = (s.cur.crew, bitsOf h 18 16, bitsOf h 11 8, bitsOf h 76 64) ∧
              (l.f64 = true ↔ h.testBit 1 = true) ∧ t.crew? s.cur.crew = some cr' ∧
              cr'.mxAccepted (bitsOf h 18 16) = bitsOf h 159 96 ∧
              t.thread? s.cur.crew tid = some (th.commit s.cur.length .now []) ∧
              (l.qleft = bitsOf h 92 80 ∨ (h.testBit 4 = true ∧ l.qleft = l.quota ∧
                (t.unit cr.die k u.toNat).holder = some q.toNat)) ∧
              (∀ w, w = (if h.testBit 1 then 8 else 4) → ∀ e < 4096 * bitsOf h 11 8, Sparse.get 0#64 l.acc e =
                BitVec.ofNat 64 (Mem.readNat cr.saveArea.bytes
                  (off + (if bitsOf h 4 2 = 0 then 64 else 64 + 4096) + w * e) w)) ∧
              (h.testBit 2 = true → ∃ rows, l.kept = some rows ∧ ∀ i < 64, Table.get? rows i =
                some (Mem.readBytes cr.saveArea.bytes (off + 64 + 64 * i) 64)) ∧ (h.testBit 2 = false → l.kept = none) ∧
              (bitsOf h 4 3 = 0 → l.claim = none) ∧
              (bitsOf h 4 3 ≠ 0 → ∃ m, l.claim = some m ∧ (m.acc, m.ob, m.tb, m.gen, m.keep, m.zero, m.turned) =
                  (bitsOf h 226 224, bitsOf h 230 227, bitsOf h 234 231, BitVec.ofNat 32 (bitsOf h 271 240), h.testBit 235,
                    h.testBit 236, h.testBit 4) ∧
                ∀ i < 64, Table.get? m.rows i = if h.testBit 2 = false ∧ h.testBit (160 + i) = true then
                  some (Mem.readBytes cr.saveArea.bytes (off + 64 + 64 * i) 64) else none)) ∧
          ∀ p : BitVec 5, off + resImageLen h ≤ cr.saveArea.size →
            s.resRefused { cr := cr, cluster := k, mu := x, off := off } p.toNat = none →
            ∃ t r, exec (.obFill a p u) s = .next t ∧
              Table.get? (t.unit cr.die k u.toNat).reservations p.toNat = some r ∧ r.crew = s.cur.crew ∧
              r.handle = bitsOf h 11 8 ∧ (viewRes r.record).unit = u.toNat ∧
              t.thread? s.cur.crew tid = some (th.commit s.cur.length .now []) ∧
              ∀ j < 256 * bitsOf h 282 272, Mem.read r.bytes j = Mem.read cr.saveArea.bytes (off + 64 + j))))

/-- For every state: a unit that is not frozen and has room accepts the turned generation of the lease that holds the
issue rights, as the next operation of its role, with the kept or the deposited rows, and its claim is gone (the rows
stay kept under keep); the oldest operation of a unit, when no error touches it, writes its whole tile as the product
of R94 over A, the effective B and the old accumulator (or zero), leaves every other tile, and raises the counter of
its role. The product of each format adds the groups of 16 terms of Table 5.8 in increasing k, each group rounded
once. (spec/13_matrix_engine.md R230, R235, R239, R243, R244, spec/05_number_formats.md R93, R94) -/
def Obligations.MatrixUnits : Prop :=
  ∀ (s : State) (die k u : Nat) (x : MatrixUnit), x = s.unit die k u →
    (∀ slot l m cr, x.holder = some slot → Table.get? x.leases slot = some l → l.claim = some m → m.turned = true →
      l.qleft ≠ 0 → x.frozen = false → x.queue.length < 4 → s.crew? l.crew = some cr →
      ∃ t o l' cr', exec (.mmaAccept die k u) s = .next t ∧ (t.unit die k u).queue = x.queue ++ [o] ∧
        (o.slot, o.crew, o.role, o.tile, o.ob, o.zero) = (slot, l.crew, l.role, m.acc, m.ob, m.zero) ∧
        o.rows = l.kept.getD m.rows ∧ o.op = cr.mxAccepted l.role + 1 ∧
        Table.get? (t.unit die k u).leases slot = some l' ∧ l'.claim = none ∧
        l'.kept = (if m.keep then some (l.kept.getD m.rows) else none) ∧ l'.acc = l.acc ∧
        t.crew? l.crew = some cr' ∧ cr'.mxAccepted l.role = cr.mxAccepted l.role + 1) ∧
    (∀ o rest l j r cr, x.queue = o :: rest → Table.get? x.leases o.slot = some l →
      x.reservations.find? (fun e => e.2.crew = o.crew && e.2.handle = o.ob) = some (j, r) → r.poison = [] →
      l.accPoison = [] → s.crew? o.crew = some cr → cr.killed = false →
      ∃ t l' cr', exec (.mmaComplete die k u) s = .next t ∧ (t.unit die k u).queue = rest ∧
        Table.get? (t.unit die k u).leases o.slot = some l' ∧
        (∀ i n, i < 64 → n < 64 → Sparse.get 0#64 l'.acc (4096 * o.tile + 64 * i + n) = BitVec.ofNat 64
          (mxDot (viewRes r.record).fmt (rowA (viewRes r.record).fmt o.rows i)
            (fun e => effB (viewRes r.record) r.bytes e n) (if o.zero then 0 else l.elem o.tile i n))) ∧
        (∀ n, n / 4096 ≠ o.tile → Sparse.get 0#64 l'.acc n = Sparse.get 0#64 l.acc n) ∧
        t.crew? o.crew = some cr' ∧ cr'.mxTl = Table.adjust cr.mxTl o.role fun tl => tl.finish o.op) ∧
    ∀ (fmt : Nat) (a b : Nat → FVal) (acc : Nat), mxK fmt = [2, 4, 32, 32, 64, 64, 128, 64, 32].getD fmt 0 ∧
      (fmt = 0 → mxDot fmt a b acc = f64Fmt.sumRound .rne [f64Fmt.value acc, (a 0).mul (b 0), (a 1).mul (b 1)]) ∧
      (fmt < 9 → ∃ sum : Nat → Nat, sum 0 = acc ∧ mxDot fmt a b acc = sum ([1, 1, 2, 2, 4, 4, 8, 4, 2].getD fmt 0) ∧
        ∀ g < [1, 1, 2, 2, 4, 4, 8, 4, 2].getD fmt 0, ∀ F, F = (if fmt = 0 then f64Fmt else f32Fmt) →
          sum (g + 1) = F.sumRound .rne (F.value (sum g) ::
            (List.range (Nat.min 16 (mxK fmt))).map fun x => (a (16 * g + x)).mul (b (16 * g + x))))

/-- For every state with a bundle of one active thread: a push of an aligned record in shared memory traps with IT_BAD
and the reason of R263, or, with its table well placed and a slot free, places one stage on the stack, its cursors
set, HOLD and DONE clear, W2 as Table 15.1 gives. it.next delivers the oldest pending element, or the next value of a
RANGE, or with the stream ended nothing, writes vn and p6, and begins a region; a stack that is not there or has
failed traps. it.enough ends a stack and gives its unsettled records back, it.free also releases it, it.stat and it.rd
read it. A parked pull goes on from its element. All is outward and nothing else changes. (spec/15_iterator_engine.md
R257, R258, R260, R263, R264, R265, R267, R270, R271) -/
def Obligations.Iterators : Prop :=
  ∀ (s : State) (a d n : BitVec 7) (k m : BitVec 3) (la : BitVec 4) (tid : Nat) (cr : Crew) (th : Thread) (e : State),
    s.Solo tid cr th → e = s.outward →
    (∀ (i : Instr) (kind off v : Nat), (i, kind) ∈ [(Instr.itRange a k, 1), (.itList a k, 2), (.itBits a k, 3), (.itQueue a k, 4), (.itMap a k, 8), (.itFilter a k, 9), (.itZip a k, 10), (.itChain a k, 11), (.itFlat a k, 12)] →
      off = (th.read32 a).toNat → off % 64 = 0 → off + 64 ≤ cr.sharedSize → s.spacePoison cr th .sh off 64 false = none →
      v = leNat (forwardedBytes th.fifo .sh off (Mem.readBytes cr.shared off 64)) → s.Clear (lx [lxSrc32 a] false) →
      (∀ x, cr.stack? k.toNat = some x → x.pull = none) →
      (∀ r, pushReason (cr.stack? k.toNat) kind v = some r →
        exec i s = .next (e.trap Code.itBad (e.maskOf fun x => x.1.tid = tid) r)) ∧
      (pushReason (cr.stack? k.toNat) kind v = none → s.tableBad cr v = none →
        (kind = 4 → s.noQueue cr (bitsOf v 63 32) = false) → s.itSlots cr < 64 →
        ∃ t, exec i s = .next t ∧ s.NowThread t
          (cr.outward.putStack k.toNat (match cr.stack? k.toNat with
            | some x => { x with stages := x.stages ++ [pushedStage v x.w2] }
            | none =>
              { stages := [pushedStage v false], ended := false, failed := false, fcode := Code.ok, pend := [], deliv := 0,
                pull := none, flight := none }))
          tid (s.closed cr (th.commit s.cur.length .now [])))) ∧
    (∀ v below, let st := pushedStage v below
      bitsOf st.record 9 8 = 0 ∧ bitsOf st.record 7 0 = bitsOf v 7 0 ∧ st.held = none ∧
        (bitsOf st.record 10 10 = 1 ↔ recW2 v below = true) ∧
        (recKind v = 1 → bitsOf st.record 159 128 = bitsOf v 63 32 ∧ bitsOf st.record 127 32 = bitsOf v 127 32)) ∧
    (s.Clear (lx [lxDst32 d, lxDst32 n] false) → cr.stack? k.toNat = none → exec (.itNext d n la k) s =
      .next (s.trap Code.itBad (s.maskOf fun x => s.cur.active x.1 x.2) 5)) ∧
    (∀ st, cr.stack? k.toNat = some st → s.Clear (lx [lxDst32 d, lxDst32 n] false) →
      blockIllegal s.curBudget d (if st.w2 then 2 else 1) false = false → n ≠ d → (st.w2 = true → n ≠ d + 1) →
      (st.failed = true → exec (.itNext d n la k) s =
        .next (s.trap Code.itFailed (s.maskOf fun x => s.cur.active x.1 x.2) st.fcode.toNat)) ∧
      (st.failed = false → st.pull = none → st.flight = none → th.fifo = [] → th.ended = false → th.pc = s.cur.pc → 0 < cr.width →
        ∀ st' rs,
          ((∃ x rest, st.pend = x :: rest ∧ x.origin = none ∧
              st' = { st with pend := rest, deliv := min (st.deliv + 1) 0xFFFFFFFF } ∧
              rs = [(.reg (th.regOf d), x.x)] ++ (if st.w2 then [(.reg (th.blockReg d 1), x.y)] else []) ++
                [(.p6, 1#32), (.reg (th.regOf n), 1#32)]) ∨
            (st.pend = [] ∧ st.ended = true ∧ st' = { st with deliv := min st.deliv 0xFFFFFFFF } ∧
              rs = [(.p6, 0#32), (.reg (th.regOf n), 0#32)]) ∨
            (∃ x cur hi step : Int, ∃ y : Stage, st.pend = [] ∧ st.ended = false ∧ st.stages = [y] ∧ y.done = false ∧ y.ready = false ∧
              recKind y.record = 1 ∧ st.w2 = false ∧
              hi = (BitVec.ofNat 32 (bitsOf y.record 95 64)).toInt ∧
              step = (BitVec.ofNat 32 (bitsOf y.record 127 96)).toInt ∧
              cur = (BitVec.ofNat 32 (bitsOf y.record 159 128)).toInt ∧ (0 < step ∧ cur < hi ∨ step < 0 ∧ hi < cur) ∧
              x = cur + step ∧ -2 ^ 31 ≤ x ∧ x < 2 ^ 31 ∧
              st' = { st with
                stages := [{ y with record := setBits y.record 159 128 (BitVec.ofInt 32 x).toNat }],
                deliv := min (st.deliv + 1) 0xFFFFFFFF } ∧
              rs = [(.reg (th.regOf d), BitVec.ofInt 32 cur), (.p6, 1#32), (.reg (th.regOf n), 1#32)])) →
          ∃ t, exec (.itNext d n la k) s = .next t ∧ s.NowThread t (cr.outward.putStack k.toNat st') tid
            (s.closed cr (th.commit s.cur.length (.after la.toNat) rs)))) ∧
    (s.Clear (lx [] false) → cr.stack? k.toNat = none → exec (.itEnough k) s =
        .next (s.trap Code.itBad (s.maskOf fun x => s.cur.active x.1 x.2) 5) ∧
      ∃ t, exec (.itFree k) s = .next t ∧ e.OnlyThread t tid (s.closed cr (th.commit s.cur.length .now []))) ∧
    (∀ st, cr.stack? k.toNat = some st → st.pull = none →
      (s.Clear (lx [] false) → ∀ u cu, u = s.returnStack s.cur.crew st → u.crew? s.cur.crew = some cu →
        (∃ t, exec (.itEnough k) s = .next t ∧ u.NowThread t (cu.outward.putStack k.toNat st.over) tid
          (s.closed cr (th.commit s.cur.length .now []))) ∧
        ∃ t, exec (.itFree k) s = .next t ∧ u.NowThread t { cu.outward with iters := Table.drop cr.iters k.toNat } tid
          (s.closed cr (th.commit s.cur.length .now []))) ∧
      (st.over.ended = true ∧ st.over.pend = [] ∧ st.over.stages.length = st.stages.length ∧
        ∀ x ∈ st.over.stages, x.done = true ∧ x.held = none ∧ x.bufIds = []) ∧
      ((∀ x xs, st.stages = x :: xs → recKind x.record ≠ 4) → s.returnStack s.cur.crew st = s) ∧
      (∀ x xs q v h r, st.stages = x :: xs → recKind x.record = 4 → q = bitsOf x.record 63 32 → s.noQueue cr q = false →
        v = s.queue cr q → r = stageBuf x.record → r ≠ [] → r.length ≤ v.rsv → r.length ≤ v.cap → h = (v.head + v.cap - r.length) % v.cap →
        (s.returnStack s.cur.crew st).queue cr q =
            { v with head := h, count := v.count + r.length, rsv := v.rsv - r.length } ∧
          ∀ j < r.length, leNat ((s.returnStack s.cur.crew st).readDie cr (ringSlot q ((h + j) % v.cap)) 8) =
            (r.getD j (0#32, 0#32)).1.toNat + (r.getD j (0#32, 0#32)).2.toNat * 2 ^ 32) ∧
      (∀ off, off = (th.read32 a).toNat → off % 64 = 0 → off + 64 ≤ cr.sharedSize → s.Clear (lx [lxSrc32 a] false) →
        th.fifo.length < 8 → m.toNat < st.stages.length →
        ∃ t, exec (.itRd a m k) s = .next t ∧ e.OnlyThread t tid
          ({ th with fifo := th.fifo ++
              [s.storeEntry .sh off (leBytes (st.stages.getD m.toNat Stage.none).image 64)] }.commit s.cur.length .now []))) ∧
    (s.Clear (lx [lxDst64 d] false) → ∃ t v, exec (.itStat d k la) s = .next t ∧
      e.OnlyThread t tid (th.commit s.cur.length (.after la.toNat) (th.loadResults d true v)) ∧
      (cr.stack? k.toNat = none → v = 0#64) ∧
      ∀ st, cr.stack? k.toNat = some st → st.pull = none → st.stages.length ≤ 8 → st.pend.length ≤ 64 →
        st.deliv < 2 ^ 32 → (v.extractLsb' 0 4).toNat = st.stages.length ∧ v.getLsbD 4 = st.ended ∧
          v.getLsbD 5 = st.failed ∧ v.getLsbD 6 = false ∧ v.getLsbD 7 = st.w2 ∧
          (v.extractLsb' 8 7).toNat = st.pend.length ∧ v.getLsbD 15 = false ∧
          v.extractLsb' 16 16 = (if st.failed then st.fcode else 0#16) ∧ (v.extractLsb' 32 32).toNat = st.deliv) ∧
    ∀ (c w ix addr : Nat) (cr : Crew) (th : Thread) (st : ItStack) (p : Pull) (y : Stage) (sp : Space) (o : Nat),
      s.crew? c = some cr → cr.stack? w = some st → st.pull = some p → p.tids = [tid] → p.taken = [] → 0 < p.budget →
      p.pause = none → Table.get? cr.threads tid = some th → st.pend = [] → st.ended = false → st.stages = [y] →
      y.done = false → y.ready = false → recKind y.record = 2 → st.w2 = false → ix = bitsOf y.record 159 128 →
      ix < bitsOf y.record 127 96 → addr = bitsOf y.record 95 32 + 4 * ix → (addrForm addr).local? = some (sp, o) →
      (sp = .die → (s.dieLine cr o).present = true ∧ (s.dieLine cr o).faulted = false) →
      s.enginePoison cr sp o 4 = false →
      ∃ t, exec (.pullResume c w) s = .next t ∧ { t with crews := s.crews } = s ∧
        (∀ x, x ≠ c → t.crew? x = s.crew? x) ∧
        (t.crew? c).map Crew.bare = some (cr.putStack w { st with
          stages := [{ y with record := setBits y.record 159 128 (ix + 1) }], pull := none,
          deliv := min (st.deliv + 1) 0xFFFFFFFF }).outward.bare ∧
        (∀ u, u ≠ tid → t.thread? c u = s.thread? c u) ∧
        t.thread? c tid = some (s.closed cr (th.commit th.parkLen (.after p.la)
          [(.reg (th.regOf p.vd), BitVec.ofNat 32 (leNat (s.engineBytes cr sp o 4))), (.p6, 1#32),
            (.reg (th.regOf p.vn), 1#32)]))

/-- For every state with a bundle of one active thread and a queue that stands, its lines ready and the thread's
stores performed: a push with room in the ring and nothing spilled writes the record into the slot behind the last and
counts it; with the ring full or records spilled and room in the segment it writes the segment; with neither, q.push
parks and q.push.nb writes p6 false. A pop takes the record at the head; on an empty queue q.pop parks and q.pop.nb
writes p6 false. q.stat reads the counts and the state. Each but q.stat begins a region. The churn moves the oldest
spilled records to the ring. No other byte of the window changes. For every state with a bundle of one active thread
whose node record is well formed, its template readable and good, its queue standing with room in the ring, its lines
ready and the thread's stores performed: emit pushes the record into the node's queue, PEND grows by one, FIRST takes
the tick when PEND was 0, the launch keeps the template with the node, and the thread begins a region; a malformed
node, and a template that holds an error, breaks its table or can never fit (R278), trap the thread with EMIT_BAD (a
template that holds an error does so by the model's choice, log entry 26). (spec/17_scheduler.md R288, R289, R290,
R293, spec/17_scheduler.md R278, R294, R295, notes/assumptions/26.md) -/
def Obligations.QueuesAndNodes : Prop :=
  (
  (∀ (s e : State) (a x d : BitVec 7) (la : BitVec 4) (tid : Nat) (cr : Crew) (th : Thread) (q : Nat) (v : QueueView),
      s.Solo tid cr th → e = s.outward → q = (th.read32 a).toNat → s.noQueue cr q = false → v = s.queue cr q →
      s.spacePoison cr th .die q 64 false = none → th.fifo = [] → s.lineState cr th .die q = .ready →
      (v.failed = false → s.Clear (lx [lxSrc32 a, lxSrc64 x] false) →
        ∀ i nb, (i, nb) ∈ [(Instr.qPush a x, false), (.qPushNb a x, true)] →
        (v.scount = 0 → v.count + v.rsv < v.cap → ∀ slot, slot = ringSlot q ((v.head + v.count) % v.cap) →
          s.lineState cr th .die slot = .ready →
          ∃ t, exec i s = .next t ∧ s.QueueStep t cr tid
              (s.closed cr (th.commit s.cur.length .now (if nb then [(.p6, 1#32)] else [])))
              (fun b => q ≤ b ∧ b < q + 64 ∨ slot ≤ b ∧ b < slot + 8) ∧
            t.queue cr q = { v with count := v.count + 1 } ∧ leNat (t.readDie cr slot 8) = (th.read64 x).toNat) ∧
        (v.scount ≠ 0 ∨ v.cap ≤ v.count + v.rsv → v.scap ≤ v.scount → ∃ t, exec i s = .next t ∧
          if nb then e.OnlyThread t tid (s.closed cr (th.commit s.cur.length .now [(.p6, 0#32)]))
          else e.Parks t tid th (.queue q)) ∧
        (v.scount ≠ 0 ∨ v.cap ≤ v.count + v.rsv → v.scount < v.scap → ∀ m, m = v.seg + 8 * ((v.shead + v.scount) % v.scap) →
          s.mainFault cr.ctx m 8 true = none → s.queueJoined cr.launch cr.die q [m] = false →
          ∀ w, w = s.writeMain cr.ctx m (leBytes (th.read64 x).toNat 8) →
          ∃ t, exec i s = .next t ∧ t.queue cr q = { v with scount := v.scount + 1 } ∧
            (t.devMem, t.hostMem, t.peerMem) = (w.devMem, w.hostMem, w.peerMem) ∧
            t.thread? s.cur.crew tid =
              some (s.closed cr (th.commit s.cur.length .now (if nb then [(.p6, 1#32)] else []))))) ∧
      (v.failed = false → s.popPoison a = none → s.Clear (lx [lxDst64 d, lxSrc32 a] false) →
        ∀ i nb, (i, nb) ∈ [(Instr.qPop d a la, false), (.qPopNb d a la, true)] →
        (0 < v.count → s.lineState cr th .die (ringSlot q v.head) = .ready →
          ∃ t, exec i s = .next t ∧ s.QueueStep t cr tid
            (s.closed cr (th.commit s.cur.length (.after la.toNat)
              (th.loadResults d true (BitVec.ofNat 64 (leNat (s.readDie cr (ringSlot q v.head) 8))) ++
                if nb then [(.p6, 1#32)] else [])))
            (fun b => q ≤ b ∧ b < q + 64) ∧
          t.queue cr q = { v with head := (v.head + 1) % v.cap, count := v.count - 1 }) ∧
        (v.count = 0 → v.scount = 0 → ∃ t, exec i s = .next t ∧
          if nb then e.OnlyThread t tid (s.closed cr (th.commit s.cur.length (.after la.toNat) [(.p6, 0#32)]))
          else e.Parks t tid th (.queue q)) ∧
        (v.count = 0 → v.scount ≠ 0 → ∃ t, exec i s = .next t ∧ e.Parks t tid th (.queue q))) ∧
      (s.Clear (lx [lxDst64 d, lxSrc32 a] false) → ∃ t w, exec (.qStat d a la) s = .next t ∧
        e.OnlyThread t tid (th.commit s.cur.length (.after la.toNat) (th.loadResults d true w)) ∧
        (w.extractLsb' 0 32).toNat = min (v.count + v.scount) 0xFFFFFFFF ∧ w.getLsbD 32 = v.failed ∧
        w.getLsbD 33 = decide (v.scount ≠ 0) ∧ w.extractLsb' 34 14 = 0#14 ∧ (w.extractLsb' 48 16).toNat = v.fcode)) ∧
    ∀ (s : State) (l die q n c : Nat) (cr : Crew) (v : QueueView), s.crewOn l die = some (c, cr) →
      s.crew? c = some cr → s.noQueue cr q = false → v = s.queue cr q → v.failed = false → n = v.batch → 0 < n →
      s.churnReady cr q n = true → s.queueJoined l die q ((List.range n).map fun j => spillSlot v (v.shead + j)) = false →
      rowAssisted (s.dutyRow cr.ctx 2) = false → (∀ e ∈ s.calls, e.2.origin ≠ .churn l die q) → (∀ j < n, s.mainFault cr.ctx (spillSlot v (v.shead + j)) 8 false = none ∧
        s.mainPoisoned cr.ctx (spillSlot v (v.shead + j)) 8 = false) →
      n = min 8 (min v.scount (v.cap - v.count - v.rsv)) ∧
      ∃ t, exec (.churnMove l die q) s = .next t ∧ { t with launches := s.launches, tlb := s.tlb } = s ∧
        t.queue cr q = { v with shead := (v.shead + n) % v.scap, scount := v.scount - n, count := v.count + n } ∧
        ∀ j < n, t.readDie cr (ringSlot q ((v.head + v.count + j) % v.cap)) 8 =
          s.readMain cr.ctx (v.seg + 8 * ((v.shead + j) % v.scap)) 8) ∧ (
  ∀ (s : State) (a x : BitVec 7) (tid n q slot r : Nat) (cr : Crew) (th : Thread) (v : QueueView) (w : NodeView) (l : Launch),
    s.Solo tid cr th → n = (th.read32 a).toNat → n % 64 = 0 → launchBase ≤ n → n + 64 ≤ launchBase + s.launchSize cr →
    s.emitPoison cr th n = none → th.fifo = [] → s.lineState cr th .die n = .ready →
    s.Clear (lx [lxSrc32 a, lxSrc64 x] false) →
    (nodeBad (leNat (s.readDie cr n 64)) = true → exec (.emit a x) s = .next (s.outward.trapLane tid Code.emitBad n)) ∧
    (nodeBad (leNat (s.readDie cr n 64)) = false → w = s.node cr n → s.mainFault cr.ctx w.tmpl 256 false = none →
      s.mainPoisoned cr.ctx w.tmpl 256 = true ∨ s.templateGood cr.ctx (leNat (s.readMain cr.ctx w.tmpl 256)) = false →
      ∃ u : State, { u with tlb := s.tlb } = s.outward ∧ exec (.emit a x) s = .next (u.trapLane tid Code.emitBad n)) ∧
    (nodeBad (leNat (s.readDie cr n 64)) = false → w = s.node cr n → s.mainFault cr.ctx w.tmpl 256 false = none →
      r = leNat (s.readMain cr.ctx w.tmpl 256) → s.mainPoisoned cr.ctx w.tmpl 256 = false →
      s.templateGood cr.ctx r = true → q = w.qoff →
      s.lineState cr th .die q = .ready → s.noQueue cr q = false → v = s.queue cr q → v.failed = false → v.scount = 0 →
      v.count + v.rsv < v.cap → (n + 64 ≤ q ∨ q + 64 + 8 * v.cap ≤ n) → w.pend + 1 < 2 ^ 32 → s.tick < 2 ^ 64 →
      Table.get? s.launches cr.launch = some l → slot = ringSlot q ((v.head + v.count) % v.cap) →
      s.lineState cr th .die slot = .ready →
      ∃ t l', exec (.emit a x) s = .next t ∧
        State.QueueStep { s with tlb := t.tlb } t cr tid (s.closed cr (th.commit s.cur.length .now []))
          (fun b => n ≤ b ∧ b < n + 64 ∨ q ≤ b ∧ b < q + 64 ∨ slot ≤ b ∧ b < slot + 8) ∧
        t.queue cr q = { v with count := v.count + 1 } ∧ leNat (t.readDie cr slot 8) = (th.read64 x).toNat ∧
        t.node cr n = { w with pend := w.pend + 1, first := if w.pend = 0 then s.tick else w.first } ∧
        Table.get? t.launches cr.launch = some l' ∧ ({
          die := cr.die, off := n, template := parseLaunch r
          ticks := (if w.pend = 0 then [] else l.nodeTicks cr.die n) ++ [s.tick] } : GraphNode) ∈ l'.nodes ∧
        ∀ z ∈ l.nodes, (z.die ≠ cr.die ∨ z.off ≠ n) → z ∈ l'.nodes))

/-- For every state with a bundle of one active thread: with no call outstanding, hcall traps with HC_BAD on a non-
zero checked field of its block and with ADDR_FORM on an ARG that is not a main address; in a class without a worker
the thread goes on in a new region with HC_NOCLASS and 0; otherwise, with its stores performed, one call is raised
under a free tag with the fields of the block, it goes to the end of its class queue, a region begins at the hcall
itself, and the thread parks. With a call outstanding, hcall raises none and parks for it. The model's choices: which
free tag a call takes (assumption log row 58) and that a worker under WORKER_DEL is no longer registered (row 37).
(spec/20_host_calls.md R322, R323, R326, spec/01_engines.md R11) -/
def Obligations.HostCallsAreRaised : Prop :=
  ∀ (s e : State) (d a : BitVec 7) (tid : Nat) (cr : Crew) (th : Thread) (w0 w1 w2 w3 : Word) (m : BitVec 64),
    s.Solo tid cr th → e = s.outward → m = s.maskOf (fun x => s.cur.active x.1 x.2) →
    s.Clear
        { opnds := [lxDst64 d], illegal := blockIllegal s.curBudget a 4 true, cls := PfxClass.predOnly, blocks := [(a, 4)] } →
    w0 = th.readReg (th.blockReg a 0) → w1 = th.readReg (th.blockReg a 1) → w2 = th.readReg (th.blockReg a 2) →
    w3 = th.readReg (th.blockReg a 3) →
    (th.callTag = none →
      (w2.extractLsb' 5 11 ≠ 0#11 → exec (.hcall d a) s = .next (s.trap Code.hcBad m 2)) ∧
      (w2.extractLsb' 5 11 = 0#11 → w3.extractLsb' 16 16 ≠ 0#16 → exec (.hcall d a) s = .next (s.trap Code.hcBad m 3)) ∧
      (w2.extractLsb' 5 11 = 0#11 → w3.extractLsb' 16 16 = 0#16 →
        (2 ^ 57 ≤ (pairOf w0 w1).toNat →
          exec (.hcall d a) s = .next (s.trap Code.addrForm m (pairOf w0 w1).toNat)) ∧
        ((pairOf w0 w1).toNat < 2 ^ 57 → th.fifo = [] →
          (s.workersOf cr.ctx (w2.extractLsb' 0 4).toNat false = [] → ∃ t, exec (.hcall d a) s = .next t ∧
            e.OnlyThread t tid (s.closed cr (th.commit s.cur.length .now
              [(.reg (th.blockReg d 0), 0x0701#32), (.reg (th.blockReg d 1), 0#32)]))) ∧
          (s.workersOf cr.ctx (w2.extractLsb' 0 4).toNat false ≠ [] →
            (s.link = .down → s.workersOf cr.ctx (w2.extractLsb' 0 4).toNat true ≠ []) → s.usedTags.length < 65535 →
            ∃ t g c th', exec (.hcall d a) s = .next t ∧ 1 ≤ g ∧ g ≤ 65535 ∧ (∀ x ∈ s.calls, x.2.tag ≠ some g) ∧
              t.calls = Table.put s.calls s.nextId c ∧ t.nextId = s.nextId + 1 ∧
              c =
                { ctx := cr.ctx, tag := some g, cls := (w2.extractLsb' 0 4).toNat, reroute := w2.getLsbD 4, sys := false
                  func := (w2.extractLsb' 16 16).toNat, arg := (pairOf w0 w1).toNat, launch := cr.srLaunch.toNat
                  crew := cr.index, tid := tid, tick := s.tick
                  duration := if w3.extractLsb' 0 16 = 0#16 then 65536 else (w3.extractLsb' 0 16).toNat
                  deadline := s.now + 1050 * c.duration, data := [], origin := .thread s.cur.crew tid, worker := none
                  heldBy := [], pick := none, outcome := none, taken := false
                  op := match Table.get? s.contexts cr.ctx with | some x => x.callTl.accepted + 1 | none => 0 } ∧
              t.contexts = Table.adjust s.contexts cr.ctx (fun x =>
                { x with
                  callTl := { x.callTl with accepted := x.callTl.accepted + 1 }
                  classQueues := Table.put x.classQueues c.cls
                    ((Table.get? x.classQueues c.cls).getD [] ++ [s.nextId]) }) ∧
              State.OnlyThread
                { e with
                  calls := t.calls, contexts := t.contexts, nextId := t.nextId, nextSeq := t.nextSeq, freeIx := t.freeIx }
                t tid th' ∧
              th' = { s.closed cr th with
                callTag := some g, wait := some (.hostCall s.nextId), parkSeq := th'.parkSeq, parkLen := s.cur.length
                parkWord := s.cur.word, parkPfx := s.cur.pfxWord, parkIssue := s.cur.seq })))) ∧
    ∀ id c, th.callTag ≠ none → Table.get? s.calls id = some c → c.origin = .thread s.cur.crew tid → c.taken = false →
      c.outcome = none → (∀ x ∈ s.calls, x.2.origin = .thread s.cur.crew tid → x.2.taken = false → x = (id, c)) →
      ∃ t, exec (.hcall d a) s = .next t ∧ e.Parks t tid th (.hostCall id)

/-- For every state: the first call of a class queue goes to the idle worker of the class with the lowest number,
which becomes busy: the pail of Table 20.7 stands in the memory of a host thread's process, and an attendant core runs
the entry that FUNC names. A reply with the tag of the call that its worker holds frees the worker and ends the call:
the thread has 0 or HC_FAULT and RET, and goes on in a new region; a reply with another tag goes to the log and frees
nothing. A deadline ends a call with HC_TIMEOUT and 0 while its worker stays busy, or with REROUTE gives it a fresh
deadline at the front of its queue. The model's choices: the queue gives the first call that an idle worker may take
(assumption log row 29), where the pail lies (row 66), when a pail has arrived (row 70), the crew of a stray reply's
record (row 71), and which free tag a duty request takes (row 58). (spec/20_host_calls.md R323, R324, R325, R326,
R327, R331) -/
def Obligations.HostCallsAreServed : Prop :=
  (∀ (s : State) (ctx cls id fn w : Nat) (rest : List Nat) (c : Call) (x : Context) (f : HostFn) (k : Worker),
      Table.get? s.contexts ctx = some x → Table.get? x.classQueues cls = some (id :: rest) →
      Table.get? s.calls id = some c → c.ctx = ctx → c.cls = cls → s.now < c.deadline →
      (c.tag = none → s.usedTags.length < 65535) → Table.wf s.fns = true →
      Table.get? s.fns fn = some f → Table.wf f.workers = true → Table.get? f.workers w = some k →
      (fn, w, k) ∈ s.serving c → k.call = none → w ∉ c.heldBy →
      (c.pick = none ∨ c.pick = some w) →
      (∀ y ∈ s.serving c, y.2.2.call = none → y.2.1 ∉ c.heldBy → y.1 = fn ∧ w ≤ y.2.1) →
      ((k.core.isSome = true → c.sys = false → c.func < k.tableLen) → ∃ t y g, exec (.callDispatch ctx cls) s = .next t ∧
        Table.get? t.contexts ctx = some y ∧ Table.get? y.classQueues cls = some (rest.filter (· ≠ id)) ∧
        (c.tag = some g ∨ c.tag = none ∧ 1 ≤ g ∧ g ≤ 65535 ∧ g ∉ s.usedTags) ∧
        Table.get? (t.fn fn).workers w = some { k with call := some id, callPh := !k.callPh } ∧
        Table.get? t.calls id = some { c with tag := some g, worker := some w, heldBy := c.heldBy ++ [w], pick := none } ∧
        (∀ n, k.core = some n → (t.core n).call = some id ∧
          (c.sys = false → (t.core n).pc = BitVec.ofNat 64 (leNat (s.readMain ctx (k.tableAddr + 8 * c.func) 8)))) ∧
        ∀ p : BitVec 1024,
          p = BitVec.ofNat 1024 (leNat (match k.core with
            | none => Mem.readBytes ((Table.get? t.hostMem x.pasid).getD []) k.pail 128
            | some n => (t.core n).pail)) →
          g < 2 ^ 16 → cls < 16 → c.func < 2 ^ 16 → ctx < 2 ^ 16 → x.pasid < 2 ^ 20 → c.deadline < s.now + 2 ^ 32 →
          c.arg < 2 ^ 64 → c.launch < 2 ^ 64 → c.crew < 2 ^ 32 → c.tid < 2 ^ 16 → c.tick < 2 ^ 64 →
          (p.extractLsb' 0 16).toNat = g ∧ (p.extractLsb' 16 4).toNat = cls ∧ p.getLsbD 20 = c.reroute ∧
            p.getLsbD 21 = c.sys ∧ p.getLsbD 22 = (!k.callPh) ∧ p.extractLsb' 23 9 = 0#9 ∧
            (p.extractLsb' 32 16).toNat = c.func ∧ (p.extractLsb' 48 16).toNat = ctx ∧
            (p.extractLsb' 64 20).toNat = x.pasid ∧ p.extractLsb' 84 12 = 0#12 ∧
            (p.extractLsb' 96 32).toNat = (c.deadline - s.now) / 1050 ∧ (p.extractLsb' 128 64).toNat = c.arg ∧
            (p.extractLsb' 192 64).toNat = c.launch ∧ (p.extractLsb' 256 32).toNat = c.crew ∧
            (p.extractLsb' 288 16).toNat = c.tid ∧ p.extractLsb' 304 16 = 0#16 ∧ (p.extractLsb' 320 64).toNat = c.tick ∧
            (∀ j < 8, p.extractLsb' (384 + 64 * j) 64 = c.data.getD j 0#64) ∧ p.extractLsb' 896 128 = 0#128) ∧
      (∀ crew tid cr th, k.core.isSome = true → c.sys = false → k.tableLen ≤ c.func → c.outcome = none →
        c.origin = .thread crew tid → s.crew? crew = some cr → Table.get? cr.threads tid = some th →
        th.wait = some (.hostCall id) → ∃ t, exec (.callDispatch ctx cls) s = .next t ∧ t.fns = s.fns ∧
          (∀ z u, ¬(z = crew ∧ u = tid) → t.thread? z u = s.thread? z u) ∧
          t.thread? crew tid = some (s.closed cr
            { th.commit th.parkLen (.after 0) (callResults th (th.parkWord.extractLsb' 18 7) 0x0702#16 0#32) with
              callTag := none }))) ∧
    (∀ (s : State) (fn w id crew tid : Nat) (f : HostFn) (k : Worker) (c : Call) (cr : Crew) (th : Thread) (v : BitVec 1024),
      Table.wf s.fns = true → Table.get? s.fns fn = some f → Table.wf f.workers = true →
      Table.get? f.workers w = some k → s.arrivedLine f (0x5000 + 128 * w) 16 = true →
      v = BitVec.ofNat 1024 (s.windowNat fn (0x5000 + 128 * w) 128) → v.getLsbD 32 ≠ k.replyPh →
      k.call = some id → Table.get? s.calls id = some c →
      (c.tag ≠ some (v.extractLsb' 0 16).toNat → (rowAssisted (s.dutyRow k.ctx 5) = false ∨ s.rowServed k.ctx 5 = false) →
        ∀ x, Table.get? s.contexts k.ctx = some x → ∃ t y, exec (.replyPail fn w) s = .next t ∧
          Table.get? t.contexts k.ctx = some y ∧ t.calls = s.calls ∧
          Table.get? (t.fn fn).workers w = some { k with replyPh := !k.replyPh } ∧
          y.log = pushLog x.log
            { code := Code.hcStray, action := 0, crew := 0xFFFFFFFF, info := w, launch := 0, tick := s.tick, addr := 0
              info2 := (v.extractLsb' 0 16).toNat }) ∧
      (c.tag = some (v.extractLsb' 0 16).toNat → k.core = none → k.deleting = false → c.sys = false → c.outcome = none →
        s.now < c.deadline → c.origin = .thread crew tid → s.crew? crew = some cr → Table.get? cr.threads tid = some th →
        th.wait = some (.hostCall id) →
        (∀ y ∈ s.fns, ∀ z ∈ y.2.workers, z.2.call = some id → y.1 = fn ∧ z.1 = w) →
        ∃ t, exec (.replyPail fn w) s = .next t ∧
          Table.get? (t.fn fn).workers w = some { k with replyPh := !k.replyPh, call := none } ∧
          Table.get? t.calls id = none ∧ (∀ z u, ¬(z = crew ∧ u = tid) → t.thread? z u = s.thread? z u) ∧
          t.thread? crew tid = some (s.closed cr
            { th.commit th.parkLen (.after 0) (callResults th (th.parkWord.extractLsb' 18 7)
                (if v.extractLsb' 16 16 = 0#16 then 0#16 else 0x0702#16) (v.extractLsb' 64 32)) with
              callTag := none }))) ∧
    ∀ (s : State) (id : Nat) (c : Call), Table.get? s.calls id = some c → c.outcome = none → c.deadline ≤ s.now →
      (∀ crew tid cr th, c.reroute = false → c.origin = .thread crew tid → s.crew? crew = some cr →
        Table.get? cr.threads tid = some th → th.wait = some (.hostCall id) →
        (∀ y ∈ s.fns, ∀ z ∈ y.2.workers, z.2.call = some id → z.2.deleting = false) →
        ∃ t, exec (.callDeadline id) s = .next t ∧ t.fns = s.fns ∧
          (∀ z u, ¬(z = crew ∧ u = tid) → t.thread? z u = s.thread? z u) ∧
          t.thread? crew tid = some (s.closed cr
            { th.commit th.parkLen (.after 0) (callResults th (th.parkWord.extractLsb' 18 7) 0x0703#16 0#32) with
              callTag := none })) ∧
      (c.reroute = true → s.heldByAll c = false → s.tagless c = false → s.rerouting id = false →
        rowAssisted (s.dutyRow c.ctx 4) = false →
        ∀ x, Table.get? s.contexts c.ctx = some x → ∃ t y, exec (.callDeadline id) s = .next t ∧
          Table.get? t.calls id = some { c with deadline := s.now + 1050 * c.duration, pick := none } ∧
          Table.get? t.contexts c.ctx = some y ∧
          Table.get? y.classQueues c.cls = some (id :: ((Table.get? x.classQueues c.cls).getD []).filter (· ≠ id)))

/-- For every state with a bundle of one active thread, a group object and a block that pass every check of R339, the
lines ready and the thread's stores performed: a transfer operation joins its generation with the fields of the block
and the next number of its kind between the two ranks, arms its latch by 64 bytes for each unit, sends a send's or a
reduction's buffer unit by unit, and the thread goes on in a new region. A message that meets an operation and differs
in LEN or OP ends it with COL_BAD; a unit lands in a receive as it came and in a reduction combined with the lower
rank's first, and a confirmation counts a unit of a send; each counts 64 bytes at the latch. All of that holds while
no operation of the generation has passed its time-out (R23, R340). How a message is cut is the model's choice
(assumption log row 40). (spec/22_fabric_collectives.md R337, R338, R339, spec/01_engines.md R11, R14, R15) -/
def Obligations.TransfersOfCollectives : Prop :=
  (∀ (s : State) (a b : BitVec 7) (tid off len peer latch buf : Nat) (cr : Crew) (th : Thread) (g : GroupView) (w2 w3 : Word),
      s.Solo tid cr th → off = (th.read32 a).toNat → off % 64 = 0 → launchBase ≤ off → s.inBounds cr .die off 64 = true →
      s.spacePoison cr th .die off 64 false = none → th.fifo = [] →
      g = viewGroup (leNat (s.readDie cr off 64)) → g.aborted = false →
      w2 = th.readReg (th.blockReg b 2) → w3 = th.readReg (th.blockReg b 3) → peer = (w2.extractLsb' 0 12).toNat →
      len = (w2.extractLsb' 16 16).toNat → latch = 16 * (w3.extractLsb' 0 17).toNat →
      buf = (pairOf (th.readReg (th.blockReg b 0)) (th.readReg (th.blockReg b 1))).toNat →
      s.Clear
          { opnds := [lxSrc32 a], illegal := blockIllegal s.curBudget b 4 true, cls := PfxClass.predOnly
            blocks := [(b, 4)] } →
      (cr.latch latch).malformed = false → (cr.latch latch).bytes + 64 * len < 2 ^ 48 → cr.latchPoisoned latch = false →
      (0 < len ∨ (cr.latch latch).bytes ≠ 0 ∨ (cr.latch latch).arrive ≠ 0) →
      s.lineReady cr off = true → s.lineReady cr (off + 64 + 4 * peer) = true →
      colFormBad (th.colBlock b) = none → s.colBoundsBad cr (th.colBlock b) = none → colAlignBad (th.colBlock b) = none →
      s.absentUnit cr (th.colBlock b) = none →
      (∀ u < len, s.unitBad cr buf u = none) →
      ∀ i kind, (i, kind) ∈ [(Instr.colSend a b, ColKind.send), (.colRecv a b, .recv), (.colRed a b, .red)] →
      s.colBad cr th kind off (th.colBlock b) = none → s.peerPoison a b = none →
      ∃ t o cr', exec i s = .next t ∧ t.colops = Table.put s.colops s.nextId o ∧ t.nextId = s.nextId + 1 ∧
        (o.crew, o.ctx, o.launch, o.die, o.group, o.gid, o.gen, o.rank) =
          (s.cur.crew, cr.ctx, cr.launch, cr.die, off, g.gid, g.gen, g.rank) ∧
        (o.peer, o.kind, o.op, o.buffer, o.len, o.latch, o.issued) =
          (peer, kind, (w2.extractLsb' 12 4).toNat, buf, len, latch, s.now) ∧
        o.timeout = (if g.timeout = 0 then 2000 else g.timeout) ∧ o.units = [] ∧ o.closed = decide (len = 0) ∧
        o.late = none ∧ o.module = leNat (s.readDie cr (off + 64 + 4 * peer) 2) ∧
        o.num = (s.groupTl cr.launch cr.die off).accepted + 1 ∧
        (∀ x, Table.get? s.launches cr.launch = some x → (t.groupTl cr.launch cr.die off).accepted = o.num) ∧
        o.ordinal = (s.colops.filter fun e => e.2.ctx = cr.ctx && e.2.gid = g.gid && e.2.gen = g.gen &&
          e.2.rank = g.rank && e.2.kind = kind && e.2.peer = peer).length ∧
        t.crew? s.cur.crew = some cr' ∧
        cr'.latch latch = { cr.latch latch with bytes := (cr.latch latch).bytes + 64 * len } ∧
        (∀ x, x < latch ∨ latch + 16 ≤ x → Mem.read cr'.shared x = Mem.read cr.shared x) ∧
        t.thread? s.cur.crew tid = some (s.closed cr (th.commit s.cur.length .now [])) ∧
        (∀ u, u ≠ tid → t.thread? s.cur.crew u = s.thread? s.cur.crew u) ∧
        (kind = .recv → 0 < len → t.sent = s.sent ++ [.colTransfer o.module g.gid g.gen g.rank peer 1 o.ordinal 0 len 0 []]) ∧
        (kind ≠ .recv → ∃ ms, t.sent = s.sent ++ ms ∧ ms.length = len ∧ ∀ u < len, ms[u]? =
          some (.colTransfer o.module g.gid g.gen g.rank peer (if kind = .send then 0 else 2) o.ordinal u len o.op
            (t.bufferUnit s.cur.crew cr.launch cr.die buf u)))) ∧
    (∀ (s : State) (id x k u len op : Nat) (data : List Byte) (o : ColOp) (cr : Crew) (v : LatchView),
      Table.get? s.colops id = some o → o.closed = false → s.generationOver o = false → o.ordinal = k → s.crew? o.crew = some cr →
      cr.killed = false → cr.latchPoisoned o.latch = false → Table.wf cr.threads = true →
      (∀ e ∈ s.colops, e.2.ctx = o.ctx → e.2.gid = o.gid → e.2.gen = o.gen → e.2.rank = o.rank → e.2.peer = o.peer → e.2.kind = o.kind →
        e.2.ordinal = k → e.2.closed = false → e = (id, o)) → v = cr.latch o.latch → v.malformed = false → v.err = 0 →
      (∀ p u' y, Table.get? cr.threads p = some y → y.wait ≠ some (.latch o.latch u')) →
      ∀ w, w = (if v.bytes = 64 ∧ v.arrive = 0 then { v with bytes := 0, arrive := v.init, phase := !v.phase }
        else { v with bytes := v.bytes - 64 }) →
      (∀ i, s.objectCurrent o = true → s.objectPoisoned o.launch o.die o.group 64 = false → i = exec (.colTransferReceive o.ctx (o.gid, o.gen) o.peer o.rank
          (match o.kind with | .recv => 0 | .send => 1 | .red => 2) k u len op data) s →
        (len ≠ o.len ∨ (o.kind = .red ∧ op ≠ o.op) → ∃ t cr', i = .next t ∧ t.crew? o.crew = some cr' ∧
          Table.get? t.colops id = some { o with closed := true, late := none } ∧ (cr'.latch o.latch).err = 0x0801) ∧
        (len = o.len → (o.kind = .red → op = o.op) → o.kind ≠ .send → u < o.len → u ∉ o.units → data.length = 64 →
          64 ≤ v.bytes → addrForm (o.buffer + 64 * u) = .sh x → (o.latch + 16 ≤ x ∨ x + 64 ≤ o.latch) →
          s.unitBad cr o.buffer u = none →
          ∃ t cr', i = .next t ∧ t.crew? o.crew = some cr' ∧ cr'.latch o.latch = w ∧
            Table.get? t.colops id =
              some { o with units := o.units ++ [u], closed := decide (o.len ≤ o.units.length + 1) } ∧
            Mem.readBytes cr'.shared x 64 =
              (if o.kind = .recv then data
                else if o.rank < o.peer then combUnit o.op (Mem.readBytes cr.shared x 64) data
                else combUnit o.op data (Mem.readBytes cr.shared x 64)) ∧
            t.sent = s.sent ++ (if o.kind = .recv then [.colConfirm o.module o.gid o.gen o.peer o.rank o.ordinal u] else []) ∧
            ∀ z, ¬(x ≤ z ∧ z < x + 64) → ¬(o.latch ≤ z ∧ z < o.latch + 16) →
              Mem.read cr'.shared z = Mem.read cr.shared z)) ∧
      (o.kind = .send → 64 ≤ v.bytes → ∃ t cr', exec (.receiverConfirmation id) s = .next t ∧
        t.crew? o.crew = some cr' ∧ cr'.latch o.latch = w ∧ Table.get? t.colops id =
          some { o with
            units := o.units ++ [o.units.length], closed := decide (o.len ≤ o.units.length + 1) })) ∧
    ∀ (lo hi : List Byte) (op n i : Nat) (f : Nat → Nat → Nat), lo.length = 64 → hi.length = 64 →
      (op, n, f) ∈ [(0, 4, f32Fmt.add .rne), (1, 2, bf16Fmt.add .rne), (2, 4, fun a b => (a + b) % 2 ^ 32),
        (3, 8, f64Fmt.add .rne), (4, 4, f32Fmt.max), (5, 4, f32Fmt.min)] → i < 64 / n →
      leNat (((combUnit op lo hi).drop (i * n)).take n) =
        f (leNat ((lo.drop (i * n)).take n)) (leNat ((hi.drop (i * n)).take n)) % 2 ^ (8 * n)

/-- For every state, while no thread waits on a latch and the header holds no error: the expiry of the time-out of an
unfinished operation sets ABORTED, ACODE to COL_TIMEOUT and DEAD to its peer, col.abort of one active thread sets
ACODE to COL_ABORT and DEAD to 0xFFFF and begins a region, and both send an abort flit to every other rank whose entry
holds no error (log entry 106); an abort flit aborts the object of its generation with COL_ABORT and 0xFFFF and sends
none. Each ends every unfinished operation of the generation with the code in its latch's ERR if that was 0, and
writes no other byte of the object. A header that has aborted stays as it is. col.stat reads ABORTED, ACODE and GEN.
(spec/22_fabric_collectives.md R340, R341, notes/assumptions/106.md) -/
def Obligations.AbortsOfGenerations : Prop :=
  ∀ (s : State) (l die off : Nat) (g : GroupView) (x : Launch), Table.get? s.launches l = some x → launchBase ≤ off →
    s.objectPoisoned l die off 64 = false →
    (x.win die).size ≠ 0 → g = viewGroup (s.objectHeader l die off) → Table.wf s.colops = true →
    (∀ c ∈ s.crews, ∀ y ∈ c.2.threads, ∀ p q, y.2.wait ≠ some (.latch p q)) →
    (∀ e ∈ s.colops, e.2.latch % 16 = 0 ∧
      ∀ c, s.crew? e.2.crew = some c → c.killed = false ∧ c.latchPoisoned e.2.latch = false) →
    (∀ e ∈ s.colops, e.2.gid = g.gid → e.2.gen = g.gen → (e.2.launch, e.2.die, e.2.group) = (l, die, off)) →
    (∀ (i : Instr) (code : Code) (dead : Nat) (flits : Bool) (tid : Nat) (cr : Crew) (th : Thread) (a : BitVec 7),
      ((∃ id o, Table.get? s.colops id = some o ∧ i = .colTimeoutExpiry id ∧ o.closed = false ∧
          (o.launch, o.die, o.group) = (l, die, off) ∧ o.issued + 1050 * o.timeout ≤ s.now ∧ o.gid = g.gid ∧ o.gen = g.gen ∧
          (code, dead, flits) = (0x0802#16, o.peer, true)) ∨
        (i = .colAbort a ∧ s.Solo tid cr th ∧ s.Clear (lx [lxSrc32 a] false) ∧ off = (th.read32 a).toNat ∧ off % 64 = 0 ∧
          (l, die) = (cr.launch, cr.die) ∧ s.inBounds cr .die off 64 = true ∧ s.spacePoison cr th .die off 64 false = none ∧
          cr.killed = false ∧ th.fifo = [] ∧ s.lineReady cr off = true ∧ g.bad = false ∧ (code, dead, flits) = (0x0803#16, 0xFFFF, true)) ∨
        (i = .abortFlit g.gid g.gen ∧ off % 64 = 0 ∧ g.bad = false ∧
          (∀ e ∈ s.objectsOf g.gid g.gen, e = (l, die, off)) ∧
          (code, dead, flits) = (0x0803#16, 0xFFFF, false))) →
      g.aborted = false → dead < 2 ^ 16 → ∃ t, exec i s = .next t ∧
        viewGroup (t.objectHeader l die off) = { g with aborted := true, acode := code.toNat } ∧
        bitsOf (t.objectHeader l die off) 175 160 = dead ∧
        (∀ z, ¬(off + 16 ≤ z ∧ z < off + 22) → ∀ y, Table.get? t.launches l = some y → launchBase ≤ z →
          Mem.read (y.win die).bytes (inWindow z) = Mem.read (x.win die).bytes (inWindow z)) ∧
        (∀ j o, Table.get? s.colops j = some o → if o.gid = g.gid ∧ o.gen = g.gen ∧ o.closed = false then
            Table.get? t.colops j = some { o with closed := true, late := if s.colAway o then some code else none } ∧
            ∀ c, s.crew? o.crew = some c → (c.latch o.latch).err = 0 →
            ∃ c', t.crew? o.crew = some c' ∧ (c'.latch o.latch).err = code.toNat
          else Table.get? t.colops j = some o) ∧
        t.sent = s.sent ++ (if flits then ((List.range g.size).filter fun r =>
            r ≠ g.rank && !s.objectPoisoned l die (off + 64 + 4 * r) 4).map fun r =>
            Message.abortFlit (Mem.readNat (x.win die).bytes (inWindow (off + 64 + 4 * r)) 2) g.gid g.gen r else []) ∧
        (i = .colAbort a → t.thread? s.cur.crew tid = some (s.closed cr (th.commit s.cur.length .now [])))) ∧
    (g.aborted = true → (∀ e ∈ s.objectsOf g.gid g.gen, e = (l, die, off)) → s.windowInImage l die = false →
      (∀ e ∈ s.colops, e.2.gid = g.gid → e.2.gen = g.gen → e.2.closed = true) → exec (.abortFlit g.gid g.gen) s = .next s) ∧
    ∀ (tid : Nat) (cr : Crew) (th : Thread) (a d : BitVec 7), s.Solo tid cr th → s.Clear (lx [lxDst64 d, lxSrc32 a] false) →
      off = (th.read32 a).toNat → off % 64 = 0 → (l, die) = (cr.launch, cr.die) → s.inBounds cr .die off 64 = true →
      s.spacePoison cr th .die off 64 true = none → th.fifo = [] → s.lineState cr th .die off = .ready →
      ∃ t w, exec (.colStat d a) s = .next t ∧
        s.outward.OnlyThread t tid (th.commit s.cur.length .now (th.loadResults d true w)) ∧ w.getLsbD 0 = g.aborted ∧
        w.extractLsb' 1 15 = 0#15 ∧ (w.extractLsb' 16 16).toNat = g.acode ∧ hi32 w = g.gen

/-- For every state in which one gang stands: col.gangbar of one active thread, its stores performed, records its
arrival once and parks it while some thread of the launch has still to arrive; the last arrival, with every other
member acknowledged and arrived, completes the generation, and every thread parked there goes on in a new region; an
acknowledgement or an arrival of another member, within the window, that is the last one does the same, and otherwise
is kept. Outside a gang, col.gangbar completes at once (log entry 41, its first sentence). A window that passes
without every acknowledgement fails the gang and tells the others, a failure flit fails it, and the crew of every
thread parked there is killed with GANG_ABORT; a thread that reaches the barrier of a failed gang is killed so too.
How acknowledgements and arrivals are counted, and that ended threads are not waited for, are the model's choices
(assumption log row 41). (spec/22_fabric_collectives.md R342, notes/assumptions/41.md) -/
def Obligations.GangBarriers : Prop :=
  ∀ (s : State) (n : Nat) (g : Gang), s.gangs = [(n, g)] →
    (∀ (tid : Nat) (cr : Crew) (th : Thread) (e : State), s.Solo tid cr th → s.Clear (lx [] false) → e = s.outward →
      th.pc = s.cur.pc → th.ended = false →
      (s.crewGang cr = none → ∃ t, exec .colGangbar s = .next t ∧
        (g.launch = none → e.OnlyThread t tid (s.closed cr (th.commit s.cur.length .now [])))) ∧
      (s.crewGang cr = some (n, g) → g.failed = true → ∃ t, exec .colGangbar s = .next t ∧
        ∀ c, t.crew? s.cur.crew = some c → c.killed = true) ∧
      (s.crewGang cr = some (n, g) → g.launch = some cr.launch → g.failed = false → (s.cur.crew, tid) ∉ g.passed →
        th.fifo = [] → s.module ∉ g.arrived →
        ((∃ c x u y, s.crew? c = some x ∧ x.launch = cr.launch ∧ Table.get? x.threads u = some y ∧ y.ended = false ∧
            (c, u) ∉ g.localArrived ∧ (c, u) ≠ (s.cur.crew, tid)) →
          ∃ t, exec .colGangbar s = .next t ∧ State.Parks { e with gangs := t.gangs } t tid th .gangBar ∧
            t.gangs = [(n, { g with
              localArrived := if (s.cur.crew, tid) ∈ g.localArrived then g.localArrived
                else g.localArrived ++ [(s.cur.crew, tid)] })]) ∧
        ((∀ c x u y, (c, x) ∈ s.crews → x.launch = cr.launch → (u, y) ∈ x.threads → y.ended = true ∨
            (c, u) ∈ g.localArrived ∨ (c, u) = (s.cur.crew, tid)) →
          (∀ v ∈ s.savedCrews cr.launch, ∀ u ∈ v.live, (v.id, u) ∈ g.localArrived) →
          (∀ x, Table.get? s.launches cr.launch = some x → x.cut = true ∨ x.started = x.record.ncrew) →
          (∀ m ∈ g.members, m ≠ s.module → m ∈ g.acks ∧ m ∈ g.arrived) → Table.wf s.crews = true →
          (∀ c ∈ s.crews, Table.wf c.2.threads = true) →
          ∃ t g' th', exec .colGangbar s = .next t ∧ t.gangs = [(n, g')] ∧ g'.barGen = g.barGen + 1 ∧
            g'.localArrived = [] ∧ t.thread? s.cur.crew tid = some (s.closed cr (Thread.commit th' s.cur.length (.after 0) [])) ∧
            th' = { th with
              parkSeq := th'.parkSeq, parkLen := s.cur.length, parkWord := s.cur.word, parkPfx := s.cur.pfxWord
              parkIssue := s.cur.seq }))) ∧
    (∀ (m lid : Nat) (i : Instr) (g1 : Gang), m ∈ g.members → m ≠ s.module → g.launch = some lid → g.failed = false →
      s.module ∈ g.arrived → s.gangLate g = false → (i, g1) ∈ [(Instr.gangAck n m, { g with acks := g.acks ++ [m] }),
        (.gangbarArrival n m, { g with arrived := g.arrived ++ [m] })] →
      ∃ t, exec i s = .next t ∧
        ((∃ k ∈ g.members, k ≠ s.module ∧ (k ∉ g1.acks ∨ k ∉ g1.arrived)) → t = { s with gangs := [(n, g1)] }) ∧
        ((∀ k ∈ g.members, k ≠ s.module → k ∈ g1.acks ∧ k ∈ g1.arrived) → Table.wf s.crews = true →
          (∀ c ∈ s.crews, Table.wf c.2.threads = true) → ∃ g', t.gangs = [(n, g')] ∧ g'.barGen = g.barGen + 1 ∧
            g'.localArrived = [] ∧ g'.acks = g1.acks ∧
            ∀ c x u y, s.crew? c = some x → Table.get? x.threads u = some y → t.thread? c u = some
              (if x.launch = lid ∧ y.wait = some .gangBar then s.closed x (y.commit y.parkLen (.after 0) []) else y))) ∧
    ∀ (m lid : Nat) (i : Instr) (ms : List Message), g.launch = some lid → g.failed = false →
      ((i = .gangWindowExpiry n ∧ ms = [.gangFail n] ∧
          g.startedAt + 1050 * (if g.window = 0 then 2000 else g.window) ≤ s.now ∧
          ∃ k ∈ g.members, k ≠ s.module ∧ k ∉ g.acks) ∨
        (i = .gangFailFlit n m ∧ ms = [] ∧ m ∈ g.members ∧ m ≠ s.module)) →
      ∃ t, exec i s = .next t ∧ (s.gangParked lid = [] → t =
          { s with sent := s.sent ++ ms, gangs := [(n, { g with failed := true })] }) ∧
        ∀ c x u y, s.crew? c = some x → x.launch = lid → Table.get? x.threads u = some y → y.wait = some .gangBar →
          ∀ x', t.crew? c = some x' → x'.killed = true

/-- For every state: the engine takes the slot at the cursor exactly when its line has arrived, its SEQ is the lap and
its entry of the lap before is written: the record joins the taken ones as it stands, with RPC_BAD when a checked
field or an operand is wrong, the cursor moves on, the lap after slot 255 grows and skips 0, and with SIGUSE the
record is numbered in SIGTL; otherwise nothing changes. A record that has its result, and for which no crew is still
being saved, completes with the entry of Table 20.5 at its slot; the operation of SIGTL completes, with IRQ the MSI
follows, and a worker that the record deleted leaves. When the line of a slot has arrived in CXL mode, and where the
window lies then, are the model's choices (assumption log rows 7, 39, 76). (spec/20_host_calls.md R314, R315, R316,
R317, R319, R321) -/
def Obligations.SlotsAndEntries : Prop :=
  (∀ (s : State) (fn : Nat) (f : HostFn) (r : BitVec 512), f = s.fn fn →
      r = BitVec.ofNat 512 (s.windowNat fn (64 * f.cursor) 64) →
      (∀ ready : Prop, ready = ((s.link = .pcie ∨ s.link = .cxl) ∧ s.boot = .open ∧ fn < 16 ∧
          (s.link = .pcie → ∀ j < 64, 64 * f.cursor + j ∈ f.written) ∧
          (s.link = .cxl → ∃ j < 64, 64 * f.cursor + j ∈ f.written) ∧ (r.extractLsb' 504 8).toNat = f.lap ∧
          f.cursor ∉ f.pendingEntry) →
        (¬ready → exec (.slotTake fn) s = .next s) ∧
        (ready → ∃ t u, exec (.slotTake fn) s = .next t ∧ { t with fns := s.fns, contexts := s.contexts } = s ∧
          (∀ g, g ≠ fn → t.fn g = s.fn g) ∧
          (u.slot, u.record, u.seq, u.started, u.xlate, u.call) = (f.cursor, r, f.lap, false, none, none) ∧
          u.result = (if recordFormed r then none else some (Code.rpcBad, 0#64)) ∧
          t.fn fn = { f with
            written := f.written.filter fun b => decide (b < 64 * f.cursor) || decide (64 * f.cursor + 64 ≤ b)
            taken := f.taken ++ [u], pendingEntry := f.pendingEntry ++ [f.cursor], cursor := (f.cursor + 1) % 256
            lap := if f.cursor = 255 then (if f.lap = 255 then 1 else f.lap + 1) else f.lap } ∧
          (r.getLsbD 60 = false → u.sigOp = none ∧ t.contexts = s.contexts) ∧
          ∀ x n z, r.getLsbD 60 = true → Table.get? s.contexts (r.extractLsb' 16 16).toNat = some x → x.fn = fn →
            n = (r.extractLsb' 48 12).toNat → z = (Table.get? x.timelines n).getD Timeline.zero →
            u.sigOp = some (z.accepted + 1) ∧ ∃ y, Table.get? t.contexts (r.extractLsb' 16 16).toNat = some y ∧
              Table.get? y.timelines n = some { z with accepted := z.accepted + 1 }))) ∧
    (∀ r : BitVec 512, recordFormed r = true → r.extractLsb' 10 6 = 0#6 ∧ r.extractLsb' 61 3 = 0#3 ∧
      r.extractLsb' 448 56 = 0#56 ∧ 1 ≤ (r.extractLsb' 0 8).toNat ∧ (r.extractLsb' 0 8).toNat ≤ 16 ∧
      (r.extractLsb' 16 16 = 0xFFFF#16 ↔ r.extractLsb' 0 8 = 0x01#8 ∨ r.extractLsb' 0 8 = 0x0A#8)) ∧
    ∀ (s : State) (fn slot : Nat) (u : Taken) (code : Code) (v : Dword), s.taken? fn slot = some u → u.slot = slot →
      u.result = some (code, v) → u.seq < 256 → s.savingFor fn slot = false → (s.link = .pcie ∨ s.link = .cxl) →
      (u.record.getLsbD 8 = true → (s.fn fn).before slot = []) →
      ∃ t, exec (.recordCompletion fn slot) s = .next t ∧ t.taken? fn slot = none ∧ slot ∉ (t.fn fn).pendingEntry ∧
        (∀ k, k ≠ slot → t.taken? fn k = s.taken? fn k ∧ (k ∈ (t.fn fn).pendingEntry ↔ k ∈ (s.fn fn).pendingEntry)) ∧
        (∀ g, g ≠ fn → t.fn g = s.fn g) ∧
        (∀ e : BitVec 128, e = BitVec.ofNat 128 (t.windowNat fn (0x4000 + 16 * slot) 16) →
          e.extractLsb' 0 16 = u.record.extractLsb' 32 16 ∧ e.extractLsb' 16 16 = code ∧
          (e.extractLsb' 32 8).toNat = u.seq ∧ e.extractLsb' 40 24 = 0#24 ∧ e.extractLsb' 64 64 = v) ∧
        (∀ b, b < 0x4000 + 16 * slot ∨ 0x4000 + 16 * slot + 16 ≤ b →
          t.windowNat fn b 1 = s.windowNat fn b 1) ∧
        (Table.wf (s.fn fn).workers = true → ∀ n w, Table.get? (s.fn fn).workers n = some w →
          (w.delSlot ≠ some slot → Table.get? (t.fn fn).workers n = some w) ∧
          (w.delSlot = some slot → (∀ m y, Table.get? (s.fn fn).workers m = some y → y.delSlot = some slot → m = n) →
            Table.get? (t.fn fn).workers n = none)) ∧
        t.sent = s.sent ++ (if u.record.getLsbD 9 then [.msi fn] else []) ∧
        ∀ op x n, u.sigOp = some op → Table.get? s.contexts u.ctx = some x → n = (u.record.extractLsb' 48 12).toNat →
          ∃ y, Table.get? t.contexts u.ctx = some y ∧
            Table.get? y.timelines n = some (((Table.get? x.timelines n).getD Timeline.zero).finish op)

/-- For every state and taken record that may act: CTX_NEW makes a context with the PASID and the protected flag of P0
under a free number below 4,096; CTX_END, once the context has no launch and no worker, removes it; MAP adds the pages
of its range, with new frames that read zero or the peer's, waits while its home has no room, and is refused when the
range is not of whole pages or meets a mapping; UNMAP removes the pages inside its range; LOAD installs an object that
passes every check under the next number; UNLOAD removes one that no launch runs; LAUNCH queues a launch that passes
its checks, numbered in its signal timeline. Each answers with its status and VALUE and changes nothing else. The
model's choices: the number that CTX_NEW gives (assumption log row 58), the code-signing keys (row 35), RPC_ADDR for
data that hold an error (row 38), a MAP without room and the peer's number (row 65), and what an unmapped address is
(row 15). (spec/20_host_calls.md R318, R319, R320, R366, spec/17_scheduler.md R277, R278, R279,
spec/09_code_objects.md R189, R190) -/
def Obligations.ContextRecords : Prop :=
  ∀ (s : State) (fn slot : Nat) (u : Taken) (x : Context),
    (s.Ready fn slot 0x01 u → ∃ t, exec (.ctxNew fn slot) s = .next t ∧
      (4096 ≤ s.contexts.length → s.Answers t fn slot Code.rpcBusy 0#64) ∧
      (s.contexts.length < 4096 → ∃ n y, n < 4096 ∧ Table.get? s.contexts n = none ∧
        State.Answers { s with contexts := Table.put s.contexts n y, freeIx := t.freeIx } t fn slot Code.ok
          (BitVec.ofNat 64 n) ∧
        (y.fn, y.pasid, y.prot, y.pages, y.saveCount, y.objects, y.log) =
          (fn, bitsOf (u.p 0) 19 0, decide (bitsOf (u.p 0) 20 20 = 1), [], 0, [], []))) ∧
    (s.ReadyIn fn slot 0x02 u x →
      ((∃ l ∈ s.launches, l.2.ctx = u.ctx) → ∃ t, exec (.ctxEnd fn slot) s = .next t ∧ s.RecordOnly t fn slot ∧
        ∃ r, t.taken? fn slot = some r ∧ r.result = none) ∧
      ((∀ l ∈ s.launches, l.2.ctx ≠ u.ctx) → (∀ f ∈ s.fns, ∀ w ∈ f.2.workers, w.2.ctx ≠ u.ctx) →
        (∀ q ∈ s.xlates, q.2.ctx ≠ u.ctx) → ∃ t, exec (.ctxEnd fn slot) s = .next t ∧
          State.Answers { s with
            contexts := Table.drop s.contexts u.ctx, calls := s.calls.filter (fun c => c.2.ctx ≠ u.ctx)
            clusters := t.clusters } t fn slot Code.ok 0#64 ∧
          ∀ k ∈ Table.vals t.clusters, ∀ f ∈ k.frames, f.ctx ≠ u.ctx)) ∧
    (s.ReadyIn fn slot 0x03 u x → ∀ a n size, a = u.p 0 → n = u.p 1 →
      (∀ q ∈ s.fars, q.2.stage ≠ .sent) →
      size = 2 ^ (if bitsOf (u.p 2) 1 0 = 0 then 16 else if bitsOf (u.p 2) 1 0 = 1 then 21 else 28) →
      ∃ t, exec (.map fn slot) s = .next t ∧
        (a % size ≠ 0 ∨ n % size ≠ 0 ∨ n = 0 ∨ 2 ^ 57 < a + n ∨ (∃ p ∈ x.pages, p.base < a + n ∧ a < p.base + p.size) →
          s.Answers t fn slot Code.rpcBad 0#64) ∧
        (a % size = 0 → n % size = 0 → n ≠ 0 → a + n ≤ 2 ^ 57 →
          (∀ p ∈ x.pages, a + n ≤ p.base ∨ p.base + p.size ≤ a) → ∀ home short, home = bitsOf (u.p 2) 5 4 →
          short = (home ≠ 2 ∧ (if home = 0 then 384 * 2 ^ 30 else 2 ^ 40) < n + (s.contexts.map fun c =>
            ((c.2.pages.filter fun p => p.home = home).map (·.size)).sum).sum) →
          (short → s.RecordOnly t fn slot ∧ ∃ r, t.taken? fn slot = some r ∧ r.result = none) ∧
          (¬short → ∃ ps, ps.length = n / size ∧ (∀ e ∈ (Table.get? t.tlb x.pasid).getD [], e.1 * 65536 < a ∨ a + n ≤ e.1 * 65536) ∧
          (∀ b, Mem.read t.devMem b = if home ≠ 2 ∧ s.nextFrame ≤ b ∧ b < s.nextFrame + n then 0#8
            else Mem.read s.devMem b) ∧
          State.Answers { s with
            tlb := t.tlb, devMem := t.devMem, mainPoison := t.mainPoison
            contexts := Table.adjust s.contexts u.ctx fun x => { x with
              pages := x.pages ++ ps
              gone := x.gone.filter fun g => !ps.any fun p => decide (p.base ≤ g.1) && decide (g.1 + g.2 ≤ p.base + p.size) }
            nextFrame := if bitsOf (u.p 2) 5 4 = 2 then s.nextFrame else s.nextFrame + n } t fn slot Code.ok 0#64 ∧
          ∀ j < n / size, ps[j]? = some
            { base := a + j * size, size := size, writable := decide (bitsOf (u.p 2) 2 2 = 1)
              hostVisible := decide (bitsOf (u.p 2) 3 3 = 1), home := bitsOf (u.p 2) 5 4, peer := u.p 3
              frame := (if bitsOf (u.p 2) 5 4 = 2 then u.p 4 else s.nextFrame) + j * size }))) ∧
    (s.ReadyIn fn slot 0x04 u x → ∀ a n, a = u.p 0 → n = u.p 1 → (∀ q ∈ s.fars, q.2.stage ≠ .sent) →
      ∃ t, exec (.unmap fn slot) s = .next t ∧
        (a % 65536 ≠ 0 ∨ n % 65536 ≠ 0 ∨ n = 0 ∨ (∃ p ∈ x.pages, p.base < a + n ∧ a < p.base + p.size ∧
            ¬(a ≤ p.base ∧ p.base + p.size ≤ a + n)) → s.Answers t fn slot Code.rpcBad 0#64) ∧
        (a % 65536 = 0 → n % 65536 = 0 → n ≠ 0 → (∀ p ∈ x.pages, p.base < a + n → a < p.base + p.size →
            a ≤ p.base ∧ p.base + p.size ≤ a + n) →
          (2 ^ 57 ≤ a → s.Answers t fn slot Code.rpcAddr 0#64) ∧
          (a < 2 ^ 57 → State.Answers { s with contexts := Table.adjust s.contexts u.ctx fun x => { x with
              pages := x.pages.filter fun p => !(decide (a ≤ p.base) && decide (p.base + p.size ≤ a + n))
              gone := x.gone ++ ((x.pages.filter fun p => decide (a ≤ p.base) && decide (p.base + p.size ≤ a + n)).map
                fun p => (p.base, p.size)) } }
            t fn slot Code.ok 0#64))) ∧
    (s.ReadyIn fn slot 0x05 u x → u.call = none → u.p 0 + u.p 1 ≤ 2 ^ 57 → u.p 0 < 2 ^ 57 →
      s.mainFault u.ctx (u.p 0) (u.p 1) false = none → s.mainPoisoned u.ctx (u.p 0) (u.p 1) = false →
      rowAssisted (s.dutyRow u.ctx 1) = false → ∃ t, exec (.load fn slot) s = .next t ∧
        match loadObject (u.p 0) (s.readMain u.ctx (u.p 0) (u.p 1)) x.signKeys with
        | .error c => State.Answers { s with tlb := t.tlb } t fn slot c 0#64
        | .ok o => State.Answers { s with
              tlb := t.tlb
              contexts := Table.adjust s.contexts u.ctx fun x =>
                { x with objects := Table.put x.objects x.nextObj o, nextObj := x.nextObj + 1 } }
            t fn slot Code.ok (BitVec.ofNat 64 x.nextObj)) ∧
    (s.ReadyIn fn slot 0x06 u x → ∃ t, exec (.unload fn slot) s = .next t ∧
      (Table.get? x.objects (u.p 0) = none → s.Answers t fn slot Code.rpcBad 0#64) ∧
      (Table.get? x.objects (u.p 0) ≠ none →
        ((∃ l ∈ s.launches, l.2.ctx = u.ctx ∧ l.2.record.code = u.p 0) → s.Answers t fn slot Code.rpcBusy 0#64) ∧
        ((∀ l ∈ s.launches, l.2.ctx = u.ctx → l.2.record.code ≠ u.p 0 ∧ ∀ n ∈ l.2.nodes, n.template.code ≠ u.p 0) →
          State.Answers { s with
            contexts := Table.adjust s.contexts u.ctx fun x => { x with objects := Table.drop x.objects (u.p 0) }
            clusters := t.clusters } t fn slot Code.ok 0#64))) ∧
    (s.ReadyIn fn slot 0x07 u x → (∀ l ∈ s.launches, ¬(l.2.fn = fn ∧ l.2.slot = slot)) →
      ((∃ l ∈ s.launches, l.2.ctx = u.ctx ∧ l.2.srLaunch.toNat = (u.record.extractLsb' 32 16).toNat) →
        ∃ t, exec (.launch fn slot) s = .next t ∧ s.Answers t fn slot Code.rpcBusy 0#64) ∧
      ((∀ l ∈ s.launches, l.2.ctx = u.ctx → l.2.srLaunch.toNat ≠ (u.record.extractLsb' 32 16).toNat) →
        u.p 0 + 256 ≤ 2 ^ 57 → s.mainFault u.ctx (u.p 0) 256 false = none → s.mainPoisoned u.ctx (u.p 0) 256 = false →
        ∀ r e, r = leNat (s.readMain u.ctx (u.p 0) 256) → ∃ t, exec (.launch fn slot) s = .next t ∧
          (∀ b, s.launchBad u.ctx r = some b →
            State.Answers { s with tlb := t.tlb } t fn slot Code.launchBad (BitVec.ofNat 64 b)) ∧
          (s.launchBad u.ctx r = none → s.launchEntry u.ctx (parseLaunch r) = some e → ∀ fits : Bool,
            fits = s.fits (parseLaunch r) e →
            (fits = false → State.Answers { s with tlb := t.tlb } t fn slot Code.launchFit 0#64) ∧
            (fits = true → ∃ l y, State.RecordOnly { s with
                  tlb := t.tlb, launches := Table.put s.launches s.nextId l, nextId := s.nextId + 1
                  contexts := t.contexts } t fn slot ∧ Table.get? t.contexts u.ctx = some y ∧
              (l.ctx, l.fn, l.slot, l.srLaunch, l.record, l.queue, l.started, l.killed, l.cut, l.win0, l.win1) =
                (u.ctx, fn, slot, (u.record.extractLsb' 32 16).setWidth 64, parseLaunch r, u.p 1, 0, none, false, none,
                  none) ∧
              y = { x with
                timelines := y.timelines
                queues := Table.put x.queues (u.p 1) ((Table.get? x.queues (u.p 1)).getD [] ++ [s.nextId]) } ∧
              match (parseLaunch r).signal with
              | none => l.sigOp = none ∧ y.timelines = x.timelines
              | some n => ∀ z, z = (Table.get? x.timelines n).getD Timeline.zero → l.sigOp = some (z.accepted + 1) ∧
                  y.timelines = Table.put x.timelines n { z with accepted := z.accepted + 1 }))))

/-- For every state and taken record that may act: QWEIGHT sets the weight of a queue; DUTY writes a row of the
context, or is refused with DUTY_BAD; QUANTUM writes a row of a function, from function 0 only, or is refused with
SLICE_BAD; TL_WAIT answers once the counter has reached its value and waits until then; TL_READ answers with the
counter; WORKER_ADD registers an idle worker under the lowest free number of the function, and is busy at 64;
WORKER_DEL of an idle worker answers at once, of a busy one it waits for its call, and of another context's, or none,
it answers RPC_BAD. A record that names a context of another function answers RPC_BAD. Nothing else changes. SLICE_BAD
for a record of another function (assumption log row 57) and where a call pail may lie (row 74) are the model's
choices. (spec/20_host_calls.md R318, R319, R321, R329, spec/01_engines.md R20, R21, spec/18_contexts.md R297,
spec/17_scheduler.md R281) -/
def Obligations.FunctionRecords : Prop :=
  ∀ (s : State) (fn slot : Nat) (u : Taken) (x : Context),
    (∀ i op, (i, op) ∈ [(Instr.ctxEnd fn slot, 0x02), (.map fn slot, 0x03), (.unmap fn slot, 0x04), (.load fn slot, 0x05),
        (.unload fn slot, 0x06), (.launch fn slot, 0x07), (.qweight fn slot, 0x08), (.duty fn slot, 0x09),
        (.save fn slot, 0x0B), (.restore fn slot, 0x0C), (.tlWaitRecord fn slot, 0x0D), (.tlRead fn slot, 0x0E),
        (.workerAdd fn slot, 0x0F), (.workerDel fn slot, 0x10)] → s.Ready fn slot op u →
      (∀ y, Table.get? s.contexts u.ctx = some y → y.fn ≠ fn) →
      ∃ t, exec i s = .next t ∧ s.Answers t fn slot Code.rpcBad 0#64) ∧
    (s.ReadyIn fn slot 0x08 u x → ∃ t, exec (.qweight fn slot) s = .next t ∧
      State.Answers { s with contexts := Table.adjust s.contexts u.ctx fun x =>
          { x with weights := Sparse.set 1 x.weights (bitsOf (u.p 0) 5 0) (bitsOf (u.p 0) 11 8) } } t fn slot Code.ok 0#64) ∧
    (s.ReadyIn fn slot 0x09 u x → ∀ v : Dword, v = BitVec.ofNat 64 (u.p 1) →
      (∀ bad : Prop, bad = (v.extractLsb' 2 2 ≠ 0#2 ∨ v.extractLsb' 8 8 ≠ 0#8 ∨ v.extractLsb' 32 32 ≠ 0#32 ∨
          (u.p 0 = 7 ∧ v.getLsbD 0 = true) ∨ (u.p 0 = 3 ∧ v.getLsbD 1 = true) ∨
          ((u.p 0 = 1 ∨ u.p 0 = 6) ∧ v.getLsbD 0 = true ∧ s.workersOf u.ctx (v.extractLsb' 4 4).toNat true = [])) →
        ∃ t, exec (.duty fn slot) s = .next t ∧ (bad → s.Answers t fn slot Code.dutyBad 0#64) ∧
          (¬bad → State.Answers { s with contexts := Table.adjust s.contexts u.ctx fun x =>
            { x with duty := Sparse.set 0#64 x.duty (u.p 0) v } } t fn slot Code.ok 0#64))) ∧
    (s.Ready fn slot 0x0A u → ∀ v : Dword, v = BitVec.ofNat 64 (u.p 1) →
      (∀ bad : Prop, bad = (fn ≠ 0 ∨ v.extractLsb' 1 7 ≠ 0#7 ∨ v.extractLsb' 28 4 ≠ 0#4 ∨ v.extractLsb' 48 16 ≠ 0#16 ∨
          (v.getLsbD 0 = true ∧ ((v.extractLsb' 8 20).toNat < 100 ∨ 1000000 < (v.extractLsb' 8 20).toNat))) →
        ∃ t, exec (.quantum fn slot) s = .next t ∧ (bad → s.Answers t fn slot Code.sliceBad 0#64) ∧
          (¬bad → (t.fn (u.p 0)).quantum = v ∧ (∀ g, g ≠ u.p 0 → (t.fn g).quantum = (s.fn g).quantum) ∧
            { t with fns := s.fns } = s ∧ ∃ r, t.taken? fn slot = some r ∧ r.result = some (Code.ok, 0#64)))) ∧
    (s.ReadyIn fn slot 0x0D u x → ∃ t, exec (.tlWaitRecord fn slot) s = .next t ∧
      if u.p 1 ≤ ((Table.get? x.timelines (u.p 0)).getD Timeline.zero).counter then s.Answers t fn slot Code.ok 0#64
      else s.RecordOnly t fn slot ∧ ∃ r, t.taken? fn slot = some r ∧ r.result = none) ∧
    (s.ReadyIn fn slot 0x0E u x → ∃ t, exec (.tlRead fn slot) s = .next t ∧ s.Answers t fn slot Code.ok
      (BitVec.ofNat 64 ((Table.get? x.timelines (u.p 0)).getD Timeline.zero).counter)) ∧
    (s.ReadyIn fn slot 0x0F u x →
      ((∀ n < 64, Table.get? (s.fn fn).workers n ≠ none) → ∃ t, exec (.workerAdd fn slot) s = .next t ∧
        s.Answers t fn slot Code.rpcBusy 0#64) ∧
      (∀ n, n < 64 → Table.get? (s.fn fn).workers n = none → (∀ m < n, Table.get? (s.fn fn).workers m ≠ none) →
        ∀ w core, ((bitsOf (u.p 0) 4 4 = 1 ∧ u.p 2 < 2 ^ 57 ∧ core = some (bitsOf (u.p 0) 12 8) ∧
            (w.pail, w.tableAddr, w.tableLen) = (0, u.p 2, u.p 3)) ∨
          (bitsOf (u.p 0) 4 4 = 0 ∧ u.p 1 + 128 ≤ 2 ^ 57 ∧ s.mainFault u.ctx (u.p 1) 128 true = none ∧
            s.hostHomed u.ctx (u.p 1) = true ∧ core = none ∧ (w.pail, w.tableAddr, w.tableLen) = (u.p 1, 0, 0))) →
        (w.ctx, w.cls, w.core, w.callPh, w.replyPh, w.call, w.deleting, w.delSlot) =
          (u.ctx, bitsOf (u.p 0) 3 0, core, false, false, none, false, none) →
        ∃ t r, exec (.workerAdd fn slot) s = .next t ∧ { t with fns := s.fns, tlb := s.tlb } = s ∧
          t.taken? fn slot = some r ∧ r.result = some (Code.ok, BitVec.ofNat 64 n) ∧
          Table.get? (t.fn fn).workers n = some w ∧
          ∀ m, m ≠ n → Table.get? (t.fn fn).workers m = Table.get? (s.fn fn).workers m)) ∧
    (s.ReadyIn fn slot 0x10 u x →
      ((∀ w, Table.get? (s.fn fn).workers (u.p 0) = some w → w.ctx ≠ u.ctx) → ∃ t, exec (.workerDel fn slot) s = .next t ∧
        s.Answers t fn slot Code.rpcBad 0#64) ∧
      ∀ w, Table.get? (s.fn fn).workers (u.p 0) = some w → w.ctx = u.ctx → w.deleting = false →
        (∀ id c, w.call = some id → Table.get? s.calls id = some c → c.outcome = none) →
        ∃ t r, exec (.workerDel fn slot) s = .next t ∧ t.taken? fn slot = some r ∧
          (w.call = none → r.result = some (Code.ok, 0#64)) ∧ (w.call ≠ none → r.result = none) ∧
          Table.get? (t.fn fn).workers (u.p 0) = some { w with deleting := true, delSlot := some slot } ∧
          ∀ m, m ≠ u.p 0 → Table.get? (t.fn fn).workers m = Table.get? (s.fn fn).workers m)

/-- For every state: the next crew of a launch starts at a place exactly when the launch is ready or still has early-
start quota, no launch of higher priority is a candidate and its queue has the turn (or the launch is cooperative or a
gang and has started a part of its crews), the place has the room and no power-gated cluster, no other cooperative or
gang launch has started only a part of its crews, the rest of a cooperative or gang launch fits with it, and nothing
of the function is being saved for a slice: the crew becomes resident as R103 gives it, early when the launch is not
ready, the launch has its window and one crew more, the turn counts it, and the queue moves on once every crew has
started and the launch is ready; otherwise nothing starts. A node starts a successor crew with COAL records, or at its
flush time with all that are pending: the crew has QOFF and B in g14 and g15, PEND falls by B, LAUNCHED grows by one,
and FIRST becomes the tick of the oldest emit that is left. The rounds per C-die and priority, the start of a
cooperative launch, the division of room, the free rotating region and the successor's sr.launch and code are the
model's choices (assumption log rows 30, 34, 56, 61, 62 and 68). For every state: a launch completes exactly when
every crew of it has started or none further may, no crew or successor crew of it is resident or saved, its collective
operations have ended, and no node of it that can be read has pending records (a node with an uncorrectable error
counts as none, the model's choice: assumption log row 83): its LAUNCH record takes the code of its first kill, or
success, with sr.launch as VALUE, the launch leaves the device and every queue, and the operation of its signal
timeline completes; otherwise nothing changes. (spec/17_scheduler.md R281, R282, R283, R284, R295,
spec/06_threads_and_bundles.md R103, spec/17_scheduler.md R279, R295, R277) -/
def Obligations.CrewsAndLaunches : Prop :=
  (
  (∀ (s : State) (lid die cluster : Nat) (homes : List Nat) (l : Launch) (x : Context),
      Table.get? s.launches lid = some l → Table.get? s.contexts l.ctx = some x →
      (¬(s.launchReady l = true ∨ (l.record.kind = 0 ∧ l.started < l.record.early)) →
        exec (.crewStart lid die cluster none homes) s = .next s) ∧
      (l.partStarted = false → ∀ h ∈ s.heads l.ctx, s.candidate h.2.2 die = true → l.record.prio < h.2.2.record.prio →
        exec (.crewStart lid die cluster none homes) s = .next s) ∧
      ∀ e cr turn, s.crewAt lid l l.record l.started die cluster homes = some (e, cr) → turn = x.turnAt die l.record.prio →
        ∀ permitted : Prop, permitted = (s.inSlice l.ctx = true ∧
          (s.hasTurn lid l die = true ∨ (l.partStarted = true ∧ s.candidate l die = true)) ∧
          homesOk l.record.pair homes = true ∧ s.roomFor cr (l.newWindow die e) = true ∧
          (∀ k ∈ cr.clusters, (s.cluster die k).gated = false) ∧
          (∀ o ∈ s.launches, o.1 ≠ lid → o.2.partStarted = true → s.slicing = true ∧ s.slice ≠ some (s.fnOf o.2.ctx)) ∧
          (l.record.kind ≠ 0 → (s.placeNext lid l e cr).restFits lid = true) ∧
          (∀ c ∈ s.crews, s.fnOf c.2.ctx = s.fnOf l.ctx → c.2.saving ≠ some .slice)) →
        (¬permitted → exec (.crewStart lid die cluster none homes) s = .next s) ∧
        (permitted →
          ∃ t y, exec (.crewStart lid die cluster none homes) s = .next t ∧
            { t with contexts := s.contexts, gangs := s.gangs, sent := s.sent } = { s with
              crews := Table.put s.crews s.nextId { cr with early := !s.launchReady l }
              nextId := s.nextId + 1
              launches := Table.adjust s.launches lid fun l =>
                { l.openWindow die e.dieLaunch with started := l.started + 1 } } ∧
            (l.record.kind ≠ 2 → t.gangs = s.gangs ∧ t.sent = s.sent) ∧
            (l.record.kind = 2 →
              t.sent = s.sent ++ (if l.started + 1 = l.record.ncrew then [.gangAck l.record.gang] else [])) ∧
            Table.get? t.contexts l.ctx = some y ∧ { y with queues := x.queues, turns := x.turns } = x ∧
            (lid ∈ (Table.get? y.queues l.queue).getD [] ↔ lid ∈ (Table.get? x.queues l.queue).getD [] ∧
              ¬(l.started + 1 = l.record.ncrew ∧ s.launchReady l = true)) ∧
            y.turnAt die l.record.prio = (l.queue,
              (if turn.1 = l.queue ∧ 0 < turn.2 then turn.2 else Sparse.get 1 x.weights l.queue) - 1))) ∧
    (∀ (r : LaunchRecord) (e : Entry) (lid ctx : Nat) (sl : Dword) (rot : Option (Nat × Nat)) (index die cluster : Nat)
        (homes : List Nat) (now : Nat) (cr : Crew),
      cr = Crew.start r e lid ctx sl rot index die cluster homes now →
      (cr.launch, cr.ctx, cr.srLaunch, cr.index, cr.die, cr.cluster, cr.barGen, cr.tumblers, cr.shared) =
        (lid, ctx, sl, index, die, cluster, 0#32, [], []) ∧
      cr.threads.map (·.1) = List.range ((e.roleList r.nthread).map (·.2)).sum ∧
      (∀ u ∈ cr.threads, (u.2.pc, u.2.regs, u.2.preds, u.2.rb, u.2.sp, u.2.tagCount, u.2.ended, u.2.wait) =
          (BitVec.ofNat 32 e.entry, [], 0#7, 0, 0#32, [], false, none) ∧
        (∀ k < 4, u.2.ix k = { base := 0, len := 0, cur := 0 }) ∧
        (u.2.region.head, u.2.region.nlive, u.2.region.lset, u.2.region.pred, u.2.region.rb, u.2.region.sp) =
          (BitVec.ofNat 32 e.entry, 0, 0xFFFF, 0#7, 0, 0#32)) ∧
      ∀ ro ∈ cr.roles, ∀ g, ro.uread g = if g < 16 then r.args.getD g 0#64 else 0#64) ∧
    ∀ (s : State) (lid die off cluster : Nat) (homes : List Nat) (l : Launch) (n : GraphNode) (v : NodeView),
      Table.get? s.launches lid = some l → l.nodeAt die off = some (n, v) →
      ∀ due : Prop, due = (0 < v.pend ∧ (v.first + v.flush ≤ s.tick ∨ s.emitters lid l = false)) →
      (v.pend < v.coal → exec (.crewStart lid die cluster (some off) homes) s = .next s) ∧
      (¬due → exec (.nodeFlushTimer lid die off cluster homes) s = .next s) ∧
      ∀ i b e cr, (i = .crewStart lid die cluster (some off) homes ∧ v.coal ≤ v.pend ∧ 0 < v.coal ∧ b = v.coal) ∨
          (i = .nodeFlushTimer lid die off cluster homes ∧ due ∧ b = v.pend) →
        s.crewAt lid l (successorRecord n.template v.qoff b) v.launched die cluster homes = some (e, cr) →
        s.inSlice l.ctx = true → s.sliceStands l.ctx = true → s.windowSaved cr = false →
        (∀ k ∈ n.ticks, k < 2 ^ 64) → homesOk n.template.pair homes = true → s.roomFor cr 0 = true → l.cut = false →
        (∀ k ∈ cr.clusters, (s.cluster die k).gated = false) → s.partStarted none = false →
        v.launched + 1 < 2 ^ 32 → n.template.args.length = 16 →
        (∀ ro ∈ cr.roles, ro.uread 14 = BitVec.ofNat 64 v.qoff ∧ ro.uread 15 = BitVec.ofNat 64 b) ∧
        cr.index = v.launched ∧
        ∃ t l', exec i s = .next t ∧
          { t with launches := s.launches } = { s with
            crews := Table.put s.crews s.nextId { cr with node := some off }, nextId := s.nextId + 1 } ∧
          (∀ k, k ≠ lid → Table.get? t.launches k = Table.get? s.launches k) ∧ Table.get? t.launches lid = some l' ∧
          { l' with win0 := l.win0, win1 := l.win1, nodes := l.nodes } = l ∧
          l'.nodeAt die off = some ({ n with ticks := n.ticks.drop b }, { v with
            pend := v.pend - b, launched := v.launched + 1, first := (n.ticks.drop b).headD v.first }) ∧
          (∀ z, (z.die ≠ die ∨ z.off ≠ off) → (z ∈ l'.nodes ↔ z ∈ l.nodes)) ∧
          (die ≠ 0 → l'.win0 = l.win0) ∧ (die = 0 → l'.win1 = l.win1) ∧
          ∀ a, (a < inWindow off ∨ inWindow off + 64 ≤ a) →
            Mem.read (l'.win die).bytes a = Mem.read (l.win die).bytes a) ∧ (
  ∀ (s : State) (lid : Nat) (l : Launch) (x : Context), Table.get? s.launches lid = some l →
    Table.get? s.contexts l.ctx = some x →
    ∀ gone : Prop, gone = ((l.cut = true ∨ l.started = l.record.ncrew) ∧ (∀ c ∈ s.crews, c.2.launch ≠ lid) ∧
        (∀ v ∈ x.saved, v.launch ≠ lid) ∧
        (∀ o ∈ s.colops, o.2.launch = lid → o.2.closed = true) ∧
        (l.cut = true ∨ ∀ n ∈ l.nodes, l.nodePoisoned n = false → (viewNode (leNat (l.readWin n.die n.off 64))).pend = 0)) →
      (¬gone → exec (.launchComplete lid) s = .next s) ∧
      (gone → l.hashRecord = none → ∃ t y, exec (.launchComplete lid) s = .next t ∧
        { t with fns := s.fns, contexts := s.contexts, gangs := s.gangs } = { s with
          launches := Table.drop s.launches lid, colops := s.colops.filter fun o => o.2.launch ≠ lid } ∧
        (∀ u, s.taken? l.fn l.slot = some u → u.result = none → t.taken? l.fn l.slot = some { u with
          result := some (match l.killed with | some k => k.1 | none => Code.ok, l.srLaunch), xlate := none
          call := none }) ∧
        (∀ f k, ¬(f = l.fn ∧ k = l.slot) → t.taken? f k = s.taken? f k) ∧
        (∀ f, { t.fn f with taken := (s.fn f).taken } = s.fn f) ∧
        Table.get? t.contexts l.ctx = some y ∧ { y with queues := x.queues, timelines := x.timelines } = x ∧
        (∀ q, lid ∉ (Table.get? y.queues q).getD []) ∧
        match l.record.signal, l.sigOp with
        | some n, some op => Table.get? y.timelines n = some (((Table.get? x.timelines n).getD Timeline.zero).finish op) ∧
            ∀ m, m ≠ n → Table.get? y.timelines m = Table.get? x.timelines m
        | _, _ => y.timelines = x.timelines))

/-- For every state: while nothing is sliced there is no slice; a slice that has expired, is not still being restored
and has no cooperative launch with a part of its crews to start (R283), begins again when no other function has work,
saves every crew of its function as one operation, and gives way to the next function once none is resident. SAVE of a
crew that is not resident, or is being saved, is busy; otherwise the save begins: C grows by one, no bundle of the
crew issues again, and every thread restarts at its region head. A save whose drain goes on waits; then the system
threads of its clusters freeze its units one after another and, once idle, drain them into the save area and thaw them
(a busy one stays frozen until it is idle), and the save records SAVED_AT, the C that it took, and the live threads,
frees the crew, and writes the image at the address of its record with its length as VALUE, or keeps it for a slice or
an eviction; an image beyond P3 gives RPC_SPACE, and the crew goes on with every thread restarted. How the drain of
units is run (assumption log row 52), when a slice gives way (rows 61, 63) and what of the drain is one step are the
model's choices. At the DRAIN limit every copy and every element of the drain ends, an element with CTX_DRAIN under
its tag. The header of an image is that of Table 18.3. (spec/18_contexts.md R298, R299, R300, R301, R304, R365,
spec/20_host_calls.md R319) -/
def Obligations.SavesAndSlices : Prop :=
  (∀ s : State, (s.slicing = false → exec .sliceExpiry s = .next { s with slice := none }) ∧
      (s.slicing = true → s.slice = none → exec .sliceExpiry s = .next (match s.nextFn 15 with
        | some g => { s with slice := some g, sliceStart := s.now, sliceSaving := false }
        | none => s)) ∧
      ∀ f g, s.slicing = true → s.slice = some f → s.nextFn f = some g → ∀ expired restoring : Prop,
        expired = (s.sliced f = false ∨ s.hasWork f = false ∨ s.sliceStart + s.sliceCycles f ≤ s.now) →
        restoring = (s.sliceSaving = false ∧ ∃ x ∈ s.contexts, x.2.fn = f ∧ ∃ v ∈ x.2.saved, v.slice = true) →
        (¬expired ∨ restoring ∨ s.partStarted none = true → exec .sliceExpiry s = .next s) ∧
        (s.partStarted none = false → expired → ¬restoring → g = f → exec .sliceExpiry s = .next { s with sliceStart := s.now }) ∧
        (s.partStarted none = false → expired → ¬restoring → g ≠ f → s.sliceCrews f = [] →
          exec .sliceExpiry s = .next { s with slice := some g, sliceStart := s.now, sliceSaving := false }) ∧
        (s.partStarted none = false → expired → ¬restoring → g ≠ f → Table.wf s.crews = true → (∃ e ∈ s.sliceCrews f, e.2.saving = none) →
          ∃ t, exec .sliceExpiry s = .next t ∧ t.slice = some f ∧ t.sliceSaving = true ∧
            (∀ e ∈ s.sliceCrews f, e.2.saving = none → ∃ cr, t.crew? e.1 = some cr ∧ cr.saving = some .slice ∧
              cr.stopped = true ∧ ∀ y, Table.get? t.contexts e.2.ctx = some y → cr.saveC = y.saveCount) ∧
            ∀ k x, Table.get? s.contexts k = some x → ∃ y, Table.get? t.contexts k = some y ∧
              ((∃ e ∈ s.sliceCrews f, e.2.saving = none ∧ e.2.ctx = k) → y.saveCount = x.saveCount + 1) ∧
              ((∀ e ∈ s.sliceCrews f, e.2.saving = none → e.2.ctx ≠ k) → y.saveCount = x.saveCount))) ∧
    (∀ (s : State) (fn slot : Nat) (u : Taken) (x : Context) (lid : Nat) (l : Launch), s.ReadyIn fn slot 0x0B u x →
      s.launchOf u.ctx (u.p 0) = some (lid, l) → u.p 1 < l.record.ncrew →
      (∀ c ∈ s.crews, c.2.saving ≠ some (.record fn slot)) →
      (s.crewOf lid (u.p 1) = none ∨ (∃ c cr, s.crewOf lid (u.p 1) = some (c, cr) ∧ cr.saving ≠ none) →
        ∃ t, exec (.save fn slot) s = .next t ∧ s.Answers t fn slot Code.ctxBusy 0#64) ∧
      ∀ c cr, s.crewOf lid (u.p 1) = some (c, cr) → s.crew? c = some cr → cr.saving = none → cr.consumed = none →
        cr.ctx = u.ctx → u.p 2 < 2 ^ 57 → u.p 2 + u.p 3 ≤ 2 ^ 57 → s.mainFault u.ctx (u.p 2) (u.p 3) true = none →
        ∃ t cr' y r, exec (.save fn slot) s = .next t ∧ t.crew? c = some cr' ∧
          (cr'.saving, cr'.stopped, cr'.drainStart, cr'.saveC) = (some (.record fn slot), true, s.now, x.saveCount + 1) ∧
          Table.get? t.contexts u.ctx = some y ∧ y.saveCount = x.saveCount + 1 ∧
          t.taken? fn slot = some r ∧ r.result = none ∧
          ((∀ v ∈ cr.threads, v.2.slotPoison = []) → ∀ tid th, Table.get? cr.threads tid = some th → th.ended = false →
            (∀ r, th.wait ≠ some (.far r)) → (∀ k, th.wait ≠ some (.pull k)) →
            ∃ th', Table.get? cr'.threads tid = some th' ∧
              th' = { th.restart (s.liveSet cr th.region.lset) with wait := th'.wait } ∧
              ((∀ q, th.wait ≠ some (.others q)) → th'.wait = none))) ∧
    (∀ (s : State) (c : Nat) (cr : Crew) (x : Context) (k : SaveKind), s.crew? c = some cr → cr.killed = false →
      cr.consumed = none → cr.saving = some k → Table.get? s.contexts cr.ctx = some x → x.prot = false →
      cr.stacksSettled = true → cr.formed = none → (k = .slice → s.formingBeside c cr = false) →
      cr.system = [] → cr.areaUnits = [] → cr.saveArea = DieWindow.empty → (∀ y ∈ cr.threads, y.1 < 2048) →
      (∀ ku ∈ s.usedUnits c cr, (s.unit cr.die ku.1 ku.2).Drainable) →
      (s.quiet c = false → exec (.saveDrainComplete c) s = .next s) ∧
      (s.quiet c = true → ∀ e, e = s.runHandlers c cr → ∃ cr', e.crew? c = some cr' ∧
        { cr' with system := cr.system, areaUnits := cr.areaUnits, saveArea := cr.saveArea } = cr ∧
        { e with clusters := s.clusters, crews := s.crews, nextSeq := s.nextSeq } = s ∧
        (∀ d, d ≠ c → e.crew? d = s.crew? d) ∧
        (∀ ku ∈ cr.units, ku ∉ s.usedUnits c cr → e.unit cr.die ku.1 ku.2 = s.unit cr.die ku.1 ku.2) ∧
        (∀ ku ∈ s.usedUnits c cr, (∀ y ∈ s.usedUnits c cr, y.1 = ku.1 → y.2 < ku.2 → (s.unit cr.die y.1 y.2).queue = []) →
          if (s.unit cr.die ku.1 ku.2).queue = [] then (e.unit cr.die ku.1 ku.2).frozen = false ∧
            (∀ l ∈ (e.unit cr.die ku.1 ku.2).leases, l.2.crew ≠ c) ∧ ∀ r ∈ (e.unit cr.die ku.1 ku.2).reservations, r.2.crew ≠ c
          else e.unit cr.die ku.1 ku.2 = { s.unit cr.die ku.1 ku.2 with frozen := true }) ∧
        (e.usedUnits c cr = [] ↔ ∀ ku ∈ s.usedUnits c cr, (s.unit cr.die ku.1 ku.2).queue = []) ∧
        (e.usedUnits c cr ≠ [] → exec (.saveDrainComplete c) s = .next e) ∧
        (e.usedUnits c cr = [] → cr'.system = [] ∧
          ∀ whole bs f, whole = (decide (k = .slice) && s.lastOnDie c cr) →
          bs = e.imageOf cr' whole false (x.key.getD 0#256) cr.saveC →
          f = ({ whole := whole, bytes := bs, sealed := true } : SaveImage) →
          ∃ t v, exec (.saveDrainComplete c) s = .next t ∧
          (v.id, v.launch, v.index, v.savedAt, v.live, v.crew) =
            (c, cr.launch, cr.index, cr.saveC, cr.liveThreads.map (·.1), { cr' with formed := some f }) ∧
          match k with
          | .record fn slot => ∀ u, s.taken? fn slot = some u → u.result = none → u.xlate = none →
            (u.p 3 < bs.length → ∀ w, ((e.modCrew c fun y => { y with formed := some f }).recordResult fn slot Code.rpcSpace
                0#64).fillBack c { cr' with formed := some f } = some w →
              t = cr.liveThreads.foldl (fun s y => s.restartThread c y.1) (w.modCrew c fun y =>
                { y with
                  saving := none, stopped := false, inh := [], saveArea := DieWindow.empty, areaUnits := [], formed := none
                  kickNamed := false })) ∧
            (bs.length ≤ u.p 3 → s.mainFault cr.ctx (u.p 2) bs.length true = none → v.image = none ∧ v.slice = false ∧
              State.Answers { e.writeMain cr.ctx (u.p 2) bs with
                tlb := t.tlb, crews := Table.drop e.crews c, clusters := t.clusters
                contexts := Table.adjust s.contexts cr.ctx fun x => { x with saved := x.saved ++ [v] } } t fn slot Code.ok
                  (BitVec.ofNat 64 bs.length))
          | _ => v.image = some bs ∧ (v.slice = true ↔ k = .slice) ∧ t = { e with
              crews := Table.drop e.crews c, clusters := t.clusters
              contexts := Table.adjust s.contexts cr.ctx fun x => { x with saved := x.saved ++ [v] } }))) ∧
    (∀ (s : State) (c : Nat) (cr : Crew), s.crew? c = some cr →
      ((cr.saving = none ∧ cr.consumed = none) ∨ cr.killed = true ∨ s.now < cr.drainStart + s.drainLimit (s.fnOf cr.ctx) * 1050 →
        exec (.drainLimitExpiry c) s = .next s) ∧
      (cr.saving ≠ none ∨ cr.consumed ≠ none → cr.killed = false → cr.drainStart + s.drainLimit (s.fnOf cr.ctx) * 1050 ≤ s.now →
        Table.wf s.copies = true → Table.wf s.elems = true → ∃ t, exec (.drainLimitExpiry c) s = .next t ∧
          (∀ e, e ∈ t.copies ↔ e ∈ s.copies ∧ e.2.crew ≠ c ∧ c ∉ e.2.dests) ∧
          (∀ e, e ∈ t.elems ↔ e ∈ s.elems ∧ e.2.crew ≠ c) ∧
          (s.copiesOf c = [] →
            (∀ y ∈ cr.threads, y.2.wait.bind Wait.line? = none ∧ ∀ e ∈ y.2.fifo, e.space ≠ .die) → ∀ tid th, Table.get? cr.threads tid = some th →
            ∃ th', t.thread? c tid = some th' ∧ ∀ tag,
              ((∀ e ∈ s.elems, ¬(e.2.crew = c ∧ e.2.tid = tid ∧ e.2.tag = tag)) →
                Table.get? th'.tagErr tag = Table.get? th.tagErr tag) ∧
              ((∃ e ∈ s.elems, e.2.crew = c ∧ e.2.tid = tid ∧ e.2.tag = tag) →
                Table.get? th.tagErr tag = none → ∃ a, Table.get? th'.tagErr tag = some { code := Code.ctxDrain, addr := a }) ∧
              (∀ q, Table.get? th.tagErr tag = some q → Table.get? th'.tagErr tag = some q)))) ∧
    ∀ (s : State) (cr : Crew) (whole : Bool) (key : BitVec 256) (counter : Nat) (bs : List Byte) (h : Nat),
      bs = s.imageOf cr whole false key counter → h = leNat (bs.take 64) → counter < 2 ^ 64 → cr.ctx < 2 ^ 32 →
      cr.index < 2 ^ 32 → bs.length < 2 ^ 64 →
      (bitsOf h 31 0, bitsOf h 47 32, bitsOf h 48 48, bitsOf h 49 49, bitsOf h 63 50, bitsOf h 127 64, bitsOf h 159 128) =
        (0x43584D49, 1, 0, if whole then 1 else 0, 0, counter, cr.ctx) ∧
      (bitsOf h 223 160, bitsOf h 255 224, bitsOf h 383 320, bitsOf h 511 384) =
        (cr.srLaunch.toNat, cr.index, bs.length, 0)

/-- For every state and RESTORE record that may act, of an unsealed image in readable memory: BYTES that is no
multiple of 16, below 96, or beyond the largest image gives CTX_FORM; a crew that is not saved CTX_BUSY; a header that
is not the crew's CTX_FORM; COUNTER other than SAVED_AT CTX_STALE; PROT other than the context's CTX_FORM; otherwise,
when its sections pass, the image waits to be installed. An image that is installed opens the launch's window on the
die where it has none, makes the crew resident at the place, no longer saved, every saved thread at its region head
and every other one ended, and a record answers; without room, or an allowed place, nothing changes; and one that is
no longer of the crew's last save gives CTX_STALE. Where a crew may return, and that its units keep their numbers, are
the model's choices (assumption log rows 63, 81, 92). (spec/18_contexts.md R308, R309, R303, spec/17_scheduler.md
R285) -/
def Obligations.Restores : Prop :=
  (∀ (s : State) (fn slot : Nat) (u : Taken) (x : Context) (lid : Nat) (l : Launch) (cr : Crew) (h bytes : Nat)
        (bs : List Byte), s.ReadyIn fn slot 0x0C u x → u.opened = false → u.call = none → u.staged = [] →
      s.launchOf u.ctx (u.p 0) = some (lid, l) → u.p 1 < l.record.ncrew → s.imageCrew x lid l (u.p 1) = some cr →
      u.p 2 + 64 ≤ 2 ^ 57 → s.mainFault u.ctx (u.p 2) 64 false = none → s.mainPoisoned u.ctx (u.p 2) 64 = false →
      h = leNat (s.readMain u.ctx (u.p 2) 64) → bytes = bitsOf h 383 320 → bitsOf h 48 48 = 0 →
      bs = s.readMain u.ctx (u.p 2) bytes → ∃ t, exec (.restore fn slot) s = .next t ∧
        (bytes % 16 ≠ 0 ∨ bytes < 96 ∨ largestImage cr (s.launchItemLen cr) < bytes →
          State.Answers { s with tlb := t.tlb } t fn slot Code.ctxForm 0#64) ∧
        (bytes % 16 = 0 → 96 ≤ bytes → bytes ≤ largestImage cr (s.launchItemLen cr) → u.p 2 + bytes ≤ 2 ^ 57 →
          s.mainFault u.ctx (u.p 2 + 64) (bytes - 64) false = none →
          s.mainPoisoned u.ctx (u.p 2 + 64) (bytes - 64) = false →
          (s.savedFor x u = none → State.Answers { s with tlb := t.tlb } t fn slot Code.ctxBusy 0#64) ∧
          ∀ v, s.savedFor x u = some v → ∀ form : Prop,
            form = (bitsOf h 31 0 = 0x43584D49 ∧ bitsOf h 47 32 = 1 ∧ bitsOf h 63 50 = 0 ∧ bitsOf h 319 288 = 0 ∧
              bitsOf h 511 384 = 0 ∧ bitsOf h 159 128 = u.ctx ∧ bitsOf h 223 160 = v.crew.srLaunch.toNat ∧
              bitsOf h 255 224 = v.index ∧ 1 ≤ bitsOf h 287 256 ∧ bitsOf h 287 256 ≤ 13) →
            (¬form → State.Answers { s with tlb := t.tlb } t fn slot Code.ctxForm 0#64) ∧
            (form → bitsOf h 127 64 ≠ v.savedAt → State.Answers { s with tlb := t.tlb } t fn slot Code.ctxStale 0#64) ∧
            (form → bitsOf h 127 64 = v.savedAt → x.prot = true →
              State.Answers { s with tlb := t.tlb } t fn slot Code.ctxForm 0#64) ∧
            (form → bitsOf h 127 64 = v.savedAt → x.prot = false → ∀ good : Prop,
              good = ∃ xs, readSections (bitsOf h 287 256) (bs.drop 64) = some xs ∧
                (bitsOf h 49 49 = 1 ↔ 13 ∈ v.sections) ∧
                imageFormed v (s.nlset v.crew) (s.launchItemLen v.crew) xs = true →
              (¬good → State.Answers { s with tlb := t.tlb } t fn slot Code.ctxForm 0#64) ∧
              (good → State.RecordOnly { s with tlb := t.tlb } t fn slot ∧
                ∃ r, t.taken? fn slot = some r ∧ (r.opened, r.staged, r.result) = (true, bs, none))))) ∧
    ∀ (s : State) (ctx die cluster : Nat) (homes : List Nat) (x : Context) (v : SavedCrew) (bs : List Byte)
        (xs : List Section) (cr : Crew) (o : Option (Nat × Taken)), Table.get? s.contexts ctx = some x →
      x.savedCrew? v.id = some v → v.crew.ctx = ctx → o = s.restoreRecord ctx v →
      (match o with
        | some (_, u) => u.staged = bs ∧ u.result = none ∧ bitsOf (leNat (bs.take 64)) 127 64 = v.savedAt
        | none => v.image = some bs ∧ (if v.slice then s.slicing = false ∨ s.slice = some x.fn else s.mayReturn v = true)) →
      readSections (bitsOf (leNat (bs.take 64)) 287 256) (imageBody bs (x.key.getD 0#256) ctx) = some xs →
      cr = s.restoredCrew v die cluster homes xs → ∀ need s1, (need, s1) = s.windowFor v die →
      (∀ l e, Table.get? s.launches v.launch = some l → s.launchEntry l.ctx l.record = some e →
        need = l.newWindow die e ∧ s1 = { s with
          launches := Table.adjust s.launches v.launch fun l => l.openWindow die e.dieLaunch }) ∧
      (s.placeAllowed v die cluster homes = false ∨ s.roomFor cr need = false ∨ s.awake cr = false ∨
          s.partStarted (some v.launch) = true →
        exec (.restoreInstall ctx v.id die cluster homes) s = .next s) ∧
      (s.placeAllowed v die cluster homes = true → s.roomFor cr need = true → s.awake cr = true →
        s.partStarted (some v.launch) = false → cr.iters = [] → s.itSlots cr ≤ 64 → leaseItems xs = some [] →
        resItems xs = some [] → 13 ∉ v.sections → (∀ y ∈ v.crew.threads, y.2.slotPoison = []) →
        (∀ o ∈ s.colops, o.2.crew = v.id → o.2.late = none) →
        ∃ t, exec (.restoreInstall ctx v.id die cluster homes) s = .next t ∧
          { t with fns := s.fns, sliceStart := s.sliceStart } = { s1 with
            crews := Table.put s.crews v.id cr
            contexts := Table.adjust s.contexts ctx fun x => { x with saved := x.saved.filter fun w => w.id ≠ v.id } } ∧
          (cr.die, cr.cluster, cr.saving, cr.stopped, cr.killed) = (die, cluster, none, false, false) ∧
          (∀ e ∈ cr.threads, (e.2.ended = true ↔ e.1 ∉ v.live) ∧ (e.1 ∈ v.live →
            e.2.pc = e.2.region.head ∧ e.2.wait = none ∧ e.2.inHandler = false ∧ e.2.pend = [] ∧ e.2.trans = [])) ∧
          match o with
          | some (fn, u) => s.RecordOnly { s with fns := t.fns } fn u.slot ∧
              (s.taken? fn u.slot = some u → ∃ r, t.taken? fn u.slot = some r ∧ r.result = some (Code.ok, 0#64)) ∧
              t.sliceStart = s.sliceStart
          | none => t.fns = s.fns ∧ t.sliceStart = if v.slice then s.now else s.sliceStart)

/-- For every state: a budget tick sets CAP to CAP_BOOT without a group, and otherwise to the lower of CAP_BOOT and
the share of R343 for some request from 1,200 to 2,000 W, counting 2,000 for a silent member, and sends the message of
Table 22.3; no tick acts before 100 µs have passed since the last; the cap in force rises at once, and falls along
RAMP once no draw of the last millisecond is above it; the draw, which may pass the cap up to 2,300 W, keeps the mean
of every millisecond at or below the caps, and falls along RAMP, ballast, of which some unit has a rate, filling the
difference; a message of the group that is newer than the one held replaces it, and any other is dropped; power
settings and ballast rates of their tables change only those of their cluster; a gated cluster that wakes, once stage
2 has been verified, is used when it passes and fenced when it fails, which the device log says, and the last test of
boot opens the device; a replay only counts; a failed lane narrows its port to the widest width whose lanes work; the
link trains once boot has opened the device or failed, and stays down after it has gone down, when a far atomic sent
to the host takes HOST_LOST. The model's choices: what a module asks for (assumption log row 42), what a wake acts on
and what opens the device (rows 43, 68), the crew of the log record (row 71), and how the draw of 100 µs follows its
load (row 97). (spec/22_fabric_collectives.md R335, R336, R343, spec/24_power_bringup.md R358, R359, R360,
spec/23_reliability.md R348, R356, spec/20_host_calls.md R313) -/
def Obligations.PowerAndLinks : Prop :=
  (∀ (s : State) (load : Nat), (s.now < s.lastTick + 105000 → exec (.budgetTick load) s = .next s) ∧
      (s.lastTick + 105000 ≤ s.now → ∃ t top, exec (.budgetTick load) s = .next t ∧
      t.capNow = max t.cap (if ∀ e ∈ (s.draw, s.capNow) :: s.draws, e.1 ≤ e.2 then s.capNow - s.ramp / 10 else s.capNow) ∧
      t.draws = ((s.draw, s.capNow) :: s.draws).take 9 ∧ t.lastTick = s.now ∧
      (top ≤ 2300 ∧ ∀ k < 10, top ≤ (((s.draw, s.capNow) :: s.draws).take (9 - k) |>.map (·.2)).sum + (k + 1) * t.capNow -
        (((s.draw, s.capNow) :: s.draws).take (9 - k) |>.map (·.1)).sum) ∧
      t.ballastWatts = t.draw - min load (if t.capNow = t.cap then top else min top t.capNow) ∧
      t.draw = max (min load (if t.capNow = t.cap then top else min top t.capNow)) (min top (s.draw - s.ramp / 10)) ∧
      (s.powerOk = true → t.draw ≤ 2300 ∧
        (t.draw + (t.draws.map (·.1)).sum ≤ t.capNow + (t.draws.map (·.2)).sum)) ∧
      (t.ballastWatts = 0 → t.clusters = Table.mapVals s.clusters fun _ k => { k with ballast := [0, 0, 0, 0] }) ∧
      (t.ballastWatts ≠ 0 → ((∃ e ∈ s.clusters, ∃ r ∈ e.2.ballast, r ≠ 0) → t.clusters = s.clusters) ∧
        ((∀ e ∈ s.clusters, ∀ r ∈ e.2.ballast, r = 0) → (s.cluster 0 0).ballast ≠ [] →
          (t.cluster 0 0).ballast.head? = some 1)) ∧
      (s.budget = none → { t with
          capNow := s.capNow, draw := s.draw, draws := s.draws, lastTick := s.lastTick, ballastWatts := s.ballastWatts
          clusters := s.clusters } = { s with cap := s.capBoot }) ∧
      ∀ b spare, s.budget = some b → spare = b.limit - 1200 * b.group.length →
        ∃ req asked m, 1200 ≤ req ∧ req ≤ 2000 ∧
          asked = req - 1200 + ((b.group.filter (· ≠ b.self)).map fun k => match Table.get? b.members k with
            | some e => if s.now < e.cameAt + 1000 * 1050 then e.req - 1200 else 800
            | none => 800).sum ∧
          { t with
            capNow := s.capNow, draw := s.draw, draws := s.draws, lastTick := s.lastTick, ballastWatts := s.ballastWatts
            clusters := s.clusters } = { s with
            freeIx := t.freeIx, budget := some { b with req := req, seq := b.seq + 1 }
            cap := min s.capBoot (if asked ≤ spare then req else 1200 + spare * (req - 1200) / asked)
            sent := s.sent ++ [.budget m] } ∧
          t.cap ≤ req ∧ (1200 ≤ s.capBoot → 1200 ≤ t.cap) ∧
          (m.extractLsb' 0 8, m.extractLsb' 16 16, m.extractLsb' 32 32, m.extractLsb' 64 16, m.extractLsb' 80 16,
            m.extractLsb' 96 32) =
            (1#8, BitVec.ofNat 16 b.self, BitVec.ofNat 32 (b.seq + 1), BitVec.ofNat 16 t.draw, BitVec.ofNat 16 req, 0#32))) ∧
    (∀ (s : State) (msg : BitVec 128) (b : Budget) (m : Nat) (e : BudgetEntry) (kept : Prop), s.budget = some b →
      m = (msg.extractLsb' 16 16).toNat → e = { seq := (msg.extractLsb' 32 32).toNat, req := (msg.extractLsb' 80 16).toNat
                                                draw := (msg.extractLsb' 64 16).toNat, cameAt := s.now } →
      kept = (msg.extractLsb' 0 8 = 1#8 ∧ msg.extractLsb' 8 8 ≠ 0#8 ∧ msg.extractLsb' 96 32 = 0#32 ∧ 1200 ≤ e.req ∧
        e.req ≤ 2000 ∧ m ≠ b.self ∧ m ∈ b.group ∧
        ∀ old, Table.get? b.members m = some old → old.seq < e.seq) →
      (¬kept → exec (.budgetMessage msg) s = .next s) ∧
      (kept → exec (.budgetMessage msg) s =
        .next { s with budget := some { b with members := Table.put b.members m e } })) ∧
    (∀ (s : State) (die k : Nat) (ratios : List Nat) (passes : Nat) (ok : Prop), die < 2 → k < 96 →
      ok = (ratios.length = 6 ∧ (∀ r ∈ ratios, 2 ≤ r ∧ r ≤ 8) ∧
        (passes = 1 ∨ ((passes = 2 ∨ passes = 4) ∧ ∀ r ∈ ratios, r = 2))) →
      (¬ok → exec (.powerControlApply die k ratios passes) s = .next s) ∧
      (ok → ∃ t, exec (.powerControlApply die k ratios passes) s = .next t ∧ { t with clusters := s.clusters } = s ∧
        t.cluster die k = { s.cluster die k with ratios := ratios, passes := passes } ∧
        ∀ d j, d < 2 → j < 96 → (d ≠ die ∨ j ≠ k) → t.cluster d j = s.cluster d j)) ∧
    (∀ (s : State) (die k unit rate : Nat), die < 2 → k < 96 →
      (16 < rate ∨ 4 ≤ unit ∨ (rate ≠ 0 ∧ s.ballastWatts = 0) ∨
          (rate = 0 ∧ s.ballastWatts ≠ 0 ∧ s.otherBallast die k unit = false) → exec (.ballastStep die k unit rate) s = .next s) ∧
      (rate ≤ 16 → unit < 4 → (if s.ballastWatts = 0 then rate = 0 else rate ≠ 0 ∨ s.otherBallast die k unit = true) →
        ∃ t, exec (.ballastStep die k unit rate) s = .next t ∧ { t with clusters := s.clusters } = s ∧
        t.cluster die k = { s.cluster die k with ballast := (s.cluster die k).ballast.set unit rate } ∧
        ∀ d j, d < 2 → j < 96 → (d ≠ die ∨ j ≠ k) → t.cluster d j = s.cluster d j)) ∧
    (∀ (s : State) (die k : Nat) (passed : Bool) (asleep tested : Prop), die < 2 → k < 96 →
      asleep = ((s.boot = .waiting 3 ∨ s.boot = .waiting 4 ∨ s.boot = .open) ∧ (∀ e ∈ s.crews, ¬(e.2.die = die ∧ k ∈ e.2.clusters)) ∧ (s.cluster die k).gated = true ∧
        (s.cluster die k).fenced = false) →
      tested = (s.boot = .waiting 4 ∧ ∀ d j, d < 2 → j < 96 → (d ≠ die ∨ j ≠ k) →
        (s.cluster d j).fenced = true ∨ (s.cluster d j).gated = false) →
      (¬asleep → exec (.clusterWake die k passed) s = .next s) ∧
      (asleep → ∃ t, exec (.clusterWake die k passed) s = .next t ∧
        { t with
          clusters := s.clusters, deviceLog := s.deviceLog, boot := s.boot, capBoot := s.capBoot, cap := s.cap
          capNow := s.capNow, ramp := s.ramp } = s ∧
        (¬tested → (t.boot, t.capBoot, t.cap, t.capNow, t.ramp) = (s.boot, s.capBoot, s.cap, s.capNow, s.ramp)) ∧
        (tested → t.boot = .open ∧ 1200 ≤ t.cap ∧ t.cap ≤ 2000 ∧ t.capBoot = t.cap ∧ t.capNow = max t.cap s.capNow ∧
          50 ≤ t.ramp ∧ t.ramp ≤ 1000 ∧ ∀ i, Table.get? s.images 2 = some i →
            t.cap = max 1200 (min 2000 (Config.configCap i.bytes)) ∧
            t.ramp = max 50 (min 1000 (Config.configRamp i.bytes))) ∧
        (∀ d j, d < 2 → j < 96 → (d ≠ die ∨ j ≠ k) → t.cluster d j = s.cluster d j) ∧
        if passed then t.deviceLog = s.deviceLog ∧ t.cluster die k = { s.cluster die k with gated := false }
        else t.cluster die k = { s.cluster die k with fenced := true, gated := false } ∧
          ∃ r, t.deviceLog.getLast? = some r ∧ r.code = Code.wakeFail ∧ r.info = k + 256 * die)) ∧
    (∀ (s : State) (port : Nat) (p : Port), p = s.port port →
      (12 ≤ port → exec (.flitCrcReplay port) s = .next s ∧ exec (.laneFailure port) s = .next s) ∧
      (port < 12 → exec (.flitCrcReplay port) s =
          .next { s with ports := Table.put s.ports port { p with replays := p.replays + 1 } } ∧
        ∃ w, exec (.laneFailure port) s =
            .next { s with ports := Table.put s.ports port { p with lanes := p.lanes - 1, width := w } } ∧
          (w = 0 ∨ w = 2 ∨ w = 4 ∨ w = 8) ∧ w ≤ p.lanes - 1 ∧ w ≤ p.narrowed ∧
          ∀ v, (v = 2 ∨ v = 4 ∨ v = 8) → v ≤ p.lanes - 1 → v ≤ p.narrowed → v ≤ w)) ∧
    (∀ (s : State) (cxl : Bool),
      (s.link = .untrained → s.boot = .open ∨ (∃ c k, s.boot = .failed c k) →
        exec (.hostLinkTrain cxl) s = .next { s with link := if cxl then .cxl else .pcie }) ∧
      (s.link ≠ .untrained ∨ (s.boot ≠ .open ∧ ∀ c k, s.boot ≠ .failed c k) →
        exec (.hostLinkTrain cxl) s = .next s)) ∧
    ∀ s : State, (s.link ≠ .pcie → s.link ≠ .cxl → exec .hostLinkDown s = .next s) ∧
      (s.link = .pcie ∨ s.link = .cxl → s.calls = [] → s.xlates = [] →
        (s.fars = [] → exec .hostLinkDown s = .next { s with link := .down }) ∧
        ∀ id r, s.fars = [(id, r)] → r.stage = .sent → (∃ p a w, s.translate r.ctx r.addr = .found (.host p a) w) →
          (∃ th, s.thread? r.crew r.tid = some th ∧ th.wait = some (.far id)) →
          exec .hostLinkDown s =
            .next ((State.trapWaiter { s with link := .down, fars := [] } r.crew r.tid Code.hostLost r.addr).reap r.crew))

/-- For every state: a module reset leaves the state of reset but for the draw and its ramp (R360), the fuses, the
module's place in the pod, the flash of a root and what is not the module's, and counts the reset; a root boots its
stages in order: the first that does not verify fails boot at that stage, with BOOT_SIG for a key or a signature and
BOOT_VER for a version below the fuses', and otherwise stage 2 tests the clusters; another module waits for stage 1
and takes an image only from its parent or a neighbour that it has asked: one that verifies is kept, forwarded to
every child and moves it to the next stage, for which every neighbour may be asked again (the third, with every
cluster tested, opens the device), and one that does not is reported and forwarded nowhere. After a second of silence
the next reachable neighbour is asked; an image is forwarded on request only once it has been verified. A quote
carries the nonce, the measurements and both signatures. The model's choices: what a reset keeps (assumption log row
69), the tests of boot as events (row 43) the form of the pod's messages (row 98), and a quote after a failed boot too
(row 75). (spec/24_power_bringup.md R358, R360, R362, R363, R364, notes/assumptions/43.md, notes/assumptions/69.md,
notes/assumptions/75.md, notes/assumptions/98.md) -/
def Obligations.ResetAndBoot : Prop :=
  (∀ (s : State) (i : Config.Image), s.imageFails i =
      if Config.sha384 i.rsaKey = s.fuseRsa ∧ Config.sha384 i.slhKey = s.fuseSlh ∧
          Config.rsaVerify i.rsaKey i.rsaSig (Config.sha384 i.bytes) = true ∧
          Config.slhVerify i.slhKey i.slhSig (Config.sha384 i.bytes) = true then
        (if i.version < s.fuseVersion then some Code.bootVer else none)
      else some Code.bootSig) ∧
    (∀ s : State, ∃ t, exec .moduleReset s = .next t ∧
      { t with boot := .off, sent := s.sent, clusters := [] } = { State.reset with
        draw := s.draw, draws := s.draws, ballastWatts := s.draw, ramp := s.ramp, capNow := max 2000 s.capNow
        agenda := s.agenda, freeIx := s.freeIx, hostMem := s.hostMem, peerMem := s.peerMem, hostPages := s.hostPages
        hostAtomics := s.hostAtomics, fuseVersion := s.fuseVersion, fuseRsa := s.fuseRsa, fuseSlh := s.fuseSlh
        images := if s.podRoot then s.images else [], boots := s.boots + 1, podRoot := s.podRoot
        podParent := s.podParent, podChildren := s.podChildren, module := s.module, sent := s.sent } ∧
      (s.draw = 0 → t.clusters = []) ∧ (s.draw ≠ 0 → (t.cluster 0 0).ballast = [1, 0, 0, 0] ∧
        { t.cluster 0 0 with ballast := [0, 0, 0, 0] } = Cluster.fresh ∧ ∀ d j, d < 2 → j < 96 → (d ≠ 0 ∨ j ≠ 0) →
          t.cluster d j = Cluster.fresh) ∧
      (s.podRoot = false → t.boot = .waiting 1 ∧ t.sent = s.sent) ∧
      (s.podRoot = true →
        (∀ k c, 1 ≤ k → k ≤ 3 → (∀ j, 1 ≤ j → j < k → s.stageFails j = none) → s.stageFails k = some c →
          t.boot = .failed c k ∧
          t.sent = s.sent ++ (List.range (k - 1)).flatMap fun j => s.podChildren.map fun p => .podImage p (j + 1)) ∧
        ((∀ j, 1 ≤ j → j ≤ 3 → s.stageFails j = none) → t.boot = .waiting 4 ∧
          t.sent = s.sent ++ (List.range 3).flatMap fun j => s.podChildren.map fun p => .podImage p (j + 1)))) ∧
    (∀ (s : State) (port stage : Nat) (bytes : List Byte) (i : Config.Image), i = Config.readImage bytes →
      (s.boot ≠ .waiting stage ∨ 3 < stage ∨ (s.podParent ≠ some port ∧ port ∉ s.podTried) →
        exec (.podImageReceive port stage bytes) s = .next s) ∧
      (s.boot = .waiting stage → stage ≤ 3 → s.podParent = some port ∨ port ∈ s.podTried →
        (s.imageFails i ≠ none → exec (.podImageReceive port stage bytes) s = .next { s with
          podHeard := s.now, sent := s.sent ++ [.podError (s.podParent.getD port) 0x0D03#16 s.module] }) ∧
        (s.imageFails i = none → ∀ u, u = { s with
            podHeard := s.now, images := Table.put s.images stage i, podTried := [], boot := .waiting (stage + 1)
            sent := s.sent ++ s.podChildren.map fun p => .podImage p stage } →
          (stage < 3 ∨ (∃ d j, d < 2 ∧ j < 96 ∧ (s.cluster d j).fenced = false ∧ (s.cluster d j).gated = true) →
            exec (.podImageReceive port stage bytes) s = .next u) ∧
          (stage = 3 → (∀ d j, d < 2 → j < 96 → (s.cluster d j).fenced = true ∨ (s.cluster d j).gated = false) →
            ∃ t, exec (.podImageReceive port stage bytes) s = .next t ∧ t.boot = .open ∧
              { t with
                boot := u.boot, capBoot := u.capBoot, cap := u.cap, capNow := u.capNow, ramp := u.ramp } = u)))) ∧
    (∀ s : State, ((∀ k ≤ 3, s.boot ≠ .waiting k) ∨ s.now < s.podHeard + 1050000000 →
        exec .parentSilenceTimeout s = .next s) ∧
      ∀ k, s.boot = .waiting k → k ≤ 3 → s.podHeard + 1050000000 ≤ s.now →
        ((∀ p < 12, s.podParent ≠ some p → (s.port p).width < 2 ∨ p ∈ s.podTried) →
          exec .parentSilenceTimeout s = .next s) ∧
        ∀ p, p < 12 → s.podParent ≠ some p → p ∉ s.podTried → 2 ≤ (s.port p).width →
          (∀ q < p, s.podParent ≠ some q → (s.port q).width < 2 ∨ q ∈ s.podTried) →
          exec .parentSilenceTimeout s =
            .next { s with sent := s.sent ++ [.podAsk p k], podTried := s.podTried ++ [p] }) ∧
    (∀ (s : State) (port stage : Nat) (seen : Prop),
      seen = (Table.get? s.images stage ≠ none ∧ (s.boot = .open ∨ (∃ k, s.boot = .waiting k ∧ stage < k) ∨
        ∃ c k, s.boot = .failed c k ∧ stage < k)) →
      (¬seen → exec (.imageRequest port stage) s = .next s) ∧
      (seen → exec (.imageRequest port stage) s = .next { s with sent := s.sent ++ [.podImage port stage] })) ∧
    ∀ (s : State) (nonce : BitVec 256) (trained : Prop), trained = (s.link = .pcie ∨ s.link = .cxl) →
      (¬trained → exec (.attestQuote nonce) s = .next s) ∧
      (trained → ∃ bs, exec (.attestQuote nonce) s = .next { s with sent := s.sent ++ [.quote bs] } ∧ bs.length = 16856 ∧
        bs.take 4 = leBytes 0x41545351 4 ∧ (bs.drop 4).take 4 = leBytes 1 4 ∧ (bs.drop 8).take 32 = leBytes nonce.toNat 32 ∧
        (bs.drop 40).take 8 = leBytes (s.fuseVersion % 2 ^ 32) 8 ∧
        (∀ k i, k < 3 → Table.get? s.images (k + 1) = some i →
          (bs.drop (48 + 48 * k)).take 48 = leBytes (Config.sha384 i.bytes).toNat 48) ∧
        (∀ i, Table.get? s.images 2 = some i →
          (bs.drop 192).take 48 = leBytes (Config.sha384 (Config.configBlock i.bytes)).toNat 48) ∧
        (bs.drop 240).take 8 = leBytes (s.boots % 2 ^ 32) 8 ∧
        (∀ sig, sig = Config.quoteRsa (bs.take 248) → sig.length = 384 → (bs.drop 248).take 384 = sig) ∧
        ∀ sig, sig = Config.quoteSlh (bs.take 248) → sig.length = 16224 → bs.drop 632 = sig)

/-- For every state: the fleeting tick advances by one; an unrecovered link stops the module, which then takes no
step; a host access whose every byte lies on a device-homed host-visible page, a writable one for a write, is
performed, and any other gets Unsupported Request or a poisoned response; a peer's read, write and atomic act on
device memory and reply with the bytes read, nothing, and the old value; an overlay fetch whose bytes have the digest
of the object makes the group resident and releases the threads that wait for it, and one whose bytes have another
marks the group failed for every launch that needs it and ends the launch of each waiting thread; a prefetch that no
thread waits for displaces no group that has issued. The model's choices: a host write needs a writable page
(assumption log row 45), a peer names device memory by frame address (row 73), and the words of translated code are
fetched without a translation (row 86). (spec/11_fleeting_memory.md R214, spec/20_host_calls.md R320,
spec/10_copy_engine.md R210, spec/22_fabric_collectives.md R335, spec/09_code_objects.md R191, R192, R195,
spec/23_reliability.md R345) -/
def Obligations.WorldAndOverlays : Prop :=
  (∀ s : State, ∃ t, exec .fleetingTick s = .next t ∧ { t with now := s.now } = s ∧ t.tick = s.tick + 1 ∧
      t.now % 1024 = 0) ∧
    (∀ s : State, exec .unrecoveredLink s = .next { s with stopped := true } ∧
      (s.stopped = true → step s = .fault .moduleStopped)) ∧
    (∀ (s : State) (ctx a : Nat) (write : Bool) (data : List Byte) (reached : Prop),
      reached = (∀ i < data.length, ∃ x p, Table.get? s.contexts ctx = some x ∧
        x.pages.find? (fun p => p.covers (a + i)) = some p ∧ p.hostVisible = true ∧ p.home ≠ 2 ∧
        (write = true → p.writable = true)) →
      (s.link ≠ .pcie → s.link ≠ .cxl → exec (.hostAccess ctx a write data) s = .next s) ∧
      (s.link = .pcie → ¬reached → exec (.hostAccess ctx a write data) s =
        .next { s with sent := s.sent ++ [.unsupported] }) ∧
      (s.link = .cxl → ¬reached → exec (.hostAccess ctx a write data) s = .next { s with sent := s.sent ++ [.poisoned] }) ∧
      (s.link = .pcie ∨ s.link = .cxl → reached →
        (write = true → exec (.hostAccess ctx a write data) s = .next (s.writeMain ctx a data)) ∧
        (write = false → exec (.hostAccess ctx a write data) s = .next { s with sent := s.sent ++
          [if s.mainPoisoned ctx a data.length then .poisoned else .hostReply (s.readMain ctx a data.length)] }))) ∧
    (∀ (s : State) (port a kind aop : Nat) (wide : Bool) (x c : Dword) (data : List Byte),
      (12 ≤ port ∨ (s.port port).width = 0 ∨ 2 < kind ∨ (kind = 2 ∧ ∀ op : AtomOp, op.code ≠ aop) →
        exec (.peerRequest port a kind aop wide x c data) s = .next s) ∧
      (port < 12 → 0 < (s.port port).width →
        (kind = 0 → exec (.peerRequest port a kind aop wide x c data) s = .next { s with sent := s.sent ++
          [if s.framePoisoned a data.length then .peerPoisoned port
            else .peerReply port (Mem.readBytes s.devMem a data.length)] }) ∧
        (kind = 1 → ∃ t, exec (.peerRequest port a kind aop wide x c data) s = .next t ∧
          { t with devMem := s.devMem, mainPoison := s.mainPoison } =
            { s with sent := s.sent ++ [.peerReply port []] } ∧
          (∀ b, Mem.read t.devMem b = if a ≤ b ∧ b < a + data.length then data.getD (b - a) 0#8
            else Mem.read s.devMem b) ∧
          ∀ p, p ∈ t.mainPoison ↔ p ∈ s.mainPoison ∧ (p < a ∨ a + data.length ≤ p)) ∧
        ∀ (op : AtomOp) (n old : Nat), kind = 2 → op.code = aop → n = (if wide then 8 else 4) →
          old = Mem.readNat s.devMem a n → s.framePoisoned a n = false →
          ∃ t, exec (.peerRequest port a kind aop wide x c data) s = .next t ∧
            { t with devMem := s.devMem, mainPoison := s.mainPoison } =
              { s with sent := s.sent ++ [.peerReply port (leBytes old n)] } ∧
            Mem.readNat t.devMem a n = ((op.apply (8 * n) old x.toNat c.toNat).getD old) ∧
            ∀ b, (b < a ∨ a + n ≤ b) → Mem.read t.devMem b = Mem.read s.devMem b)) ∧
    ∀ (s : State) (die k obj g : Nat) (f : Fetch) (o : CodeObject) (bs : List Byte),
      ((∀ f ∈ (s.cluster die k).fetches, f.obj ≠ obj ∨ f.group ≠ g) →
        exec (.overlayFetchComplete die k obj g) s = .next s) ∧
      ((s.cluster die k).fetches.find? (fun f => f.obj = obj && f.group = g) = some f → f.call = none → f.xlate = none →
        s.object? f.ctx obj = some o → bs = s.groupData f.ctx o g → bs.length ≤ 65536 → Table.wf s.crews = true →
        (∀ e ∈ s.crews, Table.wf e.2.threads = true) →
        o.translated ≠ none ∨ (s.mainFault f.ctx (o.addr + o.codeOff + g * 65536) (o.groupLen g) false = none ∧
          s.mainPoisoned f.ctx (o.addr + o.codeOff + g * 65536) (o.groupLen g) = false) →
        ∀ waits : Nat → Nat → Prop, (∀ c tid, waits c tid ↔ ∃ cr th, s.crew? c = some cr ∧
          Table.get? cr.threads tid = some th ∧ cr.ctx = f.ctx ∧ cr.obj = obj ∧ cr.die = die ∧
          th.wait = some (.overlay g) ∧ cr.homeCluster th = k) →
        ∃ t, exec (.overlayFetchComplete die k obj g) s = .next t ∧
          (t.cluster die k).fetches = (s.cluster die k).fetches.filter (fun h =>
            decide (h.ctx ≠ f.ctx) || decide (h.obj ≠ obj) || decide (h.group ≠ g)) ∧
          (Config.sha384 bs = o.digests.getD g 0#384 →
            { t with crews := s.crews, clusters := s.clusters, tlb := s.tlb } = s ∧
            (f.prefetch = false ∨ (∃ c tid, waits c tid) → framesUsed (t.cluster die k).frames ≤ 64 ∧
              ∃ fr, (t.cluster die k).frames.getLast? = some fr ∧ (fr.ctx, fr.obj, fr.group, fr.len) =
                (f.ctx, obj, g, bs.length) ∧ (∀ j < bs.length, Mem.read fr.bytes j = bs.getD j 0#8) ∧
              (∀ h ∈ (t.cluster die k).frames, h = fr ∨ h ∈ (s.cluster die k).frames)) ∧
            (f.prefetch = true → (∀ c tid, ¬waits c tid) → ∀ h ∈ (s.cluster die k).frames, h.prefetched = false →
              h ∈ (t.cluster die k).frames) ∧
            ∀ c tid th, s.thread? c tid = some th → (waits c tid → t.thread? c tid = some { th with wait := none }) ∧
              (¬waits c tid → t.thread? c tid = some th)) ∧
          (Config.sha384 bs ≠ o.digests.getD g 0#384 → (t.cluster die k).frames = (s.cluster die k).frames ∧
            (∀ l, Table.get? s.launches f.launch = some l →
              ∃ l', Table.get? t.launches f.launch = some l' ∧ (obj, g) ∈ l'.failedGroups) ∧
            ∀ c tid cr l, waits c tid → s.crew? c = some cr → Table.get? s.launches cr.launch = some l →
              ∃ l', Table.get? t.launches cr.launch = some l' ∧ (obj, g) ∈ l'.failedGroups ∧ l'.cut = true))

/-- For every state, an attendant core's xsf.vld and xsf.vst: a register count outside the table, a group that does
not start at a multiple of it, or no call being served is an illegal instruction; an offset that is no multiple of 64
is misaligned; a C-die or a range outside the window is an access fault; otherwise, when every line is present and not
faulted, the load sets its registers to the bytes of the window of the call, 128 to a register, and the store writes
them there, and the core goes on; the lines before an absent or a faulted one are moved, and are not accessed again:
an absent line stalls the core and a faulted one is an access fault. The causes are those of the RISC-V privileged
architecture, which the model presumes (assumption log row 44). (spec/20_host_calls.md R331, R332) -/
def Obligations.AttendantMoves : Prop :=
  ∀ (s : State) (nf : BitVec 3) (rs2 rs1 v : BitVec 5) (k : AttendantCore), k = s.core s.curCore →
    (∀ n, xsfCount nf = some n ↔ (nf, n) ∈ [(0#3, 1), (1#3, 2), (3#3, 4), (7#3, 8)]) ∧
    (∀ cause, s.coreWorker s.curCore = none →
      s.coreFault s.curCore cause = s.modCore s.curCore fun k => { k with cause := some cause, stored := 0 }) ∧
    (xsfCount nf = none ∨ (∃ n, xsfCount nf = some n ∧ v.toNat % n ≠ 0) ∨ k.call = none →
      exec (.xsfVld nf rs2 rs1 v) s = .next (s.coreFault s.curCore 2) ∧
      exec (.xsfVst nf rs2 rs1 v) s = .next (s.coreFault s.curCore 2)) ∧
    ∀ n off d, xsfCount nf = some n → v.toNat % n = 0 → k.call ≠ none → off = (k.reg rs1).toNat % 2 ^ 32 →
      d = (k.reg rs2).toNat →
      (off % 64 ≠ 0 → exec (.xsfVld nf rs2 rs1 v) s = .next (s.coreFault s.curCore 4) ∧
        exec (.xsfVst nf rs2 rs1 v) s = .next (s.coreFault s.curCore 6)) ∧
      ∀ cid cr w a, off % 64 = 0 → s.servedCrew s.curCore = some (cid, cr) → w = s.coreWindow cr d off →
        a = inWindow off →
        (1 < d ∨ w.size < a + 128 * n → exec (.xsfVld nf rs2 rs1 v) s = .next (s.coreFault s.curCore 5) ∧
          exec (.xsfVst nf rs2 rs1 v) s = .next (s.coreFault s.curCore 7)) ∧
        (d ≤ 1 → a + 128 * n ≤ w.size →
          ∀ i faulted, k.stored ≤ i → i ≤ 2 * n → (i = 2 * n → faulted = false) →
            (∀ j, k.stored ≤ j → j < i → (w.line (a / 64 + j)).present = true ∧ (w.line (a / 64 + j)).faulted = false) →
            (i < 2 * n → (w.line (a / 64 + i)).faulted = faulted ∧
              (faulted = false → (w.line (a / 64 + i)).present = false)) →
            (w.poison = [] → ∃ t k',
              exec (.xsfVld nf rs2 rs1 v) s = .next (if faulted then t.coreFault s.curCore 5 else t) ∧
              { t with attendants := s.attendants } = s ∧ (∀ j, j ≠ s.curCore → t.core j = s.core j) ∧
              k' = t.core s.curCore ∧ { k' with v := k.v } = { k with
                pc := if i = 2 * n then k.pc + 4#64 else k.pc, stored := if i = 2 * n then 0 else i } ∧
              (∀ j < 2 * n, (k'.vec (v.toNat + j / 2)).extractLsb' (512 * (j % 2)) 512 =
                if k.stored ≤ j ∧ j < i then BitVec.ofNat 512 (Mem.readNat w.bytes (a + 64 * j) 64)
                else (k.vec (v.toNat + j / 2)).extractLsb' (512 * (j % 2)) 512) ∧
              ∀ r, (r < v.toNat ∨ v.toNat + n ≤ r) → k'.vec r = k.vec r) ∧
            (off + 128 * n ≤ launchBase ∨ launchBase ≤ off → s.crew? cid = some cr →
              ∃ t cr' w', exec (.xsfVst nf rs2 rs1 v) s = .next (if faulted then t.coreFault s.curCore 7 else t) ∧
                { t with attendants := s.attendants, crews := s.crews, launches := s.launches } = s ∧
                (∀ j, j ≠ s.curCore → t.core j = s.core j) ∧
                t.core s.curCore = { k with
                  pc := if i = 2 * n then k.pc + 4#64 else k.pc
                  stored := if i = 2 * n then 0 else if faulted then k.stored else i } ∧
                (∀ c, c ≠ cid → t.crew? c = s.crew? c) ∧ t.crew? cid = some cr' ∧ { cr' with window := cr.window } = cr ∧
                (off < launchBase → t.launches = s.launches) ∧ (launchBase ≤ off → t.crews = s.crews) ∧
                (∀ l, l ≠ cr.launch → Table.get? t.launches l = Table.get? s.launches l) ∧
                w' = t.coreWindow cr' d off ∧ w'.size = w.size ∧
                (∀ j, 64 * k.stored ≤ j → j < 64 * i →
                  Mem.read w'.bytes (a + j) = (k.vec (v.toNat + j / 128)).extractLsb' (8 * (j % 128)) 8) ∧
                ∀ b, (b < a + 64 * k.stored ∨ a + 64 * i ≤ b) → Mem.read w'.bytes b = Mem.read w.bytes b))

/-- For every state: an instruction of which the lowest lane that reads an error, in a register (add standing for
them) or in the bytes of a shared load, is performed by no lane, and its crew stops with the code, INFO, ADDR, tick
and thread of the event, nothing else having changed. While a drain is not done the crew waits; then the record goes
to its context's log and, in hardware mode of duty row 5, the crew rolls back if its reserve is not outward, not used
and holds no error, and otherwise is killed with the code; in host-assisted mode the record goes to a worker as a call
of row 5, whose reply 1 asks for the rollback and any other end for the kill. A rollback restores exactly the shadowed
shared lines, the roles, tumblers and barrier generation, and restarts each thread of the epoch at the head of its
region as the barrier left it; the reserve is then used. A barrier's epoch keeps each live thread's region and slot,
no line, and clears OUTWARD and USED; the first write to a shared line in it keeps that line's bytes and no later one
does. A disagreement of twins restarts the regions of the bundle's threads, releases nothing, and before one of them
has entered a region again is a consumed error UE. (spec/23_reliability.md R345, R349, R350, R351, R352, R353, R355,
spec/06_threads_and_bundles.md R125, spec/20_host_calls.md R330) -/
def Obligations.ConsumedErrors : Prop :=
  (∀ (s : State) (cr : Crew) (d a b : BitVec 7) (tr : Bool), s.crew? s.cur.crew = some cr → cr.consumed = none →
      cr.killed = false → s.curLanes ≠ [] →
      (∀ l r tid, l = (fm32 d a b tr).legality s.cur → s.opIllegal l = false → s.prefixIllegal l = false →
        s.ixFailures l.opnds = [] → s.poisonedRead l = some (r, tid) →
        (∃ e ∈ s.activeLanes, e.1.tid = tid ∧ r ∈ e.2.poison ∧ ∀ h ∈ e.2.trans, h.name ≠ .reg r) ∧
        ∃ t, exec (.addI32 d a b tr) s = .next t ∧ s.Consumes t s.cur.crew cr 0x0902#16 r s.cur.pc.toNat tid) ∧
      ∀ (vd : BitVec 7) (sz : BitVec 2) (va la : BitVec 4) (off : BitVec 7) (n : Nat) (addr : Thread → Int), n = 2 ^ sz.toNat →
        addr = (fun u => u.address va off n) →
        s.Clear { opnds := [loadDst vd n, addrSrc va], illegal := false, cls := loadClass .none } → s.Reaches cr .sh n addr →
        ∀ before e after info, s.activeLanes = before ++ e :: after →
          (∀ x ∈ before, s.spacePoison cr x.2 .sh (addr x.2).toNat n false = none) →
          s.spacePoison cr e.2 .sh (addr e.2).toNat n false = some info →
          ∃ t, exec (.ldSh vd sz va la off) s = .next t ∧
            s.Consumes t s.cur.crew cr 0x0903#16 info s.cur.pc.toNat e.1.tid) ∧
    (∀ (s : State) (c : Nat) (cr : Crew) (code : Code) (info addr : Nat), s.crew? c = some cr → cr.killed = false →
      cr.consumed = some (code, info, addr) → Table.wf cr.threads = true → (Table.get? s.contexts cr.ctx).isSome = true →
      (∀ r, cr.reserve = some r → Table.wf r.threads = true ∧ ∀ e ∈ r.threads, e.2.slotPoison = []) →
      (s.quiet c = false → exec (.saveDrainComplete c) s = .next s) ∧
      (s.quiet c = true → s.deciding c = false →
        (rowAssisted (s.dutyRow cr.ctx 5) = false ∨ s.rowServed cr.ctx 5 = false →
          ∃ t, exec (.saveDrainComplete c) s = .next t ∧
            s.Decides t c cr (!rowAssisted (s.dutyRow cr.ctx 5)) code info addr) ∧
        (rowAssisted (s.dutyRow cr.ctx 5) = true → s.rowServed cr.ctx 5 = true →
          ∃ t k, exec (.saveDrainComplete c) s = .next t ∧ t.crew? c = some { cr with consumedLogged := true } ∧
            Table.get? t.calls s.nextId = some k ∧ (k.origin, k.sys, k.func) = (.decide c, true, 5) ∧
            k.data = (cr.errorRecord code info addr 0).words ∧
            (k.crew, k.launch, k.tid) = (cr.index, cr.srLaunch.toNat, cr.consumedTid))) ∧
      ∀ id (k : Call) status ret data, k.origin = .decide c →
        s.Decides (s.callEnded id k status ret data) c cr (status = 0#16 && ret = 1#64) code info addr) ∧
    (∀ (cr : Crew) (r : Reserve) (a : Nat) (bs : List Byte), cr.reserve = some r → bs ≠ [] →
      ∃ r', (cr.writeShared a bs).reserve = some r' ∧ (r'.outward, r'.used) = (r.outward, r.used) ∧
        (∀ l, l ∈ r'.shadowed ↔ l ∈ r.shadowed ∨ ∃ k < bs.length, (a + k) / 64 = l) ∧
        ∀ b, b / 64 ∈ r'.shadowed →
          Mem.read r'.shadow b = if b / 64 ∈ r.shadowed then Mem.read r.shadow b else Mem.read cr.shared b) ∧
    (∀ (cr : Crew), Table.wf cr.threads = true → (cr.openEpoch.outward, cr.openEpoch.used, cr.openEpoch.shadowed) =
        (false, false, []) ∧
      (cr.openEpoch.roles, cr.openEpoch.tumblers, cr.openEpoch.barGen) = (cr.roles, cr.tumblers, cr.barGen) ∧
      ∀ tid, (Table.get? cr.openEpoch.threads tid).map (fun p => (p.region, p.slot)) =
        ((Table.get? cr.threads tid).filter (fun th => !th.ended)).map fun th => (th.region, th.slot)) ∧
    ∀ (s : State) (c : Nat) (cr : Crew) (tids : List Nat) (ms : List Move) (lanes : List Lane) (v : State),
      s.nextMove = (.twinDisagree c tids, ms) → s.stopped = false → s.crew? c = some cr → cr.twin = true →
      cr.running = true → lanes = (cr.bundleLanes tids).filter (·.issued) → (lanes.map (·.tid)).Nodup →
      v = { s with agenda := ms } → ∃ t, step s = .next t ∧
      ((∀ l ∈ lanes, ∀ th, Table.get? cr.threads l.tid = some th → th.twinStrike = none ∧ th.slotPoison = []) →
        { t with crews := v.crews } = v ∧ (∀ d, d ≠ c → t.crew? d = v.crew? d) ∧
        (∀ l ∈ lanes, ∀ th, Table.get? cr.threads l.tid = some th → t.thread? c l.tid =
          some ({ th with twinStrike := some th.pc }.restart (s.liveSet cr th.region.lset))) ∧
        ∀ u, u ∉ lanes.map (·.tid) → (t.thread? c u).map (fun x => { x with wait := none }) =
          (Table.get? cr.threads u).map (fun x => { x with wait := none })) ∧
      ∀ before l after th, lanes = before ++ l :: after → Table.get? cr.threads l.tid = some th → th.twinStrike.isSome = true →
        (∀ x ∈ before, ∀ y, Table.get? cr.threads x.tid = some y → y.twinStrike = none) → cr.consumed = none →
        v.Consumes t c cr 0x0901#16 th.pc.toNat th.pc.toNat l.tid

/-- For every instruction and every value of its operands that its encoding admits: a thread-engine instruction
encodes to one word, which decodes to it; an attendant core's instruction encodes to one word, which the attendant's
own decoder reads as it; an event of an engine has no word. (spec/04_instruction_words.md R60, R62, R63, R66, R71,
spec/20_host_calls.md R332) -/
def Obligations.RoundTripAll : Prop :=
  ∀ i : Instr, Sys2Proof.Laws.RoundTrip.Statement i

/-- Each word of a table of the spec that gives a source line and its word, one or more for each family, decodes to
that instruction with those operands; an attendant core reads its two words with its own decoder; and a word of an
unassigned major decodes to none. (spec/04_instruction_words.md R60, R62, R63, R66, R71, R75, spec/20_host_calls.md
R332) -/
def Obligations.SpecWordsDecode : Prop :=
  (∀ p ∈ ([
      (0x00143070#32, .addI32 5 6 7 false), (0x14084094#32, .cmpI32 2 8 9 2), (0x162858C4#32, .selN32 10 11 12 2 false),
      (0x1C081060#32, .pand 2 2 6), (0x2024FFFD#32, .addI32Imm 9 0xFFFD), (0x3050A965#32, .fmulF32 20 21 22 true),
      (0x48313FC0#32, .fmulF32Imm 12 0x3FC0), (0x501C4004#32, .cvtI32F32 7 8 false), (0x54A08002#32, .cvtSx4F32 40 16),
      (0x56142060#32, .xlIdxN32 5 4 6 false), (0x5BF51184#32, .ldSh 0x7D 2 2 3 4), (0x5C2B9801#32, .stDie 10 3 3 1),
      (0x60141850#32, .ldAcq 5 3 0 2 2), (0x62148094#32, .atomOr 5 2 0 0 1 2), (0x655FFFFB#32, .br 0xA 0x1FFFFB),
      (0x65E00028#32, .call 0x28), (0x68002804#32, .rgn 0 5), (0x760C4801#32, .tbSign 3 9 0),
      (0x78012801#32, .trap 0 0x25), (0x6E614801#32, .cpT 24 41 1), (0x6E333965#32, .atomFarCas 12 3 7 2 0 1),
      (0x70141082#32, .flLife 5 2 1), (0x6A40100C#32, .mma 16 0 2 1 true), (0x6C286113#32, .itNext 10 12 2 3),
      (0x72282182#32, .qPop 10 4 3), (0x7EC85800#32, .pfx 3 false 2 11 false), (0x8020A300#32, .gAddI64 4 5 6),
      (0x96391234#32, .gMovN64Imm 7 0x1234), (0x9820B802#32, .gLdSh 4 5 3 0 2), (0xA086FFF6#32, .gBr 2 6 0xFFF6),
      (0xA218E022#32, .gWrvN32 3 7)] : List (Word × Instr)),
      decodeWord p.1 = .ok p.2) ∧
    decodeAttendant 0x02B5040B#32 = .ok (.xsfVld 1 11 10 8) ∧ decodeAttendant 0x02B5140B#32 = .ok (.xsfVst 1 11 10 8) ∧
    decodeWord 0x7A000000#32 = .error .reservedMajor

/-- For every machine that has not stopped and whose next move issues threads that form a bundle of a crew that may
run: with the group of their program counter resident in their cluster, and the word there an instruction and no
prefix, the step is that instruction carried out on the bundle, under the number of its issue, after the fetch has
noted that the group is in use; behind a prefix word the step is the prefix and then the instruction of the next word;
a parked thread issues again in the same way, alone or with the bundle that parked with it; an event is carried out as
it stands; an attendant core runs a custom word that decodes, and any word of RV64GCV, which the spec does not
describe, is refused. Without a move, the first bundle that is ready issues, or time passes to the next fleeting tick:
the model's choice among those that the rules leave open (R97). (spec/04_instruction_words.md R60, R66,
spec/06_threads_and_bundles.md R97, R104, spec/09_code_objects.md R191, spec/20_host_calls.md R331) -/
def Obligations.StepRunsDecoded : Prop :=
  ∀ (s : State) (m : Move) (ms : List Move), s.stopped = false → s.nextMove = (m, ms) →
    (∀ (c : Nat) (cr : Crew) (lanes : List Lane) (alone : Bool) (seq next : Nat) (l : Lane) (th : Thread) (u v : State)
        (fr : Frame) (off : Nat) (w : Word), s.crew? c = some cr → s.mayRun cr = true →
      ((∃ tids, m = .issue c tids ∧ (lanes, alone, seq, next) = (cr.bundleLanes tids, false, s.nextSeq, s.nextSeq + 1)) ∨
        ∃ tid p x, m = .retry c tid ∧ Table.get? cr.threads tid = some p ∧ p.ended = false ∧ p.wait = some x ∧
          (seq, next) = (p.parkIssue, s.nextSeq) ∧
          ((x.bundled = true ∧ (lanes, alone) = (cr.parkedLanes tid p, false)) ∨
            (x.bundled = false ∧ x.triedAgain = true ∧ State.othersFirst { s with agenda := ms } cr p = false ∧
              (lanes, alone) = ([{ tid := tid, issued := true }], true)))) →
      lanes.find? (·.issued) = some l → Table.get? cr.threads l.tid = some th →
      u = { s with
        agenda := ms, nextSeq := next
        cur := { crew := c, lanes := lanes, pc := th.pc, word := 0#32, pfx := none, alone := alone, seq := seq } } →
      v = (u.modCluster cr.die (cr.homeCluster th) fun k => k.used cr.ctx cr.obj (th.pc.toNat / 65536)) →
      off = th.pc.toNat % 65536 → s.groupFailed cr.launch cr.obj (th.pc.toNat / 65536) = false →
      (s.cluster cr.die (cr.homeCluster th)).frame? cr.ctx cr.obj (th.pc.toNat / 65536) = some fr → off < fr.len →
      w = BitVec.ofNat 32 (Mem.readNat fr.bytes off 4) →
      (∀ i, w.extractLsb' 25 7 ≠ 0x3F#7 → decodeWord w = .ok i →
        step s = exec i { v with cur := { v.cur with word := w } }) ∧
      ∀ b i j, w.extractLsb' 25 7 = 0x3F#7 → off + 4 < 65536 → off + 4 < fr.len → th.pc.toNat + 4 < 2 ^ 32 →
        b = BitVec.ofNat 32 (Mem.readNat fr.bytes (off + 4) 4) → decodeWord w = .ok i → decodeWord b = .ok j →
        ∃ x, exec i { v with cur := { v.cur with word := w } } = .next x ∧
          step s = exec j { x with cur := { x.cur with word := b } }) ∧
    (∀ i, m = .event i → i.kind = .event → step s = exec i { s with agenda := ms }) ∧
    (∀ k i t, m = .attendant k → State.coreInstr { s with agenda := ms } k = .run i t → step s = exec i t) ∧
    (∀ k w, m = .attendant k → State.coreInstr { s with agenda := ms } k = .base w →
      step s = .refused (.attendantBase w)) ∧
    (s.agenda = m :: ms ∨ (s.agenda = [] ∧ ms = [] ∧
      ((∃ b, s.firstBundle = some b ∧ m = .issue b.1 b.2) ∨ (s.firstBundle = none ∧ m = .event .fleetingTick))))

/-- For every state in which CAP lies between 1,200 W and CAP_BOOT, CAP_BOOT at or below 2,000 W, RAMP between 50 and
1,000 W/ms, the cap in force between CAP and 2,000 W, the draw at or below 2,300 W, and no run of the newest 100 µs
draws of a millisecond above its caps by more than what the rest of the millisecond has under the cap in force (so
that its mean is at or below the caps), a step that answers a next state leaves them so, whatever moves: an
instruction of a thread or of an attendant core, an event of an engine, or the world outside. That a configuration
outside the ranges is clamped is log entry 43, and that the draw stands for each 100 µs log entry 97.
(spec/24_power_bringup.md R358, R360, spec/22_fabric_collectives.md R343, notes/assumptions/43.md,
notes/assumptions/97.md) -/
def Obligations.PowerInvariant : Prop :=
  ∀ s t : State, s.powerOk = true → step s = .next t → t.powerOk = true

/-- For every state in which every memory (device, host and peer memory, the windows of the host port and of the
launches, the code groups and operand buffers of clusters, and the shared memory, die window, save area, stacks, tiles
and rollback shadow of every crew, resident or saved) is in its canonical form, addresses rising and no entry equal to
what an unlisted address reads as, a step that answers a next state leaves them so, whatever the move: equal memories
are equal data in every state that a run reaches. The form is the model's own (log entry 9). (spec/00_scope.md R4,
spec/02_memory_spaces.md R25, R26, notes/assumptions/9.md) -/
def Obligations.MemoriesInvariant : Prop :=
  ∀ s t : State, s.memoriesWf = true → step s = .next t → t.memoriesWf = true

/-- After reset nothing is resident, loaded, mapped or in flight: no crew, launch, context, copy, call or collective;
the host link is untrained and boot has not begun; every row of the quantum table is zero and every window starts at
slot 0 of lap 1; RAMP is the default of 250 W/ms, CAP lies in its range, which is the model's choice
(notes/assumptions/6.md), and every memory is in its canonical form. (spec/18_contexts.md R297, spec/20_host_calls.md
R313, R315, R318, spec/24_power_bringup.md R358, R360, R362) -/
def Obligations.ResetState : Prop :=
  (State.reset.crews, State.reset.launches, State.reset.contexts, State.reset.copies, State.reset.elems, State.reset.fars) =
      ([], [], [], [], [], []) ∧
    (State.reset.calls, State.reset.colops, State.reset.gangs, State.reset.xlates) = ([], [], [], []) ∧
    (State.reset.link, State.reset.boot, State.reset.stopped, State.reset.slice) = (.untrained, .off, false, none) ∧
    (∀ f, ((State.reset.fn f).quantum, (State.reset.fn f).cursor, (State.reset.fn f).lap, (State.reset.fn f).taken) =
      (0#64, 0, 1, []) ∧ (State.reset.fn f).cursorOk = true) ∧
    (∀ d k, (State.reset.cluster d k).frames = [] ∧ (State.reset.cluster d k).fenced = false) ∧
    State.reset.ramp = 250 ∧ State.reset.budget = none ∧ State.reset.powerOk = true ∧ State.reset.memoriesWf = true ∧
    ∀ a, Mem.read State.reset.devMem a = unlistedByte

/-- For every memory, address and run of bytes: writing keeps the canonical form; the bytes written read back, every
other address reads as before, and a number written little-endian reads back; and two canonical memories that read the
same at every address are the same data, which is the model's own form of memory. (spec/02_memory_spaces.md R25, R26,
spec/00_scope.md R4) -/
def Obligations.MemoryOperations : Prop :=
  (∀ (m : Sparse Byte) (a : Nat) (bs : List Byte), (Memory.wf m = true → Memory.wf (Mem.writeBytes m a bs) = true) ∧
      Mem.readBytes (Mem.writeBytes m a bs) a bs.length = bs ∧
      ∀ b, (b < a ∨ a + bs.length ≤ b) → Mem.read (Mem.writeBytes m a bs) b = Mem.read m b) ∧
    (∀ (m : Sparse Byte) (a n v : Nat), v < 256 ^ n → Mem.readNat (Mem.writeNat m a n v) a n = v ∧
      ∀ k < n, Mem.read (Mem.writeNat m a n v) (a + k) = BitVec.ofNat 8 (v / 256 ^ k)) ∧
    ∀ m m' : Sparse Byte, Memory.wf m = true → Memory.wf m' = true → (∀ a, Mem.read m a = Mem.read m' a) → m = m'

/-- For every thread that holds nothing for a register, and a value for it: an ordinary result reads at once; a result
promised for k instructions, k from 1, reads as before through the first k further instructions that do not write the
register and as the value after them, and a promised instruction that writes it keeps its own value; a transient
result reads through the next eight instructions and as before after them, unless one writes the register, whose value
then stays; and behind a promised write of the register it reads until the promise has run out.
(spec/04_instruction_words.md R69, R70) -/
def Obligations.ResultTiming : Prop :=
  ∀ (th : Thread) (r len : Nat) (v y : Word) (run : Nat → Thread → Thread),
    (∀ h ∈ th.pend, h.name ≠ .reg r) → (∀ h ∈ th.trans, h.name ≠ .reg r) →
    (∀ n u, run (n + 1) u = (run n u).commit len .now []) → (∀ u, run 0 u = u) →
    (∀ n, (run n (th.commit len .now [(.reg r, v)])).readReg r = v) ∧
    (∀ k, (run k (th.commit len (.after 0) [(.reg r, v)])).readReg r = v) ∧
    (∀ k, 1 ≤ k → (∀ n ≤ k - 1, (run n (th.commit len (.after k) [(.reg r, v)])).readReg r = th.readReg r) ∧
      (∀ n, k ≤ n → (run n (th.commit len (.after k) [(.reg r, v)])).readReg r = v) ∧
      ∀ n j, n < k → (run j ((run n (th.commit len (.after k) [(.reg r, v)])).commit len .now [(.reg r, y)])).readReg r = y) ∧
    (∀ n < 8, (run n (th.commit len .forward [(.reg r, v)])).readReg r = v) ∧
    (∀ n, 8 ≤ n → (run n (th.commit len .forward [(.reg r, v)])).readReg r = th.readReg r) ∧
    (∀ n j, n < 8 → (run j ((run n (th.commit len .forward [(.reg r, v)])).commit len .now [(.reg r, y)])).readReg r = y) ∧
    ∀ k n, 1 ≤ k → (run n ((th.commit len .forward [(.reg r, v)]).commit len (.after k) [(.reg r, y)])).readReg r =
      if k ≤ n then y else if n < 7 then v else th.readReg r
end

