-- ==== Sys2Proof/Laws/Contract.lean ====
section
/-! SUPPORT. A cross-lane read of a bundle that is a W-group is the read of the width contract (R182, R183). -/

namespace Sys2Proof.Machine

open Sys2Proof

/-- Where every lane that is active belongs to the reader's W-group, as in a bundle whose group has welded its tumbler, what
the native read gives is what R182 says: the source's operand, or zero in each of its four cases. -/
theorem State.sourceValue_contract (s : State) (cr : Crew) (w : Nat) (va : BitVec 7) (wide : Bool) (reader source : Nat)
    (r : Thread) (hcr : s.curCrew? = some cr) (hr : Table.get? cr.threads reader = some r)
    (hlive : ∀ e ∈ s.activeLanes, Table.get? cr.threads e.1.tid = some e.2 ∧ e.2.ended = false ∧ e.2.pc = s.cur.pc)
    (hgroup : ∀ e ∈ s.activeLanes, cr.wGroup w e.1.tid e.2 = cr.wGroup w reader r) :
    s.sourceValue va wide source = s.contractRead w va wide reader source := by
  unfold State.sourceValue State.contractRead State.source
  rw [hcr]
  cases h : s.activeLanes.find? (fun e => (e.1.tid : Int) = source) with
  | none =>
    have hno : (s.activeLanes.map (·.1.tid)).contains source = false := by
      simp only [List.find?_eq_none, decide_eq_true_eq] at h
      simp only [List.contains_eq_mem, List.mem_map, decide_eq_false_iff_not, not_exists, not_and]
      exact fun e he hs => h e he (by rw [hs])
    have : cr.zeroCase w s.cur.pc.toNat (s.activeLanes.map (·.1.tid)) reader source ≠ none := by
      unfold Crew.zeroCase
      rw [hr, hno]
      cases Table.get? cr.threads source with
      | none => simp
      | some u => simp only; split_ifs <;> simp_all
    simp only [Option.map_none]
    split
    · exact absurd ‹_› this
    · rfl
  | some e =>
    have hm := List.mem_of_find?_eq_some h
    have ht : e.1.tid = source := by simpa using List.find?_some h
    obtain ⟨h1, h2, h3⟩ := hlive e hm
    have hg := hgroup e hm
    rw [ht] at h1 hg
    have hz : cr.zeroCase w s.cur.pc.toNat (s.activeLanes.map (·.1.tid)) reader source = none := by
      unfold Crew.zeroCase
      rw [hr, h1]
      have : (s.activeLanes.map (·.1.tid)).contains source = true := by
        simp only [List.contains_eq_mem, List.mem_map, decide_eq_true_eq]
        exact ⟨e, hm, ht⟩
      simp only [hg, h2, h3, this, ne_eq, not_true_eq_false, if_false, if_true, Bool.false_eq_true]
    simp only [Option.map_some, hz, h1]

end Sys2Proof.Machine
end

