-- ==== Sys2Proof/Laws/Memory.lean ====
section
/-! SUPPORT. Laws of the finite tables and of memory: read after write, the canonical form, and that every memory
operation keeps it. -/

namespace Sys2Proof

/-! ## Tables -/

theorem Table.get?_put {α : Type} (t : Table α) (k j : Nat) (v : α) :
    Table.get? (Table.put t k v) j = if j = k then some v else Table.get? t j := by
  induction t with
  | nil => simp [Table.put, Table.get?, eq_comm]
  | cons e t ih =>
    obtain ⟨i, u⟩ := e
    simp only [Table.put]
    split
    · simp [Table.get?, eq_comm]
    · split
      · subst_vars; simp only [Table.get?]; split <;> simp_all [eq_comm]
      · simp only [Table.get?, ih]; split <;> split <;> simp_all

@[simp] theorem Table.get?_put_self {α : Type} (t : Table α) (k : Nat) (v : α) :
    Table.get? (Table.put t k v) k = some v := by simp [Table.get?_put]

theorem Table.get?_adjust {α : Type} (t : Table α) (k j : Nat) (f : α → α) :
    Table.get? (Table.adjust t k f) j = if j = k then (Table.get? t j).map f else Table.get? t j := by
  induction t with
  | nil => simp [Table.adjust, Table.get?]
  | cons e t ih =>
    obtain ⟨i, u⟩ := e
    simp only [Table.adjust, List.map_cons] at ih ⊢
    by_cases hij : i = j
    · subst hij; by_cases hk : i = k <;> simp [Table.get?, hk]
    · by_cases hk : i = k <;> simp_all [Table.get?]

theorem Table.get?_mapVals {α : Type} (t : Table α) (j : Nat) (f : Nat → α → α) :
    Table.get? (Table.mapVals t f) j = (Table.get? t j).map (f j) := by
  induction t with
  | nil => rfl
  | cons e t ih =>
    obtain ⟨i, u⟩ := e
    simp only [Table.mapVals, List.map_cons] at ih ⊢
    by_cases hij : i = j
    · subst hij; simp [Table.get?]
    · simp [Table.get?, hij, ih]

theorem Table.get?_drop {α : Type} (t : Table α) (k j : Nat) :
    Table.get? (Table.drop t k) j = if j = k then none else Table.get? t j := by
  induction t with
  | nil => simp [Table.drop, Table.get?]
  | cons e t ih =>
    obtain ⟨i, u⟩ := e
    simp only [Table.drop]
    by_cases hik : i = k
    · subst hik
      simp only [if_true, ih, Table.get?]
      by_cases hj : j = i <;> simp [hj, Ne.symm, eq_comm]
    · simp only [if_neg hik, Table.get?, ih]
      by_cases hij : i = j
      · subst hij; simp [hik]
      · simp [hij]

theorem Table.risingFrom_mono {α : Type} (t : Table α) (lo hi : Nat) (h : Table.risingFrom hi t = true) (hl : lo ≤ hi) :
    Table.risingFrom lo t = true := by
  cases t with
  | nil => rfl
  | cons e t =>
    simp only [Table.risingFrom, Bool.and_eq_true, decide_eq_true_eq] at h ⊢
    exact ⟨by omega, h.2⟩

theorem Table.rising_put {α : Type} (t : Table α) (lo k : Nat) (v : α) (h : Table.risingFrom lo t = true) (hk : lo ≤ k) :
    Table.risingFrom lo (Table.put t k v) = true := by
  induction t generalizing lo with
  | nil => simp [Table.put, Table.risingFrom, hk]
  | cons e t ih =>
    obtain ⟨i, u⟩ := e
    simp only [Table.risingFrom, Bool.and_eq_true, decide_eq_true_eq] at h
    simp only [Table.put]
    split
    · simp only [Table.risingFrom, Bool.and_eq_true, decide_eq_true_eq]; exact ⟨hk, by omega, h.2⟩
    · split
      · subst_vars; simp only [Table.risingFrom, Bool.and_eq_true, decide_eq_true_eq]; exact ⟨hk, h.2⟩
      · simp only [Table.risingFrom, Bool.and_eq_true, decide_eq_true_eq]; exact ⟨h.1, ih _ h.2 (by omega)⟩

theorem Table.rising_drop {α : Type} (t : Table α) (lo k : Nat) (h : Table.risingFrom lo t = true) :
    Table.risingFrom lo (Table.drop t k) = true := by
  induction t generalizing lo with
  | nil => rfl
  | cons e t ih =>
    obtain ⟨i, u⟩ := e
    simp only [Table.risingFrom, Bool.and_eq_true, decide_eq_true_eq] at h
    simp only [Table.drop]
    split
    · exact Table.risingFrom_mono _ lo (i + 1) (ih _ h.2) (by omega)
    · simp only [Table.risingFrom, Bool.and_eq_true, decide_eq_true_eq]; exact ⟨h.1, ih _ h.2⟩

theorem Table.mem_put {α : Type} (t : Table α) (k : Nat) (v : α) (e : Nat × α) (h : e ∈ Table.put t k v) :
    e = (k, v) ∨ e ∈ t := by
  induction t with
  | nil => simpa [Table.put] using h
  | cons d t ih =>
    obtain ⟨i, u⟩ := d
    simp only [Table.put] at h
    split at h
    · simpa using h
    · split at h
      · simp only [List.mem_cons] at h ⊢; tauto
      · simp only [List.mem_cons] at h ⊢; rcases h with h | h
        · tauto
        · rcases ih h with h | h <;> tauto

theorem Table.mem_drop {α : Type} (t : Table α) (k : Nat) (e : Nat × α) (h : e ∈ Table.drop t k) : e ∈ t := by
  induction t with
  | nil => simp [Table.drop] at h
  | cons d t ih =>
    obtain ⟨i, u⟩ := d
    simp only [Table.drop] at h
    split at h
    · exact List.mem_cons_of_mem _ (ih h)
    · simp only [List.mem_cons] at h ⊢; tauto

/-! ## Sparse tables -/

theorem Sparse.get_set {α : Type} [DecidableEq α] (d : α) (t : Sparse α) (k j : Nat) (v : α) :
    Sparse.get d (Sparse.set d t k v) j = if j = k then v else Sparse.get d t j := by
  unfold Sparse.get Sparse.set
  split
  · rw [Table.get?_drop]; split <;> simp_all
  · rw [Table.get?_put]; split <;> simp

theorem Sparse.wf_set {α : Type} [DecidableEq α] (d : α) (t : Sparse α) (k : Nat) (v : α) (h : Sparse.wf d t = true) :
    Sparse.wf d (Sparse.set d t k v) = true := by
  simp only [Sparse.wf, Bool.and_eq_true, List.all_eq_true, decide_eq_true_eq] at h ⊢
  unfold Sparse.set
  split
  · exact ⟨Table.rising_drop t 0 k h.1, fun e he => h.2 e (Table.mem_drop t k e he)⟩
  · rename_i hv
    refine ⟨Table.rising_put t 0 k v h.1 (by omega), fun e he => ?_⟩
    rcases Table.mem_put t k v e he with rfl | he
    · exact hv
    · exact h.2 e he

/-! ## Memory -/

/-- A write keeps the canonical form. -/
theorem Memory.wf_write (m : Sparse Byte) (a : Nat) (b : Byte) (h : Memory.wf m = true) :
    Memory.wf (Mem.write m a b) = true := Sparse.wf_set _ m a b h

/-- A write of a run of bytes keeps the canonical form. -/
theorem Memory.wf_writeBytes (m : Sparse Byte) (a : Nat) (bs : List Byte) (h : Memory.wf m = true) :
    Memory.wf (Mem.writeBytes m a bs) = true := by
  induction bs generalizing m a with
  | nil => exact h
  | cons b bs ih => exact ih _ _ (Memory.wf_write m a b h)

theorem Memory.wf_writeNat (m : Sparse Byte) (a n v : Nat) (h : Memory.wf m = true) :
    Memory.wf (Mem.writeNat m a n v) = true := Memory.wf_writeBytes m a _ h

@[simp] theorem Memory.wf_nil : Memory.wf [] = true := rfl

/-- Read after write, one byte. -/
theorem Mem.read_write (m : Sparse Byte) (a x : Nat) (b : Byte) :
    Mem.read (Mem.write m a b) x = if x = a then b else Mem.read m x :=
  Sparse.get_set _ m a x b

/-- Read after write of a run: the written byte inside the run, the old byte outside it. -/
theorem Mem.read_writeBytes (m : Sparse Byte) (a x : Nat) (bs : List Byte) :
    Mem.read (Mem.writeBytes m a bs) x =
      if a ≤ x ∧ x < a + bs.length then bs.getD (x - a) 0#8 else Mem.read m x := by
  induction bs generalizing m a with
  | nil => simp [Mem.writeBytes]
  | cons b bs ih =>
    simp only [Mem.writeBytes, ih, Mem.read_write, List.length_cons]
    by_cases hx : x = a
    · subst hx; rw [if_neg (by omega), if_pos rfl, if_pos (by omega)]; simp
    · by_cases hr : a + 1 ≤ x ∧ x < a + 1 + bs.length
      · rw [if_pos hr, if_pos (by omega)]
        obtain ⟨d, rfl⟩ : ∃ d, x = a + 1 + d := ⟨x - (a + 1), by omega⟩
        have h1 : a + 1 + d - (a + 1) = d := by omega
        have h2 : a + 1 + d - a = d + 1 := by omega
        simp [h1, h2]
      · rw [if_neg hr, if_neg hx, if_neg (by omega)]

@[simp] theorem Mem.readBytes_length (m : Sparse Byte) (a n : Nat) : (Mem.readBytes m a n).length = n := by
  induction n generalizing a with
  | zero => rfl
  | succ n ih => simp [Mem.readBytes, ih]

@[simp] theorem leBytes_length (v n : Nat) : (leBytes v n).length = n := by
  induction n generalizing v with
  | zero => rfl
  | succ n ih => simp [leBytes, ih]

/-- Byte i of a run that is read. -/
theorem Mem.readBytes_getD (m : Sparse Byte) (a n i : Nat) (h : i < n) :
    (Mem.readBytes m a n).getD i 0#8 = Mem.read m (a + i) := by
  induction n generalizing a i with
  | zero => omega
  | succ n ih =>
    cases i with
    | zero => rfl
    | succ i => simp only [Mem.readBytes, List.getD_cons_succ]; rw [ih _ _ (by omega)]; congr 1; omega

/-- The little-endian bytes of a number give it back. -/
theorem leNat_leBytes (v n : Nat) : leNat (leBytes v n) = v % 256 ^ n := by
  induction n generalizing v with
  | zero => simp [leBytes, leNat, Nat.mod_one]
  | succ n ih =>
    simp only [leBytes, leNat, ih, BitVec.toNat_ofNat]
    rw [show 256 ^ (n + 1) = 256 * 256 ^ n by rw [Nat.pow_succ, Nat.mul_comm], Nat.mod_mul]

/-- A read of exactly the bytes that a run's write has stored. -/
theorem Mem.readBytes_writeBytes_same (m : Sparse Byte) (a : Nat) (bs : List Byte) :
    Mem.readBytes (Mem.writeBytes m a bs) a bs.length = bs := by
  apply List.ext_getElem (by simp)
  intro i h1 h2
  have e1 := Mem.readBytes_getD (Mem.writeBytes m a bs) a bs.length i h2
  rw [Mem.read_writeBytes m a (a + i) bs, if_pos (by omega)] at e1
  simp only [List.getD_eq_getElem?_getD, Nat.add_sub_cancel_left] at e1
  simpa [h1, h2] using e1

theorem Mem.readNat_writeNat_same (m : Sparse Byte) (a n v : Nat) :
    Mem.readNat (Mem.writeNat m a n v) a n = v % 256 ^ n := by
  have := Mem.readBytes_writeBytes_same m a (leBytes v n)
  simp only [leBytes_length] at this
  simp [Mem.readNat, Mem.writeNat, this, leNat_leBytes]

end Sys2Proof
end

