-- ==== Sys2Proof/Laws/State.lean ====
section
/-! SUPPORT. What each update of the state, of a crew and of a thread leaves and what it changes, one lemma for a field,
so that no proof unfolds a record update. -/

namespace Sys2Proof.Machine

open Sys2Proof

/-! ### A crew replaced -/

@[simp] theorem State.modCrew_now (s : State) (c : Nat) (f : Crew → Crew) : (s.modCrew c f).now = s.now := rfl
@[simp] theorem State.modCrew_agenda (s : State) (c : Nat) (f : Crew → Crew) : (s.modCrew c f).agenda = s.agenda := rfl
@[simp] theorem State.modCrew_cur (s : State) (c : Nat) (f : Crew → Crew) : (s.modCrew c f).cur = s.cur := rfl
@[simp] theorem State.modCrew_freeIx (s : State) (c : Nat) (f : Crew → Crew) : (s.modCrew c f).freeIx = s.freeIx := rfl
@[simp] theorem State.modCrew_nextId (s : State) (c : Nat) (f : Crew → Crew) : (s.modCrew c f).nextId = s.nextId := rfl
@[simp] theorem State.modCrew_nextSeq (s : State) (c : Nat) (f : Crew → Crew) : (s.modCrew c f).nextSeq = s.nextSeq := rfl
@[simp] theorem State.modCrew_stopped (s : State) (c : Nat) (f : Crew → Crew) : (s.modCrew c f).stopped = s.stopped := rfl
@[simp] theorem State.modCrew_clusters (s : State) (c : Nat) (f : Crew → Crew) : (s.modCrew c f).clusters = s.clusters := rfl
@[simp] theorem State.modCrew_crews (s : State) (c : Nat) (f : Crew → Crew) : (s.modCrew c f).crews = Table.adjust s.crews c f := rfl
@[simp] theorem State.modCrew_launches (s : State) (c : Nat) (f : Crew → Crew) : (s.modCrew c f).launches = s.launches := rfl
@[simp] theorem State.modCrew_contexts (s : State) (c : Nat) (f : Crew → Crew) : (s.modCrew c f).contexts = s.contexts := rfl
@[simp] theorem State.modCrew_copies (s : State) (c : Nat) (f : Crew → Crew) : (s.modCrew c f).copies = s.copies := rfl
@[simp] theorem State.modCrew_elems (s : State) (c : Nat) (f : Crew → Crew) : (s.modCrew c f).elems = s.elems := rfl
@[simp] theorem State.modCrew_fars (s : State) (c : Nat) (f : Crew → Crew) : (s.modCrew c f).fars = s.fars := rfl
@[simp] theorem State.modCrew_xlates (s : State) (c : Nat) (f : Crew → Crew) : (s.modCrew c f).xlates = s.xlates := rfl
@[simp] theorem State.modCrew_calls (s : State) (c : Nat) (f : Crew → Crew) : (s.modCrew c f).calls = s.calls := rfl
@[simp] theorem State.modCrew_colops (s : State) (c : Nat) (f : Crew → Crew) : (s.modCrew c f).colops = s.colops := rfl
@[simp] theorem State.modCrew_devMem (s : State) (c : Nat) (f : Crew → Crew) : (s.modCrew c f).devMem = s.devMem := rfl
@[simp] theorem State.modCrew_hostMem (s : State) (c : Nat) (f : Crew → Crew) : (s.modCrew c f).hostMem = s.hostMem := rfl
@[simp] theorem State.modCrew_peerMem (s : State) (c : Nat) (f : Crew → Crew) : (s.modCrew c f).peerMem = s.peerMem := rfl
@[simp] theorem State.modCrew_nextFrame (s : State) (c : Nat) (f : Crew → Crew) : (s.modCrew c f).nextFrame = s.nextFrame := rfl
@[simp] theorem State.modCrew_mainPoison (s : State) (c : Nat) (f : Crew → Crew) : (s.modCrew c f).mainPoison = s.mainPoison := rfl
@[simp] theorem State.modCrew_corrected (s : State) (c : Nat) (f : Crew → Crew) : (s.modCrew c f).corrected = s.corrected := rfl
@[simp] theorem State.modCrew_hostPages (s : State) (c : Nat) (f : Crew → Crew) : (s.modCrew c f).hostPages = s.hostPages := rfl
@[simp] theorem State.modCrew_tlb (s : State) (c : Nat) (f : Crew → Crew) : (s.modCrew c f).tlb = s.tlb := rfl
@[simp] theorem State.modCrew_fns (s : State) (c : Nat) (f : Crew → Crew) : (s.modCrew c f).fns = s.fns := rfl
@[simp] theorem State.modCrew_slice (s : State) (c : Nat) (f : Crew → Crew) : (s.modCrew c f).slice = s.slice := rfl
@[simp] theorem State.modCrew_sliceStart (s : State) (c : Nat) (f : Crew → Crew) : (s.modCrew c f).sliceStart = s.sliceStart := rfl
@[simp] theorem State.modCrew_sliceSaving (s : State) (c : Nat) (f : Crew → Crew) : (s.modCrew c f).sliceSaving = s.sliceSaving := rfl
@[simp] theorem State.modCrew_deviceLog (s : State) (c : Nat) (f : Crew → Crew) : (s.modCrew c f).deviceLog = s.deviceLog := rfl
@[simp] theorem State.modCrew_link (s : State) (c : Nat) (f : Crew → Crew) : (s.modCrew c f).link = s.link := rfl
@[simp] theorem State.modCrew_hostAtomics (s : State) (c : Nat) (f : Crew → Crew) : (s.modCrew c f).hostAtomics = s.hostAtomics := rfl
@[simp] theorem State.modCrew_boot (s : State) (c : Nat) (f : Crew → Crew) : (s.modCrew c f).boot = s.boot := rfl
@[simp] theorem State.modCrew_fuseVersion (s : State) (c : Nat) (f : Crew → Crew) : (s.modCrew c f).fuseVersion = s.fuseVersion := rfl
@[simp] theorem State.modCrew_fuseRsa (s : State) (c : Nat) (f : Crew → Crew) : (s.modCrew c f).fuseRsa = s.fuseRsa := rfl
@[simp] theorem State.modCrew_fuseSlh (s : State) (c : Nat) (f : Crew → Crew) : (s.modCrew c f).fuseSlh = s.fuseSlh := rfl
@[simp] theorem State.modCrew_images (s : State) (c : Nat) (f : Crew → Crew) : (s.modCrew c f).images = s.images := rfl
@[simp] theorem State.modCrew_boots (s : State) (c : Nat) (f : Crew → Crew) : (s.modCrew c f).boots = s.boots := rfl
@[simp] theorem State.modCrew_podRoot (s : State) (c : Nat) (f : Crew → Crew) : (s.modCrew c f).podRoot = s.podRoot := rfl
@[simp] theorem State.modCrew_podParent (s : State) (c : Nat) (f : Crew → Crew) : (s.modCrew c f).podParent = s.podParent := rfl
@[simp] theorem State.modCrew_podChildren (s : State) (c : Nat) (f : Crew → Crew) : (s.modCrew c f).podChildren = s.podChildren := rfl
@[simp] theorem State.modCrew_podTried (s : State) (c : Nat) (f : Crew → Crew) : (s.modCrew c f).podTried = s.podTried := rfl
@[simp] theorem State.modCrew_podHeard (s : State) (c : Nat) (f : Crew → Crew) : (s.modCrew c f).podHeard = s.podHeard := rfl
@[simp] theorem State.modCrew_module (s : State) (c : Nat) (f : Crew → Crew) : (s.modCrew c f).module = s.module := rfl
@[simp] theorem State.modCrew_capBoot (s : State) (c : Nat) (f : Crew → Crew) : (s.modCrew c f).capBoot = s.capBoot := rfl
@[simp] theorem State.modCrew_ramp (s : State) (c : Nat) (f : Crew → Crew) : (s.modCrew c f).ramp = s.ramp := rfl
@[simp] theorem State.modCrew_cap (s : State) (c : Nat) (f : Crew → Crew) : (s.modCrew c f).cap = s.cap := rfl
@[simp] theorem State.modCrew_capNow (s : State) (c : Nat) (f : Crew → Crew) : (s.modCrew c f).capNow = s.capNow := rfl
@[simp] theorem State.modCrew_draw (s : State) (c : Nat) (f : Crew → Crew) : (s.modCrew c f).draw = s.draw := rfl
@[simp] theorem State.modCrew_ballastWatts (s : State) (c : Nat) (f : Crew → Crew) : (s.modCrew c f).ballastWatts = s.ballastWatts := rfl
@[simp] theorem State.modCrew_draws (s : State) (c : Nat) (f : Crew → Crew) : (s.modCrew c f).draws = s.draws := rfl
@[simp] theorem State.modCrew_lastTick (s : State) (c : Nat) (f : Crew → Crew) : (s.modCrew c f).lastTick = s.lastTick := rfl
@[simp] theorem State.modCrew_budget (s : State) (c : Nat) (f : Crew → Crew) : (s.modCrew c f).budget = s.budget := rfl
@[simp] theorem State.modCrew_ports (s : State) (c : Nat) (f : Crew → Crew) : (s.modCrew c f).ports = s.ports := rfl
@[simp] theorem State.modCrew_gangs (s : State) (c : Nat) (f : Crew → Crew) : (s.modCrew c f).gangs = s.gangs := rfl
@[simp] theorem State.modCrew_attendants (s : State) (c : Nat) (f : Crew → Crew) : (s.modCrew c f).attendants = s.attendants := rfl
@[simp] theorem State.modCrew_curCore (s : State) (c : Nat) (f : Crew → Crew) : (s.modCrew c f).curCore = s.curCore := rfl
@[simp] theorem State.modCrew_sent (s : State) (c : Nat) (f : Crew → Crew) : (s.modCrew c f).sent = s.sent := rfl

/-! ### A launch replaced -/

@[simp] theorem State.modLaunch_now (s : State) (l : Nat) (f : Launch → Launch) : (s.modLaunch l f).now = s.now := rfl
@[simp] theorem State.modLaunch_agenda (s : State) (l : Nat) (f : Launch → Launch) : (s.modLaunch l f).agenda = s.agenda := rfl
@[simp] theorem State.modLaunch_cur (s : State) (l : Nat) (f : Launch → Launch) : (s.modLaunch l f).cur = s.cur := rfl
@[simp] theorem State.modLaunch_freeIx (s : State) (l : Nat) (f : Launch → Launch) : (s.modLaunch l f).freeIx = s.freeIx := rfl
@[simp] theorem State.modLaunch_nextId (s : State) (l : Nat) (f : Launch → Launch) : (s.modLaunch l f).nextId = s.nextId := rfl
@[simp] theorem State.modLaunch_nextSeq (s : State) (l : Nat) (f : Launch → Launch) : (s.modLaunch l f).nextSeq = s.nextSeq := rfl
@[simp] theorem State.modLaunch_stopped (s : State) (l : Nat) (f : Launch → Launch) : (s.modLaunch l f).stopped = s.stopped := rfl
@[simp] theorem State.modLaunch_clusters (s : State) (l : Nat) (f : Launch → Launch) : (s.modLaunch l f).clusters = s.clusters := rfl
@[simp] theorem State.modLaunch_crews (s : State) (l : Nat) (f : Launch → Launch) : (s.modLaunch l f).crews = s.crews := rfl
@[simp] theorem State.modLaunch_launches (s : State) (l : Nat) (f : Launch → Launch) : (s.modLaunch l f).launches = Table.adjust s.launches l f := rfl
@[simp] theorem State.modLaunch_contexts (s : State) (l : Nat) (f : Launch → Launch) : (s.modLaunch l f).contexts = s.contexts := rfl
@[simp] theorem State.modLaunch_copies (s : State) (l : Nat) (f : Launch → Launch) : (s.modLaunch l f).copies = s.copies := rfl
@[simp] theorem State.modLaunch_elems (s : State) (l : Nat) (f : Launch → Launch) : (s.modLaunch l f).elems = s.elems := rfl
@[simp] theorem State.modLaunch_fars (s : State) (l : Nat) (f : Launch → Launch) : (s.modLaunch l f).fars = s.fars := rfl
@[simp] theorem State.modLaunch_xlates (s : State) (l : Nat) (f : Launch → Launch) : (s.modLaunch l f).xlates = s.xlates := rfl
@[simp] theorem State.modLaunch_calls (s : State) (l : Nat) (f : Launch → Launch) : (s.modLaunch l f).calls = s.calls := rfl
@[simp] theorem State.modLaunch_colops (s : State) (l : Nat) (f : Launch → Launch) : (s.modLaunch l f).colops = s.colops := rfl
@[simp] theorem State.modLaunch_devMem (s : State) (l : Nat) (f : Launch → Launch) : (s.modLaunch l f).devMem = s.devMem := rfl
@[simp] theorem State.modLaunch_hostMem (s : State) (l : Nat) (f : Launch → Launch) : (s.modLaunch l f).hostMem = s.hostMem := rfl
@[simp] theorem State.modLaunch_peerMem (s : State) (l : Nat) (f : Launch → Launch) : (s.modLaunch l f).peerMem = s.peerMem := rfl
@[simp] theorem State.modLaunch_nextFrame (s : State) (l : Nat) (f : Launch → Launch) : (s.modLaunch l f).nextFrame = s.nextFrame := rfl
@[simp] theorem State.modLaunch_mainPoison (s : State) (l : Nat) (f : Launch → Launch) : (s.modLaunch l f).mainPoison = s.mainPoison := rfl
@[simp] theorem State.modLaunch_corrected (s : State) (l : Nat) (f : Launch → Launch) : (s.modLaunch l f).corrected = s.corrected := rfl
@[simp] theorem State.modLaunch_hostPages (s : State) (l : Nat) (f : Launch → Launch) : (s.modLaunch l f).hostPages = s.hostPages := rfl
@[simp] theorem State.modLaunch_tlb (s : State) (l : Nat) (f : Launch → Launch) : (s.modLaunch l f).tlb = s.tlb := rfl
@[simp] theorem State.modLaunch_fns (s : State) (l : Nat) (f : Launch → Launch) : (s.modLaunch l f).fns = s.fns := rfl
@[simp] theorem State.modLaunch_slice (s : State) (l : Nat) (f : Launch → Launch) : (s.modLaunch l f).slice = s.slice := rfl
@[simp] theorem State.modLaunch_sliceStart (s : State) (l : Nat) (f : Launch → Launch) : (s.modLaunch l f).sliceStart = s.sliceStart := rfl
@[simp] theorem State.modLaunch_sliceSaving (s : State) (l : Nat) (f : Launch → Launch) : (s.modLaunch l f).sliceSaving = s.sliceSaving := rfl
@[simp] theorem State.modLaunch_deviceLog (s : State) (l : Nat) (f : Launch → Launch) : (s.modLaunch l f).deviceLog = s.deviceLog := rfl
@[simp] theorem State.modLaunch_link (s : State) (l : Nat) (f : Launch → Launch) : (s.modLaunch l f).link = s.link := rfl
@[simp] theorem State.modLaunch_hostAtomics (s : State) (l : Nat) (f : Launch → Launch) : (s.modLaunch l f).hostAtomics = s.hostAtomics := rfl
@[simp] theorem State.modLaunch_boot (s : State) (l : Nat) (f : Launch → Launch) : (s.modLaunch l f).boot = s.boot := rfl
@[simp] theorem State.modLaunch_fuseVersion (s : State) (l : Nat) (f : Launch → Launch) : (s.modLaunch l f).fuseVersion = s.fuseVersion := rfl
@[simp] theorem State.modLaunch_fuseRsa (s : State) (l : Nat) (f : Launch → Launch) : (s.modLaunch l f).fuseRsa = s.fuseRsa := rfl
@[simp] theorem State.modLaunch_fuseSlh (s : State) (l : Nat) (f : Launch → Launch) : (s.modLaunch l f).fuseSlh = s.fuseSlh := rfl
@[simp] theorem State.modLaunch_images (s : State) (l : Nat) (f : Launch → Launch) : (s.modLaunch l f).images = s.images := rfl
@[simp] theorem State.modLaunch_boots (s : State) (l : Nat) (f : Launch → Launch) : (s.modLaunch l f).boots = s.boots := rfl
@[simp] theorem State.modLaunch_podRoot (s : State) (l : Nat) (f : Launch → Launch) : (s.modLaunch l f).podRoot = s.podRoot := rfl
@[simp] theorem State.modLaunch_podParent (s : State) (l : Nat) (f : Launch → Launch) : (s.modLaunch l f).podParent = s.podParent := rfl
@[simp] theorem State.modLaunch_podChildren (s : State) (l : Nat) (f : Launch → Launch) : (s.modLaunch l f).podChildren = s.podChildren := rfl
@[simp] theorem State.modLaunch_podTried (s : State) (l : Nat) (f : Launch → Launch) : (s.modLaunch l f).podTried = s.podTried := rfl
@[simp] theorem State.modLaunch_podHeard (s : State) (l : Nat) (f : Launch → Launch) : (s.modLaunch l f).podHeard = s.podHeard := rfl
@[simp] theorem State.modLaunch_module (s : State) (l : Nat) (f : Launch → Launch) : (s.modLaunch l f).module = s.module := rfl
@[simp] theorem State.modLaunch_capBoot (s : State) (l : Nat) (f : Launch → Launch) : (s.modLaunch l f).capBoot = s.capBoot := rfl
@[simp] theorem State.modLaunch_ramp (s : State) (l : Nat) (f : Launch → Launch) : (s.modLaunch l f).ramp = s.ramp := rfl
@[simp] theorem State.modLaunch_cap (s : State) (l : Nat) (f : Launch → Launch) : (s.modLaunch l f).cap = s.cap := rfl
@[simp] theorem State.modLaunch_capNow (s : State) (l : Nat) (f : Launch → Launch) : (s.modLaunch l f).capNow = s.capNow := rfl
@[simp] theorem State.modLaunch_draw (s : State) (l : Nat) (f : Launch → Launch) : (s.modLaunch l f).draw = s.draw := rfl
@[simp] theorem State.modLaunch_ballastWatts (s : State) (l : Nat) (f : Launch → Launch) : (s.modLaunch l f).ballastWatts = s.ballastWatts := rfl
@[simp] theorem State.modLaunch_draws (s : State) (l : Nat) (f : Launch → Launch) : (s.modLaunch l f).draws = s.draws := rfl
@[simp] theorem State.modLaunch_lastTick (s : State) (l : Nat) (f : Launch → Launch) : (s.modLaunch l f).lastTick = s.lastTick := rfl
@[simp] theorem State.modLaunch_budget (s : State) (l : Nat) (f : Launch → Launch) : (s.modLaunch l f).budget = s.budget := rfl
@[simp] theorem State.modLaunch_ports (s : State) (l : Nat) (f : Launch → Launch) : (s.modLaunch l f).ports = s.ports := rfl
@[simp] theorem State.modLaunch_gangs (s : State) (l : Nat) (f : Launch → Launch) : (s.modLaunch l f).gangs = s.gangs := rfl
@[simp] theorem State.modLaunch_attendants (s : State) (l : Nat) (f : Launch → Launch) : (s.modLaunch l f).attendants = s.attendants := rfl
@[simp] theorem State.modLaunch_curCore (s : State) (l : Nat) (f : Launch → Launch) : (s.modLaunch l f).curCore = s.curCore := rfl
@[simp] theorem State.modLaunch_sent (s : State) (l : Nat) (f : Launch → Launch) : (s.modLaunch l f).sent = s.sent := rfl

/-! ### A context replaced -/

@[simp] theorem State.modContext_now (s : State) (x : Nat) (f : Context → Context) : (s.modContext x f).now = s.now := rfl
@[simp] theorem State.modContext_agenda (s : State) (x : Nat) (f : Context → Context) : (s.modContext x f).agenda = s.agenda := rfl
@[simp] theorem State.modContext_cur (s : State) (x : Nat) (f : Context → Context) : (s.modContext x f).cur = s.cur := rfl
@[simp] theorem State.modContext_freeIx (s : State) (x : Nat) (f : Context → Context) : (s.modContext x f).freeIx = s.freeIx := rfl
@[simp] theorem State.modContext_nextId (s : State) (x : Nat) (f : Context → Context) : (s.modContext x f).nextId = s.nextId := rfl
@[simp] theorem State.modContext_nextSeq (s : State) (x : Nat) (f : Context → Context) : (s.modContext x f).nextSeq = s.nextSeq := rfl
@[simp] theorem State.modContext_stopped (s : State) (x : Nat) (f : Context → Context) : (s.modContext x f).stopped = s.stopped := rfl
@[simp] theorem State.modContext_clusters (s : State) (x : Nat) (f : Context → Context) : (s.modContext x f).clusters = s.clusters := rfl
@[simp] theorem State.modContext_crews (s : State) (x : Nat) (f : Context → Context) : (s.modContext x f).crews = s.crews := rfl
@[simp] theorem State.modContext_launches (s : State) (x : Nat) (f : Context → Context) : (s.modContext x f).launches = s.launches := rfl
@[simp] theorem State.modContext_contexts (s : State) (x : Nat) (f : Context → Context) : (s.modContext x f).contexts = Table.adjust s.contexts x f := rfl
@[simp] theorem State.modContext_copies (s : State) (x : Nat) (f : Context → Context) : (s.modContext x f).copies = s.copies := rfl
@[simp] theorem State.modContext_elems (s : State) (x : Nat) (f : Context → Context) : (s.modContext x f).elems = s.elems := rfl
@[simp] theorem State.modContext_fars (s : State) (x : Nat) (f : Context → Context) : (s.modContext x f).fars = s.fars := rfl
@[simp] theorem State.modContext_xlates (s : State) (x : Nat) (f : Context → Context) : (s.modContext x f).xlates = s.xlates := rfl
@[simp] theorem State.modContext_calls (s : State) (x : Nat) (f : Context → Context) : (s.modContext x f).calls = s.calls := rfl
@[simp] theorem State.modContext_colops (s : State) (x : Nat) (f : Context → Context) : (s.modContext x f).colops = s.colops := rfl
@[simp] theorem State.modContext_devMem (s : State) (x : Nat) (f : Context → Context) : (s.modContext x f).devMem = s.devMem := rfl
@[simp] theorem State.modContext_hostMem (s : State) (x : Nat) (f : Context → Context) : (s.modContext x f).hostMem = s.hostMem := rfl
@[simp] theorem State.modContext_peerMem (s : State) (x : Nat) (f : Context → Context) : (s.modContext x f).peerMem = s.peerMem := rfl
@[simp] theorem State.modContext_nextFrame (s : State) (x : Nat) (f : Context → Context) : (s.modContext x f).nextFrame = s.nextFrame := rfl
@[simp] theorem State.modContext_mainPoison (s : State) (x : Nat) (f : Context → Context) : (s.modContext x f).mainPoison = s.mainPoison := rfl
@[simp] theorem State.modContext_corrected (s : State) (x : Nat) (f : Context → Context) : (s.modContext x f).corrected = s.corrected := rfl
@[simp] theorem State.modContext_hostPages (s : State) (x : Nat) (f : Context → Context) : (s.modContext x f).hostPages = s.hostPages := rfl
@[simp] theorem State.modContext_tlb (s : State) (x : Nat) (f : Context → Context) : (s.modContext x f).tlb = s.tlb := rfl
@[simp] theorem State.modContext_fns (s : State) (x : Nat) (f : Context → Context) : (s.modContext x f).fns = s.fns := rfl
@[simp] theorem State.modContext_slice (s : State) (x : Nat) (f : Context → Context) : (s.modContext x f).slice = s.slice := rfl
@[simp] theorem State.modContext_sliceStart (s : State) (x : Nat) (f : Context → Context) : (s.modContext x f).sliceStart = s.sliceStart := rfl
@[simp] theorem State.modContext_sliceSaving (s : State) (x : Nat) (f : Context → Context) : (s.modContext x f).sliceSaving = s.sliceSaving := rfl
@[simp] theorem State.modContext_deviceLog (s : State) (x : Nat) (f : Context → Context) : (s.modContext x f).deviceLog = s.deviceLog := rfl
@[simp] theorem State.modContext_link (s : State) (x : Nat) (f : Context → Context) : (s.modContext x f).link = s.link := rfl
@[simp] theorem State.modContext_hostAtomics (s : State) (x : Nat) (f : Context → Context) : (s.modContext x f).hostAtomics = s.hostAtomics := rfl
@[simp] theorem State.modContext_boot (s : State) (x : Nat) (f : Context → Context) : (s.modContext x f).boot = s.boot := rfl
@[simp] theorem State.modContext_fuseVersion (s : State) (x : Nat) (f : Context → Context) : (s.modContext x f).fuseVersion = s.fuseVersion := rfl
@[simp] theorem State.modContext_fuseRsa (s : State) (x : Nat) (f : Context → Context) : (s.modContext x f).fuseRsa = s.fuseRsa := rfl
@[simp] theorem State.modContext_fuseSlh (s : State) (x : Nat) (f : Context → Context) : (s.modContext x f).fuseSlh = s.fuseSlh := rfl
@[simp] theorem State.modContext_images (s : State) (x : Nat) (f : Context → Context) : (s.modContext x f).images = s.images := rfl
@[simp] theorem State.modContext_boots (s : State) (x : Nat) (f : Context → Context) : (s.modContext x f).boots = s.boots := rfl
@[simp] theorem State.modContext_podRoot (s : State) (x : Nat) (f : Context → Context) : (s.modContext x f).podRoot = s.podRoot := rfl
@[simp] theorem State.modContext_podParent (s : State) (x : Nat) (f : Context → Context) : (s.modContext x f).podParent = s.podParent := rfl
@[simp] theorem State.modContext_podChildren (s : State) (x : Nat) (f : Context → Context) : (s.modContext x f).podChildren = s.podChildren := rfl
@[simp] theorem State.modContext_podTried (s : State) (x : Nat) (f : Context → Context) : (s.modContext x f).podTried = s.podTried := rfl
@[simp] theorem State.modContext_podHeard (s : State) (x : Nat) (f : Context → Context) : (s.modContext x f).podHeard = s.podHeard := rfl
@[simp] theorem State.modContext_module (s : State) (x : Nat) (f : Context → Context) : (s.modContext x f).module = s.module := rfl
@[simp] theorem State.modContext_capBoot (s : State) (x : Nat) (f : Context → Context) : (s.modContext x f).capBoot = s.capBoot := rfl
@[simp] theorem State.modContext_ramp (s : State) (x : Nat) (f : Context → Context) : (s.modContext x f).ramp = s.ramp := rfl
@[simp] theorem State.modContext_cap (s : State) (x : Nat) (f : Context → Context) : (s.modContext x f).cap = s.cap := rfl
@[simp] theorem State.modContext_capNow (s : State) (x : Nat) (f : Context → Context) : (s.modContext x f).capNow = s.capNow := rfl
@[simp] theorem State.modContext_draw (s : State) (x : Nat) (f : Context → Context) : (s.modContext x f).draw = s.draw := rfl
@[simp] theorem State.modContext_ballastWatts (s : State) (x : Nat) (f : Context → Context) : (s.modContext x f).ballastWatts = s.ballastWatts := rfl
@[simp] theorem State.modContext_draws (s : State) (x : Nat) (f : Context → Context) : (s.modContext x f).draws = s.draws := rfl
@[simp] theorem State.modContext_lastTick (s : State) (x : Nat) (f : Context → Context) : (s.modContext x f).lastTick = s.lastTick := rfl
@[simp] theorem State.modContext_budget (s : State) (x : Nat) (f : Context → Context) : (s.modContext x f).budget = s.budget := rfl
@[simp] theorem State.modContext_ports (s : State) (x : Nat) (f : Context → Context) : (s.modContext x f).ports = s.ports := rfl
@[simp] theorem State.modContext_gangs (s : State) (x : Nat) (f : Context → Context) : (s.modContext x f).gangs = s.gangs := rfl
@[simp] theorem State.modContext_attendants (s : State) (x : Nat) (f : Context → Context) : (s.modContext x f).attendants = s.attendants := rfl
@[simp] theorem State.modContext_curCore (s : State) (x : Nat) (f : Context → Context) : (s.modContext x f).curCore = s.curCore := rfl
@[simp] theorem State.modContext_sent (s : State) (x : Nat) (f : Context → Context) : (s.modContext x f).sent = s.sent := rfl

/-! ### A cluster replaced -/

@[simp] theorem State.modCluster_now (s : State) (d k : Nat) (f : Cluster → Cluster) : (s.modCluster d k f).now = s.now := rfl
@[simp] theorem State.modCluster_agenda (s : State) (d k : Nat) (f : Cluster → Cluster) : (s.modCluster d k f).agenda = s.agenda := rfl
@[simp] theorem State.modCluster_cur (s : State) (d k : Nat) (f : Cluster → Cluster) : (s.modCluster d k f).cur = s.cur := rfl
@[simp] theorem State.modCluster_freeIx (s : State) (d k : Nat) (f : Cluster → Cluster) : (s.modCluster d k f).freeIx = s.freeIx := rfl
@[simp] theorem State.modCluster_nextId (s : State) (d k : Nat) (f : Cluster → Cluster) : (s.modCluster d k f).nextId = s.nextId := rfl
@[simp] theorem State.modCluster_nextSeq (s : State) (d k : Nat) (f : Cluster → Cluster) : (s.modCluster d k f).nextSeq = s.nextSeq := rfl
@[simp] theorem State.modCluster_stopped (s : State) (d k : Nat) (f : Cluster → Cluster) : (s.modCluster d k f).stopped = s.stopped := rfl
@[simp] theorem State.modCluster_clusters (s : State) (d k : Nat) (f : Cluster → Cluster) : (s.modCluster d k f).clusters = Table.put s.clusters (clusterKey d k) (f (s.cluster d k)) := rfl
@[simp] theorem State.modCluster_crews (s : State) (d k : Nat) (f : Cluster → Cluster) : (s.modCluster d k f).crews = s.crews := rfl
@[simp] theorem State.modCluster_launches (s : State) (d k : Nat) (f : Cluster → Cluster) : (s.modCluster d k f).launches = s.launches := rfl
@[simp] theorem State.modCluster_contexts (s : State) (d k : Nat) (f : Cluster → Cluster) : (s.modCluster d k f).contexts = s.contexts := rfl
@[simp] theorem State.modCluster_copies (s : State) (d k : Nat) (f : Cluster → Cluster) : (s.modCluster d k f).copies = s.copies := rfl
@[simp] theorem State.modCluster_elems (s : State) (d k : Nat) (f : Cluster → Cluster) : (s.modCluster d k f).elems = s.elems := rfl
@[simp] theorem State.modCluster_fars (s : State) (d k : Nat) (f : Cluster → Cluster) : (s.modCluster d k f).fars = s.fars := rfl
@[simp] theorem State.modCluster_xlates (s : State) (d k : Nat) (f : Cluster → Cluster) : (s.modCluster d k f).xlates = s.xlates := rfl
@[simp] theorem State.modCluster_calls (s : State) (d k : Nat) (f : Cluster → Cluster) : (s.modCluster d k f).calls = s.calls := rfl
@[simp] theorem State.modCluster_colops (s : State) (d k : Nat) (f : Cluster → Cluster) : (s.modCluster d k f).colops = s.colops := rfl
@[simp] theorem State.modCluster_devMem (s : State) (d k : Nat) (f : Cluster → Cluster) : (s.modCluster d k f).devMem = s.devMem := rfl
@[simp] theorem State.modCluster_hostMem (s : State) (d k : Nat) (f : Cluster → Cluster) : (s.modCluster d k f).hostMem = s.hostMem := rfl
@[simp] theorem State.modCluster_peerMem (s : State) (d k : Nat) (f : Cluster → Cluster) : (s.modCluster d k f).peerMem = s.peerMem := rfl
@[simp] theorem State.modCluster_nextFrame (s : State) (d k : Nat) (f : Cluster → Cluster) : (s.modCluster d k f).nextFrame = s.nextFrame := rfl
@[simp] theorem State.modCluster_mainPoison (s : State) (d k : Nat) (f : Cluster → Cluster) : (s.modCluster d k f).mainPoison = s.mainPoison := rfl
@[simp] theorem State.modCluster_corrected (s : State) (d k : Nat) (f : Cluster → Cluster) : (s.modCluster d k f).corrected = s.corrected := rfl
@[simp] theorem State.modCluster_hostPages (s : State) (d k : Nat) (f : Cluster → Cluster) : (s.modCluster d k f).hostPages = s.hostPages := rfl
@[simp] theorem State.modCluster_tlb (s : State) (d k : Nat) (f : Cluster → Cluster) : (s.modCluster d k f).tlb = s.tlb := rfl
@[simp] theorem State.modCluster_fns (s : State) (d k : Nat) (f : Cluster → Cluster) : (s.modCluster d k f).fns = s.fns := rfl
@[simp] theorem State.modCluster_slice (s : State) (d k : Nat) (f : Cluster → Cluster) : (s.modCluster d k f).slice = s.slice := rfl
@[simp] theorem State.modCluster_sliceStart (s : State) (d k : Nat) (f : Cluster → Cluster) : (s.modCluster d k f).sliceStart = s.sliceStart := rfl
@[simp] theorem State.modCluster_sliceSaving (s : State) (d k : Nat) (f : Cluster → Cluster) : (s.modCluster d k f).sliceSaving = s.sliceSaving := rfl
@[simp] theorem State.modCluster_deviceLog (s : State) (d k : Nat) (f : Cluster → Cluster) : (s.modCluster d k f).deviceLog = s.deviceLog := rfl
@[simp] theorem State.modCluster_link (s : State) (d k : Nat) (f : Cluster → Cluster) : (s.modCluster d k f).link = s.link := rfl
@[simp] theorem State.modCluster_hostAtomics (s : State) (d k : Nat) (f : Cluster → Cluster) : (s.modCluster d k f).hostAtomics = s.hostAtomics := rfl
@[simp] theorem State.modCluster_boot (s : State) (d k : Nat) (f : Cluster → Cluster) : (s.modCluster d k f).boot = s.boot := rfl
@[simp] theorem State.modCluster_fuseVersion (s : State) (d k : Nat) (f : Cluster → Cluster) : (s.modCluster d k f).fuseVersion = s.fuseVersion := rfl
@[simp] theorem State.modCluster_fuseRsa (s : State) (d k : Nat) (f : Cluster → Cluster) : (s.modCluster d k f).fuseRsa = s.fuseRsa := rfl
@[simp] theorem State.modCluster_fuseSlh (s : State) (d k : Nat) (f : Cluster → Cluster) : (s.modCluster d k f).fuseSlh = s.fuseSlh := rfl
@[simp] theorem State.modCluster_images (s : State) (d k : Nat) (f : Cluster → Cluster) : (s.modCluster d k f).images = s.images := rfl
@[simp] theorem State.modCluster_boots (s : State) (d k : Nat) (f : Cluster → Cluster) : (s.modCluster d k f).boots = s.boots := rfl
@[simp] theorem State.modCluster_podRoot (s : State) (d k : Nat) (f : Cluster → Cluster) : (s.modCluster d k f).podRoot = s.podRoot := rfl
@[simp] theorem State.modCluster_podParent (s : State) (d k : Nat) (f : Cluster → Cluster) : (s.modCluster d k f).podParent = s.podParent := rfl
@[simp] theorem State.modCluster_podChildren (s : State) (d k : Nat) (f : Cluster → Cluster) : (s.modCluster d k f).podChildren = s.podChildren := rfl
@[simp] theorem State.modCluster_podTried (s : State) (d k : Nat) (f : Cluster → Cluster) : (s.modCluster d k f).podTried = s.podTried := rfl
@[simp] theorem State.modCluster_podHeard (s : State) (d k : Nat) (f : Cluster → Cluster) : (s.modCluster d k f).podHeard = s.podHeard := rfl
@[simp] theorem State.modCluster_module (s : State) (d k : Nat) (f : Cluster → Cluster) : (s.modCluster d k f).module = s.module := rfl
@[simp] theorem State.modCluster_capBoot (s : State) (d k : Nat) (f : Cluster → Cluster) : (s.modCluster d k f).capBoot = s.capBoot := rfl
@[simp] theorem State.modCluster_ramp (s : State) (d k : Nat) (f : Cluster → Cluster) : (s.modCluster d k f).ramp = s.ramp := rfl
@[simp] theorem State.modCluster_cap (s : State) (d k : Nat) (f : Cluster → Cluster) : (s.modCluster d k f).cap = s.cap := rfl
@[simp] theorem State.modCluster_capNow (s : State) (d k : Nat) (f : Cluster → Cluster) : (s.modCluster d k f).capNow = s.capNow := rfl
@[simp] theorem State.modCluster_draw (s : State) (d k : Nat) (f : Cluster → Cluster) : (s.modCluster d k f).draw = s.draw := rfl
@[simp] theorem State.modCluster_ballastWatts (s : State) (d k : Nat) (f : Cluster → Cluster) : (s.modCluster d k f).ballastWatts = s.ballastWatts := rfl
@[simp] theorem State.modCluster_draws (s : State) (d k : Nat) (f : Cluster → Cluster) : (s.modCluster d k f).draws = s.draws := rfl
@[simp] theorem State.modCluster_lastTick (s : State) (d k : Nat) (f : Cluster → Cluster) : (s.modCluster d k f).lastTick = s.lastTick := rfl
@[simp] theorem State.modCluster_budget (s : State) (d k : Nat) (f : Cluster → Cluster) : (s.modCluster d k f).budget = s.budget := rfl
@[simp] theorem State.modCluster_ports (s : State) (d k : Nat) (f : Cluster → Cluster) : (s.modCluster d k f).ports = s.ports := rfl
@[simp] theorem State.modCluster_gangs (s : State) (d k : Nat) (f : Cluster → Cluster) : (s.modCluster d k f).gangs = s.gangs := rfl
@[simp] theorem State.modCluster_attendants (s : State) (d k : Nat) (f : Cluster → Cluster) : (s.modCluster d k f).attendants = s.attendants := rfl
@[simp] theorem State.modCluster_curCore (s : State) (d k : Nat) (f : Cluster → Cluster) : (s.modCluster d k f).curCore = s.curCore := rfl
@[simp] theorem State.modCluster_sent (s : State) (d k : Nat) (f : Cluster → Cluster) : (s.modCluster d k f).sent = s.sent := rfl

/-! ### A function replaced -/

@[simp] theorem State.modFn_now (s : State) (n : Nat) (f : HostFn → HostFn) : (s.modFn n f).now = s.now := rfl
@[simp] theorem State.modFn_agenda (s : State) (n : Nat) (f : HostFn → HostFn) : (s.modFn n f).agenda = s.agenda := rfl
@[simp] theorem State.modFn_cur (s : State) (n : Nat) (f : HostFn → HostFn) : (s.modFn n f).cur = s.cur := rfl
@[simp] theorem State.modFn_freeIx (s : State) (n : Nat) (f : HostFn → HostFn) : (s.modFn n f).freeIx = s.freeIx := rfl
@[simp] theorem State.modFn_nextId (s : State) (n : Nat) (f : HostFn → HostFn) : (s.modFn n f).nextId = s.nextId := rfl
@[simp] theorem State.modFn_nextSeq (s : State) (n : Nat) (f : HostFn → HostFn) : (s.modFn n f).nextSeq = s.nextSeq := rfl
@[simp] theorem State.modFn_stopped (s : State) (n : Nat) (f : HostFn → HostFn) : (s.modFn n f).stopped = s.stopped := rfl
@[simp] theorem State.modFn_clusters (s : State) (n : Nat) (f : HostFn → HostFn) : (s.modFn n f).clusters = s.clusters := rfl
@[simp] theorem State.modFn_crews (s : State) (n : Nat) (f : HostFn → HostFn) : (s.modFn n f).crews = s.crews := rfl
@[simp] theorem State.modFn_launches (s : State) (n : Nat) (f : HostFn → HostFn) : (s.modFn n f).launches = s.launches := rfl
@[simp] theorem State.modFn_contexts (s : State) (n : Nat) (f : HostFn → HostFn) : (s.modFn n f).contexts = s.contexts := rfl
@[simp] theorem State.modFn_copies (s : State) (n : Nat) (f : HostFn → HostFn) : (s.modFn n f).copies = s.copies := rfl
@[simp] theorem State.modFn_elems (s : State) (n : Nat) (f : HostFn → HostFn) : (s.modFn n f).elems = s.elems := rfl
@[simp] theorem State.modFn_fars (s : State) (n : Nat) (f : HostFn → HostFn) : (s.modFn n f).fars = s.fars := rfl
@[simp] theorem State.modFn_xlates (s : State) (n : Nat) (f : HostFn → HostFn) : (s.modFn n f).xlates = s.xlates := rfl
@[simp] theorem State.modFn_calls (s : State) (n : Nat) (f : HostFn → HostFn) : (s.modFn n f).calls = s.calls := rfl
@[simp] theorem State.modFn_colops (s : State) (n : Nat) (f : HostFn → HostFn) : (s.modFn n f).colops = s.colops := rfl
@[simp] theorem State.modFn_devMem (s : State) (n : Nat) (f : HostFn → HostFn) : (s.modFn n f).devMem = s.devMem := rfl
@[simp] theorem State.modFn_hostMem (s : State) (n : Nat) (f : HostFn → HostFn) : (s.modFn n f).hostMem = s.hostMem := rfl
@[simp] theorem State.modFn_peerMem (s : State) (n : Nat) (f : HostFn → HostFn) : (s.modFn n f).peerMem = s.peerMem := rfl
@[simp] theorem State.modFn_nextFrame (s : State) (n : Nat) (f : HostFn → HostFn) : (s.modFn n f).nextFrame = s.nextFrame := rfl
@[simp] theorem State.modFn_mainPoison (s : State) (n : Nat) (f : HostFn → HostFn) : (s.modFn n f).mainPoison = s.mainPoison := rfl
@[simp] theorem State.modFn_corrected (s : State) (n : Nat) (f : HostFn → HostFn) : (s.modFn n f).corrected = s.corrected := rfl
@[simp] theorem State.modFn_hostPages (s : State) (n : Nat) (f : HostFn → HostFn) : (s.modFn n f).hostPages = s.hostPages := rfl
@[simp] theorem State.modFn_tlb (s : State) (n : Nat) (f : HostFn → HostFn) : (s.modFn n f).tlb = s.tlb := rfl
@[simp] theorem State.modFn_fns (s : State) (n : Nat) (f : HostFn → HostFn) : (s.modFn n f).fns = Table.put s.fns n (f (s.fn n)) := rfl
@[simp] theorem State.modFn_slice (s : State) (n : Nat) (f : HostFn → HostFn) : (s.modFn n f).slice = s.slice := rfl
@[simp] theorem State.modFn_sliceStart (s : State) (n : Nat) (f : HostFn → HostFn) : (s.modFn n f).sliceStart = s.sliceStart := rfl
@[simp] theorem State.modFn_sliceSaving (s : State) (n : Nat) (f : HostFn → HostFn) : (s.modFn n f).sliceSaving = s.sliceSaving := rfl
@[simp] theorem State.modFn_deviceLog (s : State) (n : Nat) (f : HostFn → HostFn) : (s.modFn n f).deviceLog = s.deviceLog := rfl
@[simp] theorem State.modFn_link (s : State) (n : Nat) (f : HostFn → HostFn) : (s.modFn n f).link = s.link := rfl
@[simp] theorem State.modFn_hostAtomics (s : State) (n : Nat) (f : HostFn → HostFn) : (s.modFn n f).hostAtomics = s.hostAtomics := rfl
@[simp] theorem State.modFn_boot (s : State) (n : Nat) (f : HostFn → HostFn) : (s.modFn n f).boot = s.boot := rfl
@[simp] theorem State.modFn_fuseVersion (s : State) (n : Nat) (f : HostFn → HostFn) : (s.modFn n f).fuseVersion = s.fuseVersion := rfl
@[simp] theorem State.modFn_fuseRsa (s : State) (n : Nat) (f : HostFn → HostFn) : (s.modFn n f).fuseRsa = s.fuseRsa := rfl
@[simp] theorem State.modFn_fuseSlh (s : State) (n : Nat) (f : HostFn → HostFn) : (s.modFn n f).fuseSlh = s.fuseSlh := rfl
@[simp] theorem State.modFn_images (s : State) (n : Nat) (f : HostFn → HostFn) : (s.modFn n f).images = s.images := rfl
@[simp] theorem State.modFn_boots (s : State) (n : Nat) (f : HostFn → HostFn) : (s.modFn n f).boots = s.boots := rfl
@[simp] theorem State.modFn_podRoot (s : State) (n : Nat) (f : HostFn → HostFn) : (s.modFn n f).podRoot = s.podRoot := rfl
@[simp] theorem State.modFn_podParent (s : State) (n : Nat) (f : HostFn → HostFn) : (s.modFn n f).podParent = s.podParent := rfl
@[simp] theorem State.modFn_podChildren (s : State) (n : Nat) (f : HostFn → HostFn) : (s.modFn n f).podChildren = s.podChildren := rfl
@[simp] theorem State.modFn_podTried (s : State) (n : Nat) (f : HostFn → HostFn) : (s.modFn n f).podTried = s.podTried := rfl
@[simp] theorem State.modFn_podHeard (s : State) (n : Nat) (f : HostFn → HostFn) : (s.modFn n f).podHeard = s.podHeard := rfl
@[simp] theorem State.modFn_module (s : State) (n : Nat) (f : HostFn → HostFn) : (s.modFn n f).module = s.module := rfl
@[simp] theorem State.modFn_capBoot (s : State) (n : Nat) (f : HostFn → HostFn) : (s.modFn n f).capBoot = s.capBoot := rfl
@[simp] theorem State.modFn_ramp (s : State) (n : Nat) (f : HostFn → HostFn) : (s.modFn n f).ramp = s.ramp := rfl
@[simp] theorem State.modFn_cap (s : State) (n : Nat) (f : HostFn → HostFn) : (s.modFn n f).cap = s.cap := rfl
@[simp] theorem State.modFn_capNow (s : State) (n : Nat) (f : HostFn → HostFn) : (s.modFn n f).capNow = s.capNow := rfl
@[simp] theorem State.modFn_draw (s : State) (n : Nat) (f : HostFn → HostFn) : (s.modFn n f).draw = s.draw := rfl
@[simp] theorem State.modFn_ballastWatts (s : State) (n : Nat) (f : HostFn → HostFn) : (s.modFn n f).ballastWatts = s.ballastWatts := rfl
@[simp] theorem State.modFn_draws (s : State) (n : Nat) (f : HostFn → HostFn) : (s.modFn n f).draws = s.draws := rfl
@[simp] theorem State.modFn_lastTick (s : State) (n : Nat) (f : HostFn → HostFn) : (s.modFn n f).lastTick = s.lastTick := rfl
@[simp] theorem State.modFn_budget (s : State) (n : Nat) (f : HostFn → HostFn) : (s.modFn n f).budget = s.budget := rfl
@[simp] theorem State.modFn_ports (s : State) (n : Nat) (f : HostFn → HostFn) : (s.modFn n f).ports = s.ports := rfl
@[simp] theorem State.modFn_gangs (s : State) (n : Nat) (f : HostFn → HostFn) : (s.modFn n f).gangs = s.gangs := rfl
@[simp] theorem State.modFn_attendants (s : State) (n : Nat) (f : HostFn → HostFn) : (s.modFn n f).attendants = s.attendants := rfl
@[simp] theorem State.modFn_curCore (s : State) (n : Nat) (f : HostFn → HostFn) : (s.modFn n f).curCore = s.curCore := rfl
@[simp] theorem State.modFn_sent (s : State) (n : Nat) (f : HostFn → HostFn) : (s.modFn n f).sent = s.sent := rfl

/-! ### A message sent -/

@[simp] theorem State.send_now (s : State) (m : Message) : (s.send m).now = s.now := rfl
@[simp] theorem State.send_agenda (s : State) (m : Message) : (s.send m).agenda = s.agenda := rfl
@[simp] theorem State.send_cur (s : State) (m : Message) : (s.send m).cur = s.cur := rfl
@[simp] theorem State.send_freeIx (s : State) (m : Message) : (s.send m).freeIx = s.freeIx := rfl
@[simp] theorem State.send_nextId (s : State) (m : Message) : (s.send m).nextId = s.nextId := rfl
@[simp] theorem State.send_nextSeq (s : State) (m : Message) : (s.send m).nextSeq = s.nextSeq := rfl
@[simp] theorem State.send_stopped (s : State) (m : Message) : (s.send m).stopped = s.stopped := rfl
@[simp] theorem State.send_clusters (s : State) (m : Message) : (s.send m).clusters = s.clusters := rfl
@[simp] theorem State.send_crews (s : State) (m : Message) : (s.send m).crews = s.crews := rfl
@[simp] theorem State.send_launches (s : State) (m : Message) : (s.send m).launches = s.launches := rfl
@[simp] theorem State.send_contexts (s : State) (m : Message) : (s.send m).contexts = s.contexts := rfl
@[simp] theorem State.send_copies (s : State) (m : Message) : (s.send m).copies = s.copies := rfl
@[simp] theorem State.send_elems (s : State) (m : Message) : (s.send m).elems = s.elems := rfl
@[simp] theorem State.send_fars (s : State) (m : Message) : (s.send m).fars = s.fars := rfl
@[simp] theorem State.send_xlates (s : State) (m : Message) : (s.send m).xlates = s.xlates := rfl
@[simp] theorem State.send_calls (s : State) (m : Message) : (s.send m).calls = s.calls := rfl
@[simp] theorem State.send_colops (s : State) (m : Message) : (s.send m).colops = s.colops := rfl
@[simp] theorem State.send_devMem (s : State) (m : Message) : (s.send m).devMem = s.devMem := rfl
@[simp] theorem State.send_hostMem (s : State) (m : Message) : (s.send m).hostMem = s.hostMem := rfl
@[simp] theorem State.send_peerMem (s : State) (m : Message) : (s.send m).peerMem = s.peerMem := rfl
@[simp] theorem State.send_nextFrame (s : State) (m : Message) : (s.send m).nextFrame = s.nextFrame := rfl
@[simp] theorem State.send_mainPoison (s : State) (m : Message) : (s.send m).mainPoison = s.mainPoison := rfl
@[simp] theorem State.send_corrected (s : State) (m : Message) : (s.send m).corrected = s.corrected := rfl
@[simp] theorem State.send_hostPages (s : State) (m : Message) : (s.send m).hostPages = s.hostPages := rfl
@[simp] theorem State.send_tlb (s : State) (m : Message) : (s.send m).tlb = s.tlb := rfl
@[simp] theorem State.send_fns (s : State) (m : Message) : (s.send m).fns = s.fns := rfl
@[simp] theorem State.send_slice (s : State) (m : Message) : (s.send m).slice = s.slice := rfl
@[simp] theorem State.send_sliceStart (s : State) (m : Message) : (s.send m).sliceStart = s.sliceStart := rfl
@[simp] theorem State.send_sliceSaving (s : State) (m : Message) : (s.send m).sliceSaving = s.sliceSaving := rfl
@[simp] theorem State.send_deviceLog (s : State) (m : Message) : (s.send m).deviceLog = s.deviceLog := rfl
@[simp] theorem State.send_link (s : State) (m : Message) : (s.send m).link = s.link := rfl
@[simp] theorem State.send_hostAtomics (s : State) (m : Message) : (s.send m).hostAtomics = s.hostAtomics := rfl
@[simp] theorem State.send_boot (s : State) (m : Message) : (s.send m).boot = s.boot := rfl
@[simp] theorem State.send_fuseVersion (s : State) (m : Message) : (s.send m).fuseVersion = s.fuseVersion := rfl
@[simp] theorem State.send_fuseRsa (s : State) (m : Message) : (s.send m).fuseRsa = s.fuseRsa := rfl
@[simp] theorem State.send_fuseSlh (s : State) (m : Message) : (s.send m).fuseSlh = s.fuseSlh := rfl
@[simp] theorem State.send_images (s : State) (m : Message) : (s.send m).images = s.images := rfl
@[simp] theorem State.send_boots (s : State) (m : Message) : (s.send m).boots = s.boots := rfl
@[simp] theorem State.send_podRoot (s : State) (m : Message) : (s.send m).podRoot = s.podRoot := rfl
@[simp] theorem State.send_podParent (s : State) (m : Message) : (s.send m).podParent = s.podParent := rfl
@[simp] theorem State.send_podChildren (s : State) (m : Message) : (s.send m).podChildren = s.podChildren := rfl
@[simp] theorem State.send_podTried (s : State) (m : Message) : (s.send m).podTried = s.podTried := rfl
@[simp] theorem State.send_podHeard (s : State) (m : Message) : (s.send m).podHeard = s.podHeard := rfl
@[simp] theorem State.send_module (s : State) (m : Message) : (s.send m).module = s.module := rfl
@[simp] theorem State.send_capBoot (s : State) (m : Message) : (s.send m).capBoot = s.capBoot := rfl
@[simp] theorem State.send_ramp (s : State) (m : Message) : (s.send m).ramp = s.ramp := rfl
@[simp] theorem State.send_cap (s : State) (m : Message) : (s.send m).cap = s.cap := rfl
@[simp] theorem State.send_capNow (s : State) (m : Message) : (s.send m).capNow = s.capNow := rfl
@[simp] theorem State.send_draw (s : State) (m : Message) : (s.send m).draw = s.draw := rfl
@[simp] theorem State.send_ballastWatts (s : State) (m : Message) : (s.send m).ballastWatts = s.ballastWatts := rfl
@[simp] theorem State.send_draws (s : State) (m : Message) : (s.send m).draws = s.draws := rfl
@[simp] theorem State.send_lastTick (s : State) (m : Message) : (s.send m).lastTick = s.lastTick := rfl
@[simp] theorem State.send_budget (s : State) (m : Message) : (s.send m).budget = s.budget := rfl
@[simp] theorem State.send_ports (s : State) (m : Message) : (s.send m).ports = s.ports := rfl
@[simp] theorem State.send_gangs (s : State) (m : Message) : (s.send m).gangs = s.gangs := rfl
@[simp] theorem State.send_attendants (s : State) (m : Message) : (s.send m).attendants = s.attendants := rfl
@[simp] theorem State.send_curCore (s : State) (m : Message) : (s.send m).curCore = s.curCore := rfl
@[simp] theorem State.send_sent (s : State) (m : Message) : (s.send m).sent = s.sent ++ [m] := rfl

/-! ### A thread of a crew replaced -/

@[simp] theorem Crew.modThread_launch (c : Crew) (t : Nat) (f : Thread → Thread) : (c.modThread t f).launch = c.launch := rfl
@[simp] theorem Crew.modThread_ctx (c : Crew) (t : Nat) (f : Thread → Thread) : (c.modThread t f).ctx = c.ctx := rfl
@[simp] theorem Crew.modThread_index (c : Crew) (t : Nat) (f : Thread → Thread) : (c.modThread t f).index = c.index := rfl
@[simp] theorem Crew.modThread_srLaunch (c : Crew) (t : Nat) (f : Thread → Thread) : (c.modThread t f).srLaunch = c.srLaunch := rfl
@[simp] theorem Crew.modThread_die (c : Crew) (t : Nat) (f : Thread → Thread) : (c.modThread t f).die = c.die := rfl
@[simp] theorem Crew.modThread_cluster (c : Crew) (t : Nat) (f : Thread → Thread) : (c.modThread t f).cluster = c.cluster := rfl
@[simp] theorem Crew.modThread_pair (c : Crew) (t : Nat) (f : Thread → Thread) : (c.modThread t f).pair = c.pair := rfl
@[simp] theorem Crew.modThread_width (c : Crew) (t : Nat) (f : Thread → Thread) : (c.modThread t f).width = c.width := rfl
@[simp] theorem Crew.modThread_stackSize (c : Crew) (t : Nat) (f : Thread → Thread) : (c.modThread t f).stackSize = c.stackSize := rfl
@[simp] theorem Crew.modThread_handler (c : Crew) (t : Nat) (f : Thread → Thread) : (c.modThread t f).handler = c.handler := rfl
@[simp] theorem Crew.modThread_obj (c : Crew) (t : Nat) (f : Thread → Thread) : (c.modThread t f).obj = c.obj := rfl
@[simp] theorem Crew.modThread_entry (c : Crew) (t : Nat) (f : Thread → Thread) : (c.modThread t f).entry = c.entry := rfl
@[simp] theorem Crew.modThread_twin (c : Crew) (t : Nat) (f : Thread → Thread) : (c.modThread t f).twin = c.twin := rfl
@[simp] theorem Crew.modThread_bind (c : Crew) (t : Nat) (f : Thread → Thread) : (c.modThread t f).bind = c.bind := rfl
@[simp] theorem Crew.modThread_roles (c : Crew) (t : Nat) (f : Thread → Thread) : (c.modThread t f).roles = c.roles := rfl
@[simp] theorem Crew.modThread_threads (c : Crew) (t : Nat) (f : Thread → Thread) : (c.modThread t f).threads = Table.adjust c.threads t f := rfl
@[simp] theorem Crew.modThread_tumblers (c : Crew) (t : Nat) (f : Thread → Thread) : (c.modThread t f).tumblers = c.tumblers := rfl
@[simp] theorem Crew.modThread_barGen (c : Crew) (t : Nat) (f : Thread → Thread) : (c.modThread t f).barGen = c.barGen := rfl
@[simp] theorem Crew.modThread_sharedSize (c : Crew) (t : Nat) (f : Thread → Thread) : (c.modThread t f).sharedSize = c.sharedSize := rfl
@[simp] theorem Crew.modThread_shared (c : Crew) (t : Nat) (f : Thread → Thread) : (c.modThread t f).shared = c.shared := rfl
@[simp] theorem Crew.modThread_shPoison (c : Crew) (t : Nat) (f : Thread → Thread) : (c.modThread t f).shPoison = c.shPoison := rfl
@[simp] theorem Crew.modThread_window (c : Crew) (t : Nat) (f : Thread → Thread) : (c.modThread t f).window = c.window := rfl
@[simp] theorem Crew.modThread_saveArea (c : Crew) (t : Nat) (f : Thread → Thread) : (c.modThread t f).saveArea = c.saveArea := rfl
@[simp] theorem Crew.modThread_tiles (c : Crew) (t : Nat) (f : Thread → Thread) : (c.modThread t f).tiles = c.tiles := rfl
@[simp] theorem Crew.modThread_copyTl (c : Crew) (t : Nat) (f : Thread → Thread) : (c.modThread t f).copyTl = c.copyTl := rfl
@[simp] theorem Crew.modThread_copyFailed (c : Crew) (t : Nat) (f : Thread → Thread) : (c.modThread t f).copyFailed = c.copyFailed := rfl
@[simp] theorem Crew.modThread_mxTl (c : Crew) (t : Nat) (f : Thread → Thread) : (c.modThread t f).mxTl = c.mxTl := rfl
@[simp] theorem Crew.modThread_iters (c : Crew) (t : Nat) (f : Thread → Thread) : (c.modThread t f).iters = c.iters := rfl
@[simp] theorem Crew.modThread_reserve (c : Crew) (t : Nat) (f : Thread → Thread) : (c.modThread t f).reserve = c.reserve := rfl
@[simp] theorem Crew.modThread_early (c : Crew) (t : Nat) (f : Thread → Thread) : (c.modThread t f).early = c.early := rfl
@[simp] theorem Crew.modThread_node (c : Crew) (t : Nat) (f : Thread → Thread) : (c.modThread t f).node = c.node := rfl
@[simp] theorem Crew.modThread_stopped (c : Crew) (t : Nat) (f : Thread → Thread) : (c.modThread t f).stopped = c.stopped := rfl
@[simp] theorem Crew.modThread_killed (c : Crew) (t : Nat) (f : Thread → Thread) : (c.modThread t f).killed = c.killed := rfl
@[simp] theorem Crew.modThread_consumed (c : Crew) (t : Nat) (f : Thread → Thread) : (c.modThread t f).consumed = c.consumed := rfl
@[simp] theorem Crew.modThread_consumedTick (c : Crew) (t : Nat) (f : Thread → Thread) : (c.modThread t f).consumedTick = c.consumedTick := rfl
@[simp] theorem Crew.modThread_consumedTid (c : Crew) (t : Nat) (f : Thread → Thread) : (c.modThread t f).consumedTid = c.consumedTid := rfl
@[simp] theorem Crew.modThread_consumedLogged (c : Crew) (t : Nat) (f : Thread → Thread) : (c.modThread t f).consumedLogged = c.consumedLogged := rfl
@[simp] theorem Crew.modThread_saving (c : Crew) (t : Nat) (f : Thread → Thread) : (c.modThread t f).saving = c.saving := rfl
@[simp] theorem Crew.modThread_saveC (c : Crew) (t : Nat) (f : Thread → Thread) : (c.modThread t f).saveC = c.saveC := rfl
@[simp] theorem Crew.modThread_drainStart (c : Crew) (t : Nat) (f : Thread → Thread) : (c.modThread t f).drainStart = c.drainStart := rfl
@[simp] theorem Crew.modThread_inh (c : Crew) (t : Nat) (f : Thread → Thread) : (c.modThread t f).inh = c.inh := rfl
@[simp] theorem Crew.modThread_kickNamed (c : Crew) (t : Nat) (f : Thread → Thread) : (c.modThread t f).kickNamed = c.kickNamed := rfl
@[simp] theorem Crew.modThread_formed (c : Crew) (t : Nat) (f : Thread → Thread) : (c.modThread t f).formed = c.formed := rfl
@[simp] theorem Crew.modThread_system (c : Crew) (t : Nat) (f : Thread → Thread) : (c.modThread t f).system = c.system := rfl
@[simp] theorem Crew.modThread_areaUnits (c : Crew) (t : Nat) (f : Thread → Thread) : (c.modThread t f).areaUnits = c.areaUnits := rfl

/-! ### A register written -/

@[simp] theorem Thread.putReg_role (th : Thread) (r : Nat) (v : Word) : (th.putReg r v).role = th.role := rfl
@[simp] theorem Thread.putReg_slice (th : Thread) (r : Nat) (v : Word) : (th.putReg r v).slice = th.slice := rfl
@[simp] theorem Thread.putReg_home (th : Thread) (r : Nat) (v : Word) : (th.putReg r v).home = th.home := rfl
@[simp] theorem Thread.putReg_pc (th : Thread) (r : Nat) (v : Word) : (th.putReg r v).pc = th.pc := rfl
@[simp] theorem Thread.putReg_cameFrom (th : Thread) (r : Nat) (v : Word) : (th.putReg r v).cameFrom = th.cameFrom := rfl
@[simp] theorem Thread.putReg_regs (th : Thread) (r : Nat) (v : Word) : (th.putReg r v).regs = Sparse.set 0#32 th.regs r v := rfl
@[simp] theorem Thread.putReg_preds (th : Thread) (r : Nat) (v : Word) : (th.putReg r v).preds = th.preds := rfl
@[simp] theorem Thread.putReg_rb (th : Thread) (r : Nat) (v : Word) : (th.putReg r v).rb = th.rb := rfl
@[simp] theorem Thread.putReg_rot (th : Thread) (r : Nat) (v : Word) : (th.putReg r v).rot = th.rot := rfl
@[simp] theorem Thread.putReg_ix0 (th : Thread) (r : Nat) (v : Word) : (th.putReg r v).ix0 = th.ix0 := rfl
@[simp] theorem Thread.putReg_ix1 (th : Thread) (r : Nat) (v : Word) : (th.putReg r v).ix1 = th.ix1 := rfl
@[simp] theorem Thread.putReg_ix2 (th : Thread) (r : Nat) (v : Word) : (th.putReg r v).ix2 = th.ix2 := rfl
@[simp] theorem Thread.putReg_ix3 (th : Thread) (r : Nat) (v : Word) : (th.putReg r v).ix3 = th.ix3 := rfl
@[simp] theorem Thread.putReg_sp (th : Thread) (r : Nat) (v : Word) : (th.putReg r v).sp = th.sp := rfl
@[simp] theorem Thread.putReg_icount (th : Thread) (r : Nat) (v : Word) : (th.putReg r v).icount = th.icount := rfl
@[simp] theorem Thread.putReg_pend (th : Thread) (r : Nat) (v : Word) : (th.putReg r v).pend = th.pend := rfl
@[simp] theorem Thread.putReg_trans (th : Thread) (r : Nat) (v : Word) : (th.putReg r v).trans = th.trans := rfl
@[simp] theorem Thread.putReg_fifo (th : Thread) (r : Nat) (v : Word) : (th.putReg r v).fifo = th.fifo := rfl
@[simp] theorem Thread.putReg_ntStores (th : Thread) (r : Nat) (v : Word) : (th.putReg r v).ntStores = th.ntStores := rfl
@[simp] theorem Thread.putReg_ntDone (th : Thread) (r : Nat) (v : Word) : (th.putReg r v).ntDone = th.ntDone := rfl
@[simp] theorem Thread.putReg_tagCount (th : Thread) (r : Nat) (v : Word) : (th.putReg r v).tagCount = th.tagCount := rfl
@[simp] theorem Thread.putReg_tagErr (th : Thread) (r : Nat) (v : Word) : (th.putReg r v).tagErr = th.tagErr := rfl
@[simp] theorem Thread.putReg_region (th : Thread) (r : Nat) (v : Word) : (th.putReg r v).region = th.region := rfl
@[simp] theorem Thread.putReg_slot (th : Thread) (r : Nat) (v : Word) : (th.putReg r v).slot = th.slot := rfl
@[simp] theorem Thread.putReg_inHandler (th : Thread) (r : Nat) (v : Word) : (th.putReg r v).inHandler = th.inHandler := rfl
@[simp] theorem Thread.putReg_trapSp (th : Thread) (r : Nat) (v : Word) : (th.putReg r v).trapSp = th.trapSp := rfl
@[simp] theorem Thread.putReg_ended (th : Thread) (r : Nat) (v : Word) : (th.putReg r v).ended = th.ended := rfl
@[simp] theorem Thread.putReg_wait (th : Thread) (r : Nat) (v : Word) : (th.putReg r v).wait = th.wait := rfl
@[simp] theorem Thread.putReg_parkSeq (th : Thread) (r : Nat) (v : Word) : (th.putReg r v).parkSeq = th.parkSeq := rfl
@[simp] theorem Thread.putReg_parkLen (th : Thread) (r : Nat) (v : Word) : (th.putReg r v).parkLen = th.parkLen := rfl
@[simp] theorem Thread.putReg_parkWord (th : Thread) (r : Nat) (v : Word) : (th.putReg r v).parkWord = th.parkWord := rfl
@[simp] theorem Thread.putReg_parkPfx (th : Thread) (r : Nat) (v : Word) : (th.putReg r v).parkPfx = th.parkPfx := rfl
@[simp] theorem Thread.putReg_parkIssue (th : Thread) (r : Nat) (v : Word) : (th.putReg r v).parkIssue = th.parkIssue := rfl
@[simp] theorem Thread.putReg_atBarrier (th : Thread) (r : Nat) (v : Word) : (th.putReg r v).atBarrier = th.atBarrier := rfl
@[simp] theorem Thread.putReg_barPassed (th : Thread) (r : Nat) (v : Word) : (th.putReg r v).barPassed = th.barPassed := rfl
@[simp] theorem Thread.putReg_stack (th : Thread) (r : Nat) (v : Word) : (th.putReg r v).stack = th.stack := rfl
@[simp] theorem Thread.putReg_stackAbsent (th : Thread) (r : Nat) (v : Word) : (th.putReg r v).stackAbsent = th.stackAbsent := rfl
@[simp] theorem Thread.putReg_stackPoison (th : Thread) (r : Nat) (v : Word) : (th.putReg r v).stackPoison = th.stackPoison := rfl
@[simp] theorem Thread.putReg_poison (th : Thread) (r : Nat) (v : Word) : (th.putReg r v).poison = th.poison.filter (· ≠ r) := rfl
@[simp] theorem Thread.putReg_slotPoison (th : Thread) (r : Nat) (v : Word) : (th.putReg r v).slotPoison = th.slotPoison := rfl
@[simp] theorem Thread.putReg_twinStrike (th : Thread) (r : Nat) (v : Word) : (th.putReg r v).twinStrike = th.twinStrike := rfl
@[simp] theorem Thread.putReg_callTag (th : Thread) (r : Nat) (v : Word) : (th.putReg r v).callTag = th.callTag := rfl
@[simp] theorem Thread.putReg_mxPoison (th : Thread) (r : Nat) (v : Word) : (th.putReg r v).mxPoison = th.mxPoison := rfl

/-! ### Held results replaced -/

@[simp] theorem Thread.forget_role (th : Thread) (n : ResultName) : (th.forget n).role = th.role := rfl
@[simp] theorem Thread.forget_slice (th : Thread) (n : ResultName) : (th.forget n).slice = th.slice := rfl
@[simp] theorem Thread.forget_home (th : Thread) (n : ResultName) : (th.forget n).home = th.home := rfl
@[simp] theorem Thread.forget_pc (th : Thread) (n : ResultName) : (th.forget n).pc = th.pc := rfl
@[simp] theorem Thread.forget_cameFrom (th : Thread) (n : ResultName) : (th.forget n).cameFrom = th.cameFrom := rfl
@[simp] theorem Thread.forget_regs (th : Thread) (n : ResultName) : (th.forget n).regs = th.regs := rfl
@[simp] theorem Thread.forget_preds (th : Thread) (n : ResultName) : (th.forget n).preds = th.preds := rfl
@[simp] theorem Thread.forget_rb (th : Thread) (n : ResultName) : (th.forget n).rb = th.rb := rfl
@[simp] theorem Thread.forget_rot (th : Thread) (n : ResultName) : (th.forget n).rot = th.rot := rfl
@[simp] theorem Thread.forget_ix0 (th : Thread) (n : ResultName) : (th.forget n).ix0 = th.ix0 := rfl
@[simp] theorem Thread.forget_ix1 (th : Thread) (n : ResultName) : (th.forget n).ix1 = th.ix1 := rfl
@[simp] theorem Thread.forget_ix2 (th : Thread) (n : ResultName) : (th.forget n).ix2 = th.ix2 := rfl
@[simp] theorem Thread.forget_ix3 (th : Thread) (n : ResultName) : (th.forget n).ix3 = th.ix3 := rfl
@[simp] theorem Thread.forget_sp (th : Thread) (n : ResultName) : (th.forget n).sp = th.sp := rfl
@[simp] theorem Thread.forget_icount (th : Thread) (n : ResultName) : (th.forget n).icount = th.icount := rfl
@[simp] theorem Thread.forget_pend (th : Thread) (n : ResultName) : (th.forget n).pend = th.pend.filter (fun h => h.name ≠ n) := rfl
@[simp] theorem Thread.forget_trans (th : Thread) (n : ResultName) : (th.forget n).trans = th.trans.filter (fun h => h.name ≠ n) := rfl
@[simp] theorem Thread.forget_fifo (th : Thread) (n : ResultName) : (th.forget n).fifo = th.fifo := rfl
@[simp] theorem Thread.forget_ntStores (th : Thread) (n : ResultName) : (th.forget n).ntStores = th.ntStores := rfl
@[simp] theorem Thread.forget_ntDone (th : Thread) (n : ResultName) : (th.forget n).ntDone = th.ntDone := rfl
@[simp] theorem Thread.forget_tagCount (th : Thread) (n : ResultName) : (th.forget n).tagCount = th.tagCount := rfl
@[simp] theorem Thread.forget_tagErr (th : Thread) (n : ResultName) : (th.forget n).tagErr = th.tagErr := rfl
@[simp] theorem Thread.forget_region (th : Thread) (n : ResultName) : (th.forget n).region = th.region := rfl
@[simp] theorem Thread.forget_slot (th : Thread) (n : ResultName) : (th.forget n).slot = th.slot := rfl
@[simp] theorem Thread.forget_inHandler (th : Thread) (n : ResultName) : (th.forget n).inHandler = th.inHandler := rfl
@[simp] theorem Thread.forget_trapSp (th : Thread) (n : ResultName) : (th.forget n).trapSp = th.trapSp := rfl
@[simp] theorem Thread.forget_ended (th : Thread) (n : ResultName) : (th.forget n).ended = th.ended := rfl
@[simp] theorem Thread.forget_wait (th : Thread) (n : ResultName) : (th.forget n).wait = th.wait := rfl
@[simp] theorem Thread.forget_parkSeq (th : Thread) (n : ResultName) : (th.forget n).parkSeq = th.parkSeq := rfl
@[simp] theorem Thread.forget_parkLen (th : Thread) (n : ResultName) : (th.forget n).parkLen = th.parkLen := rfl
@[simp] theorem Thread.forget_parkWord (th : Thread) (n : ResultName) : (th.forget n).parkWord = th.parkWord := rfl
@[simp] theorem Thread.forget_parkPfx (th : Thread) (n : ResultName) : (th.forget n).parkPfx = th.parkPfx := rfl
@[simp] theorem Thread.forget_parkIssue (th : Thread) (n : ResultName) : (th.forget n).parkIssue = th.parkIssue := rfl
@[simp] theorem Thread.forget_atBarrier (th : Thread) (n : ResultName) : (th.forget n).atBarrier = th.atBarrier := rfl
@[simp] theorem Thread.forget_barPassed (th : Thread) (n : ResultName) : (th.forget n).barPassed = th.barPassed := rfl
@[simp] theorem Thread.forget_stack (th : Thread) (n : ResultName) : (th.forget n).stack = th.stack := rfl
@[simp] theorem Thread.forget_stackAbsent (th : Thread) (n : ResultName) : (th.forget n).stackAbsent = th.stackAbsent := rfl
@[simp] theorem Thread.forget_stackPoison (th : Thread) (n : ResultName) : (th.forget n).stackPoison = th.stackPoison := rfl
@[simp] theorem Thread.forget_poison (th : Thread) (n : ResultName) : (th.forget n).poison = th.poison := rfl
@[simp] theorem Thread.forget_slotPoison (th : Thread) (n : ResultName) : (th.forget n).slotPoison = th.slotPoison := rfl
@[simp] theorem Thread.forget_twinStrike (th : Thread) (n : ResultName) : (th.forget n).twinStrike = th.twinStrike := rfl
@[simp] theorem Thread.forget_callTag (th : Thread) (n : ResultName) : (th.forget n).callTag = th.callTag := rfl
@[simp] theorem Thread.forget_mxPoison (th : Thread) (n : ResultName) : (th.forget n).mxPoison = th.mxPoison := rfl

/-! ### A promise discarded -/

@[simp] theorem Thread.dropPromise_role (th : Thread) (n : ResultName) : (th.dropPromise n).role = th.role := rfl
@[simp] theorem Thread.dropPromise_slice (th : Thread) (n : ResultName) : (th.dropPromise n).slice = th.slice := rfl
@[simp] theorem Thread.dropPromise_home (th : Thread) (n : ResultName) : (th.dropPromise n).home = th.home := rfl
@[simp] theorem Thread.dropPromise_pc (th : Thread) (n : ResultName) : (th.dropPromise n).pc = th.pc := rfl
@[simp] theorem Thread.dropPromise_cameFrom (th : Thread) (n : ResultName) : (th.dropPromise n).cameFrom = th.cameFrom := rfl
@[simp] theorem Thread.dropPromise_regs (th : Thread) (n : ResultName) : (th.dropPromise n).regs = th.regs := rfl
@[simp] theorem Thread.dropPromise_preds (th : Thread) (n : ResultName) : (th.dropPromise n).preds = th.preds := rfl
@[simp] theorem Thread.dropPromise_rb (th : Thread) (n : ResultName) : (th.dropPromise n).rb = th.rb := rfl
@[simp] theorem Thread.dropPromise_rot (th : Thread) (n : ResultName) : (th.dropPromise n).rot = th.rot := rfl
@[simp] theorem Thread.dropPromise_ix0 (th : Thread) (n : ResultName) : (th.dropPromise n).ix0 = th.ix0 := rfl
@[simp] theorem Thread.dropPromise_ix1 (th : Thread) (n : ResultName) : (th.dropPromise n).ix1 = th.ix1 := rfl
@[simp] theorem Thread.dropPromise_ix2 (th : Thread) (n : ResultName) : (th.dropPromise n).ix2 = th.ix2 := rfl
@[simp] theorem Thread.dropPromise_ix3 (th : Thread) (n : ResultName) : (th.dropPromise n).ix3 = th.ix3 := rfl
@[simp] theorem Thread.dropPromise_sp (th : Thread) (n : ResultName) : (th.dropPromise n).sp = th.sp := rfl
@[simp] theorem Thread.dropPromise_icount (th : Thread) (n : ResultName) : (th.dropPromise n).icount = th.icount := rfl
@[simp] theorem Thread.dropPromise_pend (th : Thread) (n : ResultName) : (th.dropPromise n).pend = th.pend.filter (fun h => h.name ≠ n) := rfl
@[simp] theorem Thread.dropPromise_trans (th : Thread) (n : ResultName) : (th.dropPromise n).trans = th.trans := rfl
@[simp] theorem Thread.dropPromise_fifo (th : Thread) (n : ResultName) : (th.dropPromise n).fifo = th.fifo := rfl
@[simp] theorem Thread.dropPromise_ntStores (th : Thread) (n : ResultName) : (th.dropPromise n).ntStores = th.ntStores := rfl
@[simp] theorem Thread.dropPromise_ntDone (th : Thread) (n : ResultName) : (th.dropPromise n).ntDone = th.ntDone := rfl
@[simp] theorem Thread.dropPromise_tagCount (th : Thread) (n : ResultName) : (th.dropPromise n).tagCount = th.tagCount := rfl
@[simp] theorem Thread.dropPromise_tagErr (th : Thread) (n : ResultName) : (th.dropPromise n).tagErr = th.tagErr := rfl
@[simp] theorem Thread.dropPromise_region (th : Thread) (n : ResultName) : (th.dropPromise n).region = th.region := rfl
@[simp] theorem Thread.dropPromise_slot (th : Thread) (n : ResultName) : (th.dropPromise n).slot = th.slot := rfl
@[simp] theorem Thread.dropPromise_inHandler (th : Thread) (n : ResultName) : (th.dropPromise n).inHandler = th.inHandler := rfl
@[simp] theorem Thread.dropPromise_trapSp (th : Thread) (n : ResultName) : (th.dropPromise n).trapSp = th.trapSp := rfl
@[simp] theorem Thread.dropPromise_ended (th : Thread) (n : ResultName) : (th.dropPromise n).ended = th.ended := rfl
@[simp] theorem Thread.dropPromise_wait (th : Thread) (n : ResultName) : (th.dropPromise n).wait = th.wait := rfl
@[simp] theorem Thread.dropPromise_parkSeq (th : Thread) (n : ResultName) : (th.dropPromise n).parkSeq = th.parkSeq := rfl
@[simp] theorem Thread.dropPromise_parkLen (th : Thread) (n : ResultName) : (th.dropPromise n).parkLen = th.parkLen := rfl
@[simp] theorem Thread.dropPromise_parkWord (th : Thread) (n : ResultName) : (th.dropPromise n).parkWord = th.parkWord := rfl
@[simp] theorem Thread.dropPromise_parkPfx (th : Thread) (n : ResultName) : (th.dropPromise n).parkPfx = th.parkPfx := rfl
@[simp] theorem Thread.dropPromise_parkIssue (th : Thread) (n : ResultName) : (th.dropPromise n).parkIssue = th.parkIssue := rfl
@[simp] theorem Thread.dropPromise_atBarrier (th : Thread) (n : ResultName) : (th.dropPromise n).atBarrier = th.atBarrier := rfl
@[simp] theorem Thread.dropPromise_barPassed (th : Thread) (n : ResultName) : (th.dropPromise n).barPassed = th.barPassed := rfl
@[simp] theorem Thread.dropPromise_stack (th : Thread) (n : ResultName) : (th.dropPromise n).stack = th.stack := rfl
@[simp] theorem Thread.dropPromise_stackAbsent (th : Thread) (n : ResultName) : (th.dropPromise n).stackAbsent = th.stackAbsent := rfl
@[simp] theorem Thread.dropPromise_stackPoison (th : Thread) (n : ResultName) : (th.dropPromise n).stackPoison = th.stackPoison := rfl
@[simp] theorem Thread.dropPromise_poison (th : Thread) (n : ResultName) : (th.dropPromise n).poison = th.poison := rfl
@[simp] theorem Thread.dropPromise_slotPoison (th : Thread) (n : ResultName) : (th.dropPromise n).slotPoison = th.slotPoison := rfl
@[simp] theorem Thread.dropPromise_twinStrike (th : Thread) (n : ResultName) : (th.dropPromise n).twinStrike = th.twinStrike := rfl
@[simp] theorem Thread.dropPromise_callTag (th : Thread) (n : ResultName) : (th.dropPromise n).callTag = th.callTag := rfl
@[simp] theorem Thread.dropPromise_mxPoison (th : Thread) (n : ResultName) : (th.dropPromise n).mxPoison = th.mxPoison := rfl

end Sys2Proof.Machine
end

