-- ==== Sys2Proof/Laws/Thread.lean ====
section
/-! SUPPORT. What one completed instruction does to a thread: the registers and predicates that it writes, what the window
and the promises do, and that everything else is as it was (R65, R69, R70). -/

namespace Sys2Proof.Machine

open Sys2Proof

/-! ## Lists -/

theorem find?_filter_of {α : Type} (l : List α) (p q : α → Bool) (h : ∀ x ∈ l, q x = true → p x = true) :
    (l.filter p).find? q = l.find? q := by
  induction l with
  | nil => rfl
  | cons a l ih =>
    have ih := ih (fun x hx => h x (List.mem_cons_of_mem _ hx))
    by_cases hq : q a = true
    · have hp := h a (by simp) hq
      simp [List.filter_cons, hp, hq]
    · by_cases hp : p a = true <;> simp [List.filter_cons, hp, hq, ih]

theorem find?_none_filter {α : Type} (l : List α) (p q : α → Bool) (h : ∀ x ∈ l, p x = true → q x = false) :
    (l.filter p).find? q = none := by
  simp only [List.find?_eq_none, List.mem_filter, Bool.not_eq_true]
  exact fun x hx => h x hx.1 hx.2

/-! ## Predicates -/

theorem setBit7_getLsbD (v : BitVec 7) (k j : Nat) (b : Bool) (hk : k < 7) :
    (setBit7 v k b).getLsbD j = if j = k then b else v.getLsbD j := by
  unfold setBit7
  by_cases hj : j < 7
  · cases b <;> by_cases e : j = k
    · simp [e]
    · simp [hj, e]; omega
    · simp [e, hk]
    · have : ¬(j - k = 0 ∧ ¬j < k) := by omega
      simp [hj, e]; omega
  · rw [if_neg (show ¬j = k by omega), BitVec.getLsbD_of_ge _ _ (by omega), BitVec.getLsbD_of_ge _ _ (by omega)]

theorem Thread.pred_congr (th th' : Thread) (h : th'.preds = th.preds) (k : Nat) : th'.pred k = th.pred k := by
  simp [Thread.pred, h]

/-! ## What a name reads as

`ReadsAs n v` for a register: its value, as `readReg` gives it; for p6: its bit. -/

/-- Nothing is held for a name. -/
def Thread.Free (th : Thread) (n : ResultName) : Prop := (∀ h ∈ th.pend, h.name ≠ n) ∧ ∀ h ∈ th.trans, h.name ≠ n

theorem Thread.Free.quiet {th : Thread} {n : ResultName} (h : th.Free n) : th.Quiet n :=
  ⟨fun x hx hn => absurd hn (h.1 x hx), fun x hx hn => absurd hn (h.2 x hx)⟩

theorem Thread.free_forget (th : Thread) (n : ResultName) : (th.forget n).Free n := by
  simp [Thread.Free, Thread.forget]

theorem Thread.Quiet.forget {th : Thread} {n : ResultName} (h : th.Quiet n) (m : ResultName) : (th.forget m).Quiet n := by
  refine ⟨fun x hx => h.1 x ?_, fun x hx => h.2 x ?_⟩ <;> simp [Thread.forget] at hx <;> exact hx.1

theorem Thread.Free.forget {th : Thread} {n : ResultName} (h : th.Free n) (m : ResultName) : (th.forget m).Free n := by
  refine ⟨fun x hx => h.1 x ?_, fun x hx => h.2 x ?_⟩ <;> simp [Thread.forget] at hx <;> exact hx.1

theorem Thread.readReg_of_free (th : Thread) (r : Nat) (h : th.Free (.reg r)) :
    th.readReg r = Sparse.get 0#32 th.regs r := by
  unfold Thread.readReg
  rw [List.find?_eq_none.2 (fun x hx => by simpa using h.2 x hx)]

theorem Thread.readReg_forget (th : Thread) (n : ResultName) (r : Nat) (h : n ≠ .reg r) :
    (th.forget n).readReg r = th.readReg r := by
  unfold Thread.readReg
  simp only [Thread.forget_trans, Thread.forget_regs]
  rw [find?_filter_of]
  intro x _ hx
  simp only [decide_eq_true_eq] at hx ⊢
  rw [hx]; exact fun e => h e.symm

@[simp] theorem Thread.pred_forget (th : Thread) (n : ResultName) (k : Nat) : (th.forget n).pred k = th.pred k := rfl

theorem Thread.readReg_putReg_ne (th : Thread) (q r : Nat) (v : Word) (h : q ≠ r) :
    (th.putReg q v).readReg r = th.readReg r := by
  unfold Thread.readReg
  simp only [Thread.putReg_trans, Thread.putReg_regs, Sparse.get_set]
  rw [if_neg (fun e => h e.symm)]

@[simp] theorem Thread.pred_putReg (th : Thread) (q : Nat) (v : Word) (k : Nat) : (th.putReg q v).pred k = th.pred k := rfl

/-- A result put in its place. -/
theorem Thread.readReg_putResult_ne (th : Thread) (n : ResultName) (r : Nat) (v : Word) (h : n ≠ .reg r) :
    (th.putResult n v).readReg r = th.readReg r := by
  cases n with
  | reg q => exact th.readReg_putReg_ne q r v (fun e => h (by rw [e]))
  | p6 => rfl

theorem Thread.pred_putResult (th : Thread) (n : ResultName) (v : Word) (k : Nat) (h : k ≠ 6 ∨ n ≠ .p6) :
    (th.putResult n v).pred k = th.pred k := by
  cases n with
  | reg q => rfl
  | p6 =>
    have hk : k ≠ 6 := by simpa using h
    simp only [Thread.putResult, Thread.pred]
    rw [setBit7_getLsbD _ _ _ _ (by omega), if_neg hk]

@[simp] theorem Thread.putResult_pend (th : Thread) (n : ResultName) (v : Word) : (th.putResult n v).pend = th.pend := by
  cases n <;> rfl
@[simp] theorem Thread.putResult_trans (th : Thread) (n : ResultName) (v : Word) : (th.putResult n v).trans = th.trans := by
  cases n <;> rfl
@[simp] theorem Thread.putResult_rest (th : Thread) (n : ResultName) (v : Word) : (th.putResult n v).rest = th.rest := by
  cases n <;> rfl
@[simp] theorem Thread.putResult_pc (th : Thread) (n : ResultName) (v : Word) : (th.putResult n v).pc = th.pc := by
  cases n <;> rfl
@[simp] theorem Thread.putResult_ix (th : Thread) (n : ResultName) (v : Word) (k : Nat) :
    (th.putResult n v).ix k = th.ix k := by cases n <;> rfl
@[simp] theorem Thread.forget_rest (th : Thread) (n : ResultName) : (th.forget n).rest = th.rest := rfl
@[simp] theorem Thread.forget_ix (th : Thread) (n : ResultName) (k : Nat) : (th.forget n).ix k = th.ix k := rfl

/-! ## A promise that reaches its place -/

@[simp] theorem Thread.mature_rest (th : Thread) (h : Held) : (th.mature h).rest = th.rest :=
  (rfl : (th.mature h).rest = (th.putResult h.name h.value).rest).trans (th.putResult_rest _ _)
@[simp] theorem Thread.mature_pc (th : Thread) (h : Held) : (th.mature h).pc = th.pc :=
  (rfl : (th.mature h).pc = (th.putResult h.name h.value).pc).trans (th.putResult_pc _ _)
@[simp] theorem Thread.mature_ix (th : Thread) (h : Held) (k : Nat) : (th.mature h).ix k = th.ix k :=
  (rfl : (th.mature h).ix k = (th.putResult h.name h.value).ix k).trans (th.putResult_ix _ _ k)
@[simp] theorem Thread.mature_pend (th : Thread) (h : Held) : (th.mature h).pend = th.pend :=
  (rfl : (th.mature h).pend = (th.putResult h.name h.value).pend).trans (th.putResult_pend _ _)

theorem Thread.readReg_mature (th : Thread) (h : Held) (r : Nat) (hn : h.name ≠ .reg r) :
    (th.mature h).readReg r = th.readReg r := by
  rw [← th.readReg_putResult_ne h.name r h.value hn]
  unfold Thread.readReg Thread.mature
  simp only [Thread.putResult_trans]
  rw [find?_filter_of]
  intro x _ hx
  simp only [decide_eq_true_eq] at hx
  simp [hx]
  left; exact fun e => hn e.symm

theorem Thread.pred_mature (th : Thread) (h : Held) (k : Nat) (hk : k ≠ 6 ∨ h.name ≠ .p6) :
    (th.mature h).pred k = th.pred k :=
  (rfl : (th.mature h).pred k = (th.putResult h.name h.value).pred k).trans (th.pred_putResult _ _ _ hk)

theorem Thread.mature_trans_sub (th : Thread) (h x : Held) (hx : x ∈ (th.mature h).trans) : x ∈ th.trans := by
  simp only [Thread.mature, List.mem_filter] at hx; exact hx.1

/-- The promises of a list that reach their places. -/
theorem Thread.matureAll (hs : List Held) (th : Thread) :
    (hs.foldl Thread.mature th).rest = th.rest ∧ (hs.foldl Thread.mature th).pc = th.pc ∧
    (hs.foldl Thread.mature th).pend = th.pend ∧ (∀ k, (hs.foldl Thread.mature th).ix k = th.ix k) ∧
    (∀ x ∈ (hs.foldl Thread.mature th).trans, x ∈ th.trans) ∧
    (∀ r, (∀ h ∈ hs, h.name ≠ .reg r) → (hs.foldl Thread.mature th).readReg r = th.readReg r) ∧
    (∀ k, (k = 6 → ∀ h ∈ hs, h.name ≠ .p6) → (hs.foldl Thread.mature th).pred k = th.pred k) := by
  induction hs generalizing th with
  | nil => simp
  | cons h hs ih =>
    obtain ⟨h1, h2, h3, h4, h5, h6, h7⟩ := ih (th.mature h)
    simp only [List.foldl_cons]
    refine ⟨by simp [h1], by simp [h2], by simp [h3], fun k => by simp [h4], ?_, ?_, ?_⟩
    · exact fun x hx => th.mature_trans_sub h x (h5 x hx)
    · intro r hr
      rw [h6 r (fun x hx => hr x (by simp [hx])), th.readReg_mature h r (hr h (by simp))]
    · intro k hk
      rw [h7 k (fun e x hx => hk e x (by simp [hx]))]
      refine th.pred_mature h k ?_
      by_cases e : k = 6
      · exact .inr (hk e h (by simp))
      · exact .inl e

/-! ## One more instruction has executed -/

theorem Thread.settle_spec (th : Thread) :
    th.settle.rest = th.rest ∧ th.settle.pc = th.pc ∧ (∀ k, th.settle.ix k = th.ix k) ∧
    (∀ r, th.Quiet (.reg r) → th.settle.readReg r = th.readReg r) ∧
    (∀ k, (k = 6 → th.Quiet .p6) → th.settle.pred k = th.pred k) ∧
    (∀ n, th.Free n → th.settle.Free n) := by
  have m := Thread.matureAll (th.pend.filter (fun h => h.left ≤ 1)) th
  obtain ⟨h1, h2, -, h4, h5, h6, h7⟩ := m
  have due : ∀ n, th.Quiet n → ∀ h ∈ th.pend.filter (fun h => decide (h.left ≤ 1)), h.name ≠ n := by
    intro n hq h hh hn
    simp only [List.mem_filter, decide_eq_true_eq] at hh
    have := hq.1 h hh.1 hn; omega
  refine ⟨?_, ?_, ?_, ?_, ?_, ?_⟩
  · exact (rfl : th.settle.rest = ((th.pend.filter (fun h => h.left ≤ 1)).foldl Thread.mature th).rest).trans h1
  · exact (rfl : th.settle.pc = ((th.pend.filter (fun h => h.left ≤ 1)).foldl Thread.mature th).pc).trans h2
  · exact fun k => (rfl : th.settle.ix k = ((th.pend.filter (fun h => h.left ≤ 1)).foldl Thread.mature th).ix k).trans (h4 k)
  · intro r hq
    rw [← h6 r (due _ hq)]
    unfold Thread.readReg Thread.settle
    simp only [List.find?_map]
    have : ((fun h : Held => decide (h.name = ResultName.reg r)) ∘ fun h : Held => { h with left := h.left - 1 }) =
        fun h : Held => decide (h.name = ResultName.reg r) := rfl
    rw [this, find?_filter_of]
    · cases ((th.pend.filter (fun h => h.left ≤ 1)).foldl Thread.mature th).trans.find?
        (fun h => decide (h.name = ResultName.reg r)) <;> rfl
    · intro x hx hn
      simp only [decide_eq_true_eq] at hn ⊢
      exact hq.2 x (h5 x hx) hn
  · intro k hk
    exact (rfl : th.settle.pred k = ((th.pend.filter (fun h => h.left ≤ 1)).foldl Thread.mature th).pred k).trans
      (h7 k (fun e => due _ (hk e)))
  · intro n hf
    refine ⟨fun x hx => ?_, fun x hx => ?_⟩
    · simp only [Thread.settle, List.mem_map, List.mem_filter] at hx
      obtain ⟨y, ⟨hy, -⟩, rfl⟩ := hx
      exact hf.1 y hy
    · simp only [Thread.settle, List.mem_map, List.mem_filter] at hx
      obtain ⟨y, ⟨hy, -⟩, rfl⟩ := hx
      exact hf.2 y (h5 y hy)

/-! ## Results -/

@[simp] theorem Thread.writeResult_rest (th : Thread) (n : ResultName) (v : Word) : (th.writeResult n v).rest = th.rest := by
  simp [Thread.writeResult]
@[simp] theorem Thread.writeResult_pc (th : Thread) (n : ResultName) (v : Word) : (th.writeResult n v).pc = th.pc := by
  simp [Thread.writeResult]
@[simp] theorem Thread.writeResult_ix (th : Thread) (n : ResultName) (v : Word) (k : Nat) :
    (th.writeResult n v).ix k = th.ix k := by simp [Thread.writeResult]

theorem Thread.free_writeResult (th : Thread) (n : ResultName) (v : Word) : (th.writeResult n v).Free n := by
  have := th.free_forget n
  simpa [Thread.Free, Thread.writeResult] using this

theorem Thread.Free.writeResult {th : Thread} {m : ResultName} (h : th.Free m) (n : ResultName) (v : Word) :
    (th.writeResult n v).Free m := by
  have := h.forget n
  simpa [Thread.Free, Thread.writeResult] using this

theorem Thread.Quiet.writeResult {th : Thread} {m : ResultName} (h : th.Quiet m) (n : ResultName) (v : Word) :
    (th.writeResult n v).Quiet m := by
  have := h.forget n
  simpa [Thread.Quiet, Thread.writeResult] using this

theorem Thread.readReg_writeResult_self (th : Thread) (r : Nat) (v : Word) :
    (th.writeResult (.reg r) v).readReg r = v := by
  rw [Thread.readReg_of_free _ _ (th.free_writeResult (.reg r) v)]
  simp [Thread.writeResult, Thread.putResult, Sparse.get_set]

theorem Thread.readReg_writeResult_ne (th : Thread) (n : ResultName) (r : Nat) (v : Word) (h : n ≠ .reg r) :
    (th.writeResult n v).readReg r = th.readReg r := by
  rw [Thread.writeResult, Thread.readReg_putResult_ne _ _ _ _ h, Thread.readReg_forget _ _ _ h]

theorem Thread.pred_writeResult (th : Thread) (n : ResultName) (v : Word) (k : Nat) (h : k ≠ 6 ∨ n ≠ .p6) :
    (th.writeResult n v).pred k = th.pred k := by
  rw [Thread.writeResult, Thread.pred_putResult _ _ _ _ h, Thread.pred_forget]

theorem Thread.pred_writeResult_p6 (th : Thread) (v : Word) : (th.writeResult .p6 v).pred 6 = decide (v ≠ 0#32) := by
  simp only [Thread.writeResult, Thread.putResult, Thread.pred]
  rw [setBit7_getLsbD _ _ _ _ (by omega)]; simp

/-- The names of results. -/
def Results.names (rs : Results) : List ResultName := rs.map (·.1)

theorem Thread.writeAll_spec (rs : Results) (th : Thread) :
    (th.writeAll rs).rest = th.rest ∧ (th.writeAll rs).pc = th.pc ∧ (∀ k, (th.writeAll rs).ix k = th.ix k) ∧
    (∀ n, th.Quiet n → (th.writeAll rs).Quiet n) ∧ (∀ n, th.Free n → (th.writeAll rs).Free n) ∧
    (∀ n ∈ rs.names, (th.writeAll rs).Free n) ∧
    (∀ r, .reg r ∉ rs.names → (th.writeAll rs).readReg r = th.readReg r) ∧
    (∀ k, (k = 6 → ResultName.p6 ∉ rs.names) → (th.writeAll rs).pred k = th.pred k) := by
  induction rs generalizing th with
  | nil => simp [Thread.writeAll, Results.names]
  | cons e rs ih =>
    obtain ⟨n, v⟩ := e
    have h := ih (th.writeResult n v)
    obtain ⟨h1, h2, h3, h4, h5, h6, h7, h8⟩ := h
    have e0 : th.writeAll ((n, v) :: rs) = (th.writeResult n v).writeAll rs := rfl
    rw [e0]
    refine ⟨by simp [h1], by simp [h2], fun k => by simp [h3], fun m hm => h4 m (hm.writeResult n v),
      fun m hm => h5 m (hm.writeResult n v), ?_, ?_, ?_⟩
    · intro m hm
      simp only [Results.names, List.map_cons, List.mem_cons] at hm
      rcases hm with rfl | hm
      · exact h5 _ (th.free_writeResult _ v)
      · exact h6 m hm
    · intro r hr
      simp only [Results.names, List.map_cons, List.mem_cons, not_or] at hr
      rw [h7 r hr.2, th.readReg_writeResult_ne n r v (fun e => hr.1 e.symm)]
    · intro k hk
      simp only [Results.names, List.map_cons, List.mem_cons, not_or] at hk
      rw [h8 k (fun e => (hk e).2), th.pred_writeResult n v k]
      by_cases e : k = 6
      · exact .inr (fun x => (hk e).1 x.symm)
      · exact .inl e

/-- A result that no later one of the list replaces is what its register reads as. -/
theorem Thread.writeAll_value (rs : Results) (th : Thread) (r : Nat) (v : Word) (hm : (.reg r, v) ∈ rs)
    (hd : rs.names.Nodup) : (th.writeAll rs).readReg r = v := by
  induction rs generalizing th with
  | nil => simp at hm
  | cons e rs ih =>
    obtain ⟨n, w⟩ := e
    have e0 : th.writeAll ((n, w) :: rs) = (th.writeResult n w).writeAll rs := rfl
    rw [e0]
    simp only [Results.names, List.map_cons, List.nodup_cons] at hd
    simp only [List.mem_cons, Prod.mk.injEq] at hm
    rcases hm with ⟨rfl, rfl⟩ | hm
    · rw [(Thread.writeAll_spec rs _).2.2.2.2.2.2.1 r hd.1, Thread.readReg_writeResult_self]
    · exact ih _ hm hd.2

/-! ## A completed instruction -/

/-- An instruction that writes its results at once (R128). -/
theorem Thread.commit_now (th : Thread) (len : Nat) (rs : Results) :
    (th.commit len .now rs).pc = th.pc + BitVec.ofNat 32 len ∧ (∀ k, (th.commit len .now rs).ix k = th.ix k) ∧
    (th.commit len .now rs).rest = th.rest ∧
    (∀ r, .reg r ∉ rs.names → th.Quiet (.reg r) → (th.commit len .now rs).readReg r = th.readReg r) ∧
    (∀ k, (k = 6 → ResultName.p6 ∉ rs.names ∧ th.Quiet .p6) → (th.commit len .now rs).pred k = th.pred k) ∧
    (rs.names.Nodup → ∀ r v, (.reg r, v) ∈ rs → (th.commit len .now rs).readReg r = v) := by
  obtain ⟨w1, w2, w3, w4, w5, w6, w7, w8⟩ := Thread.writeAll_spec rs th
  obtain ⟨s1, s2, s3, s4, s5, s6⟩ := Thread.settle_spec (th.writeAll rs)
  have e : ∀ r, (th.commit len .now rs).readReg r = (th.writeAll rs).settle.readReg r := fun _ => rfl
  have p : ∀ k, (th.commit len .now rs).pred k = (th.writeAll rs).settle.pred k := fun _ => rfl
  have pc : (th.commit len .now rs).pc = (th.writeAll rs).settle.pc + BitVec.ofNat 32 len := rfl
  have ix : ∀ k, (th.commit len .now rs).ix k = (th.writeAll rs).settle.ix k := fun _ => rfl
  have re : (th.commit len .now rs).rest = (th.writeAll rs).settle.rest := rfl
  refine ⟨by rw [pc, s2, w2], fun k => by rw [ix, s3, w3], by rw [re, s1, w1], ?_, ?_, ?_⟩
  · intro r hr hq; rw [e, s4 r (w4 _ hq), w7 r hr]
  · intro k hk; rw [p, s5 k (fun h => w4 _ (hk h).2), w8 k (fun h => (hk h).1)]
  · intro hd r v hm
    have hn : ResultName.reg r ∈ rs.names := List.mem_map.2 ⟨_, hm, rfl⟩
    rw [e, s4 r (w6 _ hn).quiet, Thread.writeAll_value rs th r v hm hd]

/-- Results without p6 are kept apart from the predicates. -/
theorem Thread.commit_now_keeps (th : Thread) (len : Nat) (rs : Results) (qs ps : List Nat)
    (hr : ∀ r, .reg r ∈ rs.names → r ∈ qs) (hp : ResultName.p6 ∈ rs.names → 6 ∈ ps) :
    th.Keeps (th.commit len .now rs) qs ps := by
  obtain ⟨-, -, h3, h4, h5, -⟩ := th.commit_now len rs
  refine ⟨fun r hq hy => h4 r (fun e => hq (hr r e)) hy, fun k hk hy => h5 k (fun e => ⟨fun h => ?_, hy e⟩), h3⟩
  subst e; exact hk (hp h)

/-! ## Transient results (R70) -/

theorem Thread.forwardResult_readReg (th : Thread) (q r : Nat) (v : Word) :
    (th.forwardResult q v).readReg r = if r = q then v else th.readReg r := by
  unfold Thread.readReg Thread.forwardResult
  simp only [List.find?_append]
  by_cases h : r = q
  · subst h
    rw [find?_none_filter _ _ _ (fun x _ hx => by simpa using hx)]
    simp
  · rw [find?_filter_of _ _ _ (fun x _ hx => by
      simp only [decide_eq_true_eq] at hx ⊢; rw [hx]; simpa using h)]
    cases th.trans.find? (fun x => decide (x.name = ResultName.reg r)) with
    | some x => simp [h]
    | none => simp [h, Ne.symm h]

theorem Thread.forwardOne_spec (th : Thread) (n : ResultName) (v : Word) :
    (th.forwardOne n v).rest = th.rest ∧ (th.forwardOne n v).pc = th.pc ∧ (∀ k, (th.forwardOne n v).ix k = th.ix k) ∧
    (∀ k, (th.forwardOne n v).pred k = th.pred k) ∧
    (∀ r, (th.forwardOne n v).readReg r = if n = .reg r then v else th.readReg r) := by
  cases n with
  | reg q =>
    refine ⟨rfl, rfl, fun _ => rfl, fun _ => rfl, fun r => ?_⟩
    simp only [Thread.forwardOne, Thread.forwardResult_readReg, ResultName.reg.injEq]
    simp [eq_comm]
  | p6 => exact ⟨rfl, rfl, fun _ => rfl, fun _ => rfl, fun r => by simp [Thread.forwardOne]⟩

theorem Thread.forwardAll_spec (rs : Results) (th : Thread) :
    (th.forwardAll rs).rest = th.rest ∧ (th.forwardAll rs).pc = th.pc ∧ (∀ k, (th.forwardAll rs).ix k = th.ix k) ∧
    (∀ k, (th.forwardAll rs).pred k = th.pred k) ∧
    (∀ r, .reg r ∉ rs.names → (th.forwardAll rs).readReg r = th.readReg r) ∧
    (rs.names.Nodup → ∀ r v, (.reg r, v) ∈ rs → (th.forwardAll rs).readReg r = v) := by
  induction rs generalizing th with
  | nil => simp [Thread.forwardAll, Results.names]
  | cons e rs ih =>
    obtain ⟨n, v⟩ := e
    have e0 : th.forwardAll ((n, v) :: rs) = (th.forwardOne n v).forwardAll rs := rfl
    obtain ⟨f1, f2, f3, f4, f5⟩ := th.forwardOne_spec n v
    obtain ⟨h1, h2, h3, h4, h5, h6⟩ := ih (th.forwardOne n v)
    rw [e0]
    refine ⟨by rw [h1, f1], by rw [h2, f2], fun k => by rw [h3, f3], fun k => by rw [h4, f4], ?_, ?_⟩
    · intro r hr
      simp only [Results.names, List.map_cons, List.mem_cons, not_or] at hr
      rw [h5 r hr.2, f5, if_neg (fun e => hr.1 e.symm)]
    · intro hd r w hm
      simp only [Results.names, List.map_cons, List.nodup_cons] at hd
      simp only [List.mem_cons, Prod.mk.injEq] at hm
      rcases hm with ⟨rfl, rfl⟩ | hm
      · rw [h5 r hd.1, f5, if_pos rfl]
      · exact h6 hd.2 r w hm

/-- An instruction with tr = 1 (R70): its results are forwarded, and no register of the file is written. -/
theorem Thread.commit_forward (th : Thread) (len : Nat) (rs : Results) :
    (th.commit len .forward rs).pc = th.pc + BitVec.ofNat 32 len ∧ (∀ k, (th.commit len .forward rs).ix k = th.ix k) ∧
    (th.commit len .forward rs).rest = th.rest ∧
    (∀ r, .reg r ∉ rs.names → th.Quiet (.reg r) → (th.commit len .forward rs).readReg r = th.readReg r) ∧
    (∀ k, (k = 6 → th.Quiet .p6) → (th.commit len .forward rs).pred k = th.pred k) ∧
    (rs.names.Nodup → ∀ r v, (.reg r, v) ∈ rs → (th.commit len .forward rs).readReg r = v) := by
  obtain ⟨s1, s2, s3, s4, s5, s6⟩ := Thread.settle_spec th
  obtain ⟨f1, f2, f3, f4, f5, f6⟩ := Thread.forwardAll_spec rs th.settle
  have e : ∀ r, (th.commit len .forward rs).readReg r = (th.settle.forwardAll rs).readReg r := fun _ => rfl
  have p : ∀ k, (th.commit len .forward rs).pred k = (th.settle.forwardAll rs).pred k := fun _ => rfl
  have pc : (th.commit len .forward rs).pc = (th.settle.forwardAll rs).pc + BitVec.ofNat 32 len := rfl
  have ix : ∀ k, (th.commit len .forward rs).ix k = (th.settle.forwardAll rs).ix k := fun _ => rfl
  have re : (th.commit len .forward rs).rest = (th.settle.forwardAll rs).rest := rfl
  refine ⟨by rw [pc, f2, s2], fun k => by rw [ix, f3, s3], by rw [re, f1, s1], ?_, ?_, ?_⟩
  · intro r hr hq; rw [e, f5 r hr, s4 r hq]
  · intro k hk; rw [p, f4, s5 k hk]
  · intro hd r v hm; rw [e, f6 hd r v hm]

/-! ## Promises (R69) -/

theorem Thread.dropPromises_spec (rs : Results) (th : Thread) :
    (th.dropPromises rs).rest = th.rest ∧ (th.dropPromises rs).pc = th.pc ∧
    (∀ k, (th.dropPromises rs).ix k = th.ix k) ∧ (∀ k, (th.dropPromises rs).pred k = th.pred k) ∧
    (th.dropPromises rs).trans = th.trans ∧ (∀ r, (th.dropPromises rs).readReg r = th.readReg r) ∧
    (∀ n, th.Quiet n → (th.dropPromises rs).Quiet n) ∧
    (∀ h ∈ (th.dropPromises rs).pend, h ∈ th.pend ∧ h.name ∉ rs.names) := by
  induction rs generalizing th with
  | nil => simp [Thread.dropPromises, Results.names]
  | cons e rs ih =>
    obtain ⟨n, v⟩ := e
    have e0 : th.dropPromises ((n, v) :: rs) = (th.dropPromise n).dropPromises rs := rfl
    obtain ⟨h1, h2, h3, h4, h5, h6, h7, h8⟩ := ih (th.dropPromise n)
    rw [e0]
    refine ⟨h1, h2, h3, h4, h5, h6, fun m hm => h7 m ⟨fun h hh => hm.1 h (List.mem_filter.1 hh).1, hm.2⟩, ?_⟩
    intro h hh
    obtain ⟨g1, g2⟩ := h8 h hh
    have g := List.mem_filter.1 g1
    simp only [Results.names, List.map_cons, List.mem_cons, not_or] at g2 ⊢
    exact ⟨g.1, of_decide_eq_true g.2, g2⟩

theorem Thread.holdAll_spec (rs : Results) (k : Nat) (hk : k ≠ 0) (th : Thread) :
    (th.holdAll k rs).rest = th.rest ∧ (th.holdAll k rs).pc = th.pc ∧ (∀ j, (th.holdAll k rs).ix j = th.ix j) ∧
    (∀ j, (th.holdAll k rs).pred j = th.pred j) ∧ (∀ r, (th.holdAll k rs).readReg r = th.readReg r) ∧
    (th.holdAll k rs).regs = th.regs ∧
    (th.holdAll k rs).pend =
      th.pend ++ rs.map (fun r => { name := r.1, value := r.2, left := k, seq := th.icount }) := by
  induction rs generalizing th with
  | nil => simp [Thread.holdAll]
  | cons e rs ih =>
    obtain ⟨n, v⟩ := e
    have e0 : th.holdAll k ((n, v) :: rs) = (th.holdResult k n v).holdAll k rs := rfl
    have e1 : th.holdResult k n v =
        { th with pend := th.pend ++ [{ name := n, value := v, left := k, seq := th.icount }] } := by
      simp [Thread.holdResult, hk]
    obtain ⟨h1, h2, h3, h4, h5, h6, h7⟩ := ih (th.holdResult k n v)
    rw [e0]
    refine ⟨by rw [h1, e1]; rfl, by rw [h2, e1], fun j => by rw [h3, e1]; rfl, fun j => by rw [h4, e1]; rfl,
      fun r => by rw [h5, e1]; rfl, by rw [h6, e1], by rw [h7, e1]; simp⟩

/-- An instruction whose la is k (R69): for k = 0 as at once; otherwise the file is as before, and the promises stand. -/
theorem Thread.commit_after (th : Thread) (len k : Nat) (rs : Results) :
    (th.commit len (.after k) rs).pc = th.pc + BitVec.ofNat 32 len ∧
    (∀ j, (th.commit len (.after k) rs).ix j = th.ix j) ∧ (th.commit len (.after k) rs).rest = th.rest ∧
    (∀ r, .reg r ∉ rs.names → th.Quiet (.reg r) → (th.commit len (.after k) rs).readReg r = th.readReg r) ∧
    (∀ j, (j = 6 → ResultName.p6 ∉ rs.names ∧ th.Quiet .p6) → (th.commit len (.after k) rs).pred j = th.pred j) ∧
    (k = 0 → rs.names.Nodup → ∀ r v, (.reg r, v) ∈ rs → (th.commit len (.after k) rs).readReg r = v) ∧
    (k ≠ 0 → ∀ r, .reg r ∈ rs.names → (∀ h ∈ th.trans, h.name = .reg r → 1 < h.left) →
      (th.commit len (.after k) rs).readReg r = th.readReg r) ∧
    (k ≠ 0 → ∀ e ∈ rs, ∃ h ∈ (th.commit len (.after k) rs).pend, h.name = e.1 ∧ h.value = e.2 ∧ h.left = k) := by
  by_cases hk : k = 0
  · subst hk
    obtain ⟨h1, h2, h3, h4, h5, h6⟩ := th.commit_now len rs
    exact ⟨h1, h2, h3, h4, h5, fun _ => h6, fun h => absurd rfl h, fun h => absurd rfl h⟩
  · obtain ⟨g1, g2, g3, g4, g5, g6, g7, g8⟩ := Thread.dropPromises_spec rs th
    obtain ⟨s1, s2, s3, s4, s5, s6⟩ := Thread.settle_spec (th.dropPromises rs)
    obtain ⟨a1, a2, a3, a4, a5, a6, a7⟩ := Thread.holdAll_spec rs k hk (th.dropPromises rs).settle
    have e : th.commit len (.after k) rs =
        { (th.dropPromises rs).settle.holdAll k rs with
          pc := ((th.dropPromises rs).settle.holdAll k rs).pc + BitVec.ofNat 32 len
          cameFrom := some ((th.dropPromises rs).settle.holdAll k rs).pc, wait := none } := by
      simp [Thread.commit, Thread.resultsBefore, Thread.resultsAfter, hk]
    rw [e]
    have er : ∀ r, ({ (th.dropPromises rs).settle.holdAll k rs with
          pc := ((th.dropPromises rs).settle.holdAll k rs).pc + BitVec.ofNat 32 len
          cameFrom := some ((th.dropPromises rs).settle.holdAll k rs).pc, wait := none } : Thread).readReg r =
        (th.dropPromises rs).settle.readReg r := fun r => a5 r
    refine ⟨by simp [a2, s2, g2], fun j => (a3 j).trans ((s3 j).trans (g3 j)), ?_, ?_, ?_, fun h => absurd h hk, ?_, ?_⟩
    · exact (rfl : _ = ((th.dropPromises rs).settle.holdAll k rs).rest).trans (a1.trans (s1.trans g1))
    · intro r hr hq; rw [er, s4 r (g7 _ hq), g6 r]
    · intro j hj
      exact (a4 j).trans ((s5 j (fun h => g7 _ (hj h).2)).trans (g4 j))
    · intro _ r hr hq
      rw [er, s4 r ⟨fun h hh hn => absurd (hn ▸ hr) (g8 h hh).2, by rw [g5]; exact hq⟩, g6 r]
    · intro _ x hx
      refine ⟨{ name := x.1, value := x.2, left := k, seq := (th.dropPromises rs).settle.icount }, ?_, rfl, rfl, rfl⟩
      simp only [a7, List.mem_append, List.mem_map]
      exact .inr ⟨x, hx, rfl⟩

/-! ## The advance of index registers (R64) -/

/-- The advance touches index registers alone. -/
theorem Thread.advanceIx_spec (os : List Opnd) (th : Thread) :
    (th.advanceIx os).pc = th.pc ∧ (th.advanceIx os).rest = th.rest ∧
    (∀ r, (th.advanceIx os).readReg r = th.readReg r) ∧ (∀ k, (th.advanceIx os).pred k = th.pred k) := by
  induction os generalizing th with
  | nil => exact ⟨rfl, rfl, fun _ => rfl, fun _ => rfl⟩
  | cons o os ih =>
    have step : ∃ th1 : Thread, th.advanceIx (o :: os) = th1.advanceIx os ∧ th1.pc = th.pc ∧ th1.rest = th.rest ∧
        (∀ r, th1.readReg r = th.readReg r) ∧ (∀ k, th1.pred k = th.pred k) := by
      simp only [Thread.advanceIx, List.foldl_cons]
      refine ⟨_, rfl, ?_⟩
      split
      · split
        · unfold Thread.setIx
          split
          · exact ⟨rfl, rfl, fun _ => rfl, fun _ => rfl⟩
          · split
            · exact ⟨rfl, rfl, fun _ => rfl, fun _ => rfl⟩
            · split <;> exact ⟨rfl, rfl, fun _ => rfl, fun _ => rfl⟩
        · exact ⟨rfl, rfl, fun _ => rfl, fun _ => rfl⟩
      · exact ⟨rfl, rfl, fun _ => rfl, fun _ => rfl⟩
    obtain ⟨th1, e, p1, p2, p3, p4⟩ := step
    obtain ⟨h1, h2, h3, h4⟩ := ih th1
    rw [e]
    exact ⟨h1.trans p1, h2.trans p2, fun r => (h3 r).trans (p3 r), fun k => (h4 k).trans (p4 k)⟩

/-- Index registers that agree advance alike. -/
theorem Thread.advanceIx_congr (os : List Opnd) (th th' : Thread) (h : ∀ k, th'.ix k = th.ix k) (k : Nat) :
    (th'.advanceIx os).ix k = (th.advanceIx os).ix k := by
  induction os generalizing th th' with
  | nil => exact h k
  | cons o os ih =>
    simp only [Thread.advanceIx, List.foldl_cons] at ih ⊢
    apply ih
    intro j
    split
    · split
      · rename_i q _ _
        have : ∀ (t : Thread) (r : IxReg), (t.setIx q r).ix j =
            if (j = 0 ∧ q = 0) ∨ (j = 1 ∧ q = 1) ∨ (j = 2 ∧ q = 2) ∨ (2 < j ∧ 2 < q) then r else t.ix j := by
          intro t r
          unfold Thread.setIx Thread.ix
          split <;> split <;> (try split) <;> (try split) <;> (try split) <;> (try split) <;> simp_all <;> omega
        simp only [this, h]
      · exact h j
    · exact h j

end Sys2Proof.Machine
end

