-- ==== Sys2Proof/Laws/Lanes.lean ====
section
/-! SUPPORT. What the shared frames do: the checks of R76 in front of an effect, the lanes of a bundle that act together,
and the lane instructions of R128. -/

namespace Sys2Proof.Machine

open Sys2Proof

/-! ## Reaching crews and threads -/

theorem State.crew?_modCrew (s : State) (c d : Nat) (f : Crew → Crew) :
    (s.modCrew c f).crew? d = if d = c then (s.crew? d).map f else s.crew? d := Table.get?_adjust _ _ _ _

theorem State.thread?_of_crew (s : State) (c u : Nat) (cr : Crew) (h : s.crew? c = some cr) :
    s.thread? c u = Table.get? cr.threads u := by simp [State.thread?, h]

theorem State.thread?_eq (s t : State) (c u : Nat) (h : t.crew? c = s.crew? c) : t.thread? c u = s.thread? c u := by
  simp [State.thread?, h]

theorem State.thread?_modThread (s : State) (c d tid u : Nat) (f : Thread → Thread) :
    (s.modThread c tid f).thread? d u =
      if d = c ∧ u = tid then (s.thread? d u).map f else s.thread? d u := by
  unfold State.thread? State.modThread
  rw [State.crew?_modCrew]
  by_cases hd : d = c
  · subst hd
    cases h : s.crew? d with
    | none => simp
    | some cr => simp [Crew.modThread, Table.get?_adjust]
  · simp [hd]

theorem State.crew?_modThread_bare (s : State) (c d tid : Nat) (f : Thread → Thread) :
    ((s.modThread c tid f).crew? d).map Crew.bare = (s.crew? d).map Crew.bare := by
  unfold State.modThread
  rw [State.crew?_modCrew]
  split
  · cases s.crew? d <;> rfl
  · rfl

/-! ## The order of R76 -/

theorem State.guarded_of_clear (s : State) (l : Legality) (body : State → State) (h : s.Clear l) :
    s.guarded l body = body s := by
  obtain ⟨h1, h2, h3, h4, h5⟩ := h
  simp [State.guarded, h1, h2, h3, h4, h5]

/-- A bundle without lanes does nothing. -/
theorem State.guarded_of_empty (s : State) (l : Legality) (body : State → State) (h : s.curLanes = []) :
    s.guarded l body = s := by simp [State.guarded, h]

/-! ## Lanes that act together -/

/-- The image of a thread of the bundle's crew under its lane. -/
def State.laneImage (s : State) (f : Lane → Thread → Thread) (u : Nat) (th : Thread) : Thread :=
  match s.cur.lanes.find? (fun l => l.tid = u && l.issued) with
  | some l => f l th
  | none => th

theorem State.mapLanes_thread? (s : State) (f : Lane → Thread → Thread) (c u : Nat) :
    (s.mapLanes f).thread? c u =
      if c = s.cur.crew then (s.thread? c u).map (s.laneImage f u) else s.thread? c u := by
  unfold State.thread? State.mapLanes State.modThreads
  rw [State.crew?_modCrew]
  by_cases hc : c = s.cur.crew
  · subst hc
    cases h : s.crew? s.cur.crew with
    | none => simp
    | some cr => simp only [if_true, Option.map_some, Table.get?_mapVals]; rfl
  · simp [hc]

theorem State.mapLanes_crewOnly (s : State) (f : Lane → Thread → Thread) : s.CrewOnly (s.mapLanes f) := by
  refine ⟨rfl, fun c hc => ?_⟩
  unfold State.mapLanes State.modThreads
  rw [State.crew?_modCrew, if_neg hc]

theorem State.mapLanes_bare (s : State) (f : Lane → Thread → Thread) (c : Nat) :
    ((s.mapLanes f).crew? c).map Crew.bare = (s.crew? c).map Crew.bare := by
  unfold State.mapLanes State.modThreads
  rw [State.crew?_modCrew]
  split
  · cases s.crew? c <;> rfl
  · rfl

theorem Bundle.mem_tids (b : Bundle) (u : Nat) : u ∈ b.tids ↔ ∃ l ∈ b.lanes, l.issued = true ∧ l.tid = u := by
  simp [Bundle.tids, and_assoc]

theorem State.laneImage_of_not_mem (s : State) (f : Lane → Thread → Thread) (u : Nat) (th : Thread)
    (h : u ∉ s.cur.tids) : s.laneImage f u th = th := by
  unfold State.laneImage
  rw [List.find?_eq_none.2]
  intro l hl
  simp only [Bool.and_eq_true, decide_eq_true_eq, not_and, Bool.not_eq_true]
  intro ht
  by_contra hi
  exact h ((s.cur.mem_tids u).2 ⟨l, hl, by simpa using hi, ht⟩)

/-- Lanes that act together change the threads that issue alone. -/
theorem State.mapLanes_threadsOnly (s : State) (f : Lane → Thread → Thread) : s.ThreadsOnly (s.mapLanes f) := by
  refine ⟨s.mapLanes_crewOnly f, s.mapLanes_bare f _, fun u hu => ?_⟩
  rw [State.mapLanes_thread?, if_pos rfl]
  cases s.thread? s.cur.crew u with
  | none => rfl
  | some th => simp [s.laneImage_of_not_mem f u th hu]

/-- A thread that issues goes through its lane; a lane's image depends on the lane only through its thread. -/
theorem State.mapLanes_lane (s : State) (f : Lane → Thread → Thread) (l : Lane) (th : Thread) (hl : l ∈ s.cur.lanes)
    (hi : l.issued = true) (ht : s.thread? s.cur.crew l.tid = some th) :
    (s.mapLanes f).thread? s.cur.crew l.tid = some (f l th) := by
  rw [State.mapLanes_thread?, if_pos rfl, ht, Option.map_some, State.laneImage]
  cases hf : s.cur.lanes.find? (fun k => k.tid = l.tid && k.issued) with
  | none =>
    rw [List.find?_eq_none] at hf
    exact absurd (by simp [hi]) (hf l hl)
  | some k =>
    have := List.find?_some hf
    simp only [Bool.and_eq_true, decide_eq_true_eq] at this
    obtain ⟨a, b⟩ := k; obtain ⟨c, d⟩ := l
    simp_all

/-! ## The lane instructions (R128) -/

theorem Thread.regOf_ne_regHiOf (th : Thread) (f : BitVec 7) : th.regOf f ≠ th.regHiOf f := by
  unfold Thread.regOf Thread.regHiOf
  split
  · unfold Thread.rename
    split
    · omega
    · rename_i b size _
      split <;> split
      · rename_i h1 h2
        intro e
        have e : (f.toNat - b + th.rb) % size = (f.toNat + 1 - b + th.rb) % size := by omega
        have : f.toNat + 1 - b + th.rb = (f.toNat - b + th.rb) + 1 := by omega
        rw [this] at e
        have h3 : (f.toNat - b + th.rb) + 1 ≡ (f.toNat - b + th.rb) + 0 [MOD size] := e.symm
        have h4 : 1 ≡ 0 [MOD size] := Nat.ModEq.add_left_cancel' _ h3
        have h5 := (Nat.modEq_zero_iff_dvd).1 h4
        have := Nat.le_of_dvd (by omega) h5
        omega
      · rename_i h1 h2
        have := Nat.mod_lt (f.toNat - b + th.rb) (show 0 < size by omega)
        omega
      · rename_i h1 h2
        have := Nat.mod_lt (f.toNat + 1 - b + th.rb) (show 0 < size by omega)
        omega
      · omega
  · omega

/-- The results of a destination are the words of its registers, and their names are distinct. -/
theorem Thread.regResults_spec (th : Thread) (d : Dst) (v : Dword) :
    (th.regResults d v).names.Nodup ∧ (∀ r, .reg r ∈ (th.regResults d v).names ↔ r ∈ d.regs th) ∧
    ResultName.p6 ∉ (th.regResults d v).names := by
  cases d with
  | r32 f => simp [Thread.regResults, Results.names, Dst.regs]
  | r64 f =>
    simp only [Thread.regResults, Results.names, Dst.regs, List.map_cons, List.map_nil]
    refine ⟨by simpa using th.regOf_ne_regHiOf f, fun r => by simp, by simp⟩
  | pred k => simp [Thread.regResults, Results.names, Dst.regs]
  | preds => simp [Thread.regResults, Results.names, Dst.regs]

/-- Every way in which the results of R128 reach their registers. -/
theorem Thread.commit_mode (tr : Bool) (th : Thread) (len : Nat) (rs : Results) (md : ResultMode)
    (hmd : md = if tr then .forward else .now) :
    (th.commit len md rs).pc = th.pc + BitVec.ofNat 32 len ∧ (∀ k, (th.commit len md rs).ix k = th.ix k) ∧
    (th.commit len md rs).rest = th.rest ∧
    (∀ r, .reg r ∉ rs.names → th.Quiet (.reg r) → (th.commit len md rs).readReg r = th.readReg r) ∧
    (∀ k, (k = 6 → ResultName.p6 ∉ rs.names ∧ th.Quiet .p6) → (th.commit len md rs).pred k = th.pred k) ∧
    (rs.names.Nodup → ∀ r v, (.reg r, v) ∈ rs → (th.commit len md rs).readReg r = v) := by
  subst hmd
  split
  · obtain ⟨h1, h2, h3, h4, h5, h6⟩ := th.commit_forward len rs
    exact ⟨h1, h2, h3, h4, fun k hk => h5 k (fun e => (hk e).2), h6⟩
  · exact th.commit_now len rs

/-- What a destination's predicate write does (R65, R137). -/
theorem Thread.predResults_spec (th : Thread) (d : Dst) (v : Dword) :
    (th.predResults d v).pc = th.pc ∧ (th.predResults d v).rest = th.rest ∧
    (∀ k, (th.predResults d v).ix k = th.ix k) ∧ (∀ r, (th.predResults d v).readReg r = th.readReg r) ∧
    (∀ n, th.Quiet n → (th.predResults d v).Quiet n) ∧
    (∀ k, k ∉ d.predsOf → (th.predResults d v).pred k = th.pred k) ∧
    (6 ∈ d.predsOf → (th.predResults d v).Free .p6) ∧
    (∀ f, (th.predResults d v).regOf f = th.regOf f ∧ (th.predResults d v).regHiOf f = th.regHiOf f) := by
  cases d with
  | r32 f => exact ⟨rfl, rfl, fun _ => rfl, fun _ => rfl, fun _ h => h, fun _ _ => rfl, by simp [Dst.predsOf], fun _ => ⟨rfl, rfl⟩⟩
  | r64 f => exact ⟨rfl, rfl, fun _ => rfl, fun _ => rfl, fun _ h => h, fun _ _ => rfl, by simp [Dst.predsOf], fun _ => ⟨rfl, rfl⟩⟩
  | pred k =>
    by_cases h7 : k.toNat = 7
    · simp only [Thread.predResults, Thread.writePred, h7, if_true, Dst.predsOf]
      exact ⟨trivial, trivial, fun _ => trivial, fun _ => trivial, fun _ h => h, fun _ _ => trivial, by simp, fun _ => ⟨trivial, trivial⟩⟩
    · have hk : k.toNat < 7 := by have := k.isLt; omega
      by_cases h6 : k.toNat = 6
      · simp only [Thread.predResults, Thread.writePred, h6, Dst.predsOf]
        refine ⟨rfl, rfl, fun _ => rfl, fun r => th.readReg_forget .p6 r (by simp), fun _ h => h.forget .p6, ?_,
          fun _ => th.free_forget .p6, fun _ => ⟨rfl, rfl⟩⟩
        intro j hj
        simp only [Thread.pred]
        split
        · rfl
        · rw [if_neg (by omega)]
          simp only [if_true]
          rw [setBit7_getLsbD _ _ _ _ (by omega), if_neg (by simpa using hj)]
          rfl
      · have e : th.predResults (.pred k) v = { th with preds := setBit7 th.preds k.toNat (wordBool v) } := by
          simp [Thread.predResults, Thread.writePred, h7, h6]
        rw [e]
        refine ⟨rfl, rfl, fun _ => rfl, fun _ => rfl, fun _ h => h, ?_, ?_, fun _ => ⟨rfl, rfl⟩⟩
        · intro j hj
          simp only [Thread.pred]
          split
          · rfl
          · rw [setBit7_getLsbD _ _ _ _ hk, if_neg (by simpa [Dst.predsOf] using hj)]
        · intro h; simp [Dst.predsOf] at h; omega
  | preds =>
    refine ⟨rfl, rfl, fun _ => rfl, fun r => th.readReg_forget .p6 r (by simp), fun _ h => h.forget .p6, ?_,
      fun _ => th.free_forget .p6, fun _ => ⟨rfl, rfl⟩⟩
    intro j hj
    simp only [Thread.predResults, Thread.pred]
    split
    · rfl
    · have : ¬j < 7 := by intro h; apply hj; simp [Dst.predsOf]; omega
      rw [BitVec.getLsbD_of_ge _ _ (by omega), BitVec.getLsbD_of_ge _ _ (by omega)]

/-- The value of a predicate destination. -/
theorem Thread.predResults_value (th : Thread) (v : Dword) :
    (∀ k : BitVec 3, (th.predResults (.pred k) v).pred k.toNat = if k = 7#3 then true else wordBool v) ∧
    (∀ k, k < 7 → (th.predResults .preds v).pred k = v.getLsbD k) := by
  constructor
  · intro k
    by_cases h7 : k = 7#3
    · subst h7; simp [Thread.pred]
    · have hk : k.toNat < 7 := by
        have := k.isLt
        rcases Nat.lt_or_ge k.toNat 7 with h | h
        · exact h
        · exact absurd (BitVec.eq_of_toNat_eq (show k.toNat = (7#3).toNat by simp; omega)) h7
      have hk7 : k.toNat ≠ 7 := by omega
      simp only [Thread.predResults, Thread.writePred, Thread.pred, hk7, if_false, h7]
      split <;> rw [setBit7_getLsbD _ _ _ _ hk, if_pos rfl]
  · intro k hk
    simp only [Thread.predResults, Thread.pred]
    rw [if_neg (by omega), BitVec.getLsbD_extractLsb']
    simp [hk]

/-- A destination holds its value when its registers read as the results and its predicates as written. -/
theorem Thread.holds_of (th u : Thread) (d : Dst) (v : Dword)
    (val : ∀ r w, (.reg r, w) ∈ th.regResults d v → u.readReg r = w)
    (prd : ∀ k, k ∈ d.predsOf → u.pred k = (th.predResults d v).pred k) : th.Holds u d v := by
  cases d with
  | r32 f => exact val _ _ (by simp [Thread.regResults])
  | r64 f => exact ⟨val _ _ (by simp [Thread.regResults]), val _ _ (by simp [Thread.regResults])⟩
  | pred k => exact (prd k.toNat (by simp [Dst.predsOf])).trans ((th.predResults_value v).1 k)
  | preds =>
    intro k hk
    exact (prd k (by simp [Dst.predsOf]; omega)).trans ((th.predResults_value v).2 k hk)

/-- One lane of R128. -/
theorem Thread.lane_spec (th : Thread) (b : Bundle) (l : Lane) (d : Dst) (tr : Bool) (os : List Opnd) (v : Dword)
    (md : ResultMode) (hmd : md = if tr then .forward else .now) (x : Thread)
    (hx : x = if b.active l th then ((th.predResults d v).commit b.length md (th.regResults d v)).advanceIx os
      else if b.mz then th.commit b.length md (th.regResults d 0#64) else th.commit b.length md []) :
    x.pc = th.pc + BitVec.ofNat 32 b.length ∧
    if b.active l th then
      th.Holds x d v ∧ th.Keeps x (d.regs th) d.predsOf ∧
        ∀ k, x.ix k = (th.advanceIx os).ix k
    else
      (if b.mz && d.isReg then th.Holds x d 0#64 ∧ th.Keeps x (d.regs th) []
        else th.Keeps x [] []) ∧ ∀ k, x.ix k = th.ix k := by
  by_cases ha : b.active l th = true
  · obtain ⟨p1, p2, p3, p4, p5, p6, p7, p8⟩ := th.predResults_spec d v
    obtain ⟨d1, d2, d3⟩ := th.regResults_spec d v
    obtain ⟨c1, c2, c3, c4, c5, c6⟩ := Thread.commit_mode tr (th.predResults d v) b.length (th.regResults d v) md hmd
    have ha' : x = (((th.predResults d v).commit b.length md (th.regResults d v)).advanceIx
      os) := by rw [hx, if_pos ha]
    obtain ⟨a1, a2, a3, a4⟩ := Thread.advanceIx_spec os
      ((th.predResults d v).commit b.length md (th.regResults d v))
    rw [ha', if_pos ha]
    refine ⟨by rw [a1, c1, p1], ?_, ⟨?_, ?_, by rw [a2, c3, p2]⟩, ?_⟩
    · refine Thread.holds_of th _ _ _ (fun r w hm => by rw [a3, c6 d1 r w hm]) (fun k hk => ?_)
      rw [a4, c5 k (fun e => ⟨d3, (p7 (e ▸ hk)).quiet⟩)]
    · intro r hr hq
      rw [a3, c4 r (fun e => hr ((d2 r).1 e)) (p5 _ hq), p4]
    · intro k hk hq
      rw [a4, c5 k (fun e => ⟨d3, p5 _ (hq e)⟩), p6 k hk]
    · intro k
      exact Thread.advanceIx_congr _ _ _ (fun j => by rw [c2, p3]) k
  · by_cases hz : b.mz = true
    · obtain ⟨d1, d2, d3⟩ := th.regResults_spec d 0#64
      obtain ⟨c1, c2, c3, c4, c5, c6⟩ := Thread.commit_mode tr th b.length (th.regResults d 0#64) md hmd
      have ha' : x = th.commit b.length md (th.regResults d 0#64) := by
        rw [hx, if_neg ha, if_pos hz]
      rw [ha', if_neg ha]
      refine ⟨c1, ?_, c2⟩
      have keep : ∀ qs, (∀ r, r ∈ d.regs th → r ∈ qs) →
          th.Keeps (th.commit b.length md (th.regResults d 0#64)) qs [] := fun qs hqs =>
        ⟨fun r hr hq => c4 r (fun e => hr (hqs r ((d2 r).1 e))) hq, fun k _ hq => c5 k (fun e => ⟨d3, hq e⟩), c3⟩
      have val : ∀ r w, (.reg r, w) ∈ th.regResults d 0#64 →
          (th.commit b.length md (th.regResults d 0#64)).readReg r = w := fun r w => c6 d1 r w
      by_cases hreg : d.isReg = true
      · simp only [hz, hreg, Bool.and_self, if_true]
        refine ⟨?_, keep _ (fun _ h => h)⟩
        refine Thread.holds_of th _ _ _ val (fun k hk => ?_)
        revert hreg hk
        cases d <;> simp [Dst.isReg, Dst.predsOf]
      · simp only [hreg, Bool.and_false, Bool.false_eq_true, if_false]
        refine keep [] (fun r h => ?_)
        revert hreg h
        cases d <;> simp [Dst.isReg, Dst.regs]
    · obtain ⟨c1, c2, c3, c4, c5, c6⟩ := Thread.commit_mode tr th b.length [] md hmd
      have ha' : x = th.commit b.length md [] := by rw [hx, if_neg ha, if_neg hz]
      rw [ha', if_neg ha]
      refine ⟨c1, ?_, c2⟩
      simp only [hz, Bool.false_and, Bool.false_eq_true, if_false]
      exact ⟨fun r _ hq => c4 r (by simp [Results.names]) hq, fun k _ hq => c5 k (fun e => ⟨by simp [Results.names], hq e⟩), c3⟩

theorem Thread.aluLane_spec (th : Thread) (b : Bundle) (l : Lane) (fm : AluForm) (v : Dword) :
    (th.aluLane b l fm v).pc = th.pc + BitVec.ofNat 32 b.length ∧
    if b.active l th then
      th.Holds (th.aluLane b l fm v) fm.dst v ∧ th.Keeps (th.aluLane b l fm v) (fm.dst.regs th) fm.dst.predsOf ∧
        ∀ k, (th.aluLane b l fm v).ix k = (th.advanceIx (fm.legality b).opnds).ix k
    else
      (if b.mz && fm.dst.isReg then th.Holds (th.aluLane b l fm v) fm.dst 0#64 ∧ th.Keeps (th.aluLane b l fm v) (fm.dst.regs th) []
        else th.Keeps (th.aluLane b l fm v) [] []) ∧ ∀ k, (th.aluLane b l fm v).ix k = th.ix k :=
  th.lane_spec b l fm.dst fm.tr _ v fm.mode rfl _ rfl

/-- The frame of every cross-lane instruction (R147, R148). -/
theorem State.xlane_gives (s : State) (i : Instr) (x : XlForm) (va : BitVec 7) (ids : Lane → Thread → List Int)
    (v : Lane → Thread → Dword) (hi : exec i s = .next (s.xlane x va ids v)) : s.XlGives i x v := by
  intro hc hp
  refine ⟨_, hi, ?_⟩
  rw [show s.xlane x va ids v = s.guarded x.legality _ from rfl, State.guarded_of_clear s _ _ hc]
  dsimp only
  split
  · rename_i r rs h
    have hr : r ∈ r :: rs := List.mem_cons_self
    rw [← h] at hr
    obtain ⟨e, -, hr⟩ := List.mem_flatMap.1 hr
    obtain ⟨q, hr, -⟩ := List.mem_map.1 hr
    obtain ⟨k, -, hr⟩ := List.mem_flatMap.1 hr
    split at hr
    · rename_i th hth
      simp only [State.source, Option.map_eq_some_iff] at hth
      obtain ⟨e', h1, rfl⟩ := hth
      simp [Thread.readPoisoned, hp e' (List.mem_of_find?_eq_some h1)] at hr
    · simp at hr
  · refine ⟨s.mapLanes_threadsOnly _, fun l th hl his ht => ⟨_, s.mapLanes_lane _ l th hl his ht, ?_⟩⟩
    refine th.lane_spec s.cur l x.dst x.tr _ (v l th) _ rfl _ ?_
    have : th.predResults x.dst (v l th) = th := by unfold XlForm.dst; split <;> rfl
    rw [this]

theorem Thread.rename_injective (th : Thread) (m n : Nat) (h : th.rename m = th.rename n) : m = n := by
  unfold Thread.rename at h
  split at h
  · exact h
  · rename_i b size _
    split at h <;> split at h
    · rename_i h1 h2
      have e : (m - b + th.rb) % size = (n - b + th.rb) % size := by omega
      have h3 : (m - b) + th.rb ≡ (n - b) + th.rb [MOD size] := e
      have h4 : m - b ≡ n - b [MOD size] := Nat.ModEq.add_right_cancel' _ h3
      have h5 : (m - b) % size = (n - b) % size := h4
      rw [Nat.mod_eq_of_lt (by omega), Nat.mod_eq_of_lt (by omega)] at h5
      omega
    · rename_i h1 h2
      have := Nat.mod_lt (m - b + th.rb) (show 0 < size by omega)
      omega
    · rename_i h1 h2
      have := Nat.mod_lt (n - b + th.rb) (show 0 < size by omega)
      omega
    · exact h

/-- The results of a run of registers: their names, and the words in order (R129). -/
theorem Thread.blockResults_spec (th : Thread) (f : BitVec 7) (n v : Nat) :
    (th.blockResults f n v).names.Nodup ∧ ResultName.p6 ∉ (th.blockResults f n v).names ∧
    (∀ r, .reg r ∈ (th.blockResults f n v).names ↔ r ∈ th.runRegs f n) ∧
    ∀ j < n, (.reg (th.blockReg f j), BitVec.ofNat 32 (v / 2 ^ (32 * j))) ∈ th.blockResults f n v := by
  have e : (th.blockResults f n v).names = (List.range n).map (fun i => ResultName.reg (th.blockReg f i)) := by
    simp [Results.names, Thread.blockResults]
  refine ⟨?_, by simp [e], fun r => by simp [e, Thread.runRegs], fun j hj => ?_⟩
  · rw [e]
    refine List.Nodup.map ?_ List.nodup_range
    intro a b h
    have := th.rename_injective _ _ (ResultName.reg.inj h)
    omega
  · simp only [Thread.blockResults, List.mem_map, List.mem_range]
    exact ⟨j, hj, rfl⟩

/-- The frame of every instruction over runs of registers (R129, R146). -/
theorem State.block_gives (s : State) (i : Instr) (vd va : BitVec 7) (nd na : Nat) (f : Rounding → Nat → Nat)
    (hi : exec i s = .next (s.blockOp vd va nd na f)) :
    s.BlocksGive i vd va nd na (fun th => f (roundingOf .rne s.cur.rnd) (th.readBlock va na)) := by
  intro hc
  refine ⟨_, hi, ?_⟩
  rw [State.blockOp, State.guarded_of_clear s _ _ hc]
  refine ⟨s.mapLanes_threadsOnly _, fun l th hl his ht => ⟨_, s.mapLanes_lane _ l th hl his ht, ?_⟩⟩
  have run : ∀ x, th.Keeps (th.commit s.cur.length .now (th.blockResults vd nd x)) (th.runRegs vd nd) [] := fun x => by
    obtain ⟨-, h2, h3, -⟩ := th.blockResults_spec vd nd x
    exact th.commit_now_keeps _ _ _ _ (fun r hr => (h3 r).1 hr) (fun h => absurd h h2)
  have val : ∀ x, ∀ j < nd, (th.commit s.cur.length .now (th.blockResults vd nd x)).readReg (th.blockReg vd j) =
      BitVec.ofNat 32 (x / 2 ^ (32 * j)) := fun x j hj => by
    obtain ⟨h1, -, -, h4⟩ := th.blockResults_spec vd nd x
    exact (th.commit_now _ _).2.2.2.2.2 h1 _ _ (h4 j hj)
  by_cases ha : s.cur.active l th = true
  · simp only [ha, if_true]
    exact ⟨(th.commit_now _ _).1, (th.commit_now _ _).2.1, val _, run _⟩
  · simp only [ha, if_false, Bool.false_eq_true]
    by_cases hz : s.cur.mz = true
    · simp only [hz, if_true]
      exact ⟨(th.commit_now _ _).1, (th.commit_now _ _).2.1, fun j hj => by rw [val _ j hj]; simp, run _⟩
    · simp only [hz, if_false, Bool.false_eq_true]
      exact ⟨(th.commit_now _ _).1, (th.commit_now _ _).2.1,
        th.commit_now_keeps _ _ _ _ (by simp [Results.names]) (by simp [Results.names])⟩

/-- R128 for every lane instruction whose meaning is an operation on the values of a lane's own operands. -/
theorem State.alu_gives (s : State) (i : Instr) (fm : AluForm) (f : BitVec 3 → Dword → Dword → Dword → Dword)
    (v : Thread → Dword) (hi : exec i s = .next (s.alu fm f))
    (hv : ∀ th, f s.cur.rnd (th.value s.cur fm.a) (th.value s.cur fm.b) (th.value s.cur fm.c) = v th) :
    s.LanesGive i fm v := by
  intro hc
  refine ⟨_, hi, ?_⟩
  rw [State.alu, State.guarded_of_clear s _ _ hc]
  refine ⟨s.mapLanes_threadsOnly _, fun l th hl his ht => ?_⟩
  refine ⟨_, s.mapLanes_lane _ l th hl his ht, ?_⟩
  rw [hv]
  exact th.aluLane_spec s.cur l fm (v th)

/-- A mode says nothing about an instruction without results. -/
theorem Thread.commit_nil (th : Thread) (len : Nat) (md : ResultMode) : th.commit len md [] = th.commit len .now [] := by
  cases md with
  | now => rfl
  | forward => rfl
  | after k =>
    unfold Thread.commit Thread.resultsBefore Thread.resultsAfter
    by_cases h : k = 0 <;> simp [h, Thread.writeAll, Thread.dropPromises, Thread.holdAll]

/-- What an instruction over the threads that issue leaves, up to the form of their image. -/
theorem State.mapLanes_become (s : State) (f g : Lane → Thread → Thread) (h : ∀ l th, f l th = g l th) :
    s.LanesBecome (s.mapLanes f) g := by
  have : f = g := by funext l th; exact h l th
  subst this
  exact ⟨s.mapLanes_threadsOnly f, fun l th hl hi ht => s.mapLanes_lane f l th hl hi ht⟩

theorem State.complete_become (s : State) (md : ResultMode) (res : Lane → Thread → Results) :
    s.ActiveBecome (s.complete md res) fun l th => th.commit s.cur.length md (res l th) := by
  refine s.mapLanes_become _ _ fun l th => ?_
  split <;> simp_all [Thread.commit_nil]

/-- An instruction whose class takes no prefix has none when nothing stops it. -/
theorem State.Clear.noPfx {s : State} {l : Legality} (h : s.Clear l) (hc : l.cls.accepts = false) : s.cur.pfx = none := by
  have h2 := h.2.2.1
  unfold State.prefixIllegal at h2
  cases hp : s.cur.pfx with
  | none => rfl
  | some p => simp [hp, PrefixWord.illegal, hc] at h2

end Sys2Proof.Machine
end

