-- ==== Sys2Proof/Laws/Lanewise.lean ====
section
/-! SUPPORT. Lanes that act one after another (R41), where each changes its own thread alone. -/

namespace Sys2Proof.Machine

open Sys2Proof

/-- Two states that differ, if at all, in the threads of the bundle's crew. -/
def State.SameBut (s t : State) : Prop :=
  t.cur = s.cur ∧ s.CrewOnly t ∧ (t.crew? s.cur.crew).map Crew.bare = (s.crew? s.cur.crew).map Crew.bare

theorem State.SameBut.refl (s : State) : s.SameBut s := ⟨rfl, ⟨rfl, fun _ _ => rfl⟩, rfl⟩

theorem State.SameBut.modThread {s t : State} (h : s.SameBut t) (tid : Nat) (f : Thread → Thread) :
    s.SameBut (t.modThread s.cur.crew tid f) := by
  obtain ⟨h1, ⟨h2, h3⟩, h4⟩ := h
  refine ⟨h1, ⟨?_, fun c hc => ?_⟩, ?_⟩
  · exact h2
  · unfold State.modThread; rw [State.crew?_modCrew, if_neg hc]; exact h3 c hc
  · rw [State.crew?_modThread_bare]; exact h4

/-- A run of lanes, each with a thread of its own. -/
theorem State.foldl_own (s : State) (f : State → Lane → Thread → State) (h : Lane → Thread → Thread → Thread)
    (es : List (Lane × Thread)) (hd : (es.map (·.1.tid)).Nodup) (t : State) (ht : s.SameBut t)
    (hth : ∀ e ∈ es, t.thread? s.cur.crew e.1.tid = some e.2)
    (hf : ∀ t e, e ∈ es → s.SameBut t → t.thread? s.cur.crew e.1.tid = some e.2 →
      f t e.1 e.2 = t.modThread s.cur.crew e.1.tid (h e.1 e.2)) :
    s.SameBut (es.foldl (fun (t : State) e => f t e.1 e.2) t) ∧
      (∀ e ∈ es, (es.foldl (fun (t : State) e => f t e.1 e.2) t).thread? s.cur.crew e.1.tid = some (h e.1 e.2 e.2)) ∧
      ∀ u, u ∉ es.map (·.1.tid) →
        (es.foldl (fun (t : State) e => f t e.1 e.2) t).thread? s.cur.crew u = t.thread? s.cur.crew u := by
  induction es generalizing t with
  | nil => exact ⟨ht, fun _ h => absurd h (by simp), fun _ _ => rfl⟩
  | cons a as ih =>
    simp only [List.foldl_cons]
    rw [hf t a (by simp) ht (hth a (by simp))]
    simp only [List.map_cons, List.nodup_cons] at hd
    obtain ⟨i1, i2, i3⟩ := ih hd.2 (t.modThread s.cur.crew a.1.tid (h a.1 a.2)) (ht.modThread _ _)
      (fun e he => by
        rw [State.thread?_modThread, if_neg]
        · exact hth e (by simp [he])
        · rintro ⟨-, h2⟩
          exact hd.1 (by rw [← h2]; exact List.mem_map_of_mem he))
      (fun t e he => hf t e (by simp [he]))
    refine ⟨i1, ?_, ?_⟩
    · intro e he
      rw [List.mem_cons] at he
      rcases he with rfl | he
      · rw [i3 _ hd.1, State.thread?_modThread, if_pos ⟨rfl, rfl⟩, hth e (by simp)]; rfl
      · exact i2 e he
    · intro u hu
      simp only [List.map_cons, List.mem_cons, not_or] at hu
      rw [i3 u hu.2, State.thread?_modThread, if_neg (fun e => hu.1 e.2)]

theorem State.mem_curLanes (s : State) (e : Lane × Thread) :
    e ∈ s.curLanes ↔ e.1 ∈ s.cur.lanes ∧ s.thread? s.cur.crew e.1.tid = some e.2 := by
  unfold State.curLanes State.curCrew? State.thread?
  cases s.crew? s.cur.crew with
  | none => simp
  | some cr =>
    simp only [List.mem_filterMap, Option.map_eq_some_iff]
    constructor
    · rintro ⟨l, hl, th, hth, rfl⟩; exact ⟨hl, hth⟩
    · rintro ⟨hl, hth⟩; exact ⟨e.1, hl, e.2, hth, rfl⟩

theorem State.curLanes_nodup (s : State) (hd : s.Distinct) : (s.curLanes.map (·.1.tid)).Nodup := by
  unfold State.curLanes
  cases s.curCrew? with
  | none => simp
  | some cr =>
    simp only
    unfold State.Distinct at hd
    generalize s.cur.lanes = ls at hd
    induction ls with
    | nil => simp
    | cons a as ih =>
      simp only [List.map_cons, List.nodup_cons] at hd
      rw [List.filterMap_cons]
      cases Table.get? cr.threads a.tid with
      | none => exact ih hd.2
      | some th =>
        simp only [Option.map_some, List.map_cons, List.nodup_cons]
        refine ⟨fun hm => hd.1 ?_, ih hd.2⟩
        rw [List.mem_map] at hm
        obtain ⟨e, he, h2⟩ := hm
        rw [List.mem_filterMap] at he
        obtain ⟨l, hl, h3⟩ := he
        rw [Option.map_eq_some_iff] at h3
        obtain ⟨x, -, rfl⟩ := h3
        rw [← h2]; exact List.mem_map_of_mem hl

theorem State.activeLanes_nodup (s : State) (hd : s.Distinct) : (s.activeLanes.map (·.1.tid)).Nodup :=
  (s.curLanes_nodup hd).sublist (List.Sublist.map _ List.filter_sublist)

theorem Bundle.active_issued {b : Bundle} {l : Lane} {th : Thread} (h : b.active l th = true) : l.issued = true := by
  unfold Bundle.active at h; simp at h; exact h.1

/-- Lane by lane, where every active lane changes its own thread alone. -/
theorem State.lanewise_own (s : State) (mode : ResultMode) (zero : Thread → Results)
    (f : State → Lane → Thread → State) (h : Lane → Thread → Thread → Thread) (hd : s.Distinct)
    (hf : ∀ t e, e ∈ s.activeLanes → s.SameBut t → t.thread? s.cur.crew e.1.tid = some e.2 →
      f t e.1 e.2 = t.modThread s.cur.crew e.1.tid (h e.1 e.2)) :
    s.LanesBecome (s.lanewise mode zero f) fun l th =>
      if s.cur.active l th then h l th th
      else th.commit s.cur.length mode (if s.cur.mz then zero th else []) := by
  have hskip : s.SameBut (s.skipInactive mode zero) ∧
      (∀ e ∈ s.activeLanes, (s.skipInactive mode zero).thread? s.cur.crew e.1.tid = some e.2) ∧
      (∀ u, u ∉ s.cur.tids → (s.skipInactive mode zero).thread? s.cur.crew u = s.thread? s.cur.crew u) ∧
      ∀ l th, l ∈ s.cur.lanes → l.issued = true → s.thread? s.cur.crew l.tid = some th → s.cur.active l th = false →
        (s.skipInactive mode zero).thread? s.cur.crew l.tid =
          some (th.commit s.cur.length mode (if s.cur.mz then zero th else [])) := by
    unfold State.skipInactive
    split
    · rename_i hall
      refine ⟨.refl s, fun e he => ((s.mem_curLanes e).1 (List.mem_filter.1 he).1).2, fun _ _ => rfl, ?_⟩
      intro l th hl hi hth hna
      rw [List.all_eq_true] at hall
      have := hall (l, th) ((s.mem_curLanes (l, th)).2 ⟨hl, hth⟩)
      simp [hna] at this
    · obtain ⟨h1, h2, h3⟩ := s.mapLanes_threadsOnly (fun l th => if s.cur.active l th then th
        else th.commit s.cur.length mode (if s.cur.mz then zero th else []))
      refine ⟨⟨rfl, h1, h2⟩, ?_, h3, ?_⟩
      · intro e he
        obtain ⟨hc, ha⟩ := List.mem_filter.1 he
        obtain ⟨hl, hth⟩ := (s.mem_curLanes e).1 hc
        rw [s.mapLanes_lane _ e.1 e.2 hl (Bundle.active_issued ha) hth, if_pos ha]
      · intro l th hl hi hth hna
        rw [s.mapLanes_lane _ l th hl hi hth, hna]; rfl
  obtain ⟨k1, k2, k3, k4⟩ := hskip
  obtain ⟨⟨c1, c2, c3⟩, r2, r3⟩ := s.foldl_own f h s.activeLanes (s.activeLanes_nodup hd) _ k1 k2 hf
  have mem : ∀ u, u ∈ s.activeLanes.map (·.1.tid) → u ∈ s.cur.tids := by
    intro u hu
    rw [List.mem_map] at hu
    obtain ⟨e, he, rfl⟩ := hu
    obtain ⟨hc, ha⟩ := List.mem_filter.1 he
    exact (Bundle.mem_tids _ _).2 ⟨e.1, ((s.mem_curLanes e).1 hc).1, Bundle.active_issued ha, rfl⟩
  refine ⟨⟨c2, c3, fun u hu => ?_⟩, fun l th hl hi hth => ?_⟩
  · unfold State.lanewise
    rw [r3 u (fun hm => hu (mem u hm)), k3 u hu]
  · unfold State.lanewise
    beta_reduce
    by_cases ha : s.cur.active l th = true
    · rw [if_pos ha]
      exact r2 (l, th) (List.mem_filter.2 ⟨(s.mem_curLanes _).2 ⟨hl, hth⟩, ha⟩)
    · rw [if_neg ha, r3 l.tid, k4 l th hl hi hth (by simpa using ha)]
      intro hm
      rw [List.mem_map] at hm
      obtain ⟨e, he, h2⟩ := hm
      obtain ⟨hc, ha'⟩ := List.mem_filter.1 he
      obtain ⟨hl', hth'⟩ := (s.mem_curLanes e).1 hc
      have e1 : e.1 = l := by
        have hnd := hd
        unfold State.Distinct at hnd
        obtain ⟨i, hi1, rfl⟩ := List.getElem_of_mem hl
        obtain ⟨j, hj1, hj2⟩ := List.getElem_of_mem hl'
        rw [← hj2] at h2 ⊢
        have := (List.nodup_iff_injective_getElem.1 hnd) (a₁ := ⟨j, by simpa using hj1⟩) (a₂ := ⟨i, by simpa using hi1⟩) (by simpa using h2)
        simp at this; simp [this]
      have e2 : e.2 = th := by rw [e1] at hth'; rw [hth] at hth'; exact (Option.some.inj hth').symm
      rw [e1, e2] at ha'; exact ha ha'

/-! ## The checks in front of an access, and what a lane finds after the lanes before it -/

/-- A check that every active lane passes. -/
theorem State.laneTrap_none (s : State) (code : Code) (bad : Lane → Thread → Bool) (info : Lane → Thread → Int)
    (h : ∀ e ∈ s.activeLanes, bad e.1 e.2 = false) : s.laneTrap code bad info = none := by
  unfold State.laneTrap
  have : s.activeLanes.find? (fun e => bad e.1 e.2) = none := by
    rw [List.find?_eq_none]; intro e he; simp [h e he]
  rw [this]
/-- R27, passed by every active lane. -/
theorem State.addressTrap_none (s : State) (sp : Space) (n : Nat) (addr : Thread → Int) (cr : Crew) (hcr : s.crew? s.cur.crew = some cr)
    (h : s.Reaches cr sp n addr) : s.addressTrap sp n n (fun _ th => addr th) = none := by
  unfold State.addressTrap State.curCrew?
  rw [hcr]; simp only
  rw [State.laneTrap_none, State.laneTrap_none]
  · intro e he; simpa using (h e he).2.1
  · intro e he; simpa using (h e he).1
/-- The crew differs in its threads only. -/
theorem State.SameBut.crew {s t : State} (h : s.SameBut t) (cr : Crew) (hcr : s.crew? s.cur.crew = some cr) :
    ∃ cr', t.crew? s.cur.crew = some cr' ∧ cr'.bare = cr.bare := by
  obtain ⟨-, -, h3⟩ := h
  rw [hcr] at h3
  cases h4 : t.crew? s.cur.crew with
  | none => simp [h4] at h3
  | some x => exact ⟨x, rfl, by simpa [h4] using h3⟩

theorem Crew.of_bare (a b : Crew) (h : a.bare = b.bare) : a = { b with threads := a.threads } := by
  cases a; cases b; simp only [Crew.bare, Crew.mk.injEq] at h ⊢; simp_all

theorem State.SameBut.state {s t : State} (h : s.SameBut t) : t = { s with crews := t.crews } := by
  obtain ⟨h1, ⟨h2, h3⟩, h4⟩ := h
  cases s; cases t; simp only [State.mk.injEq] at h2 ⊢; simp_all

end Sys2Proof.Machine
end

