-- ==== Sys2Proof/Laws/Solo.lean ====
section
/-! SUPPORT. A bundle of one active thread: its lanes, the lane-by-lane frames, and what a change of that thread leaves of
the machine. -/

namespace Sys2Proof.Machine

open Sys2Proof

variable {s : State} {tid : Nat} {cr : Crew} {th : Thread}

theorem State.Solo.crew (h : s.Solo tid cr th) : s.crew? s.cur.crew = some cr := h.2.1
theorem State.Solo.active (h : s.Solo tid cr th) : s.cur.active { tid := tid, issued := true } th = true := h.2.2.2

theorem State.Solo.thread (h : s.Solo tid cr th) : s.thread? s.cur.crew tid = some th := by
  rw [State.thread?_of_crew s _ _ cr h.2.1]; exact h.2.2.1

theorem State.Solo.curCrew (h : s.Solo tid cr th) : s.curCrew? = some cr := h.2.1

theorem State.Solo.curLanes (h : s.Solo tid cr th) : s.curLanes = [({ tid := tid, issued := true }, th)] := by
  obtain ⟨h1, h2, h3, h4⟩ := h
  simp [State.curLanes, State.curCrew?, h1, h2, h3]

theorem State.Solo.activeLanes (h : s.Solo tid cr th) : s.activeLanes = [({ tid := tid, issued := true }, th)] := by
  rw [State.activeLanes, h.curLanes]
  simp [h.active]

theorem State.Solo.tids (h : s.Solo tid cr th) : s.cur.tids = [tid] := by
  simp [Bundle.tids, h.1]

theorem State.Solo.skipInactive (h : s.Solo tid cr th) (mode : ResultMode) (zero : Thread → Results) :
    s.skipInactive mode zero = s := by
  unfold State.skipInactive
  rw [h.curLanes]
  simp [h.active]

/-- Lane by lane, a bundle of one thread is that lane. -/
theorem State.Solo.lanewise (h : s.Solo tid cr th) (mode : ResultMode) (zero : Thread → Results)
    (f : State → Lane → Thread → State) : s.lanewise mode zero f = f s { tid := tid, issued := true } th := by
  unfold State.lanewise
  rw [h.activeLanes, h.skipInactive]
  rfl

/-- A check of the lanes that the thread passes stops nothing. -/
theorem State.Solo.laneTrap (h : s.Solo tid cr th) (code : Code) (bad : Lane → Thread → Bool) (info : Lane → Thread → Int)
    (hb : bad { tid := tid, issued := true } th = false) : s.laneTrap code bad info = none := by
  unfold State.laneTrap
  rw [h.activeLanes]
  simp [hb]

theorem State.Solo.codeTrap (h : s.Solo tid cr th) (check : Lane → Thread → Option (Code × Nat))
    (hb : check { tid := tid, issued := true } th = none) : s.codeTrap check = none := by
  unfold State.codeTrap
  rw [h.activeLanes]
  simp [hb]

theorem State.Solo.addressTrap (h : s.Solo tid cr th) (sp : Space) (n al : Nat) (addr : Lane → Thread → Int)
    (h1 : s.inBounds cr sp (addr { tid := tid, issued := true } th) n = true)
    (h2 : addr { tid := tid, issued := true } th % al = 0) : s.addressTrap sp n al addr = none := by
  unfold State.addressTrap
  rw [h.curCrew]
  simp only
  rw [h.laneTrap _ _ _ (by simpa using h1), h.laneTrap _ _ _ (by simpa using h2)]

theorem State.Solo.lanePoison (h : s.Solo tid cr th) (sp : Space) (n : Nat) (drains : Bool)
    (addr : Lane → Thread → Int)
    (hp : s.spacePoison cr th sp (addr { tid := tid, issued := true } th).toNat n drains = none) :
    s.lanePoison sp n drains addr = none := by
  unfold State.lanePoison
  rw [h.curCrew]
  simp only [State.firstPoison, h.activeLanes]
  simp [hp]

/-- A change of one thread changes that thread alone. -/
theorem State.onlyThread_modThread (s : State) (tid : Nat) (th : Thread) (f : Thread → Thread)
    (h : s.thread? s.cur.crew tid = some th) : s.OnlyThread (s.modThread s.cur.crew tid f) tid (f th) := by
  refine ⟨⟨rfl, fun c hc => ?_⟩, s.crew?_modThread_bare _ _ _ _, ?_, fun u hu => ?_⟩
  · unfold State.modThread; rw [State.crew?_modCrew, if_neg hc]
  · rw [State.thread?_modThread, if_pos ⟨rfl, rfl⟩, h]; rfl
  · rw [State.thread?_modThread, if_neg (fun e => hu e.2)]

/-- Two changes of one thread, one after another. -/
theorem State.OnlyThread.trans_modThread {t : State} {th : Thread} (h : s.OnlyThread t tid th) (hc : t.cur = s.cur)
    (f : Thread → Thread) : s.OnlyThread (t.modThread t.cur.crew tid f) tid (f th) := by
  obtain ⟨⟨h1, h2⟩, h3, h4, h5⟩ := h
  rw [hc]
  refine ⟨⟨?_, fun c hcc => ?_⟩, ?_, ?_, fun u hu => ?_⟩
  · exact h1
  · unfold State.modThread; rw [State.crew?_modCrew, if_neg hcc]; exact h2 c hcc
  · rw [State.crew?_modThread_bare]; exact h3
  · rw [State.thread?_modThread, if_pos ⟨rfl, rfl⟩, h4]; rfl
  · rw [State.thread?_modThread, if_neg (fun e => hu e.2)]; exact h5 u hu

/-- Every lane at once, for a bundle of one thread. -/
theorem State.Solo.mapLanes (h : s.Solo tid cr th) (f : Lane → Thread → Thread) :
    s.OnlyThread (s.mapLanes f) tid (f { tid := tid, issued := true } th) := by
  obtain ⟨h1, h2, h3⟩ := s.mapLanes_threadsOnly f
  refine ⟨h1, h2, ?_, fun u hu => h3 u ?_⟩
  · exact s.mapLanes_lane f { tid := tid, issued := true } th (by rw [h.1]; simp) rfl h.thread
  · rw [h.tids]; simpa using hu

theorem State.Solo.complete (h : s.Solo tid cr th) (mode : ResultMode) (res : Lane → Thread → Results) :
    s.OnlyThread (s.complete mode res) tid
      (th.commit s.cur.length mode (res { tid := tid, issued := true } th)) := by
  have := h.mapLanes (fun l th => th.commit s.cur.length mode (if s.cur.active l th then res l th else []))
  rwa [h.active, if_pos rfl] at this

theorem State.Solo.finishLane (h : s.Solo tid cr th) (mode : ResultMode) (rs : Results) (os : List Opnd) :
    s.OnlyThread (s.finishLane tid mode rs os) tid ((th.commit s.cur.length mode rs).advanceIx os) :=
  s.onlyThread_modThread tid th _ h.thread

/-- Nothing pending in the FIFO: the lane goes on at once. -/
theorem State.Solo.drained (h : s.Solo tid cr th) (only : Option Space) (w : Wait) (go : State → State)
    (hf : th.fifo = []) : s.drained tid only w go = go s := by
  unfold State.drained
  simp [h.thread, hf]

/-- At the first issue of an instruction no lane waits in front of the thread: it takes its turn at once (R41). -/
theorem State.Solo.inLaneOrder (h : s.Solo tid cr th) (sp : Space) (off n : Nat) (go : State → State)
    (hf : s.FirstIssue cr) : s.inLaneOrder tid sp off n go = go s := by
  unfold State.inLaneOrder
  have hb : cr.laneBehind s.cur.seq tid sp off n = false := by
    unfold Crew.laneBehind
    rw [Bool.and_eq_false_iff]
    refine .inr (List.any_eq_false.2 fun e he => ?_)
    by_cases hs : e.2.parkIssue = s.cur.seq
    · simp [hf e he hs]
    · simp [hs]
  rw [h.curCrew]
  simp [hb]

/-- A line that is ready: the lane goes on at once. -/
theorem State.Solo.withLine (h : s.Solo tid cr th) (sp : Space) (off : Nat) (go : State → State)
    (hl : s.lineState cr th sp off = .ready) : s.withLine tid sp off go = go s := by
  unfold State.withLine
  simp [h.crew, h.2.2.1, hl]

end Sys2Proof.Machine
end

