-- ==== Sys2Proof/Laws/Uniform.lean ====
section
/-! SUPPORT. The uniform frame: one write of a role's registers, and every thread that issues goes on (R118, R149). -/

namespace Sys2Proof.Machine

open Sys2Proof

theorem Role.uwrite_id (r : Role) (g : Nat) (v : Dword) (pc : Word) : (r.uwrite g v pc).id = r.id := by
  unfold Role.uwrite; split <;> rfl

/-- A uniform register reads as written, and g63 as zero (R65, R118). -/
theorem Role.uread_uwrite (r : Role) (g j : Nat) (v : Dword) (pc : Word) :
    (r.uwrite g v pc).uread j = if j = 63 then 0#64 else if j = g then v else r.uread j := by
  unfold Role.uread
  split
  · rfl
  · rename_i hj
    unfold Role.uwrite
    split
    · subst_vars; simp [hj]
    · simp [Sparse.get_set]

theorem Crew.role?_modRole (cr : Crew) (k q : Nat) (f : Role → Role) (hf : ∀ r, (f r).id = r.id) :
    (cr.modRole k f).role? q = if q = k then (cr.role? q).map f else cr.role? q := by
  unfold Crew.modRole Crew.role?
  simp only
  induction cr.roles with
  | nil => simp
  | cons a rs ih =>
    simp only [List.map_cons]
    by_cases ha : a.id = k
    · simp only [ha, if_true]
      by_cases hq : q = k
      · subst hq; simp [List.find?_cons, hf, ha]
      · have : ¬(f a).id = q := by rw [hf, ha]; exact fun e => hq e.symm
        have h2 : ¬a.id = q := by rw [ha]; exact fun e => hq e.symm
        simp only [List.find?_cons, this, h2, decide_false]
        exact ih
    · simp only [ha, if_false]
      by_cases hq : a.id = q
      · have : q ≠ k := fun e => ha (by rw [hq, e])
        simp [List.find?_cons, hq, this]
      · simp only [List.find?_cons, hq, decide_false]
        exact ih

/-- sr.uconf after a write (R119). -/
theorem Role.uwrite_uconf (r : Role) (g : Nat) (v : Dword) (pc : Word) :
    let conflict := g ≠ 63 ∧ r.uread g ≠ v ∧ ∃ a, Table.get? r.uwriter g = some a ∧ a ≠ pc
    ((r.uwrite g v pc).uconfSet = true ↔ r.uconfSet = true ∨ conflict) ∧
      ((r.uwrite g v pc).uconfMulti = true ↔ r.uconfMulti = true ∨ (conflict ∧ r.uconfSet = true)) ∧
      (conflict ∧ r.uconfSet = false → (r.uwrite g v pc).uconfReg = g) ∧
      (¬(conflict ∧ r.uconfSet = false) → (r.uwrite g v pc).uconfReg = r.uconfReg) := by
  unfold Role.uwrite
  by_cases hg : g = 63
  · simp [hg]
  · have hc : r.conflicts g v pc = true ↔ r.uread g ≠ v ∧ ∃ a, Table.get? r.uwriter g = some a ∧ a ≠ pc := by
      unfold Role.conflicts
      cases Table.get? r.uwriter g <;> simp
    simp only [hg, if_false, ne_eq, not_false_eq_true, true_and, Bool.or_eq_true, Bool.and_eq_true]
    simp only [ne_eq] at hc
    rw [← hc]
    refine ⟨Iff.rfl, Iff.rfl, fun h => ?_, fun h => ?_⟩
    · rw [if_pos ⟨h.1, by simp [h.2]⟩]
    · rw [if_neg (fun h2 => h ⟨h2.1, by simpa using h2.2⟩)]

/-- The instruction address of the last write (R119). -/
theorem Role.uwrite_uwriter (r : Role) (g : Nat) (v : Dword) (pc : Word) (h : g ≠ 63) :
    Table.get? (r.uwrite g v pc).uwriter g = some pc := by
  simp [Role.uwrite, h, Table.get?_put]

/-- The threads that issue complete a uniform instruction, with nothing written. -/
theorem State.completeNone_passed (s : State) : s.Passed s.completeNone := by
  refine ⟨s.mapLanes_threadsOnly _, fun l th hl his hth => ⟨_, s.mapLanes_lane _ l th hl his hth, ?_⟩⟩
  have e : (if s.cur.active l th then ([] : Results) else []) = [] := by split <;> rfl
  rw [e]
  exact ⟨(th.commit_now s.cur.length []).1,
    th.commit_now_keeps s.cur.length [] [] [] (by simp [Results.names]) (by simp [Results.names]),
    (th.commit_now s.cur.length []).2.1⟩

/-- The one write of a uniform instruction, and the completion of the threads that issue. -/
theorem State.uwrite_wrote (s : State) (gd : BitVec 6) (v : Dword) (cr : Crew) (r : Role)
    (hcr : s.crew? s.cur.crew = some cr) (hr : cr.role? s.curRole = some r) :
    s.UniformWrote (s.uwrite gd v).completeNone cr r gd v := by
  have cur : (s.uwrite gd v).cur = s.cur := rfl
  have crew : (s.uwrite gd v).crew? s.cur.crew =
      some (cr.modRole s.curRole (fun r' => r'.uwrite gd.toNat v s.cur.pc)) := by
    unfold State.uwrite; rw [State.crew?_modCrew, if_pos rfl, hcr]; rfl
  have thr : ∀ u, (s.uwrite gd v).thread? s.cur.crew u = s.thread? s.cur.crew u := by
    intro u
    rw [State.thread?_of_crew _ _ _ _ crew, State.thread?_of_crew _ _ _ _ hcr]; rfl
  obtain ⟨⟨⟨h0, h1⟩, h2, h3⟩, h4⟩ := (s.uwrite gd v).completeNone_passed
  rw [cur] at h1 h2 h3 h4
  rw [crew] at h2
  obtain ⟨cr', hcr', hbare⟩ : ∃ cr', (s.uwrite gd v).completeNone.crew? s.cur.crew = some cr' ∧
      cr'.bare = (cr.modRole s.curRole (fun r' => r'.uwrite gd.toNat v s.cur.pc)).bare := by
    cases h : (s.uwrite gd v).completeNone.crew? s.cur.crew with
    | none => simp [h] at h2
    | some x => exact ⟨x, rfl, by simpa [h] using h2⟩
  have hroles : cr'.roles = (cr.modRole s.curRole (fun r' => r'.uwrite gd.toNat v s.cur.pc)).roles :=
    (congrArg Crew.roles hbare : cr'.bare.roles = _)
  have hrole : ∀ q, cr'.role? q = if q = s.curRole then (cr.role? q).map (fun r' => r'.uwrite gd.toNat v s.cur.pc)
      else cr.role? q := fun q => by
    rw [← Crew.role?_modRole _ _ _ _ (fun r' => r'.uwrite_id _ _ _)]
    unfold Crew.role?; rw [hroles]
  have h63 : gd = 63#6 ↔ gd.toNat = 63 := ⟨fun h => by rw [h]; rfl, fun h => BitVec.eq_of_toNat_eq (by simpa using h)⟩
  refine ⟨⟨by rw [show s.crews = s.crews from rfl]; exact (congrArg (fun (x : State) => { x with crews := s.crews }) h0), fun c hne => ?_⟩,
    cr', r.uwrite gd.toNat v s.cur.pc, hcr', ?_, ?_, ?_, ?_, ?_, ?_, ?_, ?_, ?_⟩
  · rw [h1 c hne]
    unfold State.uwrite; rw [State.crew?_modCrew, if_neg hne]
  · rw [hbare]; rfl
  · rw [hrole, if_pos rfl, hr]; rfl
  · intro q hq; rw [hrole, if_neg hq]
  · rw [Role.uread_uwrite]
    by_cases h : gd = 63#6
    · simp [h]
    · have : gd.toNat ≠ 63 := fun e => h (h63.2 e)
      simp [this, h]
  · intro g hg
    rw [Role.uread_uwrite, if_neg hg]
    split
    · rename_i e; simp [Role.uread, e]
    · rfl
  · have := r.uwrite_uconf gd.toNat v s.cur.pc
    simpa only [ne_eq, h63] using this
  · intro h; exact r.uwrite_uwriter _ _ _ (fun e => h (h63.2 e))
  · intro u hu; rw [h3 u hu, thr]
  · intro l th hl his hth
    exact h4 l th hl his (by rw [thr]; exact hth)

/-- An instruction that no parked one of its role stands before takes its place at once. -/
theorem State.inUniformOrder_of_first (s : State) (reads writes : List Nat) (body : State → State) (cr : Crew)
    (hcr : s.crew? s.cur.crew = some cr) (hb : cr.uniformBehind s.curRole s.cur.seq reads writes = false) :
    s.inUniformOrder reads writes body = body s := by
  unfold State.inUniformOrder State.curCrew?
  rw [hcr]
  simp [hb]

/-- A uniform instruction whose effect is one write (R118, R149). -/
theorem State.uniform_gives (s : State) (i : Instr) (reads : List (BitVec 6)) (gd : BitVec 6) (body : State → State)
    (v : Role → Dword) (hi : exec i s = .next (s.uniform [] false reads [gd] body))
    (hv : ∀ cr r, s.crew? s.cur.crew = some cr → cr.role? s.curRole = some r →
      body s = (s.uwrite gd (v r)).completeNone) : s.UniformGives i reads gd v := by
  intro cr r hcl
  obtain ⟨hc, hp, hcr, hr, hb⟩ := hcl
  refine ⟨_, hi, ?_⟩
  unfold State.uniform
  rw [State.guarded_of_clear s _ _ hc, State.inUniformOrder_of_first s _ _ _ cr hcr (by simpa using hb), hp]
  simp only
  rw [hv cr r hcr hr]
  exact s.uwrite_wrote gd (v r) cr r hcr hr

/-- A uniform register that the bundle reads is that of its role. -/
theorem State.uread_eq (s : State) (g : BitVec 6) (cr : Crew) (r : Role) (hcr : s.crew? s.cur.crew = some cr)
    (hr : cr.role? s.curRole = some r) : s.uread g = r.uread g.toNat := by
  unfold State.uread State.uniformRole? State.curCrew?
  rw [hcr]; simp only; rw [hr]

end Sys2Proof.Machine
end

