-- ==== Sys2Proof/Tests/Slice0.lean ====
section
/-! SUPPORT. Tests of the model against the spec: ill-formed terms and refused words, the words of the encoding tables, the
values of the worked examples, and for each statement a state and operands that meet its hypotheses. -/

namespace Sys2Proof

set_option Elab.async false

open Sys2Proof.Machine

set_option maxRecDepth 8000

/-! ## Words of the encoding tables: one for each constructor that has a word -/

theorem test_decode_attendant : ∀ p ∈ ([
      (0x0DD18A8B#32, .xsfVld 6 29 3 21), (0x0A3A958B#32, .xsfVst 5 3 21 11)] : List (Word × Instr)),
    decodeAttendant p.1 = .ok p.2 := by decide

theorem test_decode_lane_00_0 : ∀ p ∈ ([
      (0x00AE6360#32, .addI32 43 76 54 false), (0x0131B1D3#32, .subI32 76 54 29 true),
      (0x00D8E805#32, .negI32 54 29 true), (0x00771806#32, .absI32 29 99 false),
      (0x018EAAB8#32, .avgI32 99 85 43 false), (0x01555CCB#32, .avgN32 85 43 76 true),
      (0x00AE636C#32, .adiffI32 43 76 54 false), (0x0131B1DF#32, .adiffN32 76 54 29 true),
      (0x02D8EE30#32, .addI64 54 29 99 false), (0x02771D53#32, .subI64 29 99 85 true),
      (0x038EA805#32, .negI64 99 85 true), (0x03555806#32, .absI64 85 43 false),
      (0x02AE6368#32, .addwI64I32 43 76 54 false), (0x0331B1DB#32, .addwN64N32 76 54 29 true),
      (0x04D8EE30#32, .addsatI32 54 29 99 false), (0x04771D53#32, .subsatI32 29 99 85 true),
      (0x058EAAB4#32, .addsatN32 99 85 43 false), (0x05555CC7#32, .subsatN32 85 43 76 true),
      (0x04AE6009#32, .negsatI32 43 76 true), (0x0531B00A#32, .abssatI32 76 54 false),
      (0x06D8EE30#32, .mulI32 54 29 99 false), (0x06771D53#32, .mulhiI32 29 99 85 true),
      (0x078EAAB4#32, .mulhiN32 99 85 43 false), (0x07555CC7#32, .madI32 85 43 76 true)] : List (Word × Instr)),
    decodeWord p.1 = .ok p.2 := by decide

theorem test_decode_lane_00_1 : ∀ p ∈ ([
      (0x06AE6368#32, .mulwI32 43 76 54 false), (0x0731B1DB#32, .mulwN32 76 54 29 true)] : List (Word × Instr)),
    decodeWord p.1 = .ok p.2 := by decide

theorem test_decode_lane_04_0 : ∀ p ∈ ([
      (0x08D8EE30#32, .divI32 54 29 99 false), (0x08771D53#32, .divN32 29 99 85 true),
      (0x098EAAB4#32, .remI32 99 85 43 false), (0x09555CC7#32, .remN32 85 43 76 true),
      (0x08AE6368#32, .divI64 43 76 54 false), (0x0931B1DB#32, .divN64 76 54 29 true),
      (0x08D8EE3C#32, .remI64 54 29 99 false), (0x08771D5F#32, .remN64 29 99 85 true),
      (0x0B8EAAB0#32, .minI32 99 85 43 false), (0x0B555CC3#32, .maxI32 85 43 76 true),
      (0x0AAE6364#32, .minN32 43 76 54 false), (0x0B31B1D7#32, .maxN32 76 54 29 true),
      (0x0AD8EE38#32, .minI64 54 29 99 false), (0x0A771D5B#32, .maxI64 29 99 85 true),
      (0x0B8EAABC#32, .minN64 99 85 43 false), (0x0B555CCF#32, .maxN64 85 43 76 true),
      (0x0CAE6360#32, .andN32 43 76 54 false), (0x0D31B1D3#32, .orN32 76 54 29 true),
      (0x0CD8EE34#32, .xorN32 54 29 99 false), (0x0C771D57#32, .andnN32 29 99 85 true),
      (0x0D8EAAB8#32, .ornN32 99 85 43 false), (0x0D555CCB#32, .xnorN32 85 43 76 true),
      (0x0CAE600D#32, .notN32 43 76 true), (0x0F31B1D1#32, .shlN32 76 54 29 true)] : List (Word × Instr)),
    decodeWord p.1 = .ok p.2 := by decide

theorem test_decode_lane_04_1 : ∀ p ∈ ([
      (0x0ED8EE32#32, .shrN32 54 29 99 false), (0x0E771D55#32, .shrI32 29 99 85 true),
      (0x0F8EAAB6#32, .rolN32 99 85 43 false), (0x0F555CC9#32, .rorN32 85 43 76 true)] : List (Word × Instr)),
    decodeWord p.1 = .ok p.2 := by decide

theorem test_decode_lane_08 : ∀ p ∈ ([
      (0x10AE6001#32, .popcN32 43 76 true), (0x1131B002#32, .clzN32 76 54 false),
      (0x10D8E805#32, .ctzN32 54 29 true), (0x10771806#32, .brevN32 29 99 false),
      (0x118EA809#32, .bswapN32 99 85 true), (0x1155580A#32, .popcN64 85 43 false),
      (0x10AE600D#32, .clzN64 43 76 true), (0x1331B1D1#32, .bfeN32 76 54 29 true),
      (0x12D8EE32#32, .bfeI32 54 29 99 false), (0x12771D55#32, .bfiN32 29 99 85 true),
      (0x140EAAB8#32, .cmpI32 3 85 43 4), (0x17555CCC#32, .selN32 85 43 76 6 false),
      (0x16AE600F#32, .movN32 43 76 true)] : List (Word × Instr)),
    decodeWord p.1 = .ok p.2 := by decide

theorem test_decode_lane_0C_0 : ∀ p ∈ ([
      (0x1931B1D6#32, .shaddN32 76 54 29 3 false), (0x18D8EE3B#32, .shaddN64 54 29 99 1 true),
      (0x1A771D51#32, .addI16 29 99 85 true), (0x1B8EAAB2#32, .subI16 99 85 43 false),
      (0x1B555CC5#32, .addI8 85 43 76 true), (0x1AAE6366#32, .subI8 43 76 54 false),
      (0x1B31B1D9#32, .addsatI16 76 54 29 true), (0x1AD8EE3A#32, .subsatI16 54 29 99 false),
      (0x1A771D5D#32, .addsatN8 29 99 85 true), (0x1B8EAABE#32, .dotI8 99 85 43 false), (0x1C141840#32, .pand 5 3 4),
      (0x1C0C2062#32, .por 3 4 6), (0x1C103054#32, .pxor 4 6 5), (0x1C182836#32, .pandn 6 5 3),
      (0x1C141808#32, .pnot 5 3), (0x1D8C000A#32, .ptovN32 99 false), (0x1C02A80C#32, .vtopN32 85),
      (0x1EAE6360#32, .mulI64 43 76 54 false), (0x1F31B1D3#32, .shlN64 76 54 29 true),
      (0x1ED8EE34#32, .shrN64 54 29 99 false), (0x1E771D57#32, .shrI64 29 99 85 true),
      (0x1E0EAAB8#32, .cmpEqI64 3 85 43), (0x1E155CCA#32, .cmpLtI64 5 43 76), (0x1E0E636C#32, .cmpLtN64 3 76 54)] : List (Word × Instr)),
    decodeWord p.1 = .ok p.2 := by decide

theorem test_decode_lane_0C_1 : ∀ p ∈ ([
      (0x1F31B00E#32, .movN64 76 54 false)] : List (Word × Instr)),
    decodeWord p.1 = .ok p.2 := by decide

theorem test_decode_lane_10 : ∀ p ∈ ([
      (0x20D89C35#32, .addI32Imm 54 39989), (0x20759C35#32, .addI64Imm 29 39989),
      (0x218E9C35#32, .addsatI32Imm 99 39989), (0x21579C35#32, .addsatN32Imm 85 39989),
      (0x22AC9C35#32, .andN32Imm 43 39989), (0x23319C35#32, .orN32Imm 76 39989),
      (0x22DA9C35#32, .xorN32Imm 54 39989), (0x24749C35#32, .shlN32Imm 29 39989),
      (0x258D9C35#32, .shrN32Imm 99 39989), (0x25569C35#32, .shrI32Imm 85 39989),
      (0x24AF9C35#32, .rorN32Imm 43 39989), (0x27309C35#32, .setEqI32 76 39989), (0x26D99C35#32, .setNeI32 54 39989),
      (0x26769C35#32, .setLtI32 29 39989), (0x278F9C35#32, .setLtN32 99 39989)] : List (Word × Instr)),
    decodeWord p.1 = .ok p.2 := by decide

theorem test_decode_lane_14 : ∀ p ∈ ([
      (0x29549C35#32, .movlN32 85 39989), (0x28AD9C35#32, .movhN32 43 39989), (0x29329C35#32, .movI32Imm 76 39989),
      (0x28DB9C35#32, .movN32Imm 54 39989), (0x2A749C35#32, .mulI32Imm 29 39989),
      (0x2B8D9C35#32, .mulI64Imm 99 39989), (0x2D549C35#32, .minI32Imm 85 39989),
      (0x2CAD9C35#32, .maxI32Imm 43 39989), (0x2D329C35#32, .minN32Imm 76 39989),
      (0x2CDB9C35#32, .maxN32Imm 54 39989)] : List (Word × Instr)),
    decodeWord p.1 = .ok p.2 := by decide

theorem test_decode_lane_18 : ∀ p ∈ ([
      (0x30771D51#32, .faddF32 29 99 85 true), (0x318EAAB2#32, .fsubF32 99 85 43 false),
      (0x31555CC5#32, .fmulF32 85 43 76 true), (0x32AE6360#32, .fmaF32 43 76 54 false),
      (0x3331B1D3#32, .fmsF32 76 54 29 true), (0x32D8EE34#32, .fnmaF32 54 29 99 false),
      (0x32771D57#32, .fminF32 29 99 85 true), (0x338EAAB8#32, .fmaxF32 99 85 43 false),
      (0x34155CCC#32, .fcmpF32 5 43 76 6), (0x36AE6360#32, .faddF64 43 76 54 false),
      (0x3731B1D3#32, .fsubF64 76 54 29 true), (0x36D8EE34#32, .fmulF64 54 29 99 false)] : List (Word × Instr)),
    decodeWord p.1 = .ok p.2 := by decide

theorem test_decode_lane_1C : ∀ p ∈ ([
      (0x38771D51#32, .fmaF64 29 99 85 true), (0x398EAAB2#32, .fmsF64 99 85 43 false),
      (0x39555CC5#32, .fnmaF64 85 43 76 true), (0x38AE6366#32, .fminF64 43 76 54 false),
      (0x3931B1D9#32, .fmaxF64 76 54 29 true), (0x3A18EE3A#32, .fcmpF64 6 29 99 5),
      (0x3C771D51#32, .faddF16 29 99 85 true), (0x3D8EAAB2#32, .fmulF16 99 85 43 false),
      (0x3D555CC5#32, .fmaF16 85 43 76 true), (0x3CAE6366#32, .faddBf16 43 76 54 false),
      (0x3D31B1D9#32, .fmulBf16 76 54 29 true), (0x3CD8EE3A#32, .fmaBf16 54 29 99 false),
      (0x3C771D5D#32, .fmaxF16 29 99 85 true), (0x3D8EAABE#32, .fmaxBf16 99 85 43 false),
      (0x3F555CC1#32, .faddE4m3 85 43 76 true), (0x3EAE6362#32, .fmulE4m3 43 76 54 false),
      (0x3F31B1D5#32, .faddE5m2 76 54 29 true), (0x3ED8EE36#32, .fmulE5m2 54 29 99 false),
      (0x3E771D59#32, .fdotF32E4m3 29 99 85 true), (0x3F8EAABA#32, .fdotF32E5m2 99 85 43 false),
      (0x3F55580C#32, .cvtF16E4m3 85 43 false), (0x3EAE600F#32, .cvtF16E5m2 43 76 true)] : List (Word × Instr)),
    decodeWord p.1 = .ok p.2 := by decide

theorem test_decode_lane_20 : ∀ p ∈ ([
      (0x4131B1D1#32, .fdivF32 76 54 29 true), (0x40D8E803#32, .fsqrtF32 54 29 true),
      (0x40771804#32, .rcpF32 29 99 false), (0x418EA807#32, .rsqrtF32 99 85 true),
      (0x41555808#32, .exp2F32 85 43 false), (0x40AE600B#32, .log2F32 43 76 true),
      (0x4131B00C#32, .sinpiF32 76 54 false), (0x40D8E80F#32, .cospiF32 54 29 true),
      (0x42771D51#32, .fdivF64 29 99 85 true), (0x438EA803#32, .fsqrtF64 99 85 true),
      (0x45555800#32, .fabsF32 85 43 false), (0x44AE6003#32, .fnegF32 43 76 true),
      (0x4531B1D5#32, .fcopysignF32 76 54 29 true), (0x44D8E807#32, .fclassF32 54 29 true),
      (0x44771808#32, .fabsF64 29 99 false), (0x458EA80B#32, .fnegF64 99 85 true),
      (0x45555CCD#32, .fcopysignF64 85 43 76 true), (0x44AE600F#32, .fclassF64 43 76 true)] : List (Word × Instr)),
    decodeWord p.1 = .ok p.2 := by decide

theorem test_decode_lane_24 : ∀ p ∈ ([
      (0x49309C35#32, .faddF32Imm 76 39989), (0x48D99C35#32, .fmulF32Imm 54 39989),
      (0x48769C35#32, .fmaxF32Imm 29 39989), (0x498F9C35#32, .fminF32Imm 99 39989),
      (0x4B549C35#32, .faddF64Imm 85 39989), (0x4AAD9C35#32, .fmulF64Imm 43 39989),
      (0x4B329C35#32, .fmaxF64Imm 76 39989), (0x4ADB9C35#32, .fminF64Imm 54 39989),
      (0x4C749C35#32, .fmulF16Imm 29 39989), (0x4D8D9C35#32, .fmulBf16Imm 99 39989),
      (0x4D569C35#32, .fmulE4m3Imm 85 39989), (0x4CAF9C35#32, .fmulE5m2Imm 43 39989)] : List (Word × Instr)),
    decodeWord p.1 = .ok p.2 := by decide

theorem test_decode_lane_28_0 : ∀ p ∈ ([
      (0x5131B000#32, .cvtF32I32 76 54 false), (0x50D8E803#32, .cvtF32N32 54 29 true),
      (0x50771804#32, .cvtI32F32 29 99 false), (0x518EA807#32, .cvtN32F32 99 85 true),
      (0x51555808#32, .cvtF64I64 85 43 false), (0x50AE600B#32, .cvtI64F64 43 76 true),
      (0x5131B00C#32, .cvtF64I32 76 54 false), (0x50D8E80F#32, .cvtI32F64 54 29 true),
      (0x52771800#32, .cvtF64F32 29 99 false), (0x538EA803#32, .cvtF32F64 99 85 true),
      (0x53555804#32, .cvtF32F16 85 43 false), (0x52AE6007#32, .cvtF16F32 43 76 true),
      (0x5331B008#32, .cvtF32Bf16 76 54 false), (0x52D8E80B#32, .cvtBf16F32 54 29 true),
      (0x52771D5D#32, .cvtE4m3F32 29 99 85 true), (0x538EAABE#32, .cvtE5m2F32 99 85 43 false),
      (0x55555800#32, .cvtSx2F32 85 43), (0x54AE6002#32, .cvtSx4F32 43 76), (0x5531B004#32, .cvtSx7F32 76 54),
      (0x54D8E806#32, .cvtF32Sx2 54 29), (0x54771808#32, .cvtF32Sx4 29 99), (0x558EA80A#32, .cvtF32Sx7 99 85),
      (0x57555CC1#32, .xlIdxN32 85 43 76 true), (0x56AE6362#32, .xlXorN32 43 76 54 false)] : List (Word × Instr)),
    decodeWord p.1 = .ok p.2 := by decide

theorem test_decode_lane_28_1 : ∀ p ∈ ([
      (0x5731B1D5#32, .xlUpN32 76 54 29 true), (0x56D8EE36#32, .xlDownN32 54 29 99 false),
      (0x56771D59#32, .xlIdxN64 29 99 85 true), (0x578C280B#32, .xlBallotN64 99 5 true),
      (0x5755580C#32, .xlAddI32 85 43 false)] : List (Word × Instr)),
    decodeWord p.1 = .ok p.2 := by decide

theorem test_decode_lane_2C : ∀ p ∈ ([
      (0x58ACB6E3#32, .ldStk 43 1 6 13 99), (0x59336863#32, .stStk 76 2 13 99), (0x5AD89AAB#32, .ldSh 54 1 3 5 43),
      (0x5A77A82B#32, .stSh 29 3 5 43), (0x5D8CDE36#32, .ldDie 99 1 11 12 54), (0x5D57E036#32, .stDie 85 3 12 54),
      (0x5EACB6E3#32, .ldFl 43 1 6 13 99), (0x5F336863#32, .stFl 76 2 13 99)] : List (Word × Instr)),
    decodeWord p.1 = .ok p.2 := by decide

theorem test_decode_lane_30 : ∀ p ∈ ([
      (0x60D869B8#32, .ldAcq 54 13 3 1 3), (0x60749858#32, .stRel 29 3 2 3), (0x618D2828#32, .stNt 99 5 1 1),
      (0x6356D682#32, .atomAdd 85 11 0 2 13 1), (0x62AF298C#32, .atomAnd 43 12 1 1 3 2),
      (0x63319A96#32, .atomOr 76 6 0 3 5 3), (0x62DB6D9A#32, .atomXor 54 13 1 1 11 1),
      (0x6274DE24#32, .atomMinI 29 3 0 3 12 2), (0x638D6B2E#32, .atomMaxI 99 5 1 1 6 3),
      (0x6356D6B2#32, .atomMinN 85 11 0 2 13 1), (0x62AF29BC#32, .atomMaxN 43 12 1 1 3 2),
      (0x63319AC6#32, .atomExch 76 6 0 3 5 3), (0x62DB6DCA#32, .atomCas 54 13 1 1 11 1),
      (0x6559C35A#32, .br 10 1688410), (0x65F9C35A#32, .call 1688410), (0x6759C35A#32, .loopBr 10 1688410)] : List (Word × Instr)),
    decodeWord p.1 = .ok p.2 := by decide

theorem test_decode_lane_34_0 : ∀ p ∈ ([
      (0x68000000#32, .nop), (0x68000001#32, .ret), (0x68D80002#32, .brInd 54), (0x68740003#32, .callInd 29),
      (0x698EA804#32, .rgn 99 85), (0x69541805#32, .ixSet 85 3), (0x68AC0B06#32, .ixGet 43 1 6),
      (0x6931B007#32, .rotSet 76 54), (0x68002008#32, .fence 4), (0x68000009#32, .ntDrain),
      (0x698C3D8A#32, .srRd 99 7 11), (0x6954058B#32, .spGet 85 11), (0x68AC000C#32, .spSet 43),
      (0x6E771805#32, .cpT 29 99 5), (0x6E001808#32, .cpWait 3), (0x6F541E09#32, .cpCnt 85 3 12),
      (0x6E00000A#32, .cpWaitAll), (0x6F300010#32, .kick 76), (0x6ED8E991#32, .kickN 54 29 3),
      (0x6E77ADC1#32, .atomFarAdd 29 3 21 11 0 1), (0x6F8D5E46#32, .atomFarAnd 99 1 11 12 1 0),
      (0x6F576349#32, .atomFarOr 85 3 12 6 0 1), (0x6EADB6CE#32, .atomFarXor 43 1 22 13 1 0),
      (0x6F32E9D1#32, .atomFarMinI 76 2 29 3 0 1)] : List (Word × Instr)),
    decodeWord p.1 = .ok p.2 := by decide

theorem test_decode_lane_34_1 : ∀ p ∈ ([
      (0x6ED91AD6#32, .atomFarMaxI 54 1 3 5 1 0), (0x6E77ADD9#32, .atomFarMinN 29 3 21 11 0 1),
      (0x6F8D5E5E#32, .atomFarMaxN 99 1 11 12 1 0), (0x6F576361#32, .atomFarExch 85 3 12 6 0 1),
      (0x6EADB6E6#32, .atomFarCas 43 1 22 13 1 0), (0x6ADA982C#32, .mma 54 5 3 5 true),
      (0x6A75A859#32, .mmaZero 29 3 5 11 false), (0x6B8EAD83#32, .mxLease 99 85 11), (0x6A000007#32, .mxRelease),
      (0x6AAC600B#32, .obResv 43 12), (0x6A00600F#32, .obFree 12), (0x6AD81813#32, .obLd 54 0 3),
      (0x6A771A97#32, .accRd 29 99 5), (0x6A00E81B#32, .accWait 3 5), (0x6A00081F#32, .mxFreeze 1),
      (0x6A001823#32, .mxThaw 3), (0x6B30C827#32, .accDrain 76 6 1), (0x6AD8B82B#32, .accFill 54 5 3),
      (0x6A74682F#32, .obDrain 29 3 1), (0x6B8EB833#32, .obFill 99 21 3), (0x6D541800#32, .itRange 85 3),
      (0x6CAC2001#32, .itList 43 4), (0x6D303002#32, .itBits 76 6), (0x6CD82803#32, .itQueue 54 5)] : List (Word × Instr)),
    decodeWord p.1 = .ok p.2 := by decide

theorem test_decode_lane_34_2 : ∀ p ∈ ([
      (0x6C741804#32, .itMap 29 3), (0x6D8C2805#32, .itFilter 99 5), (0x6D541806#32, .itZip 85 3),
      (0x6CAC2007#32, .itChain 43 4), (0x6D303008#32, .itFlat 76 6), (0x6CD8E995#32, .itNext 54 29 3 5),
      (0x6C002818#32, .itEnough 5), (0x6C001819#32, .itFree 3), (0x6D541E1A#32, .itStat 85 3 12),
      (0x6CAD301B#32, .itRd 43 4 6)] : List (Word × Instr)),
    decodeWord p.1 = .ok p.2 := by decide

theorem test_decode_lane_38_0 : ∀ p ∈ ([
      (0x76300000#32, .tbJoin 12), (0x7618E981#32, .tbSign 6 29 3), (0x76371802#32, .tbWait 13 99),
      (0x760C0003#32, .weld 3), (0x77540004#32, .ltArrive 85), (0x76AC0005#32, .ltWait 43 0),
      (0x7731B686#32, .ltPhase 76 54 13), (0x76DA9808#32, .tlWait 54 5 3), (0x76741A89#32, .tlRd 29 3 5),
      (0x7600000A#32, .barCrew), (0x7755580D#32, .unjoin 85 43 1), (0x71300000#32, .flBirth 76),
      (0x70D80800#32, .flBirthZ 54), (0x70740001#32, .flRenew 29), (0x718EAD82#32, .flLife 99 85 11),
      (0x71540003#32, .flFree 85), (0x70AE6304#32, .flStat 43 76 6), (0x7131B005#32, .flStatClr 76 54),
      (0x7331B000#32, .qPush 76 54), (0x72D8E801#32, .qPushNb 54 29), (0x72771A82#32, .qPop 29 99 5),
      (0x738EAD83#32, .qPopNb 99 85 11), (0x73555E04#32, .qStat 85 43 12), (0x72AE6005#32, .emit 43 76)] : List (Word × Instr)),
    decodeWord p.1 = .ok p.2 := by decide

theorem test_decode_lane_38_1 : ∀ p ∈ ([
      (0x7331B010#32, .hcall 76 54), (0x74D8E800#32, .colSend 54 29), (0x74771801#32, .colRecv 29 99),
      (0x758EA802#32, .colRed 99 85), (0x74000003#32, .colGangbar), (0x74AC0004#32, .colAbort 43),
      (0x7531B005#32, .colStat 76 54)] : List (Word × Instr)),
    decodeWord p.1 = .ok p.2 := by decide

theorem test_decode_lane_3C : ∀ p ∈ ([
      (0x78000000#32, .endThread), (0x7931B001#32, .trap 76 54), (0x78000002#32, .tret),
      (0x7F8EAC00#32, .pfx 6 false 3 85 true)] : List (Word × Instr)),
    decodeWord p.1 = .ok p.2 := by decide

theorem test_decode_uniform_0_0 : ∀ p ∈ ([
      (0x80EC6A80#32, .gAddI64 29 35 21), (0x811AB582#32, .gSubI64 35 21 43), (0x80AD6004#32, .gNegI64 21 43),
      (0x81598006#32, .gAbsI64 43 12), (0x8266CE80#32, .gMulI64 12 54 29), (0x83B3B182#32, .gMulhiI64 54 29 35),
      (0x82EC6A84#32, .gMulhiN64 29 35 21), (0x831AB586#32, .gDivI64 35 21 43), (0x82AD6608#32, .gDivN64 21 43 12),
      (0x83599B0A#32, .gRemI64 43 12 54), (0x8266CE8C#32, .gRemN64 12 54 29), (0x85B3B180#32, .gAndN64 54 29 35),
      (0x84EC6A82#32, .gOrN64 29 35 21), (0x851AB584#32, .gXorN64 35 21 43), (0x84AD6606#32, .gAndnN64 21 43 12),
      (0x85598008#32, .gNotN64 43 12), (0x8666CE80#32, .gShlN64 12 54 29), (0x87B3B182#32, .gShrN64 54 29 35),
      (0x86EC6A84#32, .gShrI64 29 35 21), (0x871AB586#32, .gRolN64 35 21 43), (0x86AD6608#32, .gRorN64 21 43 12),
      (0x89599B00#32, .gSetEqI64 43 12 54), (0x8866CE82#32, .gSetNeI64 12 54 29),
      (0x89B3B184#32, .gSetLtI64 54 29 35)] : List (Word × Instr)),
    decodeWord p.1 = .ok p.2 := by decide

theorem test_decode_uniform_0_1 : ∀ p ∈ ([
      (0x88EC6A86#32, .gSetLeI64 29 35 21), (0x891AB588#32, .gSetLtN64 35 21 43),
      (0x88AD660A#32, .gSetLeN64 21 43 12), (0x8B599B00#32, .gMinI64 43 12 54), (0x8A66CE82#32, .gMaxI64 12 54 29),
      (0x8BB3B184#32, .gMinN64 54 29 35), (0x8AEC6A86#32, .gMaxN64 29 35 21)] : List (Word × Instr)),
    decodeWord p.1 = .ok p.2 := by decide

theorem test_decode_uniform_1 : ∀ p ∈ ([
      (0x8D1AA000#32, .gMovN64 35 21), (0x8CAD6602#32, .gMovnzN64 21 43 12), (0x8D599B04#32, .gMovzN64 43 12 54),
      (0x8E66C000#32, .gPopcN64 12 54), (0x8FB3A002#32, .gClzN64 54 29), (0x8EEC6004#32, .gCtzN64 29 35),
      (0x8F1AA006#32, .gBrevN64 35 21), (0x90A89C35#32, .gAddI64Imm 21 39989), (0x91599C35#32, .gMulI64Imm 43 39989),
      (0x90629C35#32, .gMinI64Imm 12 39989), (0x91B39C35#32, .gMaxI64Imm 54 39989),
      (0x92E89C35#32, .gAndN64Imm 29 39989), (0x93199C35#32, .gOrN64Imm 35 39989),
      (0x92AA9C35#32, .gXorN64Imm 21 39989), (0x935B9C35#32, .gAndI64Imm 43 39989),
      (0x94609C35#32, .gShlN64Imm 12 39989), (0x95B19C35#32, .gShrN64Imm 54 39989),
      (0x94EA9C35#32, .gShrI64Imm 29 39989), (0x951B9C35#32, .gRolN64Imm 35 39989),
      (0x96A89C35#32, .gMovI64Imm 21 39989), (0x97599C35#32, .gMovN64Imm 43 39989),
      (0x96629C35#32, .gMovk16 12 39989), (0x97B39C35#32, .gMovk32 54 39989), (0x96EC9C35#32, .gMovk48 29 39989)] : List (Word × Instr)),
    decodeWord p.1 = .ok p.2 := by decide

theorem test_decode_uniform_2 : ∀ p ∈ ([
      (0x991ABE36#32, .gLdSh 35 21 3 12 54), (0x9AAD6836#32, .gStSh 21 43 1 54),
      (0x9D5996E3#32, .gLdDie 43 12 2 13 99), (0x9E66C863#32, .gStDie 12 54 1 99), (0xA0DD9C35#32, .gBr 3 29 39989),
      (0xA2E92000#32, .gRdsr 29 9), (0xA2000002#32, .gUconfClr), (0xA2AD6020#32, .gRdvN32 21 43),
      (0xA3598022#32, .gWrvN32 43 12), (0xA266C024#32, .gWrvN64 12 54)] : List (Word × Instr)),
    decodeWord p.1 = .ok p.2 := by decide

/-! ## The states of the witnesses -/

/-- One crew of one thread that issues the word at 0, as the fetch hook places it: 256 registers, a stack, shared memory and
two die windows of 4,096 bytes, two tiles. -/
def Tests.base : State := (State.reset.placed 0).begin 0 [{ tid := 0, issued := true }] 0#32 false 0

/-- The crew of that state, and its thread. -/
def Tests.crew0 : Crew := Crew.start loadedRecord loadedEntry 0 0 0#64 none 0 0 0 [] 0
def Tests.thread0 : Thread := Thread.start 0 0 0 0#32 none
def Tests.cr (s : State) : Crew := (s.crew? 0).getD Tests.crew0
def Tests.th (s : State) : Thread := (s.thread? 0 0).getD Tests.thread0

/-- The role of the bundle. -/
def Tests.role (s : State) : Role := ((Tests.cr s).role? s.curRole).getD
  { id := 0, first := 0, count := 0, budget := 0, weight := 0, uregs := [], upoison := [], uwriter := [], uconfSet := false
    uconfReg := 0, uconfMulti := false }

/-- The base state with registers of its thread set, with a prefix in front of its word, and with its crew or its thread
changed. -/
def Tests.regs (rs : List (Nat × Word)) : State :=
  Tests.base.modThread 0 0 fun th => { th with regs := rs.foldl (fun m r => Sparse.set 0#32 m r.1 r.2) [] }
def Tests.behind (s : State) (pred rnd : BitVec 3) (mz : Bool) (vc : BitVec 7) : State :=
  { s with cur := { s.cur with
      pfx := some { word := 0#32, pred := pred, mz := mz, rnd := rnd, vc := vc, neg := false, clean := true } } }

/-- A bundle of the same crew with a second thread, active or not by the predicate of the prefix. -/
def Tests.pair : State :=
  { Tests.base.modCrew 0 fun c => { c with threads := c.threads ++ [(1, { Tests.thread0 with preds := 1#7 })] } with
    cur := { Tests.base.cur with lanes := [{ tid := 0, issued := true }, { tid := 1, issued := true }] } }

/-! ## Hypotheses that states meet: the lanes -/

theorem witness_IntegerSums : ∀ fm ∈ [fm32 5 6 7 false, fm32 0x77 0 0 true, fm32u 5 6 false, fm64 4 6 8 false,
    fm64u 4 6 false, fm64b32 4 6 9 false, fmW 4 5 6 false], Tests.base.Clear (fm.legality Tests.base.cur) := by
  unfold State.Clear; decide

/-- mad and its like behind a prefix that names vc = v9; and a bundle in which the prefix leaves one lane inactive. -/
theorem witness_ProductsCountsAndFields :
    (Tests.behind Tests.base 7 0 false 9).Clear
        ((fm32 5 6 7 false).withVc32.legality (Tests.behind Tests.base 7 0 false 9).cur) ∧
      (Tests.behind Tests.pair 0 0 true 0).Clear ((fm64 4 6 8 false).legality (Tests.behind Tests.pair 0 0 true 0).cur) := by
  unfold State.Clear; decide
theorem witness_inactive_lane : (Tests.behind Tests.pair 0 0 true 0).activeLanes.map (·.1.tid) = [1] := by decide

theorem witness_ExtremesLogicAndShifts : ∀ fm ∈ [fm32 5 5 5 false, fm64 4 4 4 true, fm64b32 4 6 7 false, fm32u 5 6 true],
    Tests.pair.Clear (fm.legality Tests.pair.cur) := by
  unfold State.Clear; decide

theorem witness_ProductsCountsAndFields_bits : ∀ fm ∈ [fm32u 5 6 false, fm64uTo32 5 6 false, fm32 5 6 7 false, (fm32 5 6 7 false).withVc32],
    (Tests.behind Tests.base 7 0 false (if fm.usesVc then 8 else 0)).Clear
      (fm.legality (Tests.behind Tests.base 7 0 false (if fm.usesVc then 8 else 0)).cur) := by
  unfold State.Clear; decide

theorem witness_PackedElementsAndImmediates : ∀ fm ∈ [fm32 5 6 7 false, (fm32 5 6 7 true).withVc32],
    (Tests.behind Tests.base 7 0 false (if fm.usesVc then 8 else 0)).Clear
      (fm.legality (Tests.behind Tests.base 7 0 false (if fm.usesVc then 8 else 0)).cur) := by
  unfold State.Clear; decide

theorem witness_ComparesSelectsAndPredicates : ∀ fm ∈ [fmP32 2 6 7, fmP32 7 6 7, fmP64 2 6 8, { fm32 5 6 7 false with c := .pred 7 },
    { fm64 4 6 8 false with a := .r32 9 }, fmPP 0 7 7, { fmPP 7 6 7 with b := .none },
    { dst := .r32 5, a := .preds, b := .none, c := .none, tr := false, rnd := .none },
    { dst := .preds, a := .r32 5, b := .none, c := .none, tr := false, rnd := .none }],
    Tests.base.Clear (fm.legality Tests.base.cur) := by
  unfold State.Clear; decide

theorem witness_PackedElementsAndImmediates_imm : ∀ fm ∈ [fmI32 5 (immI32 0x8000), fmI32 119 (immN 0xFFFF), fmI64 4 (immI 1),
    { fmI32 5 (immI32 0) with a := .none }], Tests.base.Clear (fm.legality Tests.base.cur) := by
  unfold State.Clear; decide

/-- Every rounding mode of the prefix, 0 to 5. -/
theorem witness_FloatArithmetic : ∀ r ∈ [0#3, 1#3, 2#3, 3#3, 4#3, 5#3],
    (Tests.behind Tests.base 7 r false 0).Clear ((fm32 5 6 7 false).rounded.legality (Tests.behind Tests.base 7 r false 0).cur) ∧
      (Tests.behind Tests.base 7 r false 10).Clear
        ((fm64 4 6 8 false).rounded.withVc64.legality (Tests.behind Tests.base 7 r false 10).cur) ∧
      (Tests.behind Tests.base 7 r false 10).Clear
        ((fm32 5 6 7 true).rounded.withVc32.legality (Tests.behind Tests.base 7 r false 10).cur) := by
  unfold State.Clear; decide
theorem witness_FloatArithmetic_tables : ∀ fm ∈ [fm32u 5 6 false, (fm64u 4 6 false).rounded, (fm32u 5 6 false).rounded],
    Tests.base.Clear (fm.legality Tests.base.cur) := by
  unfold State.Clear; decide

theorem witness_PackedFloatArithmetic : ∀ fm ∈ [(fm32 5 6 7 false).rounded, (fm32u 5 6 false).rounded,
    (fm32 5 6 7 false).rounded.withVc32],
    (Tests.behind Tests.base 7 4 false (if fm.usesVc then 8 else 0)).Clear
      (fm.legality (Tests.behind Tests.base 7 4 false (if fm.usesVc then 8 else 0)).cur) := by
  unfold State.Clear; decide

theorem witness_FloatComparesAndImmediates : ∀ fm ∈ [fm32u 5 6 false, fm64u 4 6 false, fm32 5 6 7 false, fm64 4 6 8 false,
    { fm64u 4 6 false with dst := .r32 5 }, { dst := .pred 2, a := .r32 6, b := .r32 7, c := .none, tr := false, rnd := .none },
    { dst := .pred 2, a := .r64 6, b := .r64 8, c := .none, tr := false, rnd := .none }, (fmI32 5 (immF32 0x3FC0)).rounded,
    (fmI64 4 (immF64 0x7FC1)).rounded, (fmI32 5 (immTwice 1)).rounded, (fmI32 5 (immPackedBf16 0x3F80)).rounded],
    Tests.base.Clear (fm.legality Tests.base.cur) := by
  unfold State.Clear; decide

theorem witness_ConversionsAndBlocks : (∀ fm ∈ [(fm32u 5 6 false).rounded, (fm64u 4 6 false).rounded,
      { fm32u 5 6 false with dst := .r64 4, rnd := .rounding }, { fm64u 4 6 false with dst := .r32 5, rnd := .rounding },
      (fm32 5 6 7 false).rounded], Tests.base.Clear (fm.legality Tests.base.cur)) ∧
    ∀ x ∈ [(3, 16, 3, 8), (20, 40, 9, 32), (40, 20, 32, 9), (16, 16, 16, 2), (104, 117, 16, 3)],
      Tests.base.Clear { opnds := [], cls := { accepts := true, mz := true, rnd := .rounding, vc := false }, blocks := [(BitVec.ofNat 7 x.2.1, x.2.2.2)]
                         illegal := blockIllegal Tests.base.curBudget (BitVec.ofNat 7 x.2.1) x.2.2.2 false ||
                          blockIllegal Tests.base.curBudget (BitVec.ofNat 7 x.1) x.2.2.1 false } := by
  unfold State.Clear; decide

theorem witness_CrossLaneReads :
    (∀ x ∈ [({ vd := 5, wide := false, own := [src32 7], far := [farOpnd 6 false], tr := false } : XlForm),
        { vd := 4, wide := true, own := [src32 7], far := [farOpnd 6 true], tr := false },
        { vd := 4, wide := true, own := [], far := [], tr := false }], Tests.pair.Clear x.legality) ∧
      (∀ e ∈ Tests.pair.activeLanes, e.2.poison = []) ∧ (Tests.pair.source 1).isSome = true ∧ Tests.pair.source 2 = none ∧
      Tests.pair.source (-1) = none ∧ Tests.pair.curCrew? = some (Tests.cr Tests.pair) ∧ (Tests.cr Tests.pair).width ≤ 64 := by
  unfold State.Clear; decide

theorem witness_UniformResults : Tests.base.UniformClear [] [4, 63] [5] Tests.crew0 (Tests.role Tests.base) := by
  unfold State.UniformClear State.Clear; decide

theorem witness_UniformMoves :
    Tests.base.UniformClear [uniformLane 63 false] [] [5] Tests.crew0 (Tests.role Tests.base) ∧
      Tests.base.UniformClear [uniformLane 5 false] [62] [] Tests.crew0 (Tests.role Tests.base) ∧
      Tests.base.UniformClear [uniformLane 4 true] [0] [] Tests.crew0 (Tests.role Tests.base) ∧
      Tests.base.curLanes.head? = some ({ tid := 0, issued := true }, Tests.th Tests.base) ∧
      (63 : Nat) ∉ (Tests.th Tests.base).poison := by
  unfold State.UniformClear State.Clear; decide
theorem witness_UniformMoves_uconf : Tests.base.UniformClear [] [] [] Tests.crew0 (Tests.role Tests.base) [uconfUse] ∧
    Tests.base.UniformClear [] [] [5] Tests.crew0 (Tests.role Tests.base) [uconfUse] ∧
    Tests.base.UniformClear [] [] [5] Tests.crew0 (Tests.role Tests.base) := by
  unfold State.UniformClear State.Clear; decide
theorem witness_UniformMoves_writes : ∀ rw ∈ [([4, 5], [6]), ([], [63])],
    Tests.base.UniformClear [] rw.1 rw.2 Tests.crew0 (Tests.role Tests.base) := by
  unfold State.UniformClear State.Clear; decide

/-! ## Hypotheses that states meet: control and local memory -/

/-- A state's thread and crew at once: the bundle is the one thread. -/
def Tests.soloAt (s : State) : Prop := s.Solo 0 (Tests.cr s) (Tests.th s)

/-- The base thread with SP, registers and a word of its stack. -/
def Tests.withStack (sp : Word) (at0 : Nat) (w : Word) : State :=
  (Tests.regs [(5, 4), (6, 8), (7, 2)]).modThread 0 0 fun th =>
    { th with sp := sp, stack := Mem.writeBytes [] at0 (leBytes w.toNat 4) }

/-- The targets 4 and 8 of the eight bytes of code: the one inside, the other not; and 2, which no word starts at. -/
theorem witness_ControlTransfers_targets : (Tests.regs []).flushed.badTarget 4 = false ∧
    (Tests.regs []).flushed.badTarget 8 = true ∧ (Tests.regs []).flushed.badTarget 2 = true := by decide

/-- br, loop and g.br; br.ind; a call with the last word of the stack free, and a ret to 4 from the first word. -/
theorem witness_ControlTransfers :
    (∀ s ∈ [Tests.withStack 4092 0 4, Tests.withStack 4 0 4],
      s.flushed.Clear { opnds := [], illegal := false, cls := PfxClass.noPrefix } ∧ s.flushed.Clear (lx [lxSrc32 5] false) ∧
        (∀ e ∈ s.flushed.activeLanes, s.flushed.badTarget (e.2.read32 5) = false) ∧ s.flushed.badTarget ((Tests.th s).read32 6) = true ∧
        s.flushed.curLanes ≠ [] ∧ s.flushed.Solo 0 (Tests.cr s.flushed) (Tests.th s.flushed) ∧
        (Tests.th s.flushed).sp.toNat + 4 ≤ (Tests.cr s.flushed).stackSize ∧
        (Tests.th s.flushed).stackAbsent.contains ((Tests.th s.flushed).sp.toNat / 64) = false ∧ (Tests.th s.flushed).fifo.length < 8 ∧
        (Tests.th s.flushed).stackAbsent.contains (((Tests.th s.flushed).sp.toNat - 4) / 64) = false ∧
        4 ≤ (Tests.th s.flushed).sp.toNat ∧
        s.flushed.spacePoison (Tests.cr s.flushed) (Tests.th s.flushed) .stk ((Tests.th s.flushed).sp.toNat - 4) 4 false = none) ∧
      BitVec.ofNat 32 (leNat ((Tests.th (Tests.withStack 4 0 4).flushed).stackBytes 0 4)) = 4#32 ∧
      (Tests.cr (Tests.withStack 4096 0 4).flushed).stackSize < (Tests.th (Tests.withStack 4096 0 4).flushed).sp.toNat + 4 ∧
      (Tests.th (Tests.withStack 3 0 4).flushed).sp.toNat < 4 ∧ (Tests.withStack 3 0 4).flushed.Clear (lx [] false) := by
  unfold State.Clear State.Solo; decide
theorem witness_g_br : Tests.base.UniformClear [] [63] [] Tests.crew0 (Tests.role Tests.base) := by
  unfold State.UniformClear State.Clear; decide

/-- An object with a live-in set, and registers with the words of an index region that ends with the budget, of SP at the
end of the stack, and of a rotating region at each bound. -/
def Tests.withSets : State :=
  (Tests.regs [(5, 0x001008F8), (6, 4096)]).modContext 0 fun x =>
    { x with objects := Table.adjust x.objects 0 fun o => { o with lsets := [[1, 2], [3]] } }
theorem witness_Regions : Tests.withSets.crew? 0 = some (Tests.cr Tests.withSets) ∧
    ((Tests.withSets.object? 0 0).map (·.lsets) = some [[1, 2], [3]]) ∧ Tests.withSets.Clear (lx [] false) ∧
    (∀ e ∈ Tests.withSets.activeLanes, (∀ r ∈ [1, 2, 3], r ∉ e.2.poison) ∧ (e.2.read32 5).extractLsb' 26 6 = 0#6 ∧
      ((e.2.read32 5).extractLsb' 0 8).toNat + ((e.2.read32 5).extractLsb' 8 9).toNat ≤ Tests.withSets.curBudget ∧
      ((e.2.read32 5).extractLsb' 17 9).toNat ≤ ((e.2.read32 5).extractLsb' 8 9).toNat ∧
      (e.2.read32 6).toNat ≤ (Tests.cr Tests.withSets).stackSize ∧ (e.2.read32 6).toNat % 4 = 0) ∧
    Tests.withSets.Clear (lx [lxSrc32 5] false) ∧ Tests.withSets.Clear (lx [lxDst32 5] false) ∧
    Tests.withSets.Clear (lx [lxDst64 4] false) ∧
    (∀ x ∈ [(64, 8), (64, 16), (64, 32), (112, 8), (96, 16)], 64 ≤ x.1 ∧ x.1 + x.2 ≤ 120 ∧ x.1 % x.2 = 0 ∧
      x.1 + x.2 ≤ Tests.withSets.curBudget) := by
  unfold State.Clear; decide

/-- A register that points at the last eight bytes of the windows and of the tiles; the first tile live, the second not. -/
def Tests.atEnd : State :=
  (Tests.regs [(2, 4088), (3, 8184), (4, 4096), (6, 0)]).modCrew 0 fun c => c.modTile 0 fun x => { x with born := true }
theorem witness_LocalLoads : (∀ sp ∈ [Space.stk, .sh, .die], ∀ la ∈ [loadClass .none, loadClass .scope],
      Tests.atEnd.Clear { opnds := [loadDst 4 8, addrSrc 2], illegal := false, cls := la } ∧ Tests.atEnd.Distinct ∧
      Tests.atEnd.Reaches (Tests.cr Tests.atEnd) sp 8 (fun th => th.address 2 0 8) ∧
      ∀ e ∈ Tests.atEnd.activeLanes, Tests.atEnd.spacePoison (Tests.cr Tests.atEnd) e.2 sp (e.2.address 2 0 8).toNat 8 false = none ∧
        e.2.awaitsStrong sp (e.2.address 2 0 8).toNat 8 = false) := by
  unfold State.Clear State.Distinct State.Reaches; decide
theorem witness_LocalLoads_fleeting :
    ∀ va ∈ [2#4, 3#4], Tests.atEnd.Solo 0 (Tests.cr Tests.atEnd) (Tests.th Tests.atEnd) ∧
      Tests.atEnd.Clear { opnds := [loadDst 4 8, addrSrc va], illegal := false, cls := loadClass .none } ∧
      Tests.atEnd.Reaches (Tests.cr Tests.atEnd) .fl 8 (fun th => th.address va 0 8) ∧
      Tests.atEnd.spacePoison (Tests.cr Tests.atEnd) (Tests.th Tests.atEnd) .fl ((Tests.th Tests.atEnd).address va 0 8).toNat 8 true = none ∧
      ∀ e ∈ (Tests.th Tests.atEnd).fifo, e.space ≠ .fl := by
  unfold State.Clear State.Reaches State.Solo; decide
theorem witness_tiles : ((Tests.cr Tests.atEnd).tile 0).live Tests.atEnd.tick = true ∧
    ((Tests.cr Tests.atEnd).tile 1).live Tests.atEnd.tick = false := by decide

theorem witness_LocalStores : ∀ sp ∈ [Space.stk, .sh, .die, .fl], ∀ la ∈ [storeClass .none, storeClass .scope],
    Tests.atEnd.Clear { opnds := [storeSrc 4 8, addrSrc 2], illegal := false, cls := la } ∧ Tests.atEnd.Distinct ∧
      Tests.atEnd.Reaches (Tests.cr Tests.atEnd) sp 8 (fun th => th.address 2 0 8) ∧
      Tests.atEnd.FirstIssue (Tests.cr Tests.atEnd) ∧
      (∀ e ∈ Tests.atEnd.activeLanes, e.2.fifo.length < 8) ∧ Tests.atEnd.Solo 0 (Tests.cr Tests.atEnd) (Tests.th Tests.atEnd) := by
  unfold State.Clear State.Distinct State.Reaches State.Solo State.FirstIssue; decide

/-- An atomic of each space and width at the end of its window, in a live and in an expired tile, cas behind a prefix. -/
theorem witness_LocalAtomics : ∀ sp ∈ [1#2, 2#2, 3#2], ∀ x ∈ [(1#1, 8, 2#4, false), (1#1, 8, 3#4, false), (0#1, 4, 2#4, true)],
    (x.2.2.1 = 3#4 → sp = 3#2) →
    (Tests.behind Tests.atEnd 7 0 false (if x.2.2.2 then 9 else 0)).Solo 0 (Tests.cr Tests.atEnd) (Tests.th Tests.atEnd) ∧
    (Tests.behind Tests.atEnd 7 0 false (if x.2.2.2 then 9 else 0)).Clear
        ((Tests.behind Tests.atEnd 7 0 false (if x.2.2.2 then 9 else 0)).atomLegality x.2.2.2 4 x.2.2.1 x.1 sp) ∧
      (Tests.th Tests.atEnd).fifo = [] ∧
      (Tests.behind Tests.atEnd 7 0 false (if x.2.2.2 then 9 else 0)).FirstIssue (Tests.cr Tests.atEnd) ∧
      Tests.atEnd.Reaches (Tests.cr Tests.atEnd) (spaceOf sp) x.2.1 (fun u => u.address x.2.2.1 0#7 x.2.1) ∧
      Tests.atEnd.spacePoison (Tests.cr Tests.atEnd) (Tests.th Tests.atEnd) (spaceOf sp)
        ((Tests.th Tests.atEnd).address x.2.2.1 0#7 x.2.1).toNat x.2.1 true = none := by
  unfold State.Clear State.Reaches State.Solo State.FirstIssue; decide

/-- Four bytes on from the last eight: a doubleword there is beyond the window, and a word stands inside; two bytes back a
word is in the window and misaligned. -/
theorem witness_AddressChecks : (∀ sp ∈ [Space.stk, .sh, .die],
      Tests.atEnd.inBounds (Tests.cr Tests.atEnd) sp 4092 8 = false ∧ Tests.atEnd.inBounds (Tests.cr Tests.atEnd) sp 4092 4 = true ∧
        Tests.atEnd.inBounds (Tests.cr Tests.atEnd) sp 4090 4 = true ∧ Tests.atEnd.inBounds (Tests.cr Tests.atEnd) sp (-4) 4 = false) ∧
    Tests.atEnd.inBounds (Tests.cr Tests.atEnd) .fl 8188 8 = false ∧
    Tests.atEnd.inBounds (Tests.cr Tests.atEnd) .die 0x80000FFC 4 = true ∧
    Tests.atEnd.inBounds (Tests.cr Tests.atEnd) .die 0x80000FFC 8 = false ∧
    (Tests.atEnd.curLanes.find? fun x => Tests.atEnd.cur.active x.1 x.2 &&
      !Tests.atEnd.inBounds (Tests.cr Tests.atEnd) .sh (x.2.address 2 1 8) 8).isSome = true ∧
    ((Tests.regs [(2, 2)]).curLanes.find? fun x => (Tests.regs [(2, 2)]).cur.active x.1 x.2 &&
      decide (x.2.address 2 0 4 % 4 ≠ 0)).isSome = true := by decide

theorem witness_UniformAccesses : ∀ sp ∈ [Space.sh, .die],
    Tests.base.UniformClear [] [5] [4] Tests.crew0 (Tests.role Tests.base) [accessUse, uconfUse] ∧
    Tests.base.UniformClear [] [4, 5] [] Tests.crew0 (Tests.role Tests.base) [accessUse] ∧
    Tests.base.curLanes.find? (fun e => e.1.issued) = some ({ tid := 0, issued := true }, Tests.th Tests.base) ∧
    Tests.base.inBounds Tests.crew0 sp (0 + (63#7).toInt * 8) 8 = true ∧ Tests.base.inBounds Tests.crew0 sp (0 + (127#7).toInt * 8) 8 = false ∧
    Tests.base.lineState Tests.crew0 (Tests.th Tests.base) sp 504 = .ready ∧
    Tests.base.spacePoison Tests.crew0 (Tests.th Tests.base) sp 504 8 false = none ∧ (Tests.th Tests.base).fifo = [] ∧
    (Tests.th Tests.base).ended = false ∧ (Tests.th Tests.base).pc = Tests.base.cur.pc := by
  unfold State.UniformClear State.Clear; decide

/-- A store of each space that waits in the FIFO, the fleeting one in a live tile; a held non-temporal store. -/
def Tests.storing (sp : Space) (a : Nat) : State :=
  Tests.atEnd.modThread 0 0 fun th => { th with
    fifo := [{ space := sp, addr := a, bytes := [1, 2, 3, 4], pc := 0, word := 0, pfx := 0, strong := false, group := 0 }]
    ntStores := [{ space := .sh, addr := 8, bytes := [1, 2, 3, 4], pc := 0, word := 0, pfx := 0, strong := false, group := 0 }] }
theorem witness_FencesAndStoreOrder : Tests.base.Solo 0 Tests.crew0 (Tests.th Tests.base) ∧ Tests.base.Clear (lx [] false) ∧
    (Tests.th Tests.base).ntStores = [] ∧ Table.wf Tests.crew0.threads = true ∧
    ∀ x ∈ [(Space.sh, 4092), (.die, 4092), (.die, 0x80000FFC), (.fl, 4092)],
      (Tests.storing x.1 x.2).Solo 0 (Tests.cr (Tests.storing x.1 x.2)) (Tests.th (Tests.storing x.1 x.2)) ∧
      (Tests.th (Tests.storing x.1 x.2)).ntStores ≠ [] ∧ (Tests.cr (Tests.storing x.1 x.2)).killed = false ∧
      (∀ e ∈ (Tests.th (Tests.storing x.1 x.2)).fifo,
        (Tests.storing x.1 x.2).storeBlocked (Tests.cr (Tests.storing x.1 x.2)) e = none) ∧
      (Tests.th ((Tests.storing x.1 x.2).drainFifo 0 0)).fifo = [] ∧
      (((Table.get? (Tests.storing x.1 x.2).launches 0).bind (·.win0)).isSome = true) := by
  unfold State.Clear State.Solo; decide

/-- A byte of a non-temporal store that has performed, under an older store that waits, and beside it. -/
theorem witness_FencesAndStoreOrder_nt : ∀ x ∈ [(9, true), (12, false)], ∀ s ∈ [(Tests.storing .sh 8).modThread 0 0 fun th => { th with
      ntStores := []
      ntDone := [{ space := .sh, addr := x.1, bytes := [1], pc := 0, word := 0, pfx := 0, strong := false, group := 0 }] }],
    Tests.soloAt s ∧ s.Clear (lx [] false) ∧ (Tests.th s).ntStores = [] ∧
      ((Tests.th s).ntDone.any fun e => (Tests.th s).fifo.any e.meets) = x.2 := by
  unfold Tests.soloAt State.Clear State.Solo; decide

/-- The tile at 0 is live and the one at 4,096 is not; a register holds each offset. -/
theorem witness_FleetingForms : ∀ va ∈ [6#7, 4#7], Tests.atEnd.Solo 0 (Tests.cr Tests.atEnd) (Tests.th Tests.atEnd) ∧
    (∀ os ∈ [[lxSrc32 va], [lxDst32 8, lxSrc32 va], [lxDst64 8, lxSrc32 va]], Tests.atEnd.Clear (lx os false)) ∧
    Tests.atEnd.Reaches (Tests.cr Tests.atEnd) .fl 4096 (fun u => ((u.read32 va).toNat : Int)) ∧
    (∀ e ∈ (Tests.th Tests.atEnd).fifo, e.space ≠ .fl) := by
  unfold State.Clear State.Reaches State.Solo; decide

/-! ## Hypotheses that states meet: tumblers, latches, traps and copies -/

/-- Thread 1, which does not issue, in the crew. -/
def Tests.two (s : State) : State := s.modCrew 0 fun c => { c with threads := c.threads ++ [(1, Tests.thread0)] }
/-- Tumbler 15 with a declared and a signed set. -/
def Tests.tumbled (d g : List Nat) : State :=
  (Tests.two Tests.base).modCrew 0 fun c => c.putTumbler 15 { declared := d, signed := g, weld := [], gen := 0xFFFFFFFF, orphan := false }

/-- A member that signs last, and first; a second signature; a signature by no member; tb.wait on each. -/
theorem witness_Tumblers : ∀ x ∈ [([0], []), ([0, 1], []), ([0, 1], [1]), ([0, 1], [0]), ([1], []), ([], ([] : List Nat))],
    Tests.soloAt (Tests.tumbled x.1 x.2) ∧ (Tests.tumbled x.1 x.2).Clear (lx [] false) ∧
      (Tests.tumbled x.1 x.2).Clear (lx [lxDst32 5] false) ∧ (Tests.tumbled x.1 x.2).Clear (lx [lxSrc32 5] false) ∧
      (Tests.th (Tests.tumbled x.1 x.2)).fifo = [] ∧ Table.wf (Tests.cr (Tests.tumbled x.1 x.2)).threads = true ∧
      Table.wf (Tests.cr (Tests.tumbled x.1 x.2)).tumblers = true ∧
      (Tests.cr (Tests.tumbled x.1 x.2)).tumbler 15 = { declared := x.1, signed := x.2, weld := [], gen := 0xFFFFFFFF, orphan := false } := by
  unfold Tests.soloAt State.Clear State.Solo; decide
theorem witness_Tumblers_weld : ∀ j, j ≠ 15 → (0 : Nat) ∉ (Tests.crew0.tumbler j).weld := by
  intro j _; exact List.not_mem_nil
/-- A weld set that is empty, one of the other thread, and that thread in another role or in another aligned block; and the
thread welded elsewhere: each reason of WELD_BAD. -/
def Tests.welded (w elsewhere : List Nat) (role width : Nat) : State :=
  (Tests.two Tests.base).modCrew 0 fun c =>
    ({ c with width := width }.modThread 1 fun th => { th with role := role }).putTumbler 15
        { declared := [], signed := [], weld := w, gen := 0, orphan := false } |>.putTumbler 3
      { declared := [], signed := [], weld := elsewhere, gen := 7, orphan := false }
theorem witness_Tumblers_weld_reasons : ∀ x ∈ [([], [], 0, 64, 0), ([1], [], 0, 64, 0), ([1], [0], 0, 64, 1), ([1], [], 1, 64, 2),
      ([1], [], 0, 1, (3 : Nat))], ∀ s ∈ [Tests.welded x.1 x.2.1 x.2.2.1 x.2.2.2.1],
    Tests.soloAt s ∧ s.Clear (lx [] false) ∧ Table.wf (Tests.cr s).tumblers = true ∧
      ((Tests.cr s).tumblers.any fun e => e.1 ≠ 15 && e.2.weld.contains 0) = (x.2.2.2.2 == 1) ∧
      (Table.get? (Tests.cr s).threads (((Tests.cr s).tumbler 15).weld.headD 0)).any (fun f =>
        (if f.role ≠ (Tests.th s).role then 2
          else if (Tests.cr s).block (((Tests.cr s).tumbler 15).weld.headD 0) f ≠ (Tests.cr s).block 0 (Tests.th s) then 3 else 0) ==
            (if x.2.2.2.2 = 1 then 0 else x.2.2.2.2)) = true := by
  unfold Tests.soloAt State.Clear State.Solo; decide

/-- A latch in the last 16 bytes of shared memory, which v5 names. -/
def Tests.latched (v : LatchView) : State :=
  (Tests.regs [(5, 4080)]).modCrew 0 fun cr => cr.writeShared 4080 (leBytes (latchNat v) 16)
def Tests.latch (bytes arrive : Nat) (phase : Bool) (err : Nat) : LatchView :=
  { bytes := bytes, arrive := arrive, init := 2048, phase := phase, err := err, malformed := false }
theorem witness_Latches : ∀ v ∈ [Tests.latch 0 1 false 0, Tests.latch 0 2 true 0, Tests.latch 64 1 false 0, Tests.latch 0 0 false 0,
      Tests.latch 0 1 false 0x0106, { Tests.latch 0 1 false 0 with init := 2049, malformed := true }],
    Tests.soloAt (Tests.latched v) ∧ (Tests.th (Tests.latched v)).read32 5 = 4080 ∧ (Tests.cr (Tests.latched v)).latch 4080 = v ∧
      (∀ b, (Tests.latched v).spacePoison (Tests.cr (Tests.latched v)) (Tests.th (Tests.latched v)) .sh 4080 16 b = none) ∧
      (Tests.latched v).Clear (lx [lxSrc32 5] false) ∧ (Tests.latched v).Clear (lx [lxSrc32 5, lxDst32 6] false) ∧
      (Tests.th (Tests.latched v)).fifo = [] ∧ (Tests.th (Tests.latched v)).ended = false ∧
      (Tests.th (Tests.latched v)).pc = (Tests.latched v).cur.pc ∧ (Tests.latched v).FirstIssue (Tests.cr (Tests.latched v)) ∧
      Table.wf (Tests.cr (Tests.latched v)).threads = true := by
  unfold Tests.soloAt State.Clear State.Solo State.FirstIssue; decide

/-- Handle 15 bound to the copy context, whose counter stands at 2; the other handles unbound. -/
def Tests.counted : State :=
  (Tests.two (Tests.regs [(4, 3)])).modCrew 0 fun c =>
    { c with bind := List.replicate 15 .unbound ++ [.copy], copyTl := { accepted := 3, counter := 2, done := [] } }
theorem witness_Timelines : Tests.soloAt Tests.counted ∧ (Tests.cr Tests.counted).handle 15 ≠ .unbound ∧
    (Tests.cr Tests.counted).handle 0 = .unbound ∧ Tests.counted.Clear (lx [lxSrc64 4] false) ∧
    Tests.counted.Clear (lx [lxDst64 4] false) ∧
    (Tests.cr Tests.counted).failedAt ((Tests.cr Tests.counted).handle 15) ((Tests.th Tests.counted).read64 4).toNat = none := by
  unfold Tests.soloAt State.Clear State.Solo; decide
/-- The barrier with another thread still to arrive, and as the last that has not ended. -/
theorem witness_Barrier : (∀ s ∈ [Tests.base, Tests.two Tests.base], Tests.soloAt s ∧ s.Clear (lx [] false) ∧ (Tests.th s).fifo = [] ∧
      (Tests.th s).ended = false ∧ (Tests.th s).barPassed = false ∧ Table.wf (Tests.cr s).threads = true) ∧
    (∀ e ∈ (Tests.cr Tests.base).threads, e.1 = 0) ∧
    (Tests.cr (Tests.two Tests.base)).threads.any (fun e => e.1 = 1 && !e.2.ended && !e.2.atBarrier) = true := by
  unfold Tests.soloAt State.Clear State.Solo; decide

/-- A crew with a handler at 4, its thread at a stack pointer, in a handler or not. -/
def Tests.handled (sp : Word) (inh : Bool) (s : State) : State :=
  (s.modCrew 0 fun c => { c with handler := some 4 }).modThread 0 0 fun th => { th with sp := sp, inHandler := inh }
theorem witness_TrapEntry : Tests.base.crew? 0 = some Tests.crew0 ∧ Tests.crew0.handler = none ∧ Tests.pair.Distinct ∧
    Tests.pair.cur.lanes.length ≤ 64 ∧ Tests.pair.cur.alone = false ∧
    (∀ e ∈ (Tests.handled 3840 false Tests.pair).curLanes, e.2.inHandler = false ∧ e.2.sp.toNat + 256 ≤ Tests.crew0.stackSize) ∧
    ((Tests.handled 3841 false Tests.pair).curLanes.any fun e => decide (Tests.crew0.stackSize < e.2.sp.toNat + 256)) = true ∧
    ((Tests.handled 0 true Tests.pair).curLanes.any fun e => e.2.inHandler) = true := by
  unfold State.Distinct; decide

/-- A frame at the bottom of the stack whose RESUME is 4; SP beyond the frame's room on both sides. -/
def Tests.framed (sp : Word) (inh : Bool) : State :=
  (Tests.handled sp inh Tests.base).modThread 0 0 fun th => { th with stack := Mem.writeBytes [] 36 [4] }
theorem witness_TrapsAndReturn : Tests.base.flushed.Clear (lx [] false) ∧ Tests.base.flushed.activeLanes ≠ [] ∧ Tests.base.curLanes ≠ [] ∧
    Tests.base.cur.pfx = none ∧ (Tests.behind Tests.base 7 0 false 0).cur.pfx.isSome = true := by
  unfold State.Clear; decide
theorem witness_TrapsAndReturn_tret : ∀ x ∈ [(0, false), (255, true), (4097, true), (256, true)],
    Tests.soloAt (Tests.framed (BitVec.ofNat 32 x.1) x.2).flushed ∧
      (Tests.th (Tests.framed (BitVec.ofNat 32 x.1) x.2).flushed).inHandler = x.2 ∧
      (Tests.th (Tests.framed (BitVec.ofNat 32 x.1) x.2).flushed).sp.toNat = x.1 ∧
      (Tests.framed (BitVec.ofNat 32 x.1) x.2).flushed.Clear (lx [] false) := by
  unfold Tests.soloAt State.Clear State.Solo; decide
theorem witness_TrapsAndReturn_frame :
    (Tests.framed 256 true).flushed.spacePoison (Tests.cr (Tests.framed 256 true).flushed) (Tests.th (Tests.framed 256 true).flushed)
        .stk 0 48 false = none ∧
      (Tests.th (Tests.framed 256 true).flushed).stackAbsent = [] ∧ (Tests.framed 256 true).flushed.badTarget 4 = false := by decide
theorem witness_TrapsAndReturn_resume :
    (BitVec.ofNat 512 (Mem.readNat (Tests.th (Tests.framed 256 true).flushed).stack 0 64)).extractLsb' 288 32 = 4#32 := by
  rw [show Mem.readNat (Tests.th (Tests.framed 256 true).flushed).stack 0 64 = 4 * 2 ^ 288 by decide]
  apply BitVec.eq_of_toNat_eq
  have h : 4 * 2 ^ 288 < 2 ^ 512 := by
    rw [show 4 * 2 ^ 288 = 2 ^ 290 from (Nat.pow_add 2 2 288).symm]; exact Nat.pow_lt_pow_right (by decide) (by decide)
  rw [BitVec.extractLsb'_toNat, BitVec.toNat_ofNat, Nat.mod_eq_of_lt h, Nat.shiftRight_eq_div_pow, Nat.mul_div_cancel _ (Nat.two_pow_pos _)]
  rfl

/-- A thread with an outstanding copy, with a held store, with a tag error, and with nothing outstanding. -/
def Tests.ending (tags : Sparse Nat) (held : Bool) (errs : Table TagError) : State :=
  Tests.base.modThread 0 0 fun th => { th with
    tagCount := tags, tagErr := errs
    ntStores := if held then [{ space := .sh, addr := 8, bytes := [1], pc := 0, word := 0, pfx := 0, strong := false, group := 0 }] else [] }
theorem witness_ThreadsEnd : ∀ s ∈ [Tests.ending [(7, 1)] false [], Tests.ending [] true [], Tests.ending [] false [(0, { code := 1, addr := 2 })],
      Tests.ending [] false []], Tests.soloAt s.flushed ∧ s.flushed.Clear (lx [] false) ∧ Table.wf (Tests.cr s).threads = true ∧
      (Tests.th s.flushed).fifo = [] ∧ (Tests.th s.flushed).ended = false ∧ (Tests.th s.flushed).pc = s.flushed.cur.pc ∧
      (Tests.cr s).killed = false := by
  unfold Tests.soloAt State.Clear State.Solo; decide

/-- v8 to v11 and v12 as the block and the count of a per-thread copy: from shared memory to the crew's die window, and from
main memory to the last 32 bytes of shared memory. -/
def Tests.copying (dstLo dstHi srcLo srcHi n : Word) : State :=
  Tests.regs [(8, dstLo), (9, dstHi), (10, srcLo), (11, srcHi), (12, n)]
theorem witness_PerThreadCopies : ∀ x ∈ [(Tests.copying 0 0xF2000000 4064 0xF1000000 32, 0xF200000000000000, 0xF100000000000FE0, 32),
      (Tests.copying 4064 0xF1000000 0 0 1, 0xF100000000000FE0, 0, 1), (Tests.copying 64 0 0 0xF2000000 0, 64, 0xF200000000000000, 0)],
    Tests.soloAt x.1 ∧ ((Tests.th x.1).read32 12).toNat = x.2.2.2 ∧ x.2.2.2 ≤ 32 ∧
      (pairOf ((Tests.th x.1).readReg 8) ((Tests.th x.1).readReg 9)).toNat = x.2.1 ∧
      (pairOf ((Tests.th x.1).readReg 10) ((Tests.th x.1).readReg 11)).toNat = x.2.2.1 ∧
      x.1.Clear { opnds := [lxSrc32 12], illegal := blockIllegal x.1.curBudget 8 4 true, cls := PfxClass.predOnly, blocks := [(8, 4)] } ∧
      cpTForm x.2.1 x.2.2.1 = none ∧ cpTAlign x.2.1 x.2.2.1 x.2.2.2 = none ∧
      x.1.cpTBounds (Tests.cr x.1) x.2.1 x.2.2.1 x.2.2.2 = none ∧
      (match addrForm x.2.2.1 with
        | .die o => (x.1.dieLine (Tests.cr x.1) o).present && !(x.1.dieLine (Tests.cr x.1) o).faulted
        | .sh o => !x.1.enginePoison (Tests.cr x.1) .sh o x.2.2.2
        | _ => true) = true ∧
      (match addrForm x.2.1 with | .die o => decide ((x.1.dieLine (Tests.cr x.1) o).writers < 15) | _ => true) = true ∧
      (Tests.th x.1).fifo = [] ∧ (Tests.th x.1).wait = none ∧ (Tests.th x.1).tag 7 < 63 ∧ x.1.Clear (lx [] false) ∧ x.1.Clear (lx [lxDst32 5] false) ∧
      x.1.FirstIssue (Tests.cr x.1) := by
  unfold Tests.soloAt State.Clear State.Solo State.FirstIssue; decide
theorem witness_copy_tags : (Tests.th (Tests.ending [(7, 63)] false [])).tag 7 ≠ 0 ∧ (Tests.th (Tests.ending [(7, 63)] false [])).tag 0 = 0 ∧
    Table.get? (Tests.th (Tests.ending [] false [(0, { code := 1, addr := 2 })])).tagErr 0 = some { code := 1, addr := 2 } := by decide

/-- A request record at 4,032, the last 64 bytes of shared memory: 16 elements of 4 bytes from 0 to 256 of shared memory,
with the latch at 1,024. -/
def Tests.record : Nat :=
  0x40000001f20000000000000000000000000000000000000000000000000001000100010010f100000000000100f100000000000000
def Tests.kicking : State :=
  (Tests.regs [(5, 4032), (6, 4000)]).modCrew 0 fun c => { c with
    bind := List.replicate 15 .unbound ++ [.copy]
    shared := Mem.writeBytes c.shared 4032 (leBytes Tests.record 64) }
theorem witness_KicksAreAccepted : Tests.soloAt Tests.kicking ∧ (Tests.th Tests.kicking).read32 6 % 64 ≠ 0 ∧
    leNat (forwardedBytes [] .sh 4032 (Mem.readBytes (Tests.cr Tests.kicking).shared 4032 64)) = Tests.record ∧
    (∀ va ∈ [5, 6], Tests.kicking.Clear (lx [lxSrc32 va] false) ∧ Tests.kicking.Clear (lx [lxDst64 8, lxSrc32 va] false)) ∧
    Tests.kicking.spacePoison (Tests.cr Tests.kicking) (Tests.th Tests.kicking) .sh 4032 64 true = none ∧ (Tests.th Tests.kicking).fifo = [] ∧
    (Tests.th Tests.kicking).wait = none ∧ Tests.kicking.FirstIssue (Tests.cr Tests.kicking) ∧
    Tests.kicking.engineRoom (Tests.cr Tests.kicking).die ((Tests.cr Tests.kicking).homeCluster (Tests.th Tests.kicking)) = true ∧
    (∀ chk ∈ Tests.kicking.recordChecks (Tests.cr Tests.kicking) ++
        [Tests.kicking.latchCheck 0 (Tests.cr Tests.kicking), Tests.kicking.mcastCheck 0 (Tests.cr Tests.kicking)], chk ((Tests.cr Tests.kicking).homeCluster (Tests.th Tests.kicking)) Tests.record = none) ∧
    Tests.kicking.mcastSaved (Tests.cr Tests.kicking) 0 (recMcast Tests.record) = false ∧
    Tests.kicking.kickRoom (Tests.kicking.copyOf 0 (Tests.cr Tests.kicking) 0 Tests.record) = true ∧
    (Tests.kicking.copyOf 0 (Tests.cr Tests.kicking) 0 Tests.record).dests = [0] ∧
    (Tests.kicking.copyOf 0 (Tests.cr Tests.kicking) 0 Tests.record).latch = some 1024 ∧
    Tests.kicking.armOverflows 0 1024 64 = false ∧ ((Tests.cr Tests.kicking).latch 1024).malformed = false ∧
    (Tests.cr Tests.kicking).latchPoisoned 1024 = false := by
  unfold Tests.soloAt State.Clear State.Solo State.FirstIssue; decide

/-- A copy in flight of that shape, with its latch or without one, with one element left and with two. -/
def Tests.inFlight (fill : Bool) (latch : Option Nat) (written : List Nat) : State :=
  { Tests.kicking with copies := [(0, { Tests.kicking.copyOf 0 (Tests.cr Tests.kicking) 0 Tests.record with
      latch := latch, fill := fill, written := written })] }
theorem witness_CopiesPerform : ∀ s ∈ [Tests.inFlight false none (List.range 15), Tests.inFlight true (some 1024) (List.range 14),
      Tests.inFlight false (some 240) (List.range 15)], ∀ c ∈ s.copies.map (·.2),
    Table.get? s.copies 0 = some c ∧ s.crew? c.crew = some (Tests.cr s) ∧ (Tests.cr s).killed = false ∧ 15 < c.shape.count ∧
      15 ∉ c.written ∧ (∀ e ∈ s.copies, e.2.stalled = none) ∧ addrForm c.dst = .sh 256 ∧ c.dests = [c.crew] ∧
      addrForm c.src = .sh 0 ∧ s.enginePoison (Tests.cr s) .sh 60 c.shape.esize = false ∧
      ((256 : Int) + c.shape.dstOff 15).toNat = 316 ∧ ((0 : Int) + c.shape.srcOff 15).toNat = 60 ∧
      (∀ l ∈ c.latch, l % 16 = 0 ∧ (l + 16 ≤ 316 ∨ 316 + c.shape.esize ≤ l) ∧ (Tests.cr s).latchPoisoned l = false ∧
        ((Tests.cr s).latch l).err = 0) ∧ s.drainOver 0 = false := by decide

theorem witness_ThreadsEnd_killed : (((Tests.inFlight false none []).flushed.killCrew 0 1 2 3).crew? 0).isSome = true := by decide

/-- A per-thread element with the bytes of its source, and one that has failed. -/
def Tests.element (data : Option (List Byte)) (failed : Option (Code × Nat)) : State :=
  { Tests.base with elems := [(0, { crew := 0, tid := 0, ctx := 0, die := 0, cluster := 0, tag := 7, dst := 0xF100000000000FE0
                                    src := 0, n := 2, data := data, failed := failed, xlate := none })] }
theorem witness_CopiesPerform_elements : ∀ s ∈ [Tests.element (some [1, 2]) none, Tests.element none (some (1, 2))], ∀ e ∈ s.elems.map (·.2),
    Table.get? s.elems 0 = some e ∧ s.crew? e.crew = some (Tests.cr s) ∧ Table.get? (Tests.cr s).threads e.tid = some (Tests.th s) ∧
      (Tests.cr s).killed = false ∧ e.xlate = none ∧ s.elemBehind 0 e = false ∧ addrForm e.dst = .sh 4064 ∧ s.drainOver 0 = false := by decide

/-- A page of device memory, a link, and v6:v7 an address in it. -/
def Tests.paged (s : State) : State :=
  { s with
    link := .cxl
    contexts := Table.adjust s.contexts 0 fun x => { x with
      pages := [{ base := 0, size := 65536, writable := true, hostVisible := true, home := 0, peer := 0, frame := 0 }] } }
theorem witness_FarAtomics : ∀ x ∈ [(1#1, 2, false), (0#1, 1, false), (1#1, 4, true), (0#1, 2, true)],
    ∀ s, s = Tests.paged (Tests.regs [(6, 65528), (7, 0)]) →
    Tests.soloAt s ∧ s.Clear { opnds := [lxSrc64 6], cls := PfxClass.predOnly, blocks := [(8, x.2.1)]
                               illegal := blockIllegal s.curBudget 8 x.2.1 false || decide ((8#7).toNat % x.2.1 ≠ 0) } ∧
      ((Tests.th s).read64 (BitVec.setWidth 7 3#5 <<< 1)).toNat = 65528 ∧ (Tests.th s).fifo = [] ∧
      s.mainFault (Tests.cr s).ctx 65528 8 true = none ∧ s.link ≠ .pcie := by
  intro x hx s hs; subst hs
  revert x
  unfold Tests.soloAt State.Clear State.Solo; decide
/-- An operation without an AtomicOp on a page of the host over PCIe; one on a page that a peer module homes. -/
theorem witness_FarAtomics_refused : ∀ s ∈ [{ Tests.regs [(6, 65528), (7, 0)] with link := .pcie, hostPages := [(0, [(0, { writable := true })])] }],
    Tests.soloAt s ∧ s.Clear { opnds := [lxSrc64 6], cls := PfxClass.predOnly, blocks := [(8, 2)]
                               illegal := blockIllegal s.curBudget 8 2 false || decide ((8#7).toNat % 2 ≠ 0) } ∧
      (Tests.th s).fifo = [] ∧ s.mainFault 0 65528 8 true = none ∧ s.translate 0 65528 = .found (.host 0 65528) true ∧ s.link = .pcie ∧
      rowAssisted (s.dutyRow 0 3) = false := by
  unfold Tests.soloAt State.Clear State.Solo; decide
theorem witness_FarAtomics_peer : ∀ s ∈ [{ Tests.regs [(6, 65528), (7, 0)] with
      link := .cxl
      contexts := Table.adjust Tests.base.contexts 0 fun x => { x with
        pages := [{ base := 0, size := 65536, writable := true, hostVisible := true, home := 2, peer := 9, frame := 0 }] } }],
    s.mainFault 0 65528 8 true = none ∧ s.translate 0 65528 = .found (.peer 9 65528) true := by decide
theorem witness_FarAtomics_form : Tests.soloAt (Tests.regs [(6, 0), (7, 0x02000000)]) ∧
    2 ^ 57 ≤ ((Tests.th (Tests.regs [(6, 0), (7, 0x02000000)])).read64 6).toNat := by
  unfold Tests.soloAt State.Solo; decide

/-- A request in flight, its thread parked: to device memory over CXL, and to a page of the host over PCIe. -/
def Tests.asked (wide : Bool) (s : State) : State :=
  { s.modThread 0 0 (fun th => { th with wait := some (.far 0) }) with
    fars := [(0, { crew := 0, tid := 0, ctx := 0, die := 0, cluster := 0, addr := 65528, op := .cas, wide := wide, x := 1, cmp := 0
                   dest := if wide then [8, 9] else [8], la := 3, stage := .sent, group := 0, restart := false, xlate := none })] }
def Tests.hosted : State := { Tests.base with link := .pcie, hostPages := [(0, [(0, { writable := true })])] }
theorem witness_FarAtomics_response : ∀ w ∈ [true, false], ∀ s, s = Tests.asked w (Tests.paged Tests.base) → ∀ r ∈ s.fars.map (·.2),
    Table.get? s.fars 0 = some r ∧ s.crew? r.crew = some (Tests.cr s) ∧ Table.get? (Tests.cr s).threads r.tid = some (Tests.th s) ∧
      (Tests.th s).wait = some (.far 0) ∧ s.byAtomicOp r = false ∧ s.farBehind r = false ∧ (Tests.cr s).killed = false ∧ r.restart = false ∧ r.stage = .sent ∧
      s.mainFault r.ctx r.addr (if w then 8 else 4) true = none ∧ s.mainPoisoned r.ctx r.addr (if w then 8 else 4) = false := by
  intro w hw s hs; subst hs
  revert w; decide
theorem witness_FarAtomics_unsupported : ∀ s ∈ [Tests.asked true Tests.hosted], ∀ r ∈ s.fars.map (·.2),
    s.byAtomicOp r = true ∧ rowAssisted (s.dutyRow r.ctx 3) = false ∧ s.farBehind r = false ∧ s.hostAtomics = true ∧
      s.mainFault r.ctx r.addr 8 true = none ∧ s.mainPoisoned r.ctx r.addr 8 = false ∧ (Tests.cr s).handler = none ∧
      (Tests.cr s).killed = false := by decide

/-- A translation request before and after its page response, at and before its deadline. -/
def Tests.translating (retried : Bool) (deadline : Nat) (s : State) : State :=
  { s with xlates := [(0, { ctx := 0, page := 0, kind := 0, call := none, deadline := deadline, retried := retried, tid := none
                            queues := [], unresolved := false })] }
theorem witness_TranslationRequests : ∀ b ∈ [true, false], ∀ d ∈ [0, 1], ∀ s, s = Tests.translating b d Tests.hosted → ∀ r ∈ s.xlates.map (·.2),
    Table.get? s.xlates 0 = some r ∧ r.retried = b ∧ r.call = none ∧ (r.deadline ≤ s.now ↔ d = 0) ∧ r.queues = [] ∧
      s.translate r.ctx r.page = .found (.host (s.pasid r.ctx) r.page) true ∧
      s.hostPage? (s.pasid r.ctx) (r.page / 65536) = some { writable := true } ∧ Table.wf s.fars = true ∧
      (∀ e ∈ s.fars, e.2.xlate ≠ some 0) ∧ ∀ e ∈ s.fars, e.2.stage ≠ .sent := by
  intro b hb d hd s hs; subst hs
  revert b d; decide
/-- A far atomic alone, an element alone and a copy alone that have joined the request. -/
def Tests.farJoined : State :=
  Tests.translating false 1 { Tests.asked true Tests.hosted with
    fars := (Tests.asked true Tests.hosted).fars.map fun e => (e.1, { e.2 with stage := .unsent, xlate := some 0 }) }
def Tests.elemJoined : State :=
  Tests.translating true 1 { Tests.hosted with elems := (Tests.element none none).elems.map fun e => (e.1, { e.2 with xlate := some 0 }) }
def Tests.copyJoined : State :=
  Tests.translating true 1 { Tests.kicking with
    link := .pcie
    hostPages := [(0, [(0, { writable := true })])]
    copies := (Tests.inFlight false (some 1024) []).copies.map fun e => (e.1, { e.2 with stalled := some (0, 0) }) }
theorem witness_TranslationRequests_far : Tests.farJoined.OnlyJoined 0 [0] [] [] ∧
    (∀ f ∈ Tests.farJoined.fars.map (·.2), Table.get? Tests.farJoined.fars 0 = some f ∧ Tests.farJoined.thread? f.crew f.tid = some (Tests.th Tests.farJoined) ∧
      Tests.farJoined.mainFault f.ctx f.addr f.width true = none ∧ f.op.hasAtomicOp = true) ∧
    (Tests.th Tests.farJoined).wait = some (.far 0) := by
  refine ⟨⟨by decide, by decide, by decide, by decide, by decide, fun _ h => absurd h List.not_mem_nil, by decide, by decide, ?_⟩, by decide, by decide⟩
  intro c hc; exact ⟨by revert c; decide, by revert c; decide⟩
theorem witness_TranslationRequests_elem : Tests.elemJoined.OnlyJoined 0 [] [0] [] ∧
    (∀ e ∈ Tests.elemJoined.elems.map (·.2), Table.get? Tests.elemJoined.elems 0 = some e ∧ Tests.elemJoined.crew? e.crew = some (Tests.cr Tests.elemJoined) ∧
      (Tests.cr Tests.elemJoined).killed = false ∧ Table.get? (Tests.cr Tests.elemJoined).threads e.tid = some (Tests.th Tests.elemJoined)) ∧
    ∀ y ∈ Tests.elemJoined.crews, ∀ x ∈ y.2.threads, x.2.wait = none := by
  refine ⟨⟨by decide, by decide, by decide, by decide, by decide, fun _ h => absurd h List.not_mem_nil, by decide, by decide, ?_⟩, by decide, by decide⟩
  intro c hc; exact ⟨by revert c; decide, by revert c; decide⟩
theorem witness_TranslationRequests_copy : Tests.copyJoined.OnlyJoined 0 [] [] [0] ∧
    (∀ c ∈ Tests.copyJoined.copies.map (·.2), Table.get? Tests.copyJoined.copies 0 = some c ∧ c.stalled = some (0, 0) ∧
      Tests.copyJoined.crew? c.crew = some (Tests.cr Tests.copyJoined) ∧ (Tests.cr Tests.copyJoined).killed = false ∧
      rowAssisted (Tests.copyJoined.dutyRow (Tests.cr Tests.copyJoined).ctx 5) = false ∧
      (Table.get? Tests.copyJoined.contexts (Tests.cr Tests.copyJoined).ctx).isSome = true ∧ c.latch = some 1024 ∧ c.dests = [c.crew] ∧
      (Tests.cr Tests.copyJoined).latchPoisoned 1024 = false) ∧
    ∀ y ∈ Tests.copyJoined.crews, ∀ x ∈ y.2.threads, x.2.wait = none := by
  refine ⟨⟨by decide, by decide, by decide, by decide, by decide, ?_, by decide, by decide, ?_⟩, by decide, by decide⟩
  · intro e he
    have : e = (0, { (Tests.kicking.copyOf 0 (Tests.cr Tests.kicking) 0 Tests.record) with
      latch := some 1024, fill := false, written := [], stalled := some (0, 0) }) := by exact List.mem_singleton.1 he
    subst this; exact ⟨fun _ => List.mem_singleton.2 rfl, fun _ => ⟨0, rfl⟩⟩
  · intro c hc; exact ⟨by revert c; decide, by revert c; decide⟩

/-! ## Hypotheses that states meet: the matrix units -/

/-- A lease of the crew's role: eight tiles, or four of f64, with one operation of quota left; and a reservation of the whole
buffer for ob2 whose record names a format. -/
def Tests.lease (f64 : Bool) (claim : Option Claim) : Lease :=
  { crew := 0, role := 0, half := 0, f64 := f64, tiles := if f64 then 4 else 8, slots := List.range 8, quota := 1, qleft := 1, acc := []
    accPoison := [], claim := claim, kept := none }
def Tests.reserved (fmt : Nat) : Reservation := { crew := 0, handle := 2, record := fmt + 1024 * 2 ^ 16, bytes := [], poison := [] }
def Tests.unit (f64 : Bool) (claim : Option Claim) (queue : List MxOp) : MatrixUnit :=
  { frozen := false, leases := [(7, Tests.lease f64 claim)], reservations := [(31, Tests.reserved (if f64 then 0 else 1))]
    queue := queue, holder := some 7 }
def Tests.mx (rs : List (Nat × Word)) (u : MatrixUnit) : State :=
  (Tests.tumbled [0] []).modUnit 0 0 3 (fun _ => u) |>.modThread 0 0 fun th =>
    { th with regs := rs.foldl (fun m r => Sparse.set 0#32 m r.1 r.2) [] }

theorem witness_MatrixForms : Tests.soloAt Tests.base ∧ (Tests.th Tests.base).mxPoison = none ∧
    Tests.base.roleLease 0 Tests.crew0 0 = none ∧
    Tests.base.Clear { opnds := [], illegal := Tests.base.baseIllegal 116, cls := PfxClass.predOnly } ∧
    Tests.base.baseIllegal 0x78 = true := by
  unfold Tests.soloAt State.Clear State.Solo; decide
theorem witness_MatrixForms_mma : ∀ b ∈ [true, false], ∀ x ∈ (Tests.mx [] (Tests.unit b none [])).roleLease 0 (Tests.cr (Tests.tumbled [0] [])) 0,
    ∀ r ∈ (Tests.mx [] (Tests.unit b none [])).reservation 0 (Tests.cr (Tests.tumbled [0] [])) 2,
      Table.get? ((Tests.mx [] (Tests.unit b none [])).unit 0 x.cluster x.unit).leases x.slot = some x.lease ∧
      bitsOf r.res.record 3 0 = (if b then 0 else 1) ∧ (3#3).toNat < x.lease.tiles ∧ (r.cluster, r.unit) = (x.cluster, x.unit) ∧
      x.lease.f64 = b ∧ blockIllegal Tests.base.curBudget 116 4 b = false ∧ x.lease.claim = none ∧ x.lease.kept = none ∧
      (Tests.mx [] (Tests.unit b none [])).claimedElsewhere 0 (Tests.cr (Tests.tumbled [0] [])) 0 15 0xFFFFFFFF = false := by decide
theorem witness_MatrixForms_found : ∀ b ∈ [true, false], Tests.soloAt (Tests.mx [] (Tests.unit b none [])) ∧
    ((Tests.mx [] (Tests.unit b none [])).roleLease 0 (Tests.cr (Tests.tumbled [0] [])) 0).isSome = true ∧
    ((Tests.mx [] (Tests.unit b none [])).reservation 0 (Tests.cr (Tests.tumbled [0] [])) 2).isSome = true ∧
    0 ∈ ((Tests.cr (Tests.tumbled [0] [])).tumbler 15).declared ∧ 0 ∉ ((Tests.cr (Tests.tumbled [0] [])).tumbler 15).signed ∧
    (Tests.th (Tests.mx [] (Tests.unit b none []))).poison = [] ∧ (Tests.th (Tests.mx [] (Tests.unit b none []))).fifo = [] := by
  unfold Tests.soloAt State.Solo; decide
/-- A request for eight tiles of any unit, and the last word of shared memory a reservation record of the whole buffer. -/
def Tests.requests : State :=
  (Tests.regs [(5, 0x804), (6, 4064)]).modCrew 0 fun c => { c with shared := Mem.writeBytes [] 4064 (leBytes (1 + 1024 * 2 ^ 16) 32) }
theorem witness_MatrixForms_lease : Tests.soloAt Tests.requests ∧ Tests.requests.Clear (lx [lxDst32 8, lxSrc32 5] false) ∧
    leaseBad (Tests.cr Tests.requests).pair ((Tests.th Tests.requests).read32 5).toNat = false ∧ (Tests.th Tests.requests).wait = none ∧
    Tests.requests.roleLease 0 (Tests.cr Tests.requests) 0 = none ∧
    Tests.requests.leaseUnit 0 0 Tests.requests.nextSeq (viewLease ((Tests.th Tests.requests).read32 5).toNat) = some 0 ∧
    Tests.requests.Clear (lx [lxSrc32 6] false) ∧
    Tests.requests.spacePoison (Tests.cr Tests.requests) (Tests.th Tests.requests) .sh 4064 32 false = none ∧
    leNat (Mem.readBytes (Tests.cr Tests.requests).shared 4064 32) = 1 + 1024 * 2 ^ 16 ∧ resBad false (1 + 1024 * 2 ^ 16) = none ∧
    Tests.requests.reservation 0 (Tests.cr Tests.requests) 15 = none ∧ (Tests.requests.unit 0 0 0).freeRes ≠ [] ∧
    (Tests.requests.unit 0 0 0).granules + 1024 ≤ 1024 := by
  unfold Tests.soloAt State.Clear State.Solo; decide
/-- The forms that use a lease and a reservation: the last 64 bytes of shared memory to the last of the buffer, the last
chunk of the last row of the last tile. -/
def Tests.used (queue : List MxOp) : State := Tests.mx [(4, 4032), (5, 262080), (6, 0x1CFF)] (Tests.unit false none queue)
theorem witness_MatrixForms_use : Tests.soloAt (Tests.used []) ∧ (Tests.used []).Clear (lx [] false) ∧ (Tests.used []).Clear (lx [lxSrc64 4] false) ∧
    (Tests.used []).Clear (lx [lxSrc32 6] ((Tests.used []).baseIllegal 104)) ∧
    (Tests.used []).handleClaimed 0 (Tests.cr (Tests.used [])) 2 = false ∧ ((Tests.used []).unit 0 0 3).busySlot 7 = false ∧
    (lo32 ((Tests.th (Tests.used [])).read64 4)).toNat + 64 ≤ (Tests.cr (Tests.used [])).sharedSize ∧
    (hi32 ((Tests.th (Tests.used [])).read64 4)).toNat + 64 ≤ 256 * 1024 ∧
    (Tests.used []).spacePoison (Tests.cr (Tests.used [])) (Tests.th (Tests.used [])) .sh 4032 64 false = none ∧
    ((Tests.th (Tests.used [])).read32 6).extractLsb' 10 3 = 7#3 ∧ ((Tests.th (Tests.used [])).read32 6).extractLsb' 16 16 = 0#16 ∧
    (((Tests.th (Tests.used [])).read32 6).extractLsb' 6 4).toNat < 4 ∧ ((Tests.th (Tests.used [])).read32 6).extractLsb' 13 3 = 0#3 ∧
    blockIllegal (Tests.used []).curBudget 104 16 false = false := by
  unfold Tests.soloAt State.Clear State.Solo; decide
/-- An operation of the lease on its last tile in flight: acc.wait parks, and acc.rd of another tile does not. -/
def Tests.op : MxOp := { slot := 7, crew := 0, role := 0, tile := 6, ob := 2, zero := true, rows := [(0, [1, 2, 3, 4])], op := 1 }
theorem witness_MatrixForms_flight : ∀ x ∈ (Tests.used [Tests.op]).roleLease 0 (Tests.cr (Tests.used [Tests.op])) 0,
    (Tests.used [Tests.op]).tileBusy (Tests.cr (Tests.used [Tests.op])) x 0x1CFF = none ∧
      (Tests.used [Tests.op]).tileBusy (Tests.cr (Tests.used [Tests.op])) x (6 * 1024) = some 1 := by decide

/-- The same unit frozen, and a thread of the system role with a save area that holds the header of a lease image of one
tile, or of a reservation image, in which the unit is empty. -/
def Tests.system (frozen empty : Bool) (role header : Nat) : State :=
  ((Tests.mx [(5, 64)] { Tests.unit false none [] with
      frozen := frozen
      leases := if empty then [] else [(7, Tests.lease false none)]
      reservations := if empty then [] else [(31, Tests.reserved 1)] }).modCrew 0 fun c => { c with
        saveArea := { size := 524288, bytes := Mem.writeBytes [] 64 (leBytes header 64), lines := [], poison := [] } }).modThread 0 0
    fun th => { th with role := role }
def Tests.leaseHeader : Nat := 1 + 1 * 2 ^ 8
def Tests.resHeader : Nat := 1 + 2 * 2 ^ 8 + (1 + 16 * 2 ^ 16) * 2 ^ 256
theorem witness_MatrixSystemForms : ∀ x ∈ [(true, 8), (false, 8), (true, 0)], Tests.soloAt (Tests.system x.1 false x.2 0) ∧
    (Tests.th (Tests.system x.1 false x.2 0)).mxPoison = none ∧ (Tests.th (Tests.system x.1 false x.2 0)).role = x.2 ∧
    (Tests.system x.1 false x.2 0).Clear (lx [] false) ∧ (Tests.system x.1 false x.2 0).Clear (lx [lxSrc32 5] false) ∧
    ((Tests.system x.1 false x.2 0).unit 0 0 3).frozen = x.1 ∧ ((Tests.th (Tests.system x.1 false x.2 0)).read32 5).toNat % 64 = 0 ∧
    Table.get? ((Tests.system x.1 false x.2 0).unit 0 0 3).leases 7 = some (Tests.lease false none) ∧
    Table.get? ((Tests.system x.1 false x.2 0).unit 0 0 3).reservations 31 = some (Tests.reserved 1) := by
  unfold Tests.soloAt State.Clear State.Solo; decide
theorem witness_MatrixSystemForms_fill : Tests.leaseHeader.testBit 0 = true ∧ leaseHeaderBad Tests.leaseHeader = none ∧
    64 + leaseImageLen Tests.leaseHeader ≤ 524288 ∧
    Mem.readNat (Tests.cr (Tests.system true true 8 Tests.leaseHeader)).saveArea.bytes 64 64 = Tests.leaseHeader ∧
    (((Tests.system true true 8 Tests.leaseHeader).unit 0 0 3).tileSlots false).length = 8 ∧
    (((Tests.system true true 8 Tests.leaseHeader).unit 0 0 3).tileSlots true).length = 8 ∧
    Table.get? ((Tests.system true true 8 Tests.leaseHeader).unit 0 0 3).leases 7 = none ∧
    Tests.resHeader.testBit 0 = true ∧ 64 + resImageLen Tests.resHeader ≤ 524288 ∧
    Mem.readNat (Tests.cr (Tests.system true true 8 Tests.resHeader)).saveArea.bytes 64 64 = Tests.resHeader ∧
    (Tests.system true true 8 Tests.resHeader).resRefused
      { cr := Tests.cr (Tests.system true true 8 Tests.resHeader), cluster := 0, mu := (Tests.system true true 8 Tests.resHeader).unit 0 0 3, off := 64 }
      31 = none := by decide

theorem Tests.bytes_of_words (k n : Nat) (f : Nat → List Byte) (h : ∀ x, (f x).length = k) :
    ((List.range n).flatMap f).length = n * k := by
  rw [List.length_flatMap]
  simp only [h, List.map_const', List.sum_replicate, List.length_range, smul_eq_mul]
/-- The images of the lease and of the reservation fit into the save area; the images of an f64 lease whose claim has turned
and of one that keeps its A operand are acceptable. -/
theorem witness_MatrixSystemForms_drain : ∀ n m, 64 + ((Tests.lease false none).image n m).length ≤ 524288 ∧
    64 + ((Tests.reserved 1).image n).length ≤ 524288 := by
  intro n m
  have h : ∀ l : Lease, l.kept = none → l.claim = none → l.f64 = false → (l.image n m).length = 64 + l.tiles * 4096 * 4 := by
    intro l a b c
    rw [Lease.image, List.length_append, List.length_append, leBytes_length, a, b, c, if_neg (by decide), if_neg (by decide),
      Tests.bytes_of_words 4 _ _ fun _ => leBytes_length _ 4]
    rfl
  constructor
  · rw [h _ rfl rfl rfl]; decide
  · rw [Reservation.image, List.length_append, leBytes_length, Mem.readBytes_length]
    decide
theorem witness_MatrixSystemForms_claims : ∀ h ∈ [1 + 2 + 16 + 4 * 2 ^ 8, 1 + 4 + 8 * 2 ^ 8, 1 + 8 + 8 * 2 ^ 8 + 7 * 2 ^ 160],
    h.testBit 0 = true ∧ leaseHeaderBad h = none ∧ 64 + leaseImageLen h ≤ 524288 ∧
      bitsOf h 11 8 * (if h.testBit 1 then 2 else 1) ≤ 8 := by decide

/-- A claim whose generation has turned, with three operations waiting; and the oldest operation of a unit. -/
def Tests.claim (keep : Bool) : Claim :=
  { acc := 7, ob := 2, tb := 15, gen := 0, keep := keep, zero := false, rows := [(0, [1, 2, 3, 4])], turned := true }
theorem witness_MatrixUnits : ∀ b ∈ [true, false], ∀ x, x = (Tests.mx [] (Tests.unit false (some (Tests.claim b)) (List.replicate 3 Tests.op))).unit 0 0 3 →
    x.holder = some 7 ∧ Table.get? x.leases 7 = some (Tests.lease false (some (Tests.claim b))) ∧ (Tests.claim b).turned = true ∧
      (Tests.lease false (some (Tests.claim b))).qleft ≠ 0 ∧ x.frozen = false ∧ x.queue.length < 4 ∧
      x.reservations.find? (fun e => e.2.crew = 0 && e.2.handle = 2) = some (31, Tests.reserved 1) ∧ (Tests.reserved 1).poison = [] ∧
      (Tests.lease false (some (Tests.claim b))).accPoison = [] ∧ ((Tests.mx [] x).crew? 0).isSome = true := by
  intro b hb x hx; subst hx
  revert b; decide

/-! ## Hypotheses that states meet: iterators and queues -/

/-- A launch window with bytes at an offset of it. -/
def Tests.withWin (at0 : Nat) (v n : Nat) (s : State) : State :=
  s.modLaunch 0 fun l => { l with win0 := l.win0.map fun w => { w with bytes := Mem.writeBytes w.bytes at0 (leBytes v n) } }

/-- A RANGE record from 0 to 10 by 1, a LIST record of four elements in shared memory, one of the launch window's queue, and a
MAP record that keeps each element. -/
def Tests.rangeRec : Nat := 1 + 10 * 2 ^ 64 + 2 ^ 96
def Tests.listRec : Nat := 2 + 0xF100000000000100 * 2 ^ 32 + 4 * 2 ^ 96
def Tests.queueRec : Nat := 4 + 0x80000000 * 2 ^ 32 + 2 ^ 64
def Tests.mapRec : Nat := 8

/-- A queue at the start of the launch window with a ring of eight, and a segment of eight at 4,096 of main memory. -/
def Tests.queueHeader (count scount head : Nat) : Nat := 8 + head * 2 ^ 32 + count * 2 ^ 64 + 4096 * 2 ^ 128 + 8 * 2 ^ 192 + scount * 2 ^ 256
def Tests.queued (count scount head : Nat) : State :=
  Tests.withWin 0 (Tests.queueHeader count scount head) 64 (Tests.paged (Tests.regs [(4, 0x80000000)]))

/-- A stack it7 of stages. -/
def Tests.stacked (stages : List Stage) (pend : List Elem) (ended failed : Bool) : State :=
  (Tests.queued 0 0 0).modCrew 0 fun c => c.putStack 7
    { stages := stages, ended := ended, failed := failed, fcode := 0x0301, pend := pend, deliv := 0, pull := none, flight := none }
/-- The same crew with a record in the last 64 bytes of shared memory, which v5 names. -/
def Tests.pushing (s : State) (r : Nat) : State :=
  (s.modCrew 0 fun c => { c with shared := Mem.writeBytes [] 4032 (leBytes r 64) }).modThread 0 0 fun th =>
    { th with regs := [(4, 0x80000000), (5, 4032)] }
theorem witness_Iterators_push : ∀ x ∈ [(Tests.queued 0 0 0, 1, Tests.rangeRec), (Tests.queued 0 0 0, 2, Tests.listRec), (Tests.queued 0 0 0, 4, Tests.queueRec),
      (Tests.stacked [pushedStage Tests.rangeRec false] [] false false, 8, Tests.mapRec)], ∀ s ∈ [Tests.pushing x.1 x.2.2],
    Tests.soloAt s ∧ ((Tests.th s).read32 5).toNat = 4032 ∧ 4032 + 64 ≤ (Tests.cr s).sharedSize ∧
      s.spacePoison (Tests.cr s) (Tests.th s) .sh 4032 64 false = none ∧
      leNat (forwardedBytes [] .sh 4032 (Mem.readBytes (Tests.cr s).shared 4032 64)) = x.2.2 ∧ s.Clear (lx [lxSrc32 5] false) ∧
      (((Tests.cr s).stack? 7).bind (·.pull)).isNone = true ∧ pushReason ((Tests.cr s).stack? 7) x.2.1 x.2.2 = none ∧
      s.tableBad (Tests.cr s) x.2.2 = none ∧ (x.2.1 = 4 → s.noQueue (Tests.cr s) (bitsOf x.2.2 63 32) = false) ∧
      s.itSlots (Tests.cr s) < 64 ∧ (pushReason ((Tests.cr s).stack? 7) 3 x.2.2).isSome = true := by
  unfold Tests.soloAt State.Clear State.Solo; decide

/-- A stack that delivers a pending element, one that has ended, a RANGE before its last value, a failed stack, and none. -/
theorem witness_Iterators : ∀ s ∈ [Tests.stacked [pushedStage Tests.rangeRec false] [{ x := 5, y := 6, origin := none }] true false,
      Tests.stacked [pushedStage Tests.rangeRec false] [] true false,
      Tests.stacked [pushedStage (1 + 10 * 2 ^ 32 + 11 * 2 ^ 64 + 2 ^ 96) false] [] false false,
      Tests.stacked [pushedStage Tests.queueRec false] [] false true, Tests.queued 0 0 0],
    Tests.soloAt s ∧ s.Clear (lx [lxDst32 8, lxDst32 7] false) ∧ s.Clear (lx [] false) ∧ s.Clear (lx [lxDst64 8] false) ∧
      blockIllegal s.curBudget 8 2 false = false ∧ (Tests.th s).fifo = [] ∧ (Tests.th s).ended = false ∧
      (Tests.th s).pc = s.cur.pc ∧ 0 < (Tests.cr s).width ∧
      (((Tests.cr s).stack? 7).bind (·.pull)).isNone = true ∧ (((Tests.cr s).stack? 7).bind (·.flight)).isNone = true ∧ s.Clear (lx [lxSrc32 5] false) ∧ (Tests.th s).fifo.length < 8 := by
  unfold Tests.soloAt State.Clear State.Solo; decide
theorem witness_Iterators_range : ∀ y ∈ [pushedStage (1 + 10 * 2 ^ 32 + 11 * 2 ^ 64 + 2 ^ 96) false], y.done = false ∧ y.ready = false ∧ recKind y.record = 1 ∧
    (BitVec.ofNat 32 (bitsOf y.record 95 64)).toInt = 11 ∧ (BitVec.ofNat 32 (bitsOf y.record 127 96)).toInt = 1 ∧
    (BitVec.ofNat 32 (bitsOf y.record 159 128)).toInt = 10 := by decide
/-- A QUEUE stage with two records in its buffer, reserved in its queue, and a pull parked on the last element of a LIST. -/
def Tests.buffered : Stage := { pushedStage Tests.queueRec false with record := setBits Tests.queueRec 102 100 2, bufIds := [0, 1] }
theorem witness_Iterators_return : ∀ s ∈ [Tests.withWin 0 (8 + 2 * 2 ^ 96) 64 (Tests.queued 0 0 0)], recKind Tests.buffered.record = 4 ∧
    bitsOf Tests.buffered.record 63 32 = 0x80000000 ∧ s.noQueue (Tests.cr s) 0x80000000 = false ∧ stageBuf Tests.buffered.record ≠ [] ∧
    (stageBuf Tests.buffered.record).length ≤ (s.queue (Tests.cr s) 0x80000000).rsv ∧
    (stageBuf Tests.buffered.record).length ≤ (s.queue (Tests.cr s) 0x80000000).cap := by decide
def Tests.pulling : State :=
  ((Tests.queued 0 0 0).modCrew 0 fun c => c.putStack 7
    { stages := [{ pushedStage Tests.listRec false with record := setBits Tests.listRec 159 128 3 }], ended := false, failed := false, fcode := 0
      pend := [], deliv := 0
      pull := some { tids := [0], vd := 8, vn := 7, la := 0, budget := 1, taken := [], pause := none }, flight := none }).modThread 0 0 fun th =>
    { th with wait := some (.pull 7) }
theorem witness_Iterators_pull : ∀ st ∈ (Tests.cr Tests.pulling).stack? 7, ∀ p ∈ st.pull, ∀ y ∈ st.stages, Tests.pulling.crew? 0 = some (Tests.cr Tests.pulling) ∧
    p.tids = [0] ∧ p.taken = [] ∧ 0 < p.budget ∧ p.pause = none ∧ y.ready = false ∧ st.pend = [] ∧ st.ended = false ∧ y.done = false ∧ recKind y.record = 2 ∧
    st.w2 = false ∧ bitsOf y.record 159 128 < bitsOf y.record 127 96 ∧
    (addrForm (bitsOf y.record 95 32 + 4 * bitsOf y.record 159 128)).local? = some (.sh, 268) ∧
    Tests.pulling.enginePoison (Tests.cr Tests.pulling) .sh 268 4 = false := by decide
theorem witness_Iterators_pull_thread : (((Tests.cr Tests.pulling).stack? 7).bind (·.pull)).isSome = true ∧
    Table.get? (Tests.cr Tests.pulling).threads 0 = some (Tests.th Tests.pulling) := by decide

/-- A queue with room for one more, full with room in the segment, full with none, empty, and with records only in the
segment; the head at the last slot of the ring. -/
theorem witness_QueuesAndNodes : ∀ x ∈ [(7, 0, 7), (8, 7, 7), (8, 8, 0), (0, 0, 0), (0, 8, 3)], ∀ s ∈ [Tests.queued x.1 x.2.1 x.2.2],
    Tests.soloAt s ∧ ((Tests.th s).read32 4).toNat = 0x80000000 ∧ s.noQueue (Tests.cr s) 0x80000000 = false ∧
      s.spacePoison (Tests.cr s) (Tests.th s) .die 0x80000000 64 false = none ∧ (Tests.th s).fifo = [] ∧
      s.lineState (Tests.cr s) (Tests.th s) .die 0x80000000 = .ready ∧ s.Clear (lx [lxSrc32 4, lxSrc64 8] false) ∧
      s.Clear (lx [lxDst64 8, lxSrc32 4] false) ∧ s.popPoison 4 = none ∧
      ((s.queue (Tests.cr s) 0x80000000).count, (s.queue (Tests.cr s) 0x80000000).scount, (s.queue (Tests.cr s) 0x80000000).cap,
        (s.queue (Tests.cr s) 0x80000000).scap, (s.queue (Tests.cr s) 0x80000000).failed) = (x.1, x.2.1, 8, 8, false) ∧
      s.mainFault 0 (4096 + 8 * 7) 8 true = none := by
  unfold Tests.soloAt State.Clear State.Solo; decide
theorem witness_QueuesAndNodes_joined : ∀ s ∈ [Tests.queued 8 7 7], s.queueJoined 0 0 0x80000000 [4096 + 8 * 7] = false := by decide
theorem witness_QueuesAndNodes_ring : ∀ s ∈ [Tests.queued 7 0 7, Tests.queued 0 0 0], ∀ i ∈ [0, 6, 7],
    s.lineState (Tests.cr s) (Tests.th s) .die (ringSlot 0x80000000 i) = .ready := by decide
theorem witness_QueuesAndNodes_churn : ∀ s ∈ [Tests.queued 4 5 7], s.crewOn 0 0 = some (0, Tests.cr s) ∧
    (s.queue (Tests.cr s) 0x80000000).batch = 4 ∧ s.churnReady (Tests.cr s) 0x80000000 4 = true ∧
    s.crew? 0 = some (Tests.cr s) ∧ s.noQueue (Tests.cr s) 0x80000000 = false ∧
    (s.queue (Tests.cr s) 0x80000000).failed = false ∧ rowAssisted (s.dutyRow 0 2) = false ∧ s.calls = [] ∧
    s.queueJoined 0 0 0x80000000 ((List.range 4).map fun j => spillSlot (s.queue (Tests.cr s) 0x80000000) j) = false ∧
    ∀ j < 4, s.mainFault 0 (spillSlot (s.queue (Tests.cr s) 0x80000000) j) 8 false = none ∧
      s.mainPoisoned 0 (spillSlot (s.queue (Tests.cr s) 0x80000000) j) 8 = false := by decide

/-- A launch record of one crew in main memory, and a node at 2,048 of the launch window over the queue at its start. -/
def Tests.launchRec : Nat := 2 ^ 89 + 2 ^ 96 + 16 * 2 ^ 120 + 2 ^ 145 + 0xFFFFFFFF * 2 ^ 160 + 2 ^ 192
def Tests.noded (coal pend : Nat) : State :=
  let s := (Tests.withWin 2048 (8192 + 0x80000000 * 2 ^ 64 + coal * 2 ^ 96 + 2 ^ 112 + pend * 2 ^ 128) 64 (Tests.queued 7 0 7)).modThread 0 0 fun th =>
    { th with regs := [(4, 0x80000800)] }
  { s with devMem := Mem.writeBytes [] 8192 (leBytes Tests.launchRec 256) }
theorem witness_QueuesAndNodes_emit : ∀ s ∈ [Tests.noded 4096 0, Tests.noded 1 1], Tests.soloAt s ∧ ((Tests.th s).read32 4).toNat = 0x80000800 ∧
    0x80000800 + 64 ≤ launchBase + s.launchSize (Tests.cr s) ∧ s.emitPoison (Tests.cr s) (Tests.th s) 0x80000800 = none ∧
    (Tests.th s).fifo = [] ∧ s.lineState (Tests.cr s) (Tests.th s) .die 0x80000800 = .ready ∧
    nodeBad (leNat (s.readDie (Tests.cr s) 0x80000800 64)) = false ∧
    ((s.node (Tests.cr s) 0x80000800).tmpl, (s.node (Tests.cr s) 0x80000800).qoff) = (8192, 0x80000000) ∧
    s.mainFault 0 8192 256 false = none ∧ s.noQueue (Tests.cr s) 0x80000000 = false ∧
    (s.queue (Tests.cr s) 0x80000000).count < 8 ∧ (s.queue (Tests.cr s) 0x80000000).failed = false ∧
    s.mainPoisoned 0 8192 256 = false ∧ (s.queue (Tests.cr s) 0x80000000).scount = 0 ∧
    s.lineState (Tests.cr s) (Tests.th s) .die 0x80000000 = .ready ∧
    (∀ i < 8, s.lineState (Tests.cr s) (Tests.th s) .die (ringSlot 0x80000000 i) = .ready) ∧
    (s.node (Tests.cr s) 0x80000800).pend + 1 < 2 ^ 32 ∧ (Table.get? s.launches (Tests.cr s).launch).isSome = true ∧
    s.Clear (lx [lxSrc32 4, lxSrc64 8] false) := by
  unfold Tests.soloAt State.Solo State.Clear; decide
theorem witness_QueuesAndNodes_template : (Tests.noded 1 1).templateGood 0 Tests.launchRec = true ∧ (Tests.noded 1 1).templateGood 0 0 = false ∧
    leNat ((Tests.noded 1 1).readMain 0 8192 256) = Tests.launchRec := by decide
theorem witness_QueuesAndNodes_bad : nodeBad (leNat ((Tests.noded 0 0).readDie (Tests.cr (Tests.noded 0 0)) 0x80000800 64)) = true := by decide

/-! ## Hypotheses that states meet: host calls, collectives and gangs -/

/-- A worker of class 0, on a host thread or on attendant core 3; a call of the thread under tag 1. -/
def Tests.worker (core : Option Nat) (call : Option Nat) : Worker :=
  { ctx := 0, cls := 0, core := core, pail := 8192, tableAddr := 0, tableLen := 1, callPh := false, replyPh := false, call := call
    deleting := false, delSlot := none }
def Tests.call (reroute : Bool) (deadline : Nat) (held : List Nat) : Call :=
  { ctx := 0, tag := some 1, cls := 0, reroute := reroute, sys := false, func := 0, arg := 4, launch := 0, crew := 0, tid := 0, tick := 0
    duration := 1, deadline := deadline, data := [], origin := .thread 0 0, worker := held.head?, heldBy := held, pick := none, outcome := none
    op := 0, taken := false }
/-- A machine over CXL with a block of four registers that names class 0 and function w2[31:16], and with a worker or none. -/
def Tests.hosting (w0 w1 w2 w3 : Word) (ws : Table Worker) : State :=
  { Tests.paged (Tests.regs [(8, w0), (9, w1), (10, w2), (11, w3)]) with fns := [(0, { HostFn.fresh with workers := ws })] }
theorem witness_HostCallsAreRaised : ∀ s ∈ [Tests.hosting 0 0x01FFFFFF 0x0001001F 0xFFFF [(63, Tests.worker none none)], Tests.hosting 0 0x02000000 0 1 [],
      Tests.hosting 0 0 0x20 0 [], Tests.hosting 0 0 0 0x10000 []], Tests.soloAt s ∧
    s.Clear { opnds := [lxDst64 4], illegal := blockIllegal s.curBudget 8 4 true, cls := PfxClass.predOnly, blocks := [(8, 4)] } ∧
    (Tests.th s).callTag = none ∧ (Tests.th s).fifo = [] ∧ s.link ≠ .down ∧ s.usedTags.length < 65535 := by
  unfold Tests.soloAt State.Clear State.Solo; decide
theorem witness_HostCallsAreRaised_blocks :
    (0x0001001F#32).extractLsb' 5 11 = 0#11 ∧ (0xFFFF#32).extractLsb' 16 16 = 0#16 ∧ (0x20#32).extractLsb' 5 11 ≠ 0#11 ∧
      (0x10000#32).extractLsb' 16 16 ≠ 0#16 ∧ (pairOf 0 0x01FFFFFF).toNat < 2 ^ 57 ∧ 2 ^ 57 ≤ (pairOf 0 0x02000000).toNat ∧
      (Tests.hosting 0 0 0 0 []).workersOf 0 0 false = [] ∧
      (Tests.hosting 0 0 0 0 [(63, { Tests.worker none none with cls := 15 })]).workersOf 0 15 false ≠ [] := by decide
/-- The thread's call stands: queued for a worker, held by one, and parked for. -/
def Tests.calling (c : Call) (k : Worker) (s : State) : State :=
  { (s.modThread 0 0 fun th => { th with callTag := some 1, wait := some (.hostCall 0) }) with
    calls := [(0, c)]
    link := .pcie
    contexts := Table.adjust s.contexts 0 fun x => { x with classQueues := [(0, [0])] }
    fns := [(0, { HostFn.fresh with
      workers := [(5, k)], window := Mem.writeBytes [] 0x5280 (leBytes (1 + 2 ^ 32) 8), written := (List.range 64).map (0x5280 + ·) })] }
def Tests.calls : State := Tests.calling (Tests.call false 1050 []) (Tests.worker none none) (Tests.hosting 0 0 0 0 [])
theorem witness_HostCallsAreRaised_again : Tests.soloAt Tests.calls ∧ (Tests.th Tests.calls).callTag = some 1 ∧
    Table.get? Tests.calls.calls 0 = some (Tests.call false 1050 []) ∧
    (∀ x ∈ Tests.calls.calls, x.2.origin = .thread 0 0 → x.2.taken = false → x = (0, Tests.call false 1050 [])) := by
  unfold Tests.soloAt State.Solo; decide
theorem witness_HostCallsAreServed : ∀ k ∈ [Tests.worker none none, Tests.worker (some 3) none],
    ∀ s ∈ [Tests.calling (Tests.call false 1050 []) k (Tests.hosting 0 0 0 0 [])],
    ((Table.get? s.contexts 0).bind fun x => Table.get? x.classQueues 0) = some [0] ∧ Table.wf s.fns = true ∧
      Table.get? (s.fn 0).workers 5 = some k ∧ Table.wf (s.fn 0).workers = true ∧ s.serving (Tests.call false 1050 []) = [(0, 5, k)] ∧
      k.call = none ∧ (Tests.call false 1050 []).func < k.tableLen ∧ { Tests.worker (some 3) none with tableLen := 0 }.tableLen ≤ 0 ∧
      s.now < 1050 ∧ s.usedTags.length < 65535 ∧ (Tests.th s).wait = some (.hostCall 0) := by decide
theorem witness_HostCallsAreServed_reply : ∀ k ∈ [Tests.worker none (some 0)], ∀ t ∈ [some 1, some 2],
    ∀ s ∈ [Tests.calling { Tests.call false 1050 [5] with tag := t } k (Tests.hosting 0 0 0 0 [])],
    s.arrivedLine (s.fn 0) (0x5000 + 128 * 5) 16 = true ∧ s.windowNat 0 (0x5000 + 128 * 5) 128 = 1 + 2 ^ 32 ∧
      (BitVec.ofNat 64 (1 + 2 ^ 32)).getLsbD 32 ≠ k.replyPh ∧ k.call = some 0 ∧ rowAssisted (s.dutyRow k.ctx 5) = false ∧
      k.deleting = false ∧ Table.wf s.fns = true ∧ Table.wf (s.fn 0).workers = true ∧ s.now < 1050 ∧ s.thread? 0 0 = some (Tests.th s) ∧ (Tests.th s).wait = some (.hostCall 0) ∧
      (∀ x ∈ s.contexts, x.2.saved = []) ∧ (∀ y ∈ s.fns, ∀ z ∈ y.2.workers, z.2.call = some 0 → y.1 = 0 ∧ z.1 = 5) := by decide
/-- A deadline that passes, with and without REROUTE, when another worker of the class has not held the call. -/
theorem witness_HostCallsAreServed_deadline : ∀ r ∈ [true, false],
    ∀ s ∈ [Tests.calling (Tests.call r 0 [6]) (Tests.worker none none) (Tests.hosting 0 0 0 0 [])],
    (Tests.call r 0 [6]).deadline ≤ s.now ∧ Table.get? s.calls 0 = some (Tests.call r 0 [6]) ∧ s.heldByAll (Tests.call r 0 [6]) = false ∧
      s.tagless (Tests.call r 0 [6]) = false ∧ s.rerouting 0 = false ∧ rowAssisted (s.dutyRow 0 4) = false ∧ (Tests.th s).wait = some (.hostCall 0) ∧
      ∀ y ∈ s.fns, ∀ z ∈ y.2.workers, z.2.call = some 0 → z.2.deleting = false := by decide

/-- A group object of two ranks at 0 of the launch window, aborted or not; a block of four registers for rank 1. -/
def Tests.group (aborted : Nat) : Nat := 7 + 9 * 2 ^ 32 + 2 * 2 ^ 80 + aborted * 2 ^ 128
def Tests.grouped (aborted : Nat) (w2 : Word) (lo hi : Word) : State :=
  Tests.withWin 0 (Tests.group aborted) 64 ((Tests.regs [(5, 0x80000000), (8, lo), (9, hi), (10, w2), (11, 0xFF)]).modCrew 0 fun c =>
    { c with shared := Mem.writeBytes [] 4088 [1, 0, 0, 0] })
theorem witness_TransfersOfCollectives : ∀ x ∈ [(Tests.grouped 0 0x00010001 0 0xF1000000, ColKind.send), (Tests.grouped 0 0x003F0001 0 0xF1000000, .recv),
      (Tests.grouped 0 0x00015001 4032 0xF2000000, .red)], Tests.soloAt x.1 ∧ ((Tests.th x.1).read32 5).toNat = 0x80000000 ∧
    x.1.inBounds (Tests.cr x.1) .die 0x80000000 64 = true ∧ x.1.spacePoison (Tests.cr x.1) (Tests.th x.1) .die 0x80000000 64 false = none ∧
    (Tests.th x.1).fifo = [] ∧ (viewGroup (leNat (x.1.readDie (Tests.cr x.1) 0x80000000 64))).aborted = false ∧
    x.1.Clear { opnds := [lxSrc32 5], illegal := blockIllegal x.1.curBudget 8 4 true, cls := PfxClass.predOnly, blocks := [(8, 4)] } ∧
    ((Tests.cr x.1).latch 4080).malformed = false ∧ ((Tests.cr x.1).latch 4080).bytes + 64 * 63 < 2 ^ 48 ∧
    x.1.lineReady (Tests.cr x.1) 0x80000000 = true ∧ x.1.lineReady (Tests.cr x.1) (0x80000000 + 64 + 4) = true ∧
    colFormBad ((Tests.th x.1).colBlock 8) = none ∧ x.1.colBoundsBad (Tests.cr x.1) ((Tests.th x.1).colBlock 8) = none ∧
    colAlignBad ((Tests.th x.1).colBlock 8) = none ∧ (Tests.cr x.1).latchPoisoned 4080 = false ∧ 0 < ((Tests.th x.1).colBlock 8).len ∧ x.1.absentUnit (Tests.cr x.1) ((Tests.th x.1).colBlock 8) = none ∧
    x.1.colBad (Tests.cr x.1) (Tests.th x.1) x.2 0x80000000 ((Tests.th x.1).colBlock 8) = none ∧ x.1.peerPoison 5 8 = none ∧
    ∀ u < ((Tests.th x.1).colBlock 8).len, x.1.unitBad (Tests.cr x.1) ((Tests.th x.1).colBlock 8).buffer u = none := by
  unfold Tests.soloAt State.Clear State.Solo; decide
/-- An operation of two units in flight, its latch with 64 bytes to come and no arrival. -/
def Tests.colOp (kind : ColKind) : ColOp :=
  { crew := 0, ctx := 0, launch := 0, die := 0, group := 0x80000000, gid := 7, gen := 9, rank := 0, peer := 1, kind := kind, op := 0
    buffer := 0xF100000000000000, len := 2, latch := 4080, ordinal := 0, num := 1, module := 1, issued := 0
    timeout := 2000, units := [], late := none, closed := false }
def Tests.colFlight (kind : ColKind) : State :=
  { (Tests.grouped 0 0 0 0).modCrew 0 fun c => { c with shared := Mem.writeBytes [] 4080 (leBytes (latchNat (Tests.latch 64 0 false 0)) 16) } with
    colops := [(0, Tests.colOp kind)], now := 2099999 }
theorem witness_TransfersOfCollectives_units : ∀ k ∈ [ColKind.send, .recv, .red], ∀ s ∈ [Tests.colFlight k],
    Table.get? s.colops 0 = some (Tests.colOp k) ∧ s.crew? 0 = some (Tests.cr s) ∧ Table.wf (Tests.cr s).threads = true ∧
      s.objectCurrent (Tests.colOp k) = true ∧ s.generationOver (Tests.colOp k) = false ∧
      s.objectPoisoned 0 0 0x80000000 64 = false ∧ (Tests.cr s).killed = false ∧ (Tests.cr s).latchPoisoned 4080 = false ∧
      (∀ e ∈ s.colops, e = (0, Tests.colOp k)) ∧ (Tests.cr s).latch 4080 = Tests.latch 64 0 false 0 ∧
      (∀ e ∈ (Tests.cr s).threads, e.2.wait = none) ∧ addrForm ((Tests.colOp k).buffer + 64 * 1) = .sh 64 ∧
      s.unitBad (Tests.cr s) (Tests.colOp k).buffer 1 = none := by decide

/-- The three events that abort a generation, before any has and after one has. -/
theorem witness_AbortsOfGenerations : ∀ a ∈ [0, 1], ∀ s ∈ [{ Tests.grouped a 0 0 0 with colops := [(0, Tests.colOp .recv)], now := 2100000 }],
    Tests.soloAt s ∧ s.Clear (lx [lxSrc32 5] false) ∧ s.Clear (lx [lxDst64 8, lxSrc32 5] false) ∧
      (Table.get? s.launches 0).isSome = true ∧ Table.wf s.colops = true ∧
      (∀ c ∈ s.crews, ∀ y ∈ c.2.threads, y.2.wait = none) ∧ (∀ e ∈ s.colops, e.2.latch % 16 = 0) ∧
      (viewGroup (s.objectHeader 0 0 0x80000000)).aborted = (a = 1) ∧ (viewGroup (s.objectHeader 0 0 0x80000000)).bad = false ∧
      ((viewGroup (s.objectHeader 0 0 0x80000000)).gid, (viewGroup (s.objectHeader 0 0 0x80000000)).gen) = (7#32, 9#32) ∧
      (Tests.colOp .recv).issued + 1050 * (Tests.colOp .recv).timeout ≤ s.now ∧
      s.inBounds (Tests.cr s) .die 0x80000000 64 = true ∧ s.spacePoison (Tests.cr s) (Tests.th s) .die 0x80000000 64 false = none ∧
      s.lineReady (Tests.cr s) 0x80000000 = true ∧ s.lineState (Tests.cr s) (Tests.th s) .die 0x80000000 = .ready := by
  unfold Tests.soloAt State.Clear State.Solo; decide

theorem witness_AbortsOfGenerations_objects : ∀ a ∈ [0, 1], ∀ s ∈ [{ Tests.grouped a 0 0 0 with colops := [(0, Tests.colOp .recv)], now := 2100000 }],
    s.spacePoison (Tests.cr s) (Tests.th s) .die 0x80000000 64 true = none ∧ (Tests.th s).fifo = [] ∧ (Tests.cr s).killed = false ∧
      (∀ c ∈ s.crews, c.2.killed = false ∧ c.2.latchPoisoned 4080 = false) ∧ (∀ x ∈ s.launches, (x.2.win 0).size ≠ 0) ∧
      (∀ e ∈ s.colops, (e.2.launch, e.2.die, e.2.group) = (0, 0, 0x80000000)) ∧
      s.objectPoisoned 0 0 0x80000000 64 = false ∧ s.objectPoisoned 0 0 (0x80000000 + 64 + 4) 4 = false ∧
      (∀ e ∈ s.objectsOf 7 9, e = (0, 0, 0x80000000)) := by decide +kernel
/-- A generation that has aborted and ended every operation. -/
theorem witness_AbortsOfGenerations_again : ∀ s ∈ [{ Tests.grouped 1 0 0 0 with colops := [(0, { Tests.colOp .recv with closed := true })] }],
    (viewGroup (s.objectHeader 0 0 0x80000000)).aborted = true ∧ (∀ e ∈ s.objectsOf 7 9, e = (0, 0, 0x80000000)) ∧
      s.windowInImage 0 0 = false ∧ ∀ e ∈ s.colops, e.2.closed = true := by decide +kernel

/-- A gang of this module and module 1, whose launch is the crew's. -/
def Tests.gang (failed : Bool) (acks arrived : List Nat) : Gang :=
  { members := [0, 1], window := 0, launch := some 0, startedAt := 0, acks := acks, failed := failed, barGen := 0, arrived := arrived
    localArrived := [], passed := [] }
def Tests.ganged (g : Gang) (s : State) : State :=
  { s.modLaunch 0 fun l => { l with record := { l.record with kind := 2, gang := 3 } } with gangs := [(3, g)], now := 2100000 }
theorem witness_GangBarriers : ∀ g ∈ [Tests.gang false [1] [1], Tests.gang false [] [], Tests.gang true [] []],
    ∀ s ∈ [Tests.ganged g Tests.base, Tests.ganged g (Tests.two Tests.base)],
    s.gangs = [(3, g)] ∧ Tests.soloAt s ∧ s.Clear (lx [] false) ∧ (Tests.th s).pc = s.cur.pc ∧ (Tests.th s).ended = false ∧
      s.crewGang (Tests.cr s) = some (3, g) ∧ g.launch = some (Tests.cr s).launch ∧ g.passed = [] ∧ (Tests.th s).fifo = [] ∧
      s.module ∉ g.arrived ∧ s.savedCrews 0 = [] ∧
      (∀ l ∈ s.launches, l.2.cut = true ∨ l.2.started = l.2.record.ncrew) ∧ Table.wf s.crews = true ∧
      (∀ c ∈ s.crews, Table.wf c.2.threads = true) ∧ s.gangParked 0 = [] ∧ g.startedAt + 1050 * 2000 ≤ s.now := by
  unfold Tests.soloAt State.Clear State.Solo; decide
theorem witness_GangBarriers_remote : (1 : Nat) ∈ (Tests.gang false [] [0]).members ∧ (1 : Nat) ≠ (Tests.ganged (Tests.gang false [] [0]) Tests.base).module ∧
    (Tests.ganged (Tests.gang false [] [0]) Tests.base).module ∈ (Tests.gang false [] [0]).arrived ∧
    State.gangLate { Tests.ganged (Tests.gang false [] [0]) Tests.base with now := 2099999 } (Tests.gang false [] [0]) = false ∧
    Tests.base.crewGang Tests.crew0 = none := by decide

/-! ## Hypotheses that states meet: records, crews, saves, power, boot and the world -/

/-- A command record of context 0 with a tag and up to four operands, and the record taken from slot 255. -/
def Tests.cmd (op ctx p0 p1 p2 p3 : Nat) : BitVec 512 :=
  BitVec.ofNat 512 (op + ctx * 2 ^ 16 + 7 * 2 ^ 32 + p0 * 2 ^ 64 + p1 * 2 ^ 128 + p2 * 2 ^ 192 + p3 * 2 ^ 256)
def Tests.takenOf (r : BitVec 512) : Taken :=
  { slot := 255, record := r, seq := 255, started := false, sigOp := none, result := none, xlate := none, call := none
    staged := [], opened := false }
/-- The machine with that record taken, and the base state without its crew, or without its launch too. -/
def Tests.taking (u : Taken) (s : State) : State :=
  { s with link := .cxl, boot := .open, fns := [(0, { HostFn.fresh with taken := [u], pendingEntry := [255] })] }
def Tests.crewless (s : State) : State := { s with crews := [] }
def Tests.idle : State := { Tests.base with crews := [], launches := [] }

/-- A CTX_NEW record with a SEQ in the slot at an address. -/
def Tests.slotBytes (a seq : Nat) : Sparse Byte := Mem.writeBytes [] a ([1, 0, 0xFF, 0xFF] ++ List.replicate 59 0 ++ [BitVec.ofNat 8 seq])
/-- The slot at the cursor ready in each mode, with a lap that is not the cursor's, and with its entry pending. -/
def Tests.slotted (link : HostLink) (seq : Nat) (pending : List Nat) : State :=
  { Tests.base with
    link := link, boot := .open
    fns := [(15, { HostFn.fresh with
      cursor := 255, lap := 255, pendingEntry := pending, written := (List.range 64).map (64 * 255 + ·)
      window := Tests.slotBytes (64 * 255) seq, winbase := 65536 })]
    hostMem := [(hostPhys, Tests.slotBytes (65536 + 64 * 255) seq)] }
theorem witness_SlotsAndEntries : ∀ x ∈ [(HostLink.pcie, 255, []), (.cxl, 255, []), (.cxl, 254, []), (.cxl, 255, [255]), (.down, 255, [])],
    ((Tests.slotted x.1 x.2.1 x.2.2).slotReady 15 = true ↔ x = (.pcie, 255, []) ∨ x = (.cxl, 255, [])) ∧
      recordFormed (BitVec.ofNat 512 ((Tests.slotted x.1 x.2.1 x.2.2).windowNat 15 (64 * 255) 64)) = true := by decide +kernel
theorem witness_SlotsAndEntries_entry : ∀ u ∈ [{ Tests.takenOf (Tests.cmd 0x0E 0 4095 0 0 0) with result := some (0#16, 5#64), sigOp := some 1 },
      { Tests.takenOf (Tests.cmd 0x30E 0 0 0 0 0) with result := some (0x0401#16, 0#64) }], ∀ s ∈ [Tests.taking u Tests.base],
    s.taken? 0 255 = some u ∧ u.slot = 255 ∧ u.result.isSome = true ∧ u.seq < 256 ∧ s.link = .cxl ∧ (s.fn 0).before 255 = [] ∧
      s.savingFor 0 255 = false := by
  decide +kernel

/-- The records of a context, each with an operand at an end of its range; a device with no launch, and with one. -/
def Tests.readyIn (s : State) (u : Taken) (op : Nat) : Prop :=
  s.Ready 0 255 op u ∧ (Table.get? s.contexts u.ctx).any (fun x => x.fn = 0) = true
theorem witness_ContextRecords : ∀ x ∈ [(0x01, 0xFFFF, 0x1FFFFF, 0, 0), (0x02, 0, 0, 0, 0), (0x03, 0, 2 ^ 57 - 65536, 65536, 0xC),
      (0x03, 0, 1, 65536, 0), (0x03, 0, 0, 4194304, 0x21), (0x04, 0, 0, 65536, 0), (0x04, 0, 65536, 65536, 0), (0x04, 0, 1, 0, 0),
      (0x06, 0, 0, 0, 0), (0x06, 0, 1, 0, 0)],
    ∀ u ∈ [Tests.takenOf (Tests.cmd x.1 x.2.1 x.2.2.1 x.2.2.2.1 x.2.2.2.2 0)], ∀ s ∈ [Tests.taking u Tests.idle],
      s.Ready 0 255 x.1 u ∧ (x.1 ≠ 0x01 → Tests.readyIn s u x.1) ∧ s.contexts.length < 4096 ∧ s.launches = [] ∧ s.xlates = [] ∧
        s.fars = [] ∧ (∀ f ∈ s.fns, f.2.workers = []) := by
  unfold Tests.readyIn State.Ready; decide +kernel
theorem witness_ContextRecords_load : ∀ u ∈ [Tests.takenOf (Tests.cmd 0x05 0 0 65536 0 0)], ∀ s ∈ [Tests.taking u (Tests.paged Tests.idle)],
    Tests.readyIn s u 0x05 ∧ u.call = none ∧ (u.p 0, u.p 1) = (0, 65536) ∧ s.mainFault u.ctx 0 65536 false = none ∧
      s.mainPoison = [] ∧ rowAssisted (s.dutyRow u.ctx 1) = false := by
  unfold Tests.readyIn State.Ready; decide +kernel
theorem witness_ContextRecords_running : ∀ u ∈ [Tests.takenOf (Tests.cmd 0x02 0 0 0 0 0), Tests.takenOf (Tests.cmd 0x06 0 0 0 0 0)],
    ∀ s ∈ [Tests.taking u Tests.base], (Tests.readyIn s u 0x02 ∨ Tests.readyIn s u 0x06) ∧
      ∃ l ∈ s.launches, l.2.ctx = u.ctx ∧ l.2.record.code = u.p 0 := by
  unfold Tests.readyIn State.Ready; decide +kernel
/-- A LAUNCH record of tag 7 whose launch record passes its checks; one of queue 63 whose launch record is all zeros. -/
theorem witness_ContextRecords_launch : ∀ a ∈ [8192, 0], ∀ u ∈ [Tests.takenOf (Tests.cmd 0x07 0 a 63 0 0)],
    ∀ s ∈ [Tests.taking u (Tests.crewless (Tests.noded 1 1))], Tests.readyIn s u 0x07 ∧
      (∀ l ∈ s.launches, l.2.srLaunch.toNat ≠ (u.record.extractLsb' 32 16).toNat ∧ l.2.slot ≠ 255) ∧ u.p 0 + 256 ≤ 2 ^ 57 ∧
      s.mainFault u.ctx (u.p 0) 256 false = none ∧ s.mainPoisoned u.ctx (u.p 0) 256 = false ∧
      (s.launchBad u.ctx (leNat (s.readMain u.ctx (u.p 0) 256)) = none ↔ a = 8192) ∧
      (a = 8192 → (s.launchEntry u.ctx (parseLaunch (leNat (s.readMain u.ctx (u.p 0) 256)))).isSome = true) := by
  unfold Tests.readyIn State.Ready; decide +kernel

/-- A MAP for which device memory has no room, and an UNMAP of an address that is no main address. -/
theorem witness_ContextRecords_room : (∀ u ∈ [Tests.takenOf (Tests.cmd 0x03 0 0x200000 65536 0 0)], ∀ s ∈ [Tests.taking u { Tests.idle with
      contexts := Table.adjust Tests.idle.contexts 0 fun x => { x with pages := [{ base := 2 ^ 40, size := 384 * 2 ^ 30, writable := true, hostVisible := false, home := 0, peer := 0, frame := 0 }] } }],
      Tests.readyIn s u 0x03 ∧ s.fars = [] ∧ 384 * 2 ^ 30 < u.p 1 + (s.contexts.map fun c => ((c.2.pages.filter fun p => p.home = 0).map (·.size)).sum).sum) ∧
    ∀ u ∈ [Tests.takenOf (Tests.cmd 0x04 0 (2 ^ 57) 65536 0 0)], ∀ s ∈ [Tests.taking u Tests.idle], Tests.readyIn s u 0x04 ∧ 2 ^ 57 ≤ u.p 0 ∧
      u.p 0 % 65536 = 0 ∧ u.p 1 % 65536 = 0 ∧ u.p 1 ≠ 0 := by
  unfold Tests.readyIn State.Ready; decide +kernel

/-- The records of a function; a worker of another class, the row's worker missing, a counter reached and one not. -/
theorem witness_FunctionRecords : ∀ x ∈ [(0x08, 0, 0xF3F, 0, 0), (0x09, 0, 7, 2, 0), (0x09, 0, 7, 1, 0), (0x09, 0, 3, 2, 0), (0x09, 0, 1, 0xF1, 0),
      (0x09, 0, 6, 0xF0, 0), (0x0A, 0xFFFF, 15, 100 * 256 + 1, 0), (0x0A, 0xFFFF, 15, 99 * 256 + 1, 0), (0x0A, 0xFFFF, 0, 1000001 * 256 + 1, 0),
      (0x0D, 0, 4095, 0, 0), (0x0D, 0, 4095, 1, 0), (0x0E, 0, 4095, 0, 0), (0x0F, 0, 0x1F10, 0, 8192), (0x0F, 0, 0xF, 8192, 0), (0x10, 0, 63, 0, 0)],
    ∀ u ∈ [Tests.takenOf (Tests.cmd x.1 x.2.1 x.2.2.1 x.2.2.2.1 x.2.2.2.2 0)], ∀ s ∈ [Tests.taking u Tests.base],
      s.Ready 0 255 x.1 u ∧ (x.1 ≠ 0x0A → Tests.readyIn s u x.1) ∧ Table.get? (s.fn 0).workers 0 = none := by
  unfold Tests.readyIn State.Ready; decide +kernel
/-- A context of another function; a page that the host keeps for a mailbox; a worker of the context to delete. -/
theorem witness_FunctionRecords_others :
    (∀ u ∈ [Tests.takenOf (Tests.cmd 0x0E 0 0 0 0 0)], ∀ s ∈ [Tests.taking u { Tests.base with
        contexts := Table.adjust Tests.base.contexts 0 fun x => { x with fn := 1 } }],
      s.Ready 0 255 0x0E u ∧ ∀ y ∈ Table.get? s.contexts u.ctx, y.fn ≠ 0) ∧
    (∀ u ∈ [Tests.takenOf (Tests.cmd 0x0F 0 0xF 8192 0 0)], ∀ s ∈ [{ Tests.taking u Tests.hosted with link := .pcie }],
      s.Ready 0 255 0x0F u ∧ s.mainFault u.ctx 8192 128 true = none ∧ s.hostHomed u.ctx 8192 = true) ∧
    ∀ u ∈ [Tests.takenOf (Tests.cmd 0x10 0 63 0 0 0)], ∀ s ∈ [{ Tests.base with
        link := .cxl, boot := .open, fns := [(0, { HostFn.fresh with taken := [u], workers := [(63, Tests.worker none none)] })] }],
      s.Ready 0 255 0x10 u ∧ Table.get? (s.fn 0).workers 63 = some (Tests.worker none none) ∧
        (Tests.worker none none).ctx = u.ctx := by
  unfold State.Ready; decide +kernel

/-- The launch of the base state. -/
def Tests.launch0 : Launch :=
  { ctx := 0, fn := 0, slot := 0, hwChurn := [], groupTls := [], srLaunch := 0#64, record := loadedRecord, queue := 0, started := 1, sigOp := none, killed := none
    cut := false, failedGroups := [], win0 := none, win1 := none, nodes := [], hashRecord := none, lateAborts := [] }
/-- The last cluster of C-die 0 has passed its test. -/
def Tests.woken (s : State) : State := s.modCluster 0 95 fun k => { k with gated := false }
/-- A launch at the head of queue 63 with a crew to start, ready or under an early quota, and one of a higher priority beside it. -/
def Tests.starting (f : LaunchRecord → LaunchRecord) : State :=
  let s := (Tests.crewless Tests.base).modLaunch 0 fun l => { l with started := 0, queue := 63, record := f l.record }
  Tests.woken { s with contexts := Table.adjust s.contexts 0 fun x => { x with queues := [(63, [0])] } }
theorem witness_CrewsAndLaunches : ∀ f ∈ [id, fun r => { r with deps := [(4095, 1)], early := 1 }, fun r => { r with kind := 1, dies := 3, ncrew := 2 }],
    ∀ s ∈ [Tests.starting f], ∀ l ∈ s.launches.map (·.2), Table.get? s.launches 0 = some l ∧
      (s.launchReady l = true ∨ (l.record.kind = 0 ∧ l.started < l.record.early)) ∧
      (s.crewAt 0 l l.record l.started 0 95 []).any (fun p => s.roomFor p.2 (l.newWindow 0 p.1) && s.awake p.2 &&
        (s.placeNext 0 l p.1 p.2).restFits 0) = true ∧ s.inSlice l.ctx = true ∧
      s.hasTurn 0 l 0 = true ∧ homesOk l.record.pair [] = true ∧ s.partStarted (some 0) = false ∧ s.crews = [] := by decide +kernel
/-- A cooperative launch that has started one of its crews goes on although another queue has the turn. -/
theorem witness_CrewsAndLaunches_rest : ∀ l ∈ (Tests.starting fun r => { r with kind := 1, dies := 3, ncrew := 2 }).launches.map (·.2),
    ∀ l' ∈ [{ l with started := 1 }], ∀ s ∈ [{ Tests.starting id with
      launches := [(0, l')], contexts := Table.adjust (Tests.starting id).contexts 0 fun x => { x with queues := [(62, [1]), (63, [0])] } }],
      l'.partStarted = true ∧ s.candidate l' 0 = true ∧ s.mayStart 0 l' 0 = true := by decide +kernel
theorem witness_CrewsAndLaunches_wait : ∀ s ∈ [Tests.starting fun r => { r with deps := [(4095, 1)] }], ∀ l ∈ s.launches.map (·.2),
    s.launchReady l = false ∧ l.record.early = 0 ∧ (s.crewAt 0 l l.record 0 0 96 []).any (fun p => s.roomFor p.2 0) = false := by decide
theorem witness_CrewsAndLaunches_higher : ∀ s ∈ [{ Tests.starting id with
      launches := (Tests.starting id).launches ++ [(1, { Tests.launch0 with
        started := 0, record := { loadedRecord with prio := 3 } })]
      contexts := Table.adjust (Tests.starting id).contexts 0 fun x => { x with queues := [(0, [1]), (63, [0])] } }],
    ∃ h ∈ s.heads 0, s.candidate h.2.2 0 = true ∧ 0 < h.2.2.record.prio := by decide
/-- A node whose pending records reach COAL, or fall short of it with the flush time past. -/
theorem witness_CrewsAndLaunches_node : ∀ y ∈ [(1, 1), (4096, 1)], ∀ s ∈ [Tests.crewless ((Tests.noded y.1 y.2).modLaunch 0 fun l =>
      { l with nodes := [{ die := 0, off := 0x80000800, template := loadedRecord, ticks := [0] }] })], ∀ s' ∈ [Tests.woken { s with now := 2048 }],
    ∀ l ∈ s.launches.map (·.2), ∀ p ∈ l.nodeAt 0 0x80000800, Table.get? s.launches 0 = some l ∧ (p.2.pend, p.2.coal) = (y.2, y.1) ∧
      p.2.first + p.2.flush ≤ s'.tick ∧
      (s'.crewAt 0 l (successorRecord p.1.template p.2.qoff p.2.pend) p.2.launched 0 95 []).any (fun q => s'.roomFor q.2 0 && s'.awake q.2) = true ∧
      s'.partStarted none = false ∧ s'.sliceStands l.ctx = true ∧
      (s'.crewAt 0 l (successorRecord p.1.template p.2.qoff p.2.pend) p.2.launched 0 95 []).any (fun q => !s'.windowSaved q.2) = true ∧
      (∀ k ∈ p.1.ticks, k < 2 ^ 64) ∧
      s'.inSlice l.ctx = true ∧ l.cut = false ∧ p.2.launched + 1 < 2 ^ 32 ∧ p.1.template.args.length = 16 := by decide
theorem witness_CrewsAndLaunches_nodeAt : (((Tests.noded 1 1).modLaunch 0 fun l =>
    { l with nodes := [{ die := 0, off := 0x80000800, template := loadedRecord, ticks := [0] }] }).launches.map (·.2)).any (fun l =>
      (l.nodeAt 0 0x80000800).isSome) = true := by decide
/-- A launch whose last crew has gone, and one whose crew is resident. -/
theorem witness_CrewsAndLaunches_complete : ∀ l ∈ (Tests.crewless Tests.base).launches.map (·.2), (Tests.crewless Tests.base).launchOver 0 l = true ∧
    Tests.base.launchOver 0 l = false ∧ l.hashRecord = none ∧ (Table.get? Tests.base.contexts l.ctx).isSome = true := by decide

/-- A quantum row with a slice of 100 microseconds on functions 0 and 1, both with work; the slice of function 0 expired or
not, its crew resident, being saved, or gone. -/
def Tests.sliced (now : Nat) (f : Crew → Crew) (s : State) : State :=
  { s.modCrew 0 f with
    now := now, slice := some 0, sliceStart := 0
    fns := [(0, { HostFn.fresh with quantum := 25601#64 }), (1, { HostFn.fresh with quantum := 25601#64 })]
    contexts := s.contexts ++ [(1, { Context.fresh 1 0 false with queues := [(0, [5])] })] }
theorem witness_SavesAndSlices : ∀ x ∈ [(105000, Tests.base), (104999, Tests.base), (105000, Tests.crewless Tests.base)],
    ∀ s ∈ [Tests.sliced x.1 id x.2], s.slicing = true ∧ s.slice = some 0 ∧ s.nextFn 0 = some 1 ∧ s.sliceSaving = false ∧ s.sliced 0 = true ∧
      (∀ y ∈ s.contexts, y.2.saved = []) ∧ Table.wf s.crews = true ∧
      s.partStarted none = false ∧ (s.sliceStart + s.sliceCycles 0 ≤ s.now ↔ x.1 = 105000) ∧ (x.2.crews = [] ∨ ∃ e ∈ s.sliceCrews 0, e.2.saving = none) := by decide
theorem witness_SavesAndSlices_sole : Tests.base.slicing = false ∧ ∀ s ∈ [{ Tests.sliced 105000 id Tests.base with contexts := Tests.base.contexts }],
    s.nextFn 0 = some 0 ∧ s.slicing = true ∧ { s with slice := none }.nextFn 15 = some 0 := by decide
/-- A cooperative launch of which one crew of two has started: its slice goes on. -/
theorem witness_SavesAndSlices_part : ∀ s ∈ [Tests.sliced 105000 id (Tests.base.modLaunch 0 fun l => { l with
      record := { l.record with kind := 1, ncrew := 2 } })],
    s.partStarted none = true ∧ s.slicing = true ∧ s.slice = some 0 ∧ s.nextFn 0 = some 1 ∧ s.sliceSaving = false := by decide

/-- The crew with a shared memory and no other memory, which a record, a slice or nothing saves. -/
def Tests.small (k : Option SaveKind) (s : State) : State :=
  s.modCrew 0 fun c => { c with
    saving := k, saveC := 3, stopped := k.isSome, sharedSize := 16, stackSize := 0, tiles := [], window := DieWindow.empty }
theorem witness_SavesAndSlices_save : ∀ k ∈ [none, some SaveKind.slice], ∀ u ∈ [Tests.takenOf (Tests.cmd 0x0B 0 0 0 0 65536)],
    ∀ s ∈ [Tests.taking u (Tests.paged (Tests.small k Tests.base))], Tests.readyIn s u 0x0B ∧
      (s.launchOf u.ctx (u.p 0)).map (·.1) = some 0 ∧ u.p 1 < 1 ∧ (∀ c ∈ s.crews, c.2.saving ≠ some (.record 0 255)) ∧
      (s.crewOf 0 (u.p 1)).map (·.1) = some 0 ∧ (Tests.cr s).saving = k ∧ (Tests.cr s).consumed = none ∧ (Tests.cr s).ctx = u.ctx ∧
      u.p 2 + u.p 3 ≤ 2 ^ 57 ∧ s.mainFault u.ctx (u.p 2) (u.p 3) true = none ∧ (∀ v ∈ (Tests.cr s).threads, v.2.slotPoison = []) ∧
      (Tests.th s).ended = false ∧ (Tests.th s).wait = none := by
  unfold Tests.readyIn State.Ready; decide +kernel
/-- The drain done, and an element of it still under way at the limit of 1,000 microseconds; the room of the record too small. -/
theorem witness_SavesAndSlices_drain : ∀ y ∈ [(SaveKind.record 0 255, 65536), (.record 0 255, 95), (.slice, 0)],
    ∀ u ∈ [Tests.takenOf (Tests.cmd 0x0B 0 0 0 0 y.2)], ∀ s ∈ [Tests.taking u (Tests.paged (Tests.small (some y.1) Tests.base))],
    s.crew? 0 = some (Tests.cr s) ∧ (Tests.cr s).killed = false ∧ (Tests.cr s).consumed = none ∧ (Tests.cr s).saving = some y.1 ∧
      (Table.get? s.contexts 0).any (fun x => !x.prot) = true ∧ (Tests.cr s).stacksSettled = true ∧ s.quiet 0 = true ∧
      (Tests.cr s).formed = none ∧ s.formingBeside 0 (Tests.cr s) = false ∧ (Tests.cr s).system = [] ∧ (Tests.cr s).areaUnits = [] ∧
      (Tests.cr s).saveArea = DieWindow.empty ∧ (∀ e ∈ (Tests.cr s).threads, e.1 < 2048) ∧ s.usedUnits 0 (Tests.cr s) = [] ∧
      (s.runHandlers 0 (Tests.cr s)).crew? 0 = some (Tests.cr s) ∧
      ((s.recordResult 0 255 Code.rpcSpace 0#64).fillBack 0 (Tests.cr s)).isSome = true ∧
      s.taken? 0 255 = some u ∧ u.result = none ∧ u.xlate = none ∧ s.mainFault 0 (u.p 2) 13952 true = none := by decide +kernel
theorem witness_SavesAndSlices_limit : ∀ n ∈ [1050000, 1049999], ∀ s ∈ [{ Tests.small (some .slice) (Tests.element (some [1, 2]) none) with now := n }],
    s.crew? 0 = some (Tests.cr s) ∧ s.quiet 0 = false ∧
      (∀ y ∈ (Tests.cr s).threads, y.2.wait.bind Wait.line? = none ∧ ∀ e ∈ y.2.fifo, e.space ≠ .die) ∧ ((Tests.cr s).drainStart + s.drainLimit (s.fnOf 0) * 1050 ≤ s.now ↔ n = 1050000) ∧
      Table.wf s.copies = true ∧ Table.wf s.elems = true ∧ s.copiesOf 0 = [] ∧ (Tests.cr s).killed = false ∧
      (∃ e ∈ s.elems, e.2.crew = 0 ∧ e.2.tid = 0 ∧ e.2.tag = 7) ∧ Table.get? (Tests.th s).tagErr 7 = none := by decide
/-- The image of that crew has its length in its header and a bound below 2^64. -/
theorem witness_SavesAndSlices_image : ∀ s ∈ [Tests.small (some .slice) Tests.base],
    (s.imageOf (Tests.cr s) false false 0#256 3).length < 2 ^ 64 ∧ 3 < 2 ^ 64 ∧ (Tests.cr s).ctx < 2 ^ 32 ∧ (Tests.cr s).index < 2 ^ 32 := by decide +kernel

/-- The saved crew, its image under SAVED_AT 3, and a RESTORE record that names the image at 0, with COUNTER, a header or a
length of its own. -/
def Tests.image : List Byte :=
  (Tests.small none Tests.base).imageOf (Tests.cr (Tests.small none Tests.base)) false false 0#256 3
def Tests.savedAs (image : Option (List Byte)) : SavedCrew :=
  (Tests.small none Tests.base).savedOf 0 (Tests.cr (Tests.small none Tests.base)) false image
def Tests.restoring (u : Taken) (image : Option (List Byte)) (bs : List Byte) (saved : Bool) : State :=
  let s := Tests.taking u (Tests.paged (Tests.crewless Tests.base))
  { s with
    devMem := Mem.writeBytes [] 0 bs
    contexts := Table.adjust s.contexts 0 fun x => { x with saveCount := 3, saved := if saved then [Tests.savedAs image] else [] } }
/-- The header of the image as it is; with a wrong magic number; with COUNTER 4; with 80 bytes, 97, and more than any image;
and no saved crew. -/
def Tests.header : List Byte := leBytes (imageHeader false false 3 0 0 5 13952 0#64) 64
theorem witness_Restores : ∀ y ∈ [(0, 0x49#8, true), (0, 0x48#8, true), (8, 4#8, true), (40, 80#8, true), (40, 97#8, true), (43, 1#8, true), (0, 0x49#8, false)],
    ∀ u ∈ [Tests.takenOf (Tests.cmd 0x0C 0 0 0 0 0)], ∀ s ∈ [Tests.restoring u none (Tests.header.set y.1 y.2.1) y.2.2],
    Tests.readyIn s u 0x0C ∧ u.opened = false ∧ u.call = none ∧ u.staged = [] ∧ (s.launchOf u.ctx (u.p 0)).map (·.1) = some 0 ∧ u.p 1 < 1 ∧
      s.mainFault u.ctx (u.p 2 + 64) 13888 false = none ∧ s.mainPoisoned u.ctx (u.p 2 + 64) 13888 = false ∧
      u.p 2 + 64 ≤ 2 ^ 57 ∧ s.mainFault u.ctx (u.p 2) 64 false = none ∧ s.mainPoison = [] ∧
      bitsOf (leNat (s.readMain u.ctx (u.p 2) 64)) 48 48 = 0 ∧
      (Table.get? s.contexts 0).any (fun x => !x.prot && (s.savedFor x u).isSome == y.2.2 &&
        (s.launches.any fun l => (s.imageCrew x 0 l.2 (u.p 1)).isSome)) = true := by
  unfold Tests.readyIn State.Ready; decide +kernel
/-- The image's sections are those of the saved crew. -/
theorem witness_Restores_sections : ∀ s ∈ [Tests.restoring (Tests.takenOf (Tests.cmd 0x0C 0 0 0 0 0)) none [] true],
    (readSections 5 (Tests.image.drop 64)).any (fun xs =>
        imageFormed (Tests.savedAs none) (s.nlset (Tests.savedAs none).crew) (s.launchItemLen (Tests.savedAs none).crew) xs) = true := by
  decide +kernel
theorem witness_Restores_header : Tests.image.take 64 = Tests.header ∧ Tests.image.length = 13952 ∧
    bitsOf (leNat Tests.header) 287 256 = 5 := by decide +kernel
theorem Tests.restoring_read (u : Taken) (bs : List Byte) (hn : bs.length ≤ 65536) :
    (Tests.restoring u none bs true).readMain 0 0 bs.length = bs := by
  refine Eq.trans ?_ (Mem.readBytes_writeBytes_same [] 0 bs)
  refine List.ext_getElem (by simp [State.readMain]) fun i _ h2 => ?_
  have hi : i < bs.length := by simpa using h2
  have hc : Page.covers { base := 0, size := 65536, writable := true, hostVisible := true, home := 0, peer := 0, frame := 0 } i = true := by
    simp [Page.covers]; omega
  have hx : Table.get? (Tests.restoring u none bs true).contexts 0 = some { (Table.get? Tests.base.contexts 0).getD (Context.fresh 0 0 false) with
      saveCount := 3, saved := [Tests.savedAs none]
      pages := [{ base := 0, size := 65536, writable := true, hostVisible := true, home := 0, peer := 0, frame := 0 }] } := rfl
  have hp : (Tests.restoring u none bs true).translate 0 i = .found (.device i) true := by
    have hm : isMain i = true := by simp [isMain]; omega
    have hg : (Tests.restoring u none bs true).pages 0 =
        [{ base := 0, size := 65536, writable := true, hostVisible := true, home := 0, peer := 0, frame := 0 }] := by
      simp only [State.pages, hx]
    simp only [State.translate, hm, hg, List.find?, hc]
    simp [Page.place]
  have hb : (Tests.restoring u none bs true).mainByte 0 i = Mem.read (Mem.writeBytes [] 0 bs) i := by
    simp only [State.mainByte, hp]; rfl
  rw [← List.getD_eq_getElem _ 0#8 h2, Mem.readBytes_getD _ _ _ _ hi]
  simp [State.readMain, hb]
theorem witness_Restores_read (u : Taken) : (Tests.restoring u none Tests.image true).readMain 0 0 13952 = Tests.image := by
  rw [← witness_Restores_header.2.1]
  exact Tests.restoring_read u Tests.image (by rw [witness_Restores_header.2.1]; decide)
/-- The image installed for a record, and one that the device keeps; a cluster that the crew may return to, one that is not
there, and a die that the launch does not permit. -/
theorem witness_Restores_install : ∀ u ∈ [{ Tests.takenOf (Tests.cmd 0x0C 0 0 0 0 0) with opened := true, staged := Tests.image }],
    ∀ s ∈ [Tests.restoring u none Tests.image true],
    (s.restoreRecord 0 (Tests.savedAs none)).map (·.1) = some 0 ∧ s.placeAllowed (Tests.savedAs none) 0 5 [] = true ∧
      s.placeAllowed (Tests.savedAs none) 1 5 [] = false ∧
      (readSections (bitsOf (leNat (Tests.image.take 64)) 287 256) (imageBody Tests.image 0#256 0)).any (fun xs =>
        s.roomFor (s.restoredCrew (Tests.savedAs none) 0 5 [] xs) 0 && !s.roomFor (s.restoredCrew (Tests.savedAs none) 0 96 [] xs) 0 &&
          (s.restoredCrew (Tests.savedAs none) 0 5 [] xs).iters.isEmpty && leaseItems xs == some [] && resItems xs == some []) = true ∧
      13 ∉ (Tests.savedAs none).sections := by decide +kernel
theorem witness_Restores_kept : ∀ s ∈ [Tests.restoring (Tests.takenOf (Tests.cmd 0x0E 0 0 0 0 0)) (some Tests.image) [] true],
    s.restoreRecord 0 (Tests.savedAs (some Tests.image)) = none ∧ (Tests.savedAs (some Tests.image)).slice = false ∧
      s.mayReturn (Tests.savedAs (some Tests.image)) = true := by decide +kernel

theorem witness_Restores_awake : ∀ s ∈ [(Tests.restoring (Tests.takenOf 0) none [] true).modCluster 0 5 fun k => { k with gated := false }],
    s.awake { Tests.crew0 with cluster := 5 } = true ∧ s.awake { Tests.crew0 with cluster := 6 } = false ∧ s.partStarted (some 0) = false ∧
      s.colops = [] ∧ (∀ y ∈ (Tests.savedAs none).crew.threads, y.2.slotPoison = []) ∧ s.itSlots { Tests.crew0 with cluster := 5 } ≤ 64 := by
  decide +kernel

/-- The launch's window on its die is there; where it is not, the install opens one of the entry's size. -/
theorem witness_Restores_window : ∀ y ∈ [(id, 0), (fun (l : Launch) => { l with win0 := none }, 4096)],
    ∀ s ∈ [(Tests.restoring (Tests.takenOf 0) none [] true).modLaunch 0 y.1], ((s.windowFor (Tests.savedAs none) 0).1) = y.2 ∧
      (Table.get? s.launches 0).any (fun l => (s.launchEntry l.ctx l.record).isSome) = true ∧
      (s.windowFor (Tests.savedAs none) 0).2.launches.any (fun l => (l.2.win 0).size == 4096) = true := by
  decide +kernel

/-- A save of a crew whose lease has an operation in flight, and one whose unit is idle: the drain waits, and goes on. -/
def Tests.leased (queue : List MxOp) : State :=
  (Tests.mx [] (Tests.unit false none queue)).modCrew 0 fun c => { c with saving := some .eviction, saveC := 3, stopped := true }
theorem witness_SavesAndSlices_units : ∀ q ∈ [[], [Tests.op]], ∀ s ∈ [Tests.leased q], s.quiet 0 = true ∧
    (s.unit 0 0 3).queue = q ∧ s.usedUnits 0 (Tests.cr s) = [(0, 3)] ∧ (Tests.cr s).formed = none ∧ (Tests.cr s).system = [] ∧
    (Tests.cr s).areaUnits = [] ∧ (Tests.cr s).saveArea = DieWindow.empty ∧ (∀ e ∈ (Tests.cr s).threads, e.1 < 2048) ∧
    Table.wf (s.unit 0 0 3).leases = true ∧ Table.wf (s.unit 0 0 3).reservations = true ∧
    (∀ l ∈ (s.unit 0 0 3).leases, l.1 < 8 ∧ 1 ≤ l.2.tiles ∧ l.2.tiles ≤ 8) ∧
    (∀ r ∈ (s.unit 0 0 3).reservations, r.1 < 32 ∧ bitsOf r.2.record 26 16 ≠ 0) ∧ (Tests.cr s).stacksSettled = true ∧
    (Table.get? s.contexts 0).any (fun x => !x.prot) = true := by decide +kernel

/-- A budget group of three with one message held, 1 ms old and younger; messages that are newer, older and bad. -/
def Tests.group3 (cameAt : Nat) : Budget :=
  { limit := 4000, self := 0, req := 1200, seq := 4294967295, group := [0, 1, 2]
    members := [(1, { seq := 5, req := 2000, draw := 0, cameAt := cameAt })] }
def Tests.budgetMsg (seq req self : Nat) : BitVec 128 :=
  BitVec.ofNat 128 (1 + 2 ^ 8 + self * 2 ^ 16 + seq * 2 ^ 32 + 1000 * 2 ^ 64 + req * 2 ^ 80)
theorem witness_PowerAndLinks : (∀ t ∈ [0, 1], ((Table.vals (Tests.group3 t).members).filter fun (e : BudgetEntry) =>
      decide (1050000 < e.cameAt + 1000000 * 1050 / 1000)).length = t) ∧
    (∀ y ∈ [(6, 2000, 1), (5, 2000, 1), (6, 1199, 1), (6, 2001, 1), (1, 1200, 2), (1, 1200, 0)],
      (Tests.budgetMsg y.1 y.2.1 y.2.2).extractLsb' 0 8 = 1#8 ∧ ((Tests.budgetMsg y.1 y.2.1 y.2.2).extractLsb' 16 16).toNat = y.2.2 ∧
        ((Tests.budgetMsg y.1 y.2.1 y.2.2).extractLsb' 32 32).toNat = y.1 ∧ ((Tests.budgetMsg y.1 y.2.1 y.2.2).extractLsb' 80 16).toNat = y.2.1) ∧
    2 ∈ (Tests.group3 0).group ∧ 3 ∉ (Tests.group3 0).group := by decide
/-- A cluster that a crew is on, and one that none is on; a link that is untrained over an open, a failed and a closed boot. -/
theorem witness_PowerAndLinks_clusters : (∃ e ∈ Tests.base.crews, e.2.die = 0 ∧ 0 ∈ e.2.clusters) ∧
    (∀ e ∈ Tests.base.crews, ¬(e.2.die = 1 ∧ 95 ∈ e.2.clusters)) ∧ Tests.base.link = .untrained ∧ Tests.base.boot = .off := by decide
/-- The last cluster whose test is left, asleep; ballast that runs, and a draw above the load. -/
def Tests.lastAsleep : State :=
  (List.range 191).foldl (fun (s : State) k => s.modCluster ((k + 1) / 96) ((k + 1) % 96) fun x => { x with gated := false })
    { State.reset with boot := .waiting 4 }
/-- A tick as soon as 100 microseconds have passed, and one before; a draw above a cap that has been lowered, within the mean. -/
theorem witness_PowerAndLinks_tick : ∀ y ∈ [(105000, 2000, 0), (104999, 2000, 0), (105000, 1500, 2000)],
    ∀ s ∈ [{ State.reset with now := y.1, cap := Nat.min State.reset.cap y.2.1, draw := y.2.2 }],
    (s.lastTick + 105000 ≤ s.now ↔ y.1 = 105000) ∧ s.powerOk = true ∧ s.budget = none := by decide
theorem witness_PowerAndLinks_rates : ∀ y ∈ [([0, 0, 0, 0], false), ([0, 5, 0, 0], true)], ∀ s ∈ [{ State.reset with draw := 1500, ballastWatts := 300 }.modCluster 0 3
      fun k => { k with ballast := y.1 }],
    (s.clusters.any fun e => e.2.ballast.any (· ≠ 0)) = y.2 ∧ s.otherBallast 0 3 0 = y.2 ∧ (s.cluster 0 0).ballast ≠ [] := by decide
theorem witness_PowerAndLinks_tested : ∀ s ∈ [Tests.lastAsleep], s.boot = .waiting 4 ∧ (s.cluster 0 0).gated = true ∧ (s.cluster 0 0).fenced = false ∧
    s.crews = [] ∧ ([0, 1].all fun d => (List.range 96).all fun j => (d == 0 && j == 0) || !(s.cluster d j).gated) = true := by decide +kernel
theorem witness_PowerAndLinks_ballast : ∀ s ∈ [{ State.reset with draw := 1500, ballastWatts := 300 }], s.draw ≤ s.capNow ∧ 0 < s.ballastWatts ∧
    max (min 1000 2000) (s.draw - s.ramp / 10) - min 1000 2000 = 475 := by decide
/-- A far atomic sent to the host when its link goes down. -/
theorem witness_PowerAndLinks_down : ∀ s ∈ [Tests.asked true Tests.hosted], ∀ r ∈ s.fars.map (·.2), s.link = .pcie ∧ s.calls = [] ∧ s.xlates = [] ∧
    s.fars = [(0, r)] ∧ r.stage = .sent ∧ s.translate r.ctx r.addr = .found (.host 0 65528) true ∧
    s.thread? r.crew r.tid = some (Tests.th s) ∧ (Tests.th s).wait = some (.far 0) := by decide

/-- A module that waits for stage 3, its parent on port 4, after a second of silence; ports that are down, tried, or the
parent's; an image kept for stage 2; a trained link over an open boot. -/
def Tests.waiting (down tried : List Nat) : State :=
  { State.reset with
    boot := .waiting 3, podRoot := false, podParent := some 4, now := 1050000000, podTried := tried
    images := [(2, Config.readImage [])]
    ports := down.map fun p => (p, { Port.fresh with width := 0 }) }
theorem witness_ResetAndBoot : ∀ x ∈ [([], [], some 0), ([0, 1], [2, 3], some 5), ([0, 1, 2, 3], (List.range 8).drop 5, some 8), ([], List.range 12, none)],
    ∀ s ∈ [Tests.waiting x.1 x.2.1], s.podHeard + 1050000000 ≤ s.now ∧
      ((List.range 12).find? fun p => s.podParent ≠ some p && !(decide ((s.port p).width < 2)) && !(s.podTried.contains p)) = x.2.2 := by decide
theorem witness_ResetAndBoot_request : ∀ k ∈ [1, 2, 3], ((Table.get? (Tests.waiting [] []).images k).isSome = true ↔ k = 2) ∧
    (Tests.waiting [] []).boot = .waiting 3 := by
  have h : ∀ k ∈ [1, 2, 3], ((Table.get? [(2, Config.readImage [])] k).isSome = true ↔ k = 2) := by
    intro k hk; simp only [List.mem_cons, List.not_mem_nil, or_false] at hk
    rcases hk with rfl | rfl | rfl <;> simp [Table.get?]
  exact fun k hk => ⟨h k hk, rfl⟩
theorem witness_ResetAndBoot_root : State.reset.podRoot = true ∧ (Tests.waiting [] []).podRoot = false ∧
    (Tests.taking (Tests.takenOf 0) Tests.base).boot = .open ∧ (Tests.taking (Tests.takenOf 0) Tests.base).link = .cxl := ⟨rfl, rfl, rfl, rfl⟩

/-- Host accesses within the page and across its end; a peer's atomic of each width at its last bytes. -/
theorem witness_WorldAndOverlays : ∀ s ∈ [Tests.paged Tests.base],
    (∀ i < 2, (Table.get? s.contexts 0).any (fun x => (x.pages.find? fun p => p.covers (65534 + i)).any fun p =>
      p.hostVisible && p.home ≠ 2 && p.writable) = true) ∧
    (Table.get? s.contexts 0).any (fun x => (x.pages.find? fun p => p.covers 65536).isNone) = true ∧
    s.mainPoisoned 0 65534 2 = false ∧ 0 < (s.port 11).width ∧ s.framePoisoned 65528 8 = false ∧ AtomOp.cas.code = 9 ∧
    ∀ op : AtomOp, op.code ≠ 10 := by
  intro s hs
  have h : s = Tests.paged Tests.base := by simpa using hs
  subst h
  refine ⟨by decide, by decide, by decide, by decide, by decide, by decide, fun op => by cases op <;> decide⟩
/-- A fetch of the group with a thread that waits for it, its bytes in main memory with the digest of the object, and with
another. -/
def Tests.fetching : State :=
  let s := Tests.paged (Tests.base.modThread 0 0 fun th => { th with wait := some (.overlay 0) })
  { s with
    contexts := Table.adjust s.contexts 0 fun x => { x with pages := x.pages.map fun p => { p with size := 2097152 } }
    clusters := [(0, { Cluster.fresh with fetches := [{ ctx := 0, obj := 0, group := 0, launch := 0, call := none, xlate := none
                                                        prefetch := false }] })] }
theorem witness_WorldAndOverlays_fetch : ∀ f ∈ (Tests.fetching.cluster 0 0).fetches,
    ((Tests.fetching.cluster 0 0).fetches.find? fun f => f.obj = 0 && f.group = 0) = some f ∧ f.call = none ∧ f.xlate = none ∧
      Tests.fetching.mainFault f.ctx 65536 8 false = none ∧ Tests.fetching.mainPoison = [] ∧ f.ctx = 0 ∧
      Table.wf Tests.fetching.crews = true ∧ (∀ e ∈ Tests.fetching.crews, Table.wf e.2.threads = true) := by decide
theorem witness_WorldAndOverlays_digest : Tests.fetching.object? 0 0 = some (loadedObject (loadedBytes 0)) ∧
    Config.sha384 (Tests.fetching.groupData 0 (loadedObject (loadedBytes 0)) 0) = (loadedObject (loadedBytes 0)).digests.getD 0 0#384 ∧
    ∀ bs : List Byte, Config.sha384 bs ≠ Config.sha384 bs + 1#384 := by
  refine ⟨rfl, ?_, fun bs h => ?_⟩
  · rw [show Tests.fetching.groupData 0 (loadedObject (loadedBytes 0)) 0 = loadedBytes 0 by decide]; rfl
  · have := congrArg (fun v => v - Config.sha384 bs) h
    simp [BitVec.add_comm _ 1#384] at this

/-- Core 3 serves the thread's call: a group of eight registers at 8, of two at 1, and a count outside the table; offsets
that are aligned and not, at the end of the crew's window and beyond it, and in the launch window; an absent line. -/
def Tests.serving (off die : Dword) (absent : Bool) : State :=
  let s := Tests.calling { Tests.call false 1050 [5] with pick := none } (Tests.worker (some 3) (some 0)) (Tests.hosting 0 0 0 0 [])
  { s.modCrew 0 fun c => { c with window := { c.window with
      lines := if absent then [(0, { (DieWindow.empty.line 0) with present := false })] else [] } } with
    curCore := 3
    attendants := [(3, { AttendantCore.fresh with call := some 0, x := [(10, off), (11, die)] })] }
theorem witness_AttendantMoves : ∀ y ∈ [(0, 0, false), (3072, 0, false), (3136, 0, false), (0x80000000, 0, false), (32, 0, false), (0, 2, false), (0, 0, true)],
    ∀ s ∈ [Tests.serving (BitVec.ofNat 64 y.1) (BitVec.ofNat 64 y.2.1) y.2.2], ∀ k ∈ [s.core s.curCore], k.call = some 0 ∧ k.stored = 0 ∧
      s.servedCrew 3 = some (0, Tests.cr s) ∧ ((k.reg 10).toNat % 2 ^ 32, (k.reg 11).toNat) = (y.1, y.2.1) ∧ (s.coreWorker 3).isSome = true := by
  decide
theorem witness_AttendantMoves_lines : ∀ y ∈ [(0, 0, false), (3072, 0, false), (3136, 0, false), (0x80000000, 0, false), (32, 0, false), (0, 2, false), (0, 0, true)],
    ∀ s ∈ [Tests.serving (BitVec.ofNat 64 y.1) (BitVec.ofNat 64 y.2.1) y.2.2], ∀ w ∈ [s.coreWindow (Tests.cr s) y.2.1 y.1],
      decide (w.size < inWindow y.1 + 128 * 8) = (y.1 == 3136 || y.2.1 == 2) ∧ w.poison = [] ∧
        ((List.range 16).all fun i => !(w.line (inWindow y.1 / 64 + i)).faulted) = true ∧
        ((List.range 16).all fun i => (w.line (inWindow y.1 / 64 + i)).present) = !y.2.2 := by decide
theorem witness_AttendantMoves_core : ((Tests.serving 0 0 false).servedCrew 3).isSome = true ∧ Tests.base.coreWorker Tests.base.curCore = none ∧
    xsfCount 2 = none ∧ xsfCount 7 = some 8 ∧ (8#5).toNat % 8 = 0 ∧ (1#5).toNat % 2 ≠ 0 := by decide

/-- The word of `add.i32 v5, v6, v7` that issues, alone and behind the prefix of v2; as a parked thread's; a word of the
base instruction set that a core fetches. -/
theorem witness_StepRunsDecoded : ∀ s ∈ [State.reset.placed 0x00143070, State.reset.placed (0x00143070 * 2 ^ 32 + 0x7EC80000)],
    s.stopped = false ∧ s.nextMove = (.issue 0 [0], []) ∧ s.crew? 0 = some Tests.crew0 ∧ s.mayRun Tests.crew0 = true ∧
      ((Tests.crew0.bundleLanes [0]).find? (·.issued)).map (·.tid) = some 0 ∧ Table.get? Tests.crew0.threads 0 = some Tests.thread0 ∧
      Tests.thread0.pc = 0 ∧ ((s.cluster 0 (Tests.crew0.homeCluster Tests.thread0)).frame? 0 0 0).map (·.len) = some 8 := by decide
theorem witness_StepRunsDecoded_words :
    BitVec.ofNat 32 (Mem.readNat (loadedFrame (loadedBytes 0x00143070)).bytes 0 4) = 0x00143070#32 ∧
      (∀ n, n = loadedBytes (0x00143070 * 2 ^ 32 + 0x7EC80000) →
        BitVec.ofNat 32 (Mem.readNat (loadedFrame n).bytes 0 4) = 0x7EC80000#32 ∧
          BitVec.ofNat 32 (Mem.readNat (loadedFrame n).bytes 4 4) = 0x00143070#32) ∧
      (0x00143070#32).extractLsb' 25 7 ≠ 0x3F#7 ∧ (0x7EC80000#32).extractLsb' 25 7 = 0x3F#7 ∧
      decodeWord 0x00143070 = .ok (.addI32 5 6 7 false) ∧ decodeWord 0x7EC80000 = .ok (.pfx 3 false 2 0 false) :=
  ⟨by decide, fun n h => by subst h; exact ⟨by decide, by decide⟩, by decide, by decide, by decide, by decide⟩
theorem witness_StepRunsDecoded_retry : ∀ s ∈ [{ (State.reset.placed 0).modThread 0 0 (fun th => { th with wait := some (.timeline 0) }) with
      agenda := [.retry 0 0] }], s.nextMove = (.retry 0 0, []) ∧ (Tests.th s).ended = false ∧
    (Tests.th s).wait.any Wait.triedAgain = true ∧ { s with agenda := [] }.othersFirst (Tests.cr s) (Tests.th s) = false := by decide
theorem witness_StepRunsDecoded_bundled : ∀ s ∈ [{ (State.reset.placed 0).modThread 0 0 (fun th => { th with wait := some (.uniformLine 0 [5] [4]), parkIssue := 7 }) with
      agenda := [.retry 0 0] }], s.nextMove = (.retry 0 0, []) ∧ (Tests.th s).ended = false ∧ (Tests.th s).wait.any Wait.bundled = true ∧
    ((Tests.cr s).parkedLanes 0 (Tests.th s)).find? (·.issued) = some { tid := 0, issued := true } ∧
    s.groupFailed (Tests.cr s).launch (Tests.cr s).obj 0 = false := by decide
theorem witness_StepRunsDecoded_others : ({ State.reset with agenda := [.event .fleetingTick] }).nextMove = (.event .fleetingTick, []) ∧
    Instr.fleetingTick.kind = .event ∧ State.reset.firstBundle = none ∧ Tests.base.firstBundle = some (0, [0]) := by decide
theorem witness_StepRunsDecoded_core : ∀ s ∈ [{ Tests.serving 0 0 false with agenda := [.attendant 3] }],
    s.nextMove = (.attendant 3, []) ∧ State.coreInstr { s with agenda := [] } 3 = .base 0 := by
  intro s hs
  have h : s = { Tests.serving 0 0 false with agenda := [.attendant 3] } := by simpa using hs
  subst h
  exact ⟨by decide, by rfl⟩

/-! ## Hypotheses that states meet: consumed errors and twins -/

/-- A register of the second lane, and the last bytes of shared memory, that hold an error. -/
def Tests.poisoned : State :=
  ((Tests.pair.modThread 0 0 fun th => { th with regs := [(2, 4080)] }).modThread 0 1 fun th =>
    { th with regs := [(2, 4088)], poison := [6] }).modCrew 0 fun c => { c with shPoison := [4090] }
theorem witness_ConsumedErrors : Tests.poisoned.crew? 0 = some (Tests.cr Tests.poisoned) ∧ (Tests.cr Tests.poisoned).consumed = none ∧
    (Tests.cr Tests.poisoned).killed = false ∧ Tests.poisoned.curLanes ≠ [] ∧
    (∀ l ∈ [(fm32 5 6 7 false).legality Tests.poisoned.cur], Tests.poisoned.opIllegal l = false ∧ Tests.poisoned.prefixIllegal l = false ∧
      Tests.poisoned.ixFailures l.opnds = [] ∧ Tests.poisoned.poisonedRead l = some (6, 1)) ∧
    Tests.poisoned.Clear { opnds := [loadDst 4 8, addrSrc 2], illegal := false, cls := loadClass .none } ∧
    Tests.poisoned.Reaches (Tests.cr Tests.poisoned) .sh 8 (fun u => u.address 2 0 8) ∧
    Tests.poisoned.activeLanes.map (fun e => Tests.poisoned.spacePoison (Tests.cr Tests.poisoned) e.2 .sh (e.2.address 2 0 8).toNat 8 false) =
      [none, some 4088] := by
  unfold State.Clear State.Reaches; decide
/-- A crew that has consumed an error: with a store that has not performed, with a reserve that is clean, outward, used or in
error, and without one; row 5 in hardware mode, with a worker, and without. -/
def Tests.consuming (r : Option (Reserve → Reserve)) (row : Option Bool) (s : State) : State :=
  { s.modCrew 0 fun c => { c with
      stopped := true, consumed := some (0x0902, 6, 0), reserve := r.map fun f => f c.openEpoch } with
    contexts := Table.adjust s.contexts 0 fun x => { x with duty := if row.isSome then [(5, 1)] else [] }
    fns := if row = some true then [(0, { HostFn.fresh with workers := [(0, Tests.worker none none)] })] else [] }
theorem witness_ConsumedErrors_drain :
    (∀ r ∈ [none, some id, some fun x => { x with outward := true }, some fun x => { x with used := true }, some fun (x : Reserve) => { x with poison := true }],
      ∀ w ∈ [none, some true, some false], ∀ s ∈ [Tests.consuming r w Tests.base], s.crew? 0 = some (Tests.cr s) ∧ (Tests.cr s).killed = false ∧
        (Tests.cr s).consumed = some (0x0902, 6, 0) ∧ Table.wf (Tests.cr s).threads = true ∧ (Table.get? s.contexts (Tests.cr s).ctx).isSome = true ∧
        (∀ x ∈ (Tests.cr s).reserve, Table.wf x.threads = true ∧ ∀ e ∈ x.threads, e.2.slotPoison = []) ∧ s.quiet 0 = true ∧
        s.deciding 0 = false ∧ rowAssisted (s.dutyRow 0 5) = w.isSome ∧ s.rowServed 0 5 = (w == some true)) ∧
    (Tests.consuming none none (Tests.storing .sh 8)).quiet 0 = false ∧
    ((Tests.consuming (some id) none Tests.base).crew? 0).any (fun c => c.reserve.any fun x => !x.outward && !x.used && !x.poison) = true := by
  decide
/-- A rollback reserve before and after a line has been written; a twin crew whose thread has been restarted, and one not. -/
theorem witness_ConsumedErrors_shadow : ∀ r ∈ [Tests.crew0.openEpoch, { Tests.crew0.openEpoch with shadowed := [63], shadow := [(4032, 1)] }],
    ({ Tests.crew0 with reserve := some r }).reserve = some r ∧ Table.wf Tests.crew0.threads = true ∧ ([1, 2] : List Byte) ≠ [] := by decide
def Tests.twins (k : Option Word) : State :=
  { Tests.base.modCrew 0 (fun c => { c.modThread 0 fun th => { th with twinStrike := k } with twin := true }) with
    agenda := [.twinDisagree 0 [0]] }
theorem witness_ConsumedErrors_twins : (Tests.twins none).stopped = false ∧
    (Tests.twins none).crew? 0 = some (Tests.cr (Tests.twins none)) ∧ (Tests.cr (Tests.twins none)).twin = true ∧
    (Tests.cr (Tests.twins none)).running = true ∧ (Tests.cr (Tests.twins none)).consumed = none ∧
    (Tests.th (Tests.twins none)).slotPoison = [] ∧ (Tests.th (Tests.twins none)).twinStrike = none ∧
    ((Tests.cr (Tests.twins none)).bundleLanes [0]).map (fun l => (l.tid, l.issued)) = [(0, true)] := by decide
theorem witness_ConsumedErrors_twins_second : (Tests.twins (some 8#32)).stopped = false ∧
    (Tests.twins (some 8#32)).crew? 0 = some (Tests.cr (Tests.twins (some 8#32))) ∧ (Tests.cr (Tests.twins (some 8#32))).twin = true ∧
    (Tests.cr (Tests.twins (some 8#32))).running = true ∧ (Tests.cr (Tests.twins (some 8#32))).consumed = none ∧
    (Tests.th (Tests.twins (some 8#32))).slotPoison = [] ∧ (Tests.th (Tests.twins (some 8#32))).twinStrike = (some 8#32) ∧
    ((Tests.cr (Tests.twins (some 8#32))).bundleLanes [0]).map (fun l => (l.tid, l.issued)) = [(0, true)] := by decide
theorem witness_ConsumedErrors_twins_move (k : Option Word) : (Tests.twins k).nextMove = (.twinDisagree 0 [0], []) := rfl

theorem witness_MemoriesInvariant : State.reset.memoriesWf = true ∧ (∃ t, step State.reset = .next t) ∧
    Tests.kicking.memoriesWf = true := by
  refine ⟨by decide, ⟨_, rfl⟩, by decide⟩
theorem witness_PowerInvariant : State.reset.powerOk = true ∧ ∃ t, step State.reset = .next t := by
  refine ⟨by decide, ?_⟩
  exact ⟨_, rfl⟩
theorem witness_MemoryOperations : Memory.wf ([] : Sparse Byte) = true ∧ Memory.wf ([(0, 1)] : Sparse Byte) = true ∧ 255 < 256 ^ 1 := by decide
theorem witness_ResultTiming : (∀ h ∈ Tests.thread0.pend, h.name ≠ .reg 255) ∧ (∀ h ∈ Tests.thread0.trans, h.name ≠ .reg 255) ∧
    ∃ run : Nat → Thread → Thread, (∀ n u, run (n + 1) u = (run n u).commit 4 .now []) ∧ ∀ u, run 0 u = u :=
  ⟨by decide, by decide, fun n u => Nat.rec u (fun _ t => t.commit 4 .now []) n, fun _ _ => rfl, fun _ => rfl⟩

/-! ## Ill-formed terms, and words that no chapter assigns -/

/-- WellFormed refuses a term for each of its checks. -/
theorem test_illFormed : ∀ i ∈ [Instr.selN32 1 2 0 7 false, .ldAcq 1 2 0 0 0, .stRel 1 2 0 0, .stNt 1 2 0 0, .stNt 1 2 3 0, .atomAdd 1 2 0 0 0 0,
      .atomAnd 1 2 0 0 0 0, .atomOr 1 2 0 0 0 0, .atomXor 1 2 0 0 0 0, .atomMinI 1 2 0 0 0 0, .atomMaxI 1 2 0 0 0 0, .atomMinN 1 2 0 0 0 0,
      .atomMaxN 1 2 0 0 0 0, .atomExch 1 2 0 0 0 0, .atomCas 1 2 0 0 0 0, .br 15 0, .loopBr 15 0, .fence 0, .fence 6, .srRd 1 12 0,
      .tlWait 1 6 0, .gBr 5 1 0, .gRdsr 1 12], i.wellFormed = false := by decide
theorem test_wellFormed : ∀ i ∈ [Instr.selN32 1 2 0 6 false, .selN32 1 2 1 7 false, .stNt 1 2 2 0, .br 14 0, .fence 5, .srRd 1 11 0, .tlWait 1 5 0,
      .gBr 4 1 0, .gRdsr 1 11], i.wellFormed = true := by decide

/-- A reserved major and fn, a checked zero field, a space and a scope that no table lists, a system-register number, a
prefix with a set zero bit, and a word that is none of the attendant's (R60 to R62, R66, R165, R172, R332). -/
theorem test_refused : (decodeWord 0x7A000000, decodeWord 0x1C08107F, decodeWord 0x00D8EE05, decodeWord 0x7EC80001) =
    (.error .reservedMajor, .error .reservedOp, .error .checkedZero, .error .prefixZero) := by decide
theorem test_refused_attendant : decodeAttendant 0x02B5240B = .error .notCustom := by decide

/-! ## Values that the chapters give -/

/-- A register of the thread after an instruction. -/
def Tests.after (i : Instr) (s : State) : State := match exec i s with | .next t => t | _ => s
def Tests.gives (i : Instr) (rs : List (Nat × Word)) (r : Nat) : Word := (Tests.th (Tests.after i (Tests.regs rs))).readReg r

/-- The table "Results at the edges" of spec/07_thread_arithmetic.md. -/
theorem test_div_i32 : Tests.gives (.divI32 5 6 7 false) [(6, 7), (7, 0)] 5 = 0xFFFFFFFF ∧
    Tests.gives (.divI32 5 6 7 false) [(6, 0x80000000), (7, 0xFFFFFFFF)] 5 = 0x80000000 := by decide
theorem test_rem_i32 : Tests.gives (.remI32 5 6 7 false) [(6, -7), (7, 0)] 5 = -7 ∧
    Tests.gives (.remI32 5 6 7 false) [(6, -7), (7, 2)] 5 = -1 := by decide
theorem test_abs_i32 : Tests.gives (.absI32 5 6 false) [(6, 0x80000000)] 5 = 0x80000000 ∧
    Tests.gives (.abssatI32 5 6 false) [(6, 0x80000000)] 5 = 0x7FFFFFFF := by decide
theorem test_shr_i32 : Tests.gives (.shrI32 5 6 7 false) [(6, 0x80000010), (7, 40)] 5 = 0xFFFFFFFF := by decide
theorem test_rol_n32 : Tests.gives (.rolN32 5 6 7 false) [(6, 0x80000001), (7, 33)] 5 = 3 := by decide
theorem test_bfe : Tests.gives (.bfeI32 5 6 7 false) [(6, 0x00000F00), (7, 0x00000408)] 5 = 0xFFFFFFFF ∧
    Tests.gives (.bfeN32 5 6 7 false) [(6, 0xFFFFFFFF), (7, 0x0000101C)] 5 = 0x0000000F := by decide
theorem test_dot_i8 : (Tests.th (Tests.after (.dotI8 5 6 7 false)
    (Tests.behind (Tests.regs [(6, 0x01FF0280), (7, 0x02020101), (9, 10)]) 7 0 false 9))).readReg 5 = -116 := by decide

/-- The example "one SX4 block" of spec/05_number_formats.md, in the registers of spec/07_thread_arithmetic.md. -/
def Tests.block : List (Nat × Word) :=
  [(16, 0x40C00000), (17, 0xBFA00000), (18, 0x3F000000), (19, 0x3E99999A), (22, 0xBF400000), (23, 0x40600000)]
theorem test_cvt_sx4 : [40, 41, 42].map (Tests.gives (.cvtSx4F32 40 16) Tests.block) = [0x0042F481, 0xE300112C, 0] := by decide
theorem test_cvt_f32_sx4 : [48, 49, 50, 51, 52, 54, 55, 63].map (Tests.gives (.cvtF32Sx4 48 40) [(40, 0x0042F481), (41, 0xE300112C)]) =
    [0x40C00000, 0xBF800000, 0x3F000000, 0x3F000000, 0, 0xBF400000, 0x40600000, 0] := by decide

/-- The example "a promise and a transient product" of spec/04_instruction_words.md: the load's register within its promise,
and the rotating loop's first row of spec/08_thread_control_memory.md. -/
theorem test_promise : ∀ t ∈ [Tests.after (.ldSh 5 2 2 2 4) ((Tests.regs [(2, 48), (5, 7)]).modCrew 0 fun c => { c with shared := [(64, 40)] })],
    (Tests.th t).readReg 5 = 7 ∧ (Tests.th (Tests.after (.addI32 6 5 1 false) (Tests.after (.addI32 6 5 1 false) t))).readReg 5 = 40 := by decide
theorem test_loop : ∀ t ∈ [Tests.after (.loopBr 1 0x1FFFFC) (Tests.base.modThread 0 0 fun th =>
      { th with rot := some (64, 8), preds := 2#7 })], (Tests.th t).rb = 7 ∧ (Tests.th t).regOf 64 = 71 ∧ (Tests.th t).regOf 65 = 64 := by decide

/-- The example "a handled bounds trap" of spec/08_thread_control_memory.md. -/
theorem test_bounds_trap : decodeWord 0x5A151000 = .ok (.ldSh 5 2 2 0 0) ∧
    ∀ t ∈ [Tests.after (.ldSh 5 2 2 0 0) (Tests.handled 0x100 false (Tests.regs [(2, 4096)]))], (Tests.th t).sp = 0x200 ∧
      (Tests.th t).inHandler = true ∧ (Tests.th t).pc = 4 ∧ Mem.readNat (Tests.th t).stack 0x100 2 = 0x0101 ∧
      Mem.readNat (Tests.th t).stack 0x118 8 = 4096 ∧ Mem.readNat (Tests.th t).stack 0x124 4 = 0 := by decide

/-- The example "divergent uniform writes" of spec/06_threads_and_bundles.md: the second path's write, from another address. -/
def Tests.uniforms : State := Tests.base.modCrew 0 fun c => { c with roles := c.roles.map fun r => { r with
  uregs := [(4, 7), (5, 7), (6, 9)], uwriter := [(4, 0x40#32)] } }
theorem test_uconf : ∀ t ∈ [Tests.after (.gAddI64 4 6 63) Tests.uniforms], ∀ r ∈ (Tests.cr t).roles,
    r.uread 4 = 9 ∧ (r.uconfSet, r.uconfReg, r.uconfMulti) = (true, 4, false) ∧ (Tests.th (Tests.after (.srRd 8 11 0) t)).readReg 8 = 9 := by decide

/-- The example "cross-lane reads in a partial bundle" of spec/07_thread_arithmetic.md, for threads 0 and 1. -/
theorem test_xl_up : ∀ t ∈ [Tests.after (.xlUpN32 5 4 6 false)
      (Tests.pair.modThread 0 0 fun th => { th with regs := [(4, 100), (6, 1)] })],
    ((t.thread? 0 0).getD Tests.thread0).readReg 5 = 0 := by decide
theorem test_ballot : ∀ t ∈ [Tests.after (.xlBallotN64 8 0 false) Tests.pair],
    ((t.thread? 0 0).getD Tests.thread0).readReg 8 = 2 ∧ ((t.thread? 0 0).getD Tests.thread0).readReg 9 = 0 := by decide

/-- A step of the fetch hook runs the word that it places (spec/04_instruction_words.md, Table 4.1 and Table 7.1). -/
theorem test_step : ∀ t, step (State.reset.withFetchWord 32 0x2024FFFD) = .next t →
    (Tests.th t).readReg 9 = 0xFFFFFFFD ∧ (Tests.th t).pc = 4 := by
  intro t h
  injection h with h
  subst h
  exact ⟨by decide, by decide⟩

end Sys2Proof
end

section
/-! SUPPORT. The canonical form of every memory, taken apart (R4, R25): what it says of a thread, a crew, a cluster, a
launch, a context and the machine, and that the tables these are kept in keep it entry by entry. -/

namespace Sys2Proof

/-! ## Tables whose every value has a property -/

/-- Every value that the table lists has the property. -/
def Table.All {α : Type} (p : α → Prop) (t : Table α) : Prop := ∀ e ∈ t, p e.2

namespace Table.All

variable {α : Type} {p : α → Prop} {t : Table α}

theorem nil : Table.All p [] := fun _ h => nomatch h

theorem put (h : Table.All p t) {k : Nat} {v : α} (hv : p v) : Table.All p (Table.put t k v) := by
  intro e he
  rcases Table.mem_put t k v e he with rfl | he
  · exact hv
  · exact h e he

theorem drop (h : Table.All p t) {k : Nat} : Table.All p (Table.drop t k) :=
  fun e he => h e (Table.mem_drop t k e he)

theorem filter (h : Table.All p t) {q : Nat × α → Bool} : Table.All p (t.filter q) :=
  fun e he => h e (List.mem_filter.1 he).1

theorem adjust (h : Table.All p t) {k : Nat} {f : α → α} (hf : ∀ v, p v → p (f v)) :
    Table.All p (Table.adjust t k f) := by
  intro e he
  obtain ⟨d, hd, rfl⟩ := List.mem_map.1 he
  split
  · exact hf _ (h d hd)
  · exact h d hd

theorem mapVals (h : Table.All p t) {f : Nat → α → α} (hf : ∀ k v, p v → p (f k v)) :
    Table.All p (Table.mapVals t f) := by
  intro e he
  obtain ⟨d, hd, rfl⟩ := List.mem_map.1 he
  exact hf _ _ (h d hd)

theorem get? (h : Table.All p t) {k : Nat} {v : α} (hv : Table.get? t k = some v) : p v := by
  induction t with
  | nil => cases hv
  | cons d t ih =>
    rw [Table.get?] at hv
    split at hv
    · cases hv; exact h d (by simp)
    · exact ih (fun e he => h e (by simp [he])) hv

/-- What a lookup gives, or a default that has the property. -/
theorem getD (h : Table.All p t) {k : Nat} {d : α} (hd : p d) : p ((Table.get? t k).getD d) := by
  cases hv : Table.get? t k with
  | none => exact hd
  | some v => exact h.get? hv

theorem vals_iff : (∀ v ∈ Table.vals t, p v) ↔ Table.All p t := by
  simp only [Table.vals, Table.All, List.forall_mem_map]

end Table.All

/-- Filtering the entries of a rising table keeps it rising. -/
theorem Table.rising_filter {α : Type} (t : Table α) (q : Nat × α → Bool) :
    ∀ lo, Table.risingFrom lo t = true → Table.risingFrom lo (t.filter q) = true := by
  induction t with
  | nil => exact fun _ h => h
  | cons e t ih =>
    intro lo h
    simp only [Table.risingFrom, Bool.and_eq_true, decide_eq_true_eq] at h
    by_cases hq : q e
    · simp only [List.filter_cons_of_pos hq, Table.risingFrom, Bool.and_eq_true, decide_eq_true_eq]
      exact ⟨h.1, ih _ h.2⟩
    · rw [List.filter_cons_of_neg hq]
      exact Table.risingFrom_mono _ _ _ (ih _ h.2) (by omega)

/-- A memory from which entries are dropped keeps the canonical form. -/
theorem Memory.wf_filter (m : Sparse Byte) (q : Nat × Byte → Bool) (h : Memory.wf m = true) :
    Memory.wf (m.filter q) = true := by
  simp only [Memory.wf, Sparse.wf, Bool.and_eq_true, List.all_eq_true] at h ⊢
  exact ⟨Table.rising_filter m q 0 h.1, fun e he => h.2 e (List.mem_filter.1 he).1⟩

namespace Machine

/-! ## Objects that hold one memory -/

def Thread.Wf (th : Thread) : Prop := Memory.wf th.stack = true
def DieWindow.Wf (w : DieWindow) : Prop := Memory.wf w.bytes = true
def Tile.Wf (t : Tile) : Prop := Memory.wf t.bytes = true
def Reserve.Wf (r : Reserve) : Prop := Memory.wf r.shadow = true
def Frame.Wf (f : Frame) : Prop := Memory.wf f.bytes = true
def Reservation.Wf (r : Reservation) : Prop := Memory.wf r.bytes = true
def HostFn.Wf (f : HostFn) : Prop := Memory.wf f.window = true

/-! ## Objects that hold several

The fields that hold memory are the parameters of a structure, so that an update of other fields leaves the very same
proposition. -/

structure Crew.MemWf (shared : Sparse Byte) (window saveArea : DieWindow) (threads system : Table Thread)
    (tiles : List Tile) (reserve : Option Reserve) : Prop where
  shared : Memory.wf shared = true
  window : window.Wf
  saveArea : saveArea.Wf
  threads : Table.All Thread.Wf threads
  system : Table.All Thread.Wf system
  tiles : ∀ t ∈ tiles, t.Wf
  reserve : ∀ r ∈ reserve, r.Wf

@[reducible] def Crew.Wf (c : Crew) : Prop :=
  Crew.MemWf c.shared c.window c.saveArea c.threads c.system c.tiles c.reserve

def MatrixUnit.Wf (u : MatrixUnit) : Prop := Table.All Reservation.Wf u.reservations

structure Cluster.MemWf (frames : List Frame) (mx : Table MatrixUnit) : Prop where
  frames : ∀ f ∈ frames, f.Wf
  mx : Table.All MatrixUnit.Wf mx

@[reducible] def Cluster.Wf (k : Cluster) : Prop := Cluster.MemWf k.frames k.mx

structure Launch.MemWf (win0 win1 : Option DieWindow) : Prop where
  win0 : ∀ w ∈ win0, w.Wf
  win1 : ∀ w ∈ win1, w.Wf

@[reducible] def Launch.Wf (l : Launch) : Prop := Launch.MemWf l.win0 l.win1

def Context.Wf (x : Context) : Prop := ∀ v ∈ x.saved, v.crew.Wf

structure State.MemWf (devMem : Sparse Byte) (hostMem peerMem : Table (Sparse Byte)) (fns : Table HostFn)
    (launches : Table Launch) (clusters : Table Cluster) (crews : Table Crew) (contexts : Table Context) : Prop where
  devMem : Memory.wf devMem = true
  hostMem : Table.All (fun m => Memory.wf m = true) hostMem
  peerMem : Table.All (fun m => Memory.wf m = true) peerMem
  fns : Table.All HostFn.Wf fns
  launches : Table.All Launch.Wf launches
  clusters : Table.All Cluster.Wf clusters
  crews : Table.All Crew.Wf crews
  contexts : Table.All Context.Wf contexts

@[reducible] def State.Wf (s : State) : Prop :=
  State.MemWf s.devMem s.hostMem s.peerMem s.fns s.launches s.clusters s.crews s.contexts

/-! ## The architect's predicate, taken apart -/

theorem Crew.wf_iff (c : Crew) : c.Wf ↔ ∀ m ∈ c.memories, Memory.wf m = true := by
  have hw : (∀ m ∈ c.memories, Memory.wf m = true) ↔
      (Memory.wf c.shared = true ∧ c.window.Wf ∧ c.saveArea.Wf) ∧
        (Table.All Thread.Wf c.threads ∧ Table.All Thread.Wf c.system) ∧ (∀ t ∈ c.tiles, t.Wf) ∧
          ∀ r ∈ c.reserve, r.Wf := by
    simp only [Crew.memories, List.forall_mem_append, List.forall_mem_cons, List.forall_mem_map, Table.All, Table.vals,
      Option.mem_toList, List.not_mem_nil, and_assoc, List.map_append, List.map_map]
    simp [Thread.Wf, DieWindow.Wf, Tile.Wf, Reserve.Wf]
  rw [hw]
  constructor
  · exact fun h => ⟨⟨h.shared, h.window, h.saveArea⟩, ⟨h.threads, h.system⟩, h.tiles, h.reserve⟩
  · exact fun ⟨⟨h1, h2, h3⟩, ⟨h4, h5⟩, h6, h7⟩ => ⟨h1, h2, h3, h4, h5, h6, h7⟩

theorem Cluster.wf_iff (k : Cluster) : k.Wf ↔ ∀ m ∈ k.memories, Memory.wf m = true := by
  simp only [Cluster.memories, List.forall_mem_append, List.forall_mem_map, List.forall_mem_flatMap, Table.vals]
  exact ⟨fun h => ⟨h.frames, fun e he d hd => h.mx e he d hd⟩, fun h => ⟨h.1, fun e he d hd => h.2 e he d hd⟩⟩

theorem Launch.wf_iff (l : Launch) : l.Wf ↔ (l.win 0).Wf ∧ (l.win 1).Wf := by
  have hw : ∀ w : Option DieWindow, (∀ x ∈ w, x.Wf) ↔ (w.getD DieWindow.empty).Wf := by
    intro w
    cases w with
    | none => exact ⟨fun _ => Memory.wf_nil, fun _ _ h => nomatch h⟩
    | some x => simp
  rw [show l.win 0 = l.win0.getD DieWindow.empty from rfl, show l.win 1 = l.win1.getD DieWindow.empty from rfl,
    ← hw, ← hw]
  exact ⟨fun h => ⟨h.win0, h.win1⟩, fun h => ⟨h.1, h.2⟩⟩

/-- The architect's predicate says that every part of the machine that holds memory is in its canonical form. -/
theorem State.wf_iff (s : State) : s.memoriesWf = true ↔ s.Wf := by
  have hf : (∀ f ∈ Table.vals s.fns, Memory.wf f.window = true) ↔ Table.All HostFn.Wf s.fns :=
    Table.All.vals_iff (p := HostFn.Wf)
  have hl : (∀ l ∈ Table.vals s.launches, Memory.wf (l.win 0).bytes = true ∧ Memory.wf (l.win 1).bytes = true) ↔
      Table.All Launch.Wf s.launches := by
    rw [← Table.All.vals_iff]
    exact forall₂_congr fun l _ => (Launch.wf_iff l).symm
  have hk : (∀ k ∈ Table.vals s.clusters, ∀ m ∈ k.memories, Memory.wf m = true) ↔ Table.All Cluster.Wf s.clusters := by
    rw [← Table.All.vals_iff]
    exact forall₂_congr fun k _ => (Cluster.wf_iff k).symm
  have hc : (∀ c ∈ Table.vals s.crews, ∀ m ∈ c.memories, Memory.wf m = true) ↔ Table.All Crew.Wf s.crews := by
    rw [← Table.All.vals_iff]
    exact forall₂_congr fun c _ => (Crew.wf_iff c).symm
  have hx : (∀ x ∈ Table.vals s.contexts, ∀ v ∈ x.saved, ∀ m ∈ v.crew.memories, Memory.wf m = true) ↔
      Table.All Context.Wf s.contexts := by
    rw [← Table.All.vals_iff]
    exact forall₂_congr fun x _ => forall₂_congr fun v _ => (Crew.wf_iff v.crew).symm
  simp only [State.memoriesWf, List.all_eq_true, State.memories, List.forall_mem_append, List.forall_mem_cons,
    List.forall_mem_flatMap, List.cons_append, List.forall_mem_map, List.not_mem_nil, IsEmpty.forall_iff, implies_true,
    and_true, and_assoc]
  rw [hf, hl, hk, hc, hx, Table.All.vals_iff, Table.All.vals_iff]
  constructor
  · exact fun ⟨h1, h2, h3, h4, h5, h6, h7, h8⟩ => ⟨h1, h2, h3, h4, h5, h6, h7, h8⟩
  · exact fun h => ⟨h.devMem, h.hostMem, h.peerMem, h.fns, h.launches, h.clusters, h.crews, h.contexts⟩

end Machine
end Sys2Proof
end

section
/-! SUPPORT. Threads, crews, clusters and launches: their own operations keep the canonical form. -/

namespace Sys2Proof.Machine

open Sys2Proof

/-! ## Threads: only the stack counts -/

namespace Thread.Wf

variable {th : Thread} (h : th.Wf)
include h

theorem setIx {k : Nat} {r : IxReg} : (th.setIx k r).Wf := by
  unfold Thread.setIx
  split_ifs <;> exact h

theorem writePred {k : Nat} {b : Bool} : (th.writePred k b).Wf := by
  unfold Thread.writePred
  split_ifs <;> exact h

theorem putResult {n : ResultName} {v : Word} : (th.putResult n v).Wf := by cases n <;> exact h

theorem writeResult {n : ResultName} {v : Word} : (th.writeResult n v).Wf := Thread.Wf.putResult (th := th.forget n) h

theorem mature {d : Held} : (th.mature d).Wf := h.putResult (n := d.name) (v := d.value)

theorem matureAll {ds : List Held} : (ds.foldl Thread.mature th).Wf :=
  List.foldlRecOn ds _ h fun _ ht _ _ => ht.mature

theorem flushPend : th.flushPend.Wf := h.matureAll (ds := th.pend)

theorem settle : th.settle.Wf := h.matureAll (ds := th.pend.filter (fun d => d.left ≤ 1))

theorem holdResult {k : Nat} {n : ResultName} {v : Word} : (th.holdResult k n v).Wf := by
  unfold Thread.holdResult
  split
  · exact h.writeResult
  · exact h

theorem writeAll {rs : Results} : (th.writeAll rs).Wf := List.foldlRecOn rs _ h fun _ ht _ _ => ht.writeResult

theorem dropPromises {rs : Results} : (th.dropPromises rs).Wf := List.foldlRecOn rs _ h fun _ ht _ _ => ht

theorem holdAll {k : Nat} {rs : Results} : (th.holdAll k rs).Wf := List.foldlRecOn rs _ h fun _ ht _ _ => ht.holdResult

theorem forwardOne {n : ResultName} {v : Word} : (th.forwardOne n v).Wf := by cases n <;> exact h

theorem forwardAll {rs : Results} : (th.forwardAll rs).Wf := List.foldlRecOn rs _ h fun _ ht _ _ => ht.forwardOne

theorem resultsBefore {mode : ResultMode} {rs : Results} : (th.resultsBefore mode rs).Wf := by
  unfold Thread.resultsBefore
  split
  · exact h.writeAll
  · split
    · exact h.writeAll
    · exact h.dropPromises
  · exact h

theorem resultsAfter {mode : ResultMode} {rs : Results} : (th.resultsAfter mode rs).Wf := by
  unfold Thread.resultsAfter
  split
  · exact h
  · split
    · exact h
    · exact h.holdAll
  · exact h.forwardAll

theorem commit {len : Nat} {mode : ResultMode} {rs : Results} : (th.commit len mode rs).Wf :=
  (h.resultsBefore (mode := mode) (rs := rs)).settle.resultsAfter (mode := mode) (rs := rs)

theorem advanceIx {os : List Opnd} : (th.advanceIx os).Wf :=
  List.foldlRecOn os _ h fun t ht o _ => by
    split
    · split
      · exact ht.setIx
      · exact ht
    · exact ht

theorem enterRegion {lset : Nat} {live : List Nat} : (th.enterRegion lset live).Wf := h

theorem restart {live : List Nat} : (th.restart live).Wf := h

theorem rearmNt {sp : Space} {a n : Nat} : (th.rearmNt sp a n).Wf := by
  unfold Thread.rearmNt
  extract_lets hit
  split <;> exact h

theorem predResults {d : Dst} {v : Dword} : (th.predResults d v).Wf := by
  cases d with
  | pred => exact h.writePred
  | _ => exact h

theorem aluLane {b : Bundle} {l : Lane} {fm : AluForm} {v : Dword} : (th.aluLane b l fm v).Wf := by
  unfold Thread.aluLane
  split_ifs
  · exact h.predResults.commit.advanceIx
  · exact h.commit
  · exact h.commit

theorem goTo {len : Nat} {pc : Word} : (th.goTo len pc).Wf := h.flushPend.commit (len := len) (mode := .now) (rs := [])

theorem rotated : th.rotated.Wf := by
  unfold Thread.rotated
  split <;> exact h

theorem leaveHandler {len : Nat} : (th.leaveHandler len).Wf := h.goTo (len := len) (pc := frameResume th.frame)

theorem rollBack {p : ThreadSnapshot} : (th.rollBack p).Wf := h

theorem fill {bs : List Byte} {live : List Nat} : (th.fill bs live).Wf := h

theorem flushStack : th.flushStack.Wf :=
  List.foldlRecOn (motive := fun m => Memory.wf m = true) _ _ h fun _ hm _ _ => Memory.wf_writeBytes _ _ _ hm

theorem enterHandler {r : TrapReport} {lane handler : Nat} : (th.enterHandler r lane handler).Wf := by
  unfold Thread.Wf Thread.enterHandler
  dsimp only
  exact Memory.wf_writeNat _ _ _ _ h.flushStack

end Thread.Wf

theorem Thread.start_wf (role slice home : Nat) (entry : Word) (rot : Option (Nat × Nat)) :
    (Thread.start role slice home entry rot).Wf := Memory.wf_nil

/-! ## Windows, tiles, reserves, reservations -/

theorem DieWindow.empty_wf : DieWindow.empty.Wf := Memory.wf_nil

namespace DieWindow.Wf

variable {w : DieWindow} (h : w.Wf)
include h

theorem modLine {n : Nat} {f : LineMark → LineMark} : (w.modLine n f).Wf := h

theorem write {a : Nat} {bs : List Byte} : (w.write a bs).Wf := Memory.wf_writeBytes _ _ _ h

theorem writeImage {off : Nat} {bs : List Byte} {bad : List Nat} : (w.writeImage off bs bad).Wf := h.write (a := off)

theorem abortGen {a : LateAbort} : (w.abortGen a).Wf := by
  unfold DieWindow.abortGen
  extract_lets
  split
  · exact h
  · exact h.write

end DieWindow.Wf

/-- A window filled from an image has its bytes from the image alone. -/
theorem DieWindow.fill_wf (w : DieWindow) (bs : List Byte) : (w.fill bs).Wf := by
  refine List.foldlRecOn (motive := DieWindow.Wf) _ _ ?_ fun x hx l _ => ?_
  · exact Memory.wf_writeBytes _ _ _ Memory.wf_nil
  · split <;> exact hx

namespace Tile.Wf

variable {t : Tile} (h : t.Wf)
include h

theorem write {tick a : Nat} {bs : List Byte} : (t.write tick a bs).Wf := by
  unfold Tile.write
  split
  · exact Memory.wf_writeBytes _ _ _ h
  · exact h

theorem birthAt {zeros : Bool} {n : Nat} : (Tile.birthAt zeros n t).Wf := by
  change Memory.wf (if zeros || !t.live n then { t with bytes := [], poison := [] } else t).bytes = true
  split
  · exact Memory.wf_nil
  · exact h

theorem renewAt {n : Nat} : (Tile.renewAt n t).Wf := by
  unfold Tile.renewAt
  split <;> exact h

end Tile.Wf

theorem Tile.fresh_wf : Tile.fresh.Wf := Memory.wf_nil

theorem tileOf_wf (bs : List Byte) (tick : Nat) : (tileOf bs tick).Wf := by
  change Memory.wf (if bitsOf (partNat bs 0 16) 9 9 = 1 then Mem.writeBytes [] 0 (part bs 16 4096) else []) = true
  split
  · exact Memory.wf_writeBytes _ _ _ Memory.wf_nil
  · exact Memory.wf_nil

theorem Reserve.Wf.keep {r : Reserve} (h : r.Wf) {m : Sparse Byte} {bad : List Nat} {line : Nat} :
    (r.keep m bad line).Wf := by
  unfold Reserve.keep
  split
  · exact h
  · exact Memory.wf_writeBytes _ _ _ h

theorem Reserve.fill_wf (r : Reserve) (size : Nat) (bs : List Byte) : (r.fill size bs).Wf :=
  Memory.wf_writeBytes _ _ _ Memory.wf_nil

theorem Crew.openEpoch_wf (cr : Crew) : cr.openEpoch.Wf := Memory.wf_nil

theorem Reservation.Wf.write {r : Reservation} (h : r.Wf) {a : Nat} {bs : List Byte} : (r.write a bs).Wf :=
  Memory.wf_writeBytes _ _ _ h

theorem resOfImage_wf (crew unit : Nat) (bs : List Byte) (bad : List Nat) : (resOfImage crew unit bs bad).Wf :=
  Memory.wf_writeBytes _ _ _ Memory.wf_nil

/-! ## Options and lists of them -/

theorem Option.forall_mem_map_of {α : Type} {p : α → Prop} {o : Option α} (h : ∀ x ∈ o, p x) {f : α → α}
    (hf : ∀ x, p x → p (f x)) : ∀ x ∈ o.map f, p x := by
  cases o with
  | none => exact fun _ hx => nomatch hx
  | some y => simp [hf y (h y rfl)]

theorem List.forall_mem_modify_of {α : Type} {p : α → Prop} {f : α → α} (hf : ∀ x, p x → p (f x)) :
    ∀ {l : List α}, (∀ x ∈ l, p x) → ∀ k, ∀ x ∈ l.modify k f, p x
  | [], _, _ => by simp
  | a :: l, h, 0 => by
    rw [List.forall_mem_cons] at h
    simpa using ⟨hf a h.1, h.2⟩
  | a :: l, h, k + 1 => by
    rw [List.forall_mem_cons] at h
    simpa using ⟨h.1, List.forall_mem_modify_of hf h.2 k⟩

/-! ## Crews -/

namespace Crew.Wf

variable {cr : Crew} (h : cr.Wf)
include h

theorem thread {tid : Nat} {th : Thread} (ht : Table.get? cr.threads tid = some th) : th.Wf := h.threads.get? ht

theorem modThread {tid : Nat} {f : Thread → Thread} (hf : ∀ th, th.Wf → (f th).Wf) : (cr.modThread tid f).Wf :=
  { h with threads := h.threads.adjust hf }

theorem modTile {k : Nat} {f : Tile → Tile} (hf : ∀ t, t.Wf → (f t).Wf) : (cr.modTile k f).Wf :=
  { h with tiles := List.forall_mem_modify_of hf h.tiles k }

theorem modReserve {f : Reserve → Reserve} (hf : ∀ r, r.Wf → (f r).Wf) : { cr with reserve := cr.reserve.map f }.Wf :=
  { h with reserve := Option.forall_mem_map_of h.reserve hf }

theorem outward : cr.outward.Wf := h.modReserve fun _ hr => hr

/-- A write of shared memory, which the open reserve shadows first. -/
theorem writeShared {a : Nat} {bs : List Byte} : (cr.writeShared a bs).Wf := by
  unfold Crew.writeShared
  split
  · exact h
  · exact { h with
      shared := Memory.wf_writeBytes _ _ _ h.shared
      reserve := Option.forall_mem_map_of h.reserve fun r hr => List.foldlRecOn _ _ hr fun _ hr _ _ => hr.keep }

theorem latchErr {off : Nat} {code : Code} : (cr.latchErr off code).Wf := by
  unfold Crew.latchErr
  split
  · exact h.writeShared
  · exact h

theorem startSystem {half : Nat} : (cr.startSystem half).Wf := by
  unfold Crew.startSystem
  split
  · exact h
  · exact { h with system := h.system.put (Thread.start_wf _ _ _ _ _) }

theorem rollBack {r : Reserve} (hr : r.Wf) : (cr.rollBack r).Wf := by
  unfold Crew.rollBack
  exact { h with
    shared := List.foldlRecOn (motive := fun m => Memory.wf m = true) _ _ h.shared fun _ hm _ _ =>
      Memory.wf_writeBytes _ _ _ hm
    threads := by
      dsimp only
      exact h.threads.mapVals fun _ _ ht => by
        split
        · exact ht.rollBack
        · exact ht
    reserve := by rintro _ ⟨⟩; exact hr }

end Crew.Wf

theorem startThreads_wf (w : Nat) (pair : Bool) (homes : List Nat) (entry : Word) (rot : Option (Nat × Nat))
    (rs : List Role) : ∀ j, Table.All Thread.Wf (startThreads w pair homes entry rot j rs) := by
  induction rs with
  | nil => exact fun _ => .nil
  | cons r rs ih =>
    intro j e he
    rcases List.mem_append.1 he with he | he
    · obtain ⟨i, -, rfl⟩ := List.mem_map.1 he
      exact Thread.start_wf _ _ _ _ _
    · exact ih _ e he

theorem Crew.start_wf (r : LaunchRecord) (e : Entry) (launch ctx : Nat) (srLaunch : Dword) (rot : Option (Nat × Nat))
    (index die cluster : Nat) (homes : List Nat) (now : Nat) :
    (Crew.start r e launch ctx srLaunch rot index die cluster homes now).Wf := by
  unfold Crew.start
  extract_lets entry roles cr
  have h : cr.Wf := ⟨Memory.wf_nil, Memory.wf_nil, DieWindow.empty_wf, startThreads_wf _ _ _ _ _ _ _, .nil,
    fun t ht => by rw [List.eq_of_mem_replicate ht]; exact Tile.fresh_wf, fun _ hr => nomatch hr⟩
  split
  · exact { h with reserve := by rintro _ ⟨⟩; exact cr.openEpoch_wf }
  · exact h

/-! ## Matrix units and clusters -/

theorem MatrixUnit.fresh_wf : MatrixUnit.fresh.Wf := .nil

namespace MatrixUnit.Wf

variable {u : MatrixUnit} (h : u.Wf)
include h

theorem grant {slot : Nat} : (u.grant slot).Wf := h

theorem passRights : u.passRights.Wf := by
  unfold MatrixUnit.passRights
  extract_lets free
  have hf : free.Wf := by unfold free; split <;> exact h
  clear_value free
  split
  · exact hf
  · split
    · exact hf
    · split
      · split <;> exact h
      · exact h

theorem turnClaims {c k : Nat} {gen : Word} : (u.turnClaims c k gen).Wf :=
  MatrixUnit.Wf.passRights (u := { u with leases := _ }) h

theorem forgetCrew {c : Nat} : (u.forgetCrew c).Wf :=
  MatrixUnit.Wf.passRights (u := { u with leases := _, reservations := _, holder := _ }) h.filter

theorem modLease {slot : Nat} {f : Lease → Lease} : (u.modLease slot f).Wf := h

theorem dropLease {slot : Nat} : (u.dropLease slot).Wf :=
  MatrixUnit.Wf.passRights (u := { u with leases := _, holder := _ }) h

theorem putRes {slot : Nat} {r : Reservation} (hr : r.Wf) :
    MatrixUnit.Wf { u with reservations := Table.put u.reservations slot r } := Table.All.put h hr

theorem dropRes {slot : Nat} : MatrixUnit.Wf { u with reservations := Table.drop u.reservations slot } :=
  Table.All.drop h

theorem modRes {slot : Nat} {f : Reservation → Reservation} (hf : ∀ r, r.Wf → (f r).Wf) :
    MatrixUnit.Wf { u with reservations := Table.adjust u.reservations slot f } := Table.All.adjust h hf

end MatrixUnit.Wf

theorem Cluster.fresh_wf : Cluster.fresh.Wf := ⟨fun _ h => (nomatch h), .nil⟩

theorem mem_evictFor {need : Nat} {f : Frame} : ∀ {fs : List Frame}, f ∈ evictFor need fs → f ∈ fs
  | [], h => h
  | g :: fs, h => by
    rw [evictFor] at h
    split at h
    · exact h
    · exact List.mem_cons_of_mem _ (mem_evictFor h)

theorem mem_framesFor {prefetch : Bool} {need : Nat} {fs : List Frame} {f : Frame}
    (h : f ∈ framesFor prefetch need fs) :
    f ∈ fs := by
  unfold framesFor at h
  split at h
  · exact (List.mem_filter.1 h).1
  · exact mem_evictFor h

namespace Cluster.Wf

variable {k : Cluster} (h : k.Wf)
include h

theorem used {ctx obj group : Nat} : (k.used ctx obj group).Wf :=
  { h with
    frames := by
      intro f hf
      obtain ⟨g, hg, rfl⟩ := List.mem_map.1 hf
      split <;> exact h.frames g hg }

theorem filterFrames {p : Frame → Bool} : { k with frames := k.frames.filter p }.Wf :=
  { h with frames := fun f hf => h.frames f (List.mem_filter.1 hf).1 }

end Cluster.Wf

/-! ## Launches and contexts -/

theorem Launch.Wf.win {l : Launch} (h : l.Wf) (die : Nat) : (l.win die).Wf := by
  have hw : ∀ o : Option DieWindow, (∀ w ∈ o, w.Wf) → (o.getD DieWindow.empty).Wf := by
    intro o ho
    cases o with
    | none => exact DieWindow.empty_wf
    | some w => exact ho w rfl
  unfold Launch.win
  split
  · exact hw _ h.win0
  · exact hw _ h.win1

theorem Launch.Wf.modWin {l : Launch} (h : l.Wf) {die : Nat} {f : DieWindow → DieWindow} (hf : ∀ w, w.Wf → (f w).Wf) :
    (l.modWin die f).Wf := by
  unfold Launch.modWin
  split
  · exact { h with win0 := Option.forall_mem_map_of h.win0 hf }
  · exact { h with win1 := Option.forall_mem_map_of h.win1 hf }

theorem Launch.Wf.openWindow {l : Launch} (h : l.Wf) {die size : Nat} : (l.openWindow die size).Wf := by
  have hw : ∀ o : Option DieWindow, (∀ w ∈ o, w.Wf) → ∀ w ∈ some (o.getD ⟨size, [], [], []⟩), w.Wf := by
    rintro o ho _ ⟨⟩
    cases o with
    | none => exact Memory.wf_nil
    | some w => exact ho w rfl
  unfold Launch.openWindow
  split
  · exact { h with win0 := hw _ h.win0 }
  · exact { h with win1 := hw _ h.win1 }

theorem Launch.Wf.fillWindow {l : Launch} (h : l.Wf) {die : Nat} {poison : List Nat} {bs : List Byte} :
    (l.fillWindow die poison bs).Wf := by
  unfold Launch.fillWindow
  extract_lets l'
  have hl : l'.Wf := h.modWin fun _ _ => DieWindow.fill_wf _ _
  exact hl.modWin fun _ hw => List.foldlRecOn _ _ hw fun _ hw _ _ => hw.abortGen

theorem Launch.Wf.putQueueAt {l : Launch} (h : l.Wf) {die q : Nat} {v : QueueView} : (l.putQueueAt die q v).Wf :=
  h.modWin fun w hw => by
    split
    · exact hw
    · exact hw.write

theorem Context.Wf.filterSaved {x : Context} (h : x.Wf) {p : SavedCrew → Bool} :
    Context.Wf { x with saved := x.saved.filter p } := fun v hv => h v (List.mem_filter.1 hv).1

end Sys2Proof.Machine
end

section
/-! SUPPORT. The shared operations of the machine keep the canonical form: parts of the state replaced, records and
calls raised, stores, traps, the end of a crew, latches and tumblers. Each lemma is one operation of the model; a proof
follows the operation's branches. -/

namespace Sys2Proof.Machine

open Sys2Proof

namespace State.Wf

/-! ## Reaching a part -/

section
variable {s : State} (h : s.Wf)
include h

theorem crew {c : Nat} {cr : Crew} (hc : s.crew? c = some cr) : cr.Wf := h.crews.get? hc

theorem curCrew {cr : Crew} (hc : s.curCrew? = some cr) : cr.Wf := h.crews.get? hc

theorem cluster {die k : Nat} : (s.cluster die k).Wf := h.clusters.getD Cluster.fresh_wf

theorem unit {die k u : Nat} : (s.unit die k u).Wf := h.cluster.mx.getD MatrixUnit.fresh_wf

theorem fn {f : Nat} : (s.fn f).Wf := h.fns.getD Memory.wf_nil

theorem saved {x : Nat} {c : Context} {v : SavedCrew} (hx : Table.get? s.contexts x = some c) (hv : v ∈ c.saved) :
    v.crew.Wf := h.contexts.get? hx v hv

omit h in
theorem ite {c : Prop} [Decidable c] (hs : s.Wf) {t : State} (ht : t.Wf) : (if c then s else t).Wf := by
  split
  · exact hs
  · exact ht

/-! ## Replacing a part -/

theorem foldl {α : Type} {f : State → α → State} {xs : List α} (hf : ∀ t a, t.Wf → (f t a).Wf) : (xs.foldl f s).Wf :=
  List.foldlRecOn xs f h fun t ht a _ => hf t a ht

theorem modCrew {c : Nat} {f : Crew → Crew} (hf : ∀ cr, cr.Wf → (f cr).Wf) : (s.modCrew c f).Wf :=
  { h with crews := h.crews.adjust hf }

theorem modThread {c tid : Nat} {f : Thread → Thread} (hf : ∀ th, th.Wf → (f th).Wf) : (s.modThread c tid f).Wf :=
  h.modCrew fun _ hc => hc.modThread hf

theorem modThreads {c : Nat} {f : Nat → Thread → Thread} (hf : ∀ tid th, th.Wf → (f tid th).Wf) :
    (s.modThreads c f).Wf :=
  h.modCrew fun _ hc => { hc with threads := hc.threads.mapVals hf }

theorem modLaunch {l : Nat} {f : Launch → Launch} (hf : ∀ x, x.Wf → (f x).Wf) : (s.modLaunch l f).Wf :=
  { h with launches := h.launches.adjust hf }

theorem modContext {x : Nat} {f : Context → Context} (hf : ∀ c, c.Wf → (f c).Wf) : (s.modContext x f).Wf :=
  { h with contexts := h.contexts.adjust hf }

theorem modCluster {die k : Nat} {f : Cluster → Cluster} (hf : ∀ x, x.Wf → (f x).Wf) : (s.modCluster die k f).Wf :=
  { h with clusters := h.clusters.put (hf _ h.cluster) }

theorem modUnit {die k u : Nat} {f : MatrixUnit → MatrixUnit} (hf : ∀ x, x.Wf → (f x).Wf) : (s.modUnit die k u f).Wf :=
  h.modCluster fun _ hk => { hk with mx := hk.mx.put (hf _ h.unit) }

theorem modFn {n : Nat} {f : HostFn → HostFn} (hf : ∀ x, x.Wf → (f x).Wf) : (s.modFn n f).Wf :=
  { h with fns := h.fns.put (hf _ h.fn) }

theorem modWindow {c off : Nat} {f : DieWindow → DieWindow} (hf : ∀ w, w.Wf → (f w).Wf) : (s.modWindow c off f).Wf := by
  unfold State.modWindow
  split
  · exact h
  · split
    · exact h.modCrew fun _ hc => { hc with window := hf _ hc.window }
    · exact h.modLaunch fun _ hl => hl.modWin hf

theorem writeDie {c off : Nat} {bs : List Byte} : (s.writeDie c off bs).Wf := h.modWindow fun _ hw => hw.write

theorem outward : s.outward.Wf := h.modCrew fun _ hc => hc.outward

theorem outwardActive : s.outwardActive.Wf := by
  unfold State.outwardActive
  split
  · exact h
  · exact h.outward

/-! ## The lanes of a bundle -/

theorem mapLanes {f : Lane → Thread → Thread} (hf : ∀ l th, th.Wf → (f l th).Wf) : (s.mapLanes f).Wf :=
  h.modThreads fun _ th ht => by
    split
    · exact hf _ _ ht
    · exact ht

theorem complete {mode : ResultMode} {res : Lane → Thread → Results} : (s.complete mode res).Wf :=
  h.mapLanes fun _ _ ht => ht.commit

theorem completeNone : s.completeNone.Wf := h.complete

theorem closeRegion {c tid : Nat} : (s.closeRegion c tid).Wf := by
  unfold State.closeRegion
  split
  · exact h
  · exact h.modThread fun _ ht => ht.enterRegion

theorem park {c tid : Nat} {w : Wait} : (s.park c tid w).Wf := h.modThread fun _ ht => ht

theorem release {c tid la : Nat} {rs : Results} : (s.release c tid la rs).Wf := h.modThread fun _ ht => ht.commit

theorem releaseAll {c la : Nat} {rs : Results} {tids : List Nat} :
    (tids.foldl (fun (t : State) tid => t.release c tid la rs) s).Wf := h.foldl fun _ _ ht => ht.release

/-! ## Records, calls and messages -/

theorem send {m : Message} : (s.send m).Wf := h

theorem free : s.free.2.Wf := h

theorem modCore {n : Nat} {f : AttendantCore → AttendantCore} : (s.modCore n f).Wf := h

theorem logRecord {ctx : Nat} {r : LogRecord} : (s.logRecord ctx r).Wf := h.modContext fun _ hx => hx

theorem raiseCall {c : Call} : (s.raiseCall c).2.Wf :=
  State.Wf.modContext (s := { s with nextId := _, calls := _ }) h fun _ hx => hx

theorem dutyCall {ctx row : Nat} {who : CallFor} {data : List Dword} {origin : CallOrigin} :
    (s.dutyCall ctx row who data origin).2.Wf := h.raiseCall

theorem log {ctx : Nat} {r : LogRecord} {crew : Option Nat} {tid : Nat} : (s.log ctx r crew tid).Wf := by
  unfold State.log
  extract_lets t
  have ht : t.Wf := h.logRecord
  split
  · exact ht.dutyCall
  · exact ht

theorem recordResult {fn slot : Nat} {code : Code} {value : Dword} : (s.recordResult fn slot code value).Wf := by
  unfold State.recordResult
  refine { h with fns := ?_ }
  dsimp only
  exact h.fns.adjust fun _ hf => hf

/-! ## The gang barrier -/

theorem passGang {n lid : Nat} {g : Gang} : (s.passGang n lid g).Wf := by
  unfold State.passGang
  extract_lets
  refine State.Wf.foldl ?_ fun _ _ ht => ht.release.closeRegion
  exact h

theorem checkGang {n : Nat} : (s.checkGang n).Wf := by
  unfold State.checkGang
  split
  · exact h
  split
  · exact h
  split
  · exact h
  extract_lets here g' s0 s1
  have h0 : s0.Wf := h.send
  have h1 : s1.Wf := by
    refine State.Wf.ite ?_ h
    exact h0
  exact State.Wf.ite h1.passGang h1

theorem checkGangs : s.checkGangs.Wf := h.foldl fun _ _ ht => ht.checkGang

/-! ## The end of a crew -/

theorem putQueueHeader {c q v : Nat} : (s.putQueueHeader c q v).Wf := by
  unfold State.putQueueHeader
  split
  · exact h
  · split
    · exact h
    · exact h.writeDie

theorem queueReturn {c q : Nat} {recs : List (Word × Word)} : (s.queueReturn c q recs).Wf := by
  unfold State.queueReturn
  split
  · exact h
  · split
    · exact h
    · exact (h.foldl fun _ _ ht => ht.writeDie).putQueueHeader

theorem returnStack {c : Nat} {st : ItStack} : (s.returnStack c st).Wf := by
  unfold State.returnStack
  split
  · exact h
  · split
    · exact h.queueReturn
    · exact h

theorem releaseUnits {c : Nat} {cr : Crew} : (s.releaseUnits c cr).Wf :=
  h.foldl fun t _ ht => by
    have hl : ∀ bs : List Nat, (bs.foldl (fun (s : State) tb =>
        s.log cr.ctx (s.crewRecord cr Code.mxNolease 0 tb 0 0) (some c)) t).Wf := fun _ => ht.foldl fun _ _ hs => hs.log
    dsimp only
    split
    · exact hl _
    · exact (hl _).modUnit fun _ hu => hu.forgetCrew

theorem releaseStacks {c : Nat} {cr : Crew} : (s.releaseStacks c cr).Wf :=
  (h.foldl fun _ _ ht => ht.returnStack).modCrew fun _ hc => hc

theorem reap {c : Nat} : (s.reap c).Wf := by
  unfold State.reap
  split
  · exact h
  · split
    · exact { h with crews := h.crews.drop }
    · exact h

theorem endCrew {c : Nat} : (s.endCrew c).Wf := by
  unfold State.endCrew
  split
  · exact h
  · extract_lets s1 s2 s3 s4 s5
    have h3 : s3.Wf := h.releaseStacks.releaseUnits
    have h4 : s4.Wf := h3.modThreads fun _ _ ht => ht
    have h5 : s5.Wf := h4.modCrew fun _ hc => { hc with system := Table.All.nil }
    exact h5.checkGangs.reap

theorem saveKilled {cr : Crew} {code : Code} : (s.saveKilled cr code).Wf := by
  unfold State.saveKilled
  split
  · exact h.recordResult
  · exact h

theorem endKilled {c : Nat} {cr : Crew} {code : Code} : (s.endKilled c cr code).Wf := by
  unfold State.endKilled
  extract_lets s1
  have h1 : s1.Wf := h.modLaunch fun _ hl => hl
  exact h1.saveKilled.endCrew

theorem killCrew {c : Nat} {code : Code} {info addr tid : Nat} : (s.killCrew c code info addr tid).Wf := by
  unfold State.killCrew
  split
  · exact h
  · split
    · exact h
    · exact h.log.endKilled

/-! ## Traps and consumed errors -/

theorem takeTrap {c : Nat} {r : TrapReport} {entrants : List (Nat × Nat)} : (s.takeTrap c r entrants).Wf := by
  unfold State.takeTrap
  split
  · exact h
  · split
    · exact h.killCrew
    · split
      · exact h.killCrew
      · exact h.foldl fun _ _ ht => ht.modThread fun _ hth => hth.enterHandler

theorem trapThread {c tid : Nat} {code : Code} {info : Nat} {pc word pfx : Word} :
    (s.trapThread c tid code info pc word pfx).Wf := h.takeTrap

theorem trapLane {tid : Nat} {code : Code} {info : Nat} : (s.trapLane tid code info).Wf := h.trapThread

theorem trapWaiter {c tid : Nat} {code : Code} {info : Nat} : (s.trapWaiter c tid code info).Wf := by
  unfold State.trapWaiter
  split
  · exact h
  · exact h.trapThread

theorem trap {code : Code} {mask : BitVec 64} {info : Nat} : (s.trap code mask info).Wf := by
  unfold State.trap
  split
  · exact h.trapLane
  · exact h.takeTrap

theorem illegalOp : s.illegalOp.Wf := h.trap

theorem illegalPrefix : s.illegalPrefix.Wf := h.trap

theorem consumeError {c : Nat} {code : Code} {info addr tid : Nat} : (s.consumeError c code info addr tid).Wf :=
  h.modCrew fun _ hc => by
    split
    · exact hc
    · exact hc

theorem consume {code : Code} {x : Nat × Nat} : (s.consume code x).Wf := h.consumeError

theorem ixTrap {os : List Opnd} : (s.ixTrap os).Wf := by
  unfold State.ixTrap
  extract_lets bad ks pick k t fails cur
  have ht : t.Wf := by
    unfold t pick
    split
    · exact h
    · exact h.free
  exact ht.trap

/-- The checks of R76 in front of an effect. -/
theorem guarded {l : Legality} {body : State → State} (hb : (body s).Wf) : (s.guarded l body).Wf := by
  unfold State.guarded
  split_ifs
  · exact h
  · exact h.illegalOp
  · exact h.illegalPrefix
  · exact h.ixTrap
  · split
    · exact h.consume
    · exact hb

/-! ## Latches -/

theorem latchErr {c off : Nat} {code : Code} : (s.modCrew c fun x => x.latchErr off code).Wf :=
  h.modCrew fun _ hc => hc.latchErr

theorem writeShared {c a : Nat} {bs : List Byte} : (s.modCrew c fun x => x.writeShared a bs).Wf :=
  h.modCrew fun _ hc => hc.writeShared

theorem releaseLatch {c off : Nat} {phase : Bool} : (s.releaseLatch c off phase).Wf := by
  unfold State.releaseLatch
  split
  · exact h
  · refine h.foldl fun _ _ ht => ?_
    split
    · exact ht.release
    · exact ht.trapWaiter

theorem putLatch {c off : Nat} {l : LatchView} : (s.putLatch c off l).Wf := by
  unfold State.putLatch
  split
  · exact (h.modCrew fun _ hc => hc.writeShared).releaseLatch
  · exact h.modCrew fun _ hc => hc.writeShared

theorem latchError {c off : Nat} {cr : Crew} : (s.latchError c off cr).Wf := by
  unfold State.latchError
  split
  · exact h.consumeError
  · exact h

theorem engineLatch {c off : Nat} {f : LatchView → Option LatchView} : (s.engineLatch c off f).Wf := by
  unfold State.engineLatch
  split
  · exact h
  · dsimp only
    split_ifs
    · exact h.latchError
    · exact h.latchErr
    · split
      · exact h.putLatch
      · exact h.latchErr

theorem armLatch {c off n : Nat} : (s.armLatch c off n).Wf := h.engineLatch

theorem arriveBytes {c off n : Nat} : (s.arriveBytes c off n).Wf := h.engineLatch

theorem arriveThread {c off : Nat} : (s.arriveThread c off).Wf := h.engineLatch

theorem failLatch {c off : Nat} {code : Code} : (s.failLatch c off code).Wf := by
  unfold State.failLatch
  split
  · exact h
  · split
    · exact h.latchError
    · exact h.latchErr.releaseLatch

/-! ## Tumblers -/

theorem putTumbler {c k : Nat} {f : Crew → Tumbler} : (s.modCrew c fun x => x.putTumbler k (f x)).Wf :=
  h.modCrew fun _ hc => hc

theorem mapUnits {cr : Crew} {f : MatrixUnit → MatrixUnit} (hf : ∀ u, u.Wf → (f u).Wf) : (s.mapUnits cr f).Wf :=
  h.foldl fun _ _ ht => by
    dsimp only
    split
    · exact ht
    · exact ht.modUnit hf

theorem turn {c k : Nat} : (s.turn c k).Wf := by
  unfold State.turn
  split
  · exact h
  · extract_lets t s1 s2 s3
    have h1 : s1.Wf := h.mapUnits fun _ hu => hu.turnClaims
    have h2 : s2.Wf := by
      unfold s2
      split
      · exact h1.log
      · exact h1
    have h3 : s3.Wf := h2.putTumbler
    exact h3.releaseAll

theorem turnIfComplete {c k : Nat} : (s.turnIfComplete c k).Wf := by
  unfold State.turnIfComplete
  split
  · exact h
  · split
    · exact h.turn
    · exact h

theorem sign {c k tid : Nat} : (s.sign c k tid).Wf := h.putTumbler.turnIfComplete

theorem leaveTumbler {c k tid : Nat} : (s.leaveTumbler c k tid).Wf := by
  unfold State.leaveTumbler
  split
  · exact h
  · extract_lets t t' s1
    have h1 : s1.Wf := h.putTumbler
    split_ifs
    · exact h1.turn
    · exact h1.releaseAll
    · exact h1
    · exact h

/-! ## Stores -/

theorem performStore {c tid : Nat} {e : StoreEntry} : (s.performStore c tid e).Wf := by
  unfold State.performStore
  split
  · exact h.modThread fun _ ht => Memory.wf_writeBytes _ _ _ ht
  · exact h.writeShared
  · exact h.writeDie
  · exact h.modCrew fun _ hc => hc.modTile fun _ ht => ht.write

theorem drainHead {c tid : Nat} : (s.drainHead c tid).1.Wf := by
  unfold State.drainHead
  split
  · exact h
  split
  · exact h
  split
  · exact h
  split
  · exact h
  split
  · exact h
  · extract_lets s1
    have h1 : s1.Wf := h.modThread fun _ ht => ht
    split
    · exact h1
    · exact h1.trapThread
  · refine State.Wf.performStore (h.modThread fun th ht => ?_)
    refine Thread.Wf.rearmNt ?_
    exact ht

theorem reap_drainHead {c tid : Nat} : ((s.drainHead c tid).1.reap c).Wf := h.drainHead.reap

end

theorem drainUpTo {c tid n : Nat} : ∀ {s : State}, s.Wf → (s.drainUpTo c tid n).Wf := by
  induction n with
  | zero => exact fun h => h
  | succ n ih =>
    intro s h
    rw [State.drainUpTo]
    split
    · exact ih h.drainHead
    · exact h.drainHead

theorem drainFifo {s : State} (h : s.Wf) {c tid : Nat} : (s.drainFifo c tid).Wf := h.drainUpTo

theorem enterFifo {s : State} (h : s.Wf) {c tid : Nat} {e : StoreEntry} : (s.enterFifo c tid e).Wf := by
  unfold State.enterFifo
  extract_lets full s1
  have h1 : s1.Wf := by
    unfold s1
    split
    · exact h.drainHead
    · exact h
  exact h1.modThread fun _ ht => ht

end State.Wf

end Sys2Proof.Machine
end

section
/-! SUPPORT. Main memory, code overlays and the loads and stores of a bundle keep the canonical form. -/

namespace Sys2Proof.Machine

open Sys2Proof

namespace State.Wf

variable {s : State} (h : s.Wf)
include h

theorem alu {fm : AluForm} {f : BitVec 3 → Dword → Dword → Dword → Dword} : (s.alu fm f).Wf :=
  h.guarded (h.mapLanes fun _ _ ht => ht.aluLane)

/-! ## Main memory -/

theorem fillTlb {ctx a : Nat} : (s.fillTlb ctx a).Wf := by
  unfold State.fillTlb
  split <;> exact h

theorem askPeers {ctx a n kind : Nat} : (s.askPeers ctx a n kind).Wf :=
  h.foldl fun _ _ ht => by
    split
    · exact ht.send
    · exact ht

theorem writePlace {p : Place} {b : Byte} : (s.writePlace p b).Wf := by
  cases p with
  | device f => exact { h with devMem := Memory.wf_write _ _ _ h.devMem }
  | peer m a => exact { h with peerMem := h.peerMem.put (Memory.wf_write _ _ _ (h.peerMem.getD Memory.wf_nil)) }
  | host q a => exact { h with hostMem := h.hostMem.put (Memory.wf_write _ _ _ (h.hostMem.getD Memory.wf_nil)) }

theorem writeMain {ctx a : Nat} {bs : List Byte} : (s.writeMain ctx a bs).Wf :=
  h.foldl fun _ _ ht => by
    split
    · exact ht.writePlace
    · exact ht

theorem raiseXlate {ctx page kind : Nat} {who : Option (Nat × Nat)} : (s.raiseXlate ctx page kind who).2.Wf := by
  unfold State.raiseXlate
  split
  · split <;> exact h
  · split
    · exact h
    · extract_lets row id s1 who' req r
      have h1 : s1.Wf := h
      split_ifs
      · exact h1.dutyCall (row := 0)
      · exact h1
      · exact h1

theorem readyMain {ctx a n kind : Nat} {who : Option (Nat × Nat)} : (s.readyMain ctx a n kind who).2.Wf := by
  unfold State.readyMain
  split
  · exact h.foldl fun _ _ ht => ht.fillTlb
  · exact h
  · exact h
  · exact h
  · exact h
  · next page _ =>
    have hr := h.raiseXlate (ctx := ctx) (page := page) (kind := kind) (who := who)
    split
    · next hq =>
      rw [hq] at hr
      exact hr
    · next hq =>
      rw [hq] at hr
      exact hr

theorem readyMain_eq {ctx a n kind : Nat} {who : Option (Nat × Nat)} {r : MainReady} {t : State}
    (hr : s.readyMain ctx a n kind who = (r, t)) : t.Wf := by
  have := h.readyMain (ctx := ctx) (a := a) (n := n) (kind := kind) (who := who)
  rwa [hr] at this

/-! ## Code overlays -/

theorem hashEnd {l : Nat} {cr : Crew} {tid addr info : Nat} : (s.hashEnd l cr tid addr info).Wf := by
  unfold State.hashEnd
  extract_lets s1 s2
  have h1 : s1.Wf := h.modLaunch fun _ hl => hl
  have h2 : s2.Wf := h1.modContext fun _ hx => hx.filterSaved
  exact h2.foldl fun _ _ ht => ht.saveKilled.endCrew

theorem codeHash {c tid group : Nat} : (s.codeHash c tid group).Wf := by
  unfold State.codeHash
  split
  · exact h
  · split
    · exact h
    · exact h.hashEnd

theorem fetchFailed {die cluster ctx obj group : Nat} : (s.fetchFailed die cluster ctx obj group).Wf := by
  unfold State.fetchFailed
  extract_lets ws s1
  have h1 : s1.Wf := h.modCluster fun _ hk => hk
  refine h1.foldl fun _ _ ht => ?_
  split
  · exact ht.killCrew
  · exact ht

theorem startFetch {die cluster ctx obj group launch crew tid : Nat} {prefetch : Bool} {t : State}
    (ht : s.startFetch die cluster ctx obj group launch crew tid prefetch = some t) : t.Wf := by
  unfold State.startFetch at ht
  extract_lets put oaddr r at ht
  have hput : ∀ (u : State) call, u.Wf → (put u call).Wf := fun u call hu => hu.modCluster fun _ hk => hk
  clear_value put
  split_ifs at ht
  · cases ht; exact h
  · cases ht; exact hput _ _ h.dutyCall
  · cases ht; exact hput _ _ h

theorem overlayMiss {c tid cluster group : Nat} : (s.overlayMiss c tid cluster group).Wf := by
  unfold State.overlayMiss
  split
  · exact h
  · split
    · exact h.codeHash
    · extract_lets s1
      have h1 : s1.Wf := h.modThread fun _ ht => ht
      split
      · exact h1.startFetch ‹_›
      · exact h1.fetchFailed

theorem installGroup {die cluster ctx obj group : Nat} {bs : List Byte} {prefetch : Bool} :
    (s.installGroup die cluster ctx obj group bs prefetch).Wf := by
  unfold State.installGroup
  extract_lets ws pre s1
  have h1 : s1.Wf := h.modCluster fun k hk => by
    dsimp only
    split
    · exact hk
    · refine { hk with frames := fun f hf => ?_ }
      rcases List.mem_append.1 hf with hf | hf
      · exact hk.frames f (mem_framesFor hf)
      · rw [List.mem_singleton.1 hf]
        exact Memory.wf_writeBytes _ _ _ Memory.wf_nil
  exact h1.foldl fun _ _ ht => ht.modThread fun _ hth => hth

theorem digestFailed {die cluster ctx obj group launch : Nat} :
    (s.digestFailed die cluster ctx obj group launch).Wf := by
  unfold State.digestFailed
  extract_lets ws ls s1 s2
  have h1 : s1.Wf := h.modCluster fun _ hk => hk
  have h2 : s2.Wf := h1.foldl fun _ _ ht => ht.modLaunch fun _ hl => hl
  exact h2.foldl fun _ _ ht => ht.codeHash

theorem finishFetch {die cluster ctx obj group launch : Nat} {prefetch : Bool} :
    (s.finishFetch die cluster ctx obj group launch prefetch).Wf := by
  unfold State.finishFetch
  split
  · exact h.fetchFailed
  · dsimp only
    split
    · exact h.installGroup
    · exact h.digestFailed

theorem stepFetch {die cluster : Nat} {f : Fetch} : (s.stepFetch die cluster f).Wf := by
  unfold State.stepFetch
  split
  · exact h
  · split
    · exact h.fetchFailed
    · next o _ =>
      extract_lets at0
      split
      · exact h.finishFetch
      · have hr := h.readyMain (ctx := f.ctx) (a := at0) (n := o.groupLen f.group) (kind := 0) (who := none)
        split
        · next hq =>
          rw [hq] at hr
          split
          · exact hr.fetchFailed
          · exact hr.finishFetch
        · next hq =>
          rw [hq] at hr
          exact hr.modCluster fun _ hk => hk
        · next hq =>
          rw [hq] at hr
          exact hr.fetchFailed

theorem callPrefetch {c cluster target : Nat} : (s.callPrefetch c cluster target).Wf := by
  unfold State.callPrefetch
  split
  · exact h
  · split
    · exact h
    · refine h.foldl fun t _ ht => ?_
      dsimp only
      split
      · exact ht
      · generalize hf : t.startFetch _ _ _ _ _ _ _ _ _ = o
        cases o with
        | none => exact ht
        | some u => exact ht.startFetch hf

/-! ## Checks in front of an access -/

theorem laneTrap {code : Code} {bad : Lane → Thread → Bool} {info : Lane → Thread → Int} {t : State}
    (ht : s.laneTrap code bad info = some t) : t.Wf := by
  unfold State.laneTrap at ht
  split at ht
  · cases ht
  · cases ht; exact h.trap

theorem addressTrap {sp : Space} {n al : Nat} {addr : Lane → Thread → Int} {t : State}
    (ht : s.addressTrap sp n al addr = some t) : t.Wf := by
  unfold State.addressTrap at ht
  split at ht
  · cases ht
  · split at ht
    · next hq => cases ht; exact h.laneTrap hq
    · exact h.laneTrap ht

theorem codeTrap {check : Lane → Thread → Option (Code × Nat)} {t : State} (ht : s.codeTrap check = some t) : t.Wf := by
  unfold State.codeTrap at ht
  split at ht
  · cases ht
  · cases ht; exact h.trap

section
variable {go : State → State} (hgo : ∀ t, t.Wf → (go t).Wf)
include hgo

theorem unlessPoisoned {sp : Space} {n off tid : Nat} : (s.unlessPoisoned sp n off tid go).Wf := by
  unfold State.unlessPoisoned
  split
  · exact h
  · split
    · exact h
    · split
      · exact h.consume
      · exact hgo _ h

theorem withLine {tid : Nat} {sp : Space} {off : Nat} : (s.withLine tid sp off go).Wf := by
  unfold State.withLine
  split
  · exact h
  · split
    · exact h
    · split
      · exact h.trapLane
      · exact h.park
      · exact hgo _ h

theorem drained {tid : Nat} {only : Option Space} {w : Wait} : (s.drained tid only w go).Wf := by
  unfold State.drained
  extract_lets pending s1
  have h1 : s1.Wf := h.drainFifo
  split_ifs
  · exact hgo _ h
  · exact h1
  · exact h1.park
  · exact hgo _ h1

theorem inLaneOrder {tid : Nat} {sp : Space} {off n : Nat} : (s.inLaneOrder tid sp off n go).Wf := by
  unfold State.inLaneOrder
  split
  · exact h
  · split
    · exact h.park
    · exact hgo _ h

theorem enterStore {tid : Nat} {e : StoreEntry} : (s.enterStore tid e go).Wf := by
  unfold State.enterStore
  extract_lets depth r
  have hr : r.1.Wf := h.drainHead
  split_ifs
  · exact hgo _ h.enterFifo
  · exact hr
  · exact hr.park
  · exact hgo _ hr.enterFifo

end

theorem unlessConsumed {t : State} (ht : t.Wf) : (s.unlessConsumed t).Wf := by
  unfold State.unlessConsumed
  split
  · split
    · exact h.consume
    · exact ht
  · exact ht

theorem finishLane {tid : Nat} {mode : ResultMode} {rs : Results} {os : List Opnd} : (s.finishLane tid mode rs os).Wf :=
  h.modThread fun _ ht => ht.commit.advanceIx

theorem skipInactive {mode : ResultMode} {zero : Thread → Results} : (s.skipInactive mode zero).Wf := by
  unfold State.skipInactive
  split
  · exact h
  · exact h.mapLanes fun _ _ ht => by
      split
      · exact ht
      · exact ht.commit

theorem lanewise {mode : ResultMode} {zero : Thread → Results} {f : State → Lane → Thread → State}
    (hf : ∀ t l th, t.Wf → (f t l th).Wf) : (s.lanewise mode zero f).Wf :=
  h.skipInactive.foldl fun _ _ ht => hf _ _ _ ht

/-! ## Loads and stores -/

theorem loadLane {sp : Space} {n off : Nat} {vd : BitVec 7} {la : Nat} {os : List Opnd} {tid : Nat} :
    (s.loadLane sp n off vd la os tid).Wf :=
  h.withLine fun t ht => by
    split
    · exact ht
    · split
      · exact ht
      · dsimp only
        split
        · split
          · exact ht.finishLane
          · refine State.Wf.finishLane ?_
            exact ht.modCrew fun _ hc => hc.modTile fun _ hl => hl
        · exact ht.finishLane

theorem loads {sp : Space} {n : Nat} {vd : BitVec 7} {la : BitVec 4} {strong : Bool} {addr : Lane → Thread → Int}
    {l : Legality} : (s.loads sp n vd la strong addr l).Wf := by
  refine h.guarded ?_
  split
  · exact h.addressTrap ‹_›
  · split
    · exact h.consume
    · extract_lets t
      have ht : t.Wf := h.lanewise fun u ln th hu => by
        dsimp only
        split
        · exact hu.drained fun _ hv => hv.unlessPoisoned fun _ hw => hw.loadLane
        · exact hu.loadLane
      split
      · exact h.unlessConsumed ht
      · exact ht

theorem stores {sp : Space} {n : Nat} {vs : BitVec 7} {strong : Bool} {addr : Lane → Thread → Int} {l : Legality} :
    (s.stores sp n vs strong addr l).Wf := by
  refine h.guarded ?_
  dsimp only
  split
  · exact h.addressTrap ‹_›
  · exact h.lanewise fun _ _ _ hu =>
      hu.withLine fun _ hv => hv.inLaneOrder fun _ hw => hw.enterStore fun _ hx => hx.finishLane

theorem lmLoad {sp : Space} {vd : BitVec 7} {sz : BitVec 2} {va la : BitVec 4} {off : BitVec 7} :
    (s.lmLoad sp vd sz va la off).Wf := h.loads

theorem lmStore {sp : Space} {vs : BitVec 7} {sz : BitVec 2} {va : BitVec 4} {off : BitVec 7} :
    (s.lmStore sp vs sz va off).Wf := h.stores

end State.Wf

end Sys2Proof.Machine
end

section
/-! SUPPORT. Atomics, uniform operations, control flow, tiles and latches keep the canonical form. -/

namespace Sys2Proof.Machine

open Sys2Proof

namespace State.Wf

variable {s : State} (h : s.Wf)
include h

/-! ## Atomics -/

theorem writeSpace {tid : Nat} {sp : Space} {off : Nat} {bs : List Byte} : (s.writeSpace tid sp off bs).Wf :=
  State.Wf.performStore (h.modThread fun _ ht => ht.rearmNt)

theorem atomLane {op : AtomOp} {sp : Space} {n off : Nat} {vd vc : BitVec 7} {la : Nat} {os : List Opnd} {tid : Nat} :
    (s.atomLane op sp n off vd vc la os tid).Wf :=
  h.withLine fun t ht => by
    split
    · exact ht
    · split
      · exact ht
      · dsimp only
        split
        · refine State.Wf.closeRegion (State.Wf.finishLane ?_)
          exact ht.modCrew fun _ hc => hc.modTile fun _ hl => hl
        · refine State.Wf.closeRegion (State.Wf.finishLane ?_)
          split
          · exact ht.writeSpace
          · exact ht

theorem atoms {op : AtomOp} {vd : BitVec 7} {va : BitVec 4} {sz : BitVec 1} {la : BitVec 4} {sp : BitVec 2} :
    (s.atoms op vd va sz la sp).Wf := by
  refine h.guarded ?_
  split
  · exact h.addressTrap ‹_›
  · refine h.unlessConsumed (State.Wf.lanewise ?_ fun _ _ _ ht => ht.inLaneOrder fun _ hu =>
      hu.drained fun _ hv => hv.unlessPoisoned fun _ hw => hw.atomLane)
    split
    · exact h
    · exact h.outwardActive

/-! ## Uniform operations -/

theorem uwrite {g : BitVec 6} {v : Dword} : (s.uwrite g v).Wf := h.modCrew fun _ hc => hc

theorem parkBundle {w : Wait} : (s.parkBundle w).Wf := h.foldl fun _ _ ht => ht.park

theorem inUniformOrder {reads writes : List Nat} {body : State → State} (hb : ∀ t, t.Wf → (body t).Wf) :
    (s.inUniformOrder reads writes body).Wf := by
  unfold State.inUniformOrder
  split
  · exact h
  · split
    · exact h.parkBundle
    · exact hb _ h

theorem uniform {os : List Opnd} {illegal : Bool} {reads writes : List (BitVec 6)} {body : State → State}
    {uses : List Nat} (hb : ∀ t, t.Wf → (body t).Wf) : (s.uniform os illegal reads writes body uses).Wf :=
  h.guarded (h.inUniformOrder fun t ht => by
    split
    · exact ht.consume
    · exact hb _ ht)

theorem ualu {gd ga gb : BitVec 6} {f : Dword → Dword → Dword} : (s.ualu gd ga gb f).Wf :=
  h.uniform fun _ ht => ht.uwrite.completeNone

theorem ualu1 {gd ga : BitVec 6} {f : Dword → Dword} : (s.ualu1 gd ga f).Wf :=
  h.uniform fun _ ht => ht.uwrite.completeNone

theorem ualuImm {gd : BitVec 6} {f : Dword → Dword} : (s.ualuImm gd f).Wf := h.ualu1

theorem umovIf {gd ga gb : BitVec 6} {p : Dword → Bool} : (s.umovIf gd ga gb p).Wf :=
  h.uniform fun t ht => by
    refine State.Wf.completeNone ?_
    split
    · exact ht.uwrite
    · exact ht

theorem uniformTrap {cr : Crew} {sp : Space} {off : Int} {n : Nat} {t : State}
    (ht : s.uniformTrap cr sp off n = some t) :
    t.Wf := by
  unfold State.uniformTrap at ht
  split_ifs at ht
  · cases ht; exact h.trap
  · cases ht; exact h.trap

theorem uniformAccess {sp : Space} {n : Nat} {addr : Int} {w : Wait} {go : State → Crew → Nat → Thread → State}
    (hgo : ∀ t cr tid th, t.Wf → (go t cr tid th).Wf) : (s.uniformAccess sp n addr w go).Wf := by
  unfold State.uniformAccess
  split
  · exact h
  · split
    · exact h.uniformTrap ‹_›
    · split
      · exact h
      · split
        · exact h.foldl fun _ _ ht => ht.trapLane
        · exact h.parkBundle
        · exact hgo _ _ _ _ h

theorem uload {sp : Space} {gd ga : BitVec 6} {sz : BitVec 2} {off : BitVec 7} : (s.uload sp gd ga sz off).Wf :=
  h.uniform fun _ ht => ht.uniformAccess fun u _ _ _ hu => by
    split
    · exact hu.consume
    · exact hu.uwrite.completeNone

theorem ustore {sp : Space} {gs ga : BitVec 6} {sz : BitVec 2} {off : BitVec 7} : (s.ustore sp gs ga sz off).Wf :=
  h.uniform fun _ ht => by
    refine ht.uniformAccess fun u _ _ _ hu => ?_
    dsimp only
    split
    · exact hu.drainFifo
    · split
      · exact hu.drainFifo.parkBundle
      · exact hu.drainFifo.writeSpace.completeNone

/-! ## Control flow -/

theorem flushed : s.flushed.Wf := h.mapLanes fun _ _ ht => ht.flushPend

theorem targetTrap {target : Lane → Thread → Word} {t : State} (ht : s.targetTrap target = some t) : t.Wf :=
  h.laneTrap ht

theorem callLanes {target : Lane → Thread → Word} : (s.callLanes target).Wf := by
  unfold State.callLanes
  split
  · exact h
  · split
    · exact h.laneTrap ‹_›
    · refine State.Wf.foldl ?_ fun _ _ ht => ht.callPrefetch
      refine h.lanewise fun _ ln _ ht => ht.withLine fun _ hu => hu.enterStore fun v hv => hv.modThread fun u hth => ?_
      exact hth.goTo (len := v.cur.length) (pc := target ln u)

/-! ## Tiles -/

theorem tileOp {os : List Opnd} {va : BitVec 7} {la : Nat} {closing : Bool} {f : Nat → Tile → Tile}
    {res : Thread → Tile → Nat → Results} (hf : ∀ n t, t.Wf → (f n t).Wf) : (s.tileOp os va la closing f res).Wf := by
  refine h.guarded ?_
  extract_lets addr
  split
  · exact h.addressTrap ‹_›
  · refine h.outwardActive.lanewise fun _ _ _ ht => ht.inLaneOrder fun _ hu => hu.drained fun w hw => ?_
    split
    · exact hw
    · extract_lets n w1 w2
      have h1 : w1.Wf := hw.modCrew fun _ hc => hc.modTile (hf n)
      have h2 : w2.Wf := h1.finishLane
      split
      · exact h2.closeRegion
      · exact h2

/-! ## Latches and the crew barrier -/

theorem memberTrap {k : Nat} {t : State} (ht : s.memberTrap k = some t) : t.Wf := by
  unfold State.memberTrap at ht
  split at ht
  · cases ht
  · exact h.laneTrap ht

theorem drainLanes : s.drainLanes.Wf := h.foldl fun _ _ ht => ht.drainFifo

theorem latchAccess {va : BitVec 7} {formed : Bool} {go : State → State} (hgo : ∀ t, t.Wf → (go t).Wf) :
    (s.latchAccess va formed go).Wf := by
  unfold State.latchAccess
  split
  · exact h.addressTrap ‹_›
  · extract_lets s1
    have h1 : s1.Wf := by
      unfold s1
      split
      · exact h.drainLanes
      · exact h
    clear_value s1
    split
    · exact h1
    · split
      · exact h1.consume
      · split
        · exact hgo _ h1
        · split
          · exact h1
          · split
            · exact h1.laneTrap ‹_›
            · exact hgo _ h1

theorem checkBarrier {c : Nat} : (s.checkBarrier c).Wf := by
  unfold State.checkBarrier
  split
  · exact h
  · split
    · exact h
    · extract_lets parked s1 s2
      have h1 : s1.Wf := h.modThreads fun _ _ ht => ht
      have h2 : s2.Wf := h1.foldl fun _ _ ht => ht.release.closeRegion
      exact h2.modCrew fun x hx => by
        dsimp only
        split
        · exact { hx with reserve := by rintro _ ⟨⟩; exact Crew.openEpoch_wf _ }
        · exact hx

/-! ## Lines of the die window -/

theorem modDieLine {c off : Nat} {f : LineMark → LineMark} : (s.modDieLine c off f).Wf := h.modWindow fun _ hw => hw

theorem faultWaiters {c off : Nat} {cr : Crew} : (s.faultWaiters c off cr).Wf := by
  unfold State.faultWaiters
  extract_lets s1 s2 s3
  have h1 : s1.Wf := h.modCrew fun _ hc => hc
  have h2 : s2.Wf := h1.modThreads fun _ _ ht => by
    split
    · split <;> exact ht
    · exact ht
  have h3 : s3.Wf := h2.foldl fun _ _ ht => ht.drainHead
  refine h3.foldl fun _ _ ht => ?_
  split
  · split
    · exact ht.trapWaiter
    · exact ht
  · exact ht

theorem faultLine {c off : Nat} : (s.faultLine c off).Wf := h.modDieLine.foldl fun _ _ ht => ht.faultWaiters

theorem engineWrite {c : Nat} {sp : Space} {off : Nat} {bs : List Byte} : (s.engineWrite c sp off bs).Wf :=
  h.performStore

end State.Wf

end Sys2Proof.Machine
end

section
/-! SUPPORT. Copies, far atomics and matrix operations keep the canonical form. -/

namespace Sys2Proof.Machine

open Sys2Proof

namespace State.Wf

variable {s : State} (h : s.Wf)
include h

/-! ## Copies of a thread -/

theorem cpTLane {tid k dst src n : Nat} : (s.cpTLane tid k dst src n).Wf := by
  unfold State.cpTLane
  split
  · exact h
  split
  · exact h
  extract_lets absent full id source e s1 s2 s3 s4 s5
  have h1 : s1.Wf := h
  have h2 : s2.Wf := by
    unfold s2
    split
    · exact h1.modDieLine
    · exact h1
  have h3 : s3.Wf := h2.modThread fun _ ht => ht
  have h4 : s4.Wf := by
    unfold s4
    split
    · exact h3
    · exact h3.outward
  have h5 : s5.Wf := h4.finishLane
  clear_value s5 absent full
  split_ifs
  · exact h.park
  · exact h.park
  · exact h5.closeRegion
  · exact h5

theorem tagWait {tags : List Nat} : (s.tagWait tags).Wf :=
  h.lanewise fun t _ _ ht => by
    split
    · exact ht.park
    · split
      · refine State.Wf.trapLane ?_
        exact ht.modThread fun _ hth => hth
      · exact ht.finishLane

theorem endElem {id : Nat} {e : TElem} {failed : Option (Code × Nat)} : (s.endElem id e failed).Wf := by
  unfold State.endElem
  extract_lets s1 s2 s3
  have h1 : s1.Wf := h
  have h2 : s2.Wf := by
    unfold s2
    split
    · split
      · exact h1.faultLine
      · exact h1.modDieLine
    · exact h1
  have h3 : s3.Wf := h2.modThread fun _ ht => ht
  exact h3.reap

theorem writeElem {id : Nat} {e : TElem} {bs : List Byte} : (s.writeElem id e bs).Wf := by
  unfold State.writeElem
  dsimp only
  split
  · exact h.engineWrite.endElem
  split
  · next hq => exact (h.readyMain_eq hq).askPeers.writeMain.endElem
  · next hq =>
    have ht := h.readyMain_eq hq
    exact ht
  · next hq => exact (h.readyMain_eq hq).endElem

theorem stepElem {elem : Nat} : (s.stepElem elem).Wf := by
  unfold State.stepElem
  split
  · exact h
  split
  · exact h
  split
  · exact h.endElem
  split
  · exact h.writeElem
  split
  · next hq =>
    have ht := h.readyMain_eq hq
    exact State.Wf.ite ht.askPeers.endElem ht.askPeers.writeElem
  · next hq =>
    have ht := h.readyMain_eq hq
    exact ht
  · next hq => exact (h.readyMain_eq hq).endElem

/-! ## Copies of a crew -/

theorem nameAway {cr : Crew} {cluster mcast : Nat} : (s.nameAway cr cluster mcast).Wf := by
  unfold State.nameAway
  extract_lets named
  refine State.Wf.modContext ?_ fun c hc => ?_
  · refine { h with crews := ?_ }
    dsimp only
    exact h.crews.mapVals fun _ _ hc => by split <;> exact hc
  · intro v hv
    obtain ⟨w, hw, rfl⟩ := List.mem_map.1 hv
    split <;> exact hc w hw

theorem endCopyOp {c op : Nat} {failed : Bool} : (s.endCopyOp c op failed).Wf := h.modCrew fun _ hc => hc

theorem acceptCopy {c : Copy} : (s.acceptCopy c).Wf := by
  unfold State.acceptCopy
  extract_lets total s1 tooFull s2 s3 s4 s5
  have h1 : s1.Wf := h.modCrew fun _ hc => hc
  have h2 : s2.Wf := h1.foldl fun _ _ ht => ht.latchErr
  have h3 : s3.Wf := h2.endCopyOp
  have h4 : s4.Wf := by
    unfold s4
    split
    · exact h1.foldl fun _ _ ht => ht.armLatch
    · exact h1
  have h5 : s5.Wf := h4.foldl fun _ _ ht => ht.modDieLine
  clear_value s3 s5 tooFull
  split
  · split
    · exact h3.log
    · exact h3
  · exact h5

theorem freeOthers {c seq : Nat} : (s.freeOthers c seq).Wf := by
  unfold State.freeOthers
  split
  · exact h
  · split
    · exact h
    · exact h.modThreads fun _ _ ht => by split <;> exact ht

theorem kickLane {tid : Nat} {th : Thread} {v : Nat} {vd : Option (BitVec 7)} {la : Nat} :
    (s.kickLane tid th v vd la).Wf := by
  unfold State.kickLane
  split
  · exact h
  · extract_lets c k copy s1 s2 rs
    have h1 : s1.Wf := h.acceptCopy
    have h2 : s2.Wf := by
      unfold s2
      split
      · exact h1
      · exact h1.modCrew fun _ hc => hc.outward
    split_ifs
    · exact h.nameAway.park
    · exact h.park
    · refine State.Wf.modThread ?_ fun _ ht => ht
      exact h2.finishLane.closeRegion

theorem kickLanes {record : Thread → Nat} {vd : Option (BitVec 7)} {la : Nat} : (s.kickLanes record vd la).Wf :=
  State.Wf.freeOthers (h.lanewise fun _ _ _ ht => ht.kickLane)

theorem kickChecked {va : BitVec 7} {vd : Option (BitVec 7)} {la : Nat} : (s.kickChecked va vd la).Wf := by
  unfold State.kickChecked
  split
  · exact h
  split
  · exact h.consume
  extract_lets record first away
  have hfirst : ∀ cs t, first cs = some t → t.Wf := by
    intro cs t ht
    obtain ⟨_, _, hc⟩ := List.exists_of_findSome?_eq_some ht
    exact h.codeTrap hc
  clear_value first
  split
  · exact hfirst _ _ ‹_›
  split
  · exact State.Wf.parkBundle (h.foldl fun _ _ ht => ht.nameAway)
  split
  · exact hfirst _ _ ‹_›
  · exact h.kickLanes

theorem kickForm {va : BitVec 7} {vd : Option (BitVec 7)} {la : Nat} : (s.kickForm va vd la).Wf := by
  unfold State.kickForm
  extract_lets os
  refine h.guarded ?_
  dsimp only
  split
  · exact h
  · exact h.kickLanes
  split
  · exact h.parkBundle
  split
  · exact h.laneTrap ‹_›
  split
  · exact h.laneTrap ‹_›
  split
  · exact h.drainLanes
  split
  · exact h.drainLanes.parkBundle
  · exact h.drainLanes.kickChecked

theorem dropCopy {id : Nat} {c : Copy} : (s.dropCopy id c).Wf := by
  refine State.Wf.foldl ?_ fun _ _ ht => ht.reap
  exact h

theorem failCopy {id : Nat} {c : Copy} {latchCode code : Code} {addr : Nat} :
    (s.failCopy id c latchCode code addr).Wf := by
  unfold State.failCopy
  extract_lets s1 s2 s3 s4
  have h1 : s1.Wf := by
    unfold s1
    split
    · exact h.foldl fun _ _ ht => ht.failLatch
    · exact h
  have h2 : s2.Wf := h1.foldl fun _ _ ht => ht.faultLine
  have h3 : s3.Wf := h2.endCopyOp
  have h4 : s4.Wf := by
    unfold s4
    split
    · exact h3.log
    · exact h3
  exact h4.dropCopy

theorem modTile {c k : Nat} {f : Tile → Tile} (hf : ∀ t, t.Wf → (f t).Wf) : (s.modCrew c fun x => x.modTile k f).Wf :=
  h.modCrew fun _ hc => hc.modTile hf

/-- A tile written, and perhaps born at the same tick. -/
theorem writeTileAt {c k n a : Nat} {bs : List Byte} {last : Bool} {g : Tile → Tile} (hg : ∀ t, t.Wf → (g t).Wf) :
    (s.modCrew c fun x => x.modTile k fun t =>
      let t := (g t).write n a bs
      if last then { t with birth := n } else t).Wf :=
  h.modTile fun t ht => by
    have hw : ((g t).write n a bs).Wf := (hg t ht).write
    dsimp only
    split <;> exact hw

theorem writeTile {id : Nat} {c : Copy} {o i : Nat} {bs : List Byte} : (s.writeTile id c o i bs).Wf := by
  unfold State.writeTile
  extract_lets a k n
  split
  · exact h
  split
  · exact h.modTile fun _ ht => ht.write
  split
  · exact h.writeTileAt fun _ ht => ht.birthAt
  split
  · split
    · exact h.modTile fun _ ht => ht
    · refine State.Wf.log ?_
      exact h.modTile fun _ ht => ht
  · refine h.writeTileAt (g := fun t => t) fun _ ht => ht

theorem writeElement {id : Nat} {c : Copy} {i : Nat} {bs : List Byte} : (s.writeElement id c i bs).Wf := by
  unfold State.writeElement
  split
  · exact h.askPeers.writeMain
  · refine h.foldl fun t d ht => ?_
    dsimp only
    split
    · exact ht.writeShared
    · exact ht.writeShared.modCrew fun _ hc => hc.outward
  · exact h.writeDie
  · exact h.writeTile
  · exact h

theorem landElement {id : Nat} {c : Copy} {i : Nat} : (s.landElement id c i).Wf := by
  unfold State.landElement
  extract_lets s1 s2 done s3
  have h1 : s1.Wf := h
  have h2 : s2.Wf := by
    unfold s2
    split
    · exact h1.foldl fun _ _ ht => ht.arriveBytes
    · exact h1
  have h3 : s3.Wf := by
    unfold s3
    split
    · split
      · exact h2
      · exact h2.modDieLine
    · exact h2
  split
  · exact h3.endCopyOp.dropCopy
  · exact h3

theorem storeElement {id : Nat} {c : Copy} {i : Nat} {bs : List Byte} : (s.storeElement id c i bs).Wf := by
  unfold State.storeElement
  split
  · dsimp only
    split
    · next hq => exact (h.readyMain_eq hq).writeElement.landElement
    · next hq =>
      have ht := h.readyMain_eq hq
      exact ht
    · next hq => exact (h.readyMain_eq hq).failCopy
  · dsimp only
    split
    · exact h.writeElement.landElement
    · exact h.writeElement

theorem stepCopy {copy elem : Nat} : (s.stepCopy copy elem).Wf := by
  unfold State.stepCopy
  split
  · exact h
  split
  · exact h
  split
  · exact h.storeElement
  split
  · dsimp only
    split
    · next hq =>
      have ht := h.readyMain_eq hq
      exact State.Wf.ite ht.askPeers.failCopy ht.askPeers.storeElement
    · next hq =>
      have ht := h.readyMain_eq hq
      exact ht
    · next hq => exact (h.readyMain_eq hq).failCopy
  · split
    · dsimp only
      split_ifs
      · exact h.failCopy
      · exact h
      · exact h.failCopy
      · exact h.storeElement
    · exact h

/-! ## Far atomics -/

theorem failFarAt {id : Nat} {r : FarReq} {code : Code} {info : Nat} : (s.failFarAt id r code info).Wf := by
  unfold State.failFarAt
  extract_lets s1
  have h1 : s1.Wf := h
  clear_value s1
  refine State.Wf.reap ?_
  split
  · split
    · exact h1.trapWaiter
    · exact h1
  · exact h1

theorem failFar {id : Nat} {r : FarReq} {code : Code} : (s.failFar id r code).Wf := h.failFarAt

theorem farStage {id : Nat} {st : FarStage} {x : Option Nat} : (s.farStage id st x).Wf := h

theorem farRow3 {id : Nat} {r : FarReq} : (s.farRow3 id r).Wf := by
  unfold State.farRow3
  split
  · exact h.dutyCall (row := 3)
  · exact h.failFar

theorem sendFar {id : Nat} {r : FarReq} : (s.sendFar id r).Wf := by
  unfold State.sendFar
  split
  · next hq =>
    have ht := h.readyMain_eq hq
    exact State.Wf.ite ht.farRow3 ht.askPeers.farStage
  · next hq => exact (h.readyMain_eq hq).farStage
  · next hq => exact (h.readyMain_eq hq).failFarAt

theorem farForm {op : AtomOp} {vd : BitVec 7} {pr : BitVec 5} {la : Nat} {sz : BitVec 1} :
    (s.farForm op vd pr la sz).Wf := by
  unfold State.farForm
  extract_lets wide w cas n va l
  refine h.guarded ?_
  dsimp only
  split
  · exact h.codeTrap ‹_›
  split
  · exact h.codeTrap ‹_›
  · refine h.outwardActive.lanewise fun _ _ _ ht => ht.drained fun t hw => ?_
    split
    · exact hw
    · refine State.Wf.sendFar (State.Wf.park ?_)
      exact hw

theorem restartThread {c tid : Nat} : (s.restartThread c tid).Wf := by
  unfold State.restartThread
  split
  · exact h
  split
  · exact h
  · extract_lets live t
    have ht : t.Wf := by
      refine State.Wf.freeOthers (h.modThread fun th hth => ?_)
      exact hth
    clear_value t
    split
    · exact ht
    · exact ht.free.consumeError

theorem returnFar {id : Nat} {r : FarReq} {old : Nat} : (s.returnFar id r old).Wf := by
  unfold State.returnFar
  extract_lets s1
  have h1 : s1.Wf := h
  clear_value s1
  split
  · exact h1
  split
  · exact h1.reap
  · refine State.Wf.reap ?_
    split
    · exact h1.release.closeRegion.restartThread
    · exact h1.release.closeRegion

/-! ## Matrix operations -/

theorem mxGuarded {l : Legality} {body : State → State} (hb : (body s).Wf) : (s.mxGuarded l body).Wf := by
  refine h.guarded ?_
  split
  · exact h.consume
  · exact hb

theorem roleTrap {bad : Bool} {code : Code} {info : Nat} {t : State} (ht : s.roleTrap bad code info = some t) : t.Wf :=
  h.laneTrap ht

end State.Wf

/-- A chain of checks: the trap of the first that fails, or what follows them. -/
theorem orElse_wf {checks : List (Option State)} {go : State} (hc : ∀ o ∈ checks, ∀ t, o = some t → t.Wf) (hg : go.Wf) :
    (orElse checks go).Wf := by
  unfold orElse
  split
  · next t ht =>
    obtain ⟨o, ho, hot⟩ := List.exists_of_findSome?_eq_some ht
    exact hc o ho t hot
  · exact hg

namespace State.Wf

variable {s : State} (h : s.Wf)
include h

theorem mmaLane {w : MmaWord} {n tid : Nat} {th : Thread} : (s.mmaLane w n tid th).Wf := by
  unfold State.mmaLane
  split
  · exact h
  extract_lets tb
  split
  · exact h.park
  split
  · exact h.park
  extract_lets other
  split
  · exact h.park
  refine h.drained fun t ht => ?_
  refine State.Wf.sign (State.Wf.closeRegion (State.Wf.finishLane ?_))
  exact ht.modUnit fun _ hu => hu.modLease

theorem mma {w : MmaWord} : (s.mma w).Wf := by
  refine h.mxGuarded ?_
  split
  · exact h
  split
  · refine orElse_wf ?_ h.completeNone
    simp only [List.mem_singleton, forall_eq]
    exact fun _ ht => h.roleTrap ht
  · refine orElse_wf ?_ ?_
    · simp only [List.forall_mem_cons, List.not_mem_nil, IsEmpty.forall_iff, implies_true, and_true]
      exact ⟨fun _ ht => h.roleTrap ht, fun _ ht => h.roleTrap ht, fun _ ht => h.roleTrap ht, fun _ ht => h.roleTrap ht,
        fun _ ht => h.roleTrap ht, fun _ ht => h.memberTrap ht, fun _ ht => h.codeTrap ht⟩
    · split
      · exact h.consume
      · exact h.outwardActive.lanewise fun _ _ _ ht => ht.mmaLane

end State.Wf

end Sys2Proof.Machine
end

section
/-! SUPPORT. Leases, save areas, collectives, gangs, power, fetches and queues keep the canonical form. -/

namespace Sys2Proof.Machine

open Sys2Proof

namespace State.Wf

section
variable {s : State} (h : s.Wf)
include h

/-! ## Leases and reservations -/

theorem closeLane {tid : Nat} : (s.closeLane tid).Wf := h.finishLane.closeRegion

theorem leaseLane {vd va : BitVec 7} {la tid : Nat} {th : Thread} : (s.leaseLane vd va la tid th).Wf := by
  unfold State.leaseLane
  split
  · exact h
  · extract_lets done
    have hdone : ∀ (t : State) u l, t.Wf → (done t u l).Wf := fun _ _ _ ht => ht.finishLane.closeRegion
    clear_value done
    split
    · exact hdone _ _ _ h
    · split
      · exact h.park
      · exact hdone _ _ _ (h.modUnit fun _ hu => hu)

theorem releaseLane {tid : Nat} {th : Thread} : (s.releaseLane tid th).Wf := by
  unfold State.releaseLane
  split
  · exact h
  · extract_lets done
    have hdone : ∀ t : State, t.Wf → (done t).Wf := fun _ ht => ht.finishLane.closeRegion
    clear_value done
    split
    · exact hdone _ h
    · split
      · exact h.park
      · refine hdone _ (State.Wf.modUnit ?_ fun _ hu => hu.dropLease)
        split
        · split
          · exact h.log
          · exact h.modCrew fun _ hc => hc
        · exact h

theorem resvLane {k rec0 tid : Nat} : (s.resvLane k rec0 tid).Wf := by
  unfold State.resvLane
  split
  · exact h
  split
  · exact h.closeLane
  extract_lets v cluster u
  split
  · exact h.park
  split
  · exact h.park
  · refine State.Wf.closeLane (h.modUnit fun u hu => ?_)
    exact hu.putRes Memory.wf_nil

theorem parkActive {w : Thread → Wait} : (s.parkActive w).Wf := h.foldl fun _ _ ht => ht.park

/-! ## Save areas -/

theorem systemForm {os : List Opnd} {body : State → State} (hb : ∀ t, t.Wf → (body t).Wf) :
    (s.systemForm os body).Wf := by
  refine h.mxGuarded (orElse_wf ?_ (hb _ h))
  simp only [List.mem_singleton, forall_eq]
  exact fun _ ht => h.roleTrap ht

theorem systemLanes {f : State → Lane → Thread → State} (hf : ∀ t l th, t.Wf → (f t l th).Wf) : (s.systemLanes f).Wf :=
  h.outwardActive.lanewise hf

theorem writeSave {off : Nat} {bs : List Byte} {bad : List Nat} : (s.writeSave off bs bad).Wf :=
  h.modCrew fun _ hc => { hc with saveArea := hc.saveArea.writeImage }

theorem saveForm {va : BitVec 7} {slot unit : Nat} {len : SysLane → Nat} {bad : SysLane → Option Nat}
    {go : State → SysLane → State} (hgo : ∀ t x, t.Wf → (go t x).Wf) : (s.saveForm va slot unit len bad go).Wf :=
  h.systemForm fun t ht => by
    extract_lets view holds
    clear_value view holds
    refine orElse_wf ?_ (ht.systemLanes fun u _ _ hu => ?_)
    · simp only [List.forall_mem_cons, List.not_mem_nil, IsEmpty.forall_iff, implies_true, and_true]
      exact ⟨fun _ hq => ht.laneTrap hq, fun _ hq => ht.laneTrap hq, fun _ hq => ht.laneTrap hq,
        fun _ hq => ht.codeTrap hq⟩
    · split
      · exact hu
      · exact (hgo _ _ hu).finishLane

theorem fillLease {c die cluster half unit slot : Nat} {bs : List Byte} {bad : List Nat} :
    (s.fillLease c die cluster half unit slot bs bad).Wf := by
  unfold State.fillLease
  extract_lets hd need s1 tl
  have h1 : s1.Wf := h.modUnit fun _ hu => MatrixUnit.Wf.passRights hu
  split
  · exact h
  · exact h1.modCrew fun _ hc => hc

theorem fillRes {c die cluster unit slot : Nat} {bs : List Byte} {bad : List Nat} :
    (s.fillRes c die cluster unit slot bs bad).Wf := by
  unfold State.fillRes
  split
  · exact h
  · exact h.modUnit fun _ hu => hu.putRes (resOfImage_wf _ _ _ _)

theorem poisonRole {c role unit : Nat} : (s.poisonRole c role unit).Wf :=
  h.modThreads fun _ _ ht => by split <;> exact ht

/-! ## Collectives -/

theorem groupTrap {va : BitVec 7} {t : State} (ht : s.groupTrap va = some t) : t.Wf := by
  unfold State.groupTrap at ht
  split at ht
  · cases ht
  · split at ht
    · next hq => cases ht; exact h.laneTrap hq
    · exact h.laneTrap ht

theorem putUnit {o : ColOp} {unit : Nat} {bs : List Byte} : (s.putUnit o unit bs).Wf := by
  unfold State.putUnit
  split
  · exact h.writeShared
  · split
    · exact h.modCrew fun _ hc => { hc with window := hc.window.write }
    · exact h.modLaunch fun _ hl => hl.modWin fun _ hw => hw.write
  · exact h

theorem sendUnits {o : ColOp} : (s.sendUnits o).Wf := by
  unfold State.sendUnits
  split
  · exact h.send
  · exact h.foldl fun _ _ ht => ht.send

theorem putGroupTl {launch die off : Nat} {t : Timeline} : (s.putGroupTl launch die off t).Wf :=
  h.modLaunch fun _ hl => hl

theorem closeColOp {id : Nat} {o : ColOp} : (s.closeColOp id o).Wf := by
  refine State.Wf.putGroupTl ?_
  exact h

theorem failColOp {id : Nat} {o : ColOp} {code : Code} : (s.failColOp id o code).Wf := h.closeColOp.failLatch.reap

theorem joinGroup {cr : Crew} {kind : ColKind} {off : Nat} {g : GroupView} {b : ColBlock} {module : Nat} :
    (s.joinGroup cr kind off g b module).Wf := by
  unfold State.joinGroup
  extract_lets id o s1 s2 s3
  have h1 : s1.Wf := h
  have h3 : s3.Wf := h1.putGroupTl.armLatch
  split
  · exact h3.closeColOp
  · split
    · exact h3.failColOp
    · exact h3.sendUnits

theorem colLane {kind : ColKind} {off : Nat} {b : ColBlock} {tid : Nat} : (s.colLane kind off b tid).Wf :=
  h.drained fun _ ht => ht.withLine fun u hu => by
    split
    · extract_lets go
      have hgo : ∀ t : State, t.Wf → (go t).Wf := by
        intro t ht
        unfold go
        split
        · exact ht.park
        · exact ht.finishLane.closeRegion.joinGroup
      clear_value go
      split
      · exact hu.withLine hgo
      · exact hgo _ hu
    · exact hu

theorem colForm {kind : ColKind} {va vb : BitVec 7} : (s.colForm kind va vb).Wf := by
  unfold State.colForm
  extract_lets l
  refine h.guarded ?_
  dsimp only
  split
  · exact h
  split
  · exact h.groupTrap ‹_›
  split
  · exact h.consume
  · refine orElse_wf ?_ (h.outwardActive.lanewise fun _ _ _ ht => ht.colLane)
    simp only [List.forall_mem_cons, List.not_mem_nil, IsEmpty.forall_iff, implies_true, and_true]
    exact ⟨fun _ hq => h.codeTrap hq, fun _ hq => h.codeTrap hq, fun _ hq => h.codeTrap hq, fun _ hq => h.codeTrap hq,
      fun _ hq => h.codeTrap hq⟩

theorem countUnit {id : Nat} {o : ColOp} {unit : Nat} : (s.countUnit id o unit).Wf := by
  unfold State.countUnit
  extract_lets o'
  split
  · exact h.closeColOp.arriveBytes.reap
  · refine State.Wf.arriveBytes ?_
    exact h

theorem landUnit {id : Nat} {o : ColOp} {unit : Nat} {data : List Byte} : (s.landUnit id o unit data).Wf := by
  unfold State.landUnit
  split
  · split
    · exact h.failColOp
    · exact h.putUnit.countUnit
  · exact h.putUnit.countUnit.send

theorem abortObject {launch : Nat} {a : LateAbort} : (s.abortObject launch a).Wf := by
  unfold State.abortObject
  extract_lets late s1
  have h1 : s1.Wf := h.modLaunch fun _ hl => hl.modWin fun _ hw => hw.abortGen
  exact h1.foldl fun _ _ ht => ht.failColOp

theorem abortFlits {launch die off : Nat} {g : GroupView} : (s.abortFlits launch die off g).Wf :=
  h.foldl fun _ _ ht => ht.send

theorem abortGroup {launch : Nat} {a : LateAbort} : (s.abortGroup launch a).Wf := by
  unfold State.abortGroup
  extract_lets g
  split_ifs
  · exact h.abortObject
  · exact h
  · exact h.abortObject.abortFlits

/-! ## Gangs -/

theorem gangLane {tid : Nat} : (s.gangLane tid).Wf := by
  unfold State.gangLane
  split
  · exact h
  split
  · exact h.closeLane
  split
  · exact h.killCrew
  split
  · refine State.Wf.closeLane ?_
    exact h
  · refine h.drained fun t ht => State.Wf.park ?_
    exact ht

theorem gangMember {n member : Nat} {f : Gang → Gang} : (s.gangMember n member f).Wf := by
  unfold State.gangMember
  split
  · exact h
  · split <;> exact h

theorem failGang {n : Nat} {g : Gang} : (s.failGang n g).Wf := by
  unfold State.failGang
  extract_lets s1
  have h1 : s1.Wf := h
  split
  · exact h1
  · refine h1.foldl fun _ _ ht => ?_
    split
    · exact ht.killCrew
    · exact ht

/-! ## Power -/

theorem followCap : s.followCap.Wf := h

theorem someBallast : s.someBallast.Wf := by
  unfold State.someBallast
  split
  · refine { h with clusters := ?_ }
    dsimp only
    exact h.clusters.mapVals fun _ _ hk => hk
  · split
    · exact h
    · exact h.modCluster fun _ hk => hk

theorem settleDraw {load : Nat} : (s.settleDraw load).Wf := by
  unfold State.settleDraw
  extract_lets
  refine State.Wf.someBallast ?_
  exact h

/-! ## Fetches -/

theorem begin {c : Nat} {lanes : List Lane} {pc : Word} {alone : Bool} {seq : Nat} :
    (s.begin c lanes pc alone seq).Wf := h

theorem missAll {cluster group : Nat} : (s.missAll cluster group).Wf := h.foldl fun _ _ ht => ht.overlayMiss

theorem outsideGroup {off : Nat} : (s.outsideGroup off).Wf := h.trap

theorem withWord {w : Word} : (s.withWord w).Wf := h

end

end State.Wf

/-- The state that a fetch ends in or hands to the words it found. -/
def Fetched.state : Fetched → State
  | .run _ t => t
  | .done t => t

namespace State.Wf

section
variable {s : State} (h : s.Wf)
include h

theorem fetchBundle {cr : Crew} {cluster : Nat} : (s.fetchBundle cr cluster).state.Wf := by
  unfold State.fetchBundle
  have hused : ∀ ctx obj group, (s.modCluster cr.die cluster fun k => k.used ctx obj group).Wf :=
    fun _ _ _ => h.modCluster fun _ hk => hk.used
  extract_lets off
  split
  · exact h.missAll
  · exact h.outsideGroup
  · split
    · split
      · exact (hused _ _ _).missAll
      · exact (hused _ _ _).outsideGroup
      · exact hused _ _ _
    · exact hused _ _ _

theorem fetchLanes {c : Nat} {cr : Crew} {lanes : List Lane} {alone : Bool} {seq : Nat} :
    (s.fetchLanes c cr lanes alone seq).state.Wf := by
  unfold State.fetchLanes
  split
  · exact h
  · split
    · exact h
    · exact State.Wf.fetchBundle h.begin

theorem fetchIssue {c : Nat} {tids : List Nat} : (s.fetchIssue c tids).state.Wf := by
  unfold State.fetchIssue
  split
  · exact h
  · split
    · refine State.Wf.fetchLanes ?_
      exact h
    · exact h

theorem fetchRetry {c tid : Nat} : (s.fetchRetry c tid).state.Wf := by
  unfold State.fetchRetry
  split
  · exact h
  split
  · exact h
  split
  · exact h
  split
  · exact h
  split
  · exact h
  split
  · exact h.fetchLanes
  split
  · exact h.fetchLanes
  · exact h

/-! ## Queues -/

theorem putQueue {c q : Nat} {v : QueueView} : (s.putQueue c q v).Wf := h.putQueueHeader

theorem setHwChurn {launch die q : Nat} {on : Bool} : (s.setHwChurn launch die q on).Wf := h.modLaunch fun _ hl => hl

theorem failQueueAt {launch die q : Nat} {code : Code} {who : Option (Nat × Nat)} :
    (s.failQueueAt launch die q code who).Wf := by
  unfold State.failQueueAt
  split
  · exact h
  · extract_lets s1 v r
    have h1 : s1.Wf := h.setHwChurn
    clear_value s1
    split
    · exact h1
    · exact State.Wf.log (h1.modLaunch fun _ hl => hl.putQueueAt)

theorem failQueue {c tid q : Nat} {code : Code} : (s.failQueue c tid q code).Wf := by
  unfold State.failQueue
  split
  · exact h
  · exact h.failQueueAt

theorem joinQueue {req launch die q : Nat} {who : Nat × Nat} : (s.joinQueue req launch die q who).Wf := h

end

end State.Wf

/-- A push that answers a state answers one in the canonical form. -/
def Pushed.Wf : Pushed → Prop
  | .done t => t.Wf
  | .full => True
  | .waits t => t.Wf
  | .failed t => t.Wf

/-- A pop that answers a state answers one in the canonical form. -/
def Popped.Wf : Popped → Prop
  | .record _ t => t.Wf
  | .empty => True
  | .spilled => True

namespace State.Wf

section
variable {s : State} (h : s.Wf)
include h

theorem queuePush {c q tid rec0 : Nat} : (s.queuePush c q tid rec0).Wf := by
  unfold State.queuePush
  split
  · trivial
  · dsimp only
    split
    · exact h.writeDie.putQueue
    · split
      · split
        · exact h
        · split
          · next hq => exact (h.readyMain_eq hq).writeMain.putQueue
          · next hq => exact (h.readyMain_eq hq).joinQueue
          · next hq => exact (h.readyMain_eq hq).failQueue
      · trivial

theorem queuePop {c q : Nat} {reserve : Bool} : (s.queuePop c q reserve).Wf := by
  unfold State.queuePop
  split
  · trivial
  · dsimp only
    split
    · exact h.putQueue
    · split <;> trivial

theorem queueSettle {c q n : Nat} : (s.queueSettle c q n).Wf := by
  unfold State.queueSettle
  split
  · exact h
  · exact h.putQueue

theorem queueTrap {addr : Lane → Thread → Int} {t : State} (ht : s.queueTrap addr = some t) : t.Wf := by
  unfold State.queueTrap at ht
  split at ht
  · cases ht
  · split at ht
    · next hq => cases ht; exact h.laneTrap hq
    · exact h.laneTrap ht

theorem queueLane {tid q : Nat} {faults : Bool} {go : State → State} (hgo : ∀ t, t.Wf → (go t).Wf) :
    (s.queueLane tid q faults go).Wf :=
  h.drained fun _ ht => ht.withLine fun u hu => by
    split
    · exact hu
    · split_ifs
      · exact hu.trapLane
      · exact hu.trapLane
      · exact hgo _ hu

theorem slotLane {tid : Nat} {slot : Option Nat} {go : State → State} (hgo : ∀ t, t.Wf → (go t).Wf) :
    (s.slotLane tid slot go).Wf := by
  unfold State.slotLane
  split
  · exact h.withLine hgo
  · exact hgo _ h

theorem pushed {tid q : Nat} {p : Pushed} {nb : Bool} {after : State → State} (hp : p.Wf)
    (ha : ∀ t, t.Wf → (after t).Wf) : (s.pushed tid q p nb after).Wf := by
  unfold State.pushed
  dsimp only
  split
  · exact (ha _ hp).finishLane.closeRegion
  · split
    · exact h.finishLane.closeRegion
    · exact h.park
  · exact State.Wf.park hp
  · split
    · exact hp
    · exact State.Wf.trapLane hp

theorem qpush {va vs : BitVec 7} {nb : Bool} : (s.qpush va vs nb).Wf := by
  refine h.guarded ?_
  split
  · exact h.queueTrap ‹_›
  split
  · exact h.consume
  · exact h.outwardActive.lanewise fun _ _ _ ht => ht.queueLane fun _ hu =>
      hu.slotLane fun _ hv => hv.pushed hv.queuePush fun _ hw => hw

theorem qpop {vd va : BitVec 7} {la : Nat} {nb : Bool} : (s.qpop vd va la nb).Wf := by
  refine h.guarded ?_
  split
  · exact h.queueTrap ‹_›
  split
  · exact h.consume
  refine h.outwardActive.lanewise fun _ ln th ht => ht.queueLane fun _ hu => hu.slotLane fun v hv => ?_
  have hp := hv.queuePop (c := v.cur.crew) (q := (th.read32 va).toNat) (reserve := false)
  dsimp only
  split
  · next hq =>
    rw [hq] at hp
    exact State.Wf.closeRegion (State.Wf.finishLane hp)
  · exact hv.park
  · split
    · exact hv.finishLane.closeRegion
    · exact hv.park

/-! ## Templates and churns -/

theorem emitted {c off : Nat} {r : LaunchRecord} : (s.emitted c off r).Wf := by
  unfold State.emitted
  split
  · exact h
  · exact h.writeDie.modLaunch fun _ hl => hl

theorem emitLane {n rec0 tid : Nat} : (s.emitLane n rec0 tid).Wf :=
  h.drained fun _ ht => ht.withLine fun u hu => by
    split
    · exact hu
    · dsimp only
      split
      · exact hu.trapLane
      · split
        · next hq => exact (hu.readyMain_eq hq).park
        · next hq =>
          have hv := hu.readyMain_eq hq
          split
          · exact hv.trapLane
          · exact hv.queueLane fun _ hw => hw.slotLane fun _ hx => hx.pushed hx.queuePush fun _ hy => hy.emitted
        · next hq => exact (hu.readyMain_eq hq).trapLane

theorem appendSpilled {c q : Nat} {recs : List Nat} : (s.appendSpilled c q recs).Wf := by
  unfold State.appendSpilled
  split
  · exact h
  · exact State.Wf.putQueue (h.foldl fun _ _ ht => ht.writeDie)

end

theorem spillReady {ctx : Nat} {v : QueueView} {who : Option (Nat × Nat)} (is : List Nat) :
    ∀ {s : State}, s.Wf → (s.spillReady ctx v who is).2.Wf := by
  induction is with
  | nil => exact fun h => h
  | cons i is ih =>
    intro s h
    rw [State.spillReady]
    split
    · next hq => exact ih (h.readyMain_eq hq)
    · exact h.readyMain

theorem churnBatch {s : State} (h : s.Wf) {c : Nat} {cr : Crew} {q : Nat} : (s.churnBatch c cr q).Wf := by
  unfold State.churnBatch
  extract_lets v n idle
  have hidle : ∀ t : State, t.Wf → (idle t).Wf := fun _ ht => ht.setHwChurn
  have hr := h.spillReady (ctx := cr.ctx) (v := v) (who := some (c, 0)) (List.range n)
  clear_value idle
  split
  · next hq =>
    rw [hq] at hr
    split
    · exact (hidle _ hr).failQueue
    · exact (hidle _ hr).appendSpilled
  · next hq =>
    rw [hq] at hr
    exact hr.setHwChurn.joinQueue (launch := cr.launch)
  · next hq =>
    rw [hq] at hr
    exact (hidle _ hr).failQueue

end State.Wf

end Sys2Proof.Machine
end

section
/-! SUPPORT. Iterators keep the canonical form. -/

namespace Sys2Proof.Machine

open Sys2Proof

/-! ## Pushes -/

/-- A push of a stage that answers a state answers one in the canonical form. -/
def PushResult.Wf : PushResult → Prop
  | .pushed t => t.Wf
  | .parks => True
  | .traps _ _ => True

theorem State.Wf.pushLane {s : State} (h : s.Wf) {k kind off : Nat} {th : Thread} : (s.pushLane k kind off th).Wf := by
  unfold State.pushLane
  split
  · trivial
  dsimp only
  split
  · trivial
  split
  · trivial
  split
  · trivial
  split
  · trivial
  split
  · trivial
  · exact h.modCrew fun _ hc => hc

theorem pushLanes_wf {k kind : Nat} {off : Thread → Nat} (ls : List (Lane × Thread)) :
    ∀ {s : State}, s.Wf → (pushLanes k kind off s ls).1.Wf := by
  induction ls with
  | nil => exact fun h => h
  | cons e ls ih =>
    intro s h
    have hp := h.pushLane (k := k) (kind := kind) (off := off e.2) (th := e.2)
    rw [pushLanes]
    split
    · next hq =>
      rw [hq] at hp
      exact ih hp
    · exact h
    · exact h

theorem State.Wf.itPush {s : State} (h : s.Wf) {va : BitVec 7} {k : BitVec 3} {kind : Nat} :
    (s.itPush va k kind).Wf := by
  unfold State.itPush
  extract_lets addr
  refine h.guarded ?_
  dsimp only
  split
  · exact h.addressTrap ‹_›
  split
  · exact h.consume
  · have hx := pushLanes_wf (k := k.toNat) (kind := kind) (off := fun th => (th.read32 va).toNat)
      s.outwardActive.activeLanes
      h.outwardActive
    split
    · exact hx.trap
    · exact (hx.skipInactive.foldl fun _ _ ht => ht.finishLane.closeRegion).foldl fun _ _ ht => ht.park

/-! ## Pulls: only the machine's own state counts -/

@[reducible] def ItPull.Wf (x : ItPull) : Prop := x.s.Wf

/-- What the second part of an answer is known to keep, of the answer's pull. -/
theorem ItPull.Wf.of_eq {α : Type} {q : α × ItPull} {a : α} {y : ItPull} (h : q.2.Wf) (hq : q = (a, y)) : y.Wf := by
  rw [hq] at h
  exact h

namespace ItPull.Wf

section
variable {x : ItPull} (h : x.Wf)
include h

theorem mod {d : Nat} {f : Stage → Stage} : (x.mod d f).Wf := h

theorem set {d hi lo v : Nat} : (x.set d hi lo v).Wf := h

theorem hold {d : Nat} {e : Option Elem} : (x.hold d e).Wf := h

theorem spend : x.spend.Wf := h

theorem read {d a n : Nat} : (x.read d a n).2.Wf := by
  unfold ItPull.read
  split
  · exact h
  split
  · split
    · exact h
    · split <;> exact h
  · split
    · exact h
    split
    · next hq =>
      dsimp only
      split <;> exact State.Wf.readyMain_eq h hq
    · next hq => exact State.Wf.readyMain_eq h hq
    · next hq => exact State.Wf.readyMain_eq h hq

theorem settle {o : Nat} : (x.settle o).Wf := by
  unfold ItPull.settle
  extract_lets st
  split
  · exact h
  · exact State.Wf.queueSettle h

theorem dropped {e : Elem} : (x.dropped e).Wf := by
  unfold ItPull.dropped
  split
  · exact h
  · split
    · exact h
    · exact h.settle

theorem range {d lo cur : Nat} : (x.range d lo cur).2.Wf := by
  unfold ItPull.range
  split
  · exact h
  · dsimp only
    split <;> exact h

theorem list {d base cur : Nat} : (x.list d base cur).2.Wf := by
  unfold ItPull.list
  extract_lets r ix
  split
  · exact h
  split
  · exact h
  split
  · next hq =>
      have hy := h.read.of_eq hq
      exact hy
  · next hq =>
      have hy := h.read.of_eq hq
      exact hy

end

theorem bits {d : Nat} (n : Nat) : ∀ {x : ItPull}, x.Wf → (x.bits d n).2.Wf := by
  induction n with
  | zero => exact fun h => h
  | succ n ih =>
    intro x h
    rw [ItPull.bits]
    split
    · exact h
    split
    · exact h
    split
    · next hq =>
        have hy := h.read.of_eq hq
        exact hy
    · next hq =>
      have hy := h.read.of_eq hq
      split
      · exact hy
      · exact ih hy

section
variable {x : ItPull} (h : x.Wf)
include h

theorem queue {d : Nat} : (x.queue d).2.Wf := by
  unfold ItPull.queue
  extract_lets r q n taken
  have hp := State.Wf.queuePop h (c := x.crew) (q := q) (reserve := true)
  split
  · exact h
  split
  · exact h
  split
  · exact h
  split
  · exact h
  split
  · exact h
  split
  · exact h
  · exact h
  · next hq =>
    rw [hq] at hp
    exact hp

theorem map {d : Nat} {e : Elem} : (x.map d e).2.Wf := by
  unfold ItPull.map
  extract_lets r f lookup
  have hl : ∀ n out, (lookup n out).2.Wf := by
    intro n out
    unfold lookup
    split
    · exact h
    · split
      · next hq =>
          have hy := h.read.of_eq hq
          exact hy
      · next hq =>
          have hy := h.read.of_eq hq
          exact hy
  clear_value lookup
  split
  · exact h
  · exact hl _ _
  · exact hl _ _
  · exact h

theorem test {d : Nat} {e : Elem} : (x.test d e).2.Wf := by
  unfold ItPull.test
  extract_lets r f
  split
  · exact h
  · exact h
  split
  · exact h
  split
  · next hq =>
      have hy := h.read.of_eq hq
      exact hy
  · next hq =>
      have hy := h.read.of_eq hq
      exact hy

theorem second {d : Nat} : (x.second d).2.Wf := by
  unfold ItPull.second
  split
  · exact h.range
  · exact h.list

theorem expand {d : Nat} {e : Elem} : (x.expand d e).2.Wf := by
  unfold ItPull.expand
  extract_lets r f a
  split
  · exact h
  split
  · next hq =>
      have hy := h.read.of_eq hq
      exact hy
  · next y hq =>
    have hy : y.Wf := h.read.of_eq hq
    have hz : ItPull.Wf { y with trips := x.trips } := hy
    split
    · next hq2 =>
      have hw := hz.read.of_eq hq2
      exact hw
    · next hq2 =>
      have hw := hz.read.of_eq hq2
      exact hw

theorem close {d : Nat} {a : Asked} : (x.close d a).2.Wf := by
  unfold ItPull.close
  split <;> exact h

theorem adapt {d : Nat} {e : Elem} : (x.adapt d e).2.Wf := by
  unfold ItPull.adapt
  split
  · exact h.map
  · split
    · next hq =>
        have hy := h.test.of_eq hq
        exact hy
    · next hq => exact ((h.test.of_eq hq).hold (d := d) (e := none)).dropped
    · next hq =>
        have hy := h.test.of_eq hq
        exact hy
  · split
    · next hq =>
        have hy := h.second.of_eq hq
        exact hy
    · next hq => exact ((h.second.of_eq hq).hold (d := d) (e := none)).dropped.close
    · next hq =>
        have hy := h.second.of_eq hq
        exact hy
  · exact h.expand

theorem expansion {d : Nat} {e : Elem} : (x.expansion d e).2.Wf := by
  unfold ItPull.expansion
  extract_lets r j
  split
  · split <;> exact h
  · refine ItPull.Wf.dropped ?_
    exact h

theorem passReady {d : Nat} {e : Elem} : (x.passReady d e).2.Wf := by
  unfold ItPull.passReady
  extract_lets k
  split
  · split <;> exact h
  · exact h

theorem source {d : Nat} : (x.source d).2.Wf := by
  unfold ItPull.source
  split
  · exact h
  · refine ItPull.Wf.close ?_
    split
    · exact h.range
    · exact h.list
    · exact h.bits _
    · exact h.queue
    · exact h.second

end

theorem ask (n : Nat) : ∀ {x : ItPull} {d : Nat}, x.Wf → (x.ask d n).2.Wf := by
  induction n with
  | zero => exact fun h => h
  | succ n ih =>
    intro x d h
    rw [ItPull.ask]
    extract_lets step
    have hstep : step.2.Wf := by
      unfold step
      split
      · split
        · exact h.expansion
        · exact h.adapt
      · split
        · next hq =>
          have hy := (ih h).of_eq hq
          exact hy.adapt
        · next hq =>
          have hy := (ih h).of_eq hq
          exact hy.close
    clear_value step
    split
    · exact h.passReady
    split
    · exact h
    split
    · exact h.source
    split
    · split
      · next hq =>
        have hy := (ih h).of_eq hq
        exact ih hy
      · exact ih h
    · split
      · exact ih hstep
      · exact hstep
theorem land {x : ItPull} (h : x.Wf) {d : Nat} : (x.land d).2.Wf := by
  unfold ItPull.land
  extract_lets st r
  have hr : r.2.Wf := by
    unfold r
    split
    · exact h.source
    · split
      · exact h.adapt
      · exact h
  clear_value r
  split
  · exact hr
  · exact hr
  · exact hr

theorem work (n : Nat) : ∀ {x : ItPull} {ended : Bool}, x.Wf → (x.work ended n).2.2.Wf := by
  induction n with
  | zero => exact fun h => h
  | succ n ih =>
    intro x ended h
    rw [ItPull.work]
    have hask := ItPull.Wf.ask (pullFuel x) (d := x.stages.length - 1) h
    split
    · exact ih h
    split
    · exact h
    · generalize x.ask (x.stages.length - 1) (pullFuel x) = q at hask ⊢
      obtain ⟨a, y⟩ := q
      cases a with
      | elem e => exact ih hask
      | _ => exact hask

section
variable {x : ItPull} (h : x.Wf)
include h

theorem put {k : Nat} {st st' : ItStack} {delivers : Bool} : (x.put k st st' delivers).Wf :=
  State.Wf.modCrew h fun cr hc => by
    dsimp only
    split
    · exact Crew.Wf.outward hc
    · exact hc

theorem deliver {k : Nat} {st : ItStack} {ended : Bool} {p : Pull} {finish : State → Nat → Results → State}
    (hf : ∀ t tid rs, t.Wf → (finish t tid rs).Wf) : (x.deliver k st ended p finish).Wf := by
  unfold ItPull.deliver
  extract_lets es x1 st' s1
  have h1 : x1.Wf := by
    refine List.foldlRecOn (motive := ItPull.Wf) _ _ ?_ fun y hy e _ => ?_
    · exact h
    · split
      · exact hy.settle
      · exact hy
  have h2 : State.Wf s1 := h1.put
  refine h2.foldl fun _ _ ht => ?_
  split
  · exact ht
  · exact (hf _ _ _ ht).closeRegion

theorem failed {k : Nat} {st : ItStack} {ended : Bool} {code : Code} : (x.failed k st ended code).Wf := h.put

theorem parked {k : Nat} {st : ItStack} {ended : Bool} {p : Pull} {w : Option Pause} : (x.parked k st ended p w).Wf :=
  h.put

end

end ItPull.Wf

/-! ## Stacks -/

namespace State.Wf

section
variable {s : State} (h : s.Wf)
include h

theorem runPull {c : Nat} {st : ItStack} {p : Pull} {trips : Nat} : (s.runPull c st p trips).2.2.Wf :=
  ItPull.Wf.work _ h

theorem runPull_eq {c : Nat} {st : ItStack} {p : Pull} {trips : Nat} {r : PullEnd} {ended : Bool} {x : ItPull}
    (hq : s.runPull c st p trips = (r, ended, x)) : x.Wf := by
  have := h.runPull (c := c) (st := st) (p := p) (trips := trips)
  rwa [hq] at this

theorem putStack {c k : Nat} {f : Crew → ItStack} : (s.modCrew c fun cr => cr.putStack k (f cr)).Wf :=
  h.modCrew fun _ hc => hc

theorem startPull {c k : Nat} {st : ItStack} {p : Pull} : (s.startPull c k st p).Wf := by
  unfold State.startPull
  split
  · next hq =>
    refine ItPull.Wf.deliver ?_ fun _ _ _ ht => ht.finishLane
    exact (h.runPull_eq hq).skipInactive
  · next hq =>
    have hx := h.runPull_eq hq
    exact (State.Wf.skipInactive hx.parked).foldl fun _ _ ht => ht.park
  · next hq =>
    have hx := h.runPull_eq hq
    exact State.Wf.trap hx.failed
  · next hq =>
    have hx := h.runPull_eq hq
    exact State.Wf.consume hx.put

theorem dropFlight {c k : Nat} {st : ItStack} {code : Code} : (s.dropFlight c k st code).Wf := h.putStack

theorem landPull {c k : Nat} {st : ItStack} {w : Pause} : (s.landPull c k st w).Wf := by
  unfold State.landPull
  extract_lets x
  have hl : (x.land w.depth).2.Wf := ItPull.Wf.land h
  clear_value x
  split
  · exact h.dropFlight
  split
  · next hq => exact (hl.of_eq hq).put
  · next hq => exact State.Wf.dropFlight (hl.of_eq hq)
  · next hq => exact State.Wf.dropFlight (hl.of_eq hq)
  · next hq => exact (hl.of_eq hq).put

theorem resumePull {crew stack : Nat} : (s.resumePull crew stack).Wf := by
  unfold State.resumePull
  split
  · exact h
  split
  · exact h
  split
  · exact h
  · split
    · exact h
    · exact h.landPull
  · split
    · exact h
    extract_lets fail
    have hfail : ∀ (x : ItPull) ended code info, x.Wf → (fail x ended code info).Wf :=
      fun _ _ _ _ hx => State.Wf.foldl hx.failed fun _ _ ht => ht.trapWaiter
    clear_value fail
    split
    · exact hfail _ _ _ _ h
    split
    · next hq => exact (h.runPull_eq hq).deliver fun _ _ _ ht => ht.release
    · next hq => exact (h.runPull_eq hq).parked
    · next hq => exact hfail _ _ _ _ (h.runPull_eq hq)
    · next hq => exact State.Wf.consumeError (h.runPull_eq hq).parked

theorem restartThreads {c : Nat} {tids : List Nat} :
    (tids.foldl (fun (t : State) tid => t.restartThread c tid) s).Wf := h.foldl fun _ _ ht => ht.restartThread

theorem abandonPull {c k : Nat} : (s.abandonPull c k).Wf := by
  unfold State.abandonPull
  split
  · exact h
  split
  · exact h
  · exact State.Wf.restartThreads h.putStack

theorem enough {c k : Nat} {st : ItStack} : (s.enough c k st).Wf := h.returnStack.putStack

theorem stackForm {k : Nat} {missing : Option Nat} {act : State → ItStack → State}
    (ha : ∀ t st, t.Wf → (act t st).Wf) : (s.stackForm k missing act).Wf := by
  refine h.guarded ?_
  split
  · exact h
  refine orElse_wf ?_ (h.outwardActive.lanewise fun t _ _ ht => ?_)
  · simp only [List.mem_singleton, forall_eq]
    split
    · exact fun _ hq => h.roleTrap hq
    · exact fun _ hq => nomatch hq
  · dsimp only
    split
    · exact ht.finishLane.closeRegion
    · split
      · exact ht.park
      · exact (ha _ _ ht).finishLane.closeRegion

end

/-- A save settles a stack by one request after another. -/
theorem settleStack {c k : Nat} (n : Nat) : ∀ {s : State}, s.Wf → (s.settleStack c k n).Wf := by
  induction n with
  | zero => exact fun h => h
  | succ n ih =>
    intro s h
    -- The request's fuel is a literal: deriving the function's equation would run it, so its body is named by its
    -- shape.
    change State.Wf (match (s.crew? c).bind (fun cr => cr.stack? k) with | none => s | some st => _)
    split
    · exact h
    · next st _ =>
      split
      · exact h
      · have hv : ItPull.Wf { st.puller s c 0 [] 8 64 with settling := true } := h
        generalize ({ st.puller s c 0 [] 8 64 with settling := true } : ItPull) = v at hv ⊢
        have hx := ItPull.Wf.ask (pullFuel v) (d := st.stages.length - 1) hv
        extract_lets x
        generalize v.ask (st.stages.length - 1) (pullFuel v) = q at hx ⊢
        obtain ⟨a, y⟩ := q
        cases a with
        | elem e => exact ih (State.Wf.putStack hx)
        | fails code info => exact hx.failed
        | poison code info => exact hx.failed
        | _ => exact State.Wf.putStack hx

theorem settleStacks {s : State} (h : s.Wf) {c : Nat} : (s.settleStacks c).Wf := by
  unfold State.settleStacks
  split
  · exact h
  · exact h.foldl fun _ _ ht => ht.settleStack _

end State.Wf

end Sys2Proof.Machine
end

section
/-! SUPPORT. Translations, errors, rollback, upsets and the start of crews keep the canonical form. -/

namespace Sys2Proof.Machine

open Sys2Proof

namespace State.Wf

section
variable {s : State} (h : s.Wf)
include h

/-! ## Translation requests -/

theorem unlinkXlate {r : Nat} : (s.unlinkXlate r).Wf := by
  unfold State.unlinkXlate
  refine { h with fns := ?_, clusters := ?_, crews := ?_ }
  all_goals dsimp only
  · exact h.fns.mapVals fun _ _ hf => hf
  · exact h.clusters.mapVals fun _ _ hk => hk
  · exact h.crews.mapVals fun _ _ hc => hc

theorem resendFars {r : Nat} : (s.resendFars r).Wf :=
  h.foldl fun _ _ ht => by
    split
    · exact ht.sendFar
    · exact ht

theorem xlateServed {r : Nat} : (s.xlateServed r).Wf := by
  refine State.Wf.resendFars (State.Wf.unlinkXlate ?_)
  exact h

theorem emitUnread {c tid : Nat} {th : Thread} : (s.emitUnread c tid th).Wf := h.trapWaiter

theorem failElems {r page : Nat} : (s.failElems r page).Wf :=
  h.foldl fun _ _ ht => by
    split
    · exact ht.endElem
    · exact ht

theorem failStalled {r page : Nat} : (s.failStalled r page).Wf :=
  h.foldl fun _ _ ht => by
    split
    · split
      · exact ht.failCopy
      · exact ht
    · exact ht

theorem failFetches {r : Nat} : (s.failFetches r).Wf :=
  h.foldl fun _ _ ht => ht.foldl fun _ _ hu => by
    split
    · exact hu.fetchFailed
    · exact hu

theorem failPulls {r : Nat} : (s.failPulls r).Wf := by
  unfold State.failPulls
  extract_lets t
  have ht : t.Wf := by
    refine { h with crews := ?_ }
    unfold t
    dsimp only
    exact h.crews.mapVals fun _ _ hc => hc
  refine ht.foldl fun _ _ hu => hu.foldl fun _ _ hv => ?_
  split
  · exact hv.resumePull
  · exact hv

theorem failFars {r : Nat} : (s.failFars r).Wf :=
  h.foldl fun _ _ ht => by
    split
    · exact ht.failFar
    · exact ht

theorem failEmits {r : Nat} : (s.failEmits r).Wf :=
  h.foldl fun _ _ ht => ht.foldl fun _ _ hu => by
    split
    · exact hu.emitUnread
    · exact hu

theorem failRecords {r : Nat} : (s.failRecords r).Wf := by
  unfold State.failRecords
  refine { h with fns := ?_ }
  dsimp only
  exact h.fns.mapVals fun _ _ hf => hf

theorem xlateUnresolved {r : Nat} : (s.xlateUnresolved r).Wf := by
  unfold State.xlateUnresolved
  split
  · exact h
  · extract_lets s1 s2 s3
    have h1 : s1.Wf := h
    have h2 : s2.Wf := h1.failRecords.failFars.failElems.failStalled.failFetches.failPulls
    have h3 : s3.Wf := h2.failEmits.foldl fun _ _ ht => ht.failQueueAt
    exact h3

theorem retryAts {r : Nat} {req : XlateReq} : (s.retryAts r req).Wf := h

/-! ## Preemption, rollback and consumed errors -/

theorem preempt {c tid : Nat} : (s.preempt c tid).Wf := by
  unfold State.preempt
  split
  · exact h
  split
  · exact h
  split
  · split
    · split
      · refine State.Wf.restartThread ?_
        exact h
      · exact h
    · exact h.restartThread
  · exact h.abandonPull
  · exact h.restartThread

theorem settleCrew {c : Nat} : (s.settleCrew c).Wf := by
  unfold State.settleCrew
  split
  · exact h
  · extract_lets s1
    have h1 : s1.Wf := h.modCrew fun _ hc => hc
    exact h1.foldl fun _ _ ht => ht.preempt

theorem rollBack {c : Nat} {r : Reserve} (hr : r.Wf) : (s.rollBack c r).Wf :=
  State.Wf.foldl (h.modCrew fun _ hc => hc.rollBack hr) fun _ _ ht => ht.restartThread

theorem logConsumed {c : Nat} {cr : Crew} {code : Code} {info addr : Nat} : (s.logConsumed c cr code info addr).Wf := by
  unfold State.logConsumed
  split
  · exact h
  · exact h.logRecord.modCrew fun _ hc => hc

theorem settleRecord {cr : Crew} {code : Code} {info addr action : Nat} :
    (s.settleRecord cr code info addr action).Wf := h.modContext fun _ hx => hx

theorem decideCrew {c : Nat} {wanted : Bool} : (s.decideCrew c wanted).Wf := by
  unfold State.decideCrew
  split
  · exact h
  · next cr hc =>
    have hcr : cr.Wf := h.crew hc
    split
    · exact h
    · extract_lets s1
      have h1 : s1.Wf := h.logConsumed
      clear_value s1
      split
      · next r hr =>
        have hr' : r.Wf := by
          split at hr
          · exact hcr.reserve r hr
          · cases hr
        exact h1.settleRecord.rollBack hr'
      · exact h1.settleRecord.endKilled

theorem consumedDrained {c : Nat} {cr : Crew} {code : Code} {info addr : Nat} :
    (s.consumedDrained c cr code info addr).Wf := by
  unfold State.consumedDrained
  extract_lets s1
  have h1 : s1.Wf := h.logConsumed
  clear_value s1
  split_ifs
  · exact h1
  · exact h1.dutyCall
  · exact h1.decideCrew
  · exact h1.decideCrew

theorem disagree {c : Nat} {tids : List Nat} : (s.disagree c tids).Wf := by
  unfold State.disagree
  split
  · exact h
  · extract_lets lanes threads
    split
    · exact h.consumeError
    · refine h.foldl fun _ _ ht => State.Wf.restartThread (ht.modThread fun th hth => ?_)
      exact hth

/-! ## Upsets and slips -/

theorem poisonMain {l : List Nat} : State.Wf { s with mainPoison := l } := h

theorem upset {p : UpsetPlace} : (s.upset p).Wf := by
  cases p with
  | laneReg c t r => exact h.modThread fun _ ht => ht
  | uniformReg c r g => exact h.modCrew fun _ hc => hc
  | shared c a => exact h.modCrew fun _ hc => hc
  | crewDie c a => exact h.modCrew fun _ hc => { hc with window := hc.window }
  | launchDie l d a => exact h.modLaunch fun _ hl => hl.modWin fun _ hw => hw
  | slotWord c t k => exact h.modThread fun _ ht => ht
  | stackByte c t a => exact h.modThread fun _ ht => ht
  | tileWord c k w => exact h.modTile fun _ ht => ht
  | acc d k u l e => exact h.modUnit fun _ hu => hu.modLease
  | reservation d k u r a => exact h.modUnit fun _ hu => hu.modRes fun _ hr => hr
  | main a => exact h.poisonMain
  | reserve c => exact h.modCrew fun _ hc => hc.modReserve fun _ hr => hr

theorem slipCrew {c : Nat} {f : Crew → Crew} (hf : ∀ cr, cr.Wf → (f cr).Wf) : (s.slipCrew c f).Wf :=
  h.modCrew fun cr hc => by
    split
    · exact hc
    · exact hf cr hc

theorem slipThread {c t : Nat} {f : Thread → Thread} (hf : ∀ th, th.Wf → (f th).Wf) :
    (s.slipCrew c fun cr => cr.modThread t f).Wf := h.slipCrew fun _ hc => hc.modThread hf

theorem modLease {die cluster unit slot : Nat} {f : Lease → Lease} : (s.modLease die cluster unit slot f).Wf :=
  h.modUnit fun _ hu => hu.modLease

theorem slip {p : SlipPlace} : (s.slip p).Wf := by
  cases p with
  | laneReg c t r v => exact h.slipThread fun _ ht => ht
  | predicate c t v => exact h.slipThread fun _ ht => ht
  | uniformReg c r g v => exact h.slipCrew fun _ hc => hc
  | window c t i v => exact h.slipThread fun _ ht => ht
  | claimRow d k u l r v => exact h.modLease
  | keptRow d k u l r v => exact h.modLease
  | cursor c k d r => exact h.modCrew fun _ hc => hc
  | stackByte c t a v => exact h.modThread fun _ ht => Memory.wf_write _ _ _ ht
  | slotWord c t k v => exact h.modThread fun _ ht => ht
  | reservation d k u l a v => exact h.modUnit fun _ hu => hu.modRes fun _ hr => Memory.wf_write _ _ _ hr
  | acc d k u l e v => exact h.modUnit fun _ hu => hu.modLease
  | element c k i x y => exact h.modCrew fun _ hc => hc
  | shared c a v => exact h.modCrew fun _ hc => { hc with shared := Memory.wf_write _ _ _ hc.shared }
  | crewDie c a v => exact h.modCrew fun _ hc => { hc with window := Memory.wf_write _ _ _ hc.window }
  | launchDie l d a v => exact h.modLaunch fun _ hl => hl.modWin fun _ hw => Memory.wf_write _ _ _ hw
  | tile c k a v => exact h.modTile fun _ ht => Memory.wf_write _ _ _ ht
  | main a v => exact { h with devMem := Memory.wf_write _ _ _ h.devMem }

theorem opened : s.opened.Wf := h

theorem afterTest : s.afterTest.Wf := by
  unfold State.afterTest
  split
  · exact h.opened
  · exact h

/-! ## The start of crews -/

theorem putCrew {cr : Crew} (hc : cr.Wf) : (s.putCrew cr).Wf := { h with crews := h.crews.put hc }

omit h in
theorem crewAt_wf {lid : Nat} {l : Launch} {r : LaunchRecord} {index die cluster : Nat} {homes : List Nat} {e : Entry}
    {cr : Crew} (hc : s.crewAt lid l r index die cluster homes = some (e, cr)) : cr.Wf := by
  unfold State.crewAt at hc
  obtain ⟨d, -, hd⟩ := Option.map_eq_some_iff.1 hc
  cases hd
  exact Crew.start_wf _ _ _ _ _ _ _ _ _ _ _

theorem firstFit {lid : Nat} {l : Launch} {t : State} (ht : s.firstFit lid l = some t) : t.Wf := by
  unfold State.firstFit at ht
  extract_lets r homes at ht
  obtain ⟨p, -, hp⟩ := List.exists_of_findSome?_eq_some ht
  split at hp
  · cases hp
  · split at hp
    · cases hp
    · next hc =>
      split at hp
      · cases hp
        exact State.Wf.putCrew (h.modLaunch fun _ hl => hl.openWindow) (State.Wf.crewAt_wf hc)
      · cases hp

theorem advanceQueue {lid : Nat} : (s.advanceQueue lid).Wf := by
  unfold State.advanceQueue
  split
  · exact h
  · split
    · exact h.modContext fun _ hx => hx
    · exact h

theorem advanceQueues : s.advanceQueues.Wf := h.foldl fun _ _ ht => ht.advanceQueue

theorem gangStarted {lid : Nat} {l : Launch} : (s.gangStarted lid l).Wf := by
  unfold State.gangStarted
  split <;> exact h

theorem placeNext {lid : Nat} {l : Launch} {e : Entry} {cr : Crew} (hc : cr.Wf) : (s.placeNext lid l e cr).Wf := by
  refine State.Wf.putCrew (h.modLaunch fun l hl => ?_) hc
  exact hl.openWindow (die := cr.die) (size := e.dieLaunch)

theorem startNext {lid : Nat} {l : Launch} {die cluster : Nat} {homes : List Nat} :
    (s.startNext lid l die cluster homes).Wf := by
  unfold State.startNext
  extract_lets r
  split
  · exact h
  · next hc =>
    split
    · refine State.Wf.advanceQueues (State.Wf.gangStarted ?_)
      exact (h.placeNext (State.Wf.crewAt_wf hc)).modContext fun _ hx => hx
    · exact h

theorem startSuccessor {lid : Nat} {l : Launch} {n : GraphNode} {v : NodeView} {b cluster : Nat} {homes : List Nat} :
    (s.startSuccessor lid l n v b cluster homes).Wf := by
  unfold State.startSuccessor
  split
  · exact h
  · next hc =>
    have hcr := State.Wf.crewAt_wf hc
    split
    · refine State.Wf.putCrew (h.modLaunch fun l hl => ?_) hcr
      exact Launch.Wf.modWin (l := l.putNode n.die n.off n.template _) hl fun _ hw => hw.write
    · exact h

theorem finishNamed {ctx n op : Nat} : (s.finishNamed ctx n op).Wf :=
  State.Wf.advanceQueues (h.modContext fun _ hx => hx)

/-! ## Saves begun -/

theorem beginSave {c : Nat} {k : SaveKind} {count : Bool} : (s.beginSave c k count).Wf := by
  unfold State.beginSave
  split
  · exact h
  · extract_lets s1 n
    have h1 : s1.Wf := by
      unfold s1
      split
      · exact h.modContext fun _ hx => hx
      · exact h
    refine State.Wf.settleCrew (h1.modCrew fun cr hc => ?_)
    exact hc

theorem evict {c : Nat} : (s.evict c).Wf := by
  unfold State.evict
  split
  · exact h
  · split
    · exact h.beginSave
    · exact h

end

end State.Wf

end Sys2Proof.Machine
end

section
/-! SUPPORT. Saves, images and their restores keep the canonical form. -/

namespace Sys2Proof.Machine

open Sys2Proof

/-- An outcome that answers a next state answers one in the canonical form. -/
def Outcome.Wf : Host.Outcome State Fault Refusal → Prop
  | .next t => t.Wf
  | .fault _ => True
  | .refused _ => True

theorem Outcome.Wf.next {o : Host.Outcome State Fault Refusal} (ho : Outcome.Wf o) {t : State} (h : o = .next t) :
    t.Wf := by
  rw [h] at ho
  exact ho

namespace State.Wf

section
variable {s : State} (h : s.Wf)
include h

/-! ## The system instructions that a save runs -/

theorem execMxFreeze {unit : BitVec 2} : Outcome.Wf (execMxFreeze unit s) :=
  h.systemForm fun _ ht => ht.systemLanes fun u ln th hu => by
    split
    · exact hu
    · next cr _ =>
      have h1 : (u.modUnit cr.die (cr.homeCluster th) unit.toNat fun m => { m with frozen := true }).Wf :=
        hu.modUnit fun _ hm => hm
      dsimp only
      split
      · exact h1.finishLane
      · exact h1.park

theorem execMxThaw {unit : BitVec 2} : Outcome.Wf (execMxThaw unit s) :=
  h.systemForm fun _ ht => ht.systemLanes fun u ln th hu => by
    split
    · exact hu
    · refine State.Wf.finishLane (hu.modUnit fun m hm => ?_)
      exact hm

theorem execAccDrain {va : BitVec 7} {slot : BitVec 3} {unit : BitVec 2} : Outcome.Wf (execAccDrain va slot unit s) :=
  h.saveForm fun _ _ ht => ht.writeSave.modUnit fun _ hu => hu.dropLease

theorem execObDrain {va : BitVec 7} {slot : BitVec 5} {unit : BitVec 2} : Outcome.Wf (execObDrain va slot unit s) :=
  h.saveForm fun _ _ ht => ht.writeSave.modUnit fun _ hu => hu.dropRes

theorem execAccFill {va : BitVec 7} {slot : BitVec 3} {unit : BitVec 2} : Outcome.Wf (execAccFill va slot unit s) :=
  h.saveForm fun _ _ ht => ht.fillLease

theorem execObFill {va : BitVec 7} {slot : BitVec 5} {unit : BitVec 2} : Outcome.Wf (execObFill va slot unit s) :=
  h.saveForm fun _ _ ht => ht.fillRes

/-! ## The attendant's system thread -/

theorem runSystem {c half off : Nat} {ins : State → Host.Outcome State Fault Refusal}
    (hi : ∀ t, t.Wf → Outcome.Wf (ins t)) : (s.runSystem c half off ins).Wf := by
  unfold State.runSystem
  split
  · exact h
  next cr hcr =>
  have hc : cr.Wf := h.crew hcr
  split
  · exact h
  next th hth =>
  have hth : th.Wf := hc.system.get? hth
  extract_lets tid th' t1 t2 t3 t4
  have h1 : t1.Wf := h.modCrew fun _ hx => { hx with threads := hx.threads.put hth }
  have h2 : t2.Wf := h1
  have h3 : t3.Wf := by
    unfold t3
    split
    · next hu => exact (hi _ h2).next hu
    · exact h2
  have h4 : t4.Wf := h3.modCrew fun x hx =>
    { hx with
      threads := hx.threads.drop
      system := by
        dsimp only
        split
        · next hu => exact hx.system.put (hx.thread hu)
        · exact hx.system
      reserve := hc.reserve }
  exact h4

theorem startSystem {c half : Nat} : (s.modCrew c fun x => x.startSystem half).Wf :=
  h.modCrew fun _ hc => hc.startSystem

theorem drainSlot {c : Nat} {cr : Crew} {ku : Nat × Nat} {lease : Bool} {slot : Nat} :
    (s.drainSlot c cr ku lease slot).Wf := by
  unfold State.drainSlot
  extract_lets u n off s1 unit
  have h1 : s1.Wf := h.modCrew fun _ hc => { hc with saveArea := hc.saveArea }
  clear_value s1
  split
  · exact h1
  · refine h1.runSystem fun t ht => ?_
    split
    · exact ht.execAccDrain
    · exact ht.execObDrain

theorem drainUnit {c : Nat} {cr : Crew} {ku : Nat × Nat} : (s.drainUnit c cr ku).Wf := by
  unfold State.drainUnit
  extract_lets half unit s1 s2 s3
  have h1 : s1.Wf := h.startSystem.runSystem fun _ ht => ht.execMxFreeze
  have h2 : s2.Wf := h1.foldl fun _ _ ht => ht.drainSlot
  have h3 : s3.Wf := h2.foldl fun _ _ ht => ht.drainSlot
  clear_value s1 s3
  split
  · exact h1
  · exact State.Wf.modCrew (h3.runSystem fun _ ht => ht.execMxThaw) fun _ hc => hc

end

theorem runHandler {c : Nat} {cr : Crew} (us : List (Nat × Nat)) : ∀ {s : State}, s.Wf → (s.runHandler c cr us).Wf := by
  induction us with
  | nil => exact fun h => h
  | cons ku us ih =>
    intro s h
    rw [State.runHandler]
    split
    · exact h.drainUnit
    · exact ih h.drainUnit

section
variable {s : State} (h : s.Wf)
include h

theorem runHandlers {c : Nat} {cr : Crew} : (s.runHandlers c cr).Wf := by
  unfold State.runHandlers
  extract_lets s1
  have h1 : s1.Wf := h.foldl fun _ _ ht => ht.runHandler _
  split
  · exact h1.modCrew fun _ hc => { hc with system := Table.All.nil }
  · exact h1

theorem systemFill {c half unit : Nat} {bs : List Byte} {bad : List Nat}
    {fill : State → Host.Outcome State Fault Refusal}
    (hf : ∀ t, t.Wf → Outcome.Wf (fill t)) : (s.systemFill c half unit bs bad fill).Wf := by
  unfold State.systemFill
  extract_lets area u w s1
  have harea : area.Wf := by
    unfold area
    split
    · next hx => exact (h.crew hx).saveArea
    · exact DieWindow.empty_wf
  have hw : w.Wf := DieWindow.empty_wf.writeImage
  have h1 : s1.Wf := h.modCrew fun x hx => { hx.startSystem (half := half) with saveArea := hw }
  have h2 := ((h1.runSystem (c := c) (half := half) (off := 0) fun _ ht => ht.execMxFreeze (unit := u)).runSystem
    (c := c) (half := half) (off := 0) hf).runSystem (c := c) (half := half) (off := 0)
    fun _ ht => ht.execMxThaw (unit := u)
  exact h2.modCrew fun _ hx => { hx with system := Table.All.nil, saveArea := harea }

theorem placeLease {id die cluster half unit : Nat} {bs : List Byte} {bad : List Nat} {t : State}
    (ht : s.placeLease id die cluster half unit bs bad = some t) : t.Wf := by
  unfold State.placeLease at ht
  extract_lets hd u need at ht
  split at ht
  · split at ht
    · cases ht
      exact h.systemFill fun _ hv => hv.execAccFill
    · cases ht
  · cases ht

theorem placeRes {id die cluster half unit : Nat} {bs : List Byte} {bad : List Nat} {t : State}
    (ht : s.placeRes id die cluster half unit bs bad = some t) : t.Wf := by
  unfold State.placeRes at ht
  extract_lets u at ht
  split at ht
  · split at ht
    · cases ht
      exact h.systemFill fun _ hv => hv.execObFill
    · cases ht
  · cases ht

end

/-- A chain of placements, each of which may fail. -/
theorem foldl_bind {α : Type} {f : State → α → Option State} (hf : ∀ s a t, s.Wf → f s a = some t → t.Wf) (xs : List α)
    {o : Option State} (ho : ∀ t, o = some t → t.Wf) {t : State}
    (ht : xs.foldl (fun (t : Option State) x => t.bind fun s => f s x) o = some t) : t.Wf := by
  refine List.foldlRecOn (motive := fun o => ∀ t, o = some t → t.Wf) xs _ ho (fun o ho a _ t hot => ?_) t ht
  obtain ⟨u, hu, hut⟩ := Option.bind_eq_some_iff.1 hot
  exact hf u a t (ho u hu) hut

section
variable {s : State} (h : s.Wf)
include h

theorem fillBack {c : Nat} {cr : Crew} {t : State} (ht : s.fillBack c cr = some t) : t.Wf :=
  State.Wf.foldl_bind (fun _ _ _ hs hp => hs.placeRes hp) _
    (fun _ hu => State.Wf.foldl_bind (fun _ _ _ hs hp => hs.placeLease hp) _ (fun _ hv => by cases hv; exact h) hu) ht

theorem resumeCrew {c : Nat} {cr : Crew} {t : State} (ht : s.resumeCrew c cr = some t) : t.Wf := by
  unfold State.resumeCrew at ht
  obtain ⟨u, hu, rfl⟩ := Option.map_eq_some_iff.1 ht
  refine State.Wf.foldl ((h.fillBack hu).modCrew fun _ hc => ?_) fun _ _ hv => hv.restartThread
  exact { hc with saveArea := DieWindow.empty_wf }

theorem freeCrew {c : Nat} {cr : Crew} : (s.freeCrew c cr).Wf := by
  unfold State.freeCrew
  extract_lets s1
  have h1 : s1.Wf := h.foldl fun _ _ ht => ht.modUnit fun _ hu => hu.forgetCrew
  exact { h1 with crews := h1.crews.drop }

theorem modTaken {fn slot : Nat} {f : Taken → Taken} : (s.modTaken fn slot f).Wf := h.modFn fun _ hf => hf

theorem saveEnds {c : Nat} {cr : Crew} {code : Code} : (s.saveEnds c cr code).Wf := by
  unfold State.saveEnds
  generalize hq : State.resumeCrew _ c cr = o
  cases o with
  | none => exact h
  | some t =>
    refine State.Wf.resumeCrew ?_ hq
    split
    · exact h.recordResult
    · exact h

theorem saveDone {c : Nat} {cr : Crew} (hc : cr.Wf) {whole : Bool} {image : Option (List Byte)} :
    (s.saveDone c cr whole image).Wf :=
  h.freeCrew.modContext fun x hx v hv => by
    rcases List.mem_append.1 hv with hv | hv
    · exact hx v hv
    · rw [List.mem_singleton.1 hv]
      exact hc

theorem writeRecord {c : Nat} {cr : Crew} (hc : cr.Wf) {fn slot : Nat} {f : SaveImage} :
    (s.writeRecord c cr fn slot f).Wf := by
  unfold State.writeRecord
  split
  · exact h.saveEnds
  split
  · exact h.saveEnds
  split
  · exact h
  split
  · exact h.saveEnds
  split
  · next hq => exact ((h.readyMain_eq hq).writeMain.saveDone hc).recordResult
  · next hq => exact (h.readyMain_eq hq).modTaken
  · next hq => exact (h.readyMain_eq hq).saveEnds

theorem writeSaved {c : Nat} {cr : Crew} (hc : cr.Wf) : (s.writeSaved c cr).Wf := by
  unfold State.writeSaved
  split
  · exact h
  · split
    · exact h.writeRecord hc
    · exact h.saveDone hc

theorem sealFailed {c : Nat} {cr : Crew} : (s.sealFailed c cr).Wf := h.saveEnds

theorem imageAddr {cr : Crew} : (s.imageAddr cr).2.Wf := by
  unfold State.imageAddr
  split
  · exact h
  · exact h.free

theorem sealedWrite {c : Nat} {cr : Crew} (hc : cr.Wf) : (s.sealedWrite c cr).Wf := by
  refine State.Wf.writeSaved (h.modCrew fun x hx => ?_) hc
  exact hx

theorem sealThenWrite {c : Nat} {cr : Crew} (hc : cr.Wf) {x : Context} : (s.sealThenWrite c cr x).Wf := by
  unfold State.sealThenWrite
  split
  · exact h
  · extract_lets a
    have ha : a.2.Wf := h.imageAddr
    clear_value a
    split_ifs
    · exact h.sealedWrite hc
    · exact h
    · exact h.sealFailed
    · exact h.sealedWrite hc
    · exact h.sealFailed
    · exact ha.dutyCall

theorem sealDone {c : Nat} {ok : Bool} : (s.sealDone c ok).Wf := by
  unfold State.sealDone
  split
  · exact h
  · next hc =>
    split_ifs
    · exact h
    · exact h.sealedWrite (h.crew hc)
    · exact h.sealFailed

theorem formImage {c : Nat} {cr : Crew} {x : Context} : (s.formImage c cr x).Wf := by
  unfold State.formImage
  split
  · exact h
  · exact h.modCrew fun _ hc => hc

theorem finishSave {c : Nat} {cr : Crew} : (s.finishSave c cr).Wf := by
  unfold State.finishSave
  extract_lets s1 s2
  have h1 : s1.Wf := h.runHandlers
  have h2 : s2.Wf := h1.settleStacks
  clear_value s1 s2
  split
  · exact h1
  split
  · split
    · exact h2
    · extract_lets s3
      have h3 : s3.Wf := h2.formImage
      clear_value s3
      split
      · next hc => exact h3.sealThenWrite (h3.crew hc)
      · exact h3
  · exact h2

theorem saveSlice {fn : Nat} : (s.saveSlice fn).Wf := by
  unfold State.saveSlice
  extract_lets crs s1
  have h1 : s1.Wf := h.foldl fun _ _ ht => ht.modContext fun _ hx => hx
  exact h1.foldl fun _ _ ht => ht.beginSave

theorem openSlice {fn : Nat} : (s.openSlice fn).Wf := h

/-! ## Restores -/

omit h in
theorem restoredThreads_wf (v : SavedCrew) (homes : List Nat) (xs : List Section) :
    Table.All Thread.Wf (s.restoredThreads v homes xs) := by
  unfold State.restoredThreads
  extract_lets cr items stks arrived fresh
  have hfresh : Table.All Thread.Wf fresh := startThreads_wf _ _ _ _ _ _ _
  clear_value fresh
  refine hfresh.mapVals fun tid th ht => ?_
  dsimp only
  split
  · split <;> exact ht
  · exact Memory.wf_writeBytes _ _ _ Memory.wf_nil

omit h in
theorem restoredCrew_wf {v : SavedCrew} (hv : v.crew.Wf) (die cluster : Nat) (homes : List Nat) (xs : List Section) :
    (s.restoredCrew v die cluster homes xs).Wf where
  shared := Memory.wf_writeBytes _ _ _ Memory.wf_nil
  window := DieWindow.fill_wf _ _
  saveArea := DieWindow.empty_wf
  threads := restoredThreads_wf _ _ _
  system := .nil
  tiles := List.foldlRecOn (motive := fun ts : List Tile => ∀ t ∈ ts, t.Wf) _ _ hv.tiles fun _ hts bs _ =>
    List.forall_mem_modify_of (fun _ _ => tileOf_wf bs s.tick) hts _
  reserve := Option.forall_mem_map_of hv.reserve fun r _ => Reserve.fill_wf r _ _

theorem placeUnits {v : SavedCrew} {die cluster : Nat} {xs : List Section} {t : State}
    (ht : s.placeUnits v die cluster xs = some t) : t.Wf :=
  State.Wf.foldl_bind (fun _ _ _ hs hp => hs.placeRes hp) _
    (fun _ hu => State.Wf.foldl_bind (fun _ _ _ hs hp => hs.placeLease hp) _ (fun _ hv => by cases hv; exact h) hu) ht

theorem deliverLate {v : SavedCrew} : (s.deliverLate v).Wf := by
  unfold State.deliverLate
  extract_lets s1
  have h1 : s1.Wf := by
    refine State.Wf.foldl ?_ fun _ _ ht => ?_
    · exact h
    · split
      · split
        · exact ht.failLatch
        · exact ht
      · exact ht
  refine h1.foldl fun _ _ ht => ?_
  split
  · split
    · exact ht
    · exact ht.restartThread
  · exact ht

theorem windowFor {v : SavedCrew} {die : Nat} : (s.windowFor v die).2.Wf := by
  unfold State.windowFor
  split
  · exact h
  · split
    · exact h
    · exact h.modLaunch fun _ hl => hl.openWindow

theorem installCrew {ctx : Nat} {v : SavedCrew} (hv : v.crew.Wf) {die cluster : Nat} {homes : List Nat}
    {xs : List Section} {t : State} (ht : s.installCrew ctx v die cluster homes xs = some t) : t.Wf := by
  unfold State.installCrew at ht
  extract_lets cr w u t1 t2 t3 at ht
  have hw : w.2.Wf := h.windowFor
  have h1 : t1.Wf := { hw with crews := hw.crews.put (State.Wf.restoredCrew_wf hv die cluster homes xs) }
  have h2 : t2.Wf := h1.modContext fun _ hx => hx.filterSaved
  have h3 : t3.Wf := by
    unfold t3
    split
    · exact h2.modLaunch fun _ hl => hl.fillWindow
    · exact h2
  clear_value t3
  split at ht
  · cases ht
  · obtain ⟨u, hu, rfl⟩ := Option.map_eq_some_iff.1 ht
    exact (h3.placeUnits hu).deliverLate

/-! ## Cross-lane reads and blocks -/

theorem xlane {x : XlForm} {va : BitVec 7} {ids : Lane → Thread → List Int} {f : Lane → Thread → Dword} :
    (s.xlane x va ids f).Wf := by
  refine h.guarded ?_
  dsimp only
  split
  · exact h.consume
  · exact h.mapLanes fun _ _ ht => by
      split
      · exact ht.commit.advanceIx
      · split <;> exact ht.commit

theorem xlRead {vd va vb : BitVec 7} {wide tr : Bool} {src : Nat → Nat → Int} : (s.xlRead vd va vb wide tr src).Wf :=
  h.xlane

theorem blockOp {vd va : BitVec 7} {nd na : Nat} {f : Rounding → Nat → Nat} : (s.blockOp vd va nd na f).Wf :=
  h.guarded (h.mapLanes fun _ _ ht => by
    split
    · exact ht.commit
    · split <;> exact ht.commit)

/-! ## Records that load and restore -/

theorem finishLoad {fn slot : Nat} : (s.finishLoad fn slot).Wf := by
  unfold State.finishLoad
  split
  · exact h
  dsimp only
  split
  · exact h
  split
  · exact h.recordResult
  · refine State.Wf.recordResult (h.modContext fun x hx => ?_)
    exact hx

theorem loadDone {fn slot : Nat} {ok : Bool} : (s.loadDone fn slot ok).Wf := by
  unfold State.loadDone
  split
  · exact h.finishLoad
  · exact h.recordResult

theorem onRecord {fn slot op : Nat} {go : State → Taken → State} (hgo : ∀ t k, t.Wf → (go t k).Wf) :
    (s.onRecord fn slot op go).Wf := by
  unfold State.onRecord
  split
  · exact h
  · split
    · exact h
    · exact hgo _ _ h.modTaken

theorem onContext {fn slot op : Nat} {go : State → Taken → Context → State} (hgo : ∀ t k x, t.Wf → (go t k x).Wf) :
    (s.onContext fn slot op go).Wf :=
  h.onRecord fun t k ht => by
    split
    · exact ht.recordResult
    · split
      · exact ht.recordResult
      · exact hgo _ _ _ ht

theorem recordRange {fn slot ctx a n kind : Nat} {go : State → State} (hgo : ∀ t, t.Wf → (go t).Wf) :
    (s.recordRange fn slot ctx a n kind go).Wf := by
  unfold State.recordRange
  split
  · exact h.recordResult
  split
  · next hq =>
    split
    · exact (h.readyMain_eq hq).recordResult
    · exact hgo _ (h.readyMain_eq hq)
  · next hq => exact (h.readyMain_eq hq).modTaken
  · next hq => exact (h.readyMain_eq hq).recordResult

theorem namedCrew {fn slot : Nat} {t : Taken} {go : Nat → Launch → State} (hgo : ∀ lid l, (go lid l).Wf) :
    (s.namedCrew fn slot t go).Wf := by
  unfold State.namedCrew
  split
  · exact h.recordResult
  · split
    · exact h.recordResult
    · exact hgo _ _

theorem restoreChecked {fn slot : Nat} {bad : Option Code} : (s.restoreChecked fn slot bad).Wf := by
  unfold State.restoreChecked
  split
  · exact h.recordResult
  · exact h.modTaken

theorem checkStaged {fn slot : Nat} {t : Taken} {x : Context} {bs : List Byte} : (s.checkStaged fn slot t x bs).Wf := by
  unfold State.checkStaged
  split
  · exact h.recordResult
  split
  · exact h.recordResult
  · dsimp only
    split_ifs
    · exact h.dutyCall.modTaken
    · exact h.recordResult
    · exact h.restoreChecked

theorem stageRest {fn slot : Nat} {t : Taken} {x : Context} {lid : Nat} {l : Launch} {head : List Byte} :
    (s.stageRest fn slot t x lid l head).Wf := by
  unfold State.stageRest
  extract_lets bytes largest
  split
  · exact h.recordResult
  · exact h.recordRange fun _ ht => ht.modTaken.checkStaged

theorem stageImage {fn slot : Nat} {t : Taken} {x : Context} {lid : Nat} {l : Launch} :
    (s.stageImage fn slot t x lid l).Wf := by
  unfold State.stageImage
  split
  · exact h.stageRest
  · exact h.recordRange fun _ ht => ht.modTaken.stageRest

theorem restoreDone {fn slot : Nat} {status : Code} : (s.restoreDone fn slot status).Wf := by
  unfold State.restoreDone
  split
  · exact h
  split
  · exact h
  split
  · exact h.recordResult
  split_ifs
  · exact h.recordResult
  · exact h.recordResult
  · exact h.recordResult
  · exact h.restoreChecked

end

end State.Wf

end Sys2Proof.Machine
end

section
/-! SUPPORT. Host calls, attendants, command records and the moves of the world outside keep the canonical form. -/

namespace Sys2Proof.Machine

open Sys2Proof

theorem State.reset_wf : State.reset.Wf := ⟨Memory.wf_nil, .nil, .nil, .nil, .nil, .nil, .nil, .nil⟩

namespace State.Wf

section
variable {s : State} (h : s.Wf)
include h

/-! ## Calls -/

theorem freeTag : s.freeTag.2.Wf := h.free

theorem freeTag_eq {o : Option Nat} {t : State} (hq : s.freeTag = (o, t)) : t.Wf := by
  have := h.freeTag
  rwa [hq] at this

theorem modCall {id : Nat} {f : Call → Call} : (s.modCall id f).Wf := h

theorem modWorker {fn w : Nat} {f : Worker → Worker} : (s.modWorker fn w f).Wf := h.modFn fun _ hf => hf

theorem sweepCall {id : Nat} : (s.sweepCall id).Wf := by
  unfold State.sweepCall
  split
  · exact h
  · split_ifs
    · exact h
    · exact h.modCall
    · exact h

theorem takeEnd {id : Nat} : (s.takeEnd id).Wf := h.modCall

theorem unqueue {ctx cls id : Nat} : (s.unqueue ctx cls id).Wf := h.modContext fun _ hx => hx

theorem dropWorker {fn w ctx : Nat} : (s.dropWorker fn w ctx).Wf := by
  unfold State.dropWorker
  extract_lets s1
  have h1 : s1.Wf := h.modFn fun _ hf => hf
  exact h1

theorem freeWorker {fn w : Nat} {k : Worker} : (s.freeWorker fn w k).Wf := by
  unfold State.freeWorker
  extract_lets s1 s2
  have h1 : s1.Wf := by
    unfold s1
    split
    · exact h.modCore
    · exact h
  have h2 : s2.Wf := h1.modWorker
  clear_value s2
  split
  · exact h2
  · split
    · exact h2.recordResult
    · exact h2.dropWorker

theorem workerDeleted {fn slot : Nat} : (s.workerDeleted fn slot).Wf := by
  unfold State.workerDeleted
  split
  · exact h.dropWorker
  · exact h

theorem callOver {c tid : Nat} : (s.callOver c tid).Wf := by
  refine State.Wf.closeRegion (h.modThread fun th ht => ?_)
  exact ht

theorem answerThread {id c tid : Nat} {status : Code} {ret : Word} : (s.answerThread id c tid status ret).Wf := by
  unfold State.answerThread
  split
  · exact h
  · split
    · exact h.takeEnd.release.callOver
    · exact h

theorem churned {launch die q : Nat} {recs : List Nat} : (s.churned launch die q recs).Wf := by
  unfold State.churned
  split
  · split
    · exact h
    · exact h.appendSpilled
  · exact h

theorem callEnded {id : Nat} {c : Call} {status : Code} {ret : Dword} {data : List Dword} :
    (s.callEnded id c status ret data).Wf := by
  unfold State.callEnded
  extract_lets ok
  split
  · exact h.answerThread
  · split
    · exact h
    · split
      · exact h.retryAts
      · exact h.xlateUnresolved
  · split
    · exact h
    · split
      · refine State.Wf.stepFetch (h.modCluster fun k hk => ?_)
        exact hk
      · exact h.fetchFailed
  · split
    · exact h.churned
    · exact h.failQueueAt
  · split
    · exact h
    · split
      · exact h.returnFar
      · exact h.failFar
  · exact h
  · exact h
  · exact h.decideCrew
  · exact h.sealDone
  · exact h.loadDone
  · exact h.restoreDone

theorem freeTimedOut {id : Nat} : (s.freeTimedOut id).Wf :=
  h.foldl fun _ _ ht => ht.foldl fun _ _ hu => by
    split
    · exact hu.freeWorker
    · exact hu

theorem endOne {id : Nat} {status : Code} {ret : Dword} {data : List Dword} : (s.endOne id status ret data).Wf := by
  unfold State.endOne
  split
  · exact h
  · split
    · exact h
    · extract_lets s1 s2 s3
      have h2 : s2.Wf := h.modCall.modContext fun _ hx => hx
      have h3 : s3.Wf := h2.unqueue.callEnded
      clear_value s3
      refine State.Wf.sweepCall ?_
      split
      · exact h3.freeTimedOut
      · exact h3

theorem queueFront {id : Nat} {c : Call} {pick : Option Nat} : (s.queueFront id c pick).Wf :=
  h.modCall.modContext fun _ hx => hx

end

theorem endCallAt (n : Nat) : ∀ {s : State} {id : Nat} {status : Code} {ret : Dword} {data : List Dword}, s.Wf →
    (s.endCallAt id status ret data n).Wf := by
  induction n with
  | zero => exact fun h => h
  | succ n ih =>
    intro s id status ret data h
    rw [State.endCallAt]
    split
    · exact h
    · extract_lets t
      have ht : t.Wf := h.endOne
      clear_value t
      split
      · split
        · exact ht
        split
        · exact ht
        split
        · exact ht
        split
        · exact ht.queueFront
        · exact ih ht
      · exact ht

section
variable {s : State} (h : s.Wf)
include h

theorem endCall {id : Nat} {status : Code} {ret : Dword} {data : List Dword} : (s.endCall id status ret data).Wf :=
  h.endCallAt _

theorem callAtOnce {tid : Nat} {th : Thread} {vd : BitVec 7} {status : Code} {ret : Word} :
    (s.callAtOnce tid th vd status ret).Wf := h.finishLane.callOver

theorem raiseLane {cr : Crew} {tid : Nat} {th : Thread} {va : BitVec 7} {g : Nat} :
    (s.raiseLane cr tid th va g).Wf := by
  unfold State.raiseLane
  extract_lets w d r
  have hr : r.2.Wf := h.raiseCall
  refine State.Wf.park (hr.closeRegion.modThread fun u hu => ?_)
  exact hu

theorem hcallLane {vd va : BitVec 7} {tid : Nat} {th : Thread} : (s.hcallLane vd va tid th).Wf :=
  h.drained fun t ht => by
    split
    · exact ht
    · dsimp only
      split
      · exact ht.callAtOnce
      split
      · exact ht.callAtOnce
      split
      · next hq => exact (ht.freeTag_eq hq).park
      · next hq => exact (ht.freeTag_eq hq).raiseLane

theorem hcallAgain {vd : BitVec 7} {tid : Nat} {th : Thread} : (s.hcallAgain vd tid th).Wf := by
  unfold State.hcallAgain
  split
  · exact h.callAtOnce
  · split
    · exact h.park
    · exact h.takeEnd.callAtOnce.sweepCall

theorem writeProcess {ctx a : Nat} {bs : List Byte} : (s.writeProcess ctx a bs).Wf :=
  h.foldl fun _ _ ht => ht.writePlace

theorem takeCall {id : Nat} {c : Call} {g fn w : Nat} {k : Worker} : (s.takeCall id c g fn w k).Wf := by
  unfold State.takeCall
  extract_lets s1 s2 bs s3
  have h3 : s3.Wf := h.unqueue.modCall.modWorker
  split
  · exact h3.modCore
  · exact h3.writeProcess

theorem freshDeadline {id : Nat} {c : Call} : (s.freshDeadline id c).Wf := by
  unfold State.freshDeadline
  extract_lets d s1
  have h1 : s1.Wf := h.modCall
  split <;> exact h1

theorem passDeadline {id : Nat} {c : Call} : (s.passDeadline id c).Wf := by
  unfold State.passDeadline
  extract_lets s1 s2
  have h1 : s1.Wf := h.freshDeadline
  have h2 : s2.Wf := h1.unqueue
  clear_value s1 s2
  split_ifs
  · exact h.endCall
  · exact h1
  · exact h2.queueFront
  · exact h2.dutyCall
  · exact h2.endCall

omit h in
theorem physMem (h : s.Wf) : Memory.wf s.physMem = true := h.hostMem.getD Memory.wf_nil

theorem putWindow {fn off : Nat} {bs : List Byte} : (s.putWindow fn off bs).Wf := by
  unfold State.putWindow
  split
  · exact { h with hostMem := h.hostMem.put (Memory.wf_writeBytes _ _ _ h.physMem) }
  · exact h.modFn fun _ hf => Memory.wf_writeBytes _ _ _ hf

theorem acceptReply {fn w : Nat} {k : Worker} {id : Nat} {status : Code} {ret : Dword} {data : List Dword} :
    (s.acceptReply fn w k id status ret data).Wf := by
  unfold State.acceptReply
  extract_lets s1 s2
  have h1 : s1.Wf := by
    unfold s1
    split
    · split
      · exact h.passDeadline
      · exact h
    · exact h
  exact h1.freeWorker.endCall.sweepCall

theorem stray {ctx w g : Nat} : (s.stray ctx w g).Wf := h.log

/-! ## Attendant cores -/

theorem coreFault {n cause : Nat} : (s.coreFault n cause).Wf := by
  unfold State.coreFault
  extract_lets s1
  have h1 : s1.Wf := h.modCore
  clear_value s1
  split
  · exact h1
  · split
    · exact h1
    · exact h1.freeWorker.endCall.sweepCall

theorem storeLine {id : Nat} {cr : Crew} {die off : Nat} {bs : List Byte} : (s.storeLine id cr die off bs).Wf := by
  unfold State.storeLine
  split
  · exact h.modCrew fun _ hc => { hc with window := hc.window.write }
  · exact h.modLaunch fun _ hl => hl.modWin fun _ hw => hw.write

theorem coreNext {f : AttendantCore → AttendantCore} : (s.coreNext f).Wf := h.modCore

theorem storeLines {p : XsfPlace} {v first last : Nat} : (s.storeLines p v first last).Wf :=
  h.foldl fun _ _ ht => ht.storeLine

/-! ## Boot -/

theorem forwardImage {stage : Nat} : (s.forwardImage stage).Wf := h.foldl fun _ _ ht => ht.send

end

theorem bootFrom (n : Nat) : ∀ {s : State} {stage : Nat}, s.Wf → (s.bootFrom n stage).Wf := by
  induction n with
  | zero => exact fun h => h
  | succ n ih =>
    intro s stage h
    rw [State.bootFrom]
    split
    · exact h
    · exact ih h.forwardImage

section
variable {s : State} (h : s.Wf)
include h

theorem afterReset : s.afterReset.Wf := by
  refine State.Wf.someBallast ?_
  exact { State.reset_wf with hostMem := h.hostMem, peerMem := h.peerMem }

theorem configRead {fn : Nat} : (s.configRead fn).Wf := by
  unfold State.configRead
  split
  · exact h
  · split
    · split <;> exact h.send
    · exact h.send

theorem formTree {root : Nat} {cables : List Cable} : (s.formTree root cables).Wf := h

/-! ## Command records -/

theorem numberRecord {fn : Nat} {r : BitVec 512} : (s.numberRecord fn r).1.Wf := by
  unfold State.numberRecord
  extract_lets ctx
  split
  · exact h
  · split
    · exact h
    · exact h.modContext fun _ hx => hx

theorem takeSlot {fn : Nat} : (s.takeSlot fn).Wf := by
  unfold State.takeSlot
  extract_lets f r n t
  have hn : n.1.Wf := h.numberRecord
  exact hn.modFn fun _ hf => hf

theorem completeRecord {fn : Nat} {t : Taken} {status : Code} {value : Dword} :
    (s.completeRecord fn t status value).Wf := by
  unfold State.completeRecord
  extract_lets s1 s2 s3
  have h1 : s1.Wf := h.putWindow.modFn fun _ hf => hf
  have h2 : s2.Wf := h1.workerDeleted
  have h3 : s3.Wf := by
    unfold s3
    split
    · exact h2.finishNamed
    · exact h2
  split
  · exact h3.send
  · exact h3

theorem freeContext : s.freeContext.2.Wf := h.free

theorem deleteWorker {fn w : Nat} {delSlot : Option Nat} : (s.deleteWorker fn w delSlot).Wf := by
  unfold State.deleteWorker
  split
  · exact h
  · extract_lets k' s1
    have h1 : s1.Wf := h.modWorker
    clear_value s1
    split
    · exact h1.freeWorker
    · split
      · exact h1.freeWorker.sweepCall
      · exact h1

theorem dropFrames {ctx : Nat} {obj : Nat → Bool} : (s.dropFrames ctx obj).Wf := by
  unfold State.dropFrames
  refine { h with clusters := ?_ }
  dsimp only
  exact h.clusters.mapVals fun _ _ hk => hk.filterFrames

theorem dropContext {ctx : Nat} : (s.dropContext ctx).Wf := by
  unfold State.dropContext
  extract_lets s1 s2
  have h1 : s1.Wf := h.foldl fun t e ht => by
    split
    · refine State.Wf.unlinkXlate ?_
      exact ht
    · exact ht
  have h2 : s2.Wf := h1.dropFrames
  exact { h2 with contexts := h2.contexts.drop }

theorem zeroFrames {frame n : Nat} : (s.zeroFrames frame n).Wf := { h with devMem := Memory.wf_filter _ _ h.devMem }

theorem dropTlb {pasid a n : Nat} : (s.dropTlb pasid a n).Wf := h

theorem acceptLaunch {fn slot ctx queue : Nat} {tag : Dword} {r : LaunchRecord} :
    (s.acceptLaunch fn slot ctx queue tag r).Wf := by
  unfold State.acceptLaunch
  extract_lets id sig l s1
  have hl : l.Wf := ⟨by rintro _ ⟨⟩, by rintro _ ⟨⟩⟩
  have h1 : s1.Wf := { h with launches := h.launches.put hl }
  exact h1.modContext fun _ hx => hx

theorem submit {fn slot : Nat} {t : Taken} : (s.submit fn slot t).Wf := by
  unfold State.submit
  extract_lets r tag
  split
  · exact h.recordResult
  · split
    · exact h.recordResult
    · split
      · exact h.acceptLaunch
      · exact h.recordResult

theorem writeDuty {ctx row : Nat} {v : Dword} : (s.writeDuty ctx row v).Wf := h.modContext fun _ hx => hx

theorem firmwareDuty {ctx row : Nat} {v : Dword} : (s.firmwareDuty ctx row v).Wf := by
  unfold State.firmwareDuty
  split
  · exact h
  · exact h.writeDuty

theorem addWorker {fn slot : Nat} {w : Worker} : (s.addWorker fn slot w).Wf := by
  unfold State.addWorker
  split
  · exact h.recordResult
  · refine State.Wf.recordResult (h.modFn fun f hf => ?_)
    exact hf

theorem endThread {c tid : Nat} : (s.endThread c tid).Wf := by
  unfold State.endThread
  extract_lets s1 s2 s3
  have h1 : s1.Wf := h.modThread fun _ ht => ht
  have h2 : s2.Wf := h1.foldl fun _ _ ht => ht.leaveTumbler
  have h3 : s3.Wf := h2.checkBarrier.checkGangs
  clear_value s3
  split
  · split
    · exact h3.endCrew
    · exact h3
  · exact h3

/-! ## The world outside -/

theorem noData : s.noData.Wf := by
  unfold State.noData
  split <;> exact h.send

theorem writeFrames {a : Nat} {bs : List Byte} : (s.writeFrames a bs).Wf := h.foldl fun _ _ ht => ht.writePlace

theorem peerAtomic {port addr : Nat} {op : AtomOp} {wide : Bool} {x c : Dword} :
    (s.peerAtomic port addr op wide x c).Wf := by
  unfold State.peerAtomic
  extract_lets n old s1
  have h1 : s1.Wf := by
    unfold s1
    split
    · exact h.writeFrames
    · exact h
  split
  · exact h.send
  · exact h1.send

theorem markWritten {fn off : Nat} : (s.markWritten fn off).Wf := h.modFn fun _ hf => hf

theorem physWrite {a : Nat} {b : Byte} : (s.physWrite a b).Wf := by
  unfold State.physWrite
  split
  · exact h.writePlace
  · split
    · exact h.writePlace.markWritten
    · exact h

theorem windowWrites {fn off : Nat} {data : List Byte} : (s.windowWrites fn off data).Wf :=
  h.foldl fun _ _ ht => by
    dsimp only
    split
    · exact ht.physWrite
    · split
      · exact ht.putWindow.markWritten
      · exact ht

theorem hostWrites {fn off : Nat} {data : List Byte} : (s.hostWrites fn off data).Wf := by
  unfold State.hostWrites
  split
  · exact h.windowWrites
  · exact h

theorem coreUser {n : Nat} {act : CoreAct} : (s.coreUser n act).Wf := by
  unfold State.coreUser
  extract_lets s1
  have h1 : s1.Wf := h
  clear_value s1
  split
  · exact h1
  split
  · exact h1.modCore
  · exact h1.coreNext
  · exact h1.coreNext
  · split
    · exact h1.coreFault
    · exact h1.coreNext
  · split
    · exact h1.coreFault
    · exact h1.writeMain.coreNext
  · exact h1.coreNext
  · split
    · exact h1.coreFault
    · exact h1.windowWrites.coreNext

theorem hostStores {pasid a : Nat} {data : List Byte} : (s.hostStores pasid a data).Wf :=
  h.foldl fun _ _ ht => by
    split
    · exact ht.physWrite
    · exact ht.writePlace

theorem setWinbase {fn a : Nat} : (s.setWinbase fn a).Wf := by
  unfold State.setWinbase
  split
  · exact h.modFn fun _ hf => hf
  · exact h

theorem drainNtAt {c tid ix : Nat} : (s.drainNtAt c tid ix).Wf := by
  unfold State.drainNtAt
  split
  · exact h
  split
  · exact h
  split
  · exact h
  split
  · exact h
  split
  · exact h
  · extract_lets s1
    have h1 : s1.Wf := h.modThread fun _ ht => ht
    clear_value s1
    split
    · exact h1.reap
    · exact h1.trapThread
  · refine State.Wf.reap (State.Wf.performStore (h.modThread fun th ht => ?_))
    exact ht

theorem dropGroup {die cluster ctx obj group : Nat} : (s.dropGroup die cluster ctx obj group).Wf :=
  h.modCluster fun _ hk => hk.filterFrames

theorem execChurnMove {launch die queue : Nat} : Outcome.Wf (execChurnMove launch die queue s) := by
  unfold Machine.execChurnMove Outcome.Wf
  dsimp only
  split
  · exact h
  · split_ifs
    · exact h
    · exact h.dutyCall
    · exact h.failQueue
    · exact h.churnBatch

theorem world {m : Move} : (s.world m).Wf := by
  unfold State.world
  split
  · exact h.reap_drainHead
  · exact h.drainNtAt
  · exact h
  · exact h.hostWrites
  · exact h.hostStores
  · exact h
  · exact h.upset
  · exact h
  · exact h.slip
  · exact h.disagree
  · exact h.evict
  · split
    · next hq => exact h.execChurnMove.next hq
    · exact h
  · exact h.dropGroup
  · exact h
  · split <;> exact h
  · split <;> exact h
  · exact h.formTree
  · exact h.firmwareDuty
  · exact h.setWinbase
  · exact h.configRead
  · split
    · exact h
    · exact h.modCluster fun _ hk => hk
  · split <;> exact h
  · exact h
  · exact h.coreUser
  · exact h
  · exact h

end

end State.Wf

end Sys2Proof.Machine
end

section
/-! SUPPORT. The instructions of a bundle keep the canonical form: loads and stores, uniform operations, control flow,
tiles, synchronization, copies and the matrix units. -/

namespace Sys2Proof.Machine

open Sys2Proof

namespace State.Wf

variable {s : State} (h : s.Wf)
include h

/-! ## Fetches, loads and stores -/

theorem execOverlayFetchComplete {die cluster obj group : Nat} :
    Outcome.Wf (execOverlayFetchComplete die cluster obj group s) := by
  change State.Wf _
  split
  · exact h.stepFetch
  · exact h

theorem execLdAcq {vd : BitVec 7} {va la : BitVec 4} {sp sz : BitVec 2} : Outcome.Wf (execLdAcq vd va la sp sz s) :=
  h.loads

theorem execStRel {vs : BitVec 7} {va : BitVec 4} {sp sz : BitVec 2} : Outcome.Wf (execStRel vs va sp sz s) := h.stores

theorem execStNt {vs : BitVec 7} {va : BitVec 4} {sp sz : BitVec 2} : Outcome.Wf (execStNt vs va sp sz s) := by
  refine h.guarded ?_
  split
  · exact h.addressTrap ‹_›
  · refine h.lanewise fun _ _ _ ht => ht.withLine fun _ hu => hu.inLaneOrder fun v hv => ?_
    refine State.Wf.closeRegion (State.Wf.finishLane (State.Wf.modThread ?_ fun u hu => ?_))
    · split
      · exact hv.outward
      · exact hv
    · exact hu

/-! ## Uniform operations -/

theorem execGMovI64Imm {gd : BitVec 6} {imm : BitVec 16} : Outcome.Wf (execGMovI64Imm gd imm s) :=
  h.uniform fun _ ht => ht.uwrite.completeNone

theorem execGMovN64Imm {gd : BitVec 6} {imm : BitVec 16} : Outcome.Wf (execGMovN64Imm gd imm s) :=
  h.uniform fun _ ht => ht.uwrite.completeNone

theorem execGRdvN32 {gd ga : BitVec 6} : Outcome.Wf (execGRdvN32 gd ga s) :=
  h.uniform fun t ht => by
    split
    · exact ht
    · split
      · exact ht.consume
      · exact ht.uwrite.completeNone

theorem execGWrvN32 {gd ga : BitVec 6} : Outcome.Wf (execGWrvN32 gd ga s) := h.uniform fun _ ht => ht.complete

theorem execGWrvN64 {gd ga : BitVec 6} : Outcome.Wf (execGWrvN64 gd ga s) := h.uniform fun _ ht => ht.complete

theorem execGBr {cc : BitVec 3} {ga : BitVec 6} {off : BitVec 16} : Outcome.Wf (execGBr cc ga off s) :=
  h.uniform fun _ ht => ht.mapLanes fun _ _ hth => hth.goTo

theorem execGRdsr {gd ga : BitVec 6} : Outcome.Wf (execGRdsr gd ga s) :=
  h.uniform fun t ht => by
    split
    · exact ht.uwrite.completeNone
    · exact ht

theorem execGUconfClr : Outcome.Wf (execGUconfClr s) :=
  h.uniform fun t ht => by
    refine State.Wf.completeNone (ht.modCrew fun cr hc => ?_)
    exact hc

/-! ## Control flow -/

theorem execBr {cc : BitVec 4} {off : BitVec 21} : Outcome.Wf (execBr cc off s) :=
  h.flushed.guarded (h.flushed.mapLanes fun _ _ ht => ht.goTo)

theorem execLoopBr {cc : BitVec 4} {off : BitVec 21} : Outcome.Wf (execLoopBr cc off s) :=
  h.flushed.guarded (h.flushed.mapLanes fun _ _ ht => by
    split
    · exact ht.goTo.rotated
    · exact ht.goTo)

theorem execCall {off : BitVec 21} : Outcome.Wf (execCall off s) := h.flushed.guarded h.flushed.callLanes

theorem execNop : Outcome.Wf (execNop s) := h.guarded h.completeNone

theorem execRet : Outcome.Wf (execRet s) := by
  refine h.flushed.guarded ?_
  split
  · exact h.flushed.laneTrap ‹_›
  split
  · exact h.flushed.consume
  split
  · exact h.flushed.laneTrap ‹_›
  · refine h.flushed.lanewise fun _ _ th ht => ht.withLine fun v hv => hv.modThread fun u hu => ?_
    exact hu.goTo (len := v.cur.length) (pc := th.returnTarget)

theorem execBrInd {va : BitVec 7} : Outcome.Wf (execBrInd va s) := by
  refine h.flushed.guarded ?_
  split
  · exact h.flushed.targetTrap ‹_›
  · exact h.flushed.mapLanes fun _ _ ht => ht.goTo

theorem execCallInd {va : BitVec 7} : Outcome.Wf (execCallInd va s) := by
  refine h.flushed.guarded ?_
  split
  · exact h.flushed.targetTrap ‹_›
  · exact h.flushed.callLanes

theorem execRgn {hi lo : BitVec 7} : Outcome.Wf (execRgn hi lo s) := by
  refine h.guarded ?_
  dsimp only
  split
  · exact h.consume
  · refine h.mapLanes fun _ th ht => ?_
    have hc : (th.commit s.cur.length .now []).Wf := ht.commit
    split
    · exact hc
    · exact hc

theorem execIxSet {va : BitVec 7} {k : BitVec 2} : Outcome.Wf (execIxSet va k s) := by
  refine h.guarded ?_
  split
  · exact h.laneTrap ‹_›
  · refine h.mapLanes fun _ _ ht => ?_
    dsimp only
    split
    · exact ht.commit.setIx
    · exact ht.commit

theorem execIxGet {vd : BitVec 7} {k : BitVec 2} {la : BitVec 4} : Outcome.Wf (execIxGet vd k la s) :=
  h.guarded h.complete

theorem execRotSet {vB size : BitVec 7} : Outcome.Wf (execRotSet vB size s) := by
  refine h.guarded (h.mapLanes fun _ th ht => ?_)
  have hc : (th.commit s.cur.length .now []).Wf := ht.commit
  dsimp only
  split
  · exact hc
  · exact hc

theorem execFence {sc : BitVec 7} : Outcome.Wf (execFence sc s) :=
  h.guarded (h.lanewise fun _ _ _ ht => ht.drained fun _ hu => hu.finishLane)

theorem execNtDrain : Outcome.Wf (execNtDrain s) := by
  refine h.guarded (h.lanewise fun _ _ _ ht => ?_)
  split
  · refine State.Wf.finishLane (ht.modThread fun u hu => ?_)
    exact hu
  · exact ht.park

theorem execSrRd {vd sr : BitVec 7} {la : BitVec 4} : Outcome.Wf (execSrRd vd sr la s) := by
  refine h.guarded ?_
  split
  · exact h
  · exact h.complete

theorem execSpGet {vd : BitVec 7} {la : BitVec 4} : Outcome.Wf (execSpGet vd la s) := h.guarded h.complete

theorem execSpSet {va : BitVec 7} : Outcome.Wf (execSpSet va s) := by
  refine h.guarded ?_
  split
  · exact h
  split
  · exact h.laneTrap ‹_›
  split
  · exact h.laneTrap ‹_›
  · refine h.mapLanes fun _ th ht => ?_
    have hc : (th.commit s.cur.length .now []).Wf := ht.commit
    dsimp only
    split
    · exact hc
    · exact hc

/-! ## Tiles -/

theorem execFlBirth {va : BitVec 7} : Outcome.Wf (execFlBirth va s) := h.tileOp fun _ _ ht => ht.birthAt

theorem execFlBirthZ {va : BitVec 7} : Outcome.Wf (execFlBirthZ va s) := h.tileOp fun _ _ ht => ht.birthAt

theorem execFlRenew {va : BitVec 7} : Outcome.Wf (execFlRenew va s) := h.tileOp fun _ _ ht => ht.renewAt

theorem execFlLife {vd va : BitVec 7} {la : BitVec 4} : Outcome.Wf (execFlLife vd va la s) := h.tileOp fun _ _ ht => ht

theorem execFlFree {va : BitVec 7} : Outcome.Wf (execFlFree va s) := h.tileOp fun _ _ ht => ht

theorem execFlStat {vd va : BitVec 7} {la : BitVec 4} : Outcome.Wf (execFlStat vd va la s) := h.tileOp fun _ _ ht => ht

theorem execFlStatClr {vd va : BitVec 7} : Outcome.Wf (execFlStatClr vd va s) := h.tileOp fun _ _ ht => ht

/-! ## Tumblers, latches, timelines and the crew barrier -/

theorem execTbJoin {k : BitVec 4} : Outcome.Wf (execTbJoin k s) := by
  refine h.guarded (h.lanewise fun _ _ _ ht => State.Wf.finishLane (ht.modCrew fun cr hc => ?_))
  exact hc

theorem execTbSign {k : BitVec 4} {vd : BitVec 7} {la : BitVec 4} : Outcome.Wf (execTbSign k vd la s) := by
  refine h.guarded ?_
  split
  · exact h.memberTrap ‹_›
  · refine h.lanewise fun _ _ _ ht => ?_
    split
    · exact ht
    split
    · exact ht.park
    · exact ht.drained fun _ hu => hu.finishLane.closeRegion.sign

theorem execTbWait {k : BitVec 4} {va : BitVec 7} : Outcome.Wf (execTbWait k va s) := by
  refine h.guarded (h.lanewise fun _ _ _ ht => ?_)
  split
  · exact ht
  · dsimp only
    split
    · exact ht.finishLane
    · exact ht.park

theorem execWeld {k : BitVec 4} : Outcome.Wf (execWeld k s) := by
  refine h.guarded ?_
  split
  · dsimp only
    split
    · exact h.laneTrap ‹_›
    · refine h.lanewise fun _ _ _ ht => State.Wf.finishLane (ht.modCrew fun cr hc => ?_)
      exact hc
  · exact h.completeNone

theorem execUnjoin {m0 m1 : BitVec 7} {m2 : BitVec 2} : Outcome.Wf (execUnjoin m0 m1 m2 s) :=
  h.guarded (h.lanewise fun _ _ _ ht => ht.finishLane.foldl fun _ _ hu => hu.leaveTumbler)

theorem execLtArrive {va : BitVec 7} : Outcome.Wf (execLtArrive va s) := by
  refine h.guarded (h.latchAccess fun _ ht => ht.lanewise fun _ _ _ hu => ?_)
  dsimp only
  split
  · exact hu
  · exact hu.inLaneOrder fun _ hv => hv.drained fun _ hw => hw.finishLane.closeRegion.arriveThread

theorem execLtWait {va : BitVec 7} {ph : BitVec 1} : Outcome.Wf (execLtWait va ph s) := by
  refine h.guarded (h.latchAccess fun _ ht => ht.lanewise fun _ _ _ hu => ?_)
  split
  · exact hu
  split
  · exact hu
  dsimp only
  split_ifs
  · exact hu.trapLane
  · exact hu.finishLane
  · exact hu.park

theorem execLtPhase {va vd : BitVec 7} {la : BitVec 4} : Outcome.Wf (execLtPhase va vd la s) := by
  refine h.guarded (h.latchAccess fun _ ht => ?_)
  split
  · exact ht
  · exact ht.complete

theorem execTlWait {va : BitVec 7} {sc : BitVec 3} {k : BitVec 4} : Outcome.Wf (execTlWait va sc k s) := by
  refine h.guarded (h.lanewise fun _ _ _ ht => ?_)
  split
  · exact ht
  dsimp only
  split
  · exact ht.trapLane
  split
  · exact ht.finishLane
  · exact ht.park

theorem execTlRd {vd : BitVec 7} {k la : BitVec 4} : Outcome.Wf (execTlRd vd k la s) := by
  refine h.guarded ?_
  split
  · exact h
  · exact h.complete

theorem execBarCrew : Outcome.Wf (execBarCrew s) := by
  refine h.guarded (State.Wf.checkBarrier (h.lanewise fun _ _ _ ht => ?_))
  split
  · refine State.Wf.closeRegion (State.Wf.finishLane (ht.modThread fun u hu => ?_))
    exact hu
  · refine ht.drained fun _ hv => State.Wf.park (hv.modThread fun u hu => ?_)
    exact hu

/-! ## Copies and far atomics -/

theorem execCpT {va vb : BitVec 7} {k : BitVec 3} : Outcome.Wf (execCpT va vb k s) := by
  refine h.guarded ?_
  dsimp only
  split
  · exact h
  split
  · exact h.codeTrap ‹_›
  split
  · exact h.codeTrap ‹_›
  split
  · exact h.codeTrap ‹_›
  split
  · exact h.codeTrap ‹_›
  · exact h.lanewise fun _ _ _ ht => ht.drained fun _ hu => hu.cpTLane

theorem execCpWait {k : BitVec 3} : Outcome.Wf (execCpWait k s) := h.guarded h.tagWait

theorem execCpWaitAll : Outcome.Wf (execCpWaitAll s) := h.guarded h.tagWait

theorem execCpCnt {vd : BitVec 7} {k : BitVec 3} {la : BitVec 4} : Outcome.Wf (execCpCnt vd k la s) :=
  h.guarded h.complete

theorem execCptElementPerform {elem : Nat} : Outcome.Wf (execCptElementPerform elem s) := h.stepElem

theorem execCopyElementWrite {copy elem : Nat} : Outcome.Wf (execCopyElementWrite copy elem s) := h.stepCopy

theorem execFarAtomicResponse {req : Nat} : Outcome.Wf (execFarAtomicResponse req s) := by
  change State.Wf _
  split
  · exact h
  dsimp only
  split
  · exact h
  split
  · next hq =>
    have ht := h.readyMain_eq hq
    split
    · exact ht.failFar
    · refine State.Wf.returnFar ?_
      split
      · exact ht.writeMain
      · exact ht
  · next hq => exact (h.readyMain_eq hq).farStage
  · next hq => exact (h.readyMain_eq hq).failFarAt

theorem execAtomicopUrCompletion {req : Nat} : Outcome.Wf (execAtomicopUrCompletion req s) := by
  change State.Wf _
  split
  · exact h
  · split
    · exact h.farRow3
    · exact h

/-! ## Matrix operations -/

theorem execMxLease {vd va : BitVec 7} {la : BitVec 4} : Outcome.Wf (execMxLease vd va la s) := by
  refine h.mxGuarded ?_
  split
  · exact h
  · refine orElse_wf ?_ (h.outwardActive.lanewise fun _ _ _ ht => ht.leaseLane)
    simp only [List.mem_singleton, forall_eq]
    exact fun _ hq => h.laneTrap hq

theorem execMxRelease : Outcome.Wf (execMxRelease s) :=
  h.mxGuarded (h.outwardActive.lanewise fun _ _ _ ht => ht.releaseLane)

theorem execObResv {va : BitVec 7} {k : BitVec 4} : Outcome.Wf (execObResv va k s) := by
  refine h.mxGuarded ?_
  split
  · exact h
  split
  · exact h.addressTrap ‹_›
  split
  · exact h.consume
  · refine orElse_wf ?_ (h.outwardActive.lanewise fun _ _ _ ht => ht.resvLane)
    simp only [List.mem_singleton, forall_eq]
    exact fun _ hq => h.codeTrap hq

theorem execObFree {k : BitVec 4} : Outcome.Wf (execObFree k s) := by
  refine h.mxGuarded (h.outwardActive.lanewise fun _ _ _ ht => ?_)
  split
  · exact ht
  split
  · exact ht.closeLane
  split
  · exact ht.park
  · refine State.Wf.closeLane (ht.modUnit fun u hu => ?_)
    exact hu.dropRes

theorem execObLd {va : BitVec 7} {die : BitVec 1} {k : BitVec 4} : Outcome.Wf (execObLd va die k s) := by
  unfold Machine.execObLd
  extract_lets sp src dst
  clear_value sp src dst
  refine h.mxGuarded ?_
  split
  · exact h
  split
  · refine orElse_wf ?_ h.completeNone
    simp only [List.mem_singleton, forall_eq]
    exact fun _ hq => h.roleTrap hq
  · refine orElse_wf ?_ ?_
    · simp only [List.forall_mem_cons, List.not_mem_nil, IsEmpty.forall_iff, implies_true, and_true]
      exact ⟨fun _ hq => h.laneTrap hq, fun _ hq => h.laneTrap hq, fun _ hq => h.laneTrap hq⟩
    · split
      · exact h.consume
      extract_lets waits
      split
      · exact h.skipInactive.parkActive
      · refine h.outwardActive.lanewise fun _ _ _ ht => ht.withLine fun _ hu => ?_
        refine State.Wf.finishLane (hu.modUnit fun m hm => ?_)
        exact hm.modRes fun _ hr => hr.write

theorem execAccRd {vd va : BitVec 7} {la : BitVec 4} : Outcome.Wf (execAccRd vd va la s) := by
  refine h.mxGuarded ?_
  dsimp only
  split
  · exact h
  · refine orElse_wf ?_ ?_
    · simp only [List.forall_mem_cons, List.not_mem_nil, IsEmpty.forall_iff, implies_true, and_true]
      exact ⟨fun _ hq => h.codeTrap hq, fun _ hq => h.codeTrap hq, fun _ hq => h.codeTrap hq, fun _ hq => h.codeTrap hq,
        fun _ hq => h.codeTrap hq⟩
    · split
      · exact h.consume
      · exact h.outwardActive.complete

theorem execAccWait {role acc : BitVec 3} : Outcome.Wf (execAccWait role acc s) := by
  refine h.mxGuarded ?_
  split
  · exact h
  extract_lets r wait lanes
  have hwait : ∀ (t : State) tid op, t.Wf → (wait t tid op).Wf := fun t tid op ht => by
    unfold wait
    split
    · exact ht.park
    · exact ht.finishLane
  clear_value wait
  have hlanes : (lanes s).Wf := h.outwardActive.lanewise fun _ _ _ ht => by
    split
    · exact hwait _ _ _ ht
    · exact hwait _ _ _ ht
  clear_value lanes
  split
  · exact hlanes
  split
  · refine orElse_wf ?_ h.completeNone
    simp only [List.mem_singleton, forall_eq]
    exact fun _ hq => h.roleTrap hq
  · refine orElse_wf ?_ hlanes
    simp only [List.mem_singleton, forall_eq]
    exact fun _ hq => h.roleTrap hq

end State.Wf

end Sys2Proof.Machine
end

section
/-! SUPPORT. The events of the machine keep the canonical form: units, messages, records, calls, boot and the links. -/

namespace Sys2Proof.Machine

open Sys2Proof

namespace State.Wf

variable {s : State} (h : s.Wf)
include h

/-! ## The matrix units -/

theorem execMmaAccept {die cluster unit : Nat} : Outcome.Wf (execMmaAccept die cluster unit s) := by
  change State.Wf _
  have hu : ((s.unit die cluster unit).passRights).Wf := h.unit.passRights
  dsimp only
  split
  · exact h
  split
  · exact h
  split
  · exact h
  split
  · exact h
  · refine State.Wf.modCrew (h.modUnit fun _ _ => ?_) fun cr hc => ?_
    · refine MatrixUnit.Wf.passRights ?_
      split <;> exact hu
    · exact hc

theorem execMmaComplete {die cluster unit : Nat} : Outcome.Wf (execMmaComplete die cluster unit s) := by
  unfold Machine.execMmaComplete
  extract_lets u
  change State.Wf _
  split
  · exact h
  next o rest _ =>
  extract_lets lease res s1 s2
  clear_value lease res
  have hq : ∀ t : State, t.Wf → (t.modUnit die cluster unit fun u => { u with queue := rest }).Wf :=
    fun _ ht => ht.modUnit fun _ hm => hm
  have h1 : s1.Wf := by
    unfold s1
    split
    · split
      · exact (hq s h).poisonRole
      · exact h.modUnit fun _ hm => hm
    · exact hq s h
  have h2 : s2.Wf := h1.modCrew fun _ hc => hc
  clear_value s2
  split
  · exact h2.modUnit fun _ hm => hm.passRights
  split
  · exact State.Wf.reap (h2.modUnit fun _ hm => hm.forgetCrew)
  · exact h2.modUnit fun _ hm => hm.passRights

/-! ## Collectives and gangs -/

theorem execColTransferReceive {ctx : Nat} {gen : BitVec 32 × BitVec 32} {src dst kind k unitIx len op : Nat}
    {data : List (BitVec 8)} :
    Outcome.Wf (execColTransferReceive ctx gen src dst kind k unitIx len op data s) := by
  change State.Wf _
  split
  · exact h
  · split_ifs
    · exact h
    · exact h.failColOp
    · exact h
    · exact h.failColOp
    · exact h
    · exact h.landUnit

theorem execReceiverConfirmation {colop : Nat} : Outcome.Wf (execReceiverConfirmation colop s) := by
  change State.Wf _
  split
  · exact h
  · split
    · exact h
    · exact h.countUnit

theorem execColAbort {va : BitVec 7} : Outcome.Wf (execColAbort va s) := by
  refine h.guarded ?_
  dsimp only
  split
  · exact h
  split
  · exact h.groupTrap ‹_›
  split
  · exact h.consume
  · refine orElse_wf ?_ (h.outwardActive.lanewise fun _ _ _ ht => ht.drained fun _ hu => hu.withLine fun _ hv =>
      hv.closeLane.abortGroup)
    simp only [List.forall_mem_cons, List.not_mem_nil, IsEmpty.forall_iff, implies_true, and_true]
    exact ⟨fun _ hq => h.codeTrap hq, fun _ hq => h.codeTrap hq⟩

theorem execColStat {vd va : BitVec 7} : Outcome.Wf (execColStat vd va s) := by
  refine h.guarded ?_
  split
  · exact h.groupTrap ‹_›
  split
  · exact h.consume
  · refine h.outwardActive.lanewise fun _ _ _ ht => ht.drained fun _ hu => hu.withLine fun _ hv => ?_
    split
    · exact hv
    · exact hv.finishLane

theorem execColTimeoutExpiry {colop : Nat} : Outcome.Wf (execColTimeoutExpiry colop s) := by
  change State.Wf _
  split
  · exact h
  · split
    · exact h
    · exact h.abortGroup

theorem execAbortFlit {gid gen : BitVec 32} : Outcome.Wf (execAbortFlit gid gen s) :=
  h.foldl fun _ _ ht => ht.abortObject

theorem execColGangbar : Outcome.Wf (execColGangbar s) :=
  h.guarded (State.Wf.checkGangs (h.outwardActive.lanewise fun _ _ _ ht => by
    split
    · exact ht.gangLane
    · exact ht))

theorem execGangAck {gang member : Nat} : Outcome.Wf (execGangAck gang member s) := by
  change State.Wf _
  split
  · exact h
  · exact h.gangMember.checkGang

theorem execGangbarArrival {gang member : Nat} : Outcome.Wf (execGangbarArrival gang member s) := h.gangMember.checkGang

theorem execGangWindowExpiry {gang : Nat} : Outcome.Wf (execGangWindowExpiry gang s) := by
  change State.Wf _
  split
  · exact h
  · split
    · exact h
    · exact h.send.failGang

theorem execGangFailFlit {gang member : Nat} : Outcome.Wf (execGangFailFlit gang member s) := by
  change State.Wf _
  split
  · exact h
  · split
    · exact h
    · exact h.failGang

/-! ## Power -/

theorem execBudgetMessage {msg : BitVec 128} : Outcome.Wf (execBudgetMessage msg s) := by
  change State.Wf _
  split
  · exact h
  · extract_lets m newer
    clear_value newer
    split <;> exact h

theorem execBudgetTick {load : Nat} : Outcome.Wf (execBudgetTick load s) := by
  change State.Wf _
  split
  · exact h
  split
  · refine State.Wf.settleDraw ?_
    exact h
  · refine State.Wf.send (State.Wf.settleDraw ?_)
    exact h.free.free

theorem execPowerControlApply {die cluster : Nat} {ratios : List Nat} {passes : Nat} :
    Outcome.Wf (execPowerControlApply die cluster ratios passes s) := by
  change State.Wf _
  split
  · exact h.modCluster fun _ hk => hk
  · exact h

theorem execBallastStep {die cluster unit rate : Nat} : Outcome.Wf (execBallastStep die cluster unit rate s) := by
  change State.Wf _
  refine State.Wf.ite (h.modCluster fun k hk => ?_) h
  exact hk

/-! ## Queues and iterators -/

theorem execQStat {vd va : BitVec 7} {la : BitVec 4} : Outcome.Wf (execQStat vd va la s) := by
  refine h.guarded ?_
  split
  · exact h.queueTrap ‹_›
  split
  · exact h.consume
  · refine h.outwardActive.lanewise fun _ _ _ ht => ht.queueLane fun _ hu => ?_
    split
    · exact hu
    · exact hu.finishLane

theorem execEmit {va sz : BitVec 7} : Outcome.Wf (execEmit va sz s) := by
  refine h.guarded ?_
  split
  · exact h.queueTrap ‹_›
  split
  · exact h.consume
  · exact h.outwardActive.lanewise fun _ _ _ ht => ht.emitLane

theorem execItNext {vd vn : BitVec 7} {la : BitVec 4} {k : BitVec 3} : Outcome.Wf (execItNext vd vn la k s) := by
  refine h.guarded ?_
  have hrole : ∀ code info, ∀ o ∈ [s.roleTrap true code info], ∀ t, o = some t → t.Wf := by
    simp only [List.mem_singleton, forall_eq]
    exact fun _ _ _ hq => h.roleTrap hq
  split
  · exact h.completeNone
  split
  · exact h
  dsimp only
  split
  · exact orElse_wf (hrole _ _) h
  next st _ =>
  generalize (if st.w2 = true then 2 else 1) = w
  split
  · exact h.illegalOp
  split
  · exact orElse_wf (hrole _ _) h
  split
  · exact h.drainLanes
  split
  · exact h.drainLanes.skipInactive.foldl fun _ _ ht => ht.park
  · exact h.drainLanes.startPull

theorem execPullResume {crew stack : Nat} : Outcome.Wf (execPullResume crew stack s) := h.resumePull

theorem execItEnough {k : BitVec 3} : Outcome.Wf (execItEnough k s) := h.stackForm fun _ _ ht => ht.enough

theorem execItFree {k : BitVec 3} : Outcome.Wf (execItFree k s) :=
  h.stackForm fun _ _ ht => ht.returnStack.modCrew fun _ hc => hc

theorem execItStat {vd : BitVec 7} {k : BitVec 3} {la : BitVec 4} : Outcome.Wf (execItStat vd k la s) := by
  refine h.guarded ?_
  split
  · exact h
  · exact h.outwardActive.complete

theorem execItRd {va : BitVec 7} {depth k : BitVec 3} : Outcome.Wf (execItRd va depth k s) := by
  refine h.guarded ?_
  split
  · next hq => exact h.addressTrap hq
  · exact h
  split
  · refine orElse_wf ?_ h.completeNone
    simp only [List.mem_singleton, forall_eq]
    exact fun _ hq => h.roleTrap hq
  · refine orElse_wf ?_ (h.outwardActive.lanewise fun _ _ _ ht => ?_)
    · simp only [List.mem_singleton, forall_eq]
      exact fun _ hq => h.roleTrap hq
    · split
      · exact ht.park
      · exact ht.enterStore fun _ hu => hu.finishLane

/-! ## Translations, tests and ports -/

theorem execPageResponse {req : Nat} {success : Bool} : Outcome.Wf (execPageResponse req success s) := by
  change State.Wf _
  split
  · exact h
  · split_ifs
    · exact h
    · exact h.retryAts
    · exact h.xlateUnresolved

theorem execAtsCompletion {req : Nat} {success : Bool} : Outcome.Wf (execAtsCompletion req success s) := by
  change State.Wf _
  split
  · exact h
  · split_ifs
    · exact h
    · exact h.fillTlb.xlateServed
    · exact h.xlateUnresolved

theorem execDutyDeadline {req : Nat} : Outcome.Wf (execDutyDeadline req s) := by
  change State.Wf _
  split
  · exact h
  · split
    · exact h
    · exact h.xlateUnresolved

theorem execAtsInvalidation {pasid page bytes : Nat} : Outcome.Wf (execAtsInvalidation pasid page bytes s) := by
  change State.Wf _
  split <;> exact h

theorem execClusterWake {die cluster : Nat} {passed : Bool} : Outcome.Wf (execClusterWake die cluster passed s) := by
  change State.Wf _
  split
  · exact h
  split
  · exact State.Wf.afterTest (h.modCluster fun _ hk => hk)
  · have h1 : (s.modCluster die cluster fun k => { k with fenced := true, gated := false }).Wf :=
      h.modCluster fun _ hk => hk
    refine State.Wf.afterTest ?_
    exact h1

theorem execUnrecoveredLink : Outcome.Wf (execUnrecoveredLink s) := h

theorem execFlitCrcReplay {port : Nat} : Outcome.Wf (execFlitCrcReplay port s) := by
  change State.Wf _
  split <;> exact h

theorem execLaneFailure {port : Nat} : Outcome.Wf (execLaneFailure port s) := by
  change State.Wf _
  split <;> exact h

/-! ## Crews, launches, saves and restores -/

theorem execCrewStart {launch die cluster : Nat} {node : Option Nat} {homes : List Nat} :
    Outcome.Wf (execCrewStart launch die cluster node homes s) := by
  change State.Wf _
  split
  · exact h
  split
  · exact h.startNext
  split
  · exact h
  split
  · exact h.startSuccessor
  · exact h

theorem execNodeFlushTimer {launch die node cluster : Nat} {homes : List Nat} :
    Outcome.Wf (execNodeFlushTimer launch die node cluster homes s) := by
  change State.Wf _
  split
  · exact h
  split
  · exact h
  split
  · exact h.startSuccessor
  · exact h

theorem execLaunchComplete {launch : Nat} : Outcome.Wf (execLaunchComplete launch s) := by
  change State.Wf _
  split
  · exact h
  next l _ =>
  split
  · exact h
  · extract_lets s1 s2 s3 s4
    have h1 : s1.Wf := by
      unfold s1
      split
      · exact h.log
      · exact h
    have h3 : s3.Wf := h1.recordResult.modContext fun _ hx => hx
    have h4 : s4.Wf := { h3 with launches := h3.launches.drop }
    clear_value s4
    split
    · exact h4.finishNamed
    · exact h4.advanceQueues

theorem execSaveDrainComplete {crew : Nat} : Outcome.Wf (execSaveDrainComplete crew s) := by
  change State.Wf _
  split
  · exact h
  split
  · exact h
  split
  · split
    · exact h.consumedDrained
    · exact h
  · split
    · exact h
    · exact h.finishSave

theorem execDrainLimitExpiry {crew : Nat} : Outcome.Wf (execDrainLimitExpiry crew s) := by
  change State.Wf _
  split
  · exact h
  · exact (h.foldl fun _ _ ht => ht.failCopy).foldl fun _ _ ht => ht.endElem

theorem execSliceExpiry : Outcome.Wf (execSliceExpiry s) := by
  change State.Wf _
  split
  · exact h
  split
  · split
    · exact h.openSlice
    · exact h
  · dsimp only
    split
    · exact h
    · split_ifs
      · exact h
      · exact h
      · exact h.saveSlice
      · exact h
      · exact h.openSlice

theorem execRestoreInstall {ctx saved die cluster : Nat} {homes : List Nat} :
    Outcome.Wf (execRestoreInstall ctx saved die cluster homes s) := by
  change State.Wf _
  split
  · exact h
  next x hx =>
  split
  · exact h
  next v hv =>
  have hvc : v.crew.Wf := h.saved hx (List.mem_of_find?_eq_some hv)
  extract_lets go
  have hgo : ∀ bs t, go bs = some t → t.Wf := by
    intro bs t ht
    unfold go at ht
    split at ht
    · exact h.installCrew hvc ht
    · cases ht
  clear_value go
  split
  · split
    · exact h.recordResult
    · split
      · exact (hgo _ _ ‹_›).recordResult
      · exact h
  split
  · exact h
  split
  · split
    · exact h
    · split
      · next hq =>
        have hu := hgo _ _ hq
        exact hu
      · exact h
  · split
    · next bs _ _ _ =>
      cases hq : go bs with
      | none => exact h
      | some t => exact hgo _ _ hq
    · exact h

theorem execXlBallotN64 {vd : BitVec 7} {pk : BitVec 3} {tr : Bool} : Outcome.Wf (execXlBallotN64 vd pk tr s) := h.xlane

theorem execXlAddI32 {vd va : BitVec 7} {tr : Bool} : Outcome.Wf (execXlAddI32 vd va tr s) := h.xlane

/-! ## Command records -/

theorem execSave {fn slot : Nat} : Outcome.Wf (execSave fn slot s) :=
  h.onContext fun t _ _ ht => by
    split
    · exact ht
    · refine ht.namedCrew fun lid l => ?_
      split
      · exact ht.recordResult
      · split_ifs
        · exact ht.recordResult
        · exact ht
        · exact ht.recordRange fun _ hu => hu.beginSave

theorem execRestore {fn slot : Nat} : Outcome.Wf (execRestore fn slot s) :=
  h.onContext fun t _ _ ht => by
    split
    · split
      · exact ht.recordResult
      · split
        · exact ht.recordResult
        · exact ht
    · split
      · exact ht
      · exact ht.namedCrew fun _ _ => ht.stageImage

theorem execSlotTake {fn : Nat} : Outcome.Wf (execSlotTake fn s) := by
  change State.Wf _
  split
  · exact h.takeSlot
  · exact h

theorem execRecordCompletion {fn slot : Nat} : Outcome.Wf (execRecordCompletion fn slot s) := by
  change State.Wf _
  split
  · exact h
  split
  · exact h
  split
  · exact h
  · exact h.completeRecord

theorem execCtxNew {fn slot : Nat} : Outcome.Wf (execCtxNew fn slot s) :=
  h.onRecord fun t _ ht => by
    split
    · exact ht.recordResult
    · have hf := ht.freeContext
      split
      · next hq =>
        rw [hq] at hf
        exact hf.recordResult
      · next u hq =>
        rw [hq] at hf
        refine State.Wf.recordResult ?_
        exact { hf with contexts := hf.contexts.put (fun _ hv => nomatch hv) }

theorem execCtxEnd {fn slot : Nat} : Outcome.Wf (execCtxEnd fn slot s) :=
  h.onContext fun t k _ ht => by
    dsimp only
    split
    · exact ht
    · have hw := ht.foldl (xs := t.contextWorkers k.ctx) (f := fun (u : State) w => u.deleteWorker w.1 w.2 none)
        fun _ _ hu => hu.deleteWorker
      split
      · exact hw
      · exact hw.dropContext.recordResult

theorem execMap {fn slot : Nat} : Outcome.Wf (execMap fn slot s) :=
  h.onContext fun t _ _ ht => by
    dsimp only
    split
    · exact ht.recordResult
    split
    · exact ht
    · refine State.Wf.recordResult (State.Wf.ite ?_ ?_)
      · refine State.Wf.dropTlb (ht.modContext fun x hx => ?_)
        exact hx
      · refine State.Wf.zeroFrames (State.Wf.dropTlb (ht.modContext fun x hx => ?_))
        exact hx

theorem execUnmap {fn slot : Nat} : Outcome.Wf (execUnmap fn slot s) :=
  h.onContext fun t _ _ ht => by
    dsimp only
    split_ifs
    · exact ht.recordResult
    · exact ht.recordResult
    · exact ht
    · refine State.Wf.recordResult (ht.modContext fun x hx => ?_)
      exact hx

theorem execLoad {fn slot : Nat} : Outcome.Wf (execLoad fn slot s) :=
  h.onContext fun t _ _ ht => by
    split
    · exact ht
    · refine ht.recordRange fun u hu => ?_
      dsimp only
      split_ifs
      · exact hu.finishLoad
      · exact hu.dutyCall.modTaken
      · exact hu.recordResult

theorem execUnload {fn slot : Nat} : Outcome.Wf (execUnload fn slot s) :=
  h.onContext fun t _ _ ht => by
    split_ifs
    · exact ht.recordResult
    · exact ht.recordResult
    · refine State.Wf.recordResult (State.Wf.dropFrames (ht.modContext fun x hx => ?_))
      exact hx

theorem execLaunch {fn slot : Nat} : Outcome.Wf (execLaunch fn slot s) :=
  h.onContext fun t _ _ ht => by
    split_ifs
    · exact ht
    · exact ht.recordResult
    · exact ht.recordRange fun _ hu => hu.submit

theorem execQweight {fn slot : Nat} : Outcome.Wf (execQweight fn slot s) := by
  refine h.onContext fun t _ _ ht => State.Wf.recordResult (ht.modContext fun x hx => ?_)
  exact hx

theorem execDuty {fn slot : Nat} : Outcome.Wf (execDuty fn slot s) :=
  h.onContext fun t _ _ ht => by
    dsimp only
    split
    · exact ht.recordResult
    · exact ht.writeDuty.recordResult

theorem execQuantum {fn slot : Nat} : Outcome.Wf (execQuantum fn slot s) :=
  h.onRecord fun t _ ht => by
    split
    · exact ht.recordResult
    · refine State.Wf.recordResult (ht.modFn fun f hf => ?_)
      exact hf

theorem execTlWaitRecord {fn slot : Nat} : Outcome.Wf (execTlWaitRecord fn slot s) :=
  h.onContext fun t _ _ ht => by
    split
    · exact ht
    · exact ht.recordResult

theorem execTlRead {fn slot : Nat} : Outcome.Wf (execTlRead fn slot s) := h.onContext fun _ _ _ ht => ht.recordResult

theorem execWorkerAdd {fn slot : Nat} : Outcome.Wf (execWorkerAdd fn slot s) :=
  h.onContext fun t _ _ ht => by
    dsimp only
    split
    · exact ht.recordResult
    split
    · split
      · exact ht.recordResult
      · exact ht.addWorker
    · refine ht.recordRange fun u hu => ?_
      split
      · exact hu.addWorker
      · exact hu.recordResult

theorem execWorkerDel {fn slot : Nat} : Outcome.Wf (execWorkerDel fn slot s) :=
  h.onContext fun t _ _ ht => by
    split
    · exact ht.recordResult
    · split_ifs
      · exact ht.recordResult
      · exact ht
      · exact ht.deleteWorker

/-! ## Host calls and attendant cores -/

theorem execHcall {vd va : BitVec 7} : Outcome.Wf (execHcall vd va s) := by
  refine h.guarded (orElse_wf ?_ (h.outwardActive.lanewise fun _ _ _ ht => ?_))
  · simp only [List.forall_mem_cons, List.not_mem_nil, IsEmpty.forall_iff, implies_true, and_true]
    exact ⟨fun _ hq => h.codeTrap hq, fun _ hq => h.codeTrap hq⟩
  · split
    · exact ht.hcallAgain
    · exact ht.hcallLane

theorem execCallDispatch {ctx cls : Nat} : Outcome.Wf (execCallDispatch ctx cls s) := by
  change State.Wf _
  split
  · exact h
  split
  · exact h.endCall
  split
  · exact h.takeCall
  split
  · next hq => exact (h.freeTag_eq hq).takeCall
  · next hq => exact h.freeTag_eq hq

theorem execCallDeadline {call : Nat} : Outcome.Wf (execCallDeadline call s) := by
  change State.Wf _
  split
  · exact h
  · split
    · exact h
    · exact h.passDeadline

theorem execReplyPail {fn worker : Nat} : Outcome.Wf (execReplyPail fn worker s) := by
  change State.Wf _
  split
  · exact h
  dsimp only
  split
  · exact h
  have ht := fun ph => State.Wf.modWorker (fn := fn) (w := worker) (f := fun k => { k with replyPh := ph })
    (h.modFn (n := fn) (f := fun f => f.takeLine (replyOffset worker)) fun _ hf => hf)
  split
  · exact (ht _).stray
  split
  · exact (ht _).stray
  · exact (ht _).acceptReply

theorem execHostLinkDown : Outcome.Wf (execHostLinkDown s) := by
  change State.Wf _
  split
  · exact h
  · refine State.Wf.foldl (State.Wf.foldl (State.Wf.foldl ?_ fun _ _ ht => ht.endCall) fun _ _ ht => ht.failFar)
      fun _ _ ht => ht.xlateServed
    exact h

theorem execXsfVld {nf : BitVec 3} {rs2 rs1 vd : BitVec 5} : Outcome.Wf (execXsfVld nf rs2 rs1 vd s) := by
  change State.Wf _
  split
  · exact h.coreFault
  · dsimp only
    split
    · exact h.modCore.coreFault
    · exact h.modCore
    · exact h.coreNext

theorem execXsfVst {nf : BitVec 3} {rs2 rs1 vs : BitVec 5} : Outcome.Wf (execXsfVst nf rs2 rs1 vs s) := by
  change State.Wf _
  split
  · exact h.coreFault
  · dsimp only
    split
    · exact h.storeLines.coreFault
    · exact h.storeLines.modCore
    · exact h.storeLines.coreNext

/-! ## Reset, boot and the links -/

theorem execModuleReset : Outcome.Wf (execModuleReset s) := by
  change State.Wf _
  have ht : s.afterReset.Wf := h.afterReset
  split
  · exact ht.bootFrom _
  · exact ht

theorem execPodImageReceive {port stage : Nat} {image : List (BitVec 8)} :
    Outcome.Wf (execPodImageReceive port stage image s) := by
  change State.Wf _
  split
  · exact h
  dsimp only
  split
  · refine State.Wf.send ?_
    exact h
  · refine State.Wf.afterTest ?_
    have hf : ∀ t : State, t.Wf → State.Wf { t.forwardImage stage with boot := .waiting (stage + 1) } :=
      fun _ ht => ht.forwardImage
    exact hf _ h

theorem execParentSilenceTimeout : Outcome.Wf (execParentSilenceTimeout s) := by
  change State.Wf _
  split
  · split
    · exact h
    · split <;> exact h
  · exact h

theorem execImageRequest {port stage : Nat} : Outcome.Wf (execImageRequest port stage s) := by
  change State.Wf _
  split
  · exact h.send
  · exact h

theorem execAttestQuote {nonce : BitVec 256} : Outcome.Wf (execAttestQuote nonce s) := by
  change State.Wf _
  split
  · exact h
  · exact h.send

theorem execHostLinkTrain {cxl : Bool} : Outcome.Wf (execHostLinkTrain cxl s) := by
  change State.Wf _
  split <;> exact h

/-! ## Ends, traps and the remaining events -/

theorem execEndThread : Outcome.Wf (execEndThread s) := by
  refine h.flushed.guarded (h.flushed.lanewise fun t ln th ht => ?_)
  have hd : (t.drainFifo t.cur.crew ln.tid).Wf := ht.drainFifo
  dsimp only
  split
  · exact hd
  split
  · exact hd.park
  split
  · refine State.Wf.trapLane (hd.modThread fun u hu => ?_)
    exact hu
  · exact hd.endThread

theorem execTrap {hi lo : BitVec 7} : Outcome.Wf (execTrap hi lo s) := by
  refine h.flushed.guarded ?_
  split
  · exact h.flushed.laneTrap ‹_›
  · exact h.flushed.completeNone

theorem execTret : Outcome.Wf (execTret s) := by
  refine h.flushed.guarded ?_
  split
  · exact h.flushed.laneTrap ‹_›
  split
  · exact h.flushed
  split
  · exact h.flushed.laneTrap ‹_›
  split
  · exact h.flushed.consume
  split
  · exact h.flushed.laneTrap ‹_›
  · exact h.flushed.lanewise fun _ _ _ ht => ht.withLine fun _ hu => hu.withLine fun _ hv =>
      hv.modThread fun _ hth => hth.leaveHandler

theorem execPfx {pred : BitVec 3} {mz : Bool} {rnd : BitVec 3} {vc : BitVec 7} {neg : Bool} :
    Outcome.Wf (execPfx pred mz rnd vc neg s) := by
  change State.Wf _
  split
  · exact h
  · split
    · exact h.illegalPrefix
    · exact h

theorem execUnassignedEncoding {word : BitVec 32} : Outcome.Wf (execUnassignedEncoding word s) := by
  change State.Wf _
  split
  · exact h
  · exact h.illegalOp

theorem execFleetingTick : Outcome.Wf (execFleetingTick s) := h

theorem execHostAccess {ctx addr : Nat} {write : Bool} {data : List (BitVec 8)} :
    Outcome.Wf (execHostAccess ctx addr write data s) := by
  change State.Wf _
  split
  · exact h
  split
  · exact h.noData
  split
  · exact h.writeMain
  split
  · exact h.send
  · exact h.send

theorem execPeerRequest {port addr kind aop : Nat} {wide : Bool} {x c : BitVec 64} {data : List (BitVec 8)} :
    Outcome.Wf (execPeerRequest port addr kind aop wide x c data s) := by
  change State.Wf _
  split
  · exact h
  split
  · split <;> exact h.send
  · exact h.writeFrames.send
  · split
    · exact h.peerAtomic
    · exact h
  · exact h

end State.Wf

end Sys2Proof.Machine
end

section
/-! SUPPORT. The dispatch, the fetches and the step keep the canonical form; the obligation. -/

namespace Sys2Proof.Machine

open Sys2Proof

/-- What an attendant core's fetch leaves behind, for the two answers that leave a state. -/
def CoreFetch.Wf : CoreFetch → Prop
  | .run _ s => s.Wf
  | .done s => s.Wf
  | .base _ => True

namespace State.Wf

variable {s : State} (h : s.Wf)
include h

/-- Every instruction keeps the memories canonical: an arm that is one call of a shared form by the lemma of the form,
any other by the lemma of its own meaning. -/
theorem exec {i : Instr} : Outcome.Wf (exec i s) := by
  cases i with
  | addI32 | subI32 | negI32 | absI32 | avgI32 | avgN32 | adiffI32 | adiffN32 | addI64 | subI64 | negI64 | absI64
  | addwI64I32 | addwN64N32 | addsatI32 | subsatI32 | addsatN32 | subsatN32 | negsatI32 | abssatI32 | mulI32
  | mulhiI32 | mulhiN32 | madI32 | mulwI32 | mulwN32 | divI32 | divN32 | remI32 | remN32 | divI64 | divN64 | remI64
  | remN64 | minI32 | maxI32 | minN32 | maxN32 | minI64 | maxI64 | minN64 | maxN64 | andN32 | orN32 | xorN32 | andnN32
  | ornN32 | xnorN32 | notN32 | shlN32 | shrN32 | shrI32 | rolN32 | rorN32 | popcN32 | clzN32 | ctzN32 | brevN32
  | bswapN32 | popcN64 | clzN64 | bfeN32 | bfeI32 | bfiN32 | cmpI32 | selN32 | movN32 | shaddN32 | shaddN64 | addI16
  | subI16 | addI8 | subI8 | addsatI16 | subsatI16 | addsatN8 | dotI8 | pand | por | pxor | pandn | pnot | ptovN32
  | vtopN32 | mulI64 | shlN64 | shrN64 | shrI64 | cmpEqI64 | cmpLtI64 | cmpLtN64 | movN64 | addI32Imm | addI64Imm
  | addsatI32Imm | addsatN32Imm | andN32Imm | orN32Imm | xorN32Imm | shlN32Imm | shrN32Imm | shrI32Imm | rorN32Imm
  | setEqI32 | setNeI32 | setLtI32 | setLtN32 | movlN32 | movhN32 | movI32Imm | movN32Imm | mulI32Imm | mulI64Imm
  | minI32Imm | maxI32Imm | minN32Imm | maxN32Imm | faddF32 | fsubF32 | fmulF32 | fmaF32 | fmsF32 | fnmaF32 | fminF32
  | fmaxF32 | fcmpF32 | faddF64 | fsubF64 | fmulF64 | fmaF64 | fmsF64 | fnmaF64 | fminF64 | fmaxF64 | fcmpF64
  | faddF16 | fmulF16 | fmaF16 | faddBf16 | fmulBf16 | fmaBf16 | fmaxF16 | fmaxBf16 | faddE4m3 | fmulE4m3 | faddE5m2
  | fmulE5m2 | fdotF32E4m3 | fdotF32E5m2 | cvtF16E4m3 | cvtF16E5m2 | fdivF32 | fsqrtF32 | rcpF32 | rsqrtF32 | exp2F32
  | log2F32 | sinpiF32 | cospiF32 | fdivF64 | fsqrtF64 | fabsF32 | fnegF32 | fcopysignF32 | fclassF32 | fabsF64
  | fnegF64 | fcopysignF64 | fclassF64 | faddF32Imm | fmulF32Imm | fmaxF32Imm | fminF32Imm | faddF64Imm | fmulF64Imm
  | fmaxF64Imm | fminF64Imm | fmulF16Imm | fmulBf16Imm | fmulE4m3Imm | fmulE5m2Imm | cvtF32I32 | cvtF32N32 | cvtI32F32
  | cvtN32F32 | cvtF64I64 | cvtI64F64 | cvtF64I32 | cvtI32F64 | cvtF64F32 | cvtF32F64 | cvtF32F16 | cvtF16F32
  | cvtF32Bf16 | cvtBf16F32 | cvtE4m3F32 | cvtE5m2F32 =>
    exact h.alu
  | cvtSx2F32 | cvtSx4F32 | cvtSx7F32 | cvtF32Sx2 | cvtF32Sx4 | cvtF32Sx7 =>
    exact h.blockOp
  | xlIdxN32 | xlXorN32 | xlUpN32 | xlDownN32 | xlIdxN64 =>
    exact h.xlRead
  | ldStk | ldSh | ldDie | ldFl =>
    exact h.lmLoad
  | stStk | stSh | stDie | stFl =>
    exact h.lmStore
  | atomAdd | atomAnd | atomOr | atomXor | atomMinI | atomMaxI | atomMinN | atomMaxN | atomExch | atomCas =>
    exact h.atoms
  | kick | kickN =>
    exact h.kickForm
  | atomFarAdd | atomFarAnd | atomFarOr | atomFarXor | atomFarMinI | atomFarMaxI | atomFarMinN | atomFarMaxN
  | atomFarExch | atomFarCas =>
    exact h.farForm
  | mma | mmaZero =>
    exact h.mma
  | itRange | itList | itBits | itQueue | itMap | itFilter | itZip | itChain | itFlat =>
    exact h.itPush
  | qPush | qPushNb =>
    exact h.qpush
  | qPop | qPopNb =>
    exact h.qpop
  | colSend | colRecv | colRed =>
    exact h.colForm
  | gAddI64 | gSubI64 | gMulI64 | gMulhiI64 | gMulhiN64 | gDivI64 | gDivN64 | gRemI64 | gRemN64 | gAndN64 | gOrN64
  | gXorN64 | gAndnN64 | gShlN64 | gShrN64 | gShrI64 | gRolN64 | gRorN64 | gSetEqI64 | gSetNeI64 | gSetLtI64
  | gSetLeI64 | gSetLtN64 | gSetLeN64 | gMinI64 | gMaxI64 | gMinN64 | gMaxN64 =>
    exact h.ualu
  | gNegI64 | gAbsI64 | gNotN64 | gMovN64 | gPopcN64 | gClzN64 | gCtzN64 | gBrevN64 =>
    exact h.ualu1
  | gMovnzN64 | gMovzN64 =>
    exact h.umovIf
  | gAddI64Imm | gMulI64Imm | gMinI64Imm | gMaxI64Imm | gAndN64Imm | gOrN64Imm | gXorN64Imm | gAndI64Imm
  | gShlN64Imm | gShrN64Imm | gShrI64Imm | gRolN64Imm | gMovk16 | gMovk32 | gMovk48 =>
    exact h.ualuImm
  | gLdSh | gLdDie =>
    exact h.uload
  | gStSh | gStDie =>
    exact h.ustore
  | xlBallotN64 => exact h.execXlBallotN64
  | xlAddI32 => exact h.execXlAddI32
  | ldAcq => exact h.execLdAcq
  | stRel => exact h.execStRel
  | stNt => exact h.execStNt
  | br => exact h.execBr
  | call => exact h.execCall
  | loopBr => exact h.execLoopBr
  | nop => exact h.execNop
  | ret => exact h.execRet
  | brInd => exact h.execBrInd
  | callInd => exact h.execCallInd
  | rgn => exact h.execRgn
  | ixSet => exact h.execIxSet
  | ixGet => exact h.execIxGet
  | rotSet => exact h.execRotSet
  | fence => exact h.execFence
  | ntDrain => exact h.execNtDrain
  | srRd => exact h.execSrRd
  | spGet => exact h.execSpGet
  | spSet => exact h.execSpSet
  | tbJoin => exact h.execTbJoin
  | tbSign => exact h.execTbSign
  | tbWait => exact h.execTbWait
  | weld => exact h.execWeld
  | ltArrive => exact h.execLtArrive
  | ltWait => exact h.execLtWait
  | ltPhase => exact h.execLtPhase
  | tlWait => exact h.execTlWait
  | tlRd => exact h.execTlRd
  | barCrew => exact h.execBarCrew
  | unjoin => exact h.execUnjoin
  | endThread => exact h.execEndThread
  | trap => exact h.execTrap
  | tret => exact h.execTret
  | cpT => exact h.execCpT
  | cpWait => exact h.execCpWait
  | cpCnt => exact h.execCpCnt
  | cpWaitAll => exact h.execCpWaitAll
  | flBirth => exact h.execFlBirth
  | flBirthZ => exact h.execFlBirthZ
  | flRenew => exact h.execFlRenew
  | flLife => exact h.execFlLife
  | flFree => exact h.execFlFree
  | flStat => exact h.execFlStat
  | flStatClr => exact h.execFlStatClr
  | mxLease => exact h.execMxLease
  | mxRelease => exact h.execMxRelease
  | obResv => exact h.execObResv
  | obFree => exact h.execObFree
  | obLd => exact h.execObLd
  | accRd => exact h.execAccRd
  | accWait => exact h.execAccWait
  | mxFreeze => exact h.execMxFreeze
  | mxThaw => exact h.execMxThaw
  | accDrain => exact h.execAccDrain
  | accFill => exact h.execAccFill
  | obDrain => exact h.execObDrain
  | obFill => exact h.execObFill
  | itNext => exact h.execItNext
  | itEnough => exact h.execItEnough
  | itFree => exact h.execItFree
  | itStat => exact h.execItStat
  | itRd => exact h.execItRd
  | qStat => exact h.execQStat
  | emit => exact h.execEmit
  | hcall => exact h.execHcall
  | colGangbar => exact h.execColGangbar
  | colAbort => exact h.execColAbort
  | colStat => exact h.execColStat
  | pfx => exact h.execPfx
  | gMovI64Imm => exact h.execGMovI64Imm
  | gMovN64Imm => exact h.execGMovN64Imm
  | gBr => exact h.execGBr
  | gRdsr => exact h.execGRdsr
  | gUconfClr => exact h.execGUconfClr
  | gRdvN32 => exact h.execGRdvN32
  | gWrvN32 => exact h.execGWrvN32
  | gWrvN64 => exact h.execGWrvN64
  | xsfVld => exact h.execXsfVld
  | xsfVst => exact h.execXsfVst
  | mmaAccept => exact h.execMmaAccept
  | mmaComplete => exact h.execMmaComplete
  | overlayFetchComplete => exact h.execOverlayFetchComplete
  | copyElementWrite => exact h.execCopyElementWrite
  | pageResponse => exact h.execPageResponse
  | cptElementPerform => exact h.execCptElementPerform
  | farAtomicResponse => exact h.execFarAtomicResponse
  | atomicopUrCompletion => exact h.execAtomicopUrCompletion
  | atsInvalidation => exact h.execAtsInvalidation
  | fleetingTick => exact h.execFleetingTick
  | crewStart => exact h.execCrewStart
  | launchComplete => exact h.execLaunchComplete
  | nodeFlushTimer => exact h.execNodeFlushTimer
  | churnMove => exact h.execChurnMove
  | pullResume => exact h.execPullResume
  | sliceExpiry => exact h.execSliceExpiry
  | saveDrainComplete => exact h.execSaveDrainComplete
  | drainLimitExpiry => exact h.execDrainLimitExpiry
  | restoreInstall => exact h.execRestoreInstall
  | hostLinkTrain => exact h.execHostLinkTrain
  | slotTake => exact h.execSlotTake
  | ctxNew => exact h.execCtxNew
  | ctxEnd => exact h.execCtxEnd
  | map => exact h.execMap
  | unmap => exact h.execUnmap
  | load => exact h.execLoad
  | unload => exact h.execUnload
  | launch => exact h.execLaunch
  | qweight => exact h.execQweight
  | duty => exact h.execDuty
  | quantum => exact h.execQuantum
  | save => exact h.execSave
  | restore => exact h.execRestore
  | tlWaitRecord => exact h.execTlWaitRecord
  | tlRead => exact h.execTlRead
  | workerAdd => exact h.execWorkerAdd
  | workerDel => exact h.execWorkerDel
  | recordCompletion => exact h.execRecordCompletion
  | callDispatch => exact h.execCallDispatch
  | replyPail => exact h.execReplyPail
  | callDeadline => exact h.execCallDeadline
  | dutyDeadline => exact h.execDutyDeadline
  | colTransferReceive => exact h.execColTransferReceive
  | colTimeoutExpiry => exact h.execColTimeoutExpiry
  | abortFlit => exact h.execAbortFlit
  | gangAck => exact h.execGangAck
  | gangWindowExpiry => exact h.execGangWindowExpiry
  | gangFailFlit => exact h.execGangFailFlit
  | budgetTick => exact h.execBudgetTick
  | budgetMessage => exact h.execBudgetMessage
  | powerControlApply => exact h.execPowerControlApply
  | ballastStep => exact h.execBallastStep
  | flitCrcReplay => exact h.execFlitCrcReplay
  | laneFailure => exact h.execLaneFailure
  | hostLinkDown => exact h.execHostLinkDown
  | moduleReset => exact h.execModuleReset
  | podImageReceive => exact h.execPodImageReceive
  | parentSilenceTimeout => exact h.execParentSilenceTimeout
  | attestQuote => exact h.execAttestQuote
  | clusterWake => exact h.execClusterWake
  | unassignedEncoding word => exact h.execUnassignedEncoding (word := word)
  | hostAccess => exact h.execHostAccess
  | peerRequest => exact h.execPeerRequest
  | atsCompletion => exact h.execAtsCompletion
  | unrecoveredLink => exact h.execUnrecoveredLink
  | receiverConfirmation => exact h.execReceiverConfirmation
  | gangbarArrival => exact h.execGangbarArrival
  | imageRequest => exact h.execImageRequest

omit h in
theorem runWords (is : List (Word × Instr)) (h : s.Wf) : Outcome.Wf (runWords is s) := by
  induction is generalizing s with
  | nil => exact h
  | cons e r ih =>
    have hx : Outcome.Wf (Machine.exec e.2 (s.withWord e.1)) := h.withWord.exec
    unfold Machine.runWords
    split
    · next hq =>
      rw [hq] at hx
      exact ih hx
    · trivial
    · trivial

omit h in
theorem runFetched {f : Fetched} (h : f.state.Wf) : Outcome.Wf (runFetched f) := by
  cases f with
  | done s => exact h
  | run is s => exact State.Wf.runWords is h

theorem coreInstr {n : Nat} : (s.coreInstr n).Wf := by
  have hu : State.Wf { s with curCore := n } := h
  unfold State.coreInstr
  extract_lets u
  change u.Wf at hu
  clear_value u
  dsimp only
  split
  · exact hu
  split
  · exact hu.coreFault
  split
  · trivial
  split
  · exact hu
  · exact hu.coreFault

theorem move {m : Move} : Outcome.Wf (s.move m) := by
  have hw : Outcome.Wf (.next (s.world m)) := h.world
  cases m with
  | issue c tids => exact h.fetchIssue.runFetched
  | retry c tid => exact h.fetchRetry.runFetched
  | event e =>
    change Outcome.Wf (if e.kind = .event then Machine.exec e s else .next s)
    split
    · exact h.exec
    · exact h
  | attendant core =>
    have hi : (s.coreInstr core).Wf := h.coreInstr
    unfold State.move
    dsimp only
    split
    · next hq =>
      rw [hq] at hi
      exact hi.exec
    · next hq =>
      rw [hq] at hi
      exact hi
    · trivial
  | _ => exact hw

/-- One step keeps every memory in its canonical form. -/
theorem step : Outcome.Wf (step s) := by
  have hm : State.Wf { s with agenda := s.nextMove.2 } := h
  unfold Machine.step
  split
  · trivial
  · exact hm.move

end State.Wf

end Sys2Proof.Machine

namespace Sys2Proof

open Machine

/-- Settles O57: each instruction, each fetch and each move of the world keeps every part of the machine that holds
memory in its canonical form (`State.Wf.step`), and the architect's predicate says just that of all parts
(`State.wf_iff`). -/
theorem memoriesInvariant : Obligations.MemoriesInvariant := by
  unfold Obligations.MemoriesInvariant
  intro s t hs ht
  have hstep : Outcome.Wf (step s) := ((State.wf_iff s).mp hs).step
  rw [ht] at hstep
  exact (State.wf_iff t).mpr hstep

end Sys2Proof
end

section
/-! SUPPORT. lt.phase of a thread that no longer stands at the bundle's instruction leaves the machine as it is (R171), and
the statement on latches, timelines and the crew barrier, whose clause for lt.phase asks nothing of where the thread
stands. -/

namespace Sys2Proof.Machine

open Sys2Proof

variable {s : State} {tid : Nat} {cr : Crew} {th : Thread}

/-- Where the thread of a one-thread bundle stands. -/
theorem State.Solo.stillHere (h : s.Solo tid cr th) :
    s.stillHere tid = (!th.ended && decide (th.pc = s.cur.pc)) := by
  unfold State.stillHere
  rw [h.thread]

/-- An instruction has at least one word (R60). -/
theorem Bundle.ofNat_length_ne_zero (b : Bundle) : BitVec.ofNat 32 b.length ≠ 0#32 := by
  unfold Bundle.length
  split <;> decide

/-- A state in which the thread has completed the bundle's instruction is another one: pc has moved. -/
theorem State.Solo.not_onlyThread_commit_self (h : s.Solo tid cr th) (k : Nat) (rs : Results) :
    ¬s.OnlyThread s tid (th.commit s.cur.length (.after k) rs) := by
  rintro ⟨-, -, hth, -⟩
  have hsame : th = th.commit s.cur.length (.after k) rs := Option.some.inj (h.thread.symm.trans hth)
  have hpc : th.pc = th.pc + BitVec.ofNat 32 s.cur.length :=
    (congrArg Thread.pc hsame).trans (th.commit_after s.cur.length k rs).1
  exact s.cur.ofNat_length_ne_zero (by simpa using hpc)

/-- lt.phase of one thread whose latch passes R169: the thread reads the latch where it still stands at the instruction,
and otherwise nothing happens. -/
theorem State.Solo.execLtPhase_eq (h : s.Solo tid cr th) (va vd : BitVec 7) (la : BitVec 4)
    (hc : s.Clear (lx [lxSrc32 va, lxDst32 vd] false))
    (hb : s.inBounds cr .sh (th.read32 va).toNat 16 = true) (ha : (th.read32 va).toNat % 16 = 0)
    (hp : s.spacePoison cr th .sh (th.read32 va).toNat 16 false = none) :
    execLtPhase va vd la s = .next (if s.stillHere tid then
        s.complete (.after la.toNat) fun _ u => [(.reg (u.regOf vd),
          let x := viewLatch (leNat (forwardedBytes u.fifo .sh (u.read32 va).toNat
            (s.readSpace cr u .sh (u.read32 va).toNat 16)))
          BitVec.ofNat 32 ((if x.phase then 1 else 0) + x.err * 2 ^ 16))]
      else s) := by
  unfold Machine.execLtPhase State.latchAccess
  rw [State.guarded_of_clear s _ _ hc, h.addressTrap .sh 16 16 (latchAddr va) hb (by simp only [latchAddr]; omega)]
  cases hs : s.stillHere tid with
  | false => simp [h.activeLanes, hs]
  | true => simp [h.activeLanes, hs, h.lanePoison .sh 16 false (latchAddr va) hp, h.curCrew]

/-- The machine with a crew of one thread at 0 whose bundle stands at 4. -/
def State.movedOn : State := (State.reset.placed 0).begin 0 [{ tid := 0, issued := true }] 4#32 false 0

/-- The crew of that state, and its thread. -/
def State.movedOnCrew : Crew := (State.movedOn.crew? 0).getD (Crew.start loadedRecord loadedEntry 0 0 0#64 none 0 0 0 [] 0)
def State.movedOnThread : Thread := (State.movedOn.thread? 0 0).getD (Thread.start 0 0 0 0#32 none)

/-- The state meets what the statement asks: its bundle is one active thread, and nothing stops the instruction. -/
theorem State.movedOn_solo : State.movedOn.Solo 0 State.movedOnCrew State.movedOnThread :=
  ⟨rfl, by decide, by decide, by decide⟩

theorem State.movedOn_clear : State.movedOn.Clear (lx [lxSrc32 0, lxDst32 1] false) :=
  ⟨by decide, by decide, by decide, by decide, by decide⟩

/-- The thread's pc is 0, not 4. -/
theorem State.movedOn_stillHere : State.movedOn.stillHere 0 = false :=
  State.movedOn_solo.stillHere.trans (by decide)

end Sys2Proof.Machine

namespace Sys2Proof

open Machine

/-- Refutes O23: the clause for lt.phase does not ask that the thread stands at the bundle's instruction, as the clauses for
lt.arrive and lt.wait do. In `State.movedOn` the bundle is at 4 and its thread at 0; lt.phase leaves that state as it is,
where the statement has the thread at the next instruction with the latch's PHASE and ERR. -/
theorem not_latchesTimelinesAndBarrier : ¬ Obligations.LatchesTimelinesAndBarrier := by
  unfold Obligations.LatchesTimelinesAndBarrier
  rintro ⟨hlatch, -⟩
  obtain ⟨-, -, hphase⟩ := hlatch State.movedOn 0 1 0 0 0 State.movedOnCrew State.movedOnThread 0 _
    State.movedOn_solo (by decide) rfl (by decide) rfl (by decide)
  obtain ⟨t, ht, honly⟩ := hphase State.movedOn_clear
  have hstays : exec (.ltPhase 0 1 0) State.movedOn = .next State.movedOn := by
    refine (State.movedOn_solo.execLtPhase_eq 0 1 0 State.movedOn_clear (by decide) (by decide) (by decide)).trans ?_
    rw [State.movedOn_stillHere]
    rfl
  obtain rfl : State.movedOn = t := Host.Outcome.next.inj (hstays.symm.trans ht)
  exact State.movedOn_solo.not_onlyThread_commit_self _ _ honly

end Sys2Proof
end

section
/-! SUPPORT. A table in its canonical form is given by what it reads as, and the bytes of a little-endian number (R4). -/

namespace Sys2Proof

/-- A rising table lists no key below its bound. -/
theorem Table.get?_of_rising_lt {α : Type} (t : Table α) (lo k : Nat) (h : Table.risingFrom lo t = true) (hk : k < lo) :
    Table.get? t k = none := by
  induction t generalizing lo with
  | nil => rfl
  | cons e t ih =>
    obtain ⟨i, u⟩ := e
    simp only [Table.risingFrom, Bool.and_eq_true, decide_eq_true_eq] at h
    rw [Table.get?, if_neg (by omega)]
    exact ih (i + 1) h.2 (by omega)

/-- Two rising tables that give the same for every key list the same entries. -/
theorem Table.ext_of_rising {α : Type} (t u : Table α) (lo hi : Nat) (ht : Table.risingFrom lo t = true)
    (hu : Table.risingFrom hi u = true) (h : ∀ k, Table.get? t k = Table.get? u k) : t = u := by
  induction t generalizing lo hi u with
  | nil =>
    cases u with
    | nil => rfl
    | cons e u => simpa [Table.get?] using h e.1
  | cons d t ih =>
    cases u with
    | nil => simpa [Table.get?] using h d.1
    | cons e u =>
      obtain ⟨i, v⟩ := d
      obtain ⟨j, w⟩ := e
      simp only [Table.risingFrom, Bool.and_eq_true, decide_eq_true_eq] at ht hu
      have htail : ∀ k ≤ i, Table.get? t k = none := fun k hk => Table.get?_of_rising_lt t (i + 1) k ht.2 (by omega)
      have hutail : ∀ k ≤ j, Table.get? u k = none := fun k hk => Table.get?_of_rising_lt u (j + 1) k hu.2 (by omega)
      have hij : i = j := by
        by_contra hne
        rcases Nat.lt_or_gt_of_ne hne with hlt | hlt
        · simpa [Table.get?, Ne.symm hne, hutail i hlt.le] using h i
        · simpa [Table.get?, hne, htail j hlt.le] using h j
      subst hij
      have hvw : v = w := by simpa [Table.get?] using h i
      have htails : t = u := ih u (i + 1) (i + 1) ht.2 hu.2 fun k => by
        by_cases hk : i = k
        · rw [htail k hk.ge, hutail k hk.ge]
        · simpa [Table.get?, hk] using h k
      rw [hvw, htails]

/-- A canonical sparse table lists a key just where it reads as something else than an unlisted key does. -/
theorem Sparse.get?_of_wf {α : Type} [DecidableEq α] (d : α) (t : Sparse α) (k : Nat) (h : Sparse.wf d t = true) :
    Table.get? t k = if Sparse.get d t k = d then none else some (Sparse.get d t k) := by
  simp only [Sparse.wf, Bool.and_eq_true, List.all_eq_true, decide_eq_true_eq] at h
  have hlisted : Table.All (· ≠ d) t := h.2
  unfold Sparse.get
  cases hv : Table.get? t k with
  | none => simp
  | some v => simp [hlisted.get? hv]

/-- Two canonical sparse tables that read the same at every key are the same data. -/
theorem Sparse.ext_of_wf {α : Type} [DecidableEq α] (d : α) (t u : Sparse α) (ht : Sparse.wf d t = true)
    (hu : Sparse.wf d u = true) (h : ∀ k, Sparse.get d t k = Sparse.get d u k) : t = u := by
  refine Table.ext_of_rising t u 0 0 (Bool.and_elim_left ht) (Bool.and_elim_left hu) fun k => ?_
  rw [Sparse.get?_of_wf d t k ht, Sparse.get?_of_wf d u k hu, h k]

/-- Byte k of a number's little-endian bytes. -/
theorem leBytes_getD (v n k : Nat) (h : k < n) : (leBytes v n).getD k 0#8 = BitVec.ofNat 8 (v / 256 ^ k) := by
  induction n generalizing v k with
  | zero => omega
  | succ n ih =>
    cases k with
    | zero => simp [leBytes]
    | succ k => rw [leBytes, List.getD_cons_succ, ih _ _ (by omega), Nat.div_div_eq_div_mul, Nat.pow_succ']

/-- A stored number's bytes, the least significant first. -/
theorem Mem.read_writeNat (m : Sparse Byte) (a n v k : Nat) (h : k < n) :
    Mem.read (Mem.writeNat m a n v) (a + k) = BitVec.ofNat 8 (v / 256 ^ k) := by
  rw [Mem.writeNat, Mem.read_writeBytes, leBytes_length, if_pos (by omega), Nat.add_sub_cancel_left, leBytes_getD _ _ _ h]

/-- Settles O59: the read-after-write laws of `Mem`, and the extensionality of the canonical form
(`Sparse.ext_of_wf`): it lists an address just where the byte differs from an unlisted one. -/
theorem memoryOperations : Obligations.MemoryOperations := by
  unfold Obligations.MemoryOperations
  refine ⟨fun m a bs => ⟨Memory.wf_writeBytes m a bs, Mem.readBytes_writeBytes_same m a bs, fun b hb => ?_⟩,
    fun m a n v hv => ⟨?_, fun k => Mem.read_writeNat m a n v k⟩, Sparse.ext_of_wf unlistedByte⟩
  · rw [Mem.read_writeBytes, if_neg (by omega)]
  · rw [Mem.readNat_writeNat_same, Nat.mod_eq_of_lt hv]

end Sys2Proof
end

section
/-! SUPPORT. The address check of the LM loads and stores (R26, R27): the windows of the four spaces, and the trap that the
lanes which fail a check give, by the lanes of the bundle that issue. -/

namespace Sys2Proof.Machine

open Sys2Proof

/-- An access lies in its window where it neither begins before it nor ends behind it (R27). -/
theorem State.inBounds_iff (s : State) (cr : Crew) (sp : Space) (a : Int) (n : Nat) :
    s.inBounds cr sp a n = true ↔ (s.windowSpan cr sp a).1 ≤ a ∧ a + n ≤ (s.windowSpan cr sp a).2 := by
  simp [State.inBounds]

/-- The windows of Table 2.2: the stack, the shared allocation, the crew's and the launch's die window, and the tiles. -/
theorem State.inBounds_windows (s : State) (cr : Crew) (n : Nat) (a : Int) :
    s.inBounds cr .stk a n = decide (0 ≤ a ∧ a + n ≤ cr.stackSize) ∧
      s.inBounds cr .sh a n = decide (0 ≤ a ∧ a + n ≤ cr.sharedSize) ∧
      s.inBounds cr .fl a n = decide (0 ≤ a ∧ a + n ≤ 4096 * cr.tiles.length) ∧
      (a < 0x80000000 → s.inBounds cr .die a n = decide (0 ≤ a ∧ a + n ≤ cr.window.size)) ∧
      (0x80000000 ≤ a → s.inBounds cr .die a n = decide (a + n ≤ 0x80000000 + (s.window cr 0x80000000).size)) := by
  have hbase : ((launchBase : Nat) : Int) = 0x80000000 := rfl
  refine ⟨?_, ?_, ?_, fun ha => ?_, fun ha => ?_⟩ <;> rw [Bool.eq_iff_iff, decide_eq_true_iff, State.inBounds_iff]
  · rfl
  · rfl
  · simp only [State.windowSpan]
  · simp [State.windowSpan, hbase, ha]
  · simp [State.windowSpan, hbase, Int.not_lt.2 ha, ha]
    rfl

variable {s : State} {cr : Crew} {sp : Space} {n al : Nat} {addr : Lane → Thread → Int} {x : Lane × Thread}

/-- Where x is the first lane that is active and fails a check, the check traps the bundle with those lanes and x's
INFO. -/
theorem State.laneTrap_of_find {code : Code} {bad : Lane → Thread → Bool} (info : Lane → Thread → Int)
    (hx : s.curLanes.find? (fun e => s.cur.active e.1 e.2 && bad e.1 e.2) = some x) :
    s.laneTrap code bad info =
      some (s.trap code (s.maskOf fun e => s.cur.active e.1 e.2 && bad e.1 e.2) (offInfo (info x.1 x.2))) := by
  have hfirst : s.activeLanes.find? (fun e => bad e.1 e.2) = some x := by
    rw [State.activeLanes, List.find?_filter, ← hx]
    simp
  simp [State.laneTrap, hfirst]

/-- R27, an active lane outside its window: the space's bounds code. -/
theorem State.addressTrap_bounds (hcr : s.curCrew? = some cr)
    (hx : s.curLanes.find? (fun e => s.cur.active e.1 e.2 && !s.inBounds cr sp (addr e.1 e.2) n) = some x) :
    s.addressTrap sp n al addr = some (s.trap (boundsCode sp)
      (s.maskOf fun e => s.cur.active e.1 e.2 && !s.inBounds cr sp (addr e.1 e.2) n) (offInfo (addr x.1 x.2))) := by
  have hout := State.laneTrap_of_find (code := boundsCode sp) (bad := fun l th => !s.inBounds cr sp (addr l th) n) addr hx
  simp only [State.addressTrap, hcr, hout]

/-- R27, every active lane in its window and one not aligned: ALIGN. -/
theorem State.addressTrap_align (hcr : s.curCrew? = some cr)
    (hin : ∀ e ∈ s.activeLanes, s.inBounds cr sp (addr e.1 e.2) n = true)
    (hx : s.curLanes.find? (fun e => s.cur.active e.1 e.2 && decide (addr e.1 e.2 % al ≠ 0)) = some x) :
    s.addressTrap sp n al addr = some (s.trap Code.align
      (s.maskOf fun e => s.cur.active e.1 e.2 && decide (addr e.1 e.2 % al ≠ 0)) (offInfo (addr x.1 x.2))) := by
  have hwindow : s.laneTrap (boundsCode sp) (fun l th => !s.inBounds cr sp (addr l th) n) addr = none :=
    s.laneTrap_none _ _ _ fun e he => by simp [hin e he]
  simp only [State.addressTrap, hcr, hwindow]
  exact State.laneTrap_of_find addr hx

/-- Both checks of R27 in one: the bounds check first, and the alignment where every active lane passed it. -/
theorem State.addressTrap_of_find (hcr : s.curCrew? = some cr) {bad : Bool} {g : Lane × Thread → Bool}
    (hg : g = fun e => s.cur.active e.1 e.2 && if bad then !s.inBounds cr sp (addr e.1 e.2) n
      else decide (addr e.1 e.2 % al ≠ 0))
    (hin : bad = false → ∀ e ∈ s.activeLanes, s.inBounds cr sp (addr e.1 e.2) n = true)
    (hx : s.curLanes.find? g = some x) :
    s.addressTrap sp n al addr =
      some (s.trap (if bad then boundsCode sp else Code.align) (s.maskOf g) (offInfo (addr x.1 x.2))) := by
  subst hg
  cases bad with
  | true => exact State.addressTrap_bounds hcr hx
  | false => exact State.addressTrap_align hcr (hin rfl) hx

/-- A load that fails R27 is that trap. -/
theorem State.loads_of_addressTrap {l : Legality} {t : State} (vd : BitVec 7) (la : BitVec 4) (strong : Bool)
    (hclear : s.Clear l) (ht : s.addressTrap sp n n addr = some t) : s.loads sp n vd la strong addr l = t := by
  unfold State.loads
  rw [s.guarded_of_clear _ _ hclear, ht]

/-- A store that fails R27 is that trap. -/
theorem State.stores_of_addressTrap {l : Legality} {t : State} (vs : BitVec 7) (strong : Bool)
    (hclear : s.Clear l) (ht : s.addressTrap sp n n addr = some t) : s.stores sp n vs strong addr l = t := by
  unfold State.stores
  rw [s.guarded_of_clear _ _ hclear, ht]

/-- An LM form by the direction of its access (R152). -/
def State.lmAccess (s : State) (load : Bool) (sp : Space) (vd : BitVec 7) (sz : BitVec 2) (va la : BitVec 4)
    (off : BitVec 7) : State :=
  if load then s.lmLoad sp vd sz va la off else s.lmStore sp vd sz va off

/-- What an LM form must pass before its own checks. -/
def lmLegality (load : Bool) (vd : BitVec 7) (sz : BitVec 2) (va : BitVec 4) : Legality :=
  if load then { opnds := [loadDst vd (sizeOf2 sz), addrSrc va], illegal := false, cls := loadClass .none }
  else { opnds := [storeSrc vd (sizeOf2 sz), addrSrc va], illegal := false, cls := storeClass .none }

/-- An LM form that fails R27 is that trap. -/
theorem State.lmAccess_of_addressTrap {t : State} (load : Bool) (vd : BitVec 7) (sz : BitVec 2) (va la : BitVec 4)
    (off : BitVec 7) (hclear : s.Clear (lmLegality load vd sz va))
    (ht : s.addressTrap sp (sizeOf2 sz) (sizeOf2 sz) (lmAddr va off (sizeOf2 sz)) = some t) :
    s.lmAccess load sp vd sz va la off = t := by
  cases load with
  | true => exact State.loads_of_addressTrap vd la false hclear ht
  | false => exact State.stores_of_addressTrap vd false hclear ht

/-- The LM forms, each with its space, the space's bounds code and whether it loads (Table 2.3, R152). -/
def lmForms (vd : BitVec 7) (sz : BitVec 2) (va la : BitVec 4) (off : BitVec 7) : List (Instr × Space × Code × Bool) :=
  [(.ldStk vd sz va la off, .stk, Code.boundsStk, true), (.ldSh vd sz va la off, .sh, Code.boundsSh, true),
    (.ldDie vd sz va la off, .die, Code.boundsDie, true), (.ldFl vd sz va la off, .fl, Code.boundsFl, true),
    (.stStk vd sz va off, .stk, Code.boundsStk, false), (.stSh vd sz va off, .sh, Code.boundsSh, false),
    (.stDie vd sz va off, .die, Code.boundsDie, false), (.stFl vd sz va off, .fl, Code.boundsFl, false)]

/-- Every LM form is the access of its space. -/
theorem exec_lmForms (s : State) (vd : BitVec 7) (sz : BitVec 2) (va la : BitVec 4) (off : BitVec 7) :
    ∀ e ∈ lmForms vd sz va la off, exec e.1 s = .next (s.lmAccess e.2.2.2 e.2.1 vd sz va la off) ∧
      e.2.2.1 = boundsCode e.2.1 := by
  simp only [lmForms, List.forall_mem_cons, List.not_mem_nil, IsEmpty.forall_iff, implies_true, and_true]
  exact ⟨⟨rfl, rfl⟩, ⟨rfl, rfl⟩, ⟨rfl, rfl⟩, ⟨rfl, rfl⟩, ⟨rfl, rfl⟩, ⟨rfl, rfl⟩, ⟨rfl, rfl⟩, rfl, rfl⟩

end Sys2Proof.Machine

namespace Sys2Proof

open Machine

/-- Settles O18: every LM form is an access of its space (`exec_lmForms`) that is the trap of R27 where the lanes fail a
check (`State.lmAccess_of_addressTrap`), and the check traps with the lanes that fail it
(`State.addressTrap_of_find`). -/
theorem addressChecks : Obligations.AddressChecks := by
  unfold Obligations.AddressChecks
  intro s vd sz va la off cr n hcr hn
  subst hn
  refine ⟨s.inBounds_windows cr _, fun e he hclear bad g hg hin x hx => ?_⟩
  obtain ⟨hexec, hcode⟩ := exec_lmForms s vd sz va la off e he
  have htrap := State.addressTrap_of_find (addr := lmAddr va off (sizeOf2 sz)) hcr hg hin hx
  rw [hexec, s.lmAccess_of_addressTrap e.2.2.2 vd sz va la off hclear htrap, hcode]
  rfl

end Sys2Proof
end

section
/-! SUPPORT. A per-thread element that fails with its request, whose line another thread's store waits for: the fault of the
line (R19, R209) is a trap of that other thread, and ends the crew where it has no handler (R179). -/

namespace Sys2Proof.Machine

open Sys2Proof

/-- The store of 4 bytes to die line 0 that thread 0 entered in its FIFO while the line was present (R40). -/
def waitingStore : StoreEntry :=
  { space := .die, addr := 0, bytes := [0#8, 0#8, 0#8, 0#8], pc := 0#32, word := 0#32, pfx := 0#32, strong := false, group := 0 }

/-- The element of thread 1 that reads main address 0, writes die line 0, and has joined request 0 (R198, R36). -/
def joinedElement : TElem :=
  { crew := 0, tid := 1, ctx := 0, die := 0, cluster := 0, tag := 0, dst := 0xF200000000000000, src := 0, n := 32, data := none,
    failed := none, xlate := some 0 }

/-- The request for page 0, which no answer has reached. -/
def openRequest : XlateReq :=
  { ctx := 0, page := 0, kind := 0, call := none, deadline := 1, retried := false, tid := some (0, 1), queues := [],
    unresolved := false }

/-- Thread 0 of the counterexample, with its store, and thread 1, with one element of tag 0. -/
def storingThread : Thread := { Thread.start 0 0 0 0#32 none with fifo := [waitingStore] }
def copyingThread : Thread := { Thread.start 0 0 0 0#32 none with tagCount := [(0, 1)] }

/-- The loaded machine with these two threads in its crew, the line absent while the element writes it (R18), and the
element's request in flight. -/
def State.storeBehindElement : State :=
  { (State.reset.placed 0).modCrew 0 fun c =>
      { c with
        threads := [(0, storingThread), (1, copyingThread)]
        window := c.window.modLine 0 LineMark.start } with
    elems := [(0, joinedElement)]
    xlates := [(0, openRequest)] }

/-- The crew of that state. -/
def storingCrew : Crew :=
  (State.storeBehindElement.crew? 0).getD (Crew.start loadedRecord loadedEntry 0 0 0#64 none 0 0 0 [] 0)

/-- The state meets what the clause for an element asks: the element alone has joined the request, no thread waits, and the
crew with the element's thread is there. -/
theorem State.storeBehindElement_onlyJoined : State.storeBehindElement.OnlyJoined 0 [] [0] [] := by
  refine ⟨by decide, by decide, by decide, by decide, by decide, nofun, by decide, by decide, fun c hc => ⟨?_, ?_⟩⟩
  · revert c; decide
  · revert c; decide

theorem State.storeBehindElement_waits :
    ∀ y ∈ State.storeBehindElement.crews, ∀ x ∈ y.2.threads, x.2.wait = none := by decide

/-- The end of the request: the line's fault traps thread 0, its crew has no handler, and thread 1 is gone with it. -/
theorem State.storeBehindElement_unresolved :
    (State.storeBehindElement.xlateUnresolved 0).thread? 0 1 = none := by decide

end Sys2Proof.Machine

namespace Sys2Proof

open Machine

/-- Refutes O31: the clause for a per-thread element says that its thread changes in the tag alone. It asks that no thread is
parked, and leaves out the thread whose store waits in its FIFO for the element's line. In
`State.storeBehindElement` an unsuccessful page response faults that line, the store of the crew's other thread takes
COPY_FAULT (R19, R209), and the crew, which has no handler, is killed (R179): the element's thread is gone. -/
theorem not_translationRequests : ¬ Obligations.TranslationRequests := by
  unfold Obligations.TranslationRequests
  intro h
  obtain ⟨-, -, ⟨u, hresponse, -, -, -, -, -, hends⟩, -⟩ := h State.storeBehindElement 0 openRequest rfl
  obtain ⟨-, hnoWait⟩ := hends rfl
  obtain ⟨helem, -⟩ := hnoWait State.storeBehindElement_waits
  obtain ⟨-, hthread⟩ := helem 0 joinedElement storingCrew copyingThread State.storeBehindElement_onlyJoined rfl rfl
    (by decide) (by decide)
  have hu : State.storeBehindElement.xlateUnresolved 0 = u := Host.Outcome.next.inj (hresponse rfl rfl)
  have hgone : u.thread? 0 1 = none := hu ▸ State.storeBehindElement_unresolved
  exact absurd (hgone.symm.trans hthread) nofun

end Sys2Proof
end

section
/-! SUPPORT. The encoder and the decoder (R60 to R74, R332): the round trip over every constructor, and the spec's words as
words that the encoder gives. -/

namespace Sys2Proof.Laws

open Sys2Proof

section

open RoundTrip

/-- The round trip of every instruction: the lemmas of its constructors, in the order of `Instr`. -/
theorem RoundTrip.all (i : Instr) : RoundTrip.Statement i :=
  i.rec (motive := RoundTrip.Statement)
    addI32 subI32 negI32 absI32 avgI32 avgN32 adiffI32 adiffN32 addI64 subI64 negI64 absI64 addwI64I32 addwN64N32
    addsatI32 subsatI32 addsatN32 subsatN32 negsatI32 abssatI32 mulI32 mulhiI32 mulhiN32 madI32 mulwI32 mulwN32 divI32
    divN32 remI32 remN32 divI64 divN64 remI64 remN64 minI32 maxI32 minN32 maxN32 minI64 maxI64 minN64 maxN64 andN32
    orN32 xorN32 andnN32 ornN32 xnorN32 notN32 shlN32 shrN32 shrI32 rolN32 rorN32 popcN32 clzN32 ctzN32 brevN32
    bswapN32 popcN64 clzN64 bfeN32 bfeI32 bfiN32 cmpI32 selN32 movN32 shaddN32 shaddN64 addI16 subI16 addI8 subI8
    addsatI16 subsatI16 addsatN8 dotI8 pand por pxor pandn pnot ptovN32 vtopN32 mulI64 shlN64 shrN64 shrI64 cmpEqI64
    cmpLtI64 cmpLtN64 movN64 addI32Imm addI64Imm addsatI32Imm addsatN32Imm andN32Imm orN32Imm xorN32Imm shlN32Imm
    shrN32Imm shrI32Imm rorN32Imm setEqI32 setNeI32 setLtI32 setLtN32 movlN32 movhN32 movI32Imm movN32Imm mulI32Imm
    mulI64Imm minI32Imm maxI32Imm minN32Imm maxN32Imm faddF32 fsubF32 fmulF32 fmaF32 fmsF32 fnmaF32 fminF32 fmaxF32
    fcmpF32 faddF64 fsubF64 fmulF64 fmaF64 fmsF64 fnmaF64 fminF64 fmaxF64 fcmpF64 faddF16 fmulF16 fmaF16 faddBf16
    fmulBf16 fmaBf16 fmaxF16 fmaxBf16 faddE4m3 fmulE4m3 faddE5m2 fmulE5m2 fdotF32E4m3 fdotF32E5m2 cvtF16E4m3
    cvtF16E5m2 fdivF32 fsqrtF32 rcpF32 rsqrtF32 exp2F32 log2F32 sinpiF32 cospiF32 fdivF64 fsqrtF64 fabsF32 fnegF32
    fcopysignF32 fclassF32 fabsF64 fnegF64 fcopysignF64 fclassF64 faddF32Imm fmulF32Imm fmaxF32Imm fminF32Imm
    faddF64Imm fmulF64Imm fmaxF64Imm fminF64Imm fmulF16Imm fmulBf16Imm fmulE4m3Imm fmulE5m2Imm cvtF32I32 cvtF32N32
    cvtI32F32 cvtN32F32 cvtF64I64 cvtI64F64 cvtF64I32 cvtI32F64 cvtF64F32 cvtF32F64 cvtF32F16 cvtF16F32 cvtF32Bf16
    cvtBf16F32 cvtE4m3F32 cvtE5m2F32 cvtSx2F32 cvtSx4F32 cvtSx7F32 cvtF32Sx2 cvtF32Sx4 cvtF32Sx7 xlIdxN32 xlXorN32
    xlUpN32 xlDownN32 xlIdxN64 xlBallotN64 xlAddI32 ldStk stStk ldSh stSh ldDie stDie ldFl stFl ldAcq stRel stNt
    atomAdd atomAnd atomOr atomXor atomMinI atomMaxI atomMinN atomMaxN atomExch atomCas br call loopBr nop ret brInd
    callInd rgn ixSet ixGet rotSet fence ntDrain srRd spGet spSet tbJoin tbSign tbWait weld ltArrive ltWait ltPhase
    tlWait tlRd barCrew unjoin endThread trap tret cpT cpWait cpCnt cpWaitAll kick kickN atomFarAdd atomFarAnd
    atomFarOr atomFarXor atomFarMinI atomFarMaxI atomFarMinN atomFarMaxN atomFarExch atomFarCas flBirth flBirthZ
    flRenew flLife flFree flStat flStatClr mma mmaZero mxLease mxRelease obResv obFree obLd accRd accWait mxFreeze
    mxThaw accDrain accFill obDrain obFill itRange itList itBits itQueue itMap itFilter itZip itChain itFlat itNext
    itEnough itFree itStat itRd qPush qPushNb qPop qPopNb qStat emit hcall colSend colRecv colRed colGangbar colAbort
    colStat pfx gAddI64 gSubI64 gNegI64 gAbsI64 gMulI64 gMulhiI64 gMulhiN64 gDivI64 gDivN64 gRemI64 gRemN64 gAndN64
    gOrN64 gXorN64 gAndnN64 gNotN64 gShlN64 gShrN64 gShrI64 gRolN64 gRorN64 gSetEqI64 gSetNeI64 gSetLtI64 gSetLeI64
    gSetLtN64 gSetLeN64 gMinI64 gMaxI64 gMinN64 gMaxN64 gMovN64 gMovnzN64 gMovzN64 gPopcN64 gClzN64 gCtzN64 gBrevN64
    gAddI64Imm gMulI64Imm gMinI64Imm gMaxI64Imm gAndN64Imm gOrN64Imm gXorN64Imm gAndI64Imm gShlN64Imm gShrN64Imm
    gShrI64Imm gRolN64Imm gMovI64Imm gMovN64Imm gMovk16 gMovk32 gMovk48 gLdSh gStSh gLdDie gStDie gBr gRdsr gUconfClr
    gRdvN32 gWrvN32 gWrvN64 xsfVld xsfVst mmaAccept mmaComplete overlayFetchComplete copyElementWrite pageResponse
    cptElementPerform farAtomicResponse atomicopUrCompletion atsInvalidation fleetingTick crewStart launchComplete
    nodeFlushTimer churnMove pullResume sliceExpiry saveDrainComplete drainLimitExpiry restoreInstall hostLinkTrain
    slotTake ctxNew ctxEnd map unmap load unload launch qweight duty quantum save restore tlWaitRecord tlRead
    workerAdd workerDel recordCompletion callDispatch replyPail callDeadline dutyDeadline colTransferReceive
    colTimeoutExpiry abortFlit gangAck gangWindowExpiry gangFailFlit budgetTick budgetMessage powerControlApply
    ballastStep flitCrcReplay laneFailure hostLinkDown moduleReset podImageReceive parentSilenceTimeout attestQuote
    clusterWake unassignedEncoding hostAccess peerRequest atsCompletion unrecoveredLink receiverConfirmation
    gangbarArrival imageRequest

end

/-- The word that the encoder gives for a thread-engine instruction decodes to it. -/
theorem decodeWord_of_encode {i : Instr} {w : Word} (hwf : i.wellFormed = true) (hkind : i.kind = .thread)
    (henc : encode i = [w]) : decodeWord w = .ok i := by
  have hround := RoundTrip.all i hwf
  rw [hkind, henc] at hround
  obtain ⟨x, hx, hdec⟩ := hround
  rwa [List.cons.inj hx |>.1]

end Sys2Proof.Laws

namespace Sys2Proof

open Laws

/-- Settles O53: each constructor's round trip. -/
theorem roundTripAll : Obligations.RoundTripAll := by
  unfold Obligations.RoundTripAll
  exact RoundTrip.all

/-- Settles O54: each word of the tables is the one that the encoder gives for its instruction, so it decodes to it
(`Laws.decodeWord_of_encode`). The attendant's two words and the refused one are evaluated. -/
theorem specWordsDecode : Obligations.SpecWordsDecode := by
  unfold Obligations.SpecWordsDecode
  refine ⟨fun p hp => ?_, by decide, by decide, by decide⟩
  have hencoded : p.2.wellFormed = true ∧ p.2.kind = .thread ∧ encode p.2 = [p.1] := by
    revert p
    decide
  obtain ⟨hwf, hkind, henc⟩ := hencoded
  exact decodeWord_of_encode hwf hkind henc

end Sys2Proof
end

section
/-! SUPPORT. What a register reads as while instructions pass that do not write it (R69, R70): a read depends on the
register's word in the file and on the results held for that register, and each instruction ages just these. -/

namespace Sys2Proof.Machine

open Sys2Proof

/-- What a thread has for one register: its word in the file, the results promised to it, and those forwarded to its
readers. -/
structure RegView where
  stored : Word
  promised : List Held
  forwarded : List Held

/-- What a register reads as (R69, R70). -/
def RegView.read (x : RegView) : Word := (x.forwarded.head?.map (·.value)).getD x.stored

/-- A promise to the register reaches its place: transient results that are older in program order give way. -/
def RegView.mature (x : RegView) (h : Held) : RegView :=
  { x with stored := h.value, forwarded := x.forwarded.filter (fun t => decide (h.seq < t.seq)) }

/-- Held results after one more instruction: those that have not run out, each for one instruction less. -/
def agedHeld (hs : List Held) : List Held := (hs.filter (fun h => 1 < h.left)).map (fun h => { h with left := h.left - 1 })

/-- One more instruction, which does not write the register. -/
def RegView.settle (x : RegView) : RegView :=
  let m := (x.promised.filter (fun h => h.left ≤ 1)).foldl RegView.mature x
  { m with promised := agedHeld x.promised, forwarded := agedHeld m.forwarded }

/-- A register of a thread. -/
def Thread.regView (th : Thread) (r : Nat) : RegView :=
  { stored := Sparse.get 0#32 th.regs r
    promised := th.pend.filter (fun h => h.name = .reg r)
    forwarded := th.trans.filter (fun h => h.name = .reg r) }

/-! ## The view of a thread's register follows the thread -/

theorem Thread.readReg_eq_regView (th : Thread) (r : Nat) : th.readReg r = (th.regView r).read := by
  unfold Thread.readReg RegView.read Thread.regView
  rw [List.head?_filter]
  cases th.trans.find? (fun h => decide (h.name = .reg r)) <;> rfl

theorem Thread.regView_of_free (th : Thread) (r : Nat) (h : th.Free (.reg r)) :
    th.regView r = { stored := th.readReg r, promised := [], forwarded := [] } := by
  obtain ⟨hpend, htrans⟩ := h
  unfold Thread.regView
  rw [List.filter_eq_nil_iff.2 fun x hx => by simpa using hpend x hx,
    List.filter_eq_nil_iff.2 fun x hx => by simpa using htrans x hx, th.readReg_of_free r ⟨hpend, htrans⟩]

/-- A result that reaches another name leaves the register's word. -/
theorem Thread.get_regs_putResult (th : Thread) (n : ResultName) (v : Word) (r : Nat) :
    Sparse.get 0#32 (th.putResult n v).regs r = if n = .reg r then v else Sparse.get 0#32 th.regs r := by
  cases n with
  | reg q => simp [Thread.putResult, Sparse.get_set, eq_comm]
  | p6 => simp [Thread.putResult]

theorem Thread.regView_mature (th : Thread) (h : Held) (r : Nat) :
    (th.mature h).regView r = if h.name = .reg r then (th.regView r).mature h else th.regView r := by
  have hstored : Sparse.get 0#32 (th.mature h).regs r = if h.name = .reg r then h.value else Sparse.get 0#32 th.regs r :=
    th.get_regs_putResult h.name h.value r
  unfold Thread.regView
  rw [hstored, Thread.mature_pend]
  by_cases hn : h.name = .reg r
  · simp only [hn, if_true, RegView.mature, Thread.mature, List.filter_filter]
    congr 1
    refine List.filter_congr fun t _ => ?_
    by_cases ht : t.name = .reg r <;> simp [ht]
  · simp only [hn, if_false, Thread.mature, List.filter_filter]
    congr 1
    refine List.filter_congr fun t _ => ?_
    by_cases ht : t.name = .reg r <;> simp [ht, Ne.symm hn]

theorem Thread.regView_matureAll (hs : List Held) (th : Thread) (r : Nat) :
    (hs.foldl Thread.mature th).regView r =
      (hs.filter (fun h => h.name = .reg r)).foldl RegView.mature (th.regView r) := by
  induction hs generalizing th with
  | nil => rfl
  | cons h hs ih =>
    rw [List.foldl_cons, ih, th.regView_mature, List.filter_cons]
    by_cases hn : h.name = .reg r <;> simp [hn]

/-- Ageing looks at no name. -/
theorem agedHeld_filter_name (hs : List Held) (n : ResultName) :
    (agedHeld hs).filter (fun h => h.name = n) = agedHeld (hs.filter (fun h => h.name = n)) := by
  simp only [agedHeld, List.filter_map, List.filter_filter, Function.comp_def, Bool.and_comm]

theorem Thread.regView_settle (th : Thread) (r : Nat) : th.settle.regView r = (th.regView r).settle := by
  have hmature := Thread.regView_matureAll (th.pend.filter (fun h => h.left ≤ 1)) th r
  have hdue : (th.pend.filter (fun h => h.left ≤ 1)).filter (fun h => h.name = .reg r) =
      (th.regView r).promised.filter (fun h => h.left ≤ 1) := by
    simp only [Thread.regView, List.filter_filter, Bool.and_comm]
  rw [hdue] at hmature
  unfold RegView.settle
  simp only [← hmature]
  simp only [Thread.regView, ← agedHeld_filter_name]
  rfl

theorem Thread.icount_matureAll (hs : List Held) (th : Thread) : (hs.foldl Thread.mature th).icount = th.icount := by
  induction hs generalizing th with
  | nil => rfl
  | cons h hs ih =>
    have hput : ∀ n v, (th.putResult n v).icount = th.icount := fun n v => by cases n <;> rfl
    exact (ih (th.mature h)).trans (hput h.name h.value)

theorem Thread.icount_settle (th : Thread) : th.settle.icount = th.icount + 1 :=
  congrArg (· + 1) (Thread.icount_matureAll (th.pend.filter (fun h => h.left ≤ 1)) th)

/-! ## The view after one instruction's results -/

theorem Thread.regView_commit_nil (th : Thread) (len r : Nat) :
    (th.commit len .now []).regView r = (th.regView r).settle :=
  th.regView_settle r

theorem Thread.regView_writeResult (th : Thread) (r : Nat) (v : Word) :
    (th.writeResult (.reg r) v).regView r = { stored := v, promised := [], forwarded := [] } := by
  rw [Thread.regView_of_free _ r (th.free_writeResult (.reg r) v), th.readReg_writeResult_self]

theorem Thread.regView_commit_now (th : Thread) (len r : Nat) (v : Word) :
    (th.commit len .now [(.reg r, v)]).regView r = { stored := v, promised := [], forwarded := [] } :=
  ((th.writeResult (.reg r) v).regView_settle r).trans (by rw [th.regView_writeResult]; rfl)

theorem Thread.regView_commit_forward (th : Thread) (len r : Nat) (v : Word) :
    (th.commit len .forward [(.reg r, v)]).regView r =
      { (th.regView r).settle with forwarded := [{ name := .reg r, value := v, left := 8, seq := th.icount + 1 }] } := by
  rw [← th.regView_settle, ← th.icount_settle]
  have hview : (th.settle.forwardResult r v).regView r = { th.settle.regView r with
      forwarded := [{ name := .reg r, value := v, left := 8, seq := th.settle.icount }] } := by
    simp [Thread.forwardResult, Thread.regView, List.filter_append, List.filter_filter]
  exact hview

theorem Thread.regView_dropPromise (th : Thread) (r : Nat) :
    (th.dropPromise (.reg r)).regView r = { th.regView r with promised := [] } := by
  simp [Thread.dropPromise, Thread.regView, List.filter_filter]

theorem Thread.regView_commit_after (th : Thread) (len k r : Nat) (v : Word) (hk : k ≠ 0) :
    (th.commit len (.after k) [(.reg r, v)]).regView r = { ({ th.regView r with promised := [] } : RegView).settle with
      promised := [{ name := .reg r, value := v, left := k, seq := th.icount + 1 }] } := by
  have hcount : (th.dropPromise (.reg r)).settle.icount = th.icount + 1 := (th.dropPromise (.reg r)).icount_settle
  rw [← th.regView_dropPromise, ← Thread.regView_settle, ← hcount]
  have hnone : ((th.dropPromise (.reg r)).settle.regView r).promised = [] := by
    rw [Thread.regView_settle, th.regView_dropPromise]; rfl
  have hview : ((th.dropPromise (.reg r)).settle.holdResult k (.reg r) v).regView r =
      { (th.dropPromise (.reg r)).settle.regView r with
        promised := ((th.dropPromise (.reg r)).settle.regView r).promised ++
          [{ name := .reg r, value := v, left := k, seq := (th.dropPromise (.reg r)).settle.icount }] } := by
    simp [Thread.holdResult, hk, Thread.regView, List.filter_append]
  rw [hnone] at hview
  have hcommit : th.commit len (.after k) [(.reg r, v)] =
      { (th.dropPromise (.reg r)).settle.holdResult k (.reg r) v with
        pc := ((th.dropPromise (.reg r)).settle.holdResult k (.reg r) v).pc + BitVec.ofNat 32 len
        cameFrom := some ((th.dropPromise (.reg r)).settle.holdResult k (.reg r) v).pc
        wait := none } := by
    simp [Thread.commit, Thread.resultsBefore, Thread.resultsAfter, hk, Thread.dropPromises, Thread.holdAll]
  rw [hcommit]
  exact hview

/-! ## Reading while instructions pass -/

theorem RegView.settle_of_nothing_promised (w : Word) (ts : List Held) :
    RegView.settle { stored := w, promised := [], forwarded := ts } =
      { stored := w, promised := [], forwarded := agedHeld ts } := rfl

/-- A register without held results reads as its word. -/
theorem RegView.read_iterate_stored (n : Nat) (w : Word) :
    (RegView.settle^[n] { stored := w, promised := [], forwarded := [] }).read = w := by
  rw [Function.iterate_fixed (show RegView.settle { stored := w, promised := [], forwarded := [] } = _ from rfl)]
  rfl

/-- A transient result reads for as long as it lasts (R70). -/
theorem RegView.read_iterate_forwarded (n k : Nat) (w v : Word) (name : ResultName) (q : Nat) :
    (RegView.settle^[n] { stored := w, promised := [], forwarded := [{ name := name, value := v, left := k + 1, seq := q }] }).read =
      if n < k + 1 then v else w := by
  induction n generalizing k with
  | zero => simp [RegView.read]
  | succ n ih =>
    rw [Function.iterate_succ_apply, RegView.settle_of_nothing_promised]
    cases k with
    | zero => simpa [agedHeld] using RegView.read_iterate_stored n w
    | succ k => simpa [agedHeld] using ih k

/-- A promised result reads once it is due; until then the register reads as without it (R69). -/
theorem RegView.read_iterate_promised (n k : Nat) (w v : Word) (name : ResultName) (q : Nat) (ts : List Held)
    (hts : ∀ t ∈ ts, t.seq ≤ q) :
    (RegView.settle^[n] { stored := w, promised := [{ name := name, value := v, left := k + 1, seq := q }], forwarded := ts }).read =
      if k + 1 ≤ n then v else (RegView.settle^[n] { stored := w, promised := [], forwarded := ts }).read := by
  induction n generalizing k ts with
  | zero => rfl
  | succ n ih =>
    rw [Function.iterate_succ_apply, Function.iterate_succ_apply, RegView.settle_of_nothing_promised]
    cases k with
    | zero =>
      have hout : ts.filter (fun t => decide (q < t.seq)) = [] :=
        List.filter_eq_nil_iff.2 fun t ht => by simpa using hts t ht
      simpa [RegView.settle, RegView.mature, agedHeld, hout] using RegView.read_iterate_stored n v
    | succ k =>
      have haged : ∀ t ∈ agedHeld ts, t.seq ≤ q := by
        simp only [agedHeld, List.mem_map, List.mem_filter]
        rintro t ⟨u, ⟨hu, -⟩, rfl⟩
        exact hts u hu
      simpa [RegView.settle, agedHeld] using ih k (agedHeld ts) haged

/-! ## Reading after an instruction's result, and n more instructions -/

section

variable {run : Nat → Thread → Thread} {len : Nat} (hzero : ∀ u, run 0 u = u)
  (hsucc : ∀ n u, run (n + 1) u = (run n u).commit len .now [])

include hzero hsucc

/-- Instructions that write nothing age what a register has. -/
theorem Thread.readReg_run (n : Nat) (th : Thread) (r : Nat) :
    (run n th).readReg r = (RegView.settle^[n] (th.regView r)).read := by
  have hview : (run n th).regView r = RegView.settle^[n] (th.regView r) := by
    induction n with
    | zero => rw [hzero]; rfl
    | succ n ih => rw [hsucc, Thread.regView_commit_nil, ih, Function.iterate_succ_apply']
  rw [Thread.readReg_eq_regView, hview]

theorem Thread.readReg_run_commit_now (n : Nat) (th : Thread) (r : Nat) (v : Word) :
    (run n (th.commit len .now [(.reg r, v)])).readReg r = v := by
  rw [Thread.readReg_run hzero hsucc, Thread.regView_commit_now, RegView.read_iterate_stored]

theorem Thread.readReg_run_commit_forward (n : Nat) (th : Thread) (r : Nat) (v : Word) (hfree : th.Free (.reg r)) :
    (run n (th.commit len .forward [(.reg r, v)])).readReg r = if n < 8 then v else th.readReg r := by
  rw [Thread.readReg_run hzero hsucc, th.regView_commit_forward, th.regView_of_free r hfree]
  exact RegView.read_iterate_forwarded n 7 _ _ _ _

theorem Thread.readReg_run_commit_after (n k : Nat) (th : Thread) (r : Nat) (v : Word) (hfree : th.Free (.reg r))
    (hk : 1 ≤ k) : (run n (th.commit len (.after k) [(.reg r, v)])).readReg r = if k ≤ n then v else th.readReg r := by
  obtain ⟨k, rfl⟩ := Nat.exists_eq_add_of_le' hk
  rw [Thread.readReg_run hzero hsucc, th.regView_commit_after len _ r v k.succ_ne_zero, th.regView_of_free r hfree]
  refine (RegView.read_iterate_promised n k _ _ _ _ _ (by simp [RegView.settle, agedHeld])).trans ?_
  exact congrArg (if k + 1 ≤ n then v else ·) (RegView.read_iterate_stored n _)

/-- The transient result is older than the promise behind it: it reads until the promise is due, and no longer. -/
theorem Thread.readReg_run_commit_after_forward (n k : Nat) (th : Thread) (r : Nat) (v y : Word)
    (hfree : th.Free (.reg r)) (hk : 1 ≤ k) :
    (run n ((th.commit len .forward [(.reg r, v)]).commit len (.after k) [(.reg r, y)])).readReg r =
      if k ≤ n then y else if n < 7 then v else th.readReg r := by
  obtain ⟨k, rfl⟩ := Nat.exists_eq_add_of_le' hk
  have hcount : (th.commit len .forward [(.reg r, v)]).icount = th.icount + 1 := th.icount_settle
  rw [Thread.readReg_run hzero hsucc, Thread.regView_commit_after _ len _ r y k.succ_ne_zero, th.regView_commit_forward,
    th.regView_of_free r hfree, hcount]
  refine (RegView.read_iterate_promised n k _ _ _ _ _ (by simp [RegView.settle, agedHeld])).trans ?_
  exact congrArg (if k + 1 ≤ n then y else ·) (RegView.read_iterate_forwarded n 6 _ v _ _)

end

end Sys2Proof.Machine

namespace Sys2Proof

open Machine

/-- Settles O60: what a register reads as is a function of what the thread has for it (`Thread.readReg_eq_regView`), which
each further instruction ages (`Thread.readReg_run`); the statement's clauses are the four `readReg_run_commit_` lemmas. -/
theorem resultTiming : Obligations.ResultTiming := by
  unfold Obligations.ResultTiming
  intro th r len v y run hpend htrans hsucc hzero
  have hfree : th.Free (.reg r) := ⟨hpend, htrans⟩
  have hnow := @Thread.readReg_run_commit_now run len hzero hsucc
  have hforward := fun n => Thread.readReg_run_commit_forward hzero hsucc n th r v hfree
  have hafter := fun n k hk => Thread.readReg_run_commit_after hzero hsucc n k th r v hfree hk
  refine ⟨fun n => hnow n th r v, fun n => hnow n th r v, fun k hk => ⟨fun n hn => ?_, fun n hn => ?_, ?_⟩,
    fun n hn => ?_, fun n hn => ?_, fun n j _ => hnow j _ r y, fun k n hk => ?_⟩
  · rw [hafter n k hk, if_neg (by omega)]
  · rw [hafter n k hk, if_pos hn]
  · exact fun n j _ => hnow j _ r y
  · rw [hforward, if_pos hn]
  · rw [hforward, if_neg (by omega)]
  · exact Thread.readReg_run_commit_after_forward hzero hsucc n k th r v y hfree hk

end Sys2Proof
end

section
/-! SUPPORT. A parked thread whose translation request is in flight does not issue (R36): the move that retries it leaves the
machine as it is, and the statement on steps, whose clause for a retry asks nothing of the request. -/

namespace Sys2Proof.Machine

open Sys2Proof

/-- The fetch for a retry of a thread that waits for a request in flight gives nothing to carry out (R36). -/
theorem State.fetchRetry_of_requestOpen {s : State} {c tid : Nat} {cr : Crew} {th : Thread} {x : Wait}
    (hcr : s.crew? c = some cr) (hth : Table.get? cr.threads tid = some th) (hwait : th.wait = some x)
    (hopen : s.requestOpen x = true) : s.fetchRetry c tid = .done s := by
  unfold State.fetchRetry
  simp only [hcr, hth, hwait, hopen, if_true, ite_self]

/-- A machine that has not stopped carries out its next move. -/
theorem step_eq_move {s : State} {m : Move} {ms : List Move} (hrun : s.stopped = false) (hmove : s.nextMove = (m, ms)) :
    step s = State.move { s with agenda := ms } m := by
  rw [step, if_neg (by simp [hrun]), hmove]

/-- A graph node whose template lies at main address 0 (Table 17.5). -/
def unreadNode : Nat :=
  nodeNat { tmpl := 0, qoff := 0x80000040, coal := 1, flush := 1, pend := 0, launched := 0, first := 0 }

/-- The word of `emit [v0], v2`. -/
def emitWord : Word := 0x72001005#32

/-- The loaded machine with that instruction, whose thread waits, after a first issue, for the template's page: request 0,
which no answer has reached. The next move retries the thread. -/
def State.emitBehindRequest : State :=
  { ((State.reset.placed emitWord.toNat).writeDie 0 launchBase (leBytes unreadNode 64)).modThread 0 0 fun th =>
      { th with regs := [(0, 0x80000000#32)], wait := some (.xlate 0) } with
    agenda := [.retry 0 0]
    xlates := [(0, { openRequest with tid := some (0, 0) })] }

/-- The bundle that an outcome leaves is one that issues alone. -/
def issuesAlone : Host.Outcome State Fault Refusal → Bool
  | .next t => t.cur.alone
  | _ => false

/-- The crew of that state, and its thread. -/
def emitCrew : Crew := (State.emitBehindRequest.crew? 0).getD (Crew.start loadedRecord loadedEntry 0 0 0#64 none 0 0 0 [] 0)
def emitThread : Thread := (Table.get? emitCrew.threads 0).getD (Thread.start 0 0 0 0#32 none)

/-- The thread's lane. -/
def emitLane : Lane := { tid := 0, issued := true }

/-- The move passes: the thread goes on waiting. -/
theorem State.emitBehindRequest_step :
    step State.emitBehindRequest = .next { State.emitBehindRequest with agenda := [] } := by
  rw [step_eq_move (m := .retry 0 0) (ms := []) rfl rfl]
  exact congrArg runFetched
    (State.fetchRetry_of_requestOpen (s := { State.emitBehindRequest with agenda := [] }) (c := 0)
      (tid := 0) (cr := emitCrew) (th := emitThread) (x := .xlate 0) rfl rfl rfl rfl)

end Sys2Proof.Machine

namespace Sys2Proof

open Machine

/-- Refutes O55: the clause for a parked thread that issues alone asks that its wait is one that is tried again, and leaves out
that a thread which waits for a translation request does not try again before that has ended (R36). In
`State.emitBehindRequest` the request is in flight, so the step passes and leaves no bundle
(`State.emitBehindRequest_step`), where the statement asks for `emit` carried out on the thread alone. -/
theorem not_stepRunsDecoded : ¬ Obligations.StepRunsDecoded := by
  unfold Obligations.StepRunsDecoded
  intro h
  obtain ⟨hissue, -⟩ := h State.emitBehindRequest (.retry 0 0) [] rfl rfl
  obtain ⟨hrun, -⟩ := hissue 0 emitCrew [emitLane] true emitThread.parkIssue State.emitBehindRequest.nextSeq emitLane emitThread
    _ _ (loadedFrame (loadedBytes emitWord.toNat)) 0 emitWord rfl (by decide)
    (.inr ⟨0, emitThread, .xlate 0, rfl, rfl, rfl, rfl, rfl, .inr ⟨rfl, rfl, rfl, rfl⟩⟩)
    rfl rfl rfl rfl rfl rfl rfl (by decide) rfl
  have hemit := hrun (.emit 0 2) (by decide) (by decide)
  have halone := congrArg issuesAlone (State.emitBehindRequest_step.symm.trans hemit)
  revert halone
  decide +kernel

end Sys2Proof
end

section
/-! SUPPORT. Exact values modulo 2^w (R88): the bit vector that a sum, a product, a quotient or an extreme of the values of
bit vectors gives (R131 to R133). -/

namespace Sys2Proof.Machine

open Sys2Proof

variable {w : Nat}

/-! ## Sums, magnitudes and extremes -/

theorem ofInt_toNat (x : BitVec w) : BitVec.ofInt w x.toNat = x := by simp

/-- A shorter bit vector's value, extended by zeros. -/
theorem setWidth_eq_ofInt_toNat {v : Nat} (x : BitVec v) : x.setWidth w = BitVec.ofInt w x.toNat := by
  rw [BitVec.ofInt_natCast, BitVec.ofNat_toNat]

theorem ofInt_sub (m n : Int) : BitVec.ofInt w (m - n) = BitVec.ofInt w m - BitVec.ofInt w n := by
  rw [Int.sub_eq_add_neg, BitVec.ofInt_add, BitVec.ofInt_neg, BitVec.sub_eq_add_neg]

theorem ofInt_natAbs (p : Int) :
    BitVec.ofInt w p.natAbs = if p < 0 then -BitVec.ofInt w p else BitVec.ofInt w p := by
  split
  · rw [Int.ofNat_natAbs_of_nonpos (by omega), BitVec.ofInt_neg]
  · rw [Int.natAbs_of_nonneg (by omega)]

theorem ofInt_natAbs_toInt (x : BitVec w) : BitVec.ofInt w x.toInt.natAbs = x.abs := by
  simp only [ofInt_natAbs, BitVec.ofInt_toInt, BitVec.abs_eq, BitVec.msb_eq_toInt, decide_eq_true_eq]

theorem ofInt_natAbs_toInt_sub (x y : BitVec w) :
    BitVec.ofInt w (x.toInt - y.toInt).natAbs = if x.slt y then y - x else x - y := by
  simp only [ofInt_natAbs, ofInt_sub, BitVec.ofInt_toInt, BitVec.slt_iff_toInt_lt, sub_neg, neg_sub]

theorem ofInt_natAbs_toNat_sub (x y : BitVec w) :
    BitVec.ofInt w ((x.toNat : Int) - y.toNat).natAbs = if x.ult y then y - x else x - y := by
  simp only [ofInt_natAbs, ofInt_sub, ofInt_toNat, BitVec.ult_iff_lt, BitVec.lt_def, sub_neg, neg_sub, Int.ofNat_lt]

theorem ofInt_min_toInt (x y : BitVec w) : BitVec.ofInt w (min x.toInt y.toInt) = if x.slt y then x else y := by
  simp only [min_def_lt, apply_ite (BitVec.ofInt w), BitVec.ofInt_toInt, BitVec.slt_iff_toInt_lt]

theorem ofInt_max_toInt (x y : BitVec w) : BitVec.ofInt w (max x.toInt y.toInt) = if x.slt y then y else x := by
  simp only [max_def_lt, apply_ite (BitVec.ofInt w), BitVec.ofInt_toInt, BitVec.slt_iff_toInt_lt]

theorem ofInt_min_toNat (x y : BitVec w) :
    BitVec.ofInt w (min x.toNat y.toNat : Nat) = if x.ult y then x else y := by
  simp only [min_def_lt, apply_ite Nat.cast, apply_ite (BitVec.ofInt w), ofInt_toNat, BitVec.ult_iff_lt, BitVec.lt_def]

theorem ofInt_max_toNat (x y : BitVec w) :
    BitVec.ofInt w (max x.toNat y.toNat : Nat) = if x.ult y then y else x := by
  simp only [max_def_lt, apply_ite Nat.cast, apply_ite (BitVec.ofInt w), ofInt_toNat, BitVec.ult_iff_lt, BitVec.lt_def]

/-- A sum of numbers clamped to an unsigned range. -/
theorem satN_add (k m n : Nat) : satN k (m + n) = (min (2 ^ k - 1) (m + n) : Nat) := by
  have hmax : ((2 ^ k - 1 : Nat) : Int) = 2 ^ k - 1 := by push_cast [Nat.one_le_two_pow (n := k)]; rfl
  unfold satN
  push_cast [hmax]
  omega

/-! ## Products, quotients and remainders (R132) -/

/-- A run of bits of an exact value modulo 2^w is its quotient by 2^k modulo 2^n. -/
theorem extractLsb'_ofInt (p : Int) {k n : Nat} (h : k + n ≤ w) :
    (BitVec.ofInt w p).extractLsb' k n = BitVec.ofInt n (p / 2 ^ k) := by
  have hw : (2 : Int) ^ w = 2 ^ k * (2 ^ n * 2 ^ (w - k - n)) := by rw [← pow_add, ← pow_add]; congr 1; omega
  have hlow : ((BitVec.ofInt w p).toNat : Int) = p % 2 ^ w := by
    rw [BitVec.toNat_ofInt, Int.toNat_of_nonneg (Int.emod_nonneg _ (by positivity))]
    push_cast; rfl
  have hdiv : p / 2 ^ k = p % 2 ^ w / 2 ^ k + 2 ^ n * (2 ^ (w - k - n) * (p / 2 ^ w)) := by
    conv_lhs => rw [← Int.emod_add_mul_ediv p (2 ^ w)]
    rw [show (2 : Int) ^ w * (p / 2 ^ w) = 2 ^ k * (2 ^ n * (2 ^ (w - k - n) * (p / 2 ^ w))) by rw [hw]; ring,
      Int.add_mul_ediv_left _ _ (by positivity)]
  have hzero : BitVec.ofInt n (2 ^ n) = 0#n := by
    rw [show (2 : Int) ^ n = (2 ^ n : Nat) by push_cast; rfl, BitVec.ofInt_natCast]
    exact BitVec.eq_of_toNat_eq (by rw [BitVec.toNat_ofNat, Nat.mod_self]; rfl)
  rw [hdiv, BitVec.ofInt_add, BitVec.ofInt_mul, hzero, BitVec.zero_mul, BitVec.add_zero, ← hlow,
    show (2 : Int) ^ k = (2 ^ k : Nat) by push_cast; rfl, ← Int.natCast_ediv, BitVec.ofInt_natCast,
    ← Nat.shiftRight_eq_div_pow]
  rfl

theorem toInt_eq_zero_iff (y : BitVec w) : y.toInt = 0 ↔ y = 0#w := by rw [← BitVec.toInt_inj, BitVec.toInt_zero]

theorem natCast_toNat_eq_zero_iff (y : BitVec w) : (y.toNat : Int) = 0 ↔ y = 0#w := by simp [BitVec.toNat_eq]

theorem ofInt_neg_one : BitVec.ofInt w (-1) = BitVec.allOnes w := by
  rw [BitVec.ofInt_neg, ← BitVec.neg_one_eq_allOnes]; rfl

/-- The quotient that truncates toward zero; the least value divided by -1 wraps to itself. -/
theorem ofInt_tdiv_toInt (x y : BitVec w) : BitVec.ofInt w (x.toInt.tdiv y.toInt) = x.sdiv y :=
  BitVec.eq_of_toInt_eq (by rw [BitVec.toInt_ofInt, BitVec.toInt_sdiv])

theorem ofInt_quot_toInt (x y : BitVec w) :
    BitVec.ofInt w (quot x.toInt y.toInt) = if y = 0#w then BitVec.allOnes w else x.sdiv y := by
  simp only [quot, toInt_eq_zero_iff, apply_ite (BitVec.ofInt w), ofInt_neg_one, ofInt_tdiv_toInt]

theorem ofInt_quot_toNat (x y : BitVec w) :
    BitVec.ofInt w (quot x.toNat y.toNat) = if y = 0#w then BitVec.allOnes w else x / y := by
  simp only [quot, natCast_toNat_eq_zero_iff, apply_ite (BitVec.ofInt w), ofInt_neg_one, ← Int.ofNat_tdiv,
    ← BitVec.toNat_udiv, ofInt_toNat]

theorem ofInt_rema_toInt (x y : BitVec w) :
    BitVec.ofInt w (rema x.toInt y.toInt) = if y = 0#w then x else x.srem y := by
  simp only [rema, toInt_eq_zero_iff, apply_ite (BitVec.ofInt w), ← BitVec.toInt_srem, BitVec.ofInt_toInt]

theorem ofInt_rema_toNat (x y : BitVec w) :
    BitVec.ofInt w (rema x.toNat y.toNat) = if y = 0#w then x else x % y := by
  simp only [rema, natCast_toNat_eq_zero_iff, apply_ite (BitVec.ofInt w), ← Int.ofNat_tmod, ← BitVec.toNat_umod, ofInt_toNat]

/-- The remainder a - b × quotient. -/
theorem srem_eq_sub_mul_sdiv (x y : BitVec w) : x.srem y = x - y * x.sdiv y := by
  rw [← BitVec.ofInt_toInt (x := x.srem y), BitVec.toInt_srem, Int.tmod_def, ofInt_sub, BitVec.ofInt_mul,
    ofInt_tdiv_toInt, BitVec.ofInt_toInt, BitVec.ofInt_toInt]

/-! ## Shifts and counts (R133, R134) -/

/-- A shift to the right by the width or more leaves the sign in every bit (R133). -/
theorem shrI_eq (a : BitVec w) (n : Nat) :
    shrI w a n = if n < w then a.sshiftRight n else if a.msb then BitVec.allOnes w else 0#w := by
  unfold shrI
  by_cases h : n < w
  · rw [if_pos h, Nat.min_eq_left h.le]
  · rw [if_neg h, Nat.min_eq_right (by omega)]
    cases hm : a.msb <;> ext i hi <;> simp [BitVec.getElem_sshiftRight, hm]

theorem onesBelow_eq_countP (a : BitVec w) (n : Nat) :
    onesBelow a n = (List.range n).countP fun i => a.getLsbD i := by
  induction n with
  | zero => rfl
  | succ n ih => rw [List.range_succ, List.countP_append, onesBelow, ih, List.countP_singleton]

/-- Zeros are counted downward from bit n - 1. -/
theorem zerosFrom_eq_takeWhile (a : BitVec w) (n : Nat) (hn : n ≤ w) :
    zerosFrom a n = ((List.range n).takeWhile fun i => !a.getMsbD (w - n + i)).length := by
  induction n with
  | zero => rfl
  | succ n ih =>
    have htop : a.getMsbD (w - (n + 1) + 0) = a.getLsbD n := by
      rw [BitVec.getMsbD_eq_getLsbD, decide_eq_true (by omega), Bool.true_and]
      congr 1; omega
    have htail : ((fun i => !a.getMsbD (w - (n + 1) + i)) ∘ Nat.succ) = fun i => !a.getMsbD (w - n + i) := by
      funext i
      show (!a.getMsbD (w - (n + 1) + (i + 1))) = _
      congr 2; omega
    rw [List.range_succ_eq_map, List.takeWhile_cons, zerosFrom, htop, List.takeWhile_map, htail, ih (by omega)]
    cases a.getLsbD n <;> simp

theorem clz_eq_leadingZeros (a : BitVec w) : clz w a = leadingZeros a := by
  simpa [clz, leadingZeros] using zerosFrom_eq_takeWhile a w le_rfl

theorem popc_eq_countP (a : BitVec w) : popc w a = (List.range w).countP fun i => a.getLsbD i :=
  onesBelow_eq_countP a w

end Sys2Proof.Machine
end

section
/-! SUPPORT. The integer, predicate and select operations of Table 7.1 on the operand values of R128: a 32-bit operand is a
word that travels zero-extended, and so is a 32-bit result. A lemma named `_word` or `_words` is about such operands, one
named `_eq` about pairs, one named `_imm` about an immediate of R138. -/

namespace Sys2Proof.Machine

open Sys2Proof

/-! ## Words as operand values -/

@[simp] theorem lo32_setWidth (x : Word) : lo32 (x.setWidth 64) = x := by
  rw [lo32, ← BitVec.setWidth_eq_extractLsb' (by decide), BitVec.setWidth_setWidth_of_le _ (by decide), BitVec.setWidth_eq]
@[simp] theorem i32_setWidth (x : Word) : i32 (x.setWidth 64) = x.toInt := by simp [i32]
@[simp] theorem n32_setWidth (x : Word) : n32 (x.setWidth 64) = x.toNat := by simp [n32]

/-- A run of bits of an operand lies in its word. -/
theorem extractLsb'_setWidth (x : Word) (k n : Nat) (h : k + n ≤ 32) :
    (x.setWidth 64).extractLsb' k n = x.extractLsb' k n := by
  ext i hi
  simp only [BitVec.getElem_extractLsb', BitVec.getLsbD_setWidth]
  rw [decide_eq_true (by omega), Bool.true_and]

theorem bitsWhere_getElem (f : Nat → Bool) (i : Nat) (h : i < 32) : (bitsWhere f)[i] = f i := by
  unfold bitsWhere
  simp

@[simp] theorem wordBool_boolWord (c : Bool) : wordBool (boolWord c) = c := by cases c <;> rfl

section

variable (x y z : Word) (u v : Dword) (m : BitVec 16)

/-! ## Sums and differences (R131) -/

theorem addI32_words : addI32 (x.setWidth 64) (y.setWidth 64) = (x + y).setWidth 64 := by
  simp only [addI32, low32, i32_setWidth, BitVec.ofInt_add, BitVec.ofInt_toInt]

theorem subI32_words : subI32 (x.setWidth 64) (y.setWidth 64) = (x - y).setWidth 64 := by
  simp only [subI32, low32, i32_setWidth, ofInt_sub, BitVec.ofInt_toInt]

theorem negI32_word : negI32 (x.setWidth 64) = (-x).setWidth 64 := by
  simp only [negI32, low32, i32_setWidth, BitVec.ofInt_neg, BitVec.ofInt_toInt]

theorem absI32_word : absI32 (x.setWidth 64) = (if x.msb then -x else x).setWidth 64 := by
  simp only [absI32, low32, i32_setWidth, ofInt_natAbs_toInt, BitVec.abs_eq]

theorem avgI32_words : avgI32 (x.setWidth 64) (y.setWidth 64) =
    (BitVec.ofInt 32 ((x.toInt + y.toInt + 1) / 2)).setWidth 64 := by
  simp only [avgI32, low32, i32_setWidth, Int.fdiv_eq_ediv_of_nonneg _ (show (0 : Int) ≤ 2 by decide)]

theorem avgN32_words : avgN32 (x.setWidth 64) (y.setWidth 64) =
    (BitVec.ofNat 32 ((x.toNat + y.toNat + 1) / 2)).setWidth 64 := by
  simp only [avgN32, low32, n32_setWidth, BitVec.ofInt_natCast]

theorem adiffI32_words : adiffI32 (x.setWidth 64) (y.setWidth 64) = (if x.slt y then y - x else x - y).setWidth 64 := by
  simp only [adiffI32, low32, i32_setWidth, ofInt_natAbs_toInt_sub]

theorem adiffN32_words : adiffN32 (x.setWidth 64) (y.setWidth 64) = (if x.ult y then y - x else x - y).setWidth 64 := by
  simp only [adiffN32, low32, n32_setWidth, ofInt_natAbs_toNat_sub]

theorem addsatI32_words : addsatI32 (x.setWidth 64) (y.setWidth 64) =
    (BitVec.ofInt 32 (max (-2147483648) (min 2147483647 (x.toInt + y.toInt)))).setWidth 64 := by
  simp only [addsatI32, low32, i32_setWidth]; rfl

theorem subsatI32_words : subsatI32 (x.setWidth 64) (y.setWidth 64) =
    (BitVec.ofInt 32 (max (-2147483648) (min 2147483647 (x.toInt - y.toInt)))).setWidth 64 := by
  simp only [subsatI32, low32, i32_setWidth]; rfl

theorem addsatN32_words : addsatN32 (x.setWidth 64) (y.setWidth 64) =
    (BitVec.ofNat 32 (min 4294967295 (x.toNat + y.toNat))).setWidth 64 := by
  simp only [addsatN32, low32, n32_setWidth, satN_add, BitVec.ofInt_natCast]; rfl

theorem subsatN32_words : subsatN32 (x.setWidth 64) (y.setWidth 64) =
    (BitVec.ofNat 32 (x.toNat - y.toNat)).setWidth 64 := by
  have h : satN 32 ((x.toNat : Int) - y.toNat) = (x.toNat - y.toNat : Nat) := by
    have := x.isLt
    simp only [satN]; omega
  simp only [subsatN32, low32, n32_setWidth, h, BitVec.ofInt_natCast]

theorem satI_of_inRange {p : Int} (hlow : -2147483648 ≤ p) (hhigh : p ≤ 2147483647) : satI 32 p = p := by
  unfold satI; omega

/-- Only the least signed word has a magnitude beyond the range. -/
theorem toInt_gt_of_ne_min {x : Word} (h : x ≠ 0x80000000#32) : -2147483648 < x.toInt :=
  lt_of_le_of_ne x.le_toInt fun e => h (BitVec.eq_of_toInt_eq e.symm)

theorem negsatI32_word : negsatI32 (x.setWidth 64) =
    (if x = 0x80000000#32 then 0x7FFFFFFF#32 else -x).setWidth 64 := by
  split
  · subst x; rfl
  · have hlow := toInt_gt_of_ne_min ‹_›
    have hhigh : x.toInt < 2147483648 := x.toInt_lt
    simp only [negsatI32, low32, i32_setWidth]
    rw [satI_of_inRange (by omega) (by omega), BitVec.ofInt_neg, BitVec.ofInt_toInt]

theorem abssatI32_word : abssatI32 (x.setWidth 64) =
    (if x = 0x80000000#32 then 0x7FFFFFFF#32 else x.abs).setWidth 64 := by
  split
  · subst x; rfl
  · have hlow := toInt_gt_of_ne_min ‹_›
    have hhigh : x.toInt < 2147483648 := x.toInt_lt
    simp only [abssatI32, low32, i32_setWidth]
    rw [satI_of_inRange (by omega) (by omega), ofInt_natAbs_toInt]

theorem addI64_eq : addI64 u v = u + v := by simp [addI64, low64, i64, BitVec.ofInt_add]

theorem subI64_eq : subI64 u v = u - v := by simp [subI64, low64, i64, ofInt_sub]

theorem negI64_eq : negI64 u = -u := by simp [negI64, low64, i64, BitVec.ofInt_neg]

theorem absI64_eq : absI64 u = u.abs := by simp only [absI64, low64, i64, ofInt_natAbs_toInt]

theorem addwI64_word : addwI64 u (y.setWidth 64) = u + y.signExtend 64 := by
  simp [addwI64, low64, i64, BitVec.ofInt_add, BitVec.signExtend]

theorem addwN64_word : addwN64 u (y.setWidth 64) = u + y.setWidth 64 := by
  simp [addwN64, low64, i64, BitVec.ofInt_add]

theorem mulwI32_words : mulwI32 (x.setWidth 64) (y.setWidth 64) = x.signExtend 64 * y.signExtend 64 := by
  simp [mulwI32, low64, BitVec.ofInt_mul, BitVec.signExtend]

theorem mulwN32_words : mulwN32 (x.setWidth 64) (y.setWidth 64) = x.setWidth 64 * y.setWidth 64 := by
  simp [mulwN32, low64, BitVec.ofInt_mul]

theorem mulI64_eq : mulI64 u v = u * v := by simp [mulI64, low64, i64, BitVec.ofInt_mul]

/-! ## Products, quotients and remainders (R132) -/

theorem mulI32_words : mulI32 (x.setWidth 64) (y.setWidth 64) = (x * y).setWidth 64 := by
  simp only [mulI32, low32, i32_setWidth, BitVec.ofInt_mul, BitVec.ofInt_toInt]

theorem mulhiI32_words : mulhiI32 (x.setWidth 64) (y.setWidth 64) =
    ((x.signExtend 64 * y.signExtend 64).extractLsb' 32 32).setWidth 64 := by
  simp only [mulhiI32, low32, i32_setWidth, BitVec.signExtend, ← BitVec.ofInt_mul]
  rw [extractLsb'_ofInt _ (by decide), Int.fdiv_eq_ediv_of_nonneg _ (by decide)]

theorem mulhiN32_words : mulhiN32 (x.setWidth 64) (y.setWidth 64) =
    ((x.setWidth 64 * y.setWidth 64).extractLsb' 32 32).setWidth 64 := by
  rw [setWidth_eq_ofInt_toNat x, setWidth_eq_ofInt_toNat y, ← BitVec.ofInt_mul, extractLsb'_ofInt _ (by decide),
    ← setWidth_eq_ofInt_toNat, ← setWidth_eq_ofInt_toNat, mulhiN32, n32_setWidth, n32_setWidth]
  rfl

theorem madI32_words : madI32 (x.setWidth 64) (y.setWidth 64) (z.setWidth 64) = (x * y + z).setWidth 64 := by
  simp only [madI32, low32, i32_setWidth, BitVec.ofInt_add, BitVec.ofInt_mul, BitVec.ofInt_toInt]

theorem divI32_words : divI32 (x.setWidth 64) (y.setWidth 64) =
    (if y = 0#32 then BitVec.allOnes 32 else x.sdiv y).setWidth 64 := by
  simp only [divI32, low32, i32_setWidth, ofInt_quot_toInt]

theorem divN32_words : divN32 (x.setWidth 64) (y.setWidth 64) =
    (if y = 0#32 then BitVec.allOnes 32 else x.udiv y).setWidth 64 := by
  simp only [divN32, low32, n32_setWidth, ofInt_quot_toNat, BitVec.udiv_eq]

theorem remI32_words : remI32 (x.setWidth 64) (y.setWidth 64) =
    (if y = 0#32 then x else x - y * x.sdiv y).setWidth 64 := by
  simp only [remI32, low32, i32_setWidth, ofInt_rema_toInt, srem_eq_sub_mul_sdiv]

theorem remN32_words : remN32 (x.setWidth 64) (y.setWidth 64) =
    (if y = 0#32 then x else x.umod y).setWidth 64 := by
  simp only [remN32, low32, n32_setWidth, ofInt_rema_toNat, BitVec.umod_eq]

theorem divI64_eq : divI64 u v = if v = 0#64 then BitVec.allOnes 64 else u.sdiv v := ofInt_quot_toInt u v

theorem divN64_eq : divN64 u v = if v = 0#64 then BitVec.allOnes 64 else u / v := ofInt_quot_toNat u v

theorem remI64_eq : remI64 u v = if v = 0#64 then u else u.srem v := ofInt_rema_toInt u v

theorem remI64_eq_sub : remI64 u v = if v = 0#64 then u else u - v * u.sdiv v := by
  rw [remI64_eq, srem_eq_sub_mul_sdiv]

theorem remN64_eq : remN64 u v = if v = 0#64 then u else u % v := ofInt_rema_toNat u v

/-! ## Extremes and bitwise logic -/

theorem minI32_words : minI32 (x.setWidth 64) (y.setWidth 64) = (if x.slt y then x else y).setWidth 64 := by
  simp only [minI32, low32, i32_setWidth, ofInt_min_toInt]

theorem maxI32_words : maxI32 (x.setWidth 64) (y.setWidth 64) = (if x.slt y then y else x).setWidth 64 := by
  simp only [maxI32, low32, i32_setWidth, ofInt_max_toInt]

theorem minN32_words : minN32 (x.setWidth 64) (y.setWidth 64) = (if x.ult y then x else y).setWidth 64 := by
  simp only [minN32, low32, n32_setWidth, ofInt_min_toNat]

theorem maxN32_words : maxN32 (x.setWidth 64) (y.setWidth 64) = (if x.ult y then y else x).setWidth 64 := by
  simp only [maxN32, low32, n32_setWidth, ofInt_max_toNat]

theorem minI64_eq : minI64 u v = if u.slt v then u else v := ofInt_min_toInt u v

theorem maxI64_eq : maxI64 u v = if u.slt v then v else u := ofInt_max_toInt u v

theorem minN64_eq : minN64 u v = if u.ult v then u else v := ofInt_min_toNat u v

theorem maxN64_eq : maxN64 u v = if u.ult v then v else u := ofInt_max_toNat u v

theorem and64_words : and64 (x.setWidth 64) (y.setWidth 64) = (x &&& y).setWidth 64 := BitVec.setWidth_and.symm

theorem or64_words : or64 (x.setWidth 64) (y.setWidth 64) = (x ||| y).setWidth 64 := BitVec.setWidth_or.symm

theorem xor64_words : xor64 (x.setWidth 64) (y.setWidth 64) = (x ^^^ y).setWidth 64 := BitVec.setWidth_xor.symm

theorem andn64_words : andn64 (x.setWidth 64) (y.setWidth 64) = (x &&& ~~~y).setWidth 64 := by
  ext i hi
  by_cases h : i < 32
  · simp [andn64, h]
  · simp [andn64, BitVec.getLsbD_of_ge x i (by omega)]

theorem orn32_words : orn32 (x.setWidth 64) (y.setWidth 64) = (x ||| ~~~y).setWidth 64 := by
  simp only [orn32, lo32_setWidth]

theorem xnor32_words : xnor32 (x.setWidth 64) (y.setWidth 64) = (~~~(x ^^^ y)).setWidth 64 := by
  simp only [xnor32, lo32_setWidth]

theorem not32_word : not32 (x.setWidth 64) = (~~~x).setWidth 64 := by
  simp only [not32, lo32_setWidth]

/-! ## Shifts and rotates (R133) -/

theorem shlN32_words : shlN32 (x.setWidth 64) (y.setWidth 64) =
    (if y.toNat < 32 then x <<< y.toNat else 0#32).setWidth 64 := by
  simp only [shlN32, lo32_setWidth, n32_setWidth]; rfl

theorem shrN32_words : shrN32 (x.setWidth 64) (y.setWidth 64) =
    (if y.toNat < 32 then x >>> y.toNat else 0#32).setWidth 64 := by
  simp only [shrN32, lo32_setWidth, n32_setWidth]; rfl

theorem shrI32_words : shrI32 (x.setWidth 64) (y.setWidth 64) =
    (if y.toNat < 32 then x.sshiftRight y.toNat else if x.msb then BitVec.allOnes 32 else 0#32).setWidth 64 := by
  simp only [shrI32, lo32_setWidth, n32_setWidth, shrI_eq]

theorem rolN32_words : rolN32 (x.setWidth 64) (y.setWidth 64) = (x.rotateLeft (y.toNat % 32)).setWidth 64 := by
  simp only [rolN32, lo32_setWidth, n32_setWidth, rol]

theorem rorN32_words : rorN32 (x.setWidth 64) (y.setWidth 64) = (x.rotateRight (y.toNat % 32)).setWidth 64 := by
  simp only [rorN32, lo32_setWidth, n32_setWidth, ror]

theorem shlN64_word : shlN64 u (y.setWidth 64) = if y.toNat < 64 then u <<< y.toNat else 0#64 := by
  simp only [shlN64, n32_setWidth]; rfl

theorem shrN64_word : shrN64 u (y.setWidth 64) = if y.toNat < 64 then u >>> y.toNat else 0#64 := by
  simp only [shrN64, n32_setWidth]; rfl

theorem shrI64_word : shrI64 u (y.setWidth 64) =
    if y.toNat < 64 then u.sshiftRight y.toNat else if u.msb then BitVec.allOnes 64 else 0#64 := by
  simp only [shrI64, n32_setWidth, shrI_eq]

/-! ## Counts and reversals of bits, and bit fields (R134) -/

theorem popcN32_word : popcN32 (x.setWidth 64) =
    (BitVec.ofNat 32 ((List.range 32).filter fun i => x.getLsbD i).length).setWidth 64 := by
  simp only [popcN32, low32, lo32_setWidth, popc_eq_countP, List.countP_eq_length_filter, BitVec.ofInt_natCast]

theorem popcN64_word : popcN64 u =
    (BitVec.ofNat 32 ((List.range 64).filter fun i => u.getLsbD i).length).setWidth 64 := by
  simp only [popcN64, low32, popc_eq_countP, List.countP_eq_length_filter, BitVec.ofInt_natCast]

theorem clzN32_word : clzN32 (x.setWidth 64) = (BitVec.ofNat 32 (leadingZeros x)).setWidth 64 := by
  simp only [clzN32, low32, lo32_setWidth, clz_eq_leadingZeros, BitVec.ofInt_natCast]

theorem ctzN32_word : ctzN32 (x.setWidth 64) = (BitVec.ofNat 32 (leadingZeros x.reverse)).setWidth 64 := by
  simp only [ctzN32, low32, lo32_setWidth, ctz, clz_eq_leadingZeros, BitVec.ofInt_natCast]

theorem clzN64_word : clzN64 u = (BitVec.ofNat 32 (leadingZeros u)).setWidth 64 := by
  simp only [clzN64, low32, clz_eq_leadingZeros, BitVec.ofInt_natCast]

theorem brevN32_word : brevN32 (x.setWidth 64) = x.reverse.setWidth 64 := by
  simp only [brevN32, lo32_setWidth]

theorem bswapN32_word : bswapN32 (x.setWidth 64) =
    (x.extractLsb' 0 8 ++ x.extractLsb' 8 8 ++ x.extractLsb' 16 8 ++ x.extractLsb' 24 8 : BitVec 32).setWidth 64 := by
  simp [bswapN32, extractLsb'_setWidth]

theorem fieldPos_word : fieldPos (x.setWidth 64) = (x.extractLsb' 0 8).toNat := by
  rw [fieldPos, extractLsb'_setWidth _ _ _ (by decide)]

theorem fieldLen_word : fieldLen (x.setWidth 64) = min (x.extractLsb' 8 8).toNat (32 - (x.extractLsb' 0 8).toNat) := by
  rw [fieldLen, fieldPos_word, extractLsb'_setWidth _ _ _ (by decide)]

/-- The field of R134 by its position and its length. -/
theorem bitField_eq (a fill : Nat → Bool) : bitField a fill y =
    if fieldLen (y.setWidth 64) = 0 then 0#32
    else bitsWhere fun i => if i < fieldLen (y.setWidth 64) then a (fieldPos (y.setWidth 64) + i)
      else fill (fieldPos (y.setWidth 64) + fieldLen (y.setWidth 64) - 1) := by
  rw [fieldLen_word, fieldPos_word]
  unfold bitField
  generalize (y.extractLsb' 0 8).toNat = pos
  generalize (y.extractLsb' 8 8).toNat = len
  by_cases h : min (pos + len) 32 ≤ pos
  · simp only [if_pos h]
    rw [if_pos (by omega)]
  · have htop : pos + min len (32 - pos) = min (pos + len) 32 := by omega
    simp only [if_neg h, htop]
    rw [if_neg (by omega)]
    congr 1
    funext i
    exact if_congr (by omega) rfl rfl

/-- The field as a number of its own length, extended by zeros and by its top bit. -/
theorem bitField_zero : bitField (fun i => x.getLsbD i) (fun _ => false) y =
    (x.extractLsb' (fieldPos (y.setWidth 64)) (fieldLen (y.setWidth 64))).setWidth 32 := by
  rw [bitField_eq]
  generalize fieldPos (y.setWidth 64) = pos, fieldLen (y.setWidth 64) = len
  split
  · subst len; ext i hi; simp
  · ext i hi
    rw [bitsWhere_getElem, BitVec.getElem_setWidth, BitVec.getLsbD_extractLsb']
    by_cases h : i < len <;> simp [h]

theorem bitField_sign : bitField (fun i => x.getLsbD i) (fun n => x.getLsbD n) y =
    (x.extractLsb' (fieldPos (y.setWidth 64)) (fieldLen (y.setWidth 64))).signExtend 32 := by
  rw [bitField_eq]
  generalize fieldPos (y.setWidth 64) = pos, fieldLen (y.setWidth 64) = len
  split
  · subst len; ext i hi; simp
  · ext i hi
    rw [bitsWhere_getElem, BitVec.getElem_signExtend]
    by_cases h : i < len
    · simp [h]
    · simp [h, BitVec.msb_eq_getLsbD_last, show len - 1 < len by omega]
      congr 1; omega

theorem bfeN32_words : bfeN32 (x.setWidth 64) (y.setWidth 64) =
    (bitField (fun i => x.getLsbD i) (fun _ => false) y).setWidth 64 := by
  rw [bitField_zero, bfeN32, low32, BitVec.ofInt_natCast, n32_setWidth]
  congr 1
  exact BitVec.eq_of_toNat_eq (by simp [Nat.shiftRight_eq_div_pow])

theorem bfeI32_words : bfeI32 (x.setWidth 64) (y.setWidth 64) =
    (bitField (fun i => x.getLsbD i) (fun n => x.getLsbD n) y).setWidth 64 := by
  rw [bitField_sign, bfeI32, n32_setWidth]
  generalize fieldPos (y.setWidth 64) = pos, fieldLen (y.setWidth 64) = len
  have hfield : x.toNat / 2 ^ pos % 2 ^ len = (x.extractLsb' pos len).toNat := by
    rw [BitVec.extractLsb'_toNat, Nat.shiftRight_eq_div_pow]
  simp only [hfield]
  split
  · subst len; rw [BitVec.of_length_zero (x := x.extractLsb' pos 0)]; rfl
  · have hhalf := Nat.two_pow_pred_add_two_pow_pred (show 0 < len by omega)
    have hsign : (x.extractLsb' pos len).toInt = if 2 ^ (len - 1) ≤ (x.extractLsb' pos len).toNat
        then ((x.extractLsb' pos len).toNat : Int) - 2 ^ len else (x.extractLsb' pos len).toNat := by
      rw [BitVec.toInt_eq_toNat_cond]
      by_cases h : 2 ^ (len - 1) ≤ (x.extractLsb' pos len).toNat
      · rw [if_pos h, if_neg (by omega)]; push_cast; rfl
      · rw [if_neg h, if_pos (by omega)]
    rw [← hsign]
    rfl

/-- The mask of a field, and a value moved to its position, bit by bit. -/
theorem getElem_fieldMask (pos len i : Nat) (hi : i < 32) :
    (BitVec.ofNat 32 ((2 ^ len - 1) * 2 ^ pos))[i] = decide (pos ≤ i ∧ i < pos + len) := by
  rw [BitVec.getElem_eq_testBit_toNat, BitVec.toNat_ofNat, Nat.testBit_mod_two_pow, decide_eq_true hi, Bool.true_and,
    Nat.testBit_mul_two_pow, Nat.testBit_two_pow_sub_one, ← Bool.decide_and]
  exact decide_eq_decide.2 (by omega)

theorem getElem_fieldMoved (pos i : Nat) (hi : i < 32) :
    (BitVec.ofNat 32 (x.toNat * 2 ^ pos))[i] = (decide (pos ≤ i) && x.getLsbD (i - pos)) := by
  rw [BitVec.getElem_eq_testBit_toNat, BitVec.toNat_ofNat, Nat.testBit_mod_two_pow, decide_eq_true hi, Bool.true_and,
    Nat.testBit_mul_two_pow, BitVec.getLsbD]

theorem bfiN32_words : bfiN32 (x.setWidth 64) (y.setWidth 64) (z.setWidth 64) =
    (bitsWhere fun i =>
      if (y.extractLsb' 0 8).toNat ≤ i ∧ i < (y.extractLsb' 0 8).toNat + (y.extractLsb' 8 8).toNat then
        x.getLsbD (i - (y.extractLsb' 0 8).toNat)
      else z.getLsbD i).setWidth 64 := by
  simp only [bfiN32, lo32_setWidth, n32_setWidth, fieldLen_word, fieldPos_word]
  generalize (y.extractLsb' 0 8).toNat = pos
  generalize (y.extractLsb' 8 8).toNat = len
  congr 1
  ext i hi
  have hfield : pos ≤ i ∧ i < pos + min len (32 - pos) ↔ pos ≤ i ∧ i < pos + len := by omega
  rw [bitsWhere_getElem _ _ hi, BitVec.getElem_or, BitVec.getElem_and, BitVec.getElem_and, BitVec.getElem_not,
    getElem_fieldMask _ _ _ hi, getElem_fieldMoved _ _ _ hi]
  simp only [hfield]
  by_cases h : pos ≤ i ∧ i < pos + len
  · simp [h]
  · simp [h, BitVec.getLsbD_eq_getElem hi]

/-! ## Packed elements (R81) -/

theorem packed16_words (f : BitVec 16 → BitVec 16 → Int) : packed16 f (x.setWidth 64) (y.setWidth 64) =
    (halves (fun p q => BitVec.ofInt 16 (f p q)) x y).setWidth 64 := by
  simp only [packed16, halves, halfOf, extractLsb'_setWidth _ _ _ (show 16 * 0 + 16 ≤ 32 by decide),
    extractLsb'_setWidth _ _ _ (show 16 * 1 + 16 ≤ 32 by decide)]

theorem packed8_words (f : Byte → Byte → Int) : packed8 f (x.setWidth 64) (y.setWidth 64) =
    (bytes4 (fun p q => BitVec.ofInt 8 (f p q)) x y).setWidth 64 := by
  simp only [packed8, bytes4, byteOf, extractLsb'_setWidth _ _ _ (show 8 * 0 + 8 ≤ 32 by decide),
    extractLsb'_setWidth _ _ _ (show 8 * 1 + 8 ≤ 32 by decide),
    extractLsb'_setWidth _ _ _ (show 8 * 2 + 8 ≤ 32 by decide),
    extractLsb'_setWidth _ _ _ (show 8 * 3 + 8 ≤ 32 by decide)]

theorem addI16_words : addI16 (x.setWidth 64) (y.setWidth 64) = (halves (fun p q => p + q) x y).setWidth 64 := by
  simp only [addI16, packed16_words, BitVec.ofInt_add, BitVec.ofInt_toInt]

theorem subI16_words : subI16 (x.setWidth 64) (y.setWidth 64) = (halves (fun p q => p - q) x y).setWidth 64 := by
  simp only [subI16, packed16_words, ofInt_sub, BitVec.ofInt_toInt]

theorem addI8_words : addI8 (x.setWidth 64) (y.setWidth 64) = (bytes4 (fun p q => p + q) x y).setWidth 64 := by
  simp only [addI8, packed8_words, BitVec.ofInt_add, BitVec.ofInt_toInt]

theorem subI8_words : subI8 (x.setWidth 64) (y.setWidth 64) = (bytes4 (fun p q => p - q) x y).setWidth 64 := by
  simp only [subI8, packed8_words, ofInt_sub, BitVec.ofInt_toInt]

theorem addsatI16_words : addsatI16 (x.setWidth 64) (y.setWidth 64) =
    (halves (fun p q => BitVec.ofInt 16 (max (-32768) (min 32767 (p.toInt + q.toInt)))) x y).setWidth 64 := packed16_words ..

theorem subsatI16_words : subsatI16 (x.setWidth 64) (y.setWidth 64) =
    (halves (fun p q => BitVec.ofInt 16 (max (-32768) (min 32767 (p.toInt - q.toInt)))) x y).setWidth 64 := packed16_words ..

theorem addsatN8_words : addsatN8 (x.setWidth 64) (y.setWidth 64) =
    (bytes4 (fun p q => BitVec.ofNat 8 (min 255 (p.toNat + q.toNat))) x y).setWidth 64 := by
  simp only [addsatN8, packed8_words, satN_add, BitVec.ofInt_natCast]
  rfl

theorem byteI_word (e : Nat) (he : e < 4) : byteI (x.setWidth 64) e = (byteOf x e).toInt := by
  rw [byteI, extractLsb'_setWidth _ _ _ (by omega), byteOf]

theorem dotI8_words : dotI8 (x.setWidth 64) (y.setWidth 64) (z.setWidth 64) =
    (z + (byteOf x 0).signExtend 32 * (byteOf y 0).signExtend 32 + (byteOf x 1).signExtend 32 * (byteOf y 1).signExtend 32 +
      (byteOf x 2).signExtend 32 * (byteOf y 2).signExtend 32 +
      (byteOf x 3).signExtend 32 * (byteOf y 3).signExtend 32).setWidth 64 := by
  simp [dotI8, low32, byteI_word, BitVec.ofInt_add, BitVec.ofInt_mul, BitVec.signExtend]

/-! ## Compares, selects and predicates (R135 to R137) -/

theorem cmpI32_words (cc : BitVec 3) : cmpI32 cc (x.setWidth 64) (y.setWidth 64) = boolWord (
    if cc = 0#3 then x == y
    else if cc = 1#3 then x != y
    else if cc = 2#3 then x.slt y
    else if cc = 3#3 then x.sle y
    else if cc = 4#3 then y.slt x
    else if cc = 5#3 then y.sle x
    else if cc = 6#3 then x.ult y
    else x.ule y) := by
  simp only [cmpI32, lo32_setWidth]
  rcases Laws.three_cases cc with rfl | rfl | rfl | rfl | rfl | rfl | rfl | rfl <;> rfl

theorem select_words (c : Bool) : (if wordBool (boolWord c) then x.setWidth 64 else y.setWidth 64) =
    (if c then x else y).setWidth 64 := by cases c <;> rfl

theorem shaddN32_words (sh : BitVec 2) :
    shaddN32 sh (x.setWidth 64) (y.setWidth 64) = ((x <<< sh.toNat) + y).setWidth 64 := by
  rw [shaddN32, low32, BitVec.ofInt_natCast, n32_setWidth, n32_setWidth]
  congr 1
  exact BitVec.eq_of_toNat_eq (by simp [Nat.shiftLeft_eq])

theorem shaddN64_word (sh : BitVec 2) : shaddN64 sh (x.setWidth 64) v = (x.setWidth 64 <<< sh.toNat) + v := by
  rw [shaddN64, low64, BitVec.ofInt_natCast, n32_setWidth, n64]
  exact BitVec.eq_of_toNat_eq (by simp [Nat.shiftLeft_eq])

theorem pandOp_bools (p q : Bool) : pandOp (boolWord p) (boolWord q) = boolWord (p && q) := by simp [pandOp]

theorem porOp_bools (p q : Bool) : porOp (boolWord p) (boolWord q) = boolWord (p || q) := by simp [porOp]

theorem pxorOp_bools (p q : Bool) : pxorOp (boolWord p) (boolWord q) = boolWord (p ^^ q) := by simp [pxorOp]

theorem pandnOp_bools (p q : Bool) : pandnOp (boolWord p) (boolWord q) = boolWord (p && !q) := by simp [pandnOp]

theorem pnotOp_bool (p : Bool) : pnotOp (boolWord p) = boolWord (!p) := by simp [pnotOp]

/-- p0 to p6, and p7, which reads as true (R65, R137). -/
theorem Thread.predByte_word (th : Thread) : th.predByte.setWidth 64 =
    (bitsWhere fun i => decide (i < 8) && th.pred i).setWidth 64 := by
  have hword : (bitsWhere fun i => decide (i < 8) && th.pred i) = th.predByte.setWidth 32 := by
    ext i hi
    rw [bitsWhere_getElem, BitVec.getElem_setWidth, Thread.predByte, BitVec.getLsbD_append]
    rcases Nat.lt_trichotomy i 7 with h | rfl | h
    · simp [Thread.pred, h, show i < 8 by omega, show i ≠ 7 by omega]
    · rfl
    · simp [show ¬i < 8 by omega, show ¬i < 7 by omega]
      omega
  rw [hword]
  exact (BitVec.setWidth_setWidth (by decide)).symm

/-! ## Immediates (R68, R138) -/

/-- An immediate of an n type as a word (R138). -/
theorem immN_eq : immN m = (m.setWidth 32).setWidth 64 := (BitVec.setWidth_setWidth (by decide)).symm

theorem toNat_immWord : (m.setWidth 32).toNat = m.toNat := by simp; omega

theorem toInt_immWord : (m.signExtend 32).toInt = m.toInt := BitVec.toInt_signExtend_of_le (by decide)

theorem setWord_eq (c : Bool) : setWord c = (if c then BitVec.allOnes 32 else 0#32).setWidth 64 := by cases c <;> rfl

theorem setEqI32_words : setEqI32 (x.setWidth 64) (y.setWidth 64) =
    (if x = y then BitVec.allOnes 32 else 0#32).setWidth 64 := by
  simp only [setEqI32, setWord_eq, lo32_setWidth, beq_iff_eq]

theorem setNeI32_words : setNeI32 (x.setWidth 64) (y.setWidth 64) =
    (if x = y then 0#32 else BitVec.allOnes 32).setWidth 64 := by
  simp only [setNeI32, setWord_eq, lo32_setWidth, bne_iff_ne, ne_eq, ite_not]

theorem setLtI32_words : setLtI32 (x.setWidth 64) (y.setWidth 64) =
    (if x.slt y then BitVec.allOnes 32 else 0#32).setWidth 64 := by
  simp only [setLtI32, setWord_eq, i32_setWidth, BitVec.slt_eq_decide]

theorem setLtN32_words : setLtN32 (x.setWidth 64) (y.setWidth 64) =
    (if x.ult y then BitVec.allOnes 32 else 0#32).setWidth 64 := by
  simp only [setLtN32, setWord_eq, n32_setWidth, BitVec.ult_eq_decide]

theorem immN_low : (immN m).extractLsb' 0 16 = m := by
  rw [immN, ← BitVec.setWidth_eq_extractLsb' (by decide), BitVec.setWidth_setWidth_of_le _ (by decide), BitVec.setWidth_eq]

theorem movlN32_imm : movlN32 (x.setWidth 64) (immN m) = (x.extractLsb' 16 16 ++ m : BitVec 32).setWidth 64 := by
  rw [movlN32, immN_low, extractLsb'_setWidth _ _ _ (by decide)]

theorem movhN32_imm : movhN32 (x.setWidth 64) (immN m) = (m ++ x.extractLsb' 0 16 : BitVec 32).setWidth 64 := by
  rw [movhN32, immN_low, extractLsb'_setWidth _ _ _ (by decide)]

theorem addsatI32_imm : addsatI32 (x.setWidth 64) (immI32 m) =
    (BitVec.ofInt 32 (max (-2147483648) (min 2147483647 (x.toInt + m.toInt)))).setWidth 64 := by
  rw [immI32, addsatI32_words, toInt_immWord]

theorem and64_imm : and64 (x.setWidth 64) (immN m) =
    (x &&& m.setWidth 32).setWidth 64 := by
  rw [immN_eq, and64_words]

theorem or64_imm : or64 (x.setWidth 64) (immN m) =
    (x ||| m.setWidth 32).setWidth 64 := by
  rw [immN_eq, or64_words]

theorem xor64_imm : xor64 (x.setWidth 64) (immN m) =
    (x ^^^ m.setWidth 32).setWidth 64 := by
  rw [immN_eq, xor64_words]

theorem addsatN32_imm : addsatN32 (x.setWidth 64) (immN m) =
    (BitVec.ofNat 32 (min 4294967295 (x.toNat + m.toNat))).setWidth 64 := by
  rw [immN_eq, addsatN32_words, toNat_immWord]

theorem shlN32_imm : shlN32 (x.setWidth 64) (immN m) =
    (if m.toNat < 32 then x <<< m.toNat else 0#32).setWidth 64 := by
  rw [immN_eq, shlN32_words, toNat_immWord]

theorem shrN32_imm : shrN32 (x.setWidth 64) (immN m) =
    (if m.toNat < 32 then x >>> m.toNat else 0#32).setWidth 64 := by
  rw [immN_eq, shrN32_words, toNat_immWord]

theorem shrI32_imm : shrI32 (x.setWidth 64) (immN m) =
    (if m.toNat < 32 then x.sshiftRight m.toNat else if x.msb then BitVec.allOnes 32 else 0#32).setWidth 64 := by
  rw [immN_eq, shrI32_words, toNat_immWord]

theorem rorN32_imm : rorN32 (x.setWidth 64) (immN m) =
    (x.rotateRight (m.toNat % 32)).setWidth 64 := by
  rw [immN_eq, rorN32_words, toNat_immWord]

theorem setLtN32_imm : setLtN32 (x.setWidth 64) (immN m) =
    (if x.ult (m.setWidth 32) then BitVec.allOnes 32 else 0#32).setWidth 64 := by
  rw [immN_eq, setLtN32_words]

theorem minN32_imm : minN32 (x.setWidth 64) (immN m) =
    (if x.ult (m.setWidth 32) then x else m.setWidth 32).setWidth 64 := by
  rw [immN_eq, minN32_words]

theorem maxN32_imm : maxN32 (x.setWidth 64) (immN m) =
    (if x.ult (m.setWidth 32) then m.setWidth 32 else x).setWidth 64 := by
  rw [immN_eq, maxN32_words]

end

end Sys2Proof.Machine

namespace Sys2Proof

open Machine

/-- Settles O1: each form is the frame of R128 (`State.alu_gives`) over an operation whose result is its exact value.
-/
theorem integerSums : Obligations.IntegerSums := by
  unfold Obligations.IntegerSums
  refine ⟨fun s d a b t => ?_, fun s d a b t => ?_⟩
  · exact ⟨s.alu_gives _ _ _ _ rfl fun _ => addI32_words _ _,
      s.alu_gives _ _ _ _ rfl fun _ => subI32_words _ _,
      s.alu_gives _ _ _ _ rfl fun _ => negI32_word _,
      s.alu_gives _ _ _ _ rfl fun _ => absI32_word _,
      s.alu_gives _ _ _ _ rfl fun _ => avgI32_words _ _,
      s.alu_gives _ _ _ _ rfl fun _ => avgN32_words _ _,
      s.alu_gives _ _ _ _ rfl fun _ => adiffI32_words _ _,
      s.alu_gives _ _ _ _ rfl fun _ => adiffN32_words _ _,
      s.alu_gives _ _ _ _ rfl fun _ => addsatI32_words _ _,
      s.alu_gives _ _ _ _ rfl fun _ => subsatI32_words _ _,
      s.alu_gives _ _ _ _ rfl fun _ => addsatN32_words _ _,
      s.alu_gives _ _ _ _ rfl fun _ => subsatN32_words _ _,
      s.alu_gives _ _ _ _ rfl fun _ => negsatI32_word _,
      s.alu_gives _ _ _ _ rfl fun _ => abssatI32_word _⟩
  · exact ⟨s.alu_gives _ _ _ _ rfl fun _ => addI64_eq _ _,
      s.alu_gives _ _ _ _ rfl fun _ => subI64_eq _ _,
      s.alu_gives _ _ _ _ rfl fun _ => negI64_eq _,
      s.alu_gives _ _ _ _ rfl fun _ => absI64_eq _,
      s.alu_gives _ _ _ _ rfl fun _ => addwI64_word _ _,
      s.alu_gives _ _ _ _ rfl fun _ => addwN64_word _ _,
      s.alu_gives _ _ _ _ rfl fun _ => mulwI32_words _ _,
      s.alu_gives _ _ _ _ rfl fun _ => mulwN32_words _ _,
      s.alu_gives _ _ _ _ rfl fun _ => mulI64_eq _ _⟩

/-- Settles O2: the frame of R128 over products, quotients and remainders as bit vectors (`ofInt_quot_toInt`,
`ofInt_rema_toInt`), over counts of bits, and over fields read bit by bit (`bitField_zero`, `bitField_sign`). -/
theorem productsCountsAndFields : Obligations.ProductsCountsAndFields := by
  unfold Obligations.ProductsCountsAndFields
  refine ⟨fun s d a b t => ?_, fun s d a b t => ?_⟩
  · exact ⟨s.alu_gives _ _ _ _ rfl fun _ => mulI32_words _ _,
      s.alu_gives _ _ _ _ rfl fun _ => mulhiI32_words _ _,
      s.alu_gives _ _ _ _ rfl fun _ => mulhiN32_words _ _,
      s.alu_gives _ _ _ _ rfl fun _ => madI32_words _ _ _,
      s.alu_gives _ _ _ _ rfl fun _ => divI32_words _ _,
      s.alu_gives _ _ _ _ rfl fun _ => divN32_words _ _,
      s.alu_gives _ _ _ _ rfl fun _ => remI32_words _ _,
      s.alu_gives _ _ _ _ rfl fun _ => remN32_words _ _,
      s.alu_gives _ _ _ _ rfl fun _ => divI64_eq _ _,
      s.alu_gives _ _ _ _ rfl fun _ => divN64_eq _ _,
      s.alu_gives _ _ _ _ rfl fun _ => remI64_eq_sub _ _,
      s.alu_gives _ _ _ _ rfl fun _ => remN64_eq _ _⟩
  · exact ⟨s.alu_gives _ _ _ _ rfl fun _ => popcN32_word _,
      s.alu_gives _ _ _ _ rfl fun _ => clzN32_word _,
      s.alu_gives _ _ _ _ rfl fun _ => ctzN32_word _,
      s.alu_gives _ _ _ _ rfl fun _ => popcN64_word _,
      s.alu_gives _ _ _ _ rfl fun _ => clzN64_word _,
      s.alu_gives _ _ _ _ rfl fun _ => brevN32_word _,
      s.alu_gives _ _ _ _ rfl fun _ => bswapN32_word _,
      s.alu_gives _ _ _ _ rfl fun _ => bfeN32_words _ _,
      s.alu_gives _ _ _ _ rfl fun _ => bfeI32_words _ _,
      s.alu_gives _ _ _ _ rfl fun _ => bfiN32_words _ _ _⟩

/-- Settles O3: the frame of R128 over extremes, bitwise operations, shifts and rotates. -/
theorem extremesLogicAndShifts : Obligations.ExtremesLogicAndShifts := by
  unfold Obligations.ExtremesLogicAndShifts
  refine ⟨fun s d a b t => ?_, fun s d a b t => ?_⟩
  · exact ⟨s.alu_gives _ _ _ _ rfl fun _ => minI32_words _ _,
      s.alu_gives _ _ _ _ rfl fun _ => maxI32_words _ _,
      s.alu_gives _ _ _ _ rfl fun _ => minN32_words _ _,
      s.alu_gives _ _ _ _ rfl fun _ => maxN32_words _ _,
      s.alu_gives _ _ _ _ rfl fun _ => minI64_eq _ _,
      s.alu_gives _ _ _ _ rfl fun _ => maxI64_eq _ _,
      s.alu_gives _ _ _ _ rfl fun _ => minN64_eq _ _,
      s.alu_gives _ _ _ _ rfl fun _ => maxN64_eq _ _,
      s.alu_gives _ _ _ _ rfl fun _ => and64_words _ _,
      s.alu_gives _ _ _ _ rfl fun _ => or64_words _ _,
      s.alu_gives _ _ _ _ rfl fun _ => xor64_words _ _,
      s.alu_gives _ _ _ _ rfl fun _ => andn64_words _ _,
      s.alu_gives _ _ _ _ rfl fun _ => orn32_words _ _,
      s.alu_gives _ _ _ _ rfl fun _ => xnor32_words _ _,
      s.alu_gives _ _ _ _ rfl fun _ => not32_word _⟩
  · exact ⟨s.alu_gives _ _ _ _ rfl fun _ => shlN32_words _ _,
      s.alu_gives _ _ _ _ rfl fun _ => shrN32_words _ _,
      s.alu_gives _ _ _ _ rfl fun _ => shrI32_words _ _,
      s.alu_gives _ _ _ _ rfl fun _ => rolN32_words _ _,
      s.alu_gives _ _ _ _ rfl fun _ => rorN32_words _ _,
      s.alu_gives _ _ _ _ rfl fun _ => shlN64_word _ _,
      s.alu_gives _ _ _ _ rfl fun _ => shrN64_word _ _,
      s.alu_gives _ _ _ _ rfl fun _ => shrI64_word _ _⟩

/-- Settles O4: the frame of R128 over packed elements (`packed16_words`, `packed8_words`), and over the operations of
Table 7.1 with the immediate as the second word. -/
theorem packedElementsAndImmediates : Obligations.PackedElementsAndImmediates := by
  unfold Obligations.PackedElementsAndImmediates
  refine ⟨fun s d a b t => ?_, fun s d m => ?_⟩
  · exact ⟨s.alu_gives _ _ _ _ rfl fun _ => addI16_words _ _,
      s.alu_gives _ _ _ _ rfl fun _ => subI16_words _ _,
      s.alu_gives _ _ _ _ rfl fun _ => addI8_words _ _,
      s.alu_gives _ _ _ _ rfl fun _ => subI8_words _ _,
      s.alu_gives _ _ _ _ rfl fun _ => addsatI16_words _ _,
      s.alu_gives _ _ _ _ rfl fun _ => subsatI16_words _ _,
      s.alu_gives _ _ _ _ rfl fun _ => addsatN8_words _ _,
      s.alu_gives _ _ _ _ rfl fun _ => dotI8_words _ _ _⟩
  · exact ⟨s.alu_gives _ _ _ _ rfl fun _ => addI32_words _ _,
      s.alu_gives _ _ _ _ rfl fun _ => addI64_eq _ _,
      s.alu_gives _ _ _ _ rfl fun _ => addsatI32_imm _ _,
      s.alu_gives _ _ _ _ rfl fun _ => addsatN32_imm _ _,
      s.alu_gives _ _ _ _ rfl fun _ => and64_imm _ _,
      s.alu_gives _ _ _ _ rfl fun _ => or64_imm _ _,
      s.alu_gives _ _ _ _ rfl fun _ => xor64_imm _ _,
      s.alu_gives _ _ _ _ rfl fun _ => shlN32_imm _ _,
      s.alu_gives _ _ _ _ rfl fun _ => shrN32_imm _ _,
      s.alu_gives _ _ _ _ rfl fun _ => shrI32_imm _ _,
      s.alu_gives _ _ _ _ rfl fun _ => rorN32_imm _ _,
      s.alu_gives _ _ _ _ rfl fun _ => setEqI32_words _ _,
      s.alu_gives _ _ _ _ rfl fun _ => setNeI32_words _ _,
      s.alu_gives _ _ _ _ rfl fun _ => setLtI32_words _ _,
      s.alu_gives _ _ _ _ rfl fun _ => setLtN32_imm _ _,
      s.alu_gives _ _ _ _ rfl fun _ => movlN32_imm _ _,
      s.alu_gives _ _ _ _ rfl fun _ => movhN32_imm _ _,
      s.alu_gives _ _ _ _ rfl fun _ => rfl,
      s.alu_gives _ _ _ _ rfl fun _ => immN_eq _,
      s.alu_gives _ _ _ _ rfl fun _ => mulI32_words _ _,
      s.alu_gives _ _ _ _ rfl fun _ => mulI64_eq _ _,
      s.alu_gives _ _ _ _ rfl fun _ => minI32_words _ _,
      s.alu_gives _ _ _ _ rfl fun _ => maxI32_words _ _,
      s.alu_gives _ _ _ _ rfl fun _ => minN32_imm _ _,
      s.alu_gives _ _ _ _ rfl fun _ => maxN32_imm _ _⟩

/-- Settles O5: the frame of R128 over the conditions, the select and the operations on truth values; a form that
copies or compares pairs gives its value as written. -/
theorem comparesSelectsAndPredicates : Obligations.ComparesSelectsAndPredicates := by
  unfold Obligations.ComparesSelectsAndPredicates
  refine ⟨fun s d a b t p cc sh => ?_, fun s p q r d a t => ?_⟩
  · exact ⟨s.alu_gives _ _ _ _ rfl fun _ => cmpI32_words _ _ cc,
      s.alu_gives _ _ _ _ rfl fun _ => rfl,
      s.alu_gives _ _ _ _ rfl fun _ => rfl,
      s.alu_gives _ _ _ _ rfl fun _ => rfl,
      s.alu_gives _ _ _ _ rfl fun _ => select_words _ _ _,
      s.alu_gives _ _ _ _ rfl fun _ => rfl,
      s.alu_gives _ _ _ _ rfl fun _ => rfl,
      s.alu_gives _ _ _ _ rfl fun _ => shaddN32_words _ _ sh,
      s.alu_gives _ _ _ _ rfl fun _ => shaddN64_word _ _ sh⟩
  · exact ⟨s.alu_gives _ _ _ _ rfl fun _ => pandOp_bools _ _,
      s.alu_gives _ _ _ _ rfl fun _ => porOp_bools _ _,
      s.alu_gives _ _ _ _ rfl fun _ => pxorOp_bools _ _,
      s.alu_gives _ _ _ _ rfl fun _ => pandnOp_bools _ _,
      s.alu_gives _ _ _ _ rfl fun _ => pnotOp_bool _,
      s.alu_gives _ _ _ _ rfl fun th => th.predByte_word,
      s.alu_gives _ _ _ _ rfl fun _ => rfl⟩

end Sys2Proof
end

section
/-! SUPPORT. The floating-point operations of chapter 07 on operand values: an operation of one element is the operation
of the format on the operands' bit patterns (R139, R142), and a packed one acts on each element (R141). -/

namespace Sys2Proof.Machine

open Sys2Proof

/-! ## One element (R139, R142) -/

theorem bitsOf_zero {w : Nat} (h : 0 < w) (v : Nat) : bitsOf v (w - 1) 0 = v % 2 ^ w := by
  rw [bitsOf, pow_zero, Nat.div_one, Nat.sub_zero, Nat.sub_add_cancel h]

/-- An operation of one element of w bits takes the low w bits of each operand. -/
theorem packF_one {w : Nat} (h : 0 < w) (f : Nat → Nat → Nat → Nat) (a b c : Dword) :
    packF w 1 f a b c = BitVec.ofNat 64 (f (a.toNat % 2 ^ w) (b.toNat % 2 ^ w) (c.toNat % 2 ^ w)) := by
  simp [packF, bitsOf_zero h]

theorem fOp32_words (f : Rounding → Nat → Nat → Nat → Nat) (rnd : BitVec 3) (x y z : Word) :
    fOp 32 1 f rnd (x.setWidth 64) (y.setWidth 64) (z.setWidth 64) =
      BitVec.ofNat 64 (f (roundingOf .rne rnd) x.toNat y.toNat z.toNat) := by
  have hword (v : Word) : (v.setWidth 64).toNat % 2 ^ 32 = v.toNat := by
    rw [BitVec.toNat_setWidth_of_le (by decide), Nat.mod_eq_of_lt v.isLt]
  simp only [fOp, packF_one (show 0 < 32 by decide), hword]

theorem fOp64_eq (f : Rounding → Nat → Nat → Nat → Nat) (rnd : BitVec 3) (a b c : Dword) :
    fOp 64 1 f rnd a b c = BitVec.ofNat 64 (f (roundingOf .rne rnd) a.toNat b.toNat c.toNat) := by
  simp only [fOp, packF_one (show 0 < 64 by decide), Nat.mod_eq_of_lt (BitVec.isLt _)]

theorem bitsOp_word (f : Nat → Nat) (x : Word) : bitsOp f (x.setWidth 64) = BitVec.ofNat 64 (f x.toNat) := by
  rw [bitsOp, BitVec.toNat_setWidth_of_le (by decide)]

end Sys2Proof.Machine

namespace Sys2Proof

open Machine

/-- Settles O6: each form is the frame of R128 over the operation of its format, whose operands are the bit patterns
that the registers hold. -/
theorem floatArithmetic : Obligations.FloatArithmetic := by
  unfold Obligations.FloatArithmetic
  intro s d a b t
  exact ⟨s.alu_gives _ _ _ _ rfl fun _ => fOp32_words _ _ _ _ 0#32,
    s.alu_gives _ _ _ _ rfl fun _ => fOp32_words _ _ _ _ 0#32,
    s.alu_gives _ _ _ _ rfl fun _ => fOp32_words _ _ _ _ 0#32,
    s.alu_gives _ _ _ _ rfl fun _ => fOp32_words _ _ _ _ 0#32,
    s.alu_gives _ _ _ _ rfl fun _ => fOp32_words _ _ _ _ _,
    s.alu_gives _ _ _ _ rfl fun _ => fOp32_words _ _ _ _ _,
    s.alu_gives _ _ _ _ rfl fun _ => fOp32_words _ _ _ _ _,
    s.alu_gives _ _ _ _ rfl fun _ => fOp32_words _ _ _ _ 0#32,
    s.alu_gives _ _ _ _ rfl fun _ => fOp32_words _ _ _ _ 0#32,
    s.alu_gives _ _ _ _ rfl fun _ => fOp64_eq _ _ _ _ _,
    s.alu_gives _ _ _ _ rfl fun _ => fOp64_eq _ _ _ _ _,
    s.alu_gives _ _ _ _ rfl fun _ => fOp64_eq _ _ _ _ _,
    s.alu_gives _ _ _ _ rfl fun _ => fOp64_eq _ _ _ _ _,
    s.alu_gives _ _ _ _ rfl fun _ => fOp64_eq _ _ _ _ _,
    s.alu_gives _ _ _ _ rfl fun _ => fOp64_eq _ _ _ _ _,
    s.alu_gives _ _ _ _ rfl fun _ => fOp64_eq _ _ _ _ _,
    s.alu_gives _ _ _ _ rfl fun _ => fOp64_eq _ _ _ _ _,
    s.alu_gives _ _ _ _ rfl fun _ => fOp64_eq _ _ _ _ _,
    s.alu_gives _ _ _ _ rfl fun _ => fOp32_words _ _ _ 0#32 0#32,
    s.alu_gives _ _ _ _ rfl fun _ => fOp64_eq _ _ _ _ _,
    s.alu_gives _ _ _ _ rfl fun _ => bitsOp_word _ _,
    s.alu_gives _ _ _ _ rfl fun _ => bitsOp_word _ _,
    s.alu_gives _ _ _ _ rfl fun _ => bitsOp_word _ _,
    s.alu_gives _ _ _ _ rfl fun _ => bitsOp_word _ _,
    s.alu_gives _ _ _ _ rfl fun _ => bitsOp_word _ _,
    s.alu_gives _ _ _ _ rfl fun _ => bitsOp_word _ _⟩

end Sys2Proof
end

section
/-! SUPPORT. The results of a format fit its bits (R86, R139), so that packed elements do not reach into one another
(R81, R141). -/

namespace Sys2Proof.Machine

open Sys2Proof

/-! ## Results fit their format -/

theorem ite_lt_of_lt {c : Prop} [Decidable c] {a b n : Nat} (ha : a < n) (hb : b < n) : (if c then a else b) < n :=
  (ite_le_sup a b c).trans_lt (max_lt ha hb)

namespace FloatFmt

variable (f : FloatFmt) (md : Rounding)

theorem infMag_lt : f.infMag < 2 ^ f.magBits := by
  rw [infMag, magBits, pow_add]
  exact Nat.mul_lt_mul_of_pos_right (Nat.sub_lt (by positivity) one_pos) (by positivity)

theorem maxMag_lt : f.maxMag < 2 ^ f.magBits :=
  ite_lt_of_lt ((Nat.sub_le ..).trans_lt f.infMag_lt) (Nat.sub_lt (by positivity) two_pos)

variable {f}

theorem signed_lt {mag : Nat} (neg : Bool) (h : mag < 2 ^ f.magBits) : f.signed neg mag < 2 ^ (f.magBits + 1) := by
  rw [signed, pow_succ]
  split <;> omega

theorem overflow_lt (neg : Bool) : f.overflow md neg < 2 ^ (f.magBits + 1) :=
  signed_lt neg (ite_lt_of_lt f.maxMag_lt f.infMag_lt)

theorem round_lt (neg : Bool) (m : Nat) (e : Int) (sticky : Bool) :
    f.round md neg m e sticky < 2 ^ (f.magBits + 1) := by
  have hmag (mag : Nat) : (if f.maxMag < mag then f.overflow md neg else f.signed neg mag) < 2 ^ (f.magBits + 1) := by
    split
    · exact overflow_lt md neg
    · exact signed_lt neg ((Nat.le_of_not_lt ‹_›).trans_lt f.maxMag_lt)
  exact ite_lt_of_lt (signed_lt neg (by positivity)) (hmag _)

variable (hnan : f.nan < 2 ^ (f.magBits + 1))
include hnan

theorem ofVal_lt (x : FVal) : f.ofVal md x < 2 ^ (f.magBits + 1) := by
  cases x with
  | nan => exact hnan
  | inf neg => exact ite_lt_of_lt hnan (signed_lt neg f.infMag_lt)
  | num neg m e => exact round_lt md neg m e false

theorem ofArith_lt (x : FVal) : f.ofArith md x < 2 ^ (f.magBits + 1) := by
  cases x with
  | nan => exact hnan
  | inf neg => exact signed_lt neg f.infMag_lt
  | num neg m e => exact round_lt md neg m e false

/-- `fmax` gives an operand's own bits, or the canonical NaN (R140). -/
theorem max_lt {a b : Nat} (ha : a < 2 ^ (f.magBits + 1)) (hb : b < 2 ^ (f.magBits + 1)) :
    f.max a b < 2 ^ (f.magBits + 1) :=
  ite_lt_of_lt hnan (ite_lt_of_lt hb (ite_lt_of_lt ha (ite_lt_of_lt hb ha)))

end FloatFmt

/-! ## Packed elements (R81, R141) -/

/-- A run of bits, read from a value, is that of the bit vector. -/
theorem bitsOf_toNat {w : Nat} (v : BitVec w) (lo : Nat) {n : Nat} (h : 0 < n) :
    bitsOf v.toNat (lo + n - 1) lo = (v.extractLsb' lo n).toNat := by
  rw [BitVec.extractLsb'_toNat, Nat.shiftRight_eq_div_pow, bitsOf, show lo + n - 1 + 1 - lo = n by omega]

theorem toNat_append_eq {m n : Nat} (x : BitVec m) (y : BitVec n) : (x ++ y).toNat = y.toNat + x.toNat * 2 ^ n := by
  rw [BitVec.toNat_append, ← Nat.shiftLeft_add_eq_or_of_lt y.isLt, Nat.shiftLeft_eq, add_comm]

/-- Two 16-bit patterns side by side. -/
theorem ofNat_halves {p q : Nat} (hp : p < 2 ^ 16) (hq : q < 2 ^ 16) :
    BitVec.ofNat 64 (q + p * 65536) = (BitVec.ofNat 16 p ++ BitVec.ofNat 16 q : Word).setWidth 64 := by
  apply BitVec.eq_of_toNat_eq
  simp only [BitVec.toNat_setWidth_of_le (show 32 ≤ 64 by decide), toNat_append_eq, BitVec.toNat_ofNat,
    Nat.mod_eq_of_lt hp, Nat.mod_eq_of_lt hq]
  omega

/-- Four bytes side by side. -/
theorem ofNat_bytes {p q r t : Nat} (hp : p < 2 ^ 8) (hq : q < 2 ^ 8) (hr : r < 2 ^ 8) (ht : t < 2 ^ 8) :
    BitVec.ofNat 64 (t + r * 256 + q * 65536 + p * 16777216) =
      (BitVec.ofNat 8 p ++ BitVec.ofNat 8 q ++ BitVec.ofNat 8 r ++ BitVec.ofNat 8 t : Word).setWidth 64 := by
  apply BitVec.eq_of_toNat_eq
  simp only [BitVec.toNat_setWidth_of_le (show 32 ≤ 64 by decide), toNat_append_eq, BitVec.toNat_ofNat,
    Nat.mod_eq_of_lt hp, Nat.mod_eq_of_lt hq, Nat.mod_eq_of_lt hr, Nat.mod_eq_of_lt ht]
  omega

/-- A packed operation gives each element's result in the element's place. -/
theorem packF_words {w : Nat} (h : 0 < w) (n : Nat) (f : Nat → Nat → Nat → Nat) (x y z : Word) :
    packF w n f (x.setWidth 64) (y.setWidth 64) (z.setWidth 64) =
      BitVec.ofNat 64 ((List.range n).map fun i => f (x.extractLsb' (w * i) w).toNat (y.extractLsb' (w * i) w).toNat
        (z.extractLsb' (w * i) w).toNat * 2 ^ (w * i)).sum := by
  simp only [packF, BitVec.toNat_setWidth_of_le (show 32 ≤ 64 by decide), bitsOf_toNat _ _ h]

section

variable (x y z : Word)

theorem fOp16_words3 (f : Rounding → Nat → Nat → Nat → Nat) (rnd : BitVec 3)
    (h : ∀ p q r : BitVec 16, f (roundingOf .rne rnd) p.toNat q.toNat r.toNat < 2 ^ 16) :
    fOp 16 2 f rnd (x.setWidth 64) (y.setWidth 64) (z.setWidth 64) =
      (halves3 (fun p q r => BitVec.ofNat 16 (f (roundingOf .rne rnd) p.toNat q.toNat r.toNat)) x y z).setWidth 64 := by
  rw [halves3, ← ofNat_halves (h ..) (h ..), fOp, packF_words (by decide)]
  simp [List.range_succ, halfOf]

theorem fOp16_words (f : Rounding → Nat → Nat → Nat) (rnd : BitVec 3)
    (h : ∀ p q : BitVec 16, f (roundingOf .rne rnd) p.toNat q.toNat < 2 ^ 16) :
    fOp 16 2 (fun md a b _ => f md a b) rnd (x.setWidth 64) (y.setWidth 64) 0#64 =
      (halves (fun p q => BitVec.ofNat 16 (f (roundingOf .rne rnd) p.toNat q.toNat)) x y).setWidth 64 :=
  fOp16_words3 x y 0#32 _ rnd fun p q _ => h p q

theorem sum_range_four (g : Nat → Nat) : ((List.range 4).map g).sum = g 0 + g 1 + g 2 + g 3 := by
  simp [List.range_succ, add_assoc]

theorem fOp8_words (f : Rounding → Nat → Nat → Nat) (rnd : BitVec 3)
    (h : ∀ p q : Byte, f (roundingOf .rne rnd) p.toNat q.toNat < 2 ^ 8) :
    fOp 8 4 (fun md a b _ => f md a b) rnd (x.setWidth 64) (y.setWidth 64) (z.setWidth 64) =
      (bytes4 (fun p q => BitVec.ofNat 8 (f (roundingOf .rne rnd) p.toNat q.toNat)) x y).setWidth 64 := by
  rw [fOp, packF_words (by decide), sum_range_four, bytes4, ← ofNat_bytes (h ..) (h ..) (h ..) (h ..)]
  simp only [byteOf, Nat.mul_zero, Nat.mul_one, Nat.reduceMul, Nat.reducePow, pow_zero]

/-- The terms of the FP8 dot product are c and the products of the bytes. -/
theorem dotTerms_words (f : FloatFmt) : dotTerms f x.toNat y.toNat z.toNat = f32Fmt.value z.toNat ::
    [0, 1, 2, 3].map fun e => (f.value (byteOf x e).toNat).mul (f.value (byteOf y e).toNat) := by
  have hbyte (v : Word) (e : Nat) : bitsOf v.toNat (8 * e + 7) (8 * e) = (byteOf v e).toNat :=
    bitsOf_toNat v (8 * e) (show 0 < 8 by decide)
  simp only [dotTerms, hbyte]
  rfl

theorem fdot_words (f : FloatFmt) (rnd : BitVec 3) :
    fOp 32 1 (fun md a b c => f32Fmt.sumRound md (dotTerms f a b c)) rnd (x.setWidth 64) (y.setWidth 64)
        (z.setWidth 64) =
      BitVec.ofNat 64 (f32Fmt.sumRound (roundingOf .rne rnd) (f32Fmt.value z.toNat ::
        [0, 1, 2, 3].map fun e => (f.value (byteOf x e).toNat).mul (f.value (byteOf y e).toNat))) := by
  rw [fOp32_words, dotTerms_words]

/-- The conversion of two bytes gives both as halves, from the low half of the register. -/
theorem bitsOp_widenPair_word (f : FloatFmt) : bitsOp (widenPair f) (x.setWidth 64) =
    (BitVec.ofNat 16 (f.convert f16Fmt .rne (byteOf x 1).toNat) ++
      BitVec.ofNat 16 (f.convert f16Fmt .rne (byteOf x 0).toNat) : Word).setWidth 64 := by
  have hfits (v : FVal) : f16Fmt.ofVal .rne v < 2 ^ 16 := FloatFmt.ofVal_lt _ (by decide) v
  rw [bitsOp_word, widenPair, bitsOf_toNat x 0 (show 0 < 8 by decide), bitsOf_toNat x 8 (show 0 < 8 by decide)]
  exact ofNat_halves (hfits _) (hfits _)

end

end Sys2Proof.Machine

namespace Sys2Proof

open Machine

/-- Settles O7: the frame of R128 over packed elements, whose results fit their places (`FloatFmt.ofArith_lt`), and over
the sum of the FP8 dot product. -/
theorem packedFloatArithmetic : Obligations.PackedFloatArithmetic := by
  unfold Obligations.PackedFloatArithmetic
  intro s d a b t
  exact ⟨s.alu_gives _ _ _ _ rfl fun _ => fOp16_words _ _ _ _ fun _ _ => FloatFmt.ofArith_lt _ (by decide) _,
    s.alu_gives _ _ _ _ rfl fun _ => fOp16_words _ _ _ _ fun _ _ => FloatFmt.ofArith_lt _ (by decide) _,
    s.alu_gives _ _ _ _ rfl fun _ => fOp16_words3 _ _ _ _ _ fun _ _ _ => FloatFmt.ofArith_lt _ (by decide) _,
    s.alu_gives _ _ _ _ rfl fun _ => fOp16_words _ _ _ _ fun p q => FloatFmt.max_lt (by decide) p.isLt q.isLt,
    s.alu_gives _ _ _ _ rfl fun _ => fOp16_words _ _ _ _ fun _ _ => FloatFmt.ofArith_lt _ (by decide) _,
    s.alu_gives _ _ _ _ rfl fun _ => fOp16_words _ _ _ _ fun _ _ => FloatFmt.ofArith_lt _ (by decide) _,
    s.alu_gives _ _ _ _ rfl fun _ => fOp16_words3 _ _ _ _ _ fun _ _ _ => FloatFmt.ofArith_lt _ (by decide) _,
    s.alu_gives _ _ _ _ rfl fun _ => fOp16_words _ _ _ _ fun p q => FloatFmt.max_lt (by decide) p.isLt q.isLt,
    s.alu_gives _ _ _ _ rfl fun _ => fOp8_words _ _ 0#32 _ _ fun _ _ => FloatFmt.ofArith_lt _ (by decide) _,
    s.alu_gives _ _ _ _ rfl fun _ => fOp8_words _ _ 0#32 _ _ fun _ _ => FloatFmt.ofArith_lt _ (by decide) _,
    s.alu_gives _ _ _ _ rfl fun _ => fdot_words _ _ _ _ _,
    s.alu_gives _ _ _ _ rfl fun _ => bitsOp_widenPair_word _ _,
    s.alu_gives _ _ _ _ rfl fun _ => fOp8_words _ _ 0#32 _ _ fun _ _ => FloatFmt.ofArith_lt _ (by decide) _,
    s.alu_gives _ _ _ _ rfl fun _ => fOp8_words _ _ 0#32 _ _ fun _ _ => FloatFmt.ofArith_lt _ (by decide) _,
    s.alu_gives _ _ _ _ rfl fun _ => fdot_words _ _ _ _ _,
    s.alu_gives _ _ _ _ rfl fun _ => bitsOp_widenPair_word _ _⟩

end Sys2Proof
end

section
/-! SUPPORT. Signs, classes and compares of floating-point values (R140, R143), and the floating-point immediates
(R138). -/

namespace Sys2Proof.Machine

open Sys2Proof

/-! ## The sign bit (R143) -/

theorem bitsOp_of_toNat {f : Nat → Nat} {a b : Dword} (h : f a.toNat = b.toNat) : bitsOp f a = b := by
  rw [bitsOp, h, BitVec.ofNat_toNat, BitVec.setWidth_eq]

theorem bitsOp_word_of_toNat {f : Nat → Nat} {x y : Word} (h : f x.toNat = y.toNat) :
    bitsOp f (x.setWidth 64) = y.setWidth 64 := by
  rw [bitsOp_word, h, BitVec.ofNat_toNat]

/-- Adding the sign bit inverts it. -/
theorem add_two_pow_mod_eq_xor {n a : Nat} (h : a < 2 ^ (n + 1)) : (a + 2 ^ n) % 2 ^ (n + 1) = a ^^^ 2 ^ n := by
  apply Nat.eq_of_testBit_eq
  intro i
  rw [Nat.testBit_mod_two_pow, Nat.testBit_xor, Nat.testBit_two_pow, add_comm a]
  rcases Nat.lt_trichotomy i n with hlt | rfl | hgt
  · rw [Nat.testBit_two_pow_add_gt hlt, decide_eq_true (by omega), decide_eq_false (by omega), Bool.true_and, Bool.xor_false]
  · rw [Nat.testBit_two_pow_add_eq, decide_eq_true (by omega), decide_eq_true rfl, Bool.true_and, Bool.xor_true]
  · have hi : a < 2 ^ i := h.trans_le (Nat.pow_le_pow_right two_pos hgt)
    rw [decide_eq_false (by omega), decide_eq_false (by omega), Nat.testBit_lt_two_pow hi]
    rfl

/-- The bits below the sign of one pattern and the sign of another. -/
theorem mod_add_sign_eq_or (n a b : Nat) : a % 2 ^ n + b / 2 ^ n % 2 * 2 ^ n = (a &&& (2 ^ n - 1)) ||| (b &&& 2 ^ n) := by
  rw [Nat.and_two_pow_sub_one_eq_mod, Nat.and_two_pow, Nat.toNat_testBit, Nat.or_comm, add_comm, mul_comm,
    Nat.two_pow_add_eq_or_of_lt (Nat.mod_lt _ (by positivity))]

theorem fabsOp_eq_and (n a : Nat) : fabsOp (n + 1) a = a &&& (2 ^ n - 1) := (Nat.and_two_pow_sub_one_eq_mod a n).symm

variable (x y : Word) (a b : Dword)

theorem fabsOp_word : bitsOp (fabsOp 32) (x.setWidth 64) = (x &&& 0x7FFFFFFF#32).setWidth 64 :=
  bitsOp_word_of_toNat (fabsOp_eq_and 31 x.toNat)

theorem fabsOp_dword : bitsOp (fabsOp 64) a = a &&& 0x7FFFFFFFFFFFFFFF#64 :=
  bitsOp_of_toNat (fabsOp_eq_and 63 a.toNat)

theorem fnegOp_word : bitsOp (fnegOp 32) (x.setWidth 64) = (x ^^^ 0x80000000#32).setWidth 64 :=
  bitsOp_word_of_toNat (add_two_pow_mod_eq_xor x.isLt)

theorem fnegOp_dword : bitsOp (fnegOp 64) a = a ^^^ 0x8000000000000000#64 :=
  bitsOp_of_toNat (add_two_pow_mod_eq_xor a.isLt)

theorem fcopysignOp_words : fcopysignOp 32 (x.setWidth 64) (y.setWidth 64) =
    ((x &&& 0x7FFFFFFF#32) ||| (y &&& 0x80000000#32)).setWidth 64 := by
  rw [fcopysignOp, mod_add_sign_eq_or, BitVec.toNat_setWidth_of_le (by decide), BitVec.toNat_setWidth_of_le (by decide)]
  exact BitVec.ofNat_toNat 64 ((x &&& 0x7FFFFFFF#32) ||| (y &&& 0x80000000#32))

theorem fcopysignOp_dwords : fcopysignOp 64 a b = (a &&& 0x7FFFFFFFFFFFFFFF#64) ||| (b &&& 0x8000000000000000#64) := by
  rw [fcopysignOp, mod_add_sign_eq_or]
  exact BitVec.ofNat_toNat 64 ((a &&& 0x7FFFFFFFFFFFFFFF#64) ||| (b &&& 0x8000000000000000#64))

/-! ## Classes and compares -/

/-- The class of a value is that of its fields: an exponent field of zero is that of a magnitude below the least normal
one. -/
theorem classOf_eq_classBit {f : FloatFmt} (h : f.ieee = true) (v : Nat) : f.classOf v = classBit f.ebits f.fbits v := by
  have hex : v % 2 ^ f.magBits / 2 ^ f.fbits = v / 2 ^ f.fbits % 2 ^ f.ebits := by
    rw [FloatFmt.magBits, add_comm, pow_add, Nat.mod_mul_right_div_self]
  have hfr : v % 2 ^ f.magBits % 2 ^ f.fbits = v % 2 ^ f.fbits :=
    Nat.mod_mod_of_dvd _ (pow_dvd_pow 2 (Nat.le_add_left ..))
  have hsub : v % 2 ^ f.magBits < 2 ^ f.fbits ↔ v / 2 ^ f.fbits % 2 ^ f.ebits = 0 := by
    rw [← hex, Nat.div_eq_zero_iff_lt (by positivity)]
  unfold FloatFmt.classOf FloatFmt.value classBit
  simp only [h, hex, hfr, hsub]
  rw [FloatFmt.magBits]
  generalize v / 2 ^ (f.ebits + f.fbits) % 2 = sign
  generalize v / 2 ^ f.fbits % 2 ^ f.ebits = ex
  generalize v % 2 ^ f.fbits = fr
  by_cases hinf : ex = 2 ^ f.ebits - 1
  · by_cases hz : fr = 0 <;> simp [hinf, hz]
  · by_cases hz : ex = 0
    · subst hz
      by_cases hz : fr = 0 <;> simp [hinf, hz]
    · simp [hinf, hz]

theorem classOf_word {f : FloatFmt} (h : f.ieee = true) :
    bitsOp f.classOf (x.setWidth 64) = BitVec.ofNat 64 (classBit f.ebits f.fbits x.toNat) := by
  rw [bitsOp_word, classOf_eq_classBit h]

theorem classOf_dword {f : FloatFmt} (h : f.ieee = true) :
    bitsOp f.classOf a = BitVec.ofNat 64 (classBit f.ebits f.fbits a.toNat) := by
  rw [bitsOp, classOf_eq_classBit h]

theorem cmp_eq_compared (f : FloatFmt) (cc : BitVec 3) (m n : Nat) : f.cmp cc m n = compared cc (f.value m) (f.value n) := by
  unfold FloatFmt.cmp compared
  dsimp only
  generalize (f.value m).isNan = p
  generalize (f.value n).isNan = q
  generalize (f.value m).order (f.value n) = o
  rcases Laws.three_cases cc with rfl | rfl | rfl | rfl | rfl | rfl | rfl | rfl <;>
    cases p <;> cases q <;> cases o <;> rfl

theorem fcmpOp_words (f : FloatFmt) (cc : BitVec 3) :
    fcmpOp f cc (x.setWidth 64) (y.setWidth 64) = boolWord (compared cc (f.value x.toNat) (f.value y.toNat)) := by
  rw [fcmpOp, cmp_eq_compared, BitVec.toNat_setWidth_of_le (by decide), BitVec.toNat_setWidth_of_le (by decide)]

theorem fcmpOp_dwords (f : FloatFmt) (cc : BitVec 3) :
    fcmpOp f cc a b = boolWord (compared cc (f.value a.toNat) (f.value b.toNat)) := by
  rw [fcmpOp, cmp_eq_compared]

/-! ## Immediates (R138) -/

theorem toNat_ofVal_f32 (md : Rounding) (v : FVal) : (BitVec.ofNat 32 (f32Fmt.ofVal md v)).toNat = f32Fmt.ofVal md v :=
  Nat.mod_eq_of_lt (FloatFmt.ofVal_lt md (by decide) v)

theorem toNat_ofVal_f64 (md : Rounding) (v : FVal) : (BitVec.ofNat 64 (f64Fmt.ofVal md v)).toNat = f64Fmt.ofVal md v :=
  Nat.mod_eq_of_lt (FloatFmt.ofVal_lt md (by decide) v)

variable (f : Rounding → Nat → Nat → Nat → Nat) (rnd : BitVec 3) (m : BitVec 16)

theorem fOp32_imm : fOp 32 1 f rnd (x.setWidth 64) (immF32 m) 0#64 =
    BitVec.ofNat 64 (f (roundingOf .rne rnd) x.toNat (f32Fmt.ofVal .rne (bf16Fmt.value m.toNat)) 0) := by
  have himm : immF32 m = (BitVec.ofNat 32 (f32Fmt.ofVal .rne (immBf16 m))).setWidth 64 := by
    rw [← BitVec.ofNat_toNat, toNat_ofVal_f32, immF32]
  rw [himm]
  refine (fOp32_words f rnd x _ 0#32).trans ?_
  rw [toNat_ofVal_f32]
  rfl

theorem fOp64_imm : fOp 64 1 f rnd a (immF64 m) 0#64 =
    BitVec.ofNat 64 (f (roundingOf .rne rnd) a.toNat (f64Fmt.ofVal .rne (bf16Fmt.value m.toNat)) 0) := by
  rw [fOp64_eq, immF64, toNat_ofVal_f64]
  rfl

end Sys2Proof.Machine

namespace Sys2Proof

open Machine

/-- Settles O8: the frame of R128 over the sign bit, the classes and the conditions of a compare, and over the operations
of O6 and O7 with the immediate as the second operand. -/
theorem floatComparesAndImmediates : Obligations.FloatComparesAndImmediates := by
  unfold Obligations.FloatComparesAndImmediates
  refine ⟨fun s d a b t p cc => ?_, fun s d m => ?_⟩
  · exact ⟨s.alu_gives _ _ _ _ rfl fun _ => fabsOp_word _,
      s.alu_gives _ _ _ _ rfl fun _ => fnegOp_word _,
      s.alu_gives _ _ _ _ rfl fun _ => fcopysignOp_words _ _,
      s.alu_gives _ _ _ _ rfl fun _ => classOf_word _ rfl,
      s.alu_gives _ _ _ _ rfl fun _ => fabsOp_dword _,
      s.alu_gives _ _ _ _ rfl fun _ => fnegOp_dword _,
      s.alu_gives _ _ _ _ rfl fun _ => fcopysignOp_dwords _ _,
      s.alu_gives _ _ _ _ rfl fun _ => classOf_dword _ rfl,
      s.alu_gives _ _ _ _ rfl fun _ => fcmpOp_words _ _ _ cc,
      s.alu_gives _ _ _ _ rfl fun _ => fcmpOp_dwords _ _ _ cc⟩
  · exact ⟨s.alu_gives _ _ _ _ rfl fun _ => fOp32_imm _ _ _ _,
      s.alu_gives _ _ _ _ rfl fun _ => fOp32_imm _ _ _ _,
      s.alu_gives _ _ _ _ rfl fun _ => fOp32_imm _ _ _ _,
      s.alu_gives _ _ _ _ rfl fun _ => fOp32_imm _ _ _ _,
      s.alu_gives _ _ _ _ rfl fun _ => fOp64_imm _ _ _ _,
      s.alu_gives _ _ _ _ rfl fun _ => fOp64_imm _ _ _ _,
      s.alu_gives _ _ _ _ rfl fun _ => fOp64_imm _ _ _ _,
      s.alu_gives _ _ _ _ rfl fun _ => fOp64_imm _ _ _ _,
      s.alu_gives _ _ _ _ rfl fun _ => fOp16_words _ (m ++ m) _ _ fun _ _ => FloatFmt.ofArith_lt _ (by decide) _,
      s.alu_gives _ _ _ _ rfl fun _ => fOp16_words _ (_ ++ _) _ _ fun _ _ => FloatFmt.ofArith_lt _ (by decide) _,
      s.alu_gives _ _ _ _ rfl fun _ => fOp8_words _ (m ++ m) 0#32 _ _ fun _ _ => FloatFmt.ofArith_lt _ (by decide) _,
      s.alu_gives _ _ _ _ rfl fun _ => fOp8_words _ (m ++ m) 0#32 _ _ fun _ _ => FloatFmt.ofArith_lt _ (by decide) _⟩

end Sys2Proof
end

section
/-! SUPPORT. Conversions between formats (R145) on operand values: each rounds once, from the value of its source. -/

namespace Sys2Proof.Machine

open Sys2Proof

theorem ofNat_low_half {q : Nat} (hq : q < 2 ^ 16) :
    BitVec.ofNat 64 q = (0#16 ++ BitVec.ofNat 16 q : Word).setWidth 64 := by
  simpa using ofNat_halves (show 0 < 2 ^ 16 by decide) hq

/-- Two bytes side by side, below a half of zeros. -/
theorem ofNat_low_bytes {p q : Nat} (hp : p < 2 ^ 8) (hq : q < 2 ^ 8) :
    BitVec.ofNat 64 (q + p * 2 ^ 8) = (0#16 ++ BitVec.ofNat 8 p ++ BitVec.ofNat 8 q : Word).setWidth 64 := by
  apply BitVec.eq_of_toNat_eq
  simp only [BitVec.toNat_setWidth_of_le (show 32 ≤ 64 by decide), toNat_append_eq, BitVec.toNat_ofNat,
    Nat.mod_eq_of_lt hp, Nat.mod_eq_of_lt hq]
  omega

variable (f g : FloatFmt) (rnd : BitVec 3) (x y : Word) (a b c : Dword)

/-! ## From and to integers -/

theorem ofIntOp_i32 : ofIntOp f (fun a => (lo32 a).toInt) rnd (x.setWidth 64) b c =
    BitVec.ofNat 64 (f.ofInt (roundingOf .rne rnd) x.toInt) := by
  rw [ofIntOp, lo32_setWidth]

theorem ofIntOp_n32 : ofIntOp f (fun a => ((lo32 a).toNat : Int)) rnd (x.setWidth 64) b c =
    BitVec.ofNat 64 (f.ofInt (roundingOf .rne rnd) x.toNat) := by
  rw [ofIntOp, lo32_setWidth]

variable (lo hi : Int)

theorem toIntOp_i32_word : toIntOp f 32 lo hi rnd (x.setWidth 64) b c =
    (BitVec.ofInt 32 ((f.value x.toNat).toIntClamped (roundingOf .rtz rnd) lo hi)).setWidth 64 := by
  rw [toIntOp, intBits, BitVec.ofNat_toNat, BitVec.toNat_setWidth_of_le (by decide)]

theorem toIntOp_i32_dword : toIntOp f 32 lo hi rnd a b c =
    (BitVec.ofInt 32 ((f.value a.toNat).toIntClamped (roundingOf .rtz rnd) lo hi)).setWidth 64 := by
  rw [toIntOp, intBits, BitVec.ofNat_toNat]

theorem toIntOp_i64 : toIntOp f 64 lo hi rnd a b c =
    BitVec.ofInt 64 ((f.value a.toNat).toIntClamped (roundingOf .rtz rnd) lo hi) := by
  rw [toIntOp, intBits, BitVec.ofNat_toNat, BitVec.setWidth_eq]

/-! ## Between floating-point formats -/

theorem cvtOp_word : cvtOp f g 32 rnd (x.setWidth 64) b c =
    BitVec.ofNat 64 (g.ofVal (roundingOf .rne rnd) (f.value x.toNat)) := by
  rw [cvtOp, BitVec.toNat_setWidth_of_le (by decide), Nat.mod_eq_of_lt x.isLt, FloatFmt.convert]

theorem cvtOp_dword : cvtOp f g 64 rnd a b c = BitVec.ofNat 64 (g.ofVal (roundingOf .rne rnd) (f.value a.toNat)) := by
  rw [cvtOp, Nat.mod_eq_of_lt a.isLt, FloatFmt.convert]

/-- A 16-bit source is the low half of its register. -/
theorem cvtOp_of_half : cvtOp f g 16 rnd (x.setWidth 64) b c =
    BitVec.ofNat 64 (g.ofVal (roundingOf .rne rnd) (f.value (halfOf x 0).toNat)) := by
  have hlow : (halfOf x 0).toNat = x.toNat % 2 ^ 16 := BitVec.extractLsb'_toNat ..
  rw [cvtOp, BitVec.toNat_setWidth_of_le (by decide), FloatFmt.convert, hlow]

variable {g}

/-- A 16-bit result clears the upper half. -/
theorem cvtOp_to_half (h : ∀ md v, g.ofVal md v < 2 ^ 16) : cvtOp f g 32 rnd (x.setWidth 64) b c =
    (0#16 ++ BitVec.ofNat 16 (g.ofVal (roundingOf .rne rnd) (f.value x.toNat)) : Word).setWidth 64 := by
  rw [cvtOp_word, ofNat_low_half (h ..)]

theorem packFp8_words (h : ∀ md v, g.ofVal md v < 2 ^ 8) : packFp8 g rnd (x.setWidth 64) (y.setWidth 64) c =
    (0#16 ++ BitVec.ofNat 8 (g.ofVal (roundingOf .rne rnd) (f32Fmt.value y.toNat)) ++
      BitVec.ofNat 8 (g.ofVal (roundingOf .rne rnd) (f32Fmt.value x.toNat)) : Word).setWidth 64 := by
  rw [packFp8, BitVec.toNat_setWidth_of_le (by decide), BitVec.toNat_setWidth_of_le (by decide)]
  exact ofNat_low_bytes (h ..) (h ..)

end Sys2Proof.Machine

namespace Sys2Proof

open Machine

/-- Settles O9: the frame of R128 over conversions, and that of R129 (`State.block_gives`) over blocks. -/
theorem conversionsAndBlocks : Obligations.ConversionsAndBlocks := by
  unfold Obligations.ConversionsAndBlocks
  refine ⟨fun s d a b t => ?_, fun s d a => ?_⟩
  · exact ⟨s.alu_gives _ _ _ _ rfl fun _ => ofIntOp_i32 _ _ _ _ _,
      s.alu_gives _ _ _ _ rfl fun _ => ofIntOp_n32 _ _ _ _ _,
      s.alu_gives _ _ _ _ rfl fun _ => toIntOp_i32_word _ _ _ _ _ _ _,
      s.alu_gives _ _ _ _ rfl fun _ => toIntOp_i32_word _ _ _ _ _ _ _,
      s.alu_gives _ _ _ _ rfl fun _ => rfl,
      s.alu_gives _ _ _ _ rfl fun _ => toIntOp_i64 _ _ _ _ _ _ _,
      s.alu_gives _ _ _ _ rfl fun _ => ofIntOp_i32 _ _ _ _ _,
      s.alu_gives _ _ _ _ rfl fun _ => toIntOp_i32_dword _ _ _ _ _ _ _,
      s.alu_gives _ _ _ _ rfl fun _ => cvtOp_word _ _ _ _ _ _,
      s.alu_gives _ _ _ _ rfl fun _ => cvtOp_dword _ _ _ _ _ _,
      s.alu_gives _ _ _ _ rfl fun _ => cvtOp_of_half _ _ _ _ _ _,
      s.alu_gives _ _ _ _ rfl fun _ => cvtOp_to_half _ _ _ _ _ fun md => FloatFmt.ofVal_lt md (by decide),
      s.alu_gives _ _ _ _ rfl fun _ => cvtOp_of_half _ _ _ _ _ _,
      s.alu_gives _ _ _ _ rfl fun _ => cvtOp_to_half _ _ _ _ _ fun md => FloatFmt.ofVal_lt md (by decide),
      s.alu_gives _ _ _ _ rfl fun _ => packFp8_words _ _ _ _ fun md => FloatFmt.ofVal_lt md (by decide),
      s.alu_gives _ _ _ _ rfl fun _ => packFp8_words _ _ _ _ fun md => FloatFmt.ofVal_lt md (by decide)⟩
  · exact ⟨s.block_gives _ _ _ _ _ (fun md v => sxEncodeBlocks 2 1 md v) rfl,
      s.block_gives _ _ _ _ _ (fun md v => sxEncodeBlocks 4 1 md v) rfl,
      s.block_gives _ _ _ _ _ (fun md v => sxEncodeBlocks 7 2 md v) rfl,
      s.block_gives _ _ _ _ _ (fun _ v => sxDecodeBlocks 2 1 v) rfl,
      s.block_gives _ _ _ _ _ (fun _ v => sxDecodeBlocks 4 1 v) rfl,
      s.block_gives _ _ _ _ _ (fun _ v => sxDecodeBlocks 7 2 v) rfl⟩

end Sys2Proof
end

section
/-! SUPPORT. Cross-lane reads (R147, R148): the source thread, the ballot bit by bit, and the sum of the lanes. -/

namespace Sys2Proof.Machine

open Sys2Proof

/-! ## The source thread (R147) -/

theorem State.mem_activeLanes (s : State) (e : Lane × Thread) : e ∈ s.activeLanes ↔
    (e.1 ∈ s.cur.lanes ∧ s.thread? s.cur.crew e.1.tid = some e.2) ∧ s.cur.active e.1 e.2 = true := by
  rw [State.activeLanes, List.mem_filter, s.mem_curLanes]

theorem State.source_some {s : State} {id : Int} {u : Thread} (h : s.source id = some u) :
    ∃ l ∈ s.cur.lanes, (l.tid : Int) = id ∧ s.thread? s.cur.crew l.tid = some u ∧ s.cur.active l u = true := by
  obtain ⟨⟨l, u'⟩, hfind, rfl⟩ := Option.map_eq_some_iff.1 h
  obtain ⟨⟨hl, hu⟩, hact⟩ := (s.mem_activeLanes _).1 (List.mem_of_find?_eq_some hfind)
  exact ⟨l, hl, by simpa using List.find?_some hfind, hu, hact⟩

theorem State.source_none {s : State} {id : Int} (h : s.source id = none) (l : Lane) (u : Thread) (hl : l ∈ s.cur.lanes)
    (hid : (l.tid : Int) = id) (hu : s.thread? s.cur.crew l.tid = some u) : s.cur.active l u = false := by
  have hnone := List.find?_eq_none.1 (Option.map_eq_none_iff.1 h)
  refine Bool.eq_false_iff.2 fun hact => ?_
  exact hnone (l, u) ((s.mem_activeLanes _).2 ⟨⟨hl, hu⟩, hact⟩) (decide_eq_true hid)

theorem State.sourceValue_word (s : State) (a : BitVec 7) (id : Int) : s.sourceValue a false id = s.farWord a id := by
  unfold State.sourceValue State.farWord
  cases s.source id <;> rfl

theorem State.sourceValue_pair (s : State) (a : BitVec 7) (id : Int) :
    s.sourceValue a true id = match s.source id with | some u => u.read64 a | none => 0#64 := by
  unfold State.sourceValue
  cases s.source id <;> rfl

/-- The frame of R147 for a value given otherwise than the instruction computes it. -/
theorem State.xlane_gives_of_eq (s : State) (i : Instr) (x : XlForm) (a : BitVec 7) (ids : Lane → Thread → List Int)
    (f v : Lane → Thread → Dword) (hi : exec i s = .next (s.xlane x a ids f)) (hv : ∀ l th, f l th = v l th) :
    s.XlGives i x v := by
  obtain rfl : f = v := funext₂ hv
  exact s.xlane_gives i x a ids f hi

/-! ## The ballot and the sum (R148) -/

/-- The number with bit i where p holds of i, below n. -/
def bitsBelow (p : Nat → Bool) (n : Nat) : Nat := ((List.range n).map fun i => if p i then 2 ^ i else 0).sum

theorem bitsBelow_succ (p : Nat → Bool) (n : Nat) :
    bitsBelow p (n + 1) = (if p n then 2 ^ n else 0) + bitsBelow p n := by
  simp [bitsBelow, List.range_succ, add_comm]

theorem bitsBelow_lt (p : Nat → Bool) (n : Nat) : bitsBelow p n < 2 ^ n := by
  induction n with
  | zero => exact Nat.one_pos
  | succ n ih =>
    rw [bitsBelow_succ, pow_succ]
    split <;> omega

theorem testBit_bitsBelow (p : Nat → Bool) (n i : Nat) : (bitsBelow p n).testBit i = (decide (i < n) && p i) := by
  induction n with
  | zero => simp [bitsBelow]
  | succ n ih =>
    rw [bitsBelow_succ]
    rcases Nat.lt_trichotomy i n with hlt | rfl | hgt
    · have hbit : ((if p n then 2 ^ n else 0) + bitsBelow p n).testBit i = (bitsBelow p n).testBit i := by
        split
        · exact Nat.testBit_two_pow_add_gt hlt _
        · rw [Nat.zero_add]
      rw [hbit, ih, decide_eq_true hlt, decide_eq_true (by omega)]
    · have hbelow : (bitsBelow p i).testBit i = false := by rw [ih, decide_eq_false (lt_irrefl i), Bool.false_and]
      cases hp : p i
      · simpa using hbelow
      · simp [Nat.testBit_two_pow_add_eq, hbelow]
    · have hlt : (if p n then 2 ^ n else 0) + bitsBelow p n < 2 ^ i :=
        (bitsBelow_succ p n ▸ bitsBelow_lt p (n + 1)).trans_le (Nat.pow_le_pow_right two_pos hgt)
      rw [Nat.testBit_lt_two_pow hlt, decide_eq_false (by omega), Bool.false_and]

/-- The threads whose bit a ballot sets. -/
def State.voted (s : State) (p : BitVec 3) (cr : Crew) (tid : Nat) (th : Thread) (i : Nat) : Bool :=
  match s.source ((cr.blockFirst th tid + i : Nat) : Int) with
  | some u => decide (u.role = th.role) && u.pred p.toNat
  | none => false

theorem State.ballot_eq {s : State} {cr : Crew} (h : s.curCrew? = some cr) (p : BitVec 3) (tid : Nat) (th : Thread) :
    s.ballot p tid th = BitVec.ofNat 64 (bitsBelow (s.voted p cr tid th) cr.width) := by
  have hterm (i : Nat) : (match s.source ((cr.blockFirst th tid + i : Nat) : Int) with
      | some u => if u.role = th.role && u.pred p.toNat then 2 ^ i else 0
      | none => 0) = if s.voted p cr tid th i then 2 ^ i else 0 := by
    unfold State.voted
    cases s.source ((cr.blockFirst th tid + i : Nat) : Int) <;> rfl
  unfold State.ballot bitsBelow
  rw [h]
  exact congrArg (fun f => BitVec.ofNat 64 ((List.range cr.width).map f).sum) (funext hterm)

theorem State.ballot_getLsbD {s : State} {cr : Crew} (h : s.curCrew? = some cr) (hw : cr.width ≤ 64) (p : BitVec 3)
    (tid : Nat) (th : Thread) (i : Nat) : (s.ballot p tid th).getLsbD i = (decide (i < cr.width) && s.voted p cr tid th i) := by
  have hfits : (decide (i < 64) && decide (i < cr.width)) = decide (i < cr.width) := by
    rw [← Bool.decide_and]
    exact decide_eq_decide.2 (by omega)
  rw [s.ballot_eq h, BitVec.getLsbD_ofNat, testBit_bitsBelow, ← Bool.and_assoc, hfits]

theorem ofInt_sum_toInt (vs : List Word) : BitVec.ofInt 32 (vs.map BitVec.toInt).sum = vs.sum := by
  induction vs with
  | nil => rfl
  | cons v vs ih => rw [List.map_cons, List.sum_cons, List.sum_cons, BitVec.ofInt_add, BitVec.ofInt_toInt, ih]

/-- The low word of the exact sum of words is their sum. -/
theorem low32_sum {α : Type} (es : List α) (f : α → Word) :
    low32 (es.map fun e => (f e).toInt).sum = ((es.map f).sum).setWidth 64 := by
  rw [low32, ← ofInt_sum_toInt, List.map_map]
  rfl

end Sys2Proof.Machine

namespace Sys2Proof

open Machine

/-- Settles O10: the frame of R147 (`State.xlane_gives`) over the source's register, the ballot bit by bit
(`State.ballot_getLsbD`) and the sum of the active lanes. -/
theorem crossLaneReads : Obligations.CrossLaneReads := by
  unfold Obligations.CrossLaneReads
  intro s d a b p t
  exact ⟨s.xlane_gives_of_eq _ _ _ _ _ _ rfl fun _ _ => s.sourceValue_word _ _,
    s.xlane_gives_of_eq _ _ _ _ _ _ rfl fun _ _ => s.sourceValue_word _ _,
    s.xlane_gives_of_eq _ _ _ _ _ _ rfl fun _ _ => s.sourceValue_word _ _,
    s.xlane_gives_of_eq _ _ _ _ _ _ rfl fun _ _ => s.sourceValue_word _ _,
    s.xlane_gives_of_eq _ _ _ _ _ _ rfl fun _ _ => s.sourceValue_pair _ _,
    s.xlane_gives _ _ _ _ _ rfl,
    s.xlane_gives_of_eq _ _ _ _ _ _ rfl fun _ _ => low32_sum _ _,
    fun _ _ => State.source_some,
    fun _ => State.source_none,
    fun _ _ _ hcr hw => State.ballot_getLsbD hcr hw p _ _⟩

end Sys2Proof
end

section
/-! SUPPORT. Uniform arithmetic (R149, R150): its frame over a function of the registers of the role, and its operations on
64-bit values. -/

namespace Sys2Proof.Machine

open Sys2Proof

/-! ## The frame (R118, R149) -/

variable (s : State) (i : Instr)

theorem State.ualu_gives (d a b : BitVec 6) (f g : Dword → Dword → Dword) (hi : exec i s = .next (s.ualu d a b f))
    (hf : ∀ x y, f x y = g x y) : s.UniformGives i [a, b] d (onUniform2 a b g) :=
  s.uniform_gives i _ d _ _ hi fun cr r hcr hr => by
    rw [s.uread_eq a cr r hcr hr, s.uread_eq b cr r hcr hr, hf]
    rfl

theorem State.ualu1_gives (d a : BitVec 6) (f g : Dword → Dword) (hi : exec i s = .next (s.ualu1 d a f))
    (hf : ∀ x, f x = g x) : s.UniformGives i [a] d (onUniform a g) :=
  s.uniform_gives i _ d _ _ hi fun cr r hcr hr => by
    rw [s.uread_eq a cr r hcr hr, hf]
    rfl

/-! ## The operations on 64-bit values -/

variable (x y : Dword) (m : BitVec 16)

theorem mulhiI64_eq : mulhiI64 x y = (x.signExtend 128 * y.signExtend 128).extractLsb' 64 64 := by
  simp only [mulhiI64, low64, i64, BitVec.signExtend, ← BitVec.ofInt_mul]
  rw [extractLsb'_ofInt _ (by decide), Int.fdiv_eq_ediv_of_nonneg _ (by decide)]

theorem mulhiN64_eq : mulhiN64 x y = (x.setWidth 128 * y.setWidth 128).extractLsb' 64 64 := by
  simp only [mulhiN64, low64, n64, setWidth_eq_ofInt_toNat, ← BitVec.ofInt_mul]
  rw [extractLsb'_ofInt _ (by decide)]
  simp

theorem shrI64_eq : shrI64 x y =
    if (lo32 y).toNat < 64 then x.sshiftRight (lo32 y).toNat else if x.msb then BitVec.allOnes 64 else 0#64 :=
  shrI_eq x _

theorem setEq_eq : setEq x y = if x = y then 1#64 else 0#64 := by simp [setEq, boolWord]

theorem setNe_eq : setNe x y = if x = y then 0#64 else 1#64 := by simp [setNe, boolWord]

/-- A count of the bits of 64 fits the low word of its register. -/
theorem low32_count {n : Nat} (h : n ≤ 64) : low32 n = BitVec.ofNat 64 n := by
  apply BitVec.eq_of_toNat_eq
  simp only [low32, BitVec.ofInt_natCast, BitVec.toNat_setWidth, BitVec.toNat_ofNat]
  omega

theorem leadingZeros_le {w : Nat} (v : BitVec w) : leadingZeros v ≤ w :=
  (List.takeWhile_prefix _).length_le.trans_eq List.length_range

theorem popcN64_eq : popcN64 x = BitVec.ofNat 64 ((List.range 64).countP fun i => x.getLsbD i) := by
  rw [popcN64, popc_eq_countP, low32_count (List.countP_le_length.trans_eq List.length_range)]

theorem clzN64_eq : clzN64 x = BitVec.ofNat 64 (leadingZeros x) := by
  rw [clzN64, clz_eq_leadingZeros, low32_count (leadingZeros_le x)]

theorem ctzN64_eq : ctzN64 x = BitVec.ofNat 64 (leadingZeros x.reverse) := by
  rw [ctzN64, ctz, clz_eq_leadingZeros, low64, BitVec.ofInt_natCast]

theorem brevN64_eq : brevN64 x = BitVec.ofFnLE fun i : Fin 64 => x.getLsbD (63 - i) := by
  ext i hi
  simp [brevN64, BitVec.getElem_reverse, BitVec.getMsbD, hi]

/-! ## Immediates (R150) -/

theorem lo32_immN64 : (lo32 (immN64 m)).toNat = m.toNat := by
  rw [show immN64 m = (m.setWidth 32).setWidth 64 from immN_eq m, lo32_setWidth, toNat_immWord]

theorem shlN64_imm : shlN64 x (immN64 m) = if m.toNat < 64 then x <<< m.toNat else 0#64 := by
  rw [shlN64, n32, lo32_immN64]
  rfl

theorem shrN64_imm : shrN64 x (immN64 m) = if m.toNat < 64 then x >>> m.toNat else 0#64 := by
  rw [shrN64, n32, lo32_immN64]
  rfl

theorem shrI64_imm : shrI64 x (immN64 m) =
    if m.toNat < 64 then x.sshiftRight m.toNat else if x.msb then BitVec.allOnes 64 else 0#64 := by
  rw [shrI64_eq, lo32_immN64]

theorem rolN64_imm : rolN64 x (immN64 m) = x.rotateLeft (m.toNat % 64) := by
  rw [rolN64, rol, n64, immN64, BitVec.toNat_setWidth_of_le (by decide)]

/-- A bit of a register of which one 16-bit field is replaced. -/
theorem getLsbD_moveHalf (k i : Nat) (hi : i < 64) : (moveHalf k x m).getLsbD i =
    if i < 16 * k then x.getLsbD i else if i < 16 * k + 16 then m.getLsbD (i - 16 * k) else x.getLsbD i := by
  have hmask (j : Nat) : (0xFFFF#64).getLsbD j = decide (j < 16) := by
    rw [show 0xFFFF#64 = (BitVec.allOnes 16).setWidth 64 from rfl, BitVec.getLsbD_setWidth, BitVec.getLsbD_allOnes,
      ← Bool.decide_and]
    exact decide_eq_decide.2 (by omega)
  simp only [moveHalf, BitVec.getLsbD_or, BitVec.getLsbD_and, BitVec.getLsbD_not, BitVec.getLsbD_shiftLeft,
    BitVec.getLsbD_setWidth, hmask, hi, decide_true, Bool.true_and]
  by_cases hbelow : i < 16 * k
  · simp [hbelow]
  · by_cases hfield : i < 16 * k + 16
    · simp [hbelow, hfield, show i - 16 * k < 16 by omega, show i - 16 * k < 64 by omega]
    · simp [hbelow, hfield, show ¬ i - 16 * k < 16 by omega, BitVec.getLsbD_of_ge m (i - 16 * k) (by omega)]

/-- A bit of a 16-bit field between the bits of a register above and below it. -/
theorem getLsbD_fieldBetween (n k i : Nat) (hi : i < k + 16 + n) :
    (x.extractLsb' (n + 16) k ++ m ++ x.extractLsb' 0 n).getLsbD i =
      if i < n then x.getLsbD i else if i < n + 16 then m.getLsbD (i - n) else x.getLsbD i := by
  simp only [BitVec.getLsbD_append, BitVec.getLsbD_extractLsb', Nat.zero_add]
  by_cases hbelow : i < n
  · simp [hbelow]
  · by_cases hfield : i < n + 16
    · simp [hbelow, hfield, show i - n < 16 by omega]
    · simp [hbelow, hfield, show ¬ i - n < 16 by omega, show i - n - 16 < k by omega,
        show n + 16 + (i - n - 16) = i by omega]

theorem moveHalf_one : moveHalf 1 x m = x.extractLsb' 32 32 ++ m ++ x.extractLsb' 0 16 :=
  BitVec.eq_of_getLsbD_eq fun i hi =>
    (getLsbD_moveHalf x m 1 i hi).trans (getLsbD_fieldBetween x m 16 32 i hi).symm

theorem moveHalf_two : moveHalf 2 x m = x.extractLsb' 48 16 ++ m ++ x.extractLsb' 0 32 :=
  BitVec.eq_of_getLsbD_eq fun i hi =>
    (getLsbD_moveHalf x m 2 i hi).trans (getLsbD_fieldBetween x m 32 16 i hi).symm

/-- The highest field has nothing above it. -/
theorem moveHalf_three : moveHalf 3 x m = m ++ x.extractLsb' 0 48 := by
  refine BitVec.eq_of_getLsbD_eq fun i hi => (getLsbD_moveHalf x m 3 i hi).trans ?_
  refine Eq.trans ?_ (BitVec.getLsbD_append ..).symm
  by_cases hbelow : i < 48
  · simp [hbelow]
  · simp [hbelow, hi]

end Sys2Proof.Machine

namespace Sys2Proof

open Machine

/-- Settles O11: the frame of R118 (`State.ualu_gives`, `State.ualu1_gives`) over the operations of 64 bits. -/
theorem uniformResults : Obligations.UniformResults := by
  unfold Obligations.UniformResults
  refine ⟨fun s d a b => ?_, fun s d m => ?_⟩
  · exact ⟨s.ualu_gives _ _ _ _ _ _ rfl addI64_eq,
      s.ualu_gives _ _ _ _ _ _ rfl subI64_eq,
      s.ualu1_gives _ _ _ _ _ rfl negI64_eq,
      s.ualu1_gives _ _ _ _ _ rfl absI64_eq,
      s.ualu_gives _ _ _ _ _ _ rfl mulI64_eq,
      s.ualu_gives _ _ _ _ _ _ rfl mulhiI64_eq,
      s.ualu_gives _ _ _ _ _ _ rfl mulhiN64_eq,
      s.ualu_gives _ _ _ _ _ _ rfl divI64_eq,
      s.ualu_gives _ _ _ _ _ _ rfl divN64_eq,
      s.ualu_gives _ _ _ _ _ _ rfl remI64_eq,
      s.ualu_gives _ _ _ _ _ _ rfl remN64_eq,
      s.ualu_gives _ _ _ _ _ _ rfl fun _ _ => rfl,
      s.ualu_gives _ _ _ _ _ _ rfl fun _ _ => rfl,
      s.ualu_gives _ _ _ _ _ _ rfl fun _ _ => rfl,
      s.ualu_gives _ _ _ _ _ _ rfl fun _ _ => rfl,
      s.ualu1_gives _ _ _ _ _ rfl fun _ => rfl,
      s.ualu_gives _ _ _ _ _ _ rfl fun _ _ => rfl,
      s.ualu_gives _ _ _ _ _ _ rfl fun _ _ => rfl,
      s.ualu_gives _ _ _ _ _ _ rfl shrI64_eq,
      s.ualu_gives _ _ _ _ _ _ rfl fun _ _ => rfl,
      s.ualu_gives _ _ _ _ _ _ rfl fun _ _ => rfl,
      s.ualu_gives _ _ _ _ _ _ rfl setEq_eq,
      s.ualu_gives _ _ _ _ _ _ rfl setNe_eq,
      s.ualu_gives _ _ _ _ _ _ rfl fun _ _ => rfl,
      s.ualu_gives _ _ _ _ _ _ rfl fun _ _ => rfl,
      s.ualu_gives _ _ _ _ _ _ rfl fun _ _ => rfl,
      s.ualu_gives _ _ _ _ _ _ rfl fun _ _ => rfl,
      s.ualu_gives _ _ _ _ _ _ rfl minI64_eq,
      s.ualu_gives _ _ _ _ _ _ rfl maxI64_eq,
      s.ualu_gives _ _ _ _ _ _ rfl minN64_eq,
      s.ualu_gives _ _ _ _ _ _ rfl maxN64_eq,
      s.ualu1_gives _ _ _ _ _ rfl fun _ => rfl,
      s.ualu1_gives _ _ _ _ _ rfl popcN64_eq,
      s.ualu1_gives _ _ _ _ _ rfl clzN64_eq,
      s.ualu1_gives _ _ _ _ _ rfl ctzN64_eq,
      s.ualu1_gives _ _ _ _ _ rfl brevN64_eq⟩
  · exact ⟨s.ualu1_gives _ _ _ _ _ rfl fun _ => addI64_eq _ _,
      s.ualu1_gives _ _ _ _ _ rfl fun _ => mulI64_eq _ _,
      s.ualu1_gives _ _ _ _ _ rfl fun _ => minI64_eq _ _,
      s.ualu1_gives _ _ _ _ _ rfl fun _ => maxI64_eq _ _,
      s.ualu1_gives _ _ _ _ _ rfl fun _ => rfl,
      s.ualu1_gives _ _ _ _ _ rfl fun _ => rfl,
      s.ualu1_gives _ _ _ _ _ rfl fun _ => rfl,
      s.ualu1_gives _ _ _ _ _ rfl fun _ => rfl,
      s.ualu1_gives _ _ _ _ _ rfl fun _ => shlN64_imm _ _,
      s.ualu1_gives _ _ _ _ _ rfl fun _ => shrN64_imm _ _,
      s.ualu1_gives _ _ _ _ _ rfl fun _ => shrI64_imm _ _,
      s.ualu1_gives _ _ _ _ _ rfl fun _ => rolN64_imm _ _,
      s.uniform_gives _ _ _ _ _ rfl fun _ _ _ _ => rfl,
      s.uniform_gives _ _ _ _ _ rfl fun _ _ _ _ => rfl,
      s.ualu1_gives _ _ _ _ _ rfl fun _ => moveHalf_one _ _,
      s.ualu1_gives _ _ _ _ _ rfl fun _ => moveHalf_two _ _,
      s.ualu1_gives _ _ _ _ _ rfl fun _ => moveHalf_three _ _⟩

end Sys2Proof
end

section
/-! SUPPORT. Uniform moves and the uniform system forms (R151, R168): a uniform instruction that nothing stops has its effect
at once, and it has no prefix, so every thread that issues is active. -/

namespace Sys2Proof.Machine

open Sys2Proof

/-- A uniform instruction that nothing stops has its effect (R76, R157). -/
theorem State.UniformClear.uniform_eq {s : State} {os : List Opnd} {reads writes : List (BitVec 6)} {cr : Crew} {r : Role}
    {uses : List Nat} (h : s.UniformClear os reads writes cr r uses) (body : State → State) :
    s.uniform os false reads writes body uses = body s := by
  obtain ⟨hclear, hpoison, hcr, -, hfirst⟩ := h
  unfold State.uniform
  rw [s.guarded_of_clear _ _ hclear, s.inUniformOrder_of_first _ _ _ cr hcr hfirst, hpoison]

variable {s : State} {cr : Crew} {r : Role}

/-! ## Conditional moves -/

theorem State.umovIf_of_true {d a b : BitVec 6} {p : Dword → Bool} (h : s.UniformClear [] [a, b] [d] cr r)
    (hp : p (r.uread b.toNat) = true) : s.UniformWrote (s.umovIf d a b p) cr r d (r.uread a.toNat) := by
  have ⟨_, _, hcr, hr, _⟩ := h
  rw [State.umovIf, h.uniform_eq]
  rw [s.uread_eq b cr r hcr hr, s.uread_eq a cr r hcr hr, if_pos hp]
  exact s.uwrite_wrote d _ cr r hcr hr

theorem State.umovIf_of_false {d a b : BitVec 6} {p : Dword → Bool} (h : s.UniformClear [] [a, b] [d] cr r)
    (hp : p (r.uread b.toNat) = false) : s.Passed (s.umovIf d a b p) := by
  have ⟨_, _, hcr, hr, _⟩ := h
  rw [State.umovIf, h.uniform_eq]
  rw [s.uread_eq b cr r hcr hr, if_neg (Bool.eq_false_iff.1 hp)]
  exact s.completeNone_passed

/-- A conditional move writes where its condition holds, and else nothing. -/
theorem State.umovIf_gives {d a b : BitVec 6} {p : Dword → Bool} (h : s.UniformClear [] [a, b] [d] cr r) (c : Prop)
    [Decidable c] (hc : p (r.uread b.toNat) = true ↔ c) :
    if c then s.UniformWrote (s.umovIf d a b p) cr r d (r.uread a.toNat) else s.Passed (s.umovIf d a b p) := by
  split
  · exact State.umovIf_of_true h (hc.2 ‹c›)
  · exact State.umovIf_of_false h (Bool.eq_false_iff.2 fun hp => ‹¬c› (hc.1 hp))

theorem wordBool_iff (v : Dword) : wordBool v = true ↔ v ≠ 0#64 := bne_iff_ne

/-! ## Between uniform and lane registers -/

/-- Without a prefix every thread that issues is active. -/
theorem Bundle.active_of_noPfx {b : Bundle} (h : b.pfx = none) {l : Lane} (hl : l.issued = true) (th : Thread) :
    b.active l th = true := by
  rw [Bundle.active, hl, h]
  rfl

/-- Without a prefix every thread that issues completes with the results. -/
theorem State.complete_become_of_noPfx (s : State) (h : s.cur.pfx = none) (md : ResultMode) (res : Lane → Thread → Results) :
    s.LanesBecome (s.complete md res) fun l th => th.commit s.cur.length md (res l th) := by
  refine ⟨s.mapLanes_threadsOnly _, fun l th hl hissued hth => ?_⟩
  rw [State.complete, s.mapLanes_lane _ l th hl hissued hth, if_pos (Bundle.active_of_noPfx h hissued th)]

/-- A register written in the lanes from a uniform one. -/
theorem State.wrv_become {os : List Opnd} {a : BitVec 6} (h : s.UniformClear os [a] [] cr r) (res : Dword → Results) :
    s.LanesBecome (s.uniform os false [a] [] fun s => s.complete .now fun _ _ => res (s.uread a))
      fun _ th => th.commit s.cur.length .now (res (r.uread a.toNat)) := by
  have ⟨hclear, _, hcr, hr, _⟩ := h
  rw [h.uniform_eq, s.uread_eq a cr r hcr hr]
  exact s.complete_become_of_noPfx (hclear.noPfx rfl) .now _

theorem Thread.readPoisoned_of_not_mem {th : Thread} {n : Nat} (h : n ∉ th.poison) : th.readPoisoned n = false := by
  simp [Thread.readPoisoned, h]

theorem execGRdvN32_wrote {d a : BitVec 6} (h : s.UniformClear [uniformLane a false] [] [d] cr r) {l : Lane} {th : Thread}
    (hl : s.curLanes.head? = some (l, th)) (hp : a.toNat ∉ th.poison) :
    ∃ t, exec (.gRdvN32 d a) s = .next t ∧ s.UniformWrote t cr r d ((th.readReg a.toNat).setWidth 64) := by
  have ⟨_, _, hcr, hr, _⟩ := h
  have hlow : s.lowest = some (l, th) := hl
  refine ⟨_, rfl, ?_⟩
  rw [h.uniform_eq]
  simp only [hlow, Thread.readPoisoned_of_not_mem hp]
  exact s.uwrite_wrote d _ cr r hcr hr

/-! ## System registers (R168) -/

theorem execGRdsr_wrote {d a : BitVec 6} (h : s.UniformClear [] [] [d] cr r (if a.toNat = 11 then [uconfUse] else []))
    (ha : a.toNat ≤ 11) {l : Lane} {th : Thread} (hl : s.curLanes.head? = some (l, th)) :
    ∃ t, exec (.gRdsr d a) s = .next t ∧ s.UniformWrote t cr r d (s.sysReg cr l.tid th a.toNat) := by
  have ⟨_, _, hcr, hr, _⟩ := h
  have hlow : s.lowest = some (l, th) := hl
  have hcur : s.curCrew? = some cr := hcr
  refine ⟨_, rfl, ?_⟩
  rw [decide_eq_false (Nat.not_lt.2 ha), h.uniform_eq]
  simp only [hlow, hcur]
  exact s.uwrite_wrote d _ cr r hcr hr

/-- The bundle's role replaced, and the threads that issue at the next instruction (R118). -/
theorem State.modRole_completed (f : Role → Role) (hf : ∀ r, (f r).id = r.id) (hcr : s.crew? s.cur.crew = some cr)
    (hr : cr.role? s.curRole = some r) :
    let t := (s.modCrew s.cur.crew fun cr => cr.modRole s.curRole f).completeNone
    s.CrewOnly t ∧ ∃ cr', t.crew? s.cur.crew = some cr' ∧ { cr'.bare with roles := cr.roles } = cr.bare ∧
      cr'.role? s.curRole = some (f r) ∧ (∀ q, q ≠ s.curRole → cr'.role? q = cr.role? q) ∧
      (∀ u, u ∉ s.cur.tids → t.thread? s.cur.crew u = s.thread? s.cur.crew u) ∧
      ∀ l th, l ∈ s.cur.lanes → l.issued = true → s.thread? s.cur.crew l.tid = some th →
        t.thread? s.cur.crew l.tid = some (th.commit s.cur.length .now []) := by
  set u := s.modCrew s.cur.crew fun cr => cr.modRole s.curRole f with hu
  intro t
  have hcrew : u.crew? s.cur.crew = some (cr.modRole s.curRole f) := by
    rw [hu, State.crew?_modCrew, if_pos rfl, hcr]
    rfl
  have hthread (tid : Nat) : u.thread? s.cur.crew tid = s.thread? s.cur.crew tid := by
    rw [State.thread?_of_crew _ _ _ _ hcrew, State.thread?_of_crew _ _ _ _ hcr]
    rfl
  obtain ⟨⟨⟨hstate, hothers⟩, hbare, hrest⟩, hlanes⟩ :
      u.LanesBecome t fun _ th => th.commit s.cur.length .now [] :=
    u.mapLanes_become _ _ fun l th => by rw [ite_self]; rfl
  rw [show u.cur = s.cur from rfl] at hothers hbare hrest hlanes
  rw [hcrew, Option.map_some] at hbare
  obtain ⟨cr', hcr', hbare'⟩ := Option.map_eq_some_iff.1 hbare
  have hrole (q : Nat) : cr'.role? q = if q = s.curRole then (cr.role? q).map f else cr.role? q := by
    rw [← Crew.role?_modRole _ _ _ _ hf, Crew.of_bare _ _ hbare']
    rfl
  refine ⟨⟨congrArg (fun x : State => { x with crews := s.crews }) hstate, fun c hc => ?_⟩, cr', hcr', ?_, ?_, ?_,
    fun tid htid => (hrest tid htid).trans (hthread tid), fun l th hl hissued hth => ?_⟩
  · rw [hothers c hc, hu, State.crew?_modCrew, if_neg hc]
  · rw [hbare']
    rfl
  · rw [hrole, if_pos rfl, hr]
    rfl
  · intro q hq
    rw [hrole, if_neg hq]
  · exact hlanes l th hl hissued ((hthread l.tid).trans hth)

/-- sr.uconf cleared, in a new epoch (R119). -/
def Role.uconfCleared (r : Role) : Role := { r.newEpoch with uconfSet := false, uconfReg := 0, uconfMulti := false }

theorem execGUconfClr_eq (h : s.UniformClear [] [] [] cr r [uconfUse]) : exec .gUconfClr s =
    .next (s.modCrew s.cur.crew fun cr => cr.modRole s.curRole Role.uconfCleared).completeNone :=
  congrArg Host.Outcome.next (h.uniform_eq _)

end Sys2Proof.Machine

namespace Sys2Proof

open Machine

/-- Settles O12: a uniform instruction that nothing stops has its effect (`State.UniformClear.uniform_eq`), which is one
write of gd, the completion of the threads that issue, or the bundle's role replaced (`State.modRole_completed`). -/
theorem uniformMoves : Obligations.UniformMoves := by
  unfold Obligations.UniformMoves
  intro s d a b cr r
  refine ⟨fun h => ⟨⟨_, rfl, ?_⟩, _, rfl, ?_⟩, fun h l th => execGRdvN32_wrote h, fun h => ⟨_, rfl, ?_⟩,
    fun h => ⟨_, rfl, ?_⟩, fun h ha l th => execGRdsr_wrote h ha, fun h => ?_⟩
  · exact State.umovIf_gives h _ (wordBool_iff _)
  · exact State.umovIf_gives h _ (by rw [Bool.not_eq_true', ← Bool.not_eq_true, wordBool_iff, not_not])
  · exact State.wrv_become h fun v => [(.reg d.toNat, lo32 v)]
  · exact State.wrv_become h fun v => [(.reg d.toNat, lo32 v), (.reg (d.toNat + 1), hi32 v)]
  · have ⟨_, _, hcr, hr, _⟩ := h
    obtain ⟨honly, cr', hcr', hbare, hrole, hroles, hthreads⟩ :=
      State.modRole_completed Role.uconfCleared (fun _ => rfl) hcr hr
    exact ⟨_, cr', _, execGUconfClr_eq h, honly, hcr', hbare, hrole, hroles, rfl, hthreads⟩

end Sys2Proof
end

section
/-! SUPPORT. What the statements of chapter 08 share: a table in its canonical form by its entries, a check that the one
thread of a bundle fails, a thread that parks, and a branch of a thread (R24, R27, R69). -/

namespace Sys2Proof

/-- The keys of a rising table are not below its bound. -/
theorem Table.le_key_of_rising {α : Type} {t : Table α} {lo : Nat} (h : Table.risingFrom lo t = true) {e : Nat × α}
    (he : e ∈ t) : lo ≤ e.1 := by
  induction t generalizing lo with
  | nil => simp at he
  | cons d t ih =>
    obtain ⟨j, u⟩ := d
    simp only [Table.risingFrom, Bool.and_eq_true, decide_eq_true_eq] at h
    rcases List.mem_cons.1 he with rfl | he
    · exact h.1
    · exact (h.1.trans (Nat.le_succ j)).trans (ih h.2 he)

theorem Table.get?_of_mem_rising {α : Type} {t : Table α} {lo : Nat} (h : Table.risingFrom lo t = true) {e : Nat × α}
    (he : e ∈ t) : Table.get? t e.1 = some e.2 := by
  induction t generalizing lo with
  | nil => simp at he
  | cons d t ih =>
    obtain ⟨j, u⟩ := d
    simp only [Table.risingFrom, Bool.and_eq_true, decide_eq_true_eq] at h
    rcases List.mem_cons.1 he with rfl | he
    · simp [Table.get?]
    · have hlt := Table.le_key_of_rising h.2 he
      rw [Table.get?, if_neg (by omega)]
      exact ih h.2 he

/-- What a table reads as at a key is one of its entries. -/
theorem Table.mem_of_get? {α : Type} {t : Table α} {k : Nat} {v : α} (h : Table.get? t k = some v) : (k, v) ∈ t := by
  induction t with
  | nil => simp [Table.get?] at h
  | cons d t ih =>
    obtain ⟨j, u⟩ := d
    rw [Table.get?] at h
    split at h
    · simp_all
    · exact List.mem_cons_of_mem _ (ih h)

/-- A table in its canonical form reads as its entries. -/
theorem Table.mem_iff_get? {α : Type} {t : Table α} (h : Table.wf t = true) {k : Nat} {v : α} :
    (k, v) ∈ t ↔ Table.get? t k = some v :=
  ⟨fun hm => Table.get?_of_mem_rising h hm, Table.mem_of_get?⟩

/-- An entry of a table with one entry replaced is that entry's image, or an entry as before. -/
theorem Table.mem_adjust {α : Type} {t : Table α} {k : Nat} {f : α → α} {e : Nat × α} (h : e ∈ Table.adjust t k f) :
    ∃ d ∈ t, e.1 = d.1 ∧ e.2 = if d.1 = k then f d.2 else d.2 := by
  obtain ⟨d, hd, rfl⟩ := List.mem_map.1 h
  refine ⟨d, hd, ?_⟩
  split <;> exact ⟨rfl, rfl⟩

theorem Table.adjust_adjust {α : Type} (t : Table α) (k : Nat) (f g : α → α) :
    Table.adjust (Table.adjust t k f) k g = Table.adjust t k fun v => g (f v) := by
  unfold Table.adjust
  rw [List.map_map]
  refine List.map_congr_left fun e _ => ?_
  by_cases he : e.1 = k <;> simp [he]

end Sys2Proof

namespace Sys2Proof.Machine

open Sys2Proof

/-! ## Updates one after another -/

theorem State.modCrew_modCrew (s : State) (c : Nat) (f g : Crew → Crew) :
    (s.modCrew c f).modCrew c g = s.modCrew c fun cr => g (f cr) := by
  simp only [State.modCrew, Table.adjust_adjust]

theorem State.modThread_modThread (s : State) (c tid : Nat) (f g : Thread → Thread) :
    (s.modThread c tid f).modThread c tid g = s.modThread c tid fun th => g (f th) := by
  simp only [State.modThread, State.modCrew_modCrew, Crew.modThread, Table.adjust_adjust]

/-- A thread of another crew, or another one of the crew, is as it was. -/
theorem State.thread?_modThread_ne (s : State) (c tid u : Nat) (f : Thread → Thread) (h : u ≠ tid) :
    (s.modThread c tid f).thread? c u = s.thread? c u := by
  rw [State.thread?_modThread, if_neg fun e => h e.2]

theorem State.thread?_modThread_self (s : State) (c tid : Nat) (f : Thread → Thread) :
    (s.modThread c tid f).thread? c tid = (s.thread? c tid).map f := by
  rw [State.thread?_modThread, if_pos ⟨rfl, rfl⟩]

/-! ## INFO of a trap -/

theorem offInfo_natCast {n : Nat} (h : n < 2 ^ 64) : offInfo (n : Int) = n := by
  rw [offInfo, BitVec.ofInt_natCast, BitVec.toNat_ofNat, Nat.mod_eq_of_lt h]

theorem offInfo_word (w : Word) : offInfo ((w.toNat : Nat) : Int) = w.toNat := offInfo_natCast (by omega)

/-! ## A bundle of one thread -/

section
variable {s : State} {tid : Nat} {cr : Crew} {th : Thread}

/-- A check that the thread fails traps the bundle, with the thread's INFO. -/
theorem State.Solo.laneTrap_of_bad (h : s.Solo tid cr th) (code : Code) {bad : Lane → Thread → Bool}
    (info : Lane → Thread → Int) (hb : bad { tid := tid, issued := true } th = true) :
    s.laneTrap code bad info = some (s.trap code (s.maskOf fun e => s.cur.active e.1 e.2)
      (offInfo (info { tid := tid, issued := true } th))) := by
  have hmask : (s.maskOf fun e => s.cur.active e.1 e.2 && bad e.1 e.2) = s.maskOf fun e => s.cur.active e.1 e.2 := by
    simp [State.maskOf, h.curLanes, maskFrom, hb]
  unfold State.laneTrap
  rw [h.activeLanes]
  simp [hb, hmask]

/-- A thread that parks changes nothing but itself and the count that orders the parked threads (R24). -/
theorem State.park_parks (hth : s.thread? s.cur.crew tid = some th) (w : Wait) :
    s.Parks (s.park s.cur.crew tid w) tid th w :=
  ⟨_, s.onlyThread_modThread tid th _ hth, rfl⟩

/-- One thread changed, after a change of the crew outside it. -/
theorem State.nowThread_modThread (f : Crew → Crew) (g : Thread → Thread) (hcr : s.crew? s.cur.crew = some cr)
    (hth : Table.get? (f cr).threads tid = some th) :
    s.NowThread ((s.modCrew s.cur.crew f).modThread s.cur.crew tid g) (f cr) tid (g th) := by
  have hcrew : (s.modCrew s.cur.crew f).crew? s.cur.crew = some (f cr) := by
    rw [State.crew?_modCrew, if_pos rfl, hcr, Option.map_some]
  refine ⟨⟨rfl, fun c hc => ?_⟩, ?_, ?_, fun u hu => ?_⟩
  · rw [State.modThread, State.crew?_modCrew, if_neg hc, State.crew?_modCrew, if_neg hc]
  · rw [State.crew?_modThread_bare, hcrew, Option.map_some]
  · rw [State.thread?_modThread_self, State.thread?_of_crew _ _ _ _ hcrew, hth, Option.map_some]
  · rw [State.thread?_modThread_ne _ _ _ _ _ hu, State.thread?_of_crew _ _ _ _ hcrew]

end

/-! ## A branch of a thread (R69, R158) -/

/-- Promises that reach their places leave what an instruction does not move. -/
theorem Thread.flushPend_rest (th : Thread) : th.flushPend.rest = th.rest :=
  (rfl : th.flushPend.rest = (th.pend.foldl Thread.mature th).rest).trans (Thread.matureAll th.pend th).1

theorem Thread.goTo_rest (th : Thread) (len : Nat) (pc : Word) : (th.goTo len pc).rest = th.rest :=
  (rfl : (th.goTo len pc).rest = th.flushPend.rest).trans th.flushPend_rest

theorem Thread.goTo_rot (th : Thread) (len : Nat) (pc : Word) : (th.goTo len pc).rot = th.rot :=
  (congrArg Thread.rot (th.goTo_rest len pc) :)

theorem Thread.goTo_rb (th : Thread) (len : Nat) (pc : Word) : (th.goTo len pc).rb = th.rb :=
  (congrArg Thread.rb (th.goTo_rest len pc) :)

/-- Promises that reach their places do not look at the FIFO. -/
theorem Thread.matureAll_fifo (hs : List Held) (th : Thread) (q : List StoreEntry) :
    hs.foldl Thread.mature { th with fifo := q } = { hs.foldl Thread.mature th with fifo := q } := by
  induction hs generalizing th with
  | nil => rfl
  | cons h hs ih =>
    rw [List.foldl_cons, List.foldl_cons, ← ih (th.mature h)]
    congr 1
    obtain ⟨n, v, -, -⟩ := h
    cases n <;> rfl

theorem Thread.goTo_fifo (th : Thread) (q : List StoreEntry) (len : Nat) (pc : Word) :
    { th with fifo := q }.goTo len pc = { th.goTo len pc with fifo := q } := by
  have hflush : { th with fifo := q }.flushPend = { th.flushPend with fifo := q } :=
    congrArg (fun x : Thread => { x with pend := [] }) (Thread.matureAll_fifo th.pend th q)
  unfold Thread.goTo
  rw [hflush]
  rfl

/-! ## An instruction without a prefix -/

theorem Bundle.length_of_noPfx {b : Bundle} (h : b.pfx = none) : b.length = 4 := by
  rw [Bundle.length, h]
  rfl

end Sys2Proof.Machine
end

section
/-! SUPPORT. Control transfers (R158 to R160, R167): conditions and targets, the frame of the call-graph prefetcher, and the
calls and returns of one thread. -/

namespace Sys2Proof.Machine

open Sys2Proof

variable {s : State} {tid : Nat} {cr : Crew} {th : Thread}

/-! ## Conditions and targets -/

/-- The LB condition names a predicate, or its inverse (R72). -/
theorem branchHolds_eq (cc : BitVec 4) (th : Thread) :
    branchHolds cc th = if cc.toNat < 8 then th.pred (cc.toNat % 8) else !th.pred (cc.toNat % 8) := by
  have hbit : cc.getLsbD 3 = !decide (cc.toNat < 8) := by
    revert cc
    decide
  unfold branchHolds
  rw [hbit]
  by_cases h : cc.toNat < 8 <;> simp [h]

theorem shiftLeft_two_eq_mul (x : Word) : x <<< 2 = x * 4#32 := by
  rw [BitVec.shiftLeft_eq_mul_twoPow]
  rfl

theorem State.lbTarget_eq (s : State) (off : BitVec 21) : s.lbTarget off = s.cur.pc + off.signExtend 32 * 4#32 := by
  rw [State.lbTarget, shiftLeft_two_eq_mul]

/-- The conditions of g.br (R71). -/
theorem uniformCond_iff {c : BitVec 3} (h : c.toNat ≤ 4) (x : Dword) : uniformCond c x = true ↔
    c = 0#3 ∨ (c = 1#3 ∧ x = 0#64) ∨ (c = 2#3 ∧ x ≠ 0#64) ∨ (c = 3#3 ∧ x.msb = true) ∨ (c = 4#3 ∧ x.msb = false) := by
  have hc : c = 0#3 ∨ c = 1#3 ∨ c = 2#3 ∨ c = 3#3 ∨ c = 4#3 := by
    revert c
    decide
  rcases hc with rfl | rfl | rfl | rfl | rfl
  · simp [uniformCond]
  · simp [uniformCond]
  · simp [uniformCond]
  · simp [uniformCond, BitVec.msb_eq_toInt]
  · simp [uniformCond, BitVec.msb_eq_toInt]

/-- A computed target that is accepted lies in the code of the crew's object, at a word (R60, R159). -/
theorem State.badTarget_eq_false_iff (s : State) (a : Word) : s.badTarget a = false ↔ a.toNat % 4 = 0 ∧
    ∃ cr o, s.crew? s.cur.crew = some cr ∧ s.object? cr.ctx cr.obj = some o ∧ a.toNat < o.codeLen := by
  unfold State.badTarget State.curCrew?
  cases hcr : s.crew? s.cur.crew with
  | none => simp
  | some cr =>
    cases ho : s.object? cr.ctx cr.obj with
    | none => simp [ho]
    | some o => simp [ho]

/-! ## Branches of every thread that issues -/

/-- A `loop` that is taken steps the rotation base of the thread that it leaves at the target (R160). -/
theorem Thread.goTo_rotated (th : Thread) (len : Nat) (pc : Word) : (th.goTo len pc).rotated =
    match th.rot with
    | some (_, size) => { th.goTo len pc with rb := (th.rb + size - 1) % size }
    | none => th.goTo len pc := by
  have hrot := th.goTo_rot len pc
  unfold Thread.rotated
  rw [th.goTo_rb]
  rcases hr : th.rot with _ | ⟨b, size⟩
  · rw [hr] at hrot
    simp only [hrot]
  · rw [hr] at hrot
    simp only [hrot]

/-! ## The call-graph prefetcher (R194) -/

/-- A state that differs, if at all, in what the prefetcher starts: fetches of clusters, and the calls that they raise. -/
def State.Prefetched (s t : State) : Prop :=
  { t with clusters := s.clusters, contexts := s.contexts, calls := s.calls, nextId := s.nextId } = s

theorem State.Prefetched.refl (s : State) : s.Prefetched s := rfl

theorem State.Prefetched.trans {s t u : State} (h : s.Prefetched t) (h' : t.Prefetched u) : s.Prefetched u := by
  have hu : { u with clusters := s.clusters, contexts := s.contexts, calls := s.calls, nextId := s.nextId } =
      { t with clusters := s.clusters, contexts := s.contexts, calls := s.calls, nextId := s.nextId } :=
    congrArg (fun x : State =>
      { x with clusters := s.clusters, contexts := s.contexts, calls := s.calls, nextId := s.nextId }) h'
  exact hu.trans h

theorem State.startFetch_prefetched {die cluster ctx obj group launch crew tid : Nat} {prefetch : Bool} {t : State}
    (h : s.startFetch die cluster ctx obj group launch crew tid prefetch = some t) : s.Prefetched t := by
  unfold State.startFetch at h
  split at h
  · cases h
    exact .refl s
  · dsimp only at h
    split at h
    · split at h
      · cases h
        rfl
      · cases h
    · cases h
      rfl

theorem State.callPrefetch_prefetched (s : State) (c cluster target : Nat) : s.Prefetched (s.callPrefetch c cluster target) := by
  unfold State.callPrefetch
  split
  · exact .refl s
  · split
    · exact .refl s
    · refine List.foldlRecOn _ _ (State.Prefetched.refl s) fun t ht f _ => ht.trans ?_
      dsimp only
      split
      · exact .refl t
      · cases hf : t.startFetch _ _ _ _ _ _ _ _ _ with
        | none => exact .refl t
        | some u => exact State.startFetch_prefetched hf

theorem State.callPrefetches_prefetched (s : State) (calls : List (Nat × Nat)) :
    s.Prefetched (calls.foldl (fun (t : State) k => t.callPrefetch t.cur.crew k.1 k.2) s) :=
  List.foldlRecOn _ _ (State.Prefetched.refl s) fun t ht _ _ => ht.trans (t.callPrefetch_prefetched _ _ _)

/-! ## Calls and returns of one thread (R159) -/

/-- A store that finds room in the thread's FIFO enters it (R40). -/
theorem State.enterStore_of_room (hth : s.thread? s.cur.crew tid = some th) (hroom : th.fifo.length < 8) (e : StoreEntry)
    (go : State → State) :
    s.enterStore tid e go = go (s.modThread s.cur.crew tid fun u => { u with fifo := u.fifo ++ [e] }) := by
  have hdepth : th.fifo.length < fifoDepth := hroom
  have hnotFull : ¬fifoDepth ≤ th.fifo.length := Nat.not_le.2 hdepth
  unfold State.enterStore State.enterFifo
  simp only [hth, hdepth, hnotFull, if_true, decide_false, Bool.false_eq_true, if_false]

/-- The stack line of the thread is there. -/
theorem State.lineState_stk_ready (s : State) (cr : Crew) {th : Thread} {a : Nat}
    (h : th.stackAbsent.contains (a / 64) = false) : s.lineState cr th .stk a = .ready := by
  simp only [State.lineState, h, Bool.false_eq_true, if_false]

theorem State.Solo.callLanes_called (h : s.Solo tid cr th) (target : Lane → Thread → Word)
    (hsp : th.sp.toNat + 4 ≤ cr.stackSize) (hline : th.stackAbsent.contains (th.sp.toNat / 64) = false)
    (hroom : th.fifo.length < 8) :
    s.Called (s.callLanes target) tid (th.called s (target { tid := tid, issued := true } th)) := by
  unfold State.callLanes
  rw [h.curCrew]
  dsimp only
  rw [h.laneTrap _ _ _ (by simpa using hsp)]
  dsimp only
  rw [h.lanewise, h.withLine _ _ _ (s.lineState_stk_ready cr hline), State.enterStore_of_room h.thread hroom]
  refine ⟨_, ?_, State.callPrefetches_prefetched _ _⟩
  rw [show ∀ f, (s.modThread s.cur.crew tid f).cur = s.cur from fun _ => rfl, State.modThread_modThread]
  have hcalled : th.called s (target { tid := tid, issued := true } th) =
      { { th with fifo := th.fifo ++ [s.storeEntry .stk th.sp.toNat (leBytes s.nextPc.toNat 4)] }.goTo s.cur.length
          (target { tid := tid, issued := true } th) with sp := th.sp + 4#32 } := by
    rw [Thread.goTo_fifo]
    rfl
  rw [hcalled]
  exact s.onlyThread_modThread tid th _ h.thread

theorem State.Solo.callLanes_bounds (h : s.Solo tid cr th) (target : Lane → Thread → Word)
    (hsp : cr.stackSize < th.sp.toNat + 4) :
    s.callLanes target = s.trap Code.boundsStk (s.maskOf fun e => s.cur.active e.1 e.2) th.sp.toNat := by
  unfold State.callLanes
  rw [h.curCrew]
  dsimp only
  rw [h.laneTrap_of_bad _ _ (by simpa using hsp)]
  dsimp only
  rw [offInfo_word]

theorem State.Solo.targetTrap_none (h : s.Solo tid cr th) (target : Lane → Thread → Word)
    (ht : s.badTarget (target { tid := tid, issued := true } th) = false) : s.targetTrap target = none :=
  h.laneTrap _ _ _ ht

/-- A return whose SP, line and loaded target pass their checks: the thread stands at the word that it reads below SP. -/
theorem execRet_goTo (h : s.flushed.Solo tid cr th) (hclear : s.flushed.Clear (lx [] false)) (hsp : 4 ≤ th.sp.toNat)
    (hline : th.stackAbsent.contains ((th.sp.toNat - 4) / 64) = false)
    (hpoison : s.flushed.spacePoison cr th .stk (th.sp.toNat - 4) 4 false = none)
    (ht : s.flushed.badTarget th.returnTarget = false) :
    ∃ t, exec .ret s = .next t ∧ s.flushed.OnlyThread t tid
      { th.goTo s.flushed.cur.length th.returnTarget with sp := th.sp - 4#32 } := by
  have hoff : ((th.sp.toNat : Int) - 4).toNat = th.sp.toNat - 4 := by omega
  refine ⟨_, rfl, ?_⟩
  rw [State.guarded_of_clear _ _ _ hclear, h.laneTrap _ _ _ (decide_eq_false (Nat.not_lt.2 hsp))]
  dsimp only
  rw [h.lanePoison _ _ _ _ (by rw [hoff]; exact hpoison)]
  dsimp only
  rw [h.laneTrap _ _ _ (by rw [ht, Bool.and_false])]
  dsimp only
  rw [h.lanewise, h.withLine _ _ _ (State.lineState_stk_ready _ cr hline)]
  exact State.onlyThread_modThread _ tid th _ h.thread

theorem execRet_bounds (h : s.flushed.Solo tid cr th) (hclear : s.flushed.Clear (lx [] false)) (hsp : th.sp.toNat < 4) :
    exec .ret s = .next (s.flushed.trap Code.boundsStk
      (s.flushed.maskOf fun e => s.flushed.cur.active e.1 e.2) th.sp.toNat) := by
  refine congrArg Host.Outcome.next ?_
  rw [State.guarded_of_clear _ _ _ hclear, h.laneTrap_of_bad _ _ (decide_eq_true hsp)]
  dsimp only
  rw [offInfo_word]

end Sys2Proof.Machine

namespace Sys2Proof

open Machine

/-- Settles O13: a branch changes the threads that issue and nothing else (`State.mapLanes_become`), a call of one thread
enters its store in the FIFO with the room that it has (`State.Solo.callLanes_called`), where the call-graph prefetcher
changes what `State.Prefetched` names alone, and a return goes to the word that the thread reads (`execRet_goTo`). -/
theorem controlTransfers : Obligations.ControlTransfers := by
  unfold Obligations.ControlTransfers
  refine ⟨fun s u cc off hu => ?_, fun s u va off hu => ?_⟩
  · subst hu
    refine ⟨s.mapLanes_become _ _ fun _ _ => rfl, branchHolds_eq cc, fun hcc hclear => ?_, fun hcc hlanes => ?_,
      fun c ga m cr r => ⟨fun hc h => ?_, fun hc hlanes => ?_⟩⟩
    · have hlen : s.flushed.cur.length = 4 := Bundle.length_of_noPfx (hclear.noPfx rfl)
      have hnext : s.flushed.nextPc = s.cur.pc + 4#32 := by rw [State.nextPc, hlen]; rfl
      refine ⟨⟨_, rfl, ?_⟩, _, rfl, ?_⟩
      · rw [decide_eq_false hcc, State.guarded_of_clear _ _ _ hclear]
        refine State.mapLanes_become _ _ _ fun _ th => ?_
        rw [hlen, hnext, State.lbTarget_eq]
        rfl
      · rw [decide_eq_false hcc, State.guarded_of_clear _ _ _ hclear]
        refine State.mapLanes_become _ _ _ fun _ th => ?_
        rw [hlen, hnext, State.lbTarget_eq, Thread.goTo_rotated]
        rfl
    · refine congrArg Host.Outcome.next ?_
      rw [decide_eq_true hcc]
      simp [State.guarded, hlanes, State.opIllegal]
    · have ⟨hclear, _, hcr, hr, _⟩ := h
      have hlen : s.cur.length = 4 := Bundle.length_of_noPfx (hclear.noPfx rfl)
      refine ⟨_, rfl, ?_⟩
      rw [decide_eq_false (Nat.not_lt.2 hc), h.uniform_eq]
      refine s.mapLanes_become _ _ fun _ th => ?_
      rw [s.uread_eq ga cr r hcr hr, hlen, shiftLeft_two_eq_mul]
      simp only [uniformCond_iff hc]
    · refine congrArg Host.Outcome.next ?_
      simp [State.uniform, State.guarded, hlanes, State.opIllegal, hc]
  · subst hu
    refine ⟨fun hclear hok => ⟨_, rfl, ?_⟩, State.badTarget_eq_false_iff _, fun tid cr th h => ⟨fun hclear hsp hline hroom => ?_,
      fun hclear hsp => ?_, fun hclear hok hsp => ?_, fun hclear hok hsp hline hroom => ?_, fun hclear hbad => ?_,
      fun hclear hsp hline hpoison w hw hok => ?_, execRet_bounds h⟩⟩
    · rw [State.guarded_of_clear _ _ _ hclear, State.targetTrap, State.laneTrap_none _ _ _ _ fun e he => hok e.1 e.2 he]
      exact State.mapLanes_become _ _ _ fun _ _ => rfl
    · refine ⟨_, rfl, ?_⟩
      rw [State.guarded_of_clear _ _ _ hclear, State.lbTarget_eq]
      exact h.callLanes_called _ hsp hline hroom
    · exact congrArg Host.Outcome.next ((State.guarded_of_clear _ _ _ hclear).trans (h.callLanes_bounds _ hsp))
    · refine congrArg Host.Outcome.next ((State.guarded_of_clear _ _ _ hclear).trans ?_)
      rw [h.targetTrap_none _ hok]
      exact h.callLanes_bounds _ hsp
    · refine ⟨_, rfl, ?_⟩
      rw [State.guarded_of_clear _ _ _ hclear, h.targetTrap_none _ hok]
      exact h.callLanes_called _ hsp hline hroom
    · refine congrArg Host.Outcome.next ((State.guarded_of_clear _ _ _ hclear).trans ?_)
      rw [State.targetTrap, h.laneTrap_of_bad _ _ hbad]
      dsimp only
      rw [offInfo_word]
    · subst hw
      exact execRet_goTo h hclear hsp hline hpoison hok

end Sys2Proof
end

section
/-! SUPPORT. Regions, index registers, rotation and system registers (R121, R122, R161 to R165): the packing of an index
register, and instructions that change the active lanes and leave the others at the next instruction. -/

namespace Sys2Proof.Machine

open Sys2Proof

/-! ## Fields of a word -/

theorem bitsOf_toNat_eq_extractLsb' (w : Word) (hi lo n : Nat) (hn : n = hi + 1 - lo) :
    bitsOf w.toNat hi lo = (w.extractLsb' lo n).toNat := by
  subst hn
  rw [bitsOf, BitVec.extractLsb'_toNat, Nat.shiftRight_eq_div_pow]

/-- The packing of the region record (Table 6.6), read field by field. -/
theorem IxReg.unpack_eq (w : Word) : IxReg.unpack w =
    { base := (w.extractLsb' 0 8).toNat, len := (w.extractLsb' 8 9).toNat, cur := (w.extractLsb' 17 9).toNat } := by
  rw [IxReg.unpack, bitsOf_toNat_eq_extractLsb' w 7 0 8 rfl, bitsOf_toNat_eq_extractLsb' w 16 8 9 rfl,
    bitsOf_toNat_eq_extractLsb' w 25 17 9 rfl]

/-- A word that ix.set accepts (R163). -/
theorem ixRefused_eq_false {budget : Nat} {w : Word} (h0 : w.extractLsb' 26 6 = 0#6)
    (hfit : (w.extractLsb' 0 8).toNat + (w.extractLsb' 8 9).toNat ≤ budget)
    (hcur : (w.extractLsb' 17 9).toNat ≤ (w.extractLsb' 8 9).toNat) : ixRefused budget w = false := by
  unfold ixRefused
  rw [bitsOf_toNat_eq_extractLsb' w 31 26 6 rfl, h0, IxReg.unpack_eq]
  simp only [decide_eq_false (Nat.not_lt.2 hfit), decide_eq_false (Nat.not_lt.2 hcur), Bool.or_false]
  rfl

/-! ## Table 6.3 and Table 8.2 -/

theorem rotAllowed_eq_true {budget : Nat} {b size : BitVec 7} (hsize : size = 8#7 ∨ size = 16#7 ∨ size = 32#7)
    (hlow : 64 ≤ b.toNat) (hhigh : b.toNat + size.toNat ≤ 120) (halign : b.toNat % size.toNat = 0)
    (hfit : b.toNat + size.toNat ≤ budget) : rotAllowed budget b.toNat size.toNat = true := by
  have hs : size.toNat = 8 ∨ size.toNat = 16 ∨ size.toNat = 32 := by
    rcases hsize with rfl | rfl | rfl <;> simp
  simpa [rotAllowed, hlow, hhigh, halign, hfit, or_assoc] using hs

/-- sr.tick, sr.cycle and sr.launch are 64 bits wide. -/
theorem srWide_iff (n : BitVec 7) : srWide n.toNat = true ↔ n = 5#7 ∨ n = 6#7 ∨ n = 9#7 := by
  revert n
  decide

theorem State.sysRegs_eq (s : State) (cr : Crew) (tid : Nat) (th : Thread) : (List.range 12).map (s.sysReg cr tid th) =
    [BitVec.ofNat 64 tid, BitVec.ofNat 64 cr.index, BitVec.ofNat 64 th.role, BitVec.ofNat 64 (s.cur.laneOf tid),
      BitVec.ofNat 64 cr.width, BitVec.ofNat 64 (s.now / 1024),
      BitVec.ofNat 64 (s.now + Config.cycleOffset (clusterKey cr.die (cr.homeCluster th))),
      BitVec.ofNat 64 (cr.cluster + th.home), BitVec.ofNat 64 cr.die, cr.srLaunch, BitVec.ofNat 64 th.rb,
      match cr.role? th.role with
      | some r => r.uconf.setWidth 64
      | none => 0#64] := rfl

/-! ## The instructions -/

variable {s : State} {cr : Crew}

/-- Active lanes become their images, and the others only go on. -/
theorem State.mapLanes_activeBecome (s : State) {f g : Lane → Thread → Thread}
    (hf : ∀ l th, f l th = if s.cur.active l th then g l th else th.commit s.cur.length .now []) :
    s.ActiveBecome (s.mapLanes f) g := s.mapLanes_become _ _ hf

theorem execRgn_enters {a b : BitVec 7} {o : CodeObject} (hcr : s.crew? s.cur.crew = some cr)
    (ho : s.object? cr.ctx cr.obj = some o) (hn : a.toNat * 128 + b.toNat < o.lsets.length) (hclear : s.Clear (lx [] false))
    (hlive : ∀ l th r, (l, th) ∈ s.activeLanes → r ∈ o.lsets.getD (a.toNat * 128 + b.toNat) [] → r ∉ th.poison) :
    ∃ t, exec (.rgn a b) s = .next t ∧ s.ActiveBecome t fun _ th =>
      (th.commit s.cur.length .now []).enterRegion (a.toNat * 128 + b.toNat)
        (o.lsets.getD (a.toNat * 128 + b.toNat) []) := by
  have hcur : s.curCrew? = some cr := hcr
  have hclean : s.firstPoison
      (fun _ th => (o.lsets.getD (a.toNat * 128 + b.toNat) []).find? th.settledPoisoned) = none := by
    refine List.findSome?_eq_none_iff.2 fun e he => ?_
    rw [Option.map_eq_none_iff, List.find?_eq_none]
    intro r hr
    simp [Thread.settledPoisoned, hlive e.1 e.2 r he hr]
  refine ⟨_, rfl, ?_⟩
  simp only [hcur, ho]
  rw [decide_eq_false (Nat.not_le.2 hn), s.guarded_of_clear _ _ hclear, hclean]
  exact s.mapLanes_activeBecome fun _ _ => rfl

theorem execIxSet_sets {a : BitVec 7} {k : BitVec 2} (hclear : s.Clear (lx [lxSrc32 a] false))
    (hok : ∀ l th, (l, th) ∈ s.activeLanes → (th.read32 a).extractLsb' 26 6 = 0#6 ∧
      ((th.read32 a).extractLsb' 0 8).toNat + ((th.read32 a).extractLsb' 8 9).toNat ≤ s.curBudget ∧
      ((th.read32 a).extractLsb' 17 9).toNat ≤ ((th.read32 a).extractLsb' 8 9).toNat) :
    ∃ t, exec (.ixSet a k) s = .next t ∧ s.ActiveBecome t fun _ th =>
      (th.commit s.cur.length .now []).setIx k.toNat
        { base := ((th.read32 a).extractLsb' 0 8).toNat, len := ((th.read32 a).extractLsb' 8 9).toNat
          cur := ((th.read32 a).extractLsb' 17 9).toNat } := by
  refine ⟨_, rfl, ?_⟩
  rw [s.guarded_of_clear _ _ hclear, s.laneTrap_none _ _ _ fun e he => ?_]
  · exact s.mapLanes_activeBecome fun _ th => by rw [IxReg.unpack_eq]
  · obtain ⟨h0, hfit, hcur⟩ := hok e.1 e.2 he
    exact ixRefused_eq_false h0 hfit hcur

theorem execRotSet_off (hclear : s.Clear (lx [] false)) : ∃ t, exec (.rotSet 0#7 0#7) s = .next t ∧
    s.ActiveBecome t fun _ th => { th.commit s.cur.length .now [] with rot := none, rb := 0 } :=
  ⟨_, rfl, (s.guarded_of_clear _ _ hclear).symm ▸ s.mapLanes_activeBecome fun _ _ => rfl⟩

theorem execRotSet_on {b size : BitVec 7} (hclear : s.Clear (lx [] false)) (hsize : size = 8#7 ∨ size = 16#7 ∨ size = 32#7)
    (hallowed : rotAllowed s.curBudget b.toNat size.toNat = true) : ∃ t, exec (.rotSet b size) s = .next t ∧
      s.ActiveBecome t fun _ th =>
        { th.commit s.cur.length .now [] with rot := some (b.toNat, size.toNat), rb := 0 } := by
  have hon : (decide (b = 0#7) && decide (size = 0#7)) = false := by
    rcases hsize with rfl | rfl | rfl <;> simp
  refine ⟨_, rfl, ?_⟩
  simp only [hon, hallowed, Bool.not_true, Bool.and_false]
  rw [s.guarded_of_clear _ _ hclear]
  exact s.mapLanes_activeBecome fun _ _ => rfl

theorem execSrRd_reads {a n : BitVec 7} {la : BitVec 4} (hcr : s.crew? s.cur.crew = some cr) (hn : n.toNat ≤ 11)
    (hclear : s.Clear (lx [if n = 5#7 ∨ n = 6#7 ∨ n = 9#7 then lxDst64 a else lxDst32 a] false)) :
    ∃ t, exec (.srRd a n la) s = .next t ∧ s.ActiveBecome t fun l th =>
      th.commit s.cur.length (.after la.toNat)
        (if n = 5#7 ∨ n = 6#7 ∨ n = 9#7 then
          [(.reg (th.regOf a), lo32 (s.sysReg cr l.tid th n.toNat)),
            (.reg (th.regHiOf a), hi32 (s.sysReg cr l.tid th n.toNat))]
        else [(.reg (th.regOf a), lo32 (s.sysReg cr l.tid th n.toNat))]) := by
  have hcur : s.curCrew? = some cr := hcr
  refine ⟨_, rfl, ?_⟩
  simp only [srWide_iff, decide_eq_false (Nat.not_lt.2 hn), Thread.loadResults]
  rw [s.guarded_of_clear _ _ hclear, hcur]
  exact s.complete_become _ _

theorem execSpSet_sets {a : BitVec 7} (hcr : s.crew? s.cur.crew = some cr) (hclear : s.Clear (lx [lxSrc32 a] false))
    (hok : ∀ l th, (l, th) ∈ s.activeLanes → (th.read32 a).toNat ≤ cr.stackSize ∧ (th.read32 a).toNat % 4 = 0) :
    ∃ t, exec (.spSet a) s = .next t ∧ s.ActiveBecome t fun _ th =>
      { th.commit s.cur.length .now [] with sp := th.read32 a } := by
  have hcur : s.curCrew? = some cr := hcr
  refine ⟨_, rfl, ?_⟩
  rw [s.guarded_of_clear _ _ hclear, hcur]
  dsimp only
  rw [s.laneTrap_none Code.boundsStk _ _ fun e he => decide_eq_false (Nat.not_lt.2 (hok e.1 e.2 he).1)]
  dsimp only
  rw [s.laneTrap_none Code.align _ _ fun e he => decide_eq_false (not_not.2 (hok e.1 e.2 he).2)]
  exact s.mapLanes_activeBecome fun _ _ => rfl

end Sys2Proof.Machine

namespace Sys2Proof

open Machine

/-- Settles O14: each instruction completes in the active lanes, or changes them (`State.mapLanes_activeBecome`), once its
own checks pass; the packing of an index register is read field by field (`IxReg.unpack_eq`), and Table 8.2 is
`State.sysRegs_eq`. -/
theorem regionsIndexAndSystemRegisters : Obligations.RegionsIndexAndSystemRegisters := by
  unfold Obligations.RegionsIndexAndSystemRegisters
  intro s a b k la
  refine ⟨fun hclear => ⟨_, rfl, ?_⟩, fun cr o hcr ho n hn hlt hclear hlive => ?_, execIxSet_sets,
    fun hclear => ⟨⟨_, rfl, ?_⟩, _, rfl, ?_⟩, fun hclear => ⟨execRotSet_off hclear, fun hsize hlow hhigh halign hfit =>
      execRotSet_on hclear hsize (rotAllowed_eq_true hsize hlow hhigh halign hfit)⟩,
    fun cr hcr => ⟨fun n hn hclear => execSrRd_reads hcr hn hclear, s.sysRegs_eq cr, execSpSet_sets hcr⟩⟩
  · rw [s.guarded_of_clear _ _ hclear]
    exact s.completeNone_passed
  · subst hn
    exact execRgn_enters hcr ho hlt hclear hlive
  · rw [s.guarded_of_clear _ _ hclear]
    exact s.complete_become _ _
  · rw [s.guarded_of_clear _ _ hclear]
    exact s.complete_become _ _

end Sys2Proof
end

section
/-! SUPPORT. Traps of the words themselves, and the return from a trap (R66, R67, R75, R175, R178). -/

namespace Sys2Proof.Machine

open Sys2Proof

/-! ## The frame (Table 8.4) -/

/-- A run of bits of a number, read in a bit vector that holds the run. -/
theorem ofNat_bitsOf (n : Nat) {w lo k : Nat} (h : lo + k ≤ w) (hk : 0 < k) :
    BitVec.ofNat k (bitsOf n (lo + k - 1) lo) = (BitVec.ofNat w n).extractLsb' lo k := by
  refine BitVec.eq_of_getLsbD_eq fun i hi => ?_
  have hw : lo + i < w := by omega
  have hlen : lo + k - 1 + 1 - lo = k := by omega
  rw [BitVec.getLsbD_ofNat, BitVec.getLsbD_extractLsb', BitVec.getLsbD_ofNat, bitsOf, hlen, Nat.testBit_mod_two_pow,
    Nat.testBit_div_two_pow]
  simp [hi, hw, Nat.add_comm]

theorem frameResume_eq (f : Nat) : frameResume f = (BitVec.ofNat 512 f).extractLsb' 288 32 :=
  ofNat_bitsOf f (lo := 288) (k := 32) (by decide) (by decide)

theorem framePred_eq (f : Nat) : framePred f = (BitVec.ofNat 512 f).extractLsb' 352 7 :=
  ofNat_bitsOf f (lo := 352) (k := 7) (by decide) (by decide)

theorem Thread.leaveHandler_eq (th : Thread) (len : Nat) :
    th.leaveHandler len = { th.goTo len ((BitVec.ofNat 512 th.frame).extractLsb' 288 32) with
      preds := (BitVec.ofNat 512 th.frame).extractLsb' 352 7, sp := th.trapSp, inHandler := false } := by
  rw [Thread.leaveHandler, frameResume_eq, framePred_eq]

/-! ## trap, and the prefix word -/

/-- A check that every active lane fails traps the bundle with all of them. -/
theorem State.laneTrap_all {s : State} (h : s.activeLanes ≠ []) (code : Code) (n : Nat) :
    s.laneTrap code (fun _ _ => true) (fun _ _ => (n : Int)) =
      some (s.trap code (s.maskOf fun e => s.cur.active e.1 e.2) (offInfo n)) := by
  obtain ⟨e, es, he⟩ := List.exists_cons_of_ne_nil h
  simp [State.laneTrap, he]

theorem execTrap_eq {s : State} {hi lo : BitVec 7} (hclear : s.flushed.Clear (lx [] false))
    (hlanes : s.flushed.activeLanes ≠ []) :
    exec (.trap hi lo) s = .next (s.flushed.trap Code.trapSw (s.flushed.maskOf fun e => s.flushed.cur.active e.1 e.2)
      (hi.toNat * 128 + lo.toNat)) := by
  have hn : hi.toNat * 128 + lo.toNat < 2 ^ 64 := by omega
  refine congrArg Host.Outcome.next ?_
  rw [State.guarded_of_clear _ _ _ hclear, State.laneTrap_all hlanes]
  dsimp only
  rw [offInfo_natCast hn]

/-- What a prefix word leaves for the next word of the bundle. -/
def State.prefixOf (s : State) (p r : BitVec 3) (z n : Bool) (vc : BitVec 7) : PrefixWord :=
  { word := s.cur.word, pred := p, mz := z, rnd := r, vc := vc, neg := n, clean := s.cur.word.extractLsb' 0 10 = 0#10 }

theorem execPfx_first {s : State} (hlanes : s.curLanes ≠ []) (hpfx : s.cur.pfx = none) (p r : BitVec 3) (z n : Bool)
    (vc : BitVec 7) : exec (.pfx p z r vc n) s =
      .next { s with cur := { s.cur with pfx := some (s.prefixOf p r z n vc) } } := by
  have hnone : ¬s.cur.pfx.isSome = true := by simp [hpfx]
  exact congrArg Host.Outcome.next ((if_neg hlanes).trans (if_neg hnone))

theorem execPfx_second {s : State} (hlanes : s.curLanes ≠ []) (hpfx : s.cur.pfx.isSome = true) (p r : BitVec 3)
    (z n : Bool) (vc : BitVec 7) : exec (.pfx p z r vc n) s = .next s.illegalPrefix :=
  congrArg Host.Outcome.next ((if_neg hlanes).trans (if_pos hpfx))

/-! ## tret (R178) -/

section
variable {s : State} {tid : Nat} {cr : Crew} {th : Thread}

/-- The frame's lines, where the stack's lines from the frame's first byte on are there. -/
theorem Thread.stackAbsent_frame {a : Nat} (hsp : 256 ≤ th.sp.toNat)
    (h : ∀ a, th.sp.toNat - 256 ≤ a → a < th.sp.toNat - 192 → th.stackAbsent.contains (a / 64) = false)
    (ha : a = th.sp.toNat - 256 ∨ a = th.sp.toNat - 193) : th.stackAbsent.contains (a / 64) = false :=
  h a (by omega) (by omega)

theorem execTret_outside (h : s.flushed.Solo tid cr th) (hclear : s.flushed.Clear (lx [] false))
    (hin : th.inHandler = false) :
    exec .tret s = .next (s.flushed.trap Code.illegalOp (s.flushed.maskOf fun e => s.flushed.cur.active e.1 e.2) 0) := by
  refine congrArg Host.Outcome.next ?_
  rw [State.guarded_of_clear _ _ _ hclear, h.laneTrap_of_bad _ _ (by rw [hin]; rfl)]
  rfl

theorem execTret_bounds (h : s.flushed.Solo tid cr th) (hclear : s.flushed.Clear (lx [] false))
    (hin : th.inHandler = true) (hsp : th.sp.toNat < 256 ∨ cr.stackSize < th.sp.toNat) :
    exec .tret s = .next (s.flushed.trap Code.boundsStk (s.flushed.maskOf fun e => s.flushed.cur.active e.1 e.2)
      th.sp.toNat) := by
  refine congrArg Host.Outcome.next ?_
  rw [State.guarded_of_clear _ _ _ hclear, h.laneTrap _ _ _ (by rw [hin]; rfl)]
  dsimp only
  rw [h.curCrew]
  dsimp only
  rw [h.laneTrap_of_bad _ _ (by simpa using hsp)]
  dsimp only
  rw [offInfo_word]

theorem execTret_leaves (h : s.flushed.Solo tid cr th) (hclear : s.flushed.Clear (lx [] false))
    (hin : th.inHandler = true) (hlo : 256 ≤ th.sp.toNat) (hhi : th.sp.toNat ≤ cr.stackSize)
    (hpoison : s.flushed.spacePoison cr th .stk (th.sp.toNat - 256) 48 false = none)
    (hlines : ∀ a, th.sp.toNat - 256 ≤ a → a < th.sp.toNat - 192 → th.stackAbsent.contains (a / 64) = false)
    (htarget : s.flushed.badTarget (frameResume th.frame) = false) :
    ∃ t, exec .tret s = .next t ∧ s.flushed.OnlyThread t tid (th.leaveHandler s.flushed.cur.length) := by
  have hoff : ((th.sp.toNat : Int) - 256).toNat = th.sp.toNat - 256 := by omega
  have hline : ∀ a, a = th.sp.toNat - 256 ∨ a = th.sp.toNat - 193 → s.flushed.lineState cr th .stk a = .ready := fun a ha =>
    State.lineState_stk_ready _ cr (Thread.stackAbsent_frame hlo hlines ha)
  refine ⟨_, rfl, ?_⟩
  rw [State.guarded_of_clear _ _ _ hclear, h.laneTrap _ _ _ (by rw [hin]; rfl)]
  dsimp only
  rw [h.curCrew]
  dsimp only
  rw [h.laneTrap _ _ _ (by simp [hlo, hhi])]
  dsimp only
  rw [h.lanePoison _ _ _ _ (by rw [hoff]; exact hpoison)]
  dsimp only
  rw [h.laneTrap _ _ _ (by rw [htarget, Bool.and_false])]
  dsimp only
  rw [h.lanewise, h.withLine _ _ _ (hline _ (.inl rfl)), h.withLine _ _ _ (hline _ (.inr rfl))]
  exact State.onlyThread_modThread _ tid th _ h.thread

end

end Sys2Proof.Machine

namespace Sys2Proof

open Machine

/-- Settles O25: each word's own branch, and `tret` through its checks in the order of R178 (`execTret_leaves`), the frame
read as the thread reads its stack (`Thread.leaveHandler_eq`). -/
theorem trapsAndReturn : Obligations.TrapsAndReturn := by
  unfold Obligations.TrapsAndReturn
  intro s u hu
  subst hu
  refine ⟨fun hi lo => execTrap_eq, fun hlanes w => congrArg Host.Outcome.next (if_neg hlanes),
    fun hlanes p r z n vc => ⟨fun hpfx => execPfx_second hlanes hpfx p r z n vc, fun hpfx => ?_⟩,
    fun tid cr th h hclear => ⟨execTret_outside h hclear, execTret_bounds h hclear,
      fun hin hlo hhi hpoison hlines f hf htarget => ?_⟩⟩
  · refine ⟨_, _, execPfx_first hlanes hpfx p r z n vc, rfl, rfl, rfl, decide_eq_true_iff, rfl, ?_⟩
    have hcur : { s.cur with pfx := none } = s.cur := hpfx ▸ rfl
    exact hcur
  · subst hf
    rw [← frameResume_eq] at htarget
    rw [← Thread.frame, ← th.leaveHandler_eq]
    exact execTret_leaves h hclear hin hlo hhi hpoison hlines htarget

end Sys2Proof
end

section
/-! SUPPORT. Uniform accesses (R157): the one check of R27, a bundle that parks as a whole, and the drain of an empty
FIFO. -/

namespace Sys2Proof.Machine

open Sys2Proof

variable {s : State}

/-! ## A bundle parks (R157) -/

/-- A thread parked at the bundle's instruction, as the n-th to park. -/
def State.parkedThread (s : State) (w : Wait) (n : Nat) (th : Thread) : Thread :=
  { th with
    wait := some w, parkSeq := n, parkLen := s.cur.length, parkWord := s.cur.word, parkPfx := s.cur.pfxWord
    parkIssue := s.cur.seq }

/-- Some threads of the bundle's crew have parked at its instruction, and nothing else has changed but the count. -/
structure State.HaveParked (s t : State) (w : Wait) (ids : List Nat) : Prop where
  cur : t.cur = s.cur
  crewOnly : s.CrewOnly { t with nextSeq := s.nextSeq }
  bare : (t.crew? s.cur.crew).map Crew.bare = (s.crew? s.cur.crew).map Crew.bare
  others : ∀ u, u ∉ ids → t.thread? s.cur.crew u = s.thread? s.cur.crew u
  parked : ∀ u ∈ ids, ∀ th, s.thread? s.cur.crew u = some th →
    ∃ n, t.thread? s.cur.crew u = some (s.parkedThread w n th)

theorem State.park_thread (s : State) (tid u : Nat) (w : Wait) (th : Thread) (h : s.thread? s.cur.crew u = some th) :
    (s.park s.cur.crew tid w).thread? s.cur.crew u = some (if u = tid then
      s.parkedThread w (if th.wait = some w then th.parkSeq else s.nextSeq) th else th) := by
  refine (State.thread?_modThread s s.cur.crew s.cur.crew tid u _).trans ?_
  rw [h]
  by_cases hu : u = tid
  · rw [if_pos ⟨rfl, hu⟩, if_pos hu]
    rfl
  · rw [if_neg fun e => hu e.2, if_neg hu]

theorem State.crew?_park_ne (s : State) (tid c : Nat) (w : Wait) (hc : c ≠ s.cur.crew) :
    (s.park s.cur.crew tid w).crew? c = s.crew? c :=
  (State.crew?_modCrew s s.cur.crew c fun cr => cr.modThread tid fun th =>
    s.parkedThread w (if th.wait = some w then th.parkSeq else s.nextSeq) th).trans (if_neg hc)

theorem State.HaveParked.start (s : State) (w : Wait) : s.HaveParked s w [] where
  cur := rfl
  crewOnly := ⟨rfl, fun _ _ => rfl⟩
  bare := rfl
  others _ _ := rfl
  parked _ h := nomatch h

/-- One more thread parks, or one that has parked parks again. -/
theorem State.HaveParked.park {t : State} {w : Wait} {ids : List Nat} (h : s.HaveParked t w ids) (tid : Nat) :
    s.HaveParked (t.park t.cur.crew tid w) w (tid :: ids) := by
  obtain ⟨hcur, hcrewOnly, hbare, hothers, hparked⟩ := h
  have hthread : ∀ u th, t.thread? s.cur.crew u = some th → (t.park t.cur.crew tid w).thread? s.cur.crew u =
      some (if u = tid then t.parkedThread w (if th.wait = some w then th.parkSeq else t.nextSeq) th else th) := by
    rw [← hcur]
    exact fun u => t.park_thread tid u w
  have hform : ∀ n m th, t.parkedThread w n (s.parkedThread w m th) = s.parkedThread w n th := fun n m th => by
    unfold State.parkedThread
    rw [hcur]
  refine ⟨hcur, ⟨hcrewOnly.1, fun c hc => ?_⟩, ?_, fun u hu => ?_, fun u hu th hth => ?_⟩
  · exact (t.crew?_park_ne tid c w (hcur ▸ hc)).trans (hcrewOnly.2 c hc)
  · exact (t.crew?_modThread_bare _ _ tid _).trans hbare
  · have hu : u ≠ tid ∧ u ∉ ids := by simpa using hu
    exact ((t.thread?_modThread _ _ tid u _).trans (if_neg fun e => hu.1 e.2)).trans (hothers u hu.2)
  · by_cases hid : u ∈ ids
    · obtain ⟨n, hn⟩ := hparked u hid th hth
      rw [hthread u _ hn]
      split
      · exact ⟨_, congrArg some (hform _ n th)⟩
      · exact ⟨n, rfl⟩
    · have hself : u = tid := by simpa [hid] using hu
      rw [hthread u th ((hothers u hid).trans hth), if_pos hself]
      exact ⟨_, congrArg some (hform _ 0 th)⟩

theorem State.HaveParked.parkAll {t : State} {w : Wait} (tids : List Nat) {ids : List Nat} (h : s.HaveParked t w ids) :
    ∃ all, (∀ u, u ∈ all ↔ u ∈ tids ∨ u ∈ ids) ∧
      s.HaveParked (tids.foldl (fun (t : State) tid => t.park t.cur.crew tid w) t) w all := by
  induction tids generalizing t ids with
  | nil => exact ⟨ids, by simp, h⟩
  | cons tid tids ih =>
    obtain ⟨all, hall, hp⟩ := ih (h.park tid)
    refine ⟨all, fun u => ?_, hp⟩
    rw [hall, List.mem_cons, List.mem_cons]
    exact or_left_comm.trans or_assoc.symm

theorem State.parkBundle_parks (s : State) (w : Wait) : s.BundleParks (s.parkBundle w) w := by
  obtain ⟨all, hall, hp⟩ := (State.HaveParked.start s w).parkAll s.cur.tids
  have hmem : ∀ u, u ∈ all ↔ u ∈ s.cur.tids := fun u => by simp [hall]
  refine ⟨⟨hp.crewOnly, hp.bare, fun u hu => hp.others u ((hmem u).not.2 hu)⟩, fun l th hl hissued hth => ?_⟩
  obtain ⟨n, hn⟩ := hp.parked l.tid ((hmem _).2 ((s.cur.mem_tids _).2 ⟨l, hl, hissued, rfl⟩)) th hth
  exact ⟨_, hn, rfl⟩

/-! ## The thread of the access -/

/-- A FIFO that is empty does not drain. -/
theorem State.drainFifo_of_empty {c tid : Nat} {th : Thread} (hth : s.thread? c tid = some th) (hfifo : th.fifo = []) :
    s.drainFifo c tid = s := by
  have hhead : s.drainHead c tid = (s, false) := by
    cases hcr : s.crew? c with
    | none => simp only [State.drainHead, hcr]
    | some cr =>
      rw [s.thread?_of_crew c tid cr hcr] at hth
      simp only [State.drainHead, hcr, hth, hfifo]
  rw [State.drainFifo, fifoDepth, State.drainUpTo, hhead]
  rfl

/-! ## The one check of R27 -/

variable {cr : Crew} {r : Role} {a : BitVec 6} {sp : Space} {at0 : Int} {n : Nat} {l : Lane} {th : Thread} {w : Wait}
  {go : State → Crew → Nat → Thread → State}

theorem State.gmAddr_eq (hcr : s.crew? s.cur.crew = some cr) (hr : cr.role? s.curRole = some r) (off : BitVec 7) :
    s.gmAddr a off n = ((lo32 (r.uread a.toNat)).toNat : Int) + off.toInt * n := by
  rw [State.gmAddr, s.uread_eq a cr r hcr hr]

theorem State.uniformAccess_bounds (hcr : s.crew? s.cur.crew = some cr) (hb : s.inBounds cr sp at0 n = false) :
    s.uniformAccess sp n at0 w go = s.trap (boundsCode sp) s.fullMask (BitVec.ofInt 64 at0).toNat := by
  have htrap : s.uniformTrap cr sp at0 n = some (s.trap (boundsCode sp) s.fullMask (offInfo at0)) :=
    if_pos (by rw [hb]; rfl)
  unfold State.uniformAccess State.curCrew?
  rw [hcr]
  dsimp only
  rw [htrap]
  rfl

theorem State.uniformAccess_align (hcr : s.crew? s.cur.crew = some cr) (hb : s.inBounds cr sp at0 n = true)
    (hal : at0 % n ≠ 0) :
    s.uniformAccess sp n at0 w go = s.trap Code.align s.fullMask (BitVec.ofInt 64 at0).toNat := by
  have htrap : s.uniformTrap cr sp at0 n = some (s.trap Code.align s.fullMask (offInfo at0)) :=
    (if_neg (by simp [hb])).trans (if_pos hal)
  unfold State.uniformAccess State.curCrew?
  rw [hcr]
  dsimp only
  rw [htrap]
  rfl

/-- The access that passes the check goes on where its line is there (R19). -/
theorem State.uniformAccess_ready (hcr : s.crew? s.cur.crew = some cr) (hb : s.inBounds cr sp at0 n = true)
    (hal : at0 % n = 0) (hfind : s.curLanes.find? (fun e => e.1.issued) = some (l, th))
    (hline : s.lineState cr th sp at0.toNat = .ready) : s.uniformAccess sp n at0 w go = go s cr l.tid th := by
  have htrap : s.uniformTrap cr sp at0 n = none := (if_neg (by simp [hb])).trans (if_neg (by simp [hal]))
  simp only [State.uniformAccess, State.curCrew?, hcr, htrap, hfind, hline]

/-- On an absent line the bundle parks as a whole (R157). -/
theorem State.uniformAccess_waits {x : Wait} (hcr : s.crew? s.cur.crew = some cr) (hb : s.inBounds cr sp at0 n = true)
    (hal : at0 % n = 0) (hfind : s.curLanes.find? (fun e => e.1.issued) = some (l, th))
    (hline : s.lineState cr th sp at0.toNat = .waits x) : s.BundleParks (s.uniformAccess sp n at0 w go) w := by
  have htrap : s.uniformTrap cr sp at0 n = none := (if_neg (by simp [hb])).trans (if_neg (by simp [hal]))
  simp only [State.uniformAccess, State.curCrew?, hcr, htrap, hfind, hline]
  exact s.parkBundle_parks w

/-! ## Uniform loads and stores of a space -/

/-- What a uniform load does where its line is there. -/
def uloadEffect (d : BitVec 6) (sp : Space) (off n : Nat) (s : State) (cr : Crew) (tid : Nat) (th : Thread) : State :=
  match s.spacePoison cr th sp off n false with
  | some info => s.consume (poisonCode sp) (info, tid)
  | none => (s.uwrite d (s.seen cr th sp off n)).completeNone

/-- What a uniform store of a value does where its line is there. -/
def ustoreEffect (v : Nat) (w : Wait) (sp : Space) (off n : Nat) (s : State) (_ : Crew) (tid : Nat) (_ : Thread) : State :=
  let t := s.drainFifo s.cur.crew tid
  if !t.stillHere tid then t
  else if !t.fifoEmpty t.cur.crew tid then t.parkBundle w
  else (t.writeSpace tid sp off (leBytes v n)).completeNone

theorem uloadEffect_wrote {off tid : Nat} (d : BitVec 6) (hcr : s.crew? s.cur.crew = some cr)
    (hr : cr.role? s.curRole = some r) (hpoison : s.spacePoison cr th sp off n false = none) :
    s.UniformWrote (uloadEffect d sp off n s cr tid th) cr r d (s.seen cr th sp off n) := by
  rw [uloadEffect, hpoison]
  exact s.uwrite_wrote d _ cr r hcr hr

theorem ustoreEffect_passed {v off tid : Nat} (hth : s.thread? s.cur.crew tid = some th) (hfifo : th.fifo = [])
    (hended : th.ended = false) (hpc : th.pc = s.cur.pc) :
    ((s.modThread s.cur.crew tid fun u => u.rearmNt sp off n).performStore s.cur.crew tid
      (s.storeEntry sp off (leBytes v n))).Passed (ustoreEffect v w sp off n s cr tid th) := by
  have hhere : s.stillHere tid = true := by simp [State.stillHere, hth, hended, hpc]
  have hempty : s.fifoEmpty s.cur.crew tid = true := by simp [State.fifoEmpty, hth, hfifo]
  unfold ustoreEffect
  rw [State.drainFifo_of_empty hth hfifo]
  dsimp only
  rw [hhere, hempty, if_neg (by simp), if_neg (by simp), State.writeSpace, leBytes_length]
  exact State.completeNone_passed _

section
variable {d : BitVec 6} {sz : BitVec 2} {off : BitVec 7}
  (hn : n = 2 ^ sz.toNat) (hat : at0 = ((lo32 (r.uread a.toNat)).toNat : Int) + off.toInt * n)
include hn hat

/-- A uniform load is one access of the bundle. -/
theorem State.UniformClear.uload_eq (h : s.UniformClear [] [a] [d] cr r [accessUse, uconfUse]) (sp : Space) :
    s.uload sp d a sz off = s.uniformAccess sp n at0 (.uniformLine at0.toNat [a.toNat] [d.toNat, accessUse, uconfUse])
      (uloadEffect d sp at0.toNat n) := by
  have ⟨_, _, hcr, hr, _⟩ := h
  subst hn
  rw [State.uload, h.uniform_eq]
  dsimp only [sizeOf2]
  rw [s.gmAddr_eq hcr hr, ← hat]
  rfl

/-- A uniform store is one access of the bundle. -/
theorem State.UniformClear.ustore_eq (h : s.UniformClear [] [d, a] [] cr r [accessUse]) (sp : Space) :
    s.ustore sp d a sz off = s.uniformAccess sp n at0 (.uniformLine at0.toNat [d.toNat, a.toNat] [accessUse])
      (ustoreEffect (r.uread d.toNat).toNat (.uniformLine at0.toNat [d.toNat, a.toNat] [accessUse]) sp at0.toNat n) := by
  have ⟨_, _, hcr, hr, _⟩ := h
  subst hn
  rw [State.ustore, h.uniform_eq]
  dsimp only [sizeOf2]
  rw [s.gmAddr_eq hcr hr, ← hat, s.uread_eq d cr r hcr hr]
  rfl

end

end Sys2Proof.Machine

namespace Sys2Proof

open Machine

/-- Settles O19: a load or a store of either space is one access of the bundle (`State.UniformClear.uload_eq`,
`State.UniformClear.ustore_eq`), in front of which the one check of R27 stands (`State.uniformAccess_bounds`,
`State.uniformAccess_align`). -/
theorem uniformAccesses : Obligations.UniformAccesses := by
  unfold Obligations.UniformAccesses
  intro s d a sz la off cr r l th n at0 hn hat hfind
  have hth : s.thread? s.cur.crew l.tid = some th := ((s.mem_curLanes (l, th)).1 (List.mem_of_find?_eq_some hfind)).2
  have load := fun sp (h : s.UniformClear [] [a] [d] cr r [accessUse, uconfUse]) => h.uload_eq hn hat sp
  have store := fun sp (h : s.UniformClear [] [d, a] [] cr r [accessUse]) => h.ustore_eq hn hat sp
  refine ⟨fun h => ?_, fun h => ?_, fun h => ?_, fun h => ?_, fun hb hal hline => ⟨fun h => ?_, fun h => ?_⟩⟩
  · have ⟨_, _, hcr, hr, _⟩ := h
    have heq := load .sh h
    refine ⟨fun hb hal hline hpoison => ⟨_, rfl, ?_⟩, fun hb => congrArg Host.Outcome.next ?_, fun hb hal => congrArg Host.Outcome.next ?_⟩
    · rw [heq, State.uniformAccess_ready hcr hb hal hfind hline]
      exact uloadEffect_wrote d hcr hr hpoison
    · exact heq.trans (State.uniformAccess_bounds hcr hb)
    · exact heq.trans (State.uniformAccess_align hcr hb hal)
  · have ⟨_, _, hcr, hr, _⟩ := h
    have heq := store .sh h
    refine ⟨fun hb hal hline hfifo hended hpc => ⟨_, rfl, ?_⟩, fun hb => congrArg Host.Outcome.next ?_, fun hb hal => congrArg Host.Outcome.next ?_⟩
    · rw [heq, State.uniformAccess_ready hcr hb hal hfind hline]
      exact ustoreEffect_passed hth hfifo hended hpc
    · exact heq.trans (State.uniformAccess_bounds hcr hb)
    · exact heq.trans (State.uniformAccess_align hcr hb hal)
  · have ⟨_, _, hcr, hr, _⟩ := h
    have heq := load .die h
    refine ⟨fun hb hal hline hpoison => ⟨_, rfl, ?_⟩, fun hb => congrArg Host.Outcome.next ?_, fun hb hal => congrArg Host.Outcome.next ?_⟩
    · rw [heq, State.uniformAccess_ready hcr hb hal hfind hline]
      exact uloadEffect_wrote d hcr hr hpoison
    · exact heq.trans (State.uniformAccess_bounds hcr hb)
    · exact heq.trans (State.uniformAccess_align hcr hb hal)
  · have ⟨_, _, hcr, hr, _⟩ := h
    have heq := store .die h
    refine ⟨fun hb hal hline hfifo hended hpc => ⟨_, rfl, ?_⟩, fun hb => congrArg Host.Outcome.next ?_, fun hb hal => congrArg Host.Outcome.next ?_⟩
    · rw [heq, State.uniformAccess_ready hcr hb hal hfind hline]
      exact ustoreEffect_passed hth hfifo hended hpc
    · exact heq.trans (State.uniformAccess_bounds hcr hb)
    · exact heq.trans (State.uniformAccess_align hcr hb hal)
  · have ⟨_, _, hcr, _⟩ := h
    exact ⟨_, rfl, load .die h ▸ State.uniformAccess_waits hcr hb hal hfind hline⟩
  · have ⟨_, _, hcr, _⟩ := h
    exact ⟨_, rfl, store .die h ▸ State.uniformAccess_waits hcr hb hal hfind hline⟩

end Sys2Proof
end

section
/-! SUPPORT. Local loads (R152, R154): what a lane reads while the lanes before it complete, and the fleeting miss
(R218). -/

namespace Sys2Proof.Machine

open Sys2Proof

variable {s t : State} {cr cr' : Crew} {th : Thread} {tid : Nat}

/-! ## What a lane finds while the lanes before it complete -/

/-- A lane meets its line as it stands, whatever the threads of the crew have become. -/
theorem State.SameBut.lineState (h : s.SameBut t) (hbare : cr'.bare = cr.bare) (th : Thread) (sp : Space) (a : Nat) :
    t.lineState cr' th sp a = s.lineState cr th sp a := by
  rw [h.state, Crew.of_bare cr' cr hbare]
  cases sp <;> rfl

/-- Memory reads as it does, whatever the threads of the crew have become. -/
theorem State.SameBut.readSpace (h : s.SameBut t) (hbare : cr'.bare = cr.bare) (th : Thread) (sp : Space) (a n : Nat) :
    t.readSpace cr' th sp a n = s.readSpace cr th sp a n := by
  rw [h.state, Crew.of_bare cr' cr hbare]
  cases sp <;> rfl

theorem State.SameBut.seen (h : s.SameBut t) (hbare : cr'.bare = cr.bare) (th : Thread) (sp : Space) (a n : Nat) :
    t.seen cr' th sp a n = s.seen cr th sp a n := by
  rw [State.seen, h.readSpace hbare, State.seen]

/-- The thread of a lane, where its line is ready. -/
theorem State.withLine_ready {sp : Space} {off : Nat} (hcr : s.crew? s.cur.crew = some cr)
    (hth : Table.get? cr.threads tid = some th) (hline : s.lineState cr th sp off = .ready) (go : State → State) :
    s.withLine tid sp off go = go s := by
  simp only [State.withLine, hcr, hth, hline]

/-- A lane's load outside fleeting memory: its thread completes with what it sees. -/
theorem State.loadLane_of_ready {sp : Space} {off : Nat} (hsp : sp ≠ .fl) (hcr : s.crew? s.cur.crew = some cr)
    (hth : Table.get? cr.threads tid = some th) (hline : s.lineState cr th sp off = .ready) (n : Nat) (vd : BitVec 7) (la : Nat)
    (os : List Opnd) : s.loadLane sp n off vd la os tid =
      s.finishLane tid (.after la) (th.loadResults vd (n = 8) (s.seen cr th sp off n)) os := by
  unfold State.loadLane
  rw [State.withLine_ready hcr hth hline]
  simp only [hcr, hth, if_neg hsp, State.seen]

/-! ## Errors -/

/-- No active lane reads an error, where each reads none. -/
theorem State.loadPoison_none {sp : Space} {n : Nat} {addr : Thread → Int} (strong : Bool)
    (hcr : s.crew? s.cur.crew = some cr)
    (h : ∀ e ∈ s.activeLanes, s.spacePoison cr e.2 sp (addr e.2).toNat n false = none) :
    s.loadPoison sp n strong (fun _ th => addr th) = none := by
  simp only [State.loadPoison, State.curCrew?, hcr, State.firstPoison]
  refine List.findSome?_eq_none_iff.2 fun e he => ?_
  rw [h e he]
  split <;> rfl

theorem State.CrewOnly.cur (h : s.CrewOnly t) : t.cur = s.cur := (congrArg State.cur h.1 :)

/-- No error was consumed in an instruction that leaves that of its crew. -/
theorem State.unlessConsumed_of_bare {b : Crew} (hcur : t.cur = s.cur) (hcr : s.crew? s.cur.crew = some cr)
    (hb : (t.crew? s.cur.crew).map Crew.bare = some b) (hc : b.consumed = cr.consumed) : s.unlessConsumed t = t := by
  obtain ⟨y, hy, hyb⟩ := Option.map_eq_some_iff.1 hb
  have hyc : y.consumed = cr.consumed := (congrArg Crew.consumed hyb :).trans hc
  unfold State.unlessConsumed State.curCrew?
  rw [hcur, hcr, hy]
  dsimp only
  rw [hyc]
  cases hcons : cr.consumed with
  | none => rfl
  | some x => rfl

/-! ## Loads of the spaces but fleeting memory -/

theorem State.loads_become {sp : Space} {n : Nat} {strong : Bool} {addr : Thread → Int} {l : Legality} (hsp : sp ≠ .fl)
    (vd : BitVec 7) (la : BitVec 4) (hcr : s.crew? s.cur.crew = some cr) (hclear : s.Clear l) (hd : s.Distinct)
    (hreach : s.Reaches cr sp n addr)
    (hpoison : ∀ e ∈ s.activeLanes, s.spacePoison cr e.2 sp (addr e.2).toNat n false = none)
    (hstrong : strong = true → ∀ e ∈ s.activeLanes, e.2.awaitsStrong sp (addr e.2).toNat n = false) :
    s.LanesBecome (s.loads sp n vd la strong (fun _ th => addr th) l) fun ln th =>
      if s.cur.active ln th then
        (th.commit s.cur.length (.after la.toNat)
          (th.loadResults vd (n = 8) (s.seen cr th sp (addr th).toNat n))).advanceIx l.opnds
      else th.commit s.cur.length (.after la.toNat) (if s.cur.mz then th.loadResults vd (n = 8) 0#64 else []) := by
  unfold State.loads
  rw [State.guarded_of_clear _ _ _ hclear, State.addressTrap_none _ _ _ _ _ hcr hreach]
  dsimp only
  rw [State.loadPoison_none strong hcr hpoison]
  dsimp only
  have hlanes := s.lanewise_own (.after la.toNat) (fun th => th.loadResults vd (n = 8) 0#64)
    (fun t ln th => if th.loadDrains sp (addr th).toNat n strong then
        t.drained ln.tid (some sp) .fence fun t =>
          t.unlessPoisoned sp n (addr th).toNat ln.tid fun t => t.loadLane sp n (addr th).toNat vd la.toNat l.opnds ln.tid
      else t.loadLane sp n (addr th).toNat vd la.toNat l.opnds ln.tid)
    (fun _ th u => (u.commit s.cur.length (.after la.toNat)
      (th.loadResults vd (n = 8) (s.seen cr th sp (addr th).toNat n))).advanceIx l.opnds) hd ?_
  · split
    · rwa [State.unlessConsumed_of_bare hlanes.1.1.cur hcr (hlanes.1.2.1.trans (congrArg (Option.map Crew.bare) hcr)) rfl]
    · exact hlanes
  · intro t e he ht hth
    obtain ⟨cr', hcr', hbare⟩ := ht.crew cr hcr
    have hcur : t.cur = s.cur := ht.1
    have hdrains : e.2.loadDrains sp (addr e.2).toNat n strong = false := by
      cases hs : strong
      · simp [Thread.loadDrains, hsp]
      · simp [Thread.loadDrains, hsp, hstrong hs e he]
    rw [hdrains, if_neg (by simp)]
    rw [← hcur] at hcr'
    rw [State.loadLane_of_ready hsp hcr' ((t.thread?_of_crew _ _ _ hcr').symm.trans (hcur ▸ hth))
      ((ht.lineState hbare _ _ _).trans (hreach e he).2.2), ht.seen hbare, State.finishLane, hcur]

theorem State.loads_gives {sp : Space} {n : Nat} {strong : Bool} {addr : Thread → Int} {l : Legality} {i : Instr}
    {vd : BitVec 7} {la : BitVec 4} (hsp : sp ≠ .fl)
    (hi : exec i s = .next (s.loads sp n vd la strong (fun _ th => addr th) l)) :
    s.LoadsGive i sp n vd la.toNat strong addr l :=
  fun _ hcr hclear hd hreach hpoison hstrong =>
    ⟨_, hi, State.loads_become hsp vd la hcr hclear hd hreach hpoison hstrong⟩

/-! ## The fleeting load of one thread (R218) -/

theorem fifoCovers_of_other {fifo : List StoreEntry} {sp : Space} (h : ∀ e ∈ fifo, e.space ≠ sp) (a : Nat) :
    fifoCovers fifo sp a = false := by
  simp only [fifoCovers, List.any_eq_false]
  intro e he
  simp [h e he]

/-- Where the thread's FIFO holds no store to the space, a read meets the same errors before its stores as after them. -/
theorem State.spacePoison_drains {sp : Space} (h : ∀ e ∈ th.fifo, e.space ≠ sp) (s : State) (cr : Crew) (off n : Nat) :
    s.spacePoison cr th sp off n false = s.spacePoison cr th sp off n true := by
  simp [State.spacePoison, fifoCovers_of_other h]

theorem State.Solo.drained_of_other {sp : Space} (h : s.Solo tid cr th) (hfifo : ∀ e ∈ th.fifo, e.space ≠ sp) (w : Wait)
    (go : State → State) : s.drained tid (some sp) w go = go s := by
  have hpending : (th.fifo.any fun e => decide (e.space = sp)) = false := by
    simpa only [List.any_eq_false, decide_eq_true_eq] using hfifo
  unfold State.drained
  simp [h.thread, hpending]

theorem State.Solo.unlessPoisoned {sp : Space} {off n : Nat} (h : s.Solo tid cr th)
    (hpoison : s.spacePoison cr th sp off n false = none) (go : State → State) :
    s.unlessPoisoned sp n off tid go = go s := by
  have hget : Table.get? cr.threads tid = some th := h.2.2.1
  unfold State.unlessPoisoned
  rw [h.curCrew]
  simp [hget, hpoison]

/-- What a fleeting load of one thread does is the load of its lane. -/
theorem State.Solo.loads_fleeting {n : Nat} {addr : Thread → Int} {l : Legality} (h : s.Solo tid cr th) (hclear : s.Clear l)
    (hreach : s.Reaches cr .fl n addr) (hpoison : s.spacePoison cr th .fl (addr th).toNat n true = none)
    (hfifo : ∀ e ∈ th.fifo, e.space ≠ .fl) (vd : BitVec 7) (la : BitVec 4) (strong : Bool) :
    s.loads .fl n vd la strong (fun _ th => addr th) l =
      s.unlessConsumed (s.loadLane .fl n (addr th).toNat vd la.toNat l.opnds tid) := by
  have hpoison' : s.spacePoison cr th .fl (addr th).toNat n false = none :=
    (State.spacePoison_drains hfifo _ _ _ _).trans hpoison
  have hcr : s.crew? s.cur.crew = some cr := h.2.1
  have hactive : ∀ e ∈ s.activeLanes, s.spacePoison cr e.2 .fl (addr e.2).toNat n false = none := by
    rw [h.activeLanes]
    simpa using hpoison'
  unfold State.loads
  rw [State.guarded_of_clear _ _ _ hclear, State.addressTrap_none _ _ _ _ _ hcr hreach]
  dsimp only
  rw [State.loadPoison_none strong hcr hactive]
  dsimp only
  rw [h.lanewise]
  simp only [Thread.loadDrains, decide_true, Bool.true_or, if_true]
  rw [h.drained_of_other hfifo, h.unlessPoisoned hpoison']

theorem State.Solo.loadLane_live {n a : Nat} (h : s.Solo tid cr th) (hlive : (cr.tile (a / 4096)).live s.tick = true)
    (vd : BitVec 7) (la : Nat) (os : List Opnd) : s.OnlyThread (s.loadLane .fl n a vd la os tid) tid
      ((th.commit s.cur.length (.after la) (th.loadResults vd (n = 8) (s.seen cr th .fl a n) ++ [(.p6, 0#32)])).advanceIx
        os) := by
  have hget : Table.get? cr.threads tid = some th := h.2.2.1
  unfold State.loadLane
  rw [h.withLine _ _ _ rfl]
  simp only [h.2.1, hget, if_true, hlive]
  exact h.finishLane _ _ _

theorem State.Solo.loadLane_expired {n a : Nat} (h : s.Solo tid cr th) (hdead : (cr.tile (a / 4096)).live s.tick = false)
    (vd : BitVec 7) (la : Nat) (os : List Opnd) : s.NowThread (s.loadLane .fl n a vd la os tid)
      (cr.modTile (a / 4096) fun x => { x with expLoads := min 65535 (x.expLoads + 1) }) tid
      ((th.commit s.cur.length (.after la) (th.loadResults vd (n = 8) 0#64 ++ [(.p6, 1#32)])).advanceIx os) := by
  have hget : Table.get? cr.threads tid = some th := h.2.2.1
  unfold State.loadLane
  rw [h.withLine _ _ _ rfl]
  simp only [h.2.1, hget, if_true, hdead, Bool.false_eq_true, if_false]
  exact State.nowThread_modThread (fun x => x.modTile (a / 4096) Tile.missed) _ h.2.1 hget

theorem State.loads_fleeting_gives {n : Nat} {addr : Thread → Int} {l : Legality} {i : Instr} {vd : BitVec 7} {la : BitVec 4}
    {strong : Bool} (hi : exec i s = .next (s.loads .fl n vd la strong (fun _ th => addr th) l)) :
    s.FleetingLoads i n vd la.toNat addr l := by
  intro tid cr th h hclear hreach hpoison hfifo
  have hcr : s.crew? s.cur.crew = some cr := h.2.1
  refine ⟨_, hi, ?_⟩
  rw [h.loads_fleeting hclear hreach hpoison hfifo]
  by_cases hlive : (cr.tile ((addr th).toNat / 4096)).live s.tick = true
  · have hgives := h.loadLane_live (n := n) hlive vd la.toNat l.opnds
    rw [if_pos hlive, State.unlessConsumed_of_bare hgives.1.cur hcr
      (hgives.2.1.trans (congrArg (Option.map Crew.bare) hcr)) rfl]
    exact hgives
  · have hgives := h.loadLane_expired (n := n) (Bool.eq_false_iff.2 hlive) vd la.toNat l.opnds
    rw [if_neg hlive, State.unlessConsumed_of_bare hgives.1.cur hcr hgives.2.1 rfl]
    exact hgives

end Sys2Proof.Machine

namespace Sys2Proof

open Machine

/-- Settles O15: the lanes of a load act each on its own thread alone (`State.loads_gives`), and the fleeting load of one
thread splits on whether its tile is live (`State.loads_fleeting_gives`). -/
theorem localLoads : Obligations.LocalLoads := by
  unfold Obligations.LocalLoads
  intro s vd sz va la off l m hl hm
  subst hl hm
  refine ⟨State.loads_gives (by decide) rfl, State.loads_gives (by decide) rfl, State.loads_gives (by decide) rfl,
    State.loads_fleeting_gives rfl, State.loads_gives (by decide) rfl, State.loads_gives (by decide) rfl,
    State.loads_fleeting_gives rfl, fun hlanes => congrArg Host.Outcome.next ?_⟩
  simp [State.loads, State.guarded, hlanes, State.opIllegal]

end Sys2Proof
end

section
/-! SUPPORT. Regions that close behind an instruction of one thread (R124), stores to the spaces outside the stack, and local
atomics (R156). -/

namespace Sys2Proof.Machine

open Sys2Proof

variable {s t : State} {cr : Crew} {th th' : Thread} {tid : Nat}

/-! ## A crew with one thread changed -/

/-- One thread of a bundle's crew has changed, where the crew beside its threads has not. -/
theorem State.onlyThread_iff_nowThread (hcr : s.crew? s.cur.crew = some cr) :
    s.OnlyThread t tid th ↔ s.NowThread t cr tid th := by
  unfold State.OnlyThread State.NowThread
  rw [hcr, Option.map_some]
  simp only [State.thread?_of_crew s _ _ cr hcr]

theorem State.NowThread.modThread (h : s.NowThread t cr tid th) (f : Thread → Thread) :
    s.NowThread (t.modThread s.cur.crew tid f) cr tid (f th) := by
  obtain ⟨⟨hstate, hcrews⟩, hbare, hth, hothers⟩ := h
  refine ⟨⟨hstate, fun c hc => ?_⟩, ?_, ?_, fun v hv => ?_⟩
  · rw [State.modThread, State.crew?_modCrew, if_neg hc]
    exact hcrews c hc
  · rw [State.crew?_modThread_bare]
    exact hbare
  · rw [State.thread?_modThread_self, hth, Option.map_some]
  · rw [State.thread?_modThread_ne _ _ _ _ _ hv]
    exact hothers v hv

/-! ## A region closes (R124) -/

/-- A thread's region closes with the live-in set that its crew's object names. -/
theorem State.closed_congr {x y : Crew} (hcontexts : t.contexts = s.contexts) (hctx : x.ctx = y.ctx) (hobj : x.obj = y.obj)
    (th : Thread) : t.closed x th = s.closed y th := by
  have hobject : t.object? x.ctx x.obj = s.object? y.ctx y.obj := by
    rw [hctx, hobj, State.object?, hcontexts, State.object?]
  unfold State.closed State.liveSet
  rw [hobject]

theorem State.closeRegion_eq {c : Nat} (hcr : s.crew? c = some cr) (tid : Nat) :
    s.closeRegion c tid = s.modThread c tid (s.closed cr) := by
  unfold State.closeRegion
  rw [hcr]
  rfl

theorem State.NowThread.closeRegion (h : s.NowThread t cr tid th) :
    s.NowThread (t.closeRegion s.cur.crew tid) cr tid (s.closed cr th) := by
  obtain ⟨y, hy, hbare⟩ := Option.map_eq_some_iff.1 h.2.1
  have hclosed : t.closed y th = s.closed cr th :=
    State.closed_congr (congrArg State.contexts h.1.1 :) (congrArg Crew.ctx hbare :) (congrArg Crew.obj hbare :) th
  rw [State.closeRegion_eq hy, ← hclosed]
  exact h.modThread _

theorem State.NowThread.refl (hcr : s.crew? s.cur.crew = some cr) (hth : Table.get? cr.threads tid = some th) :
    s.NowThread s cr tid th :=
  ⟨⟨rfl, fun _ _ => rfl⟩, by rw [hcr, Option.map_some], (s.thread?_of_crew _ _ cr hcr).trans hth,
    fun _ _ => s.thread?_of_crew _ _ cr hcr⟩

/-- A thread completes and its region closes. -/
theorem State.NowThread.finishLane_closeRegion (h : s.NowThread t cr tid th) (mode : ResultMode) (rs : Results)
    (os : List Opnd) : s.NowThread ((t.finishLane tid mode rs os).closeRegion t.cur.crew tid) cr tid
      (s.closed cr ((th.commit s.cur.length mode rs).advanceIx os)) := by
  unfold State.finishLane
  rw [h.1.cur]
  exact (h.modThread _).closeRegion

/-! ## Stores to the spaces outside the stack -/

/-- A crew that differs, if at all, in its memories: shared memory, die window and tiles, with the shadow of the epoch. -/
def Crew.MemoryOnly (x y : Crew) : Prop :=
  { y with shared := x.shared, shPoison := x.shPoison, window := x.window, tiles := x.tiles, reserve := x.reserve } = x

theorem Crew.MemoryOnly.eq {x y : Crew} (h : x.MemoryOnly y) : y = { x with
    shared := y.shared, shPoison := y.shPoison, window := y.window, tiles := y.tiles, reserve := y.reserve } := by
  rw [← h]

theorem Crew.writeShared_memoryOnly (cr : Crew) (a : Nat) (bs : List Byte) : cr.MemoryOnly (cr.writeShared a bs) := by
  unfold Crew.writeShared
  split <;> rfl

theorem Crew.writeShared_modThread (cr : Crew) (a : Nat) (bs : List Byte) (tid : Nat) (f : Thread → Thread) :
    (cr.modThread tid f).writeShared a bs = (cr.writeShared a bs).modThread tid f := by
  unfold Crew.writeShared
  split <;> rfl

/-- A store outside the stack leaves the machine but for the crew's memories, and for its launch's window. -/
theorem State.performStore_memoryOnly {c : Nat} {e : StoreEntry} (hsp : e.space ≠ .stk) (hcr : s.crew? c = some cr)
    (tid : Nat) : { s.performStore c tid e with crews := s.crews, launches := s.launches } = s ∧
      ∃ y, (s.performStore c tid e).crew? c = some y ∧ cr.MemoryOnly y := by
  have hmod : ∀ f : Crew → Crew, (s.modCrew c f).crew? c = some (f cr) := fun f => by
    rw [State.crew?_modCrew, if_pos rfl, hcr, Option.map_some]
  unfold State.performStore
  cases hspace : e.space with
  | stk => exact absurd hspace hsp
  | sh => exact ⟨rfl, _, hmod _, cr.writeShared_memoryOnly _ _⟩
  | fl => exact ⟨rfl, _, hmod _, rfl⟩
  | die =>
    dsimp only [State.writeDie, State.modWindow]
    rw [hcr]
    dsimp only
    split
    · exact ⟨rfl, _, hmod _, rfl⟩
    · exact ⟨rfl, cr, hcr, rfl⟩

/-- A store outside the stack and a change of a thread come to the same in either order. -/
theorem State.performStore_modThread {e : StoreEntry} (hsp : e.space ≠ .stk) (s : State) (c tid : Nat) (f : Thread → Thread) :
    (s.modThread c tid f).performStore c tid e = (s.performStore c tid e).modThread c tid f := by
  unfold State.performStore
  cases hspace : e.space with
  | stk => exact absurd hspace hsp
  | sh =>
    dsimp only [State.modThread]
    rw [State.modCrew_modCrew, State.modCrew_modCrew]
    exact congrArg (s.modCrew c) (funext fun x => x.writeShared_modThread _ _ _ _)
  | fl =>
    dsimp only [State.modThread]
    rw [State.modCrew_modCrew, State.modCrew_modCrew]
    rfl
  | die =>
    dsimp only [State.writeDie, State.modWindow]
    rw [State.modThread, State.crew?_modCrew, if_pos rfl]
    cases hcr : s.crew? c with
    | none => rfl
    | some cr =>
      dsimp only [Option.map_some]
      split
      · rw [State.modCrew_modCrew, State.modThread, State.modCrew_modCrew]
        rfl
      · rfl

/-! ## The operations (R156) -/

theorem toNat_ite_ult {w : Nat} (x y : BitVec w) : (if x.ult y then x else y).toNat = min x.toNat y.toNat := by
  by_cases h : x.toNat < y.toNat
  · simp [BitVec.ult, h, Nat.le_of_lt h]
  · simp [BitVec.ult, h, Nat.le_of_not_lt h]

theorem toNat_ite_ugt {w : Nat} (x y : BitVec w) : (if y.ult x then x else y).toNat = max x.toNat y.toNat := by
  by_cases h : y.toNat < x.toNat
  · simp [BitVec.ult, h, Nat.le_of_lt h]
  · simp [BitVec.ult, h, Nat.le_of_not_lt h]

/-- What an operation writes, over numbers as over words of the width. -/
def AtomOp.Is (op : AtomOp) (f : ∀ w, BitVec w → BitVec w → BitVec w → Option (BitVec w)) : Prop :=
  ∀ w old x c, op.apply w old x c = (f w (BitVec.ofNat w old) (BitVec.ofNat w x) (BitVec.ofNat w c)).map BitVec.toNat

theorem AtomOp.is_minI : AtomOp.minI.Is fun _ old x _ => some (if x.slt old then x else old) := fun w old x c => by
  simp only [AtomOp.apply, BitVec.slt, decide_eq_true_eq, Option.map_some]

theorem AtomOp.is_maxI : AtomOp.maxI.Is fun _ old x _ => some (if old.slt x then x else old) := fun w old x c => by
  simp only [AtomOp.apply, BitVec.slt, decide_eq_true_eq, Option.map_some]

theorem AtomOp.is_minN : AtomOp.minN.Is fun _ old x _ => some (if x.ult old then x else old) := fun _ _ _ _ =>
  congrArg some (toNat_ite_ult _ _).symm

theorem AtomOp.is_maxN : AtomOp.maxN.Is fun _ old x _ => some (if old.ult x then x else old) := fun _ _ _ _ =>
  congrArg some (toNat_ite_ugt _ _).symm

theorem AtomOp.is_cas : AtomOp.cas.Is fun _ old x c => if old = c then some x else none := fun w old x c => by
  rw [AtomOp.apply, apply_ite (Option.map BitVec.toNat)]
  rfl

/-! ## The atomic of one thread -/

theorem spaceOf_ne_stk (sp : BitVec 2) : spaceOf sp ≠ .stk := by
  revert sp
  decide

section
variable {op : AtomOp} {sp : Space} {n a : Nat} {vd vc : BitVec 7} {la : Nat} {os : List Opnd}

/-- The register or pair that a data field names, as a number. -/
def Thread.dataNat (th : Thread) (r : BitVec 7) (n : Nat) : Nat := if n = 8 then (th.read64 r).toNat else (th.read32 r).toNat

/-- The results of an atomic: the old value, and p6 in the fleeting space. -/
def Thread.atomResults (th : Thread) (vd : BitVec 7) (n old : Nat) (sp : Space) : Results :=
  th.loadResults vd (n = 8) (BitVec.ofNat 64 old) ++ if sp = .fl then [(.p6, 0#32)] else []

/-- What an atomic writes at its home. -/
def State.atomStore (s : State) (tid : Nat) (sp : Space) (a n : Nat) : Option (BitVec (8 * n)) → State
  | some v => s.performStore s.cur.crew tid (s.storeEntry sp a (leBytes v.toNat n))
  | none => s

/-- What an atomic leaves beside its thread. -/
theorem State.atomStore_memoryOnly (hsp : sp ≠ .stk) (hcr : s.crew? s.cur.crew = some cr) (tid : Nat)
    (written : Option (BitVec (8 * n))) :
    { s.atomStore tid sp a n written with crews := s.crews, launches := s.launches } = s ∧
      ∃ y, (s.atomStore tid sp a n written).crew? s.cur.crew = some y ∧ cr.MemoryOnly y := by
  cases written with
  | none => exact ⟨rfl, cr, hcr, rfl⟩
  | some v => exact State.performStore_memoryOnly hsp hcr tid

/-- An atomic whose tile has expired gives zero, and counts the miss (R218). -/
theorem State.Solo.atomLane_expired (h : s.Solo tid cr th) (hdead : (cr.tile (a / 4096)).live s.tick = false) :
    s.NowThread (s.atomLane op .fl n a vd vc la os tid)
      (cr.modTile (a / 4096) fun x => { x with expLoads := min 65535 (x.expLoads + 1), storeExp := true }) tid
      (s.closed cr ((th.commit s.cur.length (.after la) (th.loadResults vd (n = 8) 0#64 ++ [(.p6, 1#32)])).advanceIx os)) := by
  have hget : Table.get? cr.threads tid = some th := h.2.2.1
  unfold State.atomLane
  rw [h.withLine _ _ _ rfl]
  simp only [h.2.1, hget, hdead, decide_true, Bool.not_false, Bool.and_self, if_true]
  have hnow := State.nowThread_modThread (fun x => x.modTile (a / 4096) fun t => { t.missed with storeExp := true })
    (fun x => (x.commit s.cur.length (.after la) (th.loadResults vd (n = 8) 0#64 ++ [(.p6, 1#32)])).advanceIx os)
    h.2.1 hget
  exact hnow.closeRegion

/-- An atomic at a home that is there: its store, if it writes, then its thread. -/
theorem State.Solo.atomLane_live (h : s.Solo tid cr th) (hsp : sp ≠ .stk)
    (hline : s.lineState cr th sp a = .ready) (hlive : ¬(sp = .fl ∧ (cr.tile (a / 4096)).live s.tick = false))
    {written : Option (BitVec (8 * n))} {old : Nat} (hold : leNat (s.readSpace cr th sp a n) = old)
    (hwritten : op.apply (8 * n) old (th.dataNat vd n) (th.dataNat vc n) = written.map BitVec.toNat) :
    (s.atomStore tid sp a n written).OnlyThread (s.atomLane op sp n a vd vc la os tid) tid
      (s.closed cr (((if written.isSome then th.rearmNt sp a n else th).commit s.cur.length (.after la)
        (th.atomResults vd n old sp)).advanceIx os)) := by
  have hget : Table.get? cr.threads tid = some th := h.2.2.1
  have hdead : (decide (sp = .fl) && !(cr.tile (a / 4096)).live s.tick) = false := by
    simpa using hlive
  obtain ⟨hstate, y, hy, hmem⟩ := State.atomStore_memoryOnly (a := a) hsp h.2.1 tid written
  have hcur : (s.atomStore tid sp a n written).cur = s.cur := (congrArg State.cur hstate :)
  rw [← hcur] at hy
  have hgety : Table.get? y.threads tid = some th := by rw [hmem.eq]; exact hget
  have hclosed : ∀ x, (s.atomStore tid sp a n written).closed y x = s.closed cr x :=
    State.closed_congr (congrArg State.contexts hstate :) (congrArg Crew.ctx hmem :) (congrArg Crew.obj hmem :)
  unfold State.atomLane
  rw [h.withLine _ _ _ hline]
  simp only [h.2.1, hget, hdead, Bool.false_eq_true, if_false, decide_eq_true_eq]
  unfold Thread.dataNat at hwritten
  rw [hold, hwritten, ← hclosed, State.onlyThread_iff_nowThread hy, ← hcur]
  refine State.NowThread.finishLane_closeRegion ?_ _ (th.atomResults vd n old sp) _
  have hstored := State.NowThread.refl hy hgety
  cases written with
  | none => exact hstored
  | some v =>
    have hwrites : s.writeSpace tid sp a (leBytes v.toNat n) = (s.atomStore tid sp a n (some v)).modThread
        (s.atomStore tid sp a n (some v)).cur.crew tid fun x => x.rearmNt sp a n := by
      rw [State.writeSpace, leBytes_length, hcur]
      exact State.performStore_modThread hsp _ _ _ _
    have hnow := hstored.modThread fun x => x.rearmNt sp a n
    rw [← hwrites] at hnow
    exact hnow

/-! ## The instruction -/

/-- An outward effect leaves the one thread of a bundle. -/
theorem State.Solo.outward (h : s.Solo tid cr th) : s.outward.Solo tid cr.outward th := by
  refine ⟨h.1, ?_, h.2.2.1, h.2.2.2⟩
  exact (State.crew?_modCrew s _ _ _).trans ((if_pos rfl).trans (congrArg (Option.map Crew.outward) h.2.1))

/-- The one thread of a bundle whose FIFO is empty takes its turn. -/
theorem State.Solo.atomTurn (h : s.Solo tid cr th) (hfirst : s.FirstIssue cr) (hfifo : th.fifo = [])
    (hpoison : s.spacePoison cr th sp a n true = none) :
    (s.inLaneOrder tid sp a n fun t => t.drained tid none (.ordered sp a n) fun t =>
      t.unlessPoisoned sp n a tid fun t => t.atomLane op sp n a vd t.cur.vc la os tid) =
      s.atomLane op sp n a vd s.cur.vc la os tid := by
  have hnone : ∀ e ∈ th.fifo, e.space ≠ sp := by simp [hfifo]
  rw [h.inLaneOrder _ _ _ _ hfirst, h.drained _ _ _ hfifo,
    h.unlessPoisoned ((State.spacePoison_drains hnone _ _ _ _).trans hpoison)]

theorem State.atomLegality_eq (s : State) (op : AtomOp) (vd : BitVec 7) (va : BitVec 4) (sz : BitVec 1) (sp : BitVec 2) :
    s.atomLegality (op = .cas) vd va sz sp =
      { opnds := [{ loadDst vd (if sz = 1#1 then 8 else 4) with reads := true }, addrSrc va] ++
          (if op = .cas then [s.cur.vcOpnd ((if sz = 1#1 then 8 else 4) = 8)] else [])
        illegal := sp = 0#2 || (op = .cas && s.cur.pfx.isNone)
        cls := { accepts := true, mz := true, rnd := .scope, vc := op = .cas } } := by
  have hsz : sz = 0#1 ∨ sz = 1#1 := by
    revert sz
    decide
  unfold State.atomLegality
  rcases hsz with rfl | rfl
  · simp [loadDst, dst32]
  · simp [loadDst, dst64]

/-- An atomic of one thread is the atomic of its lane, outside shared memory as an outward effect (R352). -/
theorem State.Solo.atoms_eq {sz : BitVec 1} {va la : BitVec 4} {space : BitVec 2} (h : s.Solo tid cr th)
    (hn : n = if sz = 1#1 then 8 else 4) (ha : a = (th.address va 0#7 n).toNat)
    (hclear : s.Clear (s.atomLegality (op = .cas) vd va sz space)) (hfifo : th.fifo = []) (hfirst : s.FirstIssue cr)
    (hreach : s.Reaches cr (spaceOf space) n fun u => u.address va 0#7 n)
    (hpoison : s.spacePoison cr th (spaceOf space) a n true = none) :
    s.atoms op vd va sz la space = s.unlessConsumed
      ((if spaceOf space = .sh then s else s.outward).atomLane op (spaceOf space) n a vd s.cur.vc la.toNat
        (s.atomLegality (op = .cas) vd va sz space).opnds tid) := by
  subst hn ha
  have htrap : s.addressTrap (spaceOf space) _ _ (lmAddr va 0#7 (if sz = 1#1 then 8 else 4)) = none :=
    State.addressTrap_none s _ _ _ cr h.2.1 hreach
  have hopnds := congrArg Legality.opnds (s.atomLegality_eq op vd va sz space)
  have hactive : s.outwardActive = s.outward := if_neg (by simp [h.activeLanes])
  rw [hopnds]
  unfold State.atoms
  dsimp only
  rw [← State.atomLegality_eq, State.guarded_of_clear _ _ _ hclear, htrap, hactive]
  refine congrArg s.unlessConsumed ?_
  by_cases hsh : spaceOf space = .sh
  · rw [if_pos hsh, h.lanewise]
    exact h.atomTurn hfirst hfifo hpoison
  · rw [if_neg hsh, h.outward.lanewise]
    refine h.outward.atomTurn hfirst hfifo ?_
    rw [← hpoison]
    cases spaceOf space <;> rfl

/-- What has changed after an outward effect has changed with it. -/
theorem State.NowThread.of_outward (h : s.outward.NowThread t cr tid th) : s.NowThread t cr tid th := by
  obtain ⟨⟨hstate, hcrews⟩, hbare, hth, hothers⟩ := h
  refine ⟨⟨?_, fun c hc => ?_⟩, hbare, hth, hothers⟩
  · exact (congrArg (fun x : State => { x with crews := s.crews }) hstate :)
  · exact (hcrews c hc).trans ((State.crew?_modCrew _ _ _ _).trans (if_neg hc))

/-- The atomic of a lane at a home that is there consumes no error. -/
theorem State.Solo.unlessConsumed_atomLane {v : State} {x : Crew} (h : v.Solo tid x th) (hcr : s.crew? s.cur.crew = some cr)
    (hcur : v.cur = s.cur) (hconsumed : x.consumed = cr.consumed) (hsp : sp ≠ .stk) {written : Option (BitVec (8 * n))}
    (honly : (v.atomStore tid sp a n written).OnlyThread t tid th') : s.unlessConsumed t = t := by
  obtain ⟨hstate, y, hy, hmem⟩ := State.atomStore_memoryOnly (a := a) hsp h.2.1 tid written
  have hstore : (v.atomStore tid sp a n written).cur = v.cur := (congrArg State.cur hstate :)
  have hbare := honly.2.1
  rw [hstore, hy, hcur] at hbare
  exact State.unlessConsumed_of_bare (honly.1.cur.trans (hstore.trans hcur)) hcr hbare
    ((congrArg Crew.consumed hmem :).trans hconsumed)

theorem State.atoms_gives {f : ∀ w, BitVec w → BitVec w → BitVec w → Option (BitVec w)} {i : Instr} {sz : BitVec 1}
    {va la : BitVec 4} {space : BitVec 2} (hf : op.Is f) (hi : exec i s = .next (s.atoms op vd va sz la space)) :
    s.AtomGives i (op = .cas) f vd va sz la space := by
  intro tid cr th n a hn ha h hclear hfifo hfirst hreach hpoison read old u written done
  have hmem : (({ tid := tid, issued := true } : Lane), th) ∈ s.activeLanes := by simp [h.activeLanes]
  have hline : s.lineState cr th (spaceOf space) a = .ready := ha ▸ (hreach _ hmem).2.2
  have hwritten : op.apply (8 * n) old (th.dataNat vd n) (th.dataNat s.cur.vc n) = written.map BitVec.toNat :=
    hf (8 * n) old (th.dataNat vd n) (th.dataNat s.cur.vc n)
  refine ⟨_, hi, ?_⟩
  rw [h.atoms_eq hn ha hclear hfifo hfirst hreach hpoison]
  by_cases hdead : spaceOf space = .fl ∧ (cr.tile (a / 4096)).live s.tick = false
  · have hnow := (h.outward.atomLane_expired (op := op) (n := n) (vd := vd) (vc := s.cur.vc) (la := la.toNat)
      (os := (s.atomLegality (op = .cas) vd va sz space).opnds) hdead.2).of_outward
    rw [if_pos hdead, hdead.1, if_neg (by decide), State.unlessConsumed_of_bare hnow.1.cur h.2.1 hnow.2.1 rfl]
    exact hnow
  · rw [if_neg hdead]
    have hsp := spaceOf_ne_stk space
    by_cases hsh : spaceOf space = .sh
    · have honly := h.atomLane_live (la := la.toNat) (os := (s.atomLegality (op = .cas) vd va sz space).opnds) hsp hline
        hdead rfl hwritten
      have hu : u = s := if_pos hsh
      rw [if_pos hsh, h.unlessConsumed_atomLane h.2.1 rfl rfl hsp honly, hu]
      exact honly
    · have hout : s.outward.lineState cr.outward th (spaceOf space) a = s.lineState cr th (spaceOf space) a := by
        cases spaceOf space <;> rfl
      have hread : leNat (s.outward.readSpace cr.outward th (spaceOf space) a n) = old := by
        cases hspace : spaceOf space <;> simp only [old, hspace] <;> rfl
      have honly := h.outward.atomLane_live (la := la.toNat) (os := (s.atomLegality (op = .cas) vd va sz space).opnds) hsp
        (hout.trans hline) hdead hread hwritten
      have hu : u = s.outward := if_neg hsh
      rw [if_neg hsh, h.outward.unlessConsumed_atomLane h.2.1 rfl rfl hsp honly, hu]
      exact honly

end

end Sys2Proof.Machine

namespace Sys2Proof

open Machine

/-- Settles O17: an atomic of one thread is the atomic of its lane (`State.Solo.atoms_eq`), whose store and the re-armed
bytes of its thread come to the same in either order (`State.performStore_modThread`); the ten operations over numbers are
those over words (`AtomOp.Is`). -/
theorem localAtomics : Obligations.LocalAtomics := by
  unfold Obligations.LocalAtomics
  intro s vd va sz o la sp
  refine ⟨State.atoms_gives (op := .add) (fun _ _ _ _ => rfl) rfl, State.atoms_gives (op := .and) (fun _ _ _ _ => rfl) rfl,
    State.atoms_gives (op := .or) (fun _ _ _ _ => rfl) rfl, State.atoms_gives (op := .xor) (fun _ _ _ _ => rfl) rfl,
    State.atoms_gives AtomOp.is_minI rfl, State.atoms_gives AtomOp.is_maxI rfl, State.atoms_gives AtomOp.is_minN rfl,
    State.atoms_gives AtomOp.is_maxN rfl, State.atoms_gives (op := .exch) (fun _ _ _ _ => rfl) rfl,
    State.atoms_gives AtomOp.is_cas rfl, fun hlanes => ⟨fun hsp => ?_, fun hpfx => ?_⟩⟩
  · refine congrArg Host.Outcome.next ?_
    simp [State.atoms, State.guarded, hlanes, State.opIllegal, hsp]
  · refine congrArg Host.Outcome.next ?_
    simp [State.atoms, State.guarded, hlanes, State.opIllegal, hpfx]

end Sys2Proof
end

section
/-! SUPPORT. Local stores (R152, R154): the lanes of a store enter their FIFOs one after another, and none waits for another
(R41). -/

namespace Sys2Proof.Machine

open Sys2Proof

variable {s t : State} {cr : Crew} {th : Thread} {tid : Nat}

/-! ## The lanes of an instruction that has parked no thread -/

/-- Lanes of the bundle have acted on their own threads, and no thread of the crew waits at the bundle's instruction. -/
structure State.InTurn (s t : State) : Prop where
  same : s.SameBut t
  first : ∀ x, t.crew? s.cur.crew = some x → s.FirstIssue x

/-- Threads that no longer wait leave no one to wait for. -/
theorem State.InTurn.modThread (h : s.InTurn t) (tid : Nat) {f : Thread → Thread} (hf : ∀ u, (f u).wait = none) :
    s.InTurn (t.modThread s.cur.crew tid f) := by
  refine ⟨h.same.modThread tid f, fun x hx e he hissue => ?_⟩
  rw [State.modThread, State.crew?_modCrew, if_pos rfl] at hx
  obtain ⟨y, hy, rfl⟩ := Option.map_eq_some_iff.1 hx
  obtain ⟨d, hd, -, hval⟩ := Table.mem_adjust he
  rw [hval] at hissue ⊢
  split
  · exact hf _
  · next hne =>
    rw [if_neg hne] at hissue
    exact h.first y hy d hd hissue

/-- What an inactive thread that issues becomes. -/
def State.skipImage (s : State) (mode : ResultMode) (zero : Thread → Results) (l : Lane) (th : Thread) : Thread :=
  if s.cur.active l th then th else th.commit s.cur.length mode (if s.cur.mz then zero th else [])

theorem State.laneImage_skipImage (s : State) (mode : ResultMode) (zero : Thread → Results) (u : Nat) (th : Thread) :
    s.laneImage (s.skipImage mode zero) u th = th ∨ (s.laneImage (s.skipImage mode zero) u th).wait = none := by
  unfold State.laneImage
  split
  · unfold State.skipImage
    split
    · exact .inl rfl
    · exact .inr rfl
  · exact .inl rfl

theorem State.InTurn.skipInactive (hcr : s.crew? s.cur.crew = some cr) (hfirst : s.FirstIssue cr) (mode : ResultMode)
    (zero : Thread → Results) : s.InTurn (s.skipInactive mode zero) := by
  unfold State.skipInactive
  split
  · exact ⟨.refl s, fun x hx => by rwa [← Option.some.inj (hcr.symm.trans hx)]⟩
  · have honly := s.mapLanes_threadsOnly (s.skipImage mode zero)
    refine ⟨⟨rfl, honly.1, honly.2.1⟩, fun x hx e he hissue => ?_⟩
    rw [State.mapLanes, State.modThreads, State.crew?_modCrew, if_pos rfl, hcr, Option.map_some] at hx
    obtain rfl := Option.some.inj hx
    obtain ⟨d, hd, rfl⟩ := List.mem_map.1 he
    change (s.laneImage (s.skipImage mode zero) d.1 d.2).parkIssue = s.cur.seq at hissue
    change (s.laneImage (s.skipImage mode zero) d.1 d.2).wait = none
    rcases s.laneImage_skipImage mode zero d.1 d.2 with hsame | hnone
    · rw [hsame] at hissue ⊢
      exact hfirst d hd hissue
    · exact hnone

theorem State.skipInactive_thread (s : State) (mode : ResultMode) (zero : Thread → Results) {e : Lane × Thread}
    (he : e ∈ s.activeLanes) : (s.skipInactive mode zero).thread? s.cur.crew e.1.tid = some e.2 := by
  obtain ⟨⟨hl, hth⟩, hactive⟩ := (s.mem_activeLanes e).1 he
  unfold State.skipInactive
  split
  · exact hth
  · rw [s.mapLanes_lane _ e.1 e.2 hl (Bundle.active_issued hactive) hth, if_pos hactive]

/-- Lanes that each change their own thread, which then waits no more, change their threads alone. -/
theorem State.InTurn.foldl_eq {f : State → Lane → Thread → State} {g : Lane → Thread → Thread → Thread}
    (hg : ∀ l th u, (g l th u).wait = none) {es : List (Lane × Thread)} (hd : (es.map (·.1.tid)).Nodup)
    (h : s.InTurn t) (hth : ∀ e ∈ es, t.thread? s.cur.crew e.1.tid = some e.2)
    (hf : ∀ t e, e ∈ es → s.InTurn t → t.thread? s.cur.crew e.1.tid = some e.2 →
      f t e.1 e.2 = t.modThread s.cur.crew e.1.tid (g e.1 e.2)) :
    es.foldl (fun (t : State) e => f t e.1 e.2) t =
      es.foldl (fun (t : State) e => t.modThread s.cur.crew e.1.tid (g e.1 e.2)) t := by
  induction es generalizing t with
  | nil => rfl
  | cons e es ih =>
    obtain ⟨hnew, hd⟩ := List.nodup_cons.1 hd
    rw [List.foldl_cons, List.foldl_cons, hf t e List.mem_cons_self h (hth e List.mem_cons_self)]
    refine ih hd (h.modThread _ (hg _ _)) (fun d hdm => ?_) fun t d hdm => hf t d (List.mem_cons_of_mem _ hdm)
    have hne : d.1.tid ≠ e.1.tid := fun heq => hnew (List.mem_map.2 ⟨d, hdm, heq⟩)
    rw [State.thread?_modThread_ne _ _ _ _ _ hne]
    exact hth d (List.mem_cons_of_mem _ hdm)

/-- Lane by lane, in the bundle's first issue of the instruction: as `State.lanewise_own`, where a lane may look whether
another one waits. -/
theorem State.lanewise_inTurn {f : State → Lane → Thread → State} {g : Lane → Thread → Thread → Thread} (mode : ResultMode)
    (zero : Thread → Results) (hcr : s.crew? s.cur.crew = some cr) (hfirst : s.FirstIssue cr) (hd : s.Distinct)
    (hg : ∀ l th u, (g l th u).wait = none)
    (hf : ∀ t e, e ∈ s.activeLanes → s.InTurn t → t.thread? s.cur.crew e.1.tid = some e.2 →
      f t e.1 e.2 = t.modThread s.cur.crew e.1.tid (g e.1 e.2)) :
    s.LanesBecome (s.lanewise mode zero f) fun l th =>
      if s.cur.active l th then g l th th
      else th.commit s.cur.length mode (if s.cur.mz then zero th else []) := by
  have heq : s.lanewise mode zero f =
      s.lanewise mode zero fun t l th => t.modThread s.cur.crew l.tid (g l th) :=
    State.InTurn.foldl_eq hg (s.activeLanes_nodup hd) (State.InTurn.skipInactive hcr hfirst mode zero)
      (fun _ he => s.skipInactive_thread mode zero he) hf
  rw [heq]
  exact s.lanewise_own mode zero _ g hd fun _ _ _ _ _ => rfl

/-! ## The turn of a lane -/

theorem Crew.laneBehind_of_firstIssue (h : s.FirstIssue cr) (tid : Nat) (sp : Space) (off n : Nat) :
    cr.laneBehind s.cur.seq tid sp off n = false := by
  unfold Crew.laneBehind
  refine Bool.and_eq_false_iff.2 (.inr (List.any_eq_false.2 fun e he => ?_))
  by_cases hissue : e.2.parkIssue = s.cur.seq
  · simp [h e he hissue]
  · simp [hissue]

theorem State.InTurn.inLaneOrder (h : s.InTurn t) (hcr : t.crew? t.cur.crew = some cr) (tid : Nat) (sp : Space)
    (off n : Nat) (go : State → State) : t.inLaneOrder tid sp off n go = go t := by
  have hcur : t.cur = s.cur := h.same.1
  have hbehind : cr.laneBehind t.cur.seq tid sp off n = false := by
    rw [hcur] at hcr ⊢
    exact Crew.laneBehind_of_firstIssue (h.first cr hcr) tid sp off n
  unfold State.inLaneOrder State.curCrew?
  rw [hcr]
  simp [hbehind]

theorem Thread.advanceIx_wait (os : List Opnd) (th : Thread) : (th.advanceIx os).wait = th.wait := by
  have hset : ∀ (u : Thread) k r, (u.setIx k r).wait = u.wait := fun u k r => by
    unfold Thread.setIx
    split_ifs <;> rfl
  unfold Thread.advanceIx
  refine List.foldlRecOn os _ (motive := fun u : Thread => u.wait = th.wait) rfl fun u hu o _ => ?_
  dsimp only
  split
  · split
    · rw [hset, hu]
    · exact hu
  · exact hu

/-! ## Stores (R152) -/

/-- What a lane's store leaves of a thread, its address and its register as they were read. -/
def State.storeImage (s : State) (sp : Space) (n : Nat) (vs : BitVec 7) (strong : Bool) (addr : Thread → Int)
    (os : List Opnd) (_ : Lane) (th u : Thread) : Thread :=
  ({ u with fifo := u.fifo ++ [s.storeEntry sp (addr th).toNat (th.storeBytes vs n) strong] }.commit s.cur.length .now
    []).advanceIx os

theorem State.stores_gives {sp : Space} {n : Nat} {vs : BitVec 7} {strong : Bool} {addr : Thread → Int} {l : Legality}
    {i : Instr} (hi : exec i s = .next (s.stores sp n vs strong (fun _ th => addr th) l)) :
    s.StoresGive i sp n vs strong addr l := by
  intro cr hcr hclear hd hfirst hreach hroom
  refine ⟨_, hi, ?_⟩
  unfold State.stores
  rw [State.guarded_of_clear _ _ _ hclear, State.addressTrap_none _ _ _ _ _ hcr hreach]
  have hlanes := s.lanewise_inTurn
    (f := fun t ln th => t.withLine ln.tid sp (addr th).toNat fun t =>
      t.inLaneOrder ln.tid sp (addr th).toNat n fun t =>
        t.enterStore ln.tid (t.storeEntry sp (addr th).toNat (th.storeBytes vs n) strong) fun t =>
          t.finishLane ln.tid .now [] l.opnds)
    (g := s.storeImage sp n vs strong addr l.opnds) .now (fun _ => []) hcr hfirst hd
    (fun _ _ _ => Thread.advanceIx_wait _ _) ?_
  · simp only [ite_self] at hlanes
    exact hlanes
  · intro t e he ht hth
    obtain ⟨x, hx, hbare⟩ := ht.same.crew cr hcr
    have hcur : t.cur = s.cur := ht.same.1
    rw [← hcur] at hx hth
    rw [State.withLine_ready hx ((t.thread?_of_crew _ _ _ hx).symm.trans hth)
      ((ht.same.lineState hbare _ _ _).trans (hreach e he).2.2), ht.inLaneOrder hx,
      State.enterStore_of_room hth (hroom e he)]
    unfold State.storeImage State.storeEntry
    rw [← hcur]
    exact State.modThread_modThread t t.cur.crew e.1.tid _ fun u => (u.commit t.cur.length .now []).advanceIx l.opnds

/-! ## Non-temporal stores (R58) -/

/-- The entries of a non-temporal store, byte by byte. -/
theorem State.ntEntries_concat (s : State) (sp : Space) (a : Nat) (bs : List Byte) (b : Byte) :
    s.ntEntries sp a (bs ++ [b]) = s.ntEntries sp a bs ++ [s.storeEntry sp (a + bs.length) [b]] := by
  simp [State.ntEntries, List.zipIdx_append]

/-- A non-temporal store is held apart in its thread, and closes the region. -/
theorem State.NowThread.holdsNt {u : State} (h : s.NowThread u cr tid th) (es : List StoreEntry) (os : List Opnd) :
    s.NowThread (((u.modThread u.cur.crew tid fun x => { x with ntStores := x.ntStores ++ es }).finishLane tid .now []
      os).closeRegion u.cur.crew tid) cr tid
      (s.closed cr (({ th with ntStores := th.ntStores ++ es }.commit s.cur.length .now []).advanceIx os)) := by
  have hheld := h.modThread fun x => { x with ntStores := x.ntStores ++ es }
  rw [← h.1.cur] at hheld
  exact hheld.finishLane_closeRegion .now [] os

theorem State.Solo.execStNt_gives {vs : BitVec 7} {sz : BitVec 2} {va : BitVec 4} {sp : BitVec 2} {l : Legality}
    (h : s.Solo tid cr th)
    (hl : l = { opnds := [storeSrc vs (2 ^ sz.toNat), addrSrc va], illegal := false, cls := storeClass .none })
    (hsp : sp = 1#2 ∨ sp = 2#2) (hclear : s.Clear l) (hfirst : s.FirstIssue cr)
    (hreach : s.Reaches cr (spaceOf sp) (2 ^ sz.toNat) fun u => u.address va 0#7 (2 ^ sz.toNat)) :
    ∃ t, exec (.stNt vs va sp sz) s = .next t ∧
      State.OnlyThread (if sp = 2#2 then s.outward else s) t tid (s.closed cr
        (({ th with ntStores := th.ntStores ++
          s.ntEntries (spaceOf sp) (th.address va 0#7 (2 ^ sz.toNat)).toNat (th.storeBytes vs (2 ^ sz.toNat)) }.commit
            s.cur.length .now []).advanceIx l.opnds)) := by
  have hmem : (({ tid := tid, issued := true } : Lane), th) ∈ s.activeLanes := by simp [h.activeLanes]
  have hline : s.lineState cr th (spaceOf sp) (lmAddr va 0#7 (2 ^ sz.toNat) { tid := tid, issued := true } th).toNat =
      .ready := (hreach _ hmem).2.2
  have htrap : s.addressTrap (spaceOf sp) _ _ (lmAddr va 0#7 (2 ^ sz.toNat)) = none :=
    State.addressTrap_none s _ _ _ cr h.2.1 hreach
  refine ⟨_, rfl, ?_⟩
  dsimp only [sizeOf2]
  have hlegal : ({ opnds := [storeSrc vs (2 ^ sz.toNat), addrSrc va], illegal := sp = 0#2 || sp = 3#2
                   cls := storeClass .none } : Legality) = l := by
    rcases hsp with rfl | rfl <;> exact hl.symm
  rw [hlegal, State.guarded_of_clear _ _ _ hclear, htrap]
  dsimp only
  rw [h.lanewise, h.withLine _ _ _ hline, h.inLaneOrder _ _ _ _ hfirst]
  subst hl
  rcases hsp with rfl | rfl
  · rw [if_neg (by decide), State.onlyThread_iff_nowThread h.2.1]
    exact (State.NowThread.refl h.2.1 h.2.2.1).holdsNt _ _
  · rw [if_pos rfl, State.onlyThread_iff_nowThread h.outward.2.1]
    exact (State.NowThread.refl h.outward.2.1 h.outward.2.2.1).holdsNt _ _

end Sys2Proof.Machine

namespace Sys2Proof

open Machine

/-- Settles O16: in its first issue no lane of a store waits for another (`State.lanewise_inTurn`), and each enters its own
FIFO (`State.stores_gives`); a non-temporal store of one thread is held apart (`State.Solo.execStNt_gives`). -/
theorem localStores : Obligations.LocalStores := by
  unfold Obligations.LocalStores
  intro s vs sz va off l m hl hm
  refine ⟨?_, ?_, ?_, ?_, ?_, ?_, ?_, fun sp hsp tid cr th h hclear hfirst hreach es hes => ?_, fun sp a b bs => ?_,
    fun hlanes => ?_⟩
  iterate 7 exact State.stores_gives (by subst hl hm; rfl)
  · subst hes
    exact h.execStNt_gives hl hsp hclear hfirst hreach
  · exact ⟨rfl, s.ntEntries_concat sp a bs b⟩
  · have hillegal : ∀ os cls body, s.guarded { opnds := os, illegal := true, cls := cls } body = s.illegalOp :=
      fun os cls body => by simp [State.guarded, hlanes, State.opIllegal]
    exact ⟨congrArg Host.Outcome.next (hillegal _ _ _), congrArg Host.Outcome.next (hillegal _ _ _),
      congrArg Host.Outcome.next (hillegal _ _ _)⟩

end Sys2Proof
end

section
/-! SUPPORT. Fences and the order of a store FIFO (R40, R58, R166): the drain of a FIFO, the store that performs, and what
its thread reads afterwards. -/

namespace Sys2Proof.Machine

open Sys2Proof

variable {s t : State} {cr : Crew} {th : Thread} {tid c : Nat} {e : StoreEntry}

/-! ## fence and nt.drain -/

/-- A lane that needs an empty FIFO goes on behind the drain that empties it. -/
theorem State.Solo.drained_of_drains (h : s.Solo tid cr th) {u : State} {th' : Thread} (w : Wait) (go : State → State)
    (hu : u = s.drainFifo s.cur.crew tid) (hth' : u.thread? u.cur.crew tid = some th') (hfifo : th'.fifo = [])
    (hended : th'.ended = false) (hpc : th'.pc = u.cur.pc) : s.drained tid none w go = go u := by
  have hhere : u.stillHere tid = true := by simp [State.stillHere, hth', hended, hpc]
  by_cases hempty : th.fifo = []
  · rw [h.drained _ _ _ hempty, hu, State.drainFifo_of_empty h.thread hempty]
  · have hpending : (th.fifo.any fun _ => true) = true := by
      cases hq : th.fifo with
      | nil => exact absurd hq hempty
      | cons _ _ => rfl
    unfold State.drained
    simp [h.thread, hpending, ← hu, hhere, hth', hfifo]

theorem State.Solo.execFence_completes (h : s.Solo tid cr th) (hclear : s.Clear (lx [] false)) {b : BitVec 7} {u : State}
    {th' : Thread} (hlo : 1 ≤ b.toNat) (hhi : b.toNat ≤ 5) (hu : u = s.drainFifo s.cur.crew tid)
    (hth' : u.thread? u.cur.crew tid = some th') (hfifo : th'.fifo = []) (hended : th'.ended = false)
    (hpc : th'.pc = u.cur.pc) :
    ∃ t, exec (.fence b) s = .next t ∧ u.OnlyThread t tid (th'.commit u.cur.length .now []) := by
  have hzero : b ≠ 0#7 := fun h0 => by simp [h0] at hlo
  have hlegal : (decide (b = 0#7) || decide (5 < b.toNat)) = false := by simp [hzero, hhi]
  refine ⟨_, rfl, ?_⟩
  rw [hlegal, State.guarded_of_clear _ _ _ hclear, h.lanewise, h.drained_of_drains _ _ hu hth' hfifo hended hpc]
  exact State.onlyThread_modThread u tid th' _ hth'

theorem execFence_illegal (hlanes : s.curLanes ≠ []) {b : BitVec 7} (hb : b.toNat = 0 ∨ 6 ≤ b.toNat) :
    exec (.fence b) s = .next s.illegalOp := by
  have hlegal : (decide (b = 0#7) || decide (5 < b.toNat)) = true := by
    rcases hb with hb | hb
    · simp [BitVec.eq_of_toNat_eq (y := 0#7) hb]
    · simp [Nat.lt_of_succ_le hb]
  refine congrArg Host.Outcome.next ?_
  rw [hlegal]
  simp [State.guarded, hlanes, State.opIllegal, lx]

/-- nt.drain waits for a non-temporal store that is held, and for an older store to a byte of one that has performed. -/
theorem Thread.ntSettled_iff (th : Thread) : th.ntSettled = true ↔
    th.ntStores = [] ∧ ∀ e ∈ th.ntDone, ∀ x ∈ th.fifo, e.meets x = false := by
  simp [Thread.ntSettled]

theorem State.Solo.execNtDrain_completes (h : s.Solo tid cr th) (hclear : s.Clear (lx [] false))
    (hsettled : th.ntSettled = true) : ∃ t, exec .ntDrain s = .next t ∧
      s.OnlyThread t tid ({ th with ntDone := [] }.commit s.cur.length .now []) := by
  refine ⟨_, rfl, ?_⟩
  rw [State.guarded_of_clear _ _ _ hclear, h.lanewise, if_pos hsettled]
  have hdone := s.onlyThread_modThread tid th (fun x => { x with ntDone := [] }) h.thread
  exact hdone.trans_modThread rfl fun x => x.commit s.cur.length .now []

theorem State.Solo.execNtDrain_parks (h : s.Solo tid cr th) (hclear : s.Clear (lx [] false))
    (hsettled : ¬th.ntSettled = true) : ∃ t, exec .ntDrain s = .next t ∧ s.Parks t tid th .ntDrain := by
  refine ⟨_, rfl, ?_⟩
  rw [State.guarded_of_clear _ _ _ hclear, h.lanewise, if_neg hsettled]
  exact State.park_parks h.thread .ntDrain

/-! ## The store that performs (R40) -/

/-- The latest store of a FIFO comes last. -/
theorem forwardedByte_concat (fifo : List StoreEntry) (e : StoreEntry) (sp : Space) (a : Nat) (b : Byte) :
    forwardedByte (fifo ++ [e]) sp a b =
      if e.space = sp ∧ e.addr ≤ a ∧ a < e.addr + e.bytes.length then e.bytes.getD (a - e.addr) 0#8
      else forwardedByte fifo sp a b := by
  unfold forwardedByte
  rw [List.foldl_append]
  by_cases h : e.space = sp ∧ e.addr ≤ a ∧ a < e.addr + e.bytes.length
  · obtain ⟨hsp, hlo, hhi⟩ := h
    have hin : a - e.addr < e.bytes.length := by omega
    simp [hsp, hlo, hhi, List.getD_eq_getElem?_getD, List.getElem?_eq_getElem hin]
  · rw [if_neg h]
    simp only [List.foldl_cons, List.foldl_nil, Bool.and_eq_true, decide_eq_true_eq, and_assoc, h, if_false]

/-- No lower lane of the store's instruction has still to store to some of its bytes (R41). -/
theorem Crew.laterLane_eq_false (hwf : Table.wf cr.threads = true)
    (h : ∀ u x y, u < tid → Table.get? cr.threads u = some x → y ∈ x.fifo → y.group = e.group → e.space ≠ .stk →
      y.meets e = false) : cr.laterLane tid e = false := by
  refine List.any_eq_false.2 fun p hp hbad => ?_
  have hget : Table.get? cr.threads p.1 = some p.2 := (Table.mem_iff_get? hwf).1 hp
  obtain ⟨hlt, hany⟩ := Bool.and_eq_true_iff.1 hbad
  obtain ⟨y, hy, hhit⟩ := List.any_eq_true.1 hany
  simp only [Bool.and_eq_true, decide_eq_true_eq] at hlt hhit
  obtain ⟨⟨⟨⟨hgroup, hspace⟩, hstk⟩, hlo⟩, hhi⟩ := hhit
  have hmeets := h p.1 p.2 y hlt hget hy hgroup hstk
  simp [StoreEntry.meets, overlaps, hspace, hlo, hhi] at hmeets

/-- A crew that runs is not removed. -/
theorem State.reap_of_running (hcr : s.crew? c = some cr) (hrun : cr.killed = false) : s.reap c = s := by
  unfold State.reap
  rw [hcr]
  simp [hrun]

/-- A store leaves its crew running. -/
theorem State.performStore_running (hcr : s.crew? c = some cr) (hrun : cr.killed = false) (tid : Nat) (e : StoreEntry) :
    ∃ x, (s.performStore c tid e).crew? c = some x ∧ x.killed = false := by
  by_cases hsp : e.space = .stk
  · have hbare : ((s.performStore c tid e).crew? c).map Crew.bare = some cr.bare := by
      rw [State.performStore, hsp]
      exact (s.crew?_modThread_bare c c tid _).trans (by rw [hcr, Option.map_some])
    obtain ⟨x, hx, hxb⟩ := Option.map_eq_some_iff.1 hbare
    exact ⟨x, hx, (congrArg Crew.killed hxb :).trans hrun⟩
  · obtain ⟨-, x, hx, hmem⟩ := State.performStore_memoryOnly hsp hcr tid
    exact ⟨x, hx, (congrArg Crew.killed hmem :).trans hrun⟩

/-- The oldest store of a FIFO performs. -/
theorem State.world_drain_eq {rest : List StoreEntry} (hcr : s.crew? c = some cr) (hth : Table.get? cr.threads tid = some th)
    (hfifo : th.fifo = e :: rest) (hrun : cr.killed = false) (hline : s.storeBlocked cr e = none)
    (hlater : cr.laterLane tid e = false) : s.world (.drain c tid) =
      (s.modThread c tid fun u => { u with fifo := rest }.rearmNt e.space e.addr e.bytes.length).performStore c tid e := by
  have hhead : s.drainHead c tid =
      ((s.modThread c tid fun u => { u with fifo := rest }.rearmNt e.space e.addr e.bytes.length).performStore c tid e,
        true) := by
    simp only [State.drainHead, hcr, hth, hfifo, hlater, Bool.false_eq_true, if_false, hline]
  have hmod : (s.modThread c tid fun u => { u with fifo := rest }.rearmNt e.space e.addr e.bytes.length).crew? c =
      some (cr.modThread tid fun u => { u with fifo := rest }.rearmNt e.space e.addr e.bytes.length) := by
    rw [State.modThread, State.crew?_modCrew, if_pos rfl, hcr, Option.map_some]
  obtain ⟨x, hx, hxrun⟩ := State.performStore_running hmod hrun tid e
  refine (congrArg (fun r : State × Bool => r.1.reap c) hhead).trans ?_
  exact State.reap_of_running hx hxrun

/-- The bytes of non-temporal stores that have performed where another store performs are to perform again (R58). -/
theorem Thread.rearmNt_eq (th : Thread) (sp : Space) (a n : Nat) : th.rearmNt sp a n = { th with
    ntStores := (th.rearmNt sp a n).ntStores, ntDone := (th.rearmNt sp a n).ntDone } := by
  unfold Thread.rearmNt
  dsimp only
  split <;> rfl

theorem Thread.mem_rearmNt (th : Thread) (sp : Space) (a n : Nat) (x : StoreEntry) :
    (x ∈ (th.rearmNt sp a n).ntDone ↔ x ∈ th.ntDone ∧ ¬(x.space = sp ∧ x.addr < a + n ∧ a < x.addr + x.bytes.length)) ∧
      (x ∈ (th.rearmNt sp a n).ntStores ↔
        x ∈ th.ntStores ∨ (x ∈ th.ntDone ∧ x.space = sp ∧ x.addr < a + n ∧ a < x.addr + x.bytes.length)) := by
  unfold Thread.rearmNt
  dsimp only
  split
  · have hhit : (decide (x.space = sp) && overlaps x.addr x.bytes.length a n) = true ↔
        x.space = sp ∧ x.addr < a + n ∧ a < x.addr + x.bytes.length := by simp [overlaps]
    simp only [List.mem_filter, List.mem_append, Bool.not_eq_true', ← Bool.not_eq_true, hhit, or_comm, and_self]
  · next hnone =>
    have hno : ∀ y ∈ th.ntDone, ¬(y.space = sp ∧ y.addr < a + n ∧ a < y.addr + y.bytes.length) := by
      simpa [overlaps] using hnone
    exact ⟨⟨fun hx => ⟨hx, hno x hx⟩, fun hx => hx.1⟩, ⟨.inl, fun hx => hx.elim id fun hd => absurd hd.2 (hno x hd.1)⟩⟩

/-! ## What its thread reads after a store -/

/-- One byte of a memory after a run of bytes has been written. -/
theorem Mem.readBytes_one_writeBytes (m : Sparse Byte) (a x : Nat) (bs : List Byte) :
    Mem.readBytes (Mem.writeBytes m a bs) x 1 =
      if a ≤ x ∧ x < a + bs.length then [bs.getD (x - a) 0#8] else Mem.readBytes m x 1 := by
  simp only [Mem.readBytes, Mem.read_writeBytes]
  split <;> rfl

/-- A thread reads a space as before, but for the bytes of one store. -/
def State.ReadsBack (s t : State) (cr cr' : Crew) (th th' : Thread) (e : StoreEntry) : Prop :=
  ∀ sp a, t.readSpace cr' th' sp a 1 =
    if sp = e.space ∧ e.addr ≤ a ∧ a < e.addr + e.bytes.length then [e.bytes.getD (a - e.addr) 0#8]
    else s.readSpace cr th sp a 1

/-- The space of the store is read back, where the other spaces are as they were. -/
theorem State.ReadsBack.of_space {cr' : Crew} {th' : Thread}
    (hothers : ∀ sp a, sp ≠ e.space → t.readSpace cr' th' sp a 1 = s.readSpace cr th sp a 1)
    (hspace : ∀ a, t.readSpace cr' th' e.space a 1 =
      if e.addr ≤ a ∧ a < e.addr + e.bytes.length then [e.bytes.getD (a - e.addr) 0#8]
      else s.readSpace cr th e.space a 1) : s.ReadsBack t cr cr' th th' e := by
  intro sp a
  by_cases hsp : sp = e.space
  · subst hsp
    simpa using hspace a
  · rw [if_neg fun h => hsp h.1]
    exact hothers sp a hsp

theorem State.crew?_modCrew_self (hcr : s.crew? c = some cr) (f : Crew → Crew) : (s.modCrew c f).crew? c = some (f cr) := by
  rw [State.crew?_modCrew, if_pos rfl, hcr, Option.map_some]

theorem Table.get?_adjust_self {α : Type} {m : Table α} {k : Nat} {v : α} (h : Table.get? m k = some v) (f : α → α) :
    Table.get? (Table.adjust m k f) k = some (f v) := by
  rw [Table.get?_adjust, if_pos rfl, h, Option.map_some]

theorem Crew.tile_modTile_self {k : Nat} (h : k < cr.tiles.length) (f : Tile → Tile) :
    (cr.modTile k f).tile k = f (cr.tile k) := by
  simp [Crew.tile, Crew.modTile, h]

theorem Crew.tile_modTile_ne {j k : Nat} (h : j ≠ k) (f : Tile → Tile) : (cr.modTile k f).tile j = cr.tile j := by
  simp [Crew.tile, Crew.modTile, List.getD_eq_getElem?_getD, Ne.symm h]

/-- A thread whose stack a store has written. -/
def Thread.stackWritten (th : Thread) (e : StoreEntry) : Thread :=
  { th with
    stack := Mem.writeBytes th.stack e.addr e.bytes
    stackPoison := poisonAfter th.stackPoison e.addr e.bytes.length }

section
variable (hcr : s.crew? c = some cr) (hth : Table.get? cr.threads tid = some th)
include hcr hth

theorem State.performStore_readsBack_stk (hsp : e.space = .stk) :
    ∃ cr' th', (s.performStore c tid e).crew? c = some cr' ∧ Table.get? cr'.threads tid = some th' ∧
      s.ReadsBack (s.performStore c tid e) cr cr' th th' e := by
  unfold State.performStore
  rw [hsp]
  refine ⟨cr.modThread tid fun x => x.stackWritten e, th.stackWritten e, State.crew?_modCrew_self hcr _,
    Table.get?_adjust_self hth fun x => x.stackWritten e, .of_space (fun sp a hne => ?_) fun a => ?_⟩
  · cases sp with
    | stk => exact absurd hsp.symm hne
    | _ => rfl
  · rw [hsp]
    exact Mem.readBytes_one_writeBytes _ _ _ _

theorem State.performStore_readsBack_sh (hsp : e.space = .sh) :
    ∃ cr' th', (s.performStore c tid e).crew? c = some cr' ∧ Table.get? cr'.threads tid = some th' ∧
      s.ReadsBack (s.performStore c tid e) cr cr' th th' e := by
  have hmem := cr.writeShared_memoryOnly e.addr e.bytes
  have hshared : (cr.writeShared e.addr e.bytes).shared = Mem.writeBytes cr.shared e.addr e.bytes := by
    unfold Crew.writeShared
    split
    · next hnil => rw [hnil]; rfl
    · rfl
  have hfields : (cr.writeShared e.addr e.bytes).window = cr.window ∧ (cr.writeShared e.addr e.bytes).tiles = cr.tiles := by
    unfold Crew.writeShared
    split <;> exact ⟨rfl, rfl⟩
  unfold State.performStore
  rw [hsp]
  refine ⟨_, th, State.crew?_modCrew_self hcr _, (congrArg (Table.get? · tid) (congrArg Crew.threads hmem :)).trans hth,
    .of_space (fun sp a hne => ?_) fun a => ?_⟩
  · cases sp with
    | sh => exact absurd hsp.symm hne
    | stk => rfl
    | die =>
      have hwindow : ∀ x, (s.modCrew c x).window (cr.writeShared e.addr e.bytes) a = s.window cr a := fun x => by
        unfold State.window
        rw [hfields.1, hmem.eq]
        rfl
      exact congrArg (fun w => Mem.readBytes (DieWindow.bytes w) (inWindow a) 1) (hwindow _)
    | fl =>
      dsimp only [State.readSpace, Crew.tile]
      rw [hfields.2]
  · rw [hsp]
    dsimp only [State.readSpace]
    rw [hshared]
    exact Mem.readBytes_one_writeBytes _ _ _ _

theorem State.performStore_readsBack_crewWindow (hsp : e.space = .die) (hbase : e.addr < launchBase)
    (hend : e.addr + e.bytes.length ≤ launchBase) :
    ∃ cr' th', (s.performStore c tid e).crew? c = some cr' ∧ Table.get? cr'.threads tid = some th' ∧
      s.ReadsBack (s.performStore c tid e) cr cr' th th' e := by
  unfold State.performStore State.writeDie State.modWindow
  rw [hsp, hcr]
  dsimp only
  rw [if_pos hbase]
  refine ⟨_, th, State.crew?_modCrew_self hcr _, hth, .of_space (fun sp a hne => ?_) fun a => ?_⟩
  · cases sp with
    | die => exact absurd hsp.symm hne
    | _ => rfl
  · rw [hsp]
    dsimp only [State.readSpace, State.readDie, State.window]
    by_cases ha : a < launchBase
    · simp only [if_pos ha, inWindow, if_pos hbase]
      exact Mem.readBytes_one_writeBytes _ _ _ _
    · have hout : ¬(e.addr ≤ a ∧ a < e.addr + e.bytes.length) := by omega
      simp only [if_neg hout, if_neg ha]
      rfl

theorem State.performStore_readsBack_launchWindow (hsp : e.space = .die) (hbase : ¬e.addr < launchBase)
    (hwin : ∃ l, Table.get? s.launches cr.launch = some l ∧ (if cr.die = 0 then l.win0 else l.win1).isSome = true) :
    ∃ cr' th', (s.performStore c tid e).crew? c = some cr' ∧ Table.get? cr'.threads tid = some th' ∧
      s.ReadsBack (s.performStore c tid e) cr cr' th th' e := by
  obtain ⟨l, hl, hsome⟩ := hwin
  have hwrite : ∀ f : DieWindow → DieWindow, (l.modWin cr.die f).win cr.die = f (l.win cr.die) := fun f => by
    unfold Launch.modWin Launch.win
    by_cases hd : cr.die = 0
    · rw [if_pos hd] at hsome
      obtain ⟨w, hw⟩ := Option.isSome_iff_exists.1 hsome
      simp [hd, hw]
    · rw [if_neg hd] at hsome
      obtain ⟨w, hw⟩ := Option.isSome_iff_exists.1 hsome
      simp [hd, hw]
  unfold State.performStore State.writeDie State.modWindow
  rw [hsp, hcr]
  dsimp only
  rw [if_neg hbase]
  refine ⟨cr, th, hcr, hth, .of_space (fun sp a hne => ?_) fun a => ?_⟩
  · cases sp with
    | die => exact absurd hsp.symm hne
    | _ => rfl
  · rw [hsp]
    dsimp only [State.readSpace, State.readDie, State.window]
    by_cases ha : a < launchBase
    · have hout : ¬(e.addr ≤ a ∧ a < e.addr + e.bytes.length) := by omega
      simp only [if_neg hout, if_pos ha]
    · have hget : ∀ f, Table.get? (Table.adjust s.launches cr.launch f) cr.launch = some (f l) :=
        Table.get?_adjust_self hl
      have hin : (e.addr ≤ a ∧ a < e.addr + e.bytes.length) ↔
          (e.addr - launchBase ≤ a - launchBase ∧ a - launchBase < e.addr - launchBase + e.bytes.length) := by omega
      have hat : a - e.addr = a - launchBase - (e.addr - launchBase) := by omega
      simp only [if_neg ha, State.modLaunch, hget, hl, hwrite, inWindow, if_neg hbase, hin, hat]
      exact Mem.readBytes_one_writeBytes _ _ _ _

theorem State.performStore_readsBack_fl (hsp : e.space = .fl) (htile : e.addr / 4096 < cr.tiles.length)
    (hend : e.addr % 4096 + e.bytes.length ≤ 4096) (hlive : (cr.tile (e.addr / 4096)).live s.tick = true) :
    ∃ cr' th', (s.performStore c tid e).crew? c = some cr' ∧ Table.get? cr'.threads tid = some th' ∧
      s.ReadsBack (s.performStore c tid e) cr cr' th th' e := by
  unfold State.performStore
  rw [hsp]
  refine ⟨_, th, State.crew?_modCrew_self hcr _, hth, .of_space (fun sp a hne => ?_) fun a => ?_⟩
  · cases sp with
    | fl => exact absurd hsp.symm hne
    | _ => rfl
  · rw [hsp]
    dsimp only [State.readSpace]
    by_cases hk : a / 4096 = e.addr / 4096
    · have hin : (e.addr ≤ a ∧ a < e.addr + e.bytes.length) ↔
          (e.addr % 4096 ≤ a % 4096 ∧ a % 4096 < e.addr % 4096 + e.bytes.length) := by omega
      have hat : a - e.addr = a % 4096 - e.addr % 4096 := by omega
      simp only [hk, hin, hat]
      rw [Crew.tile_modTile_self htile, Tile.write, if_pos hlive]
      exact Mem.readBytes_one_writeBytes _ _ _ _
    · have hout : ¬(e.addr ≤ a ∧ a < e.addr + e.bytes.length) := by omega
      rw [if_neg hout, Crew.tile_modTile_ne hk]

/-- A store is read back, where it lies in its window and in a live tile. -/
theorem State.performStore_readsBack
    (hcrew : e.space = .die → e.addr < launchBase → e.addr + e.bytes.length ≤ launchBase)
    (hlaunch : e.space = .die → launchBase ≤ e.addr → ∃ l, Table.get? s.launches cr.launch = some l ∧
      (if cr.die = 0 then l.win0 else l.win1).isSome = true)
    (htile : e.space = .fl → e.addr / 4096 < cr.tiles.length ∧ e.addr % 4096 + e.bytes.length ≤ 4096 ∧
      (cr.tile (e.addr / 4096)).live s.tick = true) :
    ∃ cr' th', (s.performStore c tid e).crew? c = some cr' ∧ Table.get? cr'.threads tid = some th' ∧
      s.ReadsBack (s.performStore c tid e) cr cr' th th' e := by
  cases hsp : e.space with
  | stk => exact State.performStore_readsBack_stk hcr hth hsp
  | sh => exact State.performStore_readsBack_sh hcr hth hsp
  | die =>
    by_cases hbase : e.addr < launchBase
    · exact State.performStore_readsBack_crewWindow hcr hth hsp hbase (hcrew hsp hbase)
    · exact State.performStore_readsBack_launchWindow hcr hth hsp hbase (hlaunch hsp (Nat.le_of_not_lt hbase))
  | fl =>
    obtain ⟨hlen, hend, hlive⟩ := htile hsp
    exact State.performStore_readsBack_fl hcr hth hsp hlen hend hlive

end

end Sys2Proof.Machine

namespace Sys2Proof

open Machine

/-- Settles O20: a fence goes on behind the drain that empties its FIFO (`State.Solo.drained_of_drains`), the oldest store
performs alone (`State.world_drain_eq`), and what it leaves is read back space by space (`State.performStore_readsBack`). -/
theorem fencesAndStoreOrder : Obligations.FencesAndStoreOrder := by
  unfold Obligations.FencesAndStoreOrder
  refine ⟨fun s b => ⟨fun tid cr th h hclear => ⟨fun hlo hhi w th' hw hth' hfifo hended hpc =>
    h.execFence_completes hclear hlo hhi hw hth' hfifo hended hpc, fun hstores hdone => ?_, fun hnot => ?_⟩,
    fun hlanes hb => execFence_illegal hlanes hb⟩, fun _ _ _ => rfl, forwardedByte_concat, fun s c tid cr th e hcr hth => ?_⟩
  · exact h.execNtDrain_completes hclear (th.ntSettled_iff.2 ⟨hstores, hdone⟩)
  · refine h.execNtDrain_parks hclear fun hsettled => ?_
    obtain ⟨hstores, hdone⟩ := th.ntSettled_iff.1 hsettled
    rcases hnot with hne | ⟨e, he, x, hx, hmeets⟩
    · exact hne hstores
    · exact absurd hmeets (by simp [hdone e he x hx])
  · refine ⟨fun rest hfifo hrun hline hlater hwf => ?_, fun sp a n w hw => ?_, fun hcrew hlaunch htile => ?_⟩
    · exact State.world_drain_eq hcr hth hfifo hrun hline (Crew.laterLane_eq_false hwf hlater)
    · subst hw
      exact ⟨th.rearmNt_eq sp a n, fun x => (th.mem_rearmNt sp a n x).1, fun x => (th.mem_rearmNt sp a n x).2⟩
    · exact State.performStore_readsBack hcr hth hcrew hlaunch htile

end Sys2Proof
end

section
/-! SUPPORT. Tumblers (R16, R17, R108, R110, R170): the turn of a generation, a thread that leaves a tumbler, and the weld. -/

namespace Sys2Proof

/-! ## Tables -/

theorem Table.wf_adjust {α : Type} (m : Table α) (k : Nat) (f : α → α) : Table.wf (Table.adjust m k f) = Table.wf m := by
  have hrising : ∀ lo, Table.risingFrom lo (Table.adjust m k f) = Table.risingFrom lo m := by
    induction m with
    | nil => exact fun _ => rfl
    | cons d m ih =>
      intro lo
      obtain ⟨j, v⟩ := d
      have hcons : Table.adjust ((j, v) :: m) k f = (j, if j = k then f v else v) :: Table.adjust m k f := by
        unfold Table.adjust
        rw [List.map_cons]
        congr 1
        split <;> rfl
      rw [hcons, Table.risingFrom, Table.risingFrom, ih]
  exact hrising 0

theorem Table.adjust_id {α : Type} (m : Table α) (k : Nat) : (Table.adjust m k fun v => v) = m := by
  unfold Table.adjust
  simp

/-- The keys of a table in its canonical form are different. -/
theorem Table.nodup_keys {α : Type} {m : Table α} {lo : Nat} (h : Table.risingFrom lo m = true) : (m.map Prod.fst).Nodup := by
  induction m generalizing lo with
  | nil => exact List.nodup_nil
  | cons d m ih =>
    obtain ⟨j, v⟩ := d
    simp only [Table.risingFrom, Bool.and_eq_true] at h
    rw [List.map_cons, List.nodup_cons]
    refine ⟨fun hmem => ?_, ih h.2⟩
    obtain ⟨e, he, hj⟩ := List.mem_map.1 hmem
    have hlt := Table.le_key_of_rising h.2 he
    omega

/-- Several entries replaced, one after another. -/
theorem Table.get?_foldl_adjust_of_not_mem {α : Type} {ks : List Nat} {v : Nat} (h : v ∉ ks) (m : Table α) (f : α → α) :
    Table.get? (ks.foldl (fun m k => Table.adjust m k f) m) v = Table.get? m v := by
  induction ks generalizing m with
  | nil => rfl
  | cons k ks ih =>
    obtain ⟨hne, hks⟩ := not_or.1 (List.mem_cons.not.1 h)
    rw [List.foldl_cons, ih hks, Table.get?_adjust, if_neg hne]

theorem Table.get?_foldl_adjust {α : Type} {ks : List Nat} (hd : ks.Nodup) (m : Table α) (f : α → α) (v : Nat) :
    Table.get? (ks.foldl (fun m k => Table.adjust m k f) m) v =
      if v ∈ ks then (Table.get? m v).map f else Table.get? m v := by
  induction ks generalizing m with
  | nil => simp
  | cons k ks ih =>
    obtain ⟨hk, hd⟩ := List.nodup_cons.1 hd
    rw [List.foldl_cons]
    by_cases hv : v = k
    · subst hv
      rw [Table.get?_foldl_adjust_of_not_mem hk, Table.get?_adjust, if_pos rfl, if_pos List.mem_cons_self]
    · rw [ih hd, Table.get?_adjust, if_neg hv]
      simp [hv]

end Sys2Proof

namespace Sys2Proof.Machine

open Sys2Proof

variable {s t : State} {cr : Crew} {th : Thread} {c k tid : Nat}

/-! ## The waiters of a tumbler -/

/-- The threads of a crew that wait on a tumbler. -/
def Crew.tumblerWaiters (cr : Crew) (k : Nat) : List Nat :=
  cr.threads.filterMap fun e => if e.2.wait = some (.tumbler k) then some e.1 else none

theorem Crew.mem_tumblerWaiters {v : Nat} :
    v ∈ cr.tumblerWaiters k ↔ ∃ e ∈ cr.threads, e.2.wait = some (.tumbler k) ∧ e.1 = v := by
  simp only [Crew.tumblerWaiters, List.mem_filterMap, Option.ite_none_right_eq_some, Option.some.injEq]

theorem Crew.mem_tumblerWaiters_of_wf (hwf : Table.wf cr.threads = true) {v : Nat} :
    v ∈ cr.tumblerWaiters k ↔ ∃ u, Table.get? cr.threads v = some u ∧ u.wait = some (.tumbler k) := by
  rw [Crew.mem_tumblerWaiters]
  constructor
  · rintro ⟨e, he, hwait, rfl⟩
    exact ⟨e.2, (Table.mem_iff_get? hwf).1 he, hwait⟩
  · rintro ⟨u, hu, hwait⟩
    exact ⟨(v, u), Table.mem_of_get? hu, hwait, rfl⟩

theorem Crew.nodup_tumblerWaiters (hwf : Table.wf cr.threads = true) : (cr.tumblerWaiters k).Nodup := by
  have hsub : (cr.tumblerWaiters k).Sublist (cr.threads.map Prod.fst) := by
    unfold Crew.tumblerWaiters
    generalize cr.threads = m
    induction m with
    | nil => exact .slnil
    | cons e m ih =>
      rw [List.filterMap_cons, List.map_cons]
      split
      · exact ih.cons _
      · next v hv =>
        simp only [Option.ite_none_right_eq_some, Option.some.injEq] at hv
        rw [← hv.2]
        exact ih.cons_cons _
  exact (Table.nodup_keys hwf).sublist hsub

/-- A waiter whose instruction completes without a result. -/
def Thread.released (th : Thread) : Thread := th.commit th.parkLen (.after 0) []

theorem Thread.released_eq (th : Thread) : th.released = th.commit th.parkLen .now [] := th.commit_nil _ _

/-- Waiters that are released one after another. -/
theorem State.foldl_release (ws : List Nat) (s : State) (c : Nat) :
    ws.foldl (fun (s : State) w => s.release c w 0 []) s = s.modCrew c fun x =>
      { x with threads := ws.foldl (fun m w => Table.adjust m w Thread.released) x.threads } := by
  induction ws generalizing s with
  | nil =>
    have hid : s.modCrew c (fun x => x) = s := by
      unfold State.modCrew
      rw [Table.adjust_id]
    exact hid.symm
  | cons w ws ih =>
    rw [List.foldl_cons, ih, State.release, State.modThread, State.modCrew_modCrew]
    rfl

/-! ## The turn of a generation (R16) -/

theorem State.mapUnits_clusters (s : State) (cr : Crew) (f : MatrixUnit → MatrixUnit) :
    { s.mapUnits cr f with clusters := s.clusters } = s := by
  refine List.foldlRecOn cr.units _ (motive := fun t : State => { t with clusters := s.clusters } = s) rfl fun t ht ku _ => ?_
  dsimp only
  split
  · exact ht
  · exact ht

theorem State.log_prefetched (s : State) (ctx : Nat) (r : LogRecord) (crew : Option Nat) :
    s.Prefetched (s.log ctx r crew) := by
  unfold State.log
  dsimp only
  split <;> rfl

/-- The tumbler behind its turn. -/
def Tumbler.turned (b : Tumbler) : Tumbler := { b with gen := b.gen + 1#32, signed := [], orphan := false }

/-- What a turn changes outside the crew: row stores that it turns, and, where a claim on it had lost its lease, the error
log and the request that the log raises (R243). -/
def State.TurnSide (s u : State) (orphan : Bool) : Prop :=
  u.crews = s.crews ∧ u.cur = s.cur ∧ if orphan then s.Prefetched u else { u with clusters := s.clusters } = s

/-- The turn: what it does outside the crew, then the tumbler and the waiters of the crew. -/
theorem State.turn_eq (hcr : s.crew? c = some cr) (k : Nat) : ∃ u, s.TurnSide u (cr.tumbler k).orphan ∧
    s.turn c k = u.modCrew c fun x => { x.putTumbler k (cr.tumbler k).turned with
      threads := (cr.tumblerWaiters k).foldl (fun m w => Table.adjust m w Thread.released) x.threads } := by
  have hunits := s.mapUnits_clusters cr fun u => u.turnClaims c k (cr.tumbler k).gen
  unfold State.turn
  rw [hcr]
  dsimp only
  rw [← Crew.tumblerWaiters, State.foldl_release, State.modCrew_modCrew]
  refine ⟨_, ?_, rfl⟩
  unfold State.TurnSide
  cases (cr.tumbler k).orphan with
  | false => exact ⟨(congrArg State.crews hunits :), (congrArg State.cur hunits :), hunits⟩
  | true =>
    have hlog := (s.mapUnits cr fun u => u.turnClaims c k (cr.tumbler k).gen).log_prefetched cr.ctx
      ((s.mapUnits cr fun u => u.turnClaims c k (cr.tumbler k).gen).crewRecord cr Code.mxNolease 0 k 0 0) (some c)
    have hall : s.Prefetched (s.mapUnits cr fun u => u.turnClaims c k (cr.tumbler k).gen) :=
      (congrArg (fun x : State => { x with contexts := s.contexts, calls := s.calls, nextId := s.nextId }) hunits :)
    have hside := hall.trans hlog
    exact ⟨(congrArg State.crews hside :), (congrArg State.cur hside :), hside⟩

/-! ## Sets of threads -/

theorem mem_insertId (tid : Nat) (ids : List Nat) (u : Nat) : u ∈ insertId tid ids ↔ u = tid ∨ u ∈ ids := by
  induction ids with
  | nil => simp [insertId]
  | cons i ids ih =>
    rw [insertId]
    split
    · simp
    · split
      · next heq => simp [heq]
      · rw [List.mem_cons, ih, List.mem_cons]
        exact or_left_comm

theorem Crew.tumbler_putTumbler (cr : Crew) (k j : Nat) (b : Tumbler) :
    (cr.putTumbler k b).tumbler j = if j = k then b else cr.tumbler j := Sparse.get_set _ _ _ _ _

/-- A signature completes the declared set where no other member is left to sign. -/
theorem Tumbler.complete_insertId (b : Tumbler) (tid : Nat) : { b with signed := insertId tid b.signed }.complete = true ↔
    ¬∃ m ∈ b.declared, m ≠ tid ∧ m ∉ b.signed := by
  have hne : insertId tid b.signed ≠ [] := List.ne_nil_of_mem ((mem_insertId tid b.signed tid).2 (.inl rfl))
  simp only [Tumbler.complete, hne, decide_not, decide_false, Bool.not_false, Bool.and_true, List.all_eq_true,
    List.contains_iff_mem, mem_insertId, not_exists, not_and, not_not]
  exact ⟨fun h m hm hne => (h m hm).resolve_left hne, fun h m hm => or_iff_not_imp_left.2 (h m hm)⟩

/-! ## Joining and waiting -/

/-- A tumbler of the bundle's crew changes, and its thread goes on. -/
theorem State.Solo.putTumbler_finishLane (h : s.Solo tid cr th) (k : Nat) (f : Tumbler → Tumbler) :
    s.NowThread ((s.modCrew s.cur.crew fun x => x.putTumbler k (f (x.tumbler k))).finishLane tid .now [] [])
      (cr.putTumbler k (f (cr.tumbler k))) tid (th.commit s.cur.length .now []) :=
  State.nowThread_modThread (fun x => x.putTumbler k (f (x.tumbler k))) (fun u => u.commit s.cur.length .now []) h.2.1 h.2.2.1

theorem State.Solo.execTbJoin (h : s.Solo tid cr th) (hclear : s.Clear (lx [] false)) (k : BitVec 4) :
    ∃ t, exec (.tbJoin k) s = .next t ∧ s.NowThread t
      (cr.putTumbler k.toNat { cr.tumbler k.toNat with declared := insertId tid (cr.tumbler k.toNat).declared }) tid
      (th.commit s.cur.length .now []) := by
  refine ⟨_, rfl, ?_⟩
  rw [State.guarded_of_clear _ _ _ hclear, h.lanewise]
  exact h.putTumbler_finishLane k.toNat fun b => { b with declared := insertId tid b.declared }

theorem State.Solo.execTbWait (h : s.Solo tid cr th) {d : BitVec 7} (hclear : s.Clear (lx [lxSrc32 d] false)) (k : BitVec 4) :
    ∃ t, exec (.tbWait k d) s = .next t ∧
      if (cr.tumbler k.toNat).gen ≠ th.read32 d ∨ (cr.tumbler k.toNat).declared = [] then
        s.OnlyThread t tid (th.commit s.cur.length .now [])
      else s.Parks t tid th (.tumbler k.toNat) := by
  refine ⟨_, rfl, ?_⟩
  rw [State.guarded_of_clear _ _ _ hclear, h.lanewise, h.curCrew]
  dsimp only
  split
  · exact h.finishLane _ _ _
  · exact State.park_parks h.thread _

/-! ## The signature of a member -/

theorem State.Solo.memberTrap (h : s.Solo tid cr th) (hmem : tid ∈ (cr.tumbler k).declared) : s.memberTrap k = none := by
  unfold State.memberTrap
  rw [h.curCrew]
  exact h.laneTrap _ _ _ (by simpa using hmem)

theorem State.Solo.memberTrap_other (h : s.Solo tid cr th) (hmem : tid ∉ (cr.tumbler k).declared) (hk : k < 2 ^ 64) :
    s.memberTrap k = some (s.trap Code.tumblerNm (s.maskOf fun e => s.cur.active e.1 e.2) k) := by
  unfold State.memberTrap
  rw [h.curCrew]
  dsimp only
  rw [h.laneTrap_of_bad _ _ (by simpa using hmem), offInfo_natCast hk]

/-- The thread that completes and closes its region, as one change of it. -/
theorem State.finishLane_closeRegion_eq (hcr : s.crew? s.cur.crew = some cr) (tid : Nat) (mode : ResultMode) (rs : Results)
    (os : List Opnd) : (s.finishLane tid mode rs os).closeRegion s.cur.crew tid =
      s.modThread s.cur.crew tid fun u => s.closed cr ((u.commit s.cur.length mode rs).advanceIx os) := by
  have hfin : (s.finishLane tid mode rs os).crew? s.cur.crew =
      some (cr.modThread tid fun u => (u.commit s.cur.length mode rs).advanceIx os) := by
    rw [State.finishLane, State.modThread, State.crew?_modCrew, if_pos rfl, hcr, Option.map_some]
  have hclosed : (s.finishLane tid mode rs os).closed (cr.modThread tid fun u => (u.commit s.cur.length mode rs).advanceIx os) =
      s.closed cr := funext fun u => State.closed_congr rfl rfl rfl u
  rw [State.closeRegion_eq hfin, hclosed, State.finishLane, State.modThread_modThread]

/-- The bundle's crew once the thread has signed. -/
def State.signedCrew (s : State) (tid k : Nat) (mode : ResultMode) (rs : Results) (cr x : Crew) : Crew :=
  (x.putTumbler k { x.tumbler k with signed := insertId tid (x.tumbler k).signed }).modThread tid fun u =>
    s.closed cr ((u.commit s.cur.length mode rs).advanceIx [])

theorem State.Solo.sign_eq (h : s.Solo tid cr th) (k : Nat) (mode : ResultMode) (rs : Results) :
    ((s.finishLane tid mode rs []).closeRegion s.cur.crew tid).sign s.cur.crew k tid =
      (s.modCrew s.cur.crew (s.signedCrew tid k mode rs cr)).turnIfComplete s.cur.crew k := by
  rw [State.finishLane_closeRegion_eq h.2.1, State.sign, State.modThread, State.modCrew_modCrew]
  rfl

theorem State.signedCrew_tumbler (s : State) (tid k j : Nat) (mode : ResultMode) (rs : Results) (cr x : Crew) :
    (s.signedCrew tid k mode rs cr x).tumbler j =
      if j = k then { x.tumbler k with signed := insertId tid (x.tumbler k).signed } else x.tumbler j :=
  x.tumbler_putTumbler k j _

/-- A signature that leaves a member to sign is counted. -/
theorem State.Solo.sign_counts (h : s.Solo tid cr th) (mode : ResultMode) (rs : Results)
    (hleft : ∃ m ∈ (cr.tumbler k).declared, m ≠ tid ∧ m ∉ (cr.tumbler k).signed) :
    s.NowThread (((s.finishLane tid mode rs []).closeRegion s.cur.crew tid).sign s.cur.crew k tid)
      (cr.putTumbler k { cr.tumbler k with signed := insertId tid (cr.tumbler k).signed }) tid
      (s.closed cr (th.commit s.cur.length mode rs)) := by
  have hincomplete : ¬((s.signedCrew tid k mode rs cr cr).tumbler k).complete = true := by
    rw [State.signedCrew_tumbler, if_pos rfl, Tumbler.complete_insertId]
    exact not_not.2 hleft
  have hsame : (s.modCrew s.cur.crew (s.signedCrew tid k mode rs cr)).turnIfComplete s.cur.crew k =
      s.modCrew s.cur.crew (s.signedCrew tid k mode rs cr) := by
    unfold State.turnIfComplete
    rw [State.crew?_modCrew_self h.2.1]
    exact if_neg hincomplete
  have horder : s.modCrew s.cur.crew (s.signedCrew tid k mode rs cr) =
      (s.modCrew s.cur.crew fun x => x.putTumbler k { x.tumbler k with
        signed := insertId tid (x.tumbler k).signed }).modThread s.cur.crew tid fun u =>
          s.closed cr ((u.commit s.cur.length mode rs).advanceIx []) := by
    rw [State.modThread, State.modCrew_modCrew]
    rfl
  rw [h.sign_eq, hsame, horder]
  exact State.nowThread_modThread _ _ h.2.1 h.2.2.1

/-- The bundle's crew behind a signature that turns the generation. -/
def State.turnedCrew (s : State) (tid k : Nat) (mode : ResultMode) (rs : Results) (cr y : Crew) : Crew :=
  { y.putTumbler k { cr.tumbler k with gen := (cr.tumbler k).gen + 1#32, signed := [], orphan := false } with
    threads := ((s.signedCrew tid k mode rs cr cr).tumblerWaiters k).foldl
      (fun m w => Table.adjust m w Thread.released) y.threads }

/-- A signature that completes the declared set turns the generation. -/
theorem State.Solo.sign_turns (h : s.Solo tid cr th) (mode : ResultMode) (rs : Results)
    (hlast : ¬∃ m ∈ (cr.tumbler k).declared, m ≠ tid ∧ m ∉ (cr.tumbler k).signed) :
    ∃ u, (s.modCrew s.cur.crew (s.signedCrew tid k mode rs cr)).TurnSide u (cr.tumbler k).orphan ∧
      ((s.finishLane tid mode rs []).closeRegion s.cur.crew tid).sign s.cur.crew k tid =
        u.modCrew s.cur.crew (s.turnedCrew tid k mode rs cr) := by
  have hcrew := State.crew?_modCrew_self h.2.1 (s.signedCrew tid k mode rs cr)
  have htumbler := s.signedCrew_tumbler tid k k mode rs cr cr
  rw [if_pos rfl] at htumbler
  have hcomplete : ((s.signedCrew tid k mode rs cr cr).tumbler k).complete = true := by
    rw [htumbler, Tumbler.complete_insertId]
    exact hlast
  have hturn : (s.modCrew s.cur.crew (s.signedCrew tid k mode rs cr)).turnIfComplete s.cur.crew k =
      (s.modCrew s.cur.crew (s.signedCrew tid k mode rs cr)).turn s.cur.crew k := by
    unfold State.turnIfComplete
    rw [hcrew]
    exact if_pos hcomplete
  obtain ⟨u, hside, heq⟩ := State.turn_eq hcrew k
  rw [htumbler] at hside heq
  exact ⟨u, hside, (h.sign_eq k mode rs).trans (hturn.trans heq)⟩

/-- The threads of a crew behind the turn that one of them completes. -/
theorem State.Solo.get?_turned (h : s.Solo tid cr th) (hwf : Table.wf cr.threads = true) (mode : ResultMode) (rs : Results) :
    let ts := (s.turnedCrew tid k mode rs cr (s.signedCrew tid k mode rs cr cr)).threads
    Table.get? ts tid = some (s.closed cr (th.commit s.cur.length mode rs)) ∧
      ∀ v u, v ≠ tid → Table.get? cr.threads v = some u →
        Table.get? ts v = some (if u.wait = some (.tumbler k) then u.commit u.parkLen .now [] else u) := by
  intro ts
  let x := s.signedCrew tid k mode rs cr cr
  have hts : ts = (x.tumblerWaiters k).foldl (fun m w => Table.adjust m w Thread.released) x.threads := rfl
  have hthreads : x.threads = Table.adjust cr.threads tid fun u =>
    s.closed cr ((u.commit s.cur.length mode rs).advanceIx []) := rfl
  have hwfx : Table.wf x.threads = true := by rw [hthreads, Table.wf_adjust, hwf]
  have hself : Table.get? x.threads tid = some (s.closed cr (th.commit s.cur.length mode rs)) := by
    rw [hthreads]
    exact Table.get?_adjust_self h.2.2.1 fun u => s.closed cr ((u.commit s.cur.length mode rs).advanceIx [])
  have hother : ∀ v, v ≠ tid → Table.get? x.threads v = Table.get? cr.threads v := fun v hv => by
    rw [hthreads, Table.get?_adjust, if_neg hv]
  refine ⟨?_, fun v u hv hu => ?_⟩
  · have hnot : tid ∉ x.tumblerWaiters k := fun hmem => by
      obtain ⟨u, hu, hwait⟩ := (Crew.mem_tumblerWaiters_of_wf hwfx).1 hmem
      rw [hself] at hu
      obtain rfl := Option.some.inj hu
      exact nomatch hwait
    rw [hts, Table.get?_foldl_adjust_of_not_mem hnot, hself]
  · have hmem : v ∈ x.tumblerWaiters k ↔ u.wait = some (.tumbler k) := by
      rw [Crew.mem_tumblerWaiters_of_wf hwfx, hother v hv, hu]
      simp
    rw [hts, Table.get?_foldl_adjust (Crew.nodup_tumblerWaiters hwfx), hother v hv, hu]
    simp only [hmem]
    split
    · exact congrArg some u.released_eq
    · rfl

theorem State.turnedCrew_tumbler (s : State) (tid k j : Nat) (mode : ResultMode) (rs : Results) (cr : Crew) :
    (s.turnedCrew tid k mode rs cr (s.signedCrew tid k mode rs cr cr)).tumbler j =
      if j = k then { cr.tumbler k with gen := (cr.tumbler k).gen + 1#32, signed := [], orphan := false }
      else cr.tumbler j := by
  refine (Crew.tumbler_putTumbler (s.signedCrew tid k mode rs cr cr) k j _).trans ?_
  by_cases hj : j = k
  · rw [if_pos hj, if_pos hj]
  · rw [if_neg hj, if_neg hj, s.signedCrew_tumbler, if_neg hj]

/-- A crew that differs, if at all, in its threads and tumblers. -/
def Crew.ThreadsAndTumblers (x y : Crew) : Prop := { y with tumblers := x.tumblers, threads := x.threads } = x

theorem Crew.ThreadsAndTumblers.trans {x y z : Crew} (h : x.ThreadsAndTumblers y) (h' : y.ThreadsAndTumblers z) :
    x.ThreadsAndTumblers z :=
  (congrArg (fun w : Crew => { w with tumblers := x.tumblers, threads := x.threads }) h' :).trans h

theorem State.turnedCrew_rest (s : State) (tid k : Nat) (mode : ResultMode) (rs : Results) (cr y : Crew) :
    y.ThreadsAndTumblers (s.turnedCrew tid k mode rs cr y) := by
  unfold State.turnedCrew Crew.putTumbler
  rfl

theorem State.signedCrew_rest (s : State) (tid k : Nat) (mode : ResultMode) (rs : Results) (cr y : Crew) :
    y.ThreadsAndTumblers (s.signedCrew tid k mode rs cr y) := by
  unfold State.signedCrew Crew.putTumbler Crew.modThread
  rfl

/-- What a turn does outside the crew, beside a change of the crew. -/
theorem State.TurnSide.crewOnly {u : State} {f g : Crew → Crew} {b : Bool} (h : (s.modCrew s.cur.crew f).TurnSide u b) :
    s.CrewOnly (if b then
        { u.modCrew s.cur.crew g with clusters := s.clusters, contexts := s.contexts, calls := s.calls, nextId := s.nextId }
      else { u.modCrew s.cur.crew g with clusters := s.clusters }) := by
  obtain ⟨hcrews, -, hside⟩ := h
  have hothers : ∀ d, d ≠ s.cur.crew → (u.modCrew s.cur.crew g).crew? d = s.crew? d := fun d hd => by
    rw [State.crew?_modCrew, if_neg hd, State.crew?, hcrews]
    exact (State.crew?_modCrew s s.cur.crew d f).trans (if_neg hd)
  cases b with
  | false => exact ⟨(congrArg (fun x : State => { x with crews := s.crews }) hside :), hothers⟩
  | true => exact ⟨(congrArg (fun x : State => { x with crews := s.crews }) hside :), hothers⟩

/-- The machine behind the signature that turns the generation. -/
theorem State.Solo.sign_turned (h : s.Solo tid cr th) (hwf : Table.wf cr.threads = true) (mode : ResultMode) (rs : Results)
    (hlast : ¬∃ m ∈ (cr.tumbler k).declared, m ≠ tid ∧ m ∉ (cr.tumbler k).signed)
    {t : State} (ht : t = ((s.finishLane tid mode rs []).closeRegion s.cur.crew tid).sign s.cur.crew k tid) :
    ∃ cr', t.crew? s.cur.crew = some cr' ∧
      Table.get? cr'.threads tid = some (s.closed cr (th.commit s.cur.length mode rs)) ∧
      s.CrewOnly (if (cr.tumbler k).orphan then
          { t with clusters := s.clusters, contexts := s.contexts, calls := s.calls, nextId := s.nextId }
        else { t with clusters := s.clusters }) ∧
      { cr' with tumblers := cr.tumblers, threads := cr.threads } = cr ∧
      (cr'.tumbler k).gen = (cr.tumbler k).gen + 1#32 ∧ (cr'.tumbler k).signed = [] ∧
      (cr'.tumbler k).declared = (cr.tumbler k).declared ∧ (∀ j, j ≠ k → cr'.tumbler j = cr.tumbler j) ∧
      ∀ v u, v ≠ tid → Table.get? cr.threads v = some u → Table.get? cr'.threads v = some
        (if u.wait = some (.tumbler k) then u.commit u.parkLen .now [] else u) := by
  obtain ⟨u, hside, heq⟩ := h.sign_turns mode rs hlast
  have hu : u.crew? s.cur.crew = some (s.signedCrew tid k mode rs cr cr) := by
    rw [State.crew?, hside.1]
    exact State.crew?_modCrew_self h.2.1 _
  obtain ⟨hself, hothers⟩ := h.get?_turned (k := k) hwf mode rs
  have htumbler := s.turnedCrew_tumbler tid k
  rw [ht, heq]
  refine ⟨_, State.crew?_modCrew_self hu _, hself, hside.crewOnly,
    (s.signedCrew_rest tid k mode rs cr cr).trans (s.turnedCrew_rest tid k mode rs cr _), ?_, ?_, ?_,
    fun j hj => ?_, hothers⟩
  · rw [htumbler, if_pos rfl]
  · rw [htumbler, if_pos rfl]
  · rw [htumbler, if_pos rfl]
  · rw [htumbler, if_neg hj]

theorem State.Solo.execTbSign (h : s.Solo tid cr th) {d : BitVec 7} (hclear : s.Clear (lx [lxDst32 d] false)) {k : BitVec 4}
    (hmem : tid ∈ (cr.tumbler k.toNat).declared) (hnew : tid ∉ (cr.tumbler k.toNat).signed) (hfifo : th.fifo = [])
    (la : BitVec 4) : exec (.tbSign k d la) s = .next
      (((s.finishLane tid (.after la.toNat) [(.reg (th.regOf d), (cr.tumbler k.toNat).gen)] []).closeRegion s.cur.crew
        tid).sign s.cur.crew k.toNat tid) := by
  have hsigned : (cr.tumbler k.toNat).signed.contains tid = false := by simpa using hnew
  refine congrArg Host.Outcome.next ?_
  rw [State.guarded_of_clear _ _ _ hclear, h.memberTrap hmem]
  dsimp only
  rw [h.lanewise, h.curCrew]
  dsimp only
  rw [hsigned, h.drained _ _ _ hfifo]
  rfl

theorem State.Solo.execTbSign_parks (h : s.Solo tid cr th) {d : BitVec 7} (hclear : s.Clear (lx [lxDst32 d] false))
    {k : BitVec 4} (hmem : tid ∈ (cr.tumbler k.toNat).declared) (hsigned : tid ∈ (cr.tumbler k.toNat).signed)
    (la : BitVec 4) : ∃ t, exec (.tbSign k d la) s = .next t ∧ s.Parks t tid th (.sign k.toNat) := by
  refine ⟨_, rfl, ?_⟩
  rw [State.guarded_of_clear _ _ _ hclear, h.memberTrap hmem]
  dsimp only
  rw [h.lanewise, h.curCrew]
  dsimp only
  rw [if_pos (by simpa using hsigned)]
  exact State.park_parks h.thread _

theorem State.Solo.execTbSign_traps (h : s.Solo tid cr th) {d : BitVec 7} (hclear : s.Clear (lx [lxDst32 d] false))
    {k : BitVec 4} (hmem : tid ∉ (cr.tumbler k.toNat).declared) (la : BitVec 4) : exec (.tbSign k d la) s =
      .next (s.trap Code.tumblerNm (s.maskOf fun e => s.cur.active e.1 e.2) k.toNat) := by
  refine congrArg Host.Outcome.next ?_
  rw [State.guarded_of_clear _ _ _ hclear, h.memberTrap_other hmem (by omega)]

/-! ## The weld (R108) -/

/-- The reason for which a thread may not weld, where the crew's tumblers are in their canonical form. -/
theorem Crew.weldReason_eq (hwf : Table.wf cr.tumblers = true) {first why : Nat}
    (helse : (∃ j, j ≠ k ∧ tid ∈ (cr.tumbler j).weld) → why = 1)
    (hwhy : (∀ j, j ≠ k → tid ∉ (cr.tumbler j).weld) → ∀ f, Table.get? cr.threads first = some f →
      why = if f.role ≠ th.role then 2 else if cr.block first f ≠ cr.block tid th then 3 else 0)
    (hfirst : (Table.get? cr.threads first).isSome = true) : cr.weldReason k tid first th = why := by
  have hany : (cr.tumblers.any fun e => e.1 ≠ k && e.2.weld.contains tid) = true ↔
      ∃ j, j ≠ k ∧ tid ∈ (cr.tumbler j).weld := by
    simp only [List.any_eq_true, Bool.and_eq_true, decide_eq_true_eq, List.contains_iff_mem]
    constructor
    · rintro ⟨e, he, hne, hmem⟩
      refine ⟨e.1, hne, ?_⟩
      rw [Crew.tumbler, Sparse.get, (Table.mem_iff_get? hwf).1 he]
      exact hmem
    · rintro ⟨j, hne, hmem⟩
      rw [Crew.tumbler, Sparse.get] at hmem
      cases hget : Table.get? cr.tumblers j with
      | none => rw [hget] at hmem; exact nomatch hmem
      | some b => exact ⟨(j, b), Table.mem_of_get? hget, hne, by rwa [hget] at hmem⟩
  unfold Crew.weldReason
  by_cases hj : ∃ j, j ≠ k ∧ tid ∈ (cr.tumbler j).weld
  · rw [if_pos (hany.2 hj), helse hj]
  · obtain ⟨f, hf⟩ := Option.isSome_iff_exists.1 hfirst
    rw [if_neg (hany.not.2 hj), hf, hwhy (fun j hne hmem => hj ⟨j, hne, hmem⟩) f hf]

theorem State.Solo.execWeld_welds (h : s.Solo tid cr th) (hclear : s.Clear (lx [] false)) {k : BitVec 4}
    (hreason : cr.weldReason k.toNat tid ((cr.tumbler k.toNat).weld.headD tid) th = 0) :
    ∃ t, exec (.weld k) s = .next t ∧ s.NowThread t
      (cr.putTumbler k.toNat { cr.tumbler k.toNat with
        declared := insertId tid (cr.tumbler k.toNat).declared, weld := insertId tid (cr.tumbler k.toNat).weld }) tid
      (th.commit s.cur.length .now []) := by
  refine ⟨_, rfl, ?_⟩
  rw [State.guarded_of_clear _ _ _ hclear, h.curCrew, h.activeLanes]
  dsimp only
  rw [h.laneTrap _ _ _ (decide_eq_false (not_not.2 hreason))]
  dsimp only
  rw [h.lanewise]
  exact h.putTumbler_finishLane k.toNat fun b => { b with declared := insertId tid b.declared, weld := insertId tid b.weld }

theorem State.Solo.execWeld_traps (h : s.Solo tid cr th) (hclear : s.Clear (lx [] false)) {k : BitVec 4} {why : Nat}
    (hreason : cr.weldReason k.toNat tid ((cr.tumbler k.toNat).weld.headD tid) th = why) (hne : why ≠ 0)
    (hwhy : why < 2 ^ 64) : exec (.weld k) s =
      .next (s.trap Code.weldBad (s.maskOf fun e => s.cur.active e.1 e.2) why) := by
  have hbad : cr.weldReason k.toNat tid ((cr.tumbler k.toNat).weld.headD tid) th ≠ 0 := fun h0 => hne (hreason.symm.trans h0)
  refine congrArg Host.Outcome.next ?_
  rw [State.guarded_of_clear _ _ _ hclear, h.curCrew, h.activeLanes]
  dsimp only
  rw [h.laneTrap_of_bad _ _ (decide_eq_true hbad)]
  dsimp only
  rw [hreason, offInfo_natCast hwhy]

theorem Crew.weldReason_le (cr : Crew) (k tid first : Nat) (th : Thread) : cr.weldReason k tid first th ≤ 3 := by
  unfold Crew.weldReason
  split
  · decide
  · split
    · decide
    · split_ifs <;> decide

/-! ## A thread that leaves a tumbler (R17, R110) -/

/-- A thread has left a tumbler of its crew: its other tumblers are as they were, and threads that waited on that one may
have been released. -/
structure State.Left (s t : State) (c k tid : Nat) (y y' : Crew) : Prop where
  crew : t.crew? c = some y'
  cur : t.cur = s.cur
  rest : { y' with tumblers := y.tumblers, threads := y.threads } = y
  released : ∃ ws : List Nat, (∀ w ∈ ws, w ∈ y.tumblerWaiters k) ∧
    y'.threads = ws.foldl (fun m w => Table.adjust m w Thread.released) y.threads
  others : ∀ j, j ≠ k → y'.tumbler j = y.tumbler j
  gone : tid ∉ (y'.tumbler k).declared ∧ tid ∉ (y'.tumbler k).weld
  kept : ∀ u, u ≠ tid → (u ∈ (y'.tumbler k).declared ↔ u ∈ (y.tumbler k).declared)

/-- A tumbler that a thread has left. -/
def Tumbler.without (b : Tumbler) (tid : Nat) : Tumbler :=
  { b with declared := b.declared.filter (· ≠ tid), weld := b.weld.filter (· ≠ tid) }

/-- A crew whose tumbler has lost a thread, with whatever its turn has changed. -/
theorem State.Left.of_filter {y y' : Crew} {b : Tumbler} {ws : List Nat} (hcrew : t.crew? c = some y') (hcur : t.cur = s.cur)
    (hrest : { y' with tumblers := y.tumblers, threads := y.threads } = y) (hws : ∀ w ∈ ws, w ∈ y.tumblerWaiters k)
    (hthreads : y'.threads = ws.foldl (fun m w => Table.adjust m w Thread.released) y.threads)
    (htumbler : ∀ j, y'.tumbler j = if j = k then b else y.tumbler j)
    (hdeclared : b.declared = (y.tumbler k).declared.filter (· ≠ tid)) (hweld : b.weld = (y.tumbler k).weld.filter (· ≠ tid)) :
    s.Left t c k tid y y' := by
  refine ⟨hcrew, hcur, hrest, ⟨ws, hws, hthreads⟩, fun j hj => ?_, ?_, fun u hu => ?_⟩
  · rw [htumbler, if_neg hj]
  · rw [htumbler, if_pos rfl, hdeclared, hweld]
    simp
  · rw [htumbler, if_pos rfl, hdeclared]
    simp [hu]

theorem State.leaveTumbler_left {y : Crew} (hy : s.crew? c = some y) (k tid : Nat) :
    ∃ y', s.Left (s.leaveTumbler c k tid) c k tid y y' := by
  unfold State.leaveTumbler
  rw [hy]
  dsimp only
  split
  · have hcrew := State.crew?_modCrew_self hy fun x => x.putTumbler k ((y.tumbler k).without tid)
    have htumbler := fun j => y.tumbler_putTumbler k j ((y.tumbler k).without tid)
    split
    · obtain ⟨u, ⟨hcrews, hcur, -⟩, heq⟩ := State.turn_eq hcrew k
      have hu : u.crew? c = some (y.putTumbler k ((y.tumbler k).without tid)) := by
        rw [State.crew?, hcrews]
        exact hcrew
      rw [htumbler, if_pos rfl] at heq
      refine ⟨_, State.Left.of_filter (b := ((y.tumbler k).without tid).turned)
        ((congrArg (State.crew? · c) heq).trans (State.crew?_modCrew_self hu _)) ?_ rfl (fun _ h => h) rfl (fun j => ?_) rfl rfl⟩
      · exact (congrArg State.cur heq).trans hcur
      · refine (Crew.tumbler_putTumbler _ k j _).trans ?_
        rw [htumbler]
        split <;> rfl
    · split
      · rw [← Crew.tumblerWaiters, State.foldl_release, State.modCrew_modCrew]
        exact ⟨_, State.Left.of_filter (b := (y.tumbler k).without tid) (State.crew?_modCrew_self hy _) rfl rfl (fun _ h => h)
          rfl htumbler rfl rfl⟩
      · exact ⟨_, State.Left.of_filter (ws := []) hcrew rfl rfl (fun _ h => nomatch h) rfl htumbler rfl rfl⟩
  · next hmember =>
    simp only [Bool.or_eq_true, List.contains_iff_mem, not_or] at hmember
    exact ⟨y, hy, rfl, rfl, ⟨[], fun _ h => (nomatch h), rfl⟩, fun _ _ => rfl, hmember, fun _ _ => .rfl⟩

/-- Every thread of a crew has a property, which may name its number. -/
def Crew.Every (x : Crew) (Q : Nat → Thread → Prop) : Prop := ∀ e ∈ x.threads, Q e.1 e.2

/-- A property that a change of a thread keeps, kept through a change of one thread. -/
theorem Table.forall_adjust {α : Type} {m : Table α} {Q : Nat → α → Prop} (h : ∀ e ∈ m, Q e.1 e.2) (k : Nat) {f : α → α}
    (hf : ∀ v, Q k v → Q k (f v)) : ∀ e ∈ Table.adjust m k f, Q e.1 e.2 := by
  intro e he
  obtain ⟨d, hd, hkey, hval⟩ := Table.mem_adjust he
  rw [hkey, hval]
  split
  · next heq => exact heq ▸ hf _ (heq ▸ h d hd)
  · exact h d hd

theorem State.Left.every {y y' : Crew} (h : s.Left t c k tid y y') {Q : Nat → Thread → Prop} (hy : y.Every Q)
    (hQ : ∀ v u, Q v u → Q v u.released) : y'.Every Q := by
  obtain ⟨ws, -, hthreads⟩ := h.released
  unfold Crew.Every
  rw [hthreads]
  exact List.foldlRecOn ws _ (motive := fun m : Table Thread => ∀ e ∈ m, Q e.1 e.2) hy fun m hm w _ =>
    Table.forall_adjust hm w fun u => hQ w u

/-- Nothing of a thread's number waits. -/
def Crew.NotWaiting (x : Crew) (tid : Nat) : Prop := x.Every fun v u => v = tid → u.wait = none

theorem State.Left.notWaiting {y y' : Crew} (h : s.Left t c k tid y y') (hy : y.NotWaiting tid) : y'.NotWaiting tid :=
  h.every hy fun _ _ _ _ => rfl

/-- A thread that does not wait is as it was. -/
theorem State.Left.thread {y y' : Crew} (h : s.Left t c k tid y y') (hy : y.NotWaiting tid) :
    Table.get? y'.threads tid = Table.get? y.threads tid := by
  obtain ⟨ws, hws, hthreads⟩ := h.released
  have hnot : tid ∉ ws := fun hmem => by
    obtain ⟨e, he, hwait, heq⟩ := Crew.mem_tumblerWaiters.1 (hws tid hmem)
    rw [hy e he heq] at hwait
    exact nomatch hwait
  rw [hthreads, Table.get?_foldl_adjust_of_not_mem hnot]

/-- A thread has left some tumblers of its crew, and no other. -/
def Crew.LeftAll (y y' : Crew) (tid : Nat) (ks : List Nat) : Prop :=
  ∀ j, if j ∈ ks then
      tid ∉ (y'.tumbler j).declared ∧ tid ∉ (y'.tumbler j).weld ∧
        ∀ u, u ≠ tid → (u ∈ (y'.tumbler j).declared ↔ u ∈ (y.tumbler j).declared)
    else y'.tumbler j = y.tumbler j

theorem Crew.LeftAll.cons {x y z : Crew} {ks : List Nat} (h : s.Left t c k tid x y) (hyz : y.LeftAll z tid ks) :
    x.LeftAll z tid (k :: ks) := by
  intro j
  have hj := hyz j
  by_cases hk : j = k
  · subst hk
    rw [if_pos List.mem_cons_self]
    split at hj
    · exact ⟨hj.1, hj.2.1, fun u hu => (hj.2.2 u hu).trans (h.kept u hu)⟩
    · rw [hj]
      exact ⟨h.gone.1, h.gone.2, h.kept⟩
  · simp only [List.mem_cons, hk, false_or]
    rwa [h.others j hk] at hj

/-- A thread that does not wait leaves tumblers one after another. -/
theorem State.foldl_leaveTumbler (ks : List Nat) {y : Crew} (hy : s.crew? c = some y) (hnot : y.NotWaiting tid) :
    ∃ y', (ks.foldl (fun (t : State) k => t.leaveTumbler c k tid) s).crew? c = some y' ∧
      (ks.foldl (fun (t : State) k => t.leaveTumbler c k tid) s).cur = s.cur ∧
      { y' with tumblers := y.tumblers, threads := y.threads } = y ∧ y'.NotWaiting tid ∧
      Table.get? y'.threads tid = Table.get? y.threads tid ∧ y.LeftAll y' tid ks ∧
      ∀ Q : Nat → Thread → Prop, (∀ v u, Q v u → Q v u.released) → y.Every Q → y'.Every Q := by
  induction ks generalizing s y with
  | nil => exact ⟨y, hy, rfl, rfl, hnot, rfl, fun j => by simp, fun _ _ h => h⟩
  | cons k ks ih =>
    obtain ⟨x, hx⟩ := State.leaveTumbler_left hy k tid
    obtain ⟨y', hcrew, hcur, hrest, hnot', hthread, hleft, hevery⟩ := ih hx.crew (hx.notWaiting hnot)
    refine ⟨y', hcrew, hcur.trans hx.cur, ?_, hnot', hthread.trans (hx.thread hnot), .cons hx hleft,
      fun Q hQ h => hevery Q hQ (hx.every h hQ)⟩
    exact (congrArg (fun z : Crew => { z with tumblers := y.tumblers, threads := y.threads }) hrest).trans hx.rest

/-- The tumblers that unjoin leaves are those of its mask. -/
theorem mem_unjoinMask (m0 m1 : BitVec 7) (m2 : BitVec 2) {j : Nat} (hj : j < 16) :
    j ∈ (List.range 16).filter (fun k => (m0.toNat + m1.toNat * 2 ^ 7 + m2.toNat * 2 ^ 14).testBit k) ↔
      (m2 ++ m1 ++ m0 : BitVec 16).getLsbD j = true := by
  have hmask : (m2 ++ m1 ++ m0 : BitVec 16).toNat = m0.toNat + m1.toNat * 2 ^ 7 + m2.toNat * 2 ^ 14 := by
    rw [toNat_append_eq, toNat_append_eq]
    omega
  rw [List.mem_filter, List.mem_range, BitVec.getLsbD, hmask]
  exact and_iff_right hj

theorem State.leaveTumbler_cur (s : State) (c k tid : Nat) : (s.leaveTumbler c k tid).cur = s.cur := by
  cases hy : s.crew? c with
  | none => simp only [State.leaveTumbler, hy]
  | some y =>
    obtain ⟨y', hy'⟩ := State.leaveTumbler_left hy k tid
    exact hy'.cur

/-- The crew of the bundle stays that of the bundle while a thread leaves tumblers. -/
theorem State.foldl_leaveTumbler_cur (ks : List Nat) (tid : Nat) (s : State) :
    ks.foldl (fun (t : State) k => t.leaveTumbler t.cur.crew k tid) s =
      ks.foldl (fun (t : State) k => t.leaveTumbler s.cur.crew k tid) s := by
  induction ks generalizing s with
  | nil => rfl
  | cons k ks ih => rw [List.foldl_cons, List.foldl_cons, ih, State.leaveTumbler_cur]

theorem Crew.notWaiting_modThread (cr : Crew) (tid : Nat) {f : Thread → Thread} (hf : ∀ u, (f u).wait = none) :
    (cr.modThread tid f).NotWaiting tid := by
  intro e he heq
  obtain ⟨d, -, hkey, hval⟩ := Table.mem_adjust (t := cr.threads) he
  rw [hval, if_pos (hkey.symm.trans heq)]
  exact hf _

theorem State.Solo.execUnjoin (h : s.Solo tid cr th) (hclear : s.Clear (lx [] false)) (m0 m1 : BitVec 7) (m2 : BitVec 2) :
    ∃ t y', exec (.unjoin m0 m1 m2) s = .next t ∧ t.crew? s.cur.crew = some y' ∧
      t.thread? s.cur.crew tid = some (th.commit s.cur.length .now []) ∧
      cr.LeftAll y' tid ((List.range 16).filter fun k =>
        (m0.toNat + m1.toNat * 2 ^ 7 + m2.toNat * 2 ^ 14).testBit k) := by
  have hcrew := State.crew?_modCrew_self h.2.1 fun x => x.modThread tid fun u => u.commit s.cur.length .now []
  have hthread : Table.get? (cr.modThread tid fun u => u.commit s.cur.length .now []).threads tid =
      some (th.commit s.cur.length .now []) := Table.get?_adjust_self h.2.2.1 fun u => u.commit s.cur.length .now []
  obtain ⟨y', hy', -, -, -, hget, hleft, -⟩ := State.foldl_leaveTumbler (tid := tid) ((List.range 16).filter fun k =>
    (m0.toNat + m1.toNat * 2 ^ 7 + m2.toNat * 2 ^ 14).testBit k) hcrew (cr.notWaiting_modThread tid fun _ => rfl)
  refine ⟨_, y', rfl, ?_⟩
  rw [State.guarded_of_clear _ _ _ hclear, h.lanewise, State.foldl_leaveTumbler_cur]
  exact ⟨hy', (State.thread?_of_crew _ _ _ _ hy').trans (hget.trans hthread), hleft⟩

end Sys2Proof.Machine

namespace Sys2Proof

open Machine

/-- Settles O22: a signature is counted (`State.Solo.sign_counts`) or completes the declared set, and then the turn is one
change of the crew beside what it does outside (`State.Solo.sign_turns`, `State.turn_eq`); a thread that leaves tumblers
leaves those and keeps the others (`State.foldl_leaveTumbler`). -/
theorem tumblers : Obligations.Tumblers := by
  unfold Obligations.Tumblers
  intro s k d la tid cr th tb h htb
  subst htb
  refine ⟨fun hclear => h.execTbJoin hclear k, mem_insertId tid, fun hclear hmem hnew hfifo hwf => ?_,
    fun hclear hmem hsigned => h.execTbSign_parks hclear hmem hsigned la, fun hclear hmem =>
    h.execTbSign_traps hclear hmem la, fun hclear => h.execTbWait hclear k,
    fun hclear hwf first why hfirst helse hwhy hsome => ?_, fun m0 m1 m2 hclear => ?_⟩
  · refine ⟨_, h.execTbSign hclear hmem hnew hfifo la, ?_⟩
    intro th'
    split
    · next hleft => exact h.sign_counts _ _ hleft
    · next hlast =>
      exact h.sign_turned hwf _ _ hlast rfl
  · subst hfirst
    have hreason := Crew.weldReason_eq hwf helse hwhy hsome
    split
    · next hzero => exact h.execWeld_welds hclear (hreason.trans hzero)
    · next hne =>
      have hle := hreason ▸ cr.weldReason_le k.toNat tid _ th
      exact h.execWeld_traps hclear hreason hne (by omega)
  · obtain ⟨t, y', hexec, hcrew, hthread, hleft⟩ := h.execUnjoin hclear m0 m1 m2
    refine ⟨t, y', hexec, hcrew, hthread, fun j hj => ?_⟩
    have hleftj := hleft j
    simpa only [mem_unjoinMask m0 m1 m2 hj] using hleftj

end Sys2Proof
end

section
/-! SUPPORT. Taking a precise trap (R176, R177): numbers of adjoining fields, the frame of Table 8.4, and the threads that
enter the handler. -/

namespace Sys2Proof.Machine

open Sys2Proof

variable {s : State} {cr : Crew} {th : Thread} {c tid : Nat}

/-! ## Numbers of adjoining fields -/

/-- The number whose fields, from bit 0 up, have these widths and values. -/
def packFields : List (Nat × Nat) → Nat
  | [] => 0
  | (w, x) :: fs => x + 2 ^ w * packFields fs

theorem mul_packFields (lo w x : Nat) (fs : List (Nat × Nat)) :
    2 ^ lo * packFields ((w, x) :: fs) = x * 2 ^ lo + 2 ^ (lo + w) * packFields fs := by
  rw [packFields, Nat.mul_add, Nat.pow_add, Nat.mul_assoc, Nat.mul_comm x]

theorem packFields_append (fs gs : List (Nat × Nat)) :
    packFields (fs ++ gs) = packFields fs + 2 ^ (fs.map Prod.fst).sum * packFields gs := by
  induction fs with
  | nil => simp [packFields]
  | cons f fs ih =>
    obtain ⟨w, x⟩ := f
    rw [List.cons_append, packFields, ih, packFields, List.map_cons, List.sum_cons, Nat.pow_add, Nat.mul_add, Nat.mul_assoc,
      Nat.add_assoc]

/-- A field that holds its value reads as it. -/
theorem packFields_div_mod {fs : List (Nat × Nat)} (hfit : ∀ f ∈ fs, f.2 < 2 ^ f.1) {i w x : Nat}
    (hi : fs[i]? = some (w, x)) : packFields fs / 2 ^ ((fs.take i).map Prod.fst).sum % 2 ^ w = x := by
  induction fs generalizing i with
  | nil => exact nomatch hi
  | cons f fs ih =>
    obtain ⟨v, y⟩ := f
    have hy : y < 2 ^ v := hfit (v, y) List.mem_cons_self
    cases i with
    | zero =>
      rw [List.getElem?_cons_zero, Option.some.injEq, Prod.mk.injEq] at hi
      obtain ⟨rfl, rfl⟩ := hi
      rw [packFields, List.take_zero, List.map_nil, List.sum_nil, Nat.pow_zero, Nat.div_one, Nat.add_mul_mod_self_left,
        Nat.mod_eq_of_lt hy]
    | succ i =>
      rw [List.getElem?_cons_succ] at hi
      rw [packFields, List.take_succ_cons, List.map_cons, List.sum_cons, Nat.pow_add, ← Nat.div_div_eq_div_mul,
        Nat.add_mul_div_left _ _ (Nat.two_pow_pos v), Nat.div_eq_of_lt hy, Nat.zero_add]
      exact ih (fun g hg => hfit g (List.mem_cons_of_mem _ hg)) hi

theorem extract_packFields {fs : List (Nat × Nat)} (hfit : ∀ f ∈ fs, f.2 < 2 ^ f.1) {W lo w x : Nat} (i : Nat)
    (hi : fs[i]? = some (w, x)) (hlo : ((fs.take i).map Prod.fst).sum = lo) (hW : lo + w ≤ W) (hw : 0 < w) :
    (BitVec.ofNat W (packFields fs)).extractLsb' lo w = BitVec.ofNat w x := by
  have hlen : lo + w - 1 + 1 - lo = w := by omega
  rw [← ofNat_bitsOf _ hW hw, bitsOf, hlen, ← hlo, packFields_div_mod hfit hi]

/-! ## The frame (Table 8.4) -/

/-- The ids of a frame's lanes as fields. -/
def tidFields : Nat → List Nat → List (Nat × Nat)
  | 0, _ => []
  | n + 1, [] => (16, 0xFFFF) :: tidFields n []
  | n + 1, t :: ts => (16, t % 2 ^ 16) :: tidFields n ts

theorem packFields_tidFields (n : Nat) (ts : List Nat) : packFields (tidFields n ts) = frameTids n ts := by
  induction n generalizing ts with
  | zero => rfl
  | succ n ih =>
    cases ts with
    | nil => rw [tidFields, packFields, ih, frameTids]
    | cons t ts => rw [tidFields, packFields, ih, frameTids]

theorem tidFields_getElem? {n i : Nat} (hi : i < n) (ts : List Nat) :
    (tidFields n ts)[i]? = some (16, match ts[i]? with | some t => t % 2 ^ 16 | none => 0xFFFF) := by
  induction n generalizing i ts with
  | zero => omega
  | succ n ih =>
    cases ts with
    | nil =>
      cases i with
      | zero => rfl
      | succ i => exact (ih (by omega) []).trans rfl
    | cons t ts =>
      cases i with
      | zero => rfl
      | succ i => exact ih (by omega) ts

theorem tidFields_widths (n i : Nat) (hi : i ≤ n) (ts : List Nat) :
    (((tidFields n ts).take i).map Prod.fst).sum = 16 * i := by
  induction n generalizing i ts with
  | zero => rw [Nat.le_zero.1 hi]; rfl
  | succ n ih =>
    cases i with
    | zero => rfl
    | succ i =>
      cases ts with
      | nil =>
        rw [tidFields, List.take_succ_cons, List.map_cons, List.sum_cons, ih i (by omega)]
        omega
      | cons t ts =>
        rw [tidFields, List.take_succ_cons, List.map_cons, List.sum_cons, ih i (by omega)]
        omega

/-- The fields of a frame in front of the ids of its lanes. -/
def headFields (r : TrapReport) (lane : Nat) (sp : Word) (preds : BitVec 7) : List (Nat × Nat) :=
  [(16, r.code.toNat), (16, 0), (32, r.addr.toNat), (32, r.word.toNat), (32, r.pfx.toNat), (64, r.mask.toNat),
    (64, r.info.toNat), (6, lane), (2, 0), (7, r.tids.length), (17, 0), (32, r.addr.toNat), (32, sp.toNat),
    (7, preds.toNat), (153, 0)]

/-- The widths of these fields (Table 8.4). -/
def headWidths : List Nat := [16, 16, 32, 32, 32, 64, 64, 6, 2, 7, 17, 32, 32, 7, 153]

theorem map_fst_headFields (r : TrapReport) (lane : Nat) (sp : Word) (preds : BitVec 7) :
    (headFields r lane sp preds).map Prod.fst = headWidths := rfl

/-- The fields of a frame: the ids of its lanes and zeros behind them follow. -/
def trapFields (r : TrapReport) (lane : Nat) (sp : Word) (preds : BitVec 7) : List (Nat × Nat) :=
  headFields r lane sp preds ++ (tidFields 64 r.tids ++ [(512, 0)])

theorem packFields_headFields (r : TrapReport) (lane : Nat) (sp : Word) (preds : BitVec 7) :
    packFields (headFields r lane sp preds) =
      r.code.toNat + r.addr.toNat * 2 ^ 32 + r.word.toNat * 2 ^ 64 + r.pfx.toNat * 2 ^ 96 + r.mask.toNat * 2 ^ 128 +
        r.info.toNat * 2 ^ 192 + lane * 2 ^ 256 + r.tids.length * 2 ^ 264 + r.addr.toNat * 2 ^ 288 + sp.toNat * 2 ^ 320 +
        preds.toNat * 2 ^ 352 := by
  have hstart : packFields (headFields r lane sp preds) = 2 ^ 0 * packFields (headFields r lane sp preds) := by
    rw [Nat.pow_zero, Nat.one_mul]
  rw [hstart, headFields]
  simp only [mul_packFields, Nat.reduceAdd, -Nat.reducePow]
  rw [packFields]
  simp only [Nat.pow_zero, Nat.mul_one, Nat.zero_mul, Nat.mul_zero, Nat.zero_add, Nat.add_zero, Nat.add_assoc, -Nat.reducePow]

theorem headFields_widths (r : TrapReport) (lane : Nat) (sp : Word) (preds : BitVec 7) :
    ((headFields r lane sp preds).map Prod.fst).sum = 512 := by
  rw [map_fst_headFields]
  decide

theorem trapFrame_eq (r : TrapReport) (lane : Nat) (sp : Word) (preds : BitVec 7) :
    trapFrame r lane sp preds = packFields (trapFields r lane sp preds) := by
  have hids : packFields (tidFields 64 r.tids ++ [(512, 0)]) = frameTids 64 r.tids := by
    rw [packFields_append, packFields_tidFields, packFields, packFields, Nat.mul_zero, Nat.zero_add, Nat.mul_zero, Nat.add_zero]
  rw [trapFields, packFields_append, hids, headFields_widths, packFields_headFields, trapFrame,
    Nat.mul_comm (frameTids 64 r.tids)]

theorem tidFields_fit {n : Nat} {ts : List Nat} : ∀ f ∈ tidFields n ts, f.2 < 2 ^ f.1 := by
  induction n generalizing ts with
  | zero => exact fun f hf => nomatch hf
  | succ n ih =>
    cases ts with
    | nil => exact List.forall_mem_cons.2 ⟨by decide, ih⟩
    | cons t ts => exact List.forall_mem_cons.2 ⟨Nat.mod_lt _ (Nat.two_pow_pos _), ih⟩

theorem trapFields_fit {r : TrapReport} {lane : Nat} {sp : Word} {preds : BitVec 7} (hlane : lane < 64)
    (hcount : r.tids.length ≤ 64) : ∀ f ∈ trapFields r lane sp preds, f.2 < 2 ^ f.1 := by
  have hzero : ∀ w : Nat, (0 : Nat) < 2 ^ w := Nat.two_pow_pos
  intro f hf
  rw [trapFields, List.mem_append, List.mem_append, List.mem_singleton] at hf
  rcases hf with hhead | hids | rfl
  · revert f
    exact List.forall_mem_cons.2 ⟨r.code.isLt, List.forall_mem_cons.2 ⟨hzero _, List.forall_mem_cons.2 ⟨r.addr.isLt,
      List.forall_mem_cons.2 ⟨r.word.isLt, List.forall_mem_cons.2 ⟨r.pfx.isLt, List.forall_mem_cons.2 ⟨r.mask.isLt,
      List.forall_mem_cons.2 ⟨r.info.isLt, List.forall_mem_cons.2 ⟨hlane, List.forall_mem_cons.2 ⟨hzero _,
      List.forall_mem_cons.2 ⟨Nat.lt_of_le_of_lt hcount (show 64 < 2 ^ 7 by decide), List.forall_mem_cons.2 ⟨hzero _,
      List.forall_mem_cons.2 ⟨r.addr.isLt, List.forall_mem_cons.2 ⟨sp.isLt, List.forall_mem_cons.2 ⟨preds.isLt,
      List.forall_mem_cons.2 ⟨hzero _, fun f hf => nomatch hf⟩⟩⟩⟩⟩⟩⟩⟩⟩⟩⟩⟩⟩⟩⟩
  · exact tidFields_fit f hids
  · exact hzero _

/-! ## The threads that enter -/

theorem map_fst_entrantsFrom (ls : List Lane) (i : Nat) :
    (entrantsFrom i ls).map Prod.fst = (ls.filter (·.issued)).map (·.tid) := by
  induction ls generalizing i with
  | nil => rfl
  | cons l ls ih =>
    rw [entrantsFrom]
    by_cases hi : l.issued = true
    · rw [if_pos hi, List.filter_cons_of_pos hi, List.map_cons, List.map_cons, ih]
    · rw [if_neg hi, List.filter_cons_of_neg hi, ih]

theorem Bundle.map_fst_entrants (b : Bundle) : (entrantsFrom 0 b.lanes).map Prod.fst = b.tids := map_fst_entrantsFrom _ _

theorem mem_entrantsFrom {ls : List Lane} {n : Nat} {l : Lane} (hn : ls[n]? = some l) (hi : l.issued = true) (i : Nat) :
    (l.tid, i + n) ∈ entrantsFrom i ls := by
  induction ls generalizing i n with
  | nil => exact nomatch hn
  | cons k ls ih =>
    cases n with
    | zero =>
      rw [List.getElem?_cons_zero, Option.some.injEq] at hn
      subst hn
      rw [entrantsFrom, if_pos hi]
      exact List.mem_cons_self
    | succ n =>
      rw [List.getElem?_cons_succ] at hn
      have hrest : (l.tid, i + (n + 1)) ∈ entrantsFrom (i + 1) ls := by
        rw [Nat.add_comm n, ← Nat.add_assoc]
        exact ih hn (i + 1)
      rw [entrantsFrom]
      by_cases hk : k.issued = true
      · rw [if_pos hk]; exact List.mem_cons_of_mem _ hrest
      · rw [if_neg hk]; exact hrest

/-- In a bundle of different threads a thread's virtual lane is the place of its lane. -/
theorem State.laneOf_of_getElem? (hd : s.Distinct) {n : Nat} {l : Lane} (hn : s.cur.lanes[n]? = some l) :
    s.cur.laneOf l.tid = n := by
  obtain ⟨hlen, hl⟩ := List.getElem?_eq_some_iff.1 hn
  have hfind : s.cur.lanes.findIdx? (fun k => k.tid = l.tid) = some n := by
    refine List.findIdx?_eq_some_iff_getElem.2 ⟨hlen, by simp [hl], fun j hj => ?_⟩
    have hne := List.pairwise_iff_getElem.1 hd j n (by simp; omega) (by simpa using hlen) hj
    simpa [hl] using hne
  rw [Bundle.laneOf, hfind, Option.getD_some]

theorem Thread.nested_eq (th : Thread) (code : Code) (size : Nat) :
    th.nested code size = if th.inHandler || decide (size < th.sp.toNat + 256)
      then some (if th.inHandler then code else Code.boundsStk) else none := by
  unfold Thread.nested
  cases th.inHandler <;> simp

/-- The first thread in lane order that cannot take its handler, as the trap finds it among the threads that enter. -/
theorem findSome?_entrantsFrom (ts : Table Thread) (code : Code) (size : Nat) (ls : List Lane) (i : Nat) :
    (entrantsFrom i ls).findSome? (fun e => (Table.get? ts e.1).bind (fun th =>
        (th.nested code size).map (fun k => (e.1, k)))) =
      ((ls.filterMap (fun l => (Table.get? ts l.tid).map (fun th => (l, th)))).find? (fun e =>
        e.1.issued && (e.2.inHandler || decide (size < e.2.sp.toNat + 256)))).map
        (fun e => (e.1.tid, if e.2.inHandler then code else Code.boundsStk)) := by
  induction ls generalizing i with
  | nil => rfl
  | cons l ls ih =>
    rw [entrantsFrom]
    by_cases hi : l.issued = true
    · rw [if_pos hi, List.findSome?_cons]
      cases hth : Table.get? ts l.tid with
      | none => simpa [hth] using ih (i + 1)
      | some th =>
        rw [List.filterMap_cons_some (by rw [hth]; rfl), Option.bind_some, Thread.nested_eq]
        by_cases hbad : (th.inHandler || decide (size < th.sp.toNat + 256)) = true
        · rw [if_pos hbad, List.find?_cons_of_pos (by simp only [hi, hbad, Bool.and_self])]; rfl
        · rw [if_neg hbad, List.find?_cons_of_neg (by rw [hi, Bool.true_and]; exact hbad)]
          exact ih (i + 1)
    · rw [if_neg hi, ih]
      cases hth : Table.get? ts l.tid with
      | none => rw [List.filterMap_cons_none (by rw [hth]; rfl)]
      | some th =>
        rw [List.filterMap_cons_some (by rw [hth]; rfl), List.find?_cons_of_neg (by simp [hi])]

/-- Threads of the bundle's crew that change one after another, each once. -/
theorem State.foldl_modThread (F : Nat × Nat → Thread → Thread) {es : List (Nat × Nat)} (hd : (es.map Prod.fst).Nodup)
    {t : State} (ht : s.SameBut t) :
    s.SameBut (es.foldl (fun t e => t.modThread s.cur.crew e.1 (F e)) t) ∧
      (∀ e ∈ es, (es.foldl (fun t e => t.modThread s.cur.crew e.1 (F e)) t).thread? s.cur.crew e.1 =
        (t.thread? s.cur.crew e.1).map (F e)) ∧
      ∀ u, u ∉ es.map Prod.fst →
        (es.foldl (fun t e => t.modThread s.cur.crew e.1 (F e)) t).thread? s.cur.crew u = t.thread? s.cur.crew u := by
  induction es generalizing t with
  | nil => exact ⟨ht, fun e he => absurd he List.not_mem_nil, fun _ _ => rfl⟩
  | cons a es ih =>
    rw [List.map_cons, List.nodup_cons] at hd
    obtain ⟨hnew, hnodup⟩ := hd
    obtain ⟨hbut, hown, hrest⟩ := ih hnodup (ht.modThread a.1 (F a))
    refine ⟨hbut, fun e he => ?_, fun u hu => ?_⟩
    · rcases List.mem_cons.1 he with rfl | hmem
      · exact (hrest _ hnew).trans (State.thread?_modThread_self ..)
      · have hne : e.1 ≠ a.1 := fun h => hnew (h ▸ List.mem_map_of_mem hmem)
        exact (hown e hmem).trans (congrArg _ (State.thread?_modThread_ne _ _ _ _ _ hne))
    · rw [List.map_cons, List.mem_cons, not_or] at hu
      exact (hrest u hu.2).trans (State.thread?_modThread_ne _ _ _ _ _ hu.1)

/-! ## The entry of one thread -/

theorem forwardedByte_cons (e : StoreEntry) (es : List StoreEntry) (sp : Space) (b : Nat) (x : Byte) :
    forwardedByte (e :: es) sp b x = forwardedByte es sp b
      (if e.space = sp ∧ e.addr ≤ b ∧ b < e.addr + e.bytes.length then e.bytes.getD (b - e.addr) 0#8 else x) := by
  refine congrArg (forwardedByte es sp b) ?_
  by_cases hin : e.space = sp ∧ e.addr ≤ b ∧ b < e.addr + e.bytes.length
  · obtain ⟨hsp, hlo, hhi⟩ := hin
    have hlt : b - e.addr < e.bytes.length := by omega
    simp [hsp, hlo, hhi, List.getElem?_eq_getElem hlt]
  · rw [if_neg hin]
    exact if_neg (by simpa only [Bool.and_eq_true, decide_eq_true_eq, and_assoc] using hin)

/-- A byte as the thread reads it is the one that its FIFO's stores to the stack would leave, one after another. -/
theorem read_foldl_writeBytes (es : List StoreEntry) (m : Sparse Byte) (b : Nat) :
    Mem.read ((es.filter (fun e => e.space = .stk)).foldl (fun m e => Mem.writeBytes m e.addr e.bytes) m) b =
      forwardedByte es .stk b (Mem.read m b) := by
  induction es generalizing m with
  | nil => rfl
  | cons e es ih =>
    rw [forwardedByte_cons]
    by_cases he : e.space = .stk
    · rw [List.filter_cons_of_pos (by simpa using he), List.foldl_cons, ih, Mem.read_writeBytes]
      simp only [he, true_and]
    · rw [List.filter_cons_of_neg (by simpa using he), ih, if_neg (fun h => he h.1)]

/-- Stores to other spaces forward nothing to a byte of the stack. -/
theorem forwardedByte_of_others {es : List StoreEntry} (h : ∀ e ∈ es, e.space ≠ .stk) (b : Nat) (x : Byte) :
    forwardedByte es .stk b x = x := by
  induction es with
  | nil => rfl
  | cons e es ih =>
    obtain ⟨he, hrest⟩ := List.forall_mem_cons.1 h
    rw [forwardedByte_cons, if_neg (fun hin => he hin.1), ih hrest]

theorem Mem.read_writeNat_outside (m : Sparse Byte) {a n b : Nat} (v : Nat) (h : b < a ∨ a + n ≤ b) :
    Mem.read (Mem.writeNat m a n v) b = Mem.read m b := by
  rw [Mem.writeNat, Mem.read_writeBytes, leBytes_length, if_neg (by omega)]

theorem Thread.flushStack_sp (th : Thread) : th.flushStack.sp = th.sp := rfl

theorem Thread.flushStack_preds (th : Thread) : th.flushStack.preds = th.preds := rfl

theorem Thread.stack_enterHandler (th : Thread) (r : TrapReport) (lane h : Nat) : (th.enterHandler r lane h).stack =
    Mem.writeNat th.flushStack.stack th.sp.toNat 256 (trapFrame r lane th.sp th.preds) := by
  simp only [Thread.enterHandler, Thread.flushStack_sp, Thread.flushStack_preds]

theorem Thread.stackBytes_one (th : Thread) (b : Nat) :
    th.stackBytes b 1 = [forwardedByte th.fifo .stk b (Mem.read th.stack b)] := rfl

/-- Outside the frame the handler reads of the stack what the thread read. -/
theorem Thread.stackBytes_enterHandler (th : Thread) (r : TrapReport) (lane h : Nat) {b : Nat}
    (hb : b < th.sp.toNat ∨ th.sp.toNat + 256 ≤ b) : (th.enterHandler r lane h).stackBytes b 1 = th.stackBytes b 1 := by
  rw [Thread.stackBytes_one, Thread.stackBytes_one]
  congr 1
  calc forwardedByte (th.enterHandler r lane h).fifo .stk b (Mem.read (th.enterHandler r lane h).stack b)
    _ = Mem.read (th.enterHandler r lane h).stack b :=
        forwardedByte_of_others (fun e he => by simpa using (List.mem_filter.1 he).2) _ _
    _ = Mem.read th.flushStack.stack b := by
        rw [Thread.stack_enterHandler, Mem.read_writeNat_outside _ _ hb]
    _ = forwardedByte th.fifo .stk b (Mem.read th.stack b) := read_foldl_writeBytes ..

theorem readNat_writeNat_bits (m : Sparse Byte) (a n v : Nat) :
    BitVec.ofNat (8 * n) (Mem.readNat (Mem.writeNat m a n v) a n) = BitVec.ofNat (8 * n) v := by
  refine BitVec.eq_of_toNat_eq ?_
  rw [Mem.readNat_writeNat_same, BitVec.toNat_ofNat, BitVec.toNat_ofNat, Nat.pow_mul]
  exact Nat.mod_mod _ _

/-- The frame that the entry stores, as a number of 2048 bits. -/
theorem Thread.frame_enterHandler (th : Thread) (r : TrapReport) (lane h : Nat) :
    BitVec.ofNat 2048 (Mem.readNat (th.enterHandler r lane h).stack th.sp.toNat 256) =
      BitVec.ofNat 2048 (packFields (trapFields r lane th.sp th.preds)) := by
  rw [Thread.stack_enterHandler, ← trapFrame_eq]
  exact readNat_writeNat_bits th.flushStack.stack th.sp.toNat 256 (trapFrame r lane th.sp th.preds)

/-- The fields of Table 8.4 in front of the ids of the lanes. -/
theorem trapFields_head {r : TrapReport} {lane : Nat} {sp : Word} {preds : BitVec 7} (hlane : lane < 64)
    (hcount : r.tids.length ≤ 64) {f : BitVec 2048} (hf : f = BitVec.ofNat 2048 (packFields (trapFields r lane sp preds))) :
    f.extractLsb' 0 16 = r.code ∧ f.extractLsb' 16 16 = 0 ∧ f.extractLsb' 32 32 = r.addr ∧ f.extractLsb' 64 32 = r.word ∧
      f.extractLsb' 96 32 = r.pfx ∧ f.extractLsb' 128 64 = r.mask ∧ f.extractLsb' 192 64 = r.info ∧
      (f.extractLsb' 256 6).toNat = lane ∧ f.extractLsb' 262 2 = 0 ∧ (f.extractLsb' 264 7).toNat = r.tids.length ∧
      f.extractLsb' 271 17 = 0 ∧ f.extractLsb' 288 32 = r.addr ∧ f.extractLsb' 320 32 = sp ∧ f.extractLsb' 352 7 = preds ∧
      f.extractLsb' 359 153 = 0 := by
  have hfit := trapFields_fit (sp := sp) (preds := preds) hlane hcount
  have field : ∀ (i : Nat) {lo w x : Nat}, (headFields r lane sp preds)[i]? = some (w, x) →
      (headWidths.take i).sum = lo → lo + w ≤ 2048 → 0 < w → f.extractLsb' lo w = BitVec.ofNat w x := by
    intro i lo w x hi hlo hW hw
    have hlen : i < (headFields r lane sp preds).length := (List.getElem?_eq_some_iff.1 hi).1
    rw [hf]
    refine extract_packFields hfit i ?_ ?_ hW hw
    · rw [trapFields, List.getElem?_append_left hlen, hi]
    · rw [trapFields, List.take_append_of_le_length hlen.le, List.map_take, map_fst_headFields, hlo]
  have word : ∀ (i : Nat) {lo w : Nat} {x : BitVec w}, (headFields r lane sp preds)[i]? = some (w, x.toNat) →
      (headWidths.take i).sum = lo → lo + w ≤ 2048 → 0 < w → f.extractLsb' lo w = x := by
    intro i lo w x hi hlo hW hw
    rw [field i hi hlo hW hw, BitVec.ofNat_toNat, BitVec.setWidth_eq]
  refine ⟨?code, ?zero16, ?addr, ?word, ?pfx, ?mask, ?info, ?virtualLane, ?zero2, ?count, ?zero17, ?resume,
    ?stackPointer, ?predicates, ?zero153⟩
  case code => exact word 0 rfl (by decide) (by decide) (by decide)
  case zero16 => exact field 1 rfl (by decide) (by decide) (by decide)
  case addr => exact word 2 rfl (by decide) (by decide) (by decide)
  case word => exact word 3 rfl (by decide) (by decide) (by decide)
  case pfx => exact word 4 rfl (by decide) (by decide) (by decide)
  case mask => exact word 5 rfl (by decide) (by decide) (by decide)
  case info => exact word 6 rfl (by decide) (by decide) (by decide)
  case virtualLane => rw [field 7 (lo := 256) rfl (by decide) (by decide) (by decide), BitVec.toNat_ofNat,
      Nat.mod_eq_of_lt hlane]
  case zero2 => exact field 8 rfl (by decide) (by decide) (by decide)
  case count =>
    rw [field 9 (lo := 264) rfl (by decide) (by decide) (by decide), BitVec.toNat_ofNat,
      Nat.mod_eq_of_lt (Nat.lt_of_le_of_lt hcount (by decide))]
  case zero17 => exact field 10 rfl (by decide) (by decide) (by decide)
  case resume => exact word 11 rfl (by decide) (by decide) (by decide)
  case stackPointer => exact word 12 rfl (by decide) (by decide) (by decide)
  case predicates => exact word 13 rfl (by decide) (by decide) (by decide)
  case zero153 => exact field 14 rfl (by decide) (by decide) (by decide)

theorem length_headFields (r : TrapReport) (lane : Nat) (sp : Word) (preds : BitVec 7) :
    (headFields r lane sp preds).length = 15 := rfl

theorem length_tidFields (n : Nat) (ts : List Nat) : (tidFields n ts).length = n := by
  induction n generalizing ts with
  | zero => rfl
  | succ n ih => cases ts <;> rw [tidFields, List.length_cons, ih]

/-- The ids of the lanes in a frame, and the zeros behind them. -/
theorem trapFields_ids {r : TrapReport} {lane : Nat} {sp : Word} {preds : BitVec 7} (hlane : lane < 64)
    (hcount : r.tids.length ≤ 64) {f : BitVec 2048} (hf : f = BitVec.ofNat 2048 (packFields (trapFields r lane sp preds))) :
    f.extractLsb' 1536 512 = 0 ∧ ∀ i < 64, f.extractLsb' (512 + 16 * i) 16 =
      BitVec.ofNat 16 (match r.tids[i]? with | some t => t % 2 ^ 16 | none => 0xFFFF) := by
  have hfit := trapFields_fit (sp := sp) (preds := preds) hlane hcount
  have hwidths : ∀ i, i ≤ 64 → (((trapFields r lane sp preds).take (15 + i)).map Prod.fst).sum = 512 + 16 * i :=
    fun i hi => by
      have hle : i ≤ (tidFields 64 r.tids).length := by rw [length_tidFields]; exact hi
      rw [trapFields, ← length_headFields r lane sp preds, List.take_length_add_append, List.map_append, List.sum_append,
        headFields_widths, List.take_append_of_le_length hle, tidFields_widths _ _ hi]
  have hat : ∀ i, (trapFields r lane sp preds)[15 + i]? = (tidFields 64 r.tids ++ [(512, 0)])[i]? := fun i => by
    rw [trapFields, List.getElem?_append_right (by rw [length_headFields]; omega), length_headFields, Nat.add_sub_cancel_left]
  rw [hf]
  refine ⟨extract_packFields hfit (15 + 64) ?_ (hwidths 64 le_rfl) (by decide) (by decide), fun i hi => ?_⟩
  · rw [hat, List.getElem?_append_right (by rw [length_tidFields]), length_tidFields]
    rfl
  · refine extract_packFields hfit (15 + i) ?_ (hwidths i hi.le) (by omega) (by decide)
    rw [hat, List.getElem?_append_left (by rw [length_tidFields]; exact hi), tidFields_getElem? hi]

/-! ## The trap of a bundle -/

/-- What a trap of the bundle reports (R176). -/
def State.bundleReport (s : State) (code : Code) (mask : BitVec 64) (info : Nat) : TrapReport :=
  { code := code, mask := mask, info := BitVec.ofNat 64 info, addr := s.cur.pc, word := s.cur.word,
    pfx := s.cur.pfxWord, tids := s.cur.lanes.map (·.tid) }

theorem State.trap_of_many (halone : s.cur.alone = false) (code : Code) (mask : BitVec 64) (info : Nat) :
    s.trap code mask info =
      s.takeTrap s.cur.crew (s.bundleReport code mask info) (entrantsFrom 0 s.cur.lanes) := by
  rw [State.trap, halone]
  rfl

section Trap

variable {code : Code} {mask : BitVec 64} {info h : Nat}

/-- Without a handler the crew is killed with the trap's code (R179). -/
theorem State.trap_of_noHandler (hcr : s.crew? s.cur.crew = some cr) (halone : s.cur.alone = false)
    (hnone : cr.handler = none) : s.trap code mask info =
      s.killCrew s.cur.crew code (BitVec.ofNat 64 info).toNat s.cur.pc.toNat (s.cur.tids.headD 0) := by
  rw [State.trap_of_many halone, State.takeTrap, hcr]
  simp only [hnone, Bundle.map_fst_entrants]
  rfl

/-- With a handler the first thread that cannot take it decides. -/
theorem State.takeTrap_entrants (hcr : s.crew? s.cur.crew = some cr) (hsome : cr.handler = some h) (r : TrapReport) :
    s.takeTrap s.cur.crew r (entrantsFrom 0 s.cur.lanes) =
      match s.curLanes.find? (fun e => e.1.issued && (e.2.inHandler || decide (cr.stackSize < e.2.sp.toNat + 256))) with
      | some e => s.killCrew s.cur.crew Code.trapNest
          ((if e.2.inHandler then r.code else Code.boundsStk).toNat + r.addr.toNat * 2 ^ 32) r.addr.toNat e.1.tid
      | none => (entrantsFrom 0 s.cur.lanes).foldl
          (fun t e => t.modThread s.cur.crew e.1 (fun th => th.enterHandler r e.2 h)) s := by
  have hlanes : s.curLanes = s.cur.lanes.filterMap (fun l => (Table.get? cr.threads l.tid).map (fun th => (l, th))) := by
    rw [State.curLanes, State.curCrew?, hcr]
  rw [State.takeTrap, hcr]
  simp only [hsome, findSome?_entrantsFrom, ← hlanes]
  cases s.curLanes.find? (fun e => e.1.issued && (e.2.inHandler || decide (cr.stackSize < e.2.sp.toNat + 256))) <;> rfl

/-- Where every thread that issues can take the handler, each of them enters it and nothing else changes. -/
theorem State.trap_enters (hcr : s.crew? s.cur.crew = some cr) (halone : s.cur.alone = false) (hd : s.Distinct)
    (hsome : cr.handler = some h)
    (hroom : ∀ l th, l ∈ s.cur.lanes → l.issued = true → s.thread? s.cur.crew l.tid = some th →
      th.inHandler = false ∧ th.sp.toNat + 256 ≤ cr.stackSize) :
    s.ThreadsOnly (s.trap code mask info) ∧
      ∀ l th, l ∈ s.cur.lanes → l.issued = true → s.thread? s.cur.crew l.tid = some th →
        s.cur.laneOf l.tid < s.cur.lanes.length ∧ (s.trap code mask info).thread? s.cur.crew l.tid =
          some (th.enterHandler (s.bundleReport code mask info) (s.cur.laneOf l.tid) h) := by
  have hnone : s.curLanes.find? (fun e => e.1.issued && (e.2.inHandler || decide (cr.stackSize < e.2.sp.toNat + 256))) =
      none := by
    refine List.find?_eq_none.2 fun e he hbad => ?_
    obtain ⟨hmem, hth⟩ := (s.mem_curLanes e).1 he
    rw [Bool.and_eq_true, Bool.or_eq_true, decide_eq_true_eq] at hbad
    obtain ⟨hhandler, hfits⟩ := hroom e.1 e.2 hmem hbad.1 hth
    rcases hbad.2 with hin | hlack
    · exact absurd hin (by simp [hhandler])
    · omega
  have hnodup : ((entrantsFrom 0 s.cur.lanes).map Prod.fst).Nodup := by
    rw [Bundle.map_fst_entrants, Bundle.tids]
    exact List.Nodup.sublist (List.filter_sublist.map _) hd
  obtain ⟨⟨-, honly, hbare⟩, hown, hrest⟩ := State.foldl_modThread
    (fun e th => th.enterHandler (s.bundleReport code mask info) e.2 h) hnodup (State.SameBut.refl s)
  rw [State.trap_of_many halone, State.takeTrap_entrants hcr hsome, hnone]
  refine ⟨⟨honly, hbare, fun u hu => hrest u (by rwa [Bundle.map_fst_entrants])⟩, fun l th hl hi hth => ?_⟩
  obtain ⟨n, hn⟩ := List.mem_iff_getElem?.1 hl
  have hmem : (l.tid, s.cur.laneOf l.tid) ∈ entrantsFrom 0 s.cur.lanes := by
    rw [State.laneOf_of_getElem? hd hn, ← Nat.zero_add n]
    exact mem_entrantsFrom hn hi 0
  refine ⟨?_, (hown _ hmem).trans (by rw [hth]; rfl)⟩
  rw [State.laneOf_of_getElem? hd hn]
  exact (List.getElem?_eq_some_iff.1 hn).1

end Trap

theorem Thread.enterHandler_eq (th : Thread) (r : TrapReport) (lane h : Nat) {th' : Thread}
    (he : th' = th.enterHandler r lane h) :
    th' = { th with
      stack := th'.stack, stackPoison := th'.stackPoison, fifo := th.fifo.filter (fun e => e.space ≠ .stk)
      sp := th.sp + 256#32, trapSp := th.sp, inHandler := true, wait := none, cameFrom := none
      pc := BitVec.ofNat 32 h } := by
  subst he
  simp only [Thread.enterHandler, Thread.flushStack]

end Sys2Proof.Machine

namespace Sys2Proof

open Machine

/-- Settles O24: the threads that enter are the lanes that issue, each with its virtual lane, and the frame is the number
whose adjoining fields are those of Table 8.4. -/
theorem trapEntry : Obligations.TrapEntry := by
  unfold Obligations.TrapEntry
  intro s code mask info cr hcr halone hd hlen
  refine ⟨State.trap_of_noHandler hcr halone, fun h hsome => ⟨fun l th hbad => ?_, fun hroom => ?_⟩⟩
  · rw [State.trap_of_many halone, State.takeTrap_entrants hcr hsome, hbad]
    rfl
  · obtain ⟨honly, henter⟩ := State.trap_enters (code := code) (mask := mask) (info := info) hcr halone hd hsome hroom
    refine ⟨honly, fun l th hl hi hth => ?_⟩
    obtain ⟨hlane, hth'⟩ := henter l th hl hi hth
    have hcount : (s.bundleReport code mask info).tids.length = s.cur.lanes.length := List.length_map _
    have hframe := th.frame_enterHandler (s.bundleReport code mask info) (s.cur.laneOf l.tid) h
    refine ⟨_, _, hth', Thread.enterHandler_eq _ _ _ _ rfl, fun b hb => th.stackBytes_enterHandler _ _ _ hb, rfl, ?_⟩
    obtain ⟨hzero, hids⟩ := trapFields_ids (by omega) (by omega) hframe
    obtain ⟨hcode, hzero16, haddr, hword, hpfx, hmask, hinfo, hvirtual, hzero2, hlanes, hzero17, hresume, hsp, hpreds,
      hzero153⟩ := trapFields_head (by omega) (by omega) hframe
    refine ⟨hcode, hzero16, haddr, hword, hpfx, hmask, hinfo, hvirtual, hzero2, hlanes.trans hcount, hzero17, hresume, hsp,
      hpreds, hzero153, hzero, fun i hi => ?_⟩
    rw [hids i hi, State.bundleReport, List.getElem?_map]
    cases s.cur.lanes[i]? with
    | none => rfl
    | some k => exact BitVec.eq_of_toNat_eq (Nat.mod_mod _ _)

end Sys2Proof
end

section
/-! SUPPORT. The end of a thread and of a crew (R174, R179): what each step of it keeps of a crew. -/

namespace Sys2Proof.Machine

open Sys2Proof

variable {s t : State} {cr : Crew} {th : Thread} {c tid : Nat} {P Q : Crew → Prop}

/-! ## A thread that has ended -/

/-- What is left of a thread that has ended: it holds no register and no promise, and waits for nothing. -/
def Thread.Gone (th : Thread) : Prop := th.ended = true ∧ th.regs = [] ∧ th.pend = [] ∧ th.wait = none

/-- A change of a thread that revives none. -/
def Thread.KeepsEnd (f : Thread → Thread) : Prop := ∀ u, (u.ended = true → (f u).ended = true) ∧ (u.Gone → (f u).Gone)

theorem Thread.matureAll_ended (hs : List Held) (th : Thread) : (hs.foldl Thread.mature th).ended = th.ended := by
  induction hs generalizing th with
  | nil => rfl
  | cons h hs ih =>
    rw [List.foldl_cons, ih, Thread.mature]
    cases h.name <;> rfl

theorem Thread.commit_ended (th : Thread) (len : Nat) : (th.commit len .now []).ended = th.ended :=
  Thread.matureAll_ended _ _

/-- A release ends no wait of a thread that has ended. -/
theorem Thread.keepsEnd_released : Thread.KeepsEnd Thread.released := by
  intro u
  rw [Thread.released_eq]
  refine ⟨fun h => (Thread.commit_ended u _).trans h, fun ⟨hended, hregs, hpend, _⟩ => ?_⟩
  refine ⟨(Thread.commit_ended u _).trans hended, ?_, ?_, rfl⟩
  · simpa [Thread.commit, Thread.resultsBefore, Thread.writeAll, Thread.resultsAfter, Thread.settle, hpend] using hregs
  · simp [Thread.commit, Thread.resultsBefore, Thread.writeAll, Thread.resultsAfter, Thread.settle, hpend]

theorem Thread.keepsEnd_enterRegion (live : Nat → List Nat) :
    Thread.KeepsEnd fun th => th.enterRegion th.region.lset (live th.region.lset) :=
  fun _ => ⟨fun h => h, fun h => h⟩

theorem Thread.keepsEnd_barrier (arrived : Thread → Bool) :
    Thread.KeepsEnd fun th => { th with atBarrier := false, barPassed := arrived th } :=
  fun _ => ⟨fun h => h, fun h => h⟩

theorem Thread.keepsEnd_finish :
    Thread.KeepsEnd fun th => { th with ended := true, wait := none, pend := [], trans := [] } :=
  fun _ => ⟨fun _ => rfl, fun ⟨_, hregs, _, _⟩ => ⟨rfl, hregs, rfl, rfl⟩⟩

/-! ## What the end of a thread keeps of a crew -/

/-- A property of a crew that rests on the ends of its threads, its tumblers and its kill alone. -/
structure Crew.EndOnly (P : Crew → Prop) : Prop where
  thread : ∀ x v f, Thread.KeepsEnd f → P x → P (x.modThread v f)
  threads : ∀ x f, Thread.KeepsEnd f → P x → P { x with threads := Table.mapVals x.threads fun _ => f }
  others : ∀ x y : Crew, y.threads = x.threads → y.tumblers = x.tumblers → y.killed = x.killed → P x → P y

/-- The crew of a number, where there is one, has a property. -/
def State.CrewHas (s : State) (c : Nat) (P : Crew → Prop) : Prop := ∀ x, s.crew? c = some x → P x

theorem State.CrewHas.of_crews (h : s.CrewHas c P) (ht : t.crews = s.crews) : t.CrewHas c P := by
  unfold State.CrewHas State.crew?
  rwa [ht]

theorem State.CrewHas.modCrew (h : s.CrewHas c P) (d : Nat) {f : Crew → Crew} (hf : ∀ x, P x → Q (f x))
    (hPQ : c ≠ d → ∀ x, P x → Q x) : (s.modCrew d f).CrewHas c Q := by
  intro x hx
  rw [State.crew?_modCrew] at hx
  by_cases hd : c = d
  · rw [if_pos hd, Option.map_eq_some_iff] at hx
    obtain ⟨y, hy, rfl⟩ := hx
    exact hf y (h y hy)
  · rw [if_neg hd] at hx
    exact hPQ hd x (h x hx)

theorem State.CrewHas.modThread (hP : Crew.EndOnly P) (h : s.CrewHas c P) (d v : Nat) {f : Thread → Thread}
    (hf : Thread.KeepsEnd f) : (s.modThread d v f).CrewHas c P :=
  h.modCrew d (fun x => hP.thread x v f hf) fun _ _ hx => hx

theorem State.CrewHas.foldl {α : Type} {f : State → α → State} (as : List α) (h : s.CrewHas c P)
    (hf : ∀ t a, t.CrewHas c P → (f t a).CrewHas c P) : (as.foldl f s).CrewHas c P :=
  List.foldlRecOn as f (motive := fun t => t.CrewHas c P) h fun t ht a _ => hf t a ht

theorem State.CrewHas.release (hP : Crew.EndOnly P) (h : s.CrewHas c P) (d v : Nat) : (s.release d v 0 []).CrewHas c P :=
  h.modThread hP d v Thread.keepsEnd_released

theorem State.CrewHas.closeRegion (hP : Crew.EndOnly P) (h : s.CrewHas c P) (d v : Nat) :
    (s.closeRegion d v).CrewHas c P := by
  unfold State.closeRegion
  cases s.crew? d with
  | none => exact h
  | some x => exact h.modThread hP d v (Thread.keepsEnd_enterRegion (s.liveSet x))

theorem State.CrewHas.passGang (hP : Crew.EndOnly P) (h : s.CrewHas c P) (n lid : Nat) (g : Gang) :
    (s.passGang n lid g).CrewHas c P :=
  State.CrewHas.foldl _ (h.of_crews rfl) fun _ p ht => (ht.release hP p.1 p.2).closeRegion hP p.1 p.2

theorem State.CrewHas.checkGang (hP : Crew.EndOnly P) (h : s.CrewHas c P) (n : Nat) : (s.checkGang n).CrewHas c P := by
  unfold State.checkGang
  cases Table.get? s.gangs n with
  | none => exact h
  | some g =>
    dsimp only
    cases g.launch with
    | none => exact h
    | some lid =>
      dsimp only
      split
      · exact h
      · by_cases htell : (!g.arrived.contains s.module && s.gangLocal lid g) = true
        · rw [if_pos htell, if_pos htell]
          split
          · refine State.CrewHas.passGang hP ?_ n lid _
            exact h.of_crews rfl
          · exact h.of_crews rfl
        · rw [if_neg htell, if_neg htell]
          split
          · exact h.passGang hP n lid g
          · exact h

theorem State.CrewHas.checkGangs (hP : Crew.EndOnly P) (h : s.CrewHas c P) : s.checkGangs.CrewHas c P :=
  State.CrewHas.foldl _ h fun _ n ht => ht.checkGang hP n

theorem State.CrewHas.reap (h : s.CrewHas c P) (d : Nat) : (s.reap d).CrewHas c P := by
  unfold State.reap
  cases s.crew? d with
  | none => exact h
  | some y =>
    dsimp only
    split
    · intro x hx
      rw [State.crew?, Table.get?_drop] at hx
      split at hx
      · exact nomatch hx
      · exact h x hx
    · exact h

theorem State.CrewHas.checkBarrier (hP : Crew.EndOnly P) (h : s.CrewHas c P) (d : Nat) : (s.checkBarrier d).CrewHas c P := by
  unfold State.checkBarrier
  cases s.crew? d with
  | none => exact h
  | some y =>
    dsimp only
    split
    · exact h
    · have harrived : (s.modThreads d fun _ th =>
          { th with atBarrier := false, barPassed := th.atBarrier && th.wait ≠ some .barrier }).CrewHas c P :=
        h.modCrew d (fun x => hP.threads x _ (Thread.keepsEnd_barrier _)) fun _ _ hx => hx
      refine (State.CrewHas.foldl _ harrived fun _ v ht => (ht.release hP d v).closeRegion hP d v).modCrew d (fun x hx => ?_)
        fun _ _ hx => hx
      split <;> exact hP.others x _ rfl rfl rfl hx

/-! ## What the end of a crew gives back -/

theorem State.CrewHas.writeDie (hP : Crew.EndOnly P) (h : s.CrewHas c P) (d off : Nat) (bs : List Byte) :
    (s.writeDie d off bs).CrewHas c P := by
  unfold State.writeDie State.modWindow
  cases s.crew? d with
  | none => exact h
  | some y =>
    dsimp only
    split
    · exact h.modCrew d (fun x => hP.others x _ rfl rfl rfl) fun _ _ hx => hx
    · exact h.of_crews rfl

theorem State.CrewHas.queueReturn (hP : Crew.EndOnly P) (h : s.CrewHas c P) (d q : Nat) (recs : List (Word × Word)) :
    (s.queueReturn d q recs).CrewHas c P := by
  unfold State.queueReturn
  cases s.crew? d with
  | none => exact h
  | some y =>
    dsimp only
    split
    · exact h
    · have hrecs := State.CrewHas.foldl (recs.zipIdx) h fun t r ht => ht.writeDie hP d
        (q + 64 + 8 * (((bitsOf (s.queueHeader y q) 63 32 + bitsOf (s.queueHeader y q) 20 0 -
          recs.length % bitsOf (s.queueHeader y q) 20 0) % bitsOf (s.queueHeader y q) 20 0 + r.2) %
          bitsOf (s.queueHeader y q) 20 0)) (leBytes (r.1.1.toNat + r.1.2.toNat * 2 ^ 32) 8)
      unfold State.putQueueHeader
      split
      · exact hrecs
      · split
        · exact hrecs
        · exact hrecs.writeDie hP d q _

theorem State.CrewHas.returnStack (hP : Crew.EndOnly P) (h : s.CrewHas c P) (d : Nat) (st : ItStack) :
    (s.returnStack d st).CrewHas c P := by
  unfold State.returnStack
  cases st.stages with
  | nil => exact h
  | cons src _ =>
    dsimp only
    split
    · exact h.queueReturn hP d _ _
    · exact h

theorem State.CrewHas.releaseStacks (hP : Crew.EndOnly P) (h : s.CrewHas c P) (d : Nat) (y : Crew) :
    (s.releaseStacks d y).CrewHas c P :=
  (State.CrewHas.foldl _ h fun _ e ht => ht.returnStack hP d e.2).modCrew d (fun x => hP.others x _ rfl rfl rfl)
    fun _ _ hx => hx

theorem State.CrewHas.log (h : s.CrewHas c P) (ctx : Nat) (r : LogRecord) (crew : Option Nat) :
    (s.log ctx r crew).CrewHas c P :=
  h.of_crews (congrArg State.crews (s.log_prefetched ctx r crew) :)

theorem State.CrewHas.releaseUnits (h : s.CrewHas c P) (d : Nat) (y : Crew) : (s.releaseUnits d y).CrewHas c P := by
  refine State.CrewHas.foldl _ h fun t ku ht => ?_
  have hlog := State.CrewHas.foldl ((t.unit y.die ku.1 ku.2).dropped d) ht fun u tb hu =>
    hu.log y.ctx (u.crewRecord y Code.mxNolease 0 tb 0 0) (some d)
  dsimp only
  split
  · exact hlog
  · exact hlog.of_crews rfl

/-! ## The end of a crew -/

/-- A crew all of whose threads have ended. -/
def Crew.AllEnded (x : Crew) : Prop := ∀ e ∈ x.threads, e.2.ended = true

/-- A crew that has ended: it counts as killed, and no thread of it is left. -/
def Crew.Over (x : Crew) : Prop := x.killed = true ∧ x.AllEnded

theorem Crew.allEnded_mapVals (x : Crew) {f : Thread → Thread} (hf : ∀ e ∈ x.threads, (f e.2).ended = true) :
    Crew.AllEnded { x with threads := Table.mapVals x.threads fun _ => f } := by
  intro e he
  obtain ⟨d, hd, rfl⟩ := List.mem_map.1 he
  exact hf d hd

theorem Crew.endOnly_allEnded : Crew.EndOnly Crew.AllEnded where
  thread x v _ hf hx := Table.forall_adjust (m := x.threads) (Q := fun _ u => u.ended = true) hx v fun u => (hf u).1
  threads x _ hf hx := x.allEnded_mapVals fun e he => (hf e.2).1 (hx e he)
  others _ _ hthreads _ _ hx := fun e he => hx e (hthreads ▸ he)

theorem Crew.endOnly_over : Crew.EndOnly Crew.Over where
  thread x v f hf hx := ⟨hx.1, Crew.endOnly_allEnded.thread x v f hf hx.2⟩
  threads x f hf hx := ⟨hx.1, Crew.endOnly_allEnded.threads x f hf hx.2⟩
  others x y hthreads htumblers hkilled hx :=
    ⟨hkilled.trans hx.1, Crew.endOnly_allEnded.others x y hthreads htumblers hkilled hx.2⟩

/-- The crew and its threads as they end. -/
def Crew.finish (x : Crew) : Crew :=
  { x with
    threads := Table.mapVals x.threads fun _ th => { th with ended := true, wait := none, pend := [], trans := [] }
    killed := true, stopped := false, consumed := none, tumblers := [], system := [] }

/-- The end of a crew is a change of that crew, behind what it gives back. -/
theorem State.endCrew_eq (hcr : s.crew? c = some cr) : ∃ u : State, s.endCrew c = ((u.modCrew c Crew.finish).checkGangs).reap c ∧
    ∀ P, Crew.EndOnly P → s.CrewHas c P → u.CrewHas c P := by
  refine ⟨{ (s.releaseStacks c cr).releaseUnits c cr with
    fars := ((s.releaseStacks c cr).releaseUnits c cr).fars.filter (fun e => e.2.crew ≠ c || e.2.stage ≠ FarStage.unsent) },
    ?_, fun P hP h => ((h.releaseStacks hP c cr).releaseUnits c cr).of_crews rfl⟩
  rw [State.endCrew, hcr]
  dsimp only
  rw [State.modThreads, State.modCrew_modCrew]
  rfl

/-- A crew that ends, if it is still there, is killed and has no thread that has not ended. -/
theorem State.endCrew_over (hcr : s.crew? c = some cr) : (s.endCrew c).CrewHas c Crew.Over := by
  obtain ⟨u, heq, -⟩ := State.endCrew_eq hcr
  rw [heq]
  have hfinish : (u.modCrew c Crew.finish).CrewHas c Crew.Over :=
    State.CrewHas.modCrew (P := fun _ => True) (fun _ _ => trivial) c
      (fun x _ => ⟨rfl, x.allEnded_mapVals fun _ _ => rfl⟩) fun hne => absurd rfl hne
  exact (hfinish.checkGangs Crew.endOnly_over).reap c

theorem State.killCrew_over (hcr : s.crew? c = some cr) (halive : cr.killed = false) (code : Code) (info addr : Nat) :
    (s.killCrew c code info addr).CrewHas c Crew.Over := by
  have hlogged : (s.log cr.ctx (s.crewRecord cr code 1 info addr 0) (some c)).crews = s.crews :=
    (congrArg State.crews (s.log_prefetched cr.ctx (s.crewRecord cr code 1 info addr 0) (some c)) :)
  rw [State.killCrew, hcr]
  dsimp only
  rw [halive, if_neg Bool.false_ne_true, State.endKilled]
  refine State.endCrew_over (cr := cr) ?_
  rw [← hcr, State.crew?, State.crew?, ← hlogged, State.saveKilled]
  split <;> rfl

/-! ## The end of one thread (R174) -/

/-- A crew one of whose threads is gone: it has ended, and no tumbler knows it. -/
structure Crew.Without (tid : Nat) (x : Crew) : Prop where
  gone : ∀ e ∈ x.threads, e.1 = tid → e.2.Gone
  there : (Table.get? x.threads tid).isSome = true
  tumblers : ∀ k < 16, tid ∉ (x.tumbler k).declared ∧ tid ∉ (x.tumbler k).weld

theorem Crew.endOnly_without (tid : Nat) : Crew.EndOnly (Crew.Without tid) where
  thread x v f hf hx := by
    refine ⟨Table.forall_adjust (m := x.threads) (Q := fun v u => v = tid → u.Gone) hx.gone v
      fun u hu heq => (hf u).2 (hu heq), ?_, hx.tumblers⟩
    have hthere := hx.there
    unfold Crew.modThread
    rw [Table.get?_adjust]
    split
    · rwa [Option.isSome_map]
    · exact hthere
  threads x f hf hx := by
    refine ⟨fun e he heq => ?_, ?_, hx.tumblers⟩
    · obtain ⟨d, hd, rfl⟩ := List.mem_map.1 he
      exact (hf d.2).2 (hx.gone d hd heq)
    · rw [Table.get?_mapVals, Option.isSome_map]
      exact hx.there
  others x y hthreads htumblers _ hx := by
    refine ⟨hthreads ▸ hx.gone, hthreads ▸ hx.there, ?_⟩
    unfold Crew.tumbler
    rw [htumblers]
    exact hx.tumblers

theorem Crew.Without.thread {x : Crew} (h : x.Without tid) : ∃ u, Table.get? x.threads tid = some u ∧ u.Gone := by
  obtain ⟨u, hu⟩ := Option.isSome_iff_exists.1 h.there
  exact ⟨u, hu, h.gone _ (Table.mem_of_get? hu) rfl⟩

theorem Crew.Without.finish {x : Crew} (h : x.Without tid) : x.finish.Without tid := by
  have hthreads := (Crew.endOnly_without tid).threads x _ Thread.keepsEnd_finish h
  exact ⟨hthreads.gone, hthreads.there, fun k _ => ⟨List.not_mem_nil, List.not_mem_nil⟩⟩

theorem State.CrewHas.endCrew (h : s.CrewHas c (Crew.Without tid)) : (s.endCrew c).CrewHas c (Crew.Without tid) := by
  cases hcr : s.crew? c with
  | none =>
    rw [State.endCrew, hcr]
    exact h
  | some cr =>
    obtain ⟨u, heq, hkeeps⟩ := State.endCrew_eq hcr
    rw [heq]
    have hfinish : (u.modCrew c Crew.finish).CrewHas c (Crew.Without tid) :=
      (hkeeps _ (Crew.endOnly_without tid) h).modCrew c (fun x hx => hx.finish) fun _ _ hx => hx
    exact (hfinish.checkGangs (Crew.endOnly_without tid)).reap c

/-- The thread as `end` leaves it. -/
def Thread.finish (th : Thread) : Thread :=
  { th with ended := true, wait := none, pend := [], trans := [], regs := [], poison := [], atBarrier := false }

theorem Thread.gone_finish (th : Thread) : th.finish.Gone := ⟨rfl, rfl, rfl, rfl⟩

/-- The thread that has ended leaves its tumblers, and the barriers go on without it. -/
def State.threadOut (s : State) (c tid : Nat) : State :=
  (((List.range 16).foldl (fun (t : State) k => t.leaveTumbler c k tid) (s.modThread c tid Thread.finish)).checkBarrier
    c).checkGangs

theorem State.endThread_of_none (h : (s.threadOut c tid).crew? c = none) : s.endThread c tid = s.threadOut c tid := by
  unfold State.threadOut Thread.finish at *
  unfold State.endThread
  simp only [h]

theorem State.endThread_of_some {x : Crew} (h : (s.threadOut c tid).crew? c = some x) : s.endThread c tid =
    if x.threads.all (fun e => e.2.ended) then (s.threadOut c tid).endCrew c else s.threadOut c tid := by
  unfold State.threadOut Thread.finish at *
  unfold State.endThread
  simp only [h]

theorem Crew.gone_modThread_finish (cr : Crew) (tid : Nat) :
    (cr.modThread tid Thread.finish).Every fun v u => v = tid → u.Gone := by
  intro e he heq
  obtain ⟨d, -, hkey, hval⟩ := Table.mem_adjust (t := cr.threads) he
  rw [hval, if_pos (hkey.symm.trans heq)]
  exact d.2.gone_finish

/-- Where every other thread has ended, none is left. -/
theorem Crew.allEnded_modThread_finish (hwf : Table.wf cr.threads = true)
    (hothers : ∀ v x, v ≠ tid → Table.get? cr.threads v = some x → x.ended = true) :
    (cr.modThread tid Thread.finish).AllEnded := by
  intro e he
  obtain ⟨d, hd, -, hval⟩ := Table.mem_adjust (t := cr.threads) he
  rw [hval]
  split
  · rfl
  · next hne => exact hothers d.1 d.2 hne ((Table.mem_iff_get? hwf).1 hd)

/-- The thread that ends leaves its crew's tumblers. -/
theorem State.leaves_finished (hcr : s.crew? c = some cr) (hth : Table.get? cr.threads tid = some th) :
    ∃ y, ((List.range 16).foldl (fun (t : State) k => t.leaveTumbler c k tid) (s.modThread c tid Thread.finish)).crew? c =
      some y ∧ y.Without tid ∧ ((cr.modThread tid Thread.finish).AllEnded → y.AllEnded) := by
  have hcrew := State.crew?_modCrew_self hcr fun x => x.modThread tid Thread.finish
  obtain ⟨y, hy, -, -, -, hthread, hleft, hevery⟩ := State.foldl_leaveTumbler (tid := tid) (List.range 16) hcrew
    (cr.notWaiting_modThread tid fun _ => rfl)
  refine ⟨y, hy, ⟨?_, ?_, fun k hk => ?_⟩, fun hall => ?_⟩
  · exact hevery _ (fun v u hu heq => (Thread.keepsEnd_released u).2 (hu heq)) (cr.gone_modThread_finish tid)
  · rw [hthread]
    exact Option.isSome_of_mem (Table.get?_adjust_self hth _)
  · have hk' := hleft k
    rw [if_pos (List.mem_range.2 hk)] at hk'
    exact ⟨hk'.1, hk'.2.1⟩
  · exact hevery (fun _ u => u.ended = true) (fun v u => (Thread.keepsEnd_released u).1) hall

/-- The barriers, which go on without the thread, keep what has ended. -/
theorem State.threadOut_has {y : Crew} (hP : Crew.EndOnly P)
    (hy : ((List.range 16).foldl (fun (t : State) k => t.leaveTumbler c k tid) (s.modThread c tid Thread.finish)).crew? c =
      some y) (hpy : P y) : (s.threadOut c tid).CrewHas c P := by
  have hleave : ((List.range 16).foldl (fun (t : State) k => t.leaveTumbler c k tid)
      (s.modThread c tid Thread.finish)).CrewHas c P := fun x hx => by
    rw [hy, Option.some.injEq] at hx
    exact hx ▸ hpy
  exact (hleave.checkBarrier hP c).checkGangs hP

theorem State.endThread_without (hcr : s.crew? c = some cr) (hth : Table.get? cr.threads tid = some th) :
    (s.endThread c tid).CrewHas c (Crew.Without tid) := by
  obtain ⟨y, hy, hout, -⟩ := State.leaves_finished hcr hth
  have hgone := State.threadOut_has (Crew.endOnly_without tid) hy hout
  cases hx : (s.threadOut c tid).crew? c with
  | none => rw [State.endThread_of_none hx]; exact hgone
  | some x =>
    rw [State.endThread_of_some hx]
    split
    · exact hgone.endCrew
    · exact hgone

/-- A crew whose last thread ends, ends. -/
theorem State.endThread_over (hcr : s.crew? c = some cr) (hth : Table.get? cr.threads tid = some th)
    (hwf : Table.wf cr.threads = true)
    (hothers : ∀ v x, v ≠ tid → Table.get? cr.threads v = some x → x.ended = true) :
    (s.endThread c tid).CrewHas c Crew.Over := by
  obtain ⟨y, hy, -, hall⟩ := State.leaves_finished hcr hth
  have hended := State.threadOut_has Crew.endOnly_allEnded hy (hall (Crew.allEnded_modThread_finish hwf hothers))
  cases hx : (s.threadOut c tid).crew? c with
  | none =>
    rw [State.endThread_of_none hx]
    intro z hz
    rw [hx] at hz
    exact nomatch hz
  | some x =>
    rw [State.endThread_of_some hx, if_pos (List.all_eq_true.2 (hended x hx))]
    exact State.endCrew_over hx

/-! ## The instruction -/

section
variable {u : State} (hu : u = s.flushed) (h : u.Solo tid cr th) (hclear : u.Clear (lx [] false)) (hfifo : th.fifo = [])
  (hended : th.ended = false) (hpc : th.pc = u.cur.pc)
include hu h hclear hfifo hended hpc

/-- With the thread's stores performed, `end` waits for its copies and its non-temporal stores, takes the error of a tag,
or ends the thread. -/
theorem State.Solo.execEndThread_eq :
    (th.tagCount ≠ [] ∨ th.ntStores ≠ [] → exec .endThread s = .next (u.park u.cur.crew tid .ending)) ∧
    (th.tagCount = [] → th.ntStores = [] →
      (∀ k e r, th.tagErr = (k, e) :: r → exec .endThread s = .next
        ((u.modThread u.cur.crew tid fun x => { x with tagErr := Table.drop x.tagErr k }).trapLane tid e.code e.addr)) ∧
      (th.tagErr = [] → exec .endThread s = .next (u.endThread u.cur.crew tid))) := by
  have hhere : u.stillHere tid = true := by simp [State.stillHere, h.thread, hended, hpc]
  have hempty : u.fifoEmpty u.cur.crew tid = true := by simp [State.fifoEmpty, h.thread, hfifo]
  have hexec : exec .endThread s = execEndThread s := rfl
  rw [hexec, execEndThread, ← hu, State.guarded_of_clear _ _ _ hclear, h.lanewise]
  dsimp only
  rw [State.drainFifo_of_empty h.thread hfifo, hhere, hempty, if_neg (by simp)]
  refine ⟨fun hbusy => ?_, fun htags hstores => ⟨fun k e r herr => ?_, fun hnone => ?_⟩⟩
  · rw [if_pos (by simpa using hbusy)]
  · rw [if_neg (by simp [htags, hstores]), herr]
  · rw [if_neg (by simp [htags, hstores]), hnone]

end

end Sys2Proof.Machine

namespace Sys2Proof

open Machine

/-- Settles O26: what the end of a thread leaves (`State.endThread_without`), and of a crew (`State.endCrew_over`), the
barriers and the reap behind it keep (`Crew.EndOnly`). -/
theorem threadsEnd : Obligations.ThreadsEnd := by
  unfold Obligations.ThreadsEnd
  intro s u tid cr th hu h hclear hwf
  refine ⟨fun hfifo hended hpc => ?_, fun code info addr cr' halive hcr' =>
    State.killCrew_over h.2.1 halive code info addr cr' hcr'⟩
  obtain ⟨hparks, hgoes⟩ := State.Solo.execEndThread_eq hu h hclear hfifo hended hpc
  refine ⟨fun hbusy => ⟨_, hparks hbusy, State.park_parks h.thread .ending⟩, fun htags hstores => ?_⟩
  obtain ⟨htraps, hends⟩ := hgoes htags hstores
  refine ⟨htraps, fun hnone => ⟨_, hends hnone, fun cr' hcr' => ?_⟩⟩
  have hout := State.endThread_without h.2.1 h.2.2.1 cr' hcr'
  obtain ⟨x, hx, hxended, hregs, hpend, hwait⟩ := hout.thread
  exact ⟨⟨x, hx, hxended, hregs, hpend, hwait⟩, hout.tumblers, fun hothers =>
    (State.endThread_over h.2.1 h.2.2.1 hwf hothers cr' hcr').1⟩

end Sys2Proof
end

section
/-! SUPPORT. What the copy engine leaves as it was (chapter 10): changes of crews and launches alone, the marks of die lines
(R18), and what one thread's instruction leaves behind an outward effect (R352). -/

namespace Sys2Proof.Machine

open Sys2Proof

variable {s t u : State} {cr x y : Crew} {th th' : Thread} {c tid off : Nat} {α : Type} {K : Crew → α}

/-! ## Changes of crews and launches alone -/

/-- Nothing but crews and launches has changed, and of no crew the part K. -/
def State.Leaves (K : Crew → α) (s t : State) : Prop :=
  { t with crews := s.crews, launches := s.launches } = s ∧ ∀ c, (t.crew? c).map K = (s.crew? c).map K

namespace State.Leaves

theorem refl (K : Crew → α) (s : State) : State.Leaves K s s := ⟨rfl, fun _ => rfl⟩

theorem trans (h : State.Leaves K s t) (g : State.Leaves K t u) : State.Leaves K s u :=
  ⟨(congrArg (fun x : State => { x with crews := s.crews, launches := s.launches }) g.1 :).trans h.1,
    fun c => (g.2 c).trans (h.2 c)⟩

theorem crew (h : State.Leaves K s t) (hcr : s.crew? c = some cr) : ∃ y, t.crew? c = some y ∧ K y = K cr := by
  have hK := h.2 c
  rw [hcr] at hK
  exact Option.map_eq_some_iff.1 hK

theorem cur (h : State.Leaves K s t) : t.cur = s.cur := (congrArg State.cur h.1 :)

theorem contexts (h : State.Leaves K s t) : t.contexts = s.contexts := (congrArg State.contexts h.1 :)

theorem foldl {β : Type} {f : State → β → State} (bs : List β) (h : State.Leaves K s t)
    (hf : ∀ t b, State.Leaves K s t → b ∈ bs → State.Leaves K t (f t b)) : State.Leaves K s (bs.foldl f t) :=
  List.foldlRecOn bs f (motive := State.Leaves K s) h fun t ht b hb => ht.trans (hf t b ht hb)

theorem modCrew (s : State) (c : Nat) {f : Crew → Crew} (hf : ∀ x, K (f x) = K x) : State.Leaves K s (s.modCrew c f) := by
  refine ⟨rfl, fun d => ?_⟩
  rw [State.crew?_modCrew]
  split
  · rw [Option.map_map]
    exact congrArg (Option.map · (s.crew? d)) (funext hf)
  · rfl

/-- A line's mark lies in a die window, of the crew or of its launch (R18). -/
theorem modDieLine (s : State) (c off : Nat) (f : LineMark → LineMark)
    (hK : ∀ x n, K { x with window := x.window.modLine n f } = K x) : State.Leaves K s (s.modDieLine c off f) := by
  unfold State.modDieLine State.modWindow
  cases s.crew? c with
  | none => exact refl K s
  | some cr =>
    dsimp only
    split
    · exact modCrew s c fun x => hK x _
    · exact ⟨rfl, fun _ => rfl⟩

end State.Leaves

/-! ## The marks of die lines (R18) -/

theorem DieWindow.line_modLine (w : DieWindow) (n : Nat) (f : LineMark → LineMark) : (w.modLine n f).line n = f (w.line n) :=
  (Sparse.get_set _ _ _ _ _).trans (if_pos rfl)

/-- A launch window that is there is changed. -/
theorem Launch.win_modWin (l : Launch) (die : Nat) (f : DieWindow → DieWindow) (hsize : 0 < (l.win die).size) :
    (l.modWin die f).win die = f (l.win die) := by
  unfold Launch.win Launch.modWin at *
  by_cases hdie : die = 0
  · cases hwin : l.win0 with
    | none => simp [hdie, hwin, DieWindow.empty] at hsize
    | some w => simp [hdie]
  · cases hwin : l.win1 with
    | none => simp [hdie, hwin, DieWindow.empty] at hsize
    | some w => simp [hdie]

/-- The window of a launch on the crew's die. -/
theorem State.window_launch (s : State) (cr : Crew) (h : ¬off < launchBase) : s.window cr off =
    ((Table.get? s.launches cr.launch).map fun l => l.win cr.die).getD DieWindow.empty := by
  unfold State.window
  rw [if_neg h]
  cases Table.get? s.launches cr.launch <;> rfl

/-- The mark of a line, which rests on its crew's window and its launch's. -/
theorem State.dieLine_congr (hlaunches : t.launches = s.launches) (hwindow : y.window = x.window)
    (hlaunch : y.launch = x.launch) (hdie : y.die = x.die) (off : Nat) : t.dieLine y off = s.dieLine x off := by
  unfold State.dieLine State.window
  rw [hlaunches, hwindow, hlaunch, hdie]

/-- An offset that bytes of a window have: its line is changed. -/
theorem State.dieLine_modDieLine (hcr : s.crew? c = some cr) {n : Nat} (hn : 0 < n)
    (hin : s.inBounds cr .die off n = true) (f : LineMark → LineMark) (hy : (s.modDieLine c off f).crew? c = some y) :
    (s.modDieLine c off f).dieLine y off = f (s.dieLine cr off) := by
  unfold State.modDieLine State.modWindow at *
  rw [hcr] at hy ⊢
  dsimp only at hy ⊢
  by_cases hown : off < launchBase
  · rw [if_pos hown] at hy ⊢
    rw [State.crew?_modCrew, if_pos rfl, hcr, Option.map_some, Option.some.injEq] at hy
    subst hy
    simp only [State.dieLine, State.window, hown, if_true, DieWindow.line_modLine]
  · rw [if_neg hown] at hy ⊢
    obtain rfl : y = cr := Option.some.inj (hy.symm.trans hcr)
    have hbound := (s.inBounds_windows y n off).2.2.2.2 (Int.ofNat_le.2 (Nat.not_lt.1 hown))
    have hwin : s.window y 0x80000000 = s.window y off :=
      (s.window_launch y (Nat.lt_irrefl launchBase)).trans (s.window_launch y hown).symm
    rw [hin, eq_comm, decide_eq_true_iff, hwin] at hbound
    have hsize : 0 < (s.window y off).size := by
      simp only [launchBase] at hown
      omega
    rw [s.window_launch y hown] at hsize
    simp only [State.dieLine, State.window_launch _ y hown]
    rw [State.modLaunch, Table.get?_adjust, if_pos rfl]
    cases hl : Table.get? s.launches y.launch with
    | none => simp [hl, DieWindow.empty] at hsize
    | some l =>
      rw [hl] at hsize
      simp only [Option.map_some, Option.getD_some, l.win_modWin y.die _ hsize, DieWindow.line_modLine]

/-! ## One thread, behind an outward effect -/

theorem State.NowThread.finishLane (h : s.NowThread t cr tid th) (mode : ResultMode) (rs : Results) :
    s.NowThread (t.finishLane tid mode rs []) cr tid (th.commit s.cur.length mode rs) := by
  unfold State.finishLane
  rw [h.1.cur]
  exact h.modThread _

theorem State.NowThread.crew (h : s.NowThread t cr tid th) : ∃ y, t.crew? s.cur.crew = some y ∧ y.bare = cr.bare :=
  Option.map_eq_some_iff.1 h.2.1

/-- A change of the crew outside its threads. -/
theorem State.NowThread.modCrew (h : s.NowThread t cr tid th) {f : Crew → Crew} (hf : ∀ x : Crew, (f x).threads = x.threads)
    (hbare : ∀ x : Crew, x.bare = cr.bare → (f x).bare = (f cr).bare) :
    s.NowThread (t.modCrew s.cur.crew f) (f cr) tid th := by
  obtain ⟨y, hy, hyb⟩ := h.crew
  obtain ⟨⟨hstate, hcrews⟩, -, hth, hothers⟩ := h
  have hcrew : (t.modCrew s.cur.crew f).crew? s.cur.crew = some (f y) := by
    rw [State.crew?_modCrew, if_pos rfl, hy, Option.map_some]
  have hthread : ∀ v, (t.modCrew s.cur.crew f).thread? s.cur.crew v = t.thread? s.cur.crew v := fun v => by
    rw [State.thread?_of_crew _ _ _ _ hcrew, State.thread?_of_crew _ _ _ _ hy, hf]
  refine ⟨⟨hstate, fun d hd => ?_⟩, ?_, (hthread tid).trans hth, fun v hv => ?_⟩
  · rw [State.crew?_modCrew, if_neg hd]
    exact hcrews d hd
  · rw [hcrew, Option.map_some, hbare y hyb]
  · rw [hthread, hothers v hv, hf]

theorem State.NowThread.outward (h : s.NowThread t cr tid th) : s.NowThread t.outward cr.outward tid th := by
  unfold State.outward
  rw [h.1.cur]
  exact h.modCrew (fun _ => rfl) fun x hx => (congrArg Crew.outward hx :)

end Sys2Proof.Machine
end

section
/-! SUPPORT. Per-thread copies of one thread (R197 to R199, R201): the element that a lane issues, and the waits on its tags. -/

namespace Sys2Proof.Machine

open Sys2Proof

variable {s t u : State} {cr y : Crew} {th : Thread} {c tid k dst src n : Nat} {α : Type} {K : Crew → α}

/-- A check that the thread fails traps the bundle, with the check's code and INFO. -/
theorem State.Solo.codeTrap_of_some (h : s.Solo tid cr th) {check : Lane → Thread → Option (Code × Nat)} {code : Code}
    {info : Nat} (hc : check { tid := tid, issued := true } th = some (code, info)) :
    s.codeTrap check = some (s.trap code (s.maskOf fun e => s.cur.active e.1 e.2) info) := by
  have hmask : (s.maskOf fun e => s.cur.active e.1 e.2 && (check e.1 e.2).isSome) =
      s.maskOf fun e => s.cur.active e.1 e.2 := by
    simp [State.maskOf, h.curLanes, maskFrom, hc]
  unfold State.codeTrap
  rw [h.activeLanes]
  simp [hc, hmask]

/-! ## The element that issues (R198) -/

/-- The line of a die destination is marked as being written (R18). -/
def State.lineTaken (s : State) (c dst : Nat) : State :=
  match addrForm dst with
  | .die o => s.modDieLine c o LineMark.start
  | _ => s

theorem State.lineTaken_leaves (s : State) (c dst : Nat)
    (hK : ∀ x n, K { x with window := x.window.modLine n LineMark.start } = K x) :
    State.Leaves K s (s.lineTaken c dst) := by
  unfold State.lineTaken
  split
  · exact State.Leaves.modDieLine s c _ _ hK
  · exact State.Leaves.refl K s

theorem State.dieLine_lineTaken {o : Nat} (hcr : s.crew? c = some cr) (hdst : addrForm dst = .die o)
    (hin : s.inBounds cr .die o 32 = true) (hy : (s.lineTaken c dst).crew? c = some y) :
    (s.lineTaken c dst).dieLine y o = (s.dieLine cr o).start := by
  unfold State.lineTaken at *
  simp only [hdst] at hy ⊢
  exact State.dieLine_modDieLine hcr (by decide) hin _ hy

/-- An element is recorded, under a new identifier. -/
def State.recorded (s : State) (e : TElem) : State :=
  { s with nextId := s.nextId + 1, elems := Table.put s.elems s.nextId e }

/-- An element issues: it is recorded, its destination line taken, and its tag counts it. -/
def State.issueElem (s : State) (tid : Nat) (e : TElem) : State :=
  let u := (s.recorded e).lineTaken s.cur.crew e.dst
  let u := u.modThread u.cur.crew tid fun th =>
    { th with tagCount := Sparse.set 0 th.tagCount e.tag (th.tag e.tag + 1) }
  let u := if staysShared e.dst then u else u.outward
  let u := u.finishLane tid .now [] []
  if isMain e.dst then u.closeRegion u.cur.crew tid else u

/-- The element of a thread's copy (R198): the bytes of a local source are read at once. -/
def State.elemOf (s : State) (cr : Crew) (tid : Nat) (th : Thread) (k dst src n : Nat) : TElem :=
  { crew := s.cur.crew, tid := tid, ctx := cr.ctx, die := cr.die, cluster := cr.homeCluster th, tag := k, dst := dst
    src := src, n := n
    data := if n = 0 then some [] else ((addrForm src).local?).map fun p => s.engineBytes cr p.1 p.2 n
    failed := none, xlate := none }

theorem AddrForm.eq_die_of_local? {f : AddrForm} {o : Nat} (h : f.local? = some (.die, o)) : f = .die o := by
  cases f <;> simp_all [AddrForm.local?]

/-- A local source without a fault and without an error is read at issue. -/
theorem State.cpTSource_eq (hwait : th.wait = none)
    (hline : ∀ o, addrForm src = .die o → (s.dieLine cr o).present = true ∧ (s.dieLine cr o).faulted = false)
    (hpoison : ∀ sp o, (addrForm src).local? = some (sp, o) → s.enginePoison cr sp o n = false) :
    s.cpTSource cr th src n = ((s.elemOf cr tid th k dst src n).data, none) := by
  unfold State.cpTSource State.elemOf
  by_cases hn : n = 0
  · rw [if_pos hn, if_pos hn]
  · rw [if_neg hn]
    simp only [hn, if_false]
    cases hlocal : (addrForm src).local? with
    | none => rfl
    | some p =>
      obtain ⟨sp, o⟩ := p
      have hready : (decide (sp = .die) && ((s.dieLine cr o).faulted || decide (th.wait = some (Wait.copySource o true)))) =
          false := by
        by_cases hsp : sp = .die
        · subst hsp
          simp [(hline o (AddrForm.eq_die_of_local? hlocal)).2, hwait]
        · simp [hsp]
      simp only [hready, hpoison sp o hlocal, Bool.false_eq_true, if_false, Option.map_some]

/-- At the first issue of an instruction no lower lane of a copy waits. -/
theorem State.FirstIssue.copyBehind (h : s.FirstIssue cr) (tid : Nat) : cr.copyBehind s.cur.seq tid = false := by
  refine List.any_eq_false.2 fun e he => ?_
  by_cases hs : e.2.parkIssue = s.cur.seq
  · simp [h e he hs]
  · simp [hs]

/-- A lane whose tag and lines have room issues its element. -/
theorem State.Solo.cpTLane_eq (h : s.Solo tid cr th) (hfirst : s.FirstIssue cr) (hwait : th.wait = none)
    (htag : th.tag k < 63) (hroom : ∀ o, addrForm dst = .die o → (s.dieLine cr o).writers < 15)
    (hline : ∀ o, addrForm src = .die o → (s.dieLine cr o).present = true ∧ (s.dieLine cr o).faulted = false)
    (hpoison : ∀ sp o, (addrForm src).local? = some (sp, o) → s.enginePoison cr sp o n = false) :
    s.cpTLane tid k dst src n = s.issueElem tid (s.elemOf cr tid th k dst src n) := by
  unfold State.cpTLane
  rw [h.curCrew]
  dsimp only
  rw [h.2.2.1]
  dsimp only
  refine (if_neg ?_).trans ((if_neg ?_).trans ?_)
  · cases hdst : addrForm dst <;> simp [hfirst.copyBehind, Nat.not_le.2 htag]
    exact hroom _ hdst
  · cases hsrc : addrForm src <;> simp
    simp [(hline _ hsrc).1]
  · rw [State.cpTSource_eq (tid := tid) (k := k) (dst := dst) hwait hline hpoison]
    rfl

/-- The thread of an element that has issued has gone on, behind a region entry for a main destination. -/
theorem State.issueElem_nowThread {v : State} (e : TElem) (hv : v = (s.recorded e).lineTaken s.cur.crew e.dst)
    (hy : v.crew? v.cur.crew = some y) (hth : Table.get? y.threads tid = some th) :
    let th' := { th with tagCount := Sparse.set 0 th.tagCount e.tag (th.tag e.tag + 1) }.commit v.cur.length .now []
    ∃ z, (z = y ∨ z = y.outward) ∧
      v.NowThread (s.issueElem tid e) z tid (if e.dst < 2 ^ 57 then v.closed z th' else th') := by
  have hcounted := (State.NowThread.refl hy hth).modThread fun th =>
    { th with tagCount := Sparse.set 0 th.tagCount e.tag (th.tag e.tag + 1) }
  obtain ⟨w, hw⟩ : ∃ w, w = v.modThread v.cur.crew tid fun th =>
    { th with tagCount := Sparse.set 0 th.tagCount e.tag (th.tag e.tag + 1) } := ⟨_, rfl⟩
  obtain ⟨z, hz, hout⟩ : ∃ z, (z = y ∨ z = y.outward) ∧ v.NowThread (if staysShared e.dst then w else w.outward) z tid
      { th with tagCount := Sparse.set 0 th.tagCount e.tag (th.tag e.tag + 1) } := by
    rw [← hw] at hcounted
    split
    · exact ⟨y, .inl rfl, hcounted⟩
    · exact ⟨_, .inr rfl, hcounted.outward⟩
  have hdone := hout.finishLane .now []
  refine ⟨z, hz, ?_⟩
  unfold State.issueElem
  rw [← hv]
  dsimp only
  rw [← hw]
  unfold isMain
  by_cases hmain : e.dst < 2 ^ 57
  · rw [if_pos (decide_eq_true hmain), if_pos hmain, hdone.1.cur]
    exact hdone.closeRegion
  · rw [if_neg (by simpa using hmain), if_neg hmain]
    exact hdone

/-- What issue leaves: the element alone is recorded, no byte moves, and the thread goes on. -/
theorem State.Solo.issueElem_spec (h : s.Solo tid cr th) (e : TElem)
    (hin : ∀ o, addrForm e.dst = .die o → s.inBounds cr .die o 32 = true) (ht : t = s.issueElem tid e) :
    t.elems = Table.put s.elems s.nextId e ∧ t.nextId = s.nextId + 1 ∧
      { t with crews := s.crews, launches := s.launches, elems := s.elems, nextId := s.nextId } = s ∧
      (∃ cr', t.crew? s.cur.crew = some cr' ∧ cr'.shared = cr.shared ∧ cr'.tiles = cr.tiles ∧
        cr'.window.bytes = cr.window.bytes ∧
        ∀ o, addrForm e.dst = .die o → t.dieLine cr' o = (s.dieLine cr o).start) ∧
      (∀ u, u ≠ tid → t.thread? s.cur.crew u = s.thread? s.cur.crew u) ∧
      let th' := { th with tagCount := Sparse.set 0 th.tagCount e.tag (th.tag e.tag + 1) }.commit s.cur.length .now []
      t.thread? s.cur.crew tid = some (if e.dst < 2 ^ 57 then s.closed cr th' else th') := by
  obtain ⟨v, hv⟩ : ∃ v, v = (s.recorded e).lineTaken s.cur.crew e.dst := ⟨_, rfl⟩
  have hleaves : State.Leaves (fun x : Crew => ({ x with window := DieWindow.empty }, x.window.bytes)) (s.recorded e) v :=
    hv ▸ State.lineTaken_leaves _ _ _ fun _ _ => rfl
  have hcr : (s.recorded e).crew? s.cur.crew = some cr := h.2.1
  obtain ⟨y, hy, hyK⟩ := hleaves.crew hcr
  obtain ⟨hyrest, hybytes⟩ := Prod.mk.inj hyK
  have hcur : v.cur = s.cur := hleaves.cur
  have hgety : Table.get? y.threads tid = some th :=
    (congrArg (fun x : Crew => Table.get? x.threads tid) hyrest :).trans h.2.2.1
  obtain ⟨z, hz, hnow⟩ := State.issueElem_nowThread e hv (hcur ▸ hy) hgety
  rw [← ht, hcur] at hnow
  obtain ⟨x, hx, hxbare⟩ := hnow.crew
  rw [hcur] at hx
  obtain ⟨⟨hstate, -⟩, -, hth, hothers⟩ := hnow
  rw [hcur] at hth hothers
  have hzy : { z with window := DieWindow.empty, reserve := cr.reserve } = { cr with window := DieWindow.empty } ∧
      z.window = y.window := by
    rcases hz with rfl | rfl
    · exact ⟨congrArg (fun a : Crew => { a with reserve := cr.reserve }) hyrest, rfl⟩
    · exact ⟨congrArg (fun a : Crew => { a with reserve := cr.reserve }) hyrest, rfl⟩
  obtain ⟨hzrest, hzwin⟩ := hzy
  have hxz : x = { z with threads := x.threads } := Crew.of_bare _ _ hxbare
  have hall : { t with crews := s.crews, launches := s.launches } = s.recorded e :=
    (congrArg (fun a : State => { a with crews := s.crews, launches := s.launches }) hstate :).trans hleaves.1
  have hclosed : v.closed z = s.closed cr := funext fun th' =>
    State.closed_congr hleaves.contexts (congrArg Crew.ctx hzrest :) (congrArg Crew.obj hzrest :) th'
  refine ⟨(congrArg State.elems hall :), (congrArg State.nextId hall :),
    (congrArg (fun a : State => { a with elems := s.elems, nextId := s.nextId }) hall :),
    ⟨x, hx, ?_, ?_, ?_, fun o hdst => ?_⟩, fun w hw => ?_, ?_⟩
  · rw [hxz]
    exact (congrArg Crew.shared hzrest :)
  · rw [hxz]
    exact (congrArg Crew.tiles hzrest :)
  · rw [hxz, ← hybytes]
    exact congrArg DieWindow.bytes hzwin
  · have hline : v.dieLine y o = (s.dieLine cr o).start := by
      subst hv
      exact State.dieLine_lineTaken hcr hdst (hin o hdst) hy
    rw [← hline]
    refine State.dieLine_congr (congrArg State.launches hstate :) ?_ ?_ ?_ o
    · rw [hxz]
      exact hzwin
    · rw [hxz]
      exact (congrArg Crew.launch (hzrest.trans hyrest.symm) :)
    · rw [hxz]
      exact (congrArg Crew.die (hzrest.trans hyrest.symm) :)
  · rw [hothers w hw, s.thread?_of_crew _ _ cr h.2.1]
    exact (congrArg (fun a : Crew => Table.get? a.threads w) hzrest :)
  · rw [hth, hclosed]

/-- A per-thread copy whose count is too large traps (R198). -/
theorem State.Solo.execCpT_count (h : s.Solo tid cr th) {a b : BitVec 7} (k : BitVec 3) (hclear : s.Clear
      { opnds := [lxSrc32 b], illegal := blockIllegal s.curBudget a 4 true, cls := PfxClass.predOnly, blocks := [(a, 4)] })
    (hn : 32 < (th.read32 b).toNat) : exec (.cpT a b k) s =
      .next (s.trap Code.copyCount (s.maskOf fun e => s.cur.active e.1 e.2) (th.read32 b).toNat) := by
  refine congrArg Host.Outcome.next ?_
  rw [State.guarded_of_clear _ _ _ hclear, h.curCrew]
  dsimp only
  rw [h.codeTrap_of_some (code := Code.copyCount) (info := (th.read32 b).toNat) (if_pos hn)]

/-- A per-thread copy that passes its checks is the issue of its lane (R198). -/
theorem State.Solo.execCpT_issues (h : s.Solo tid cr th) {a b : BitVec 7} (k : BitVec 3) (hclear : s.Clear
      { opnds := [lxSrc32 b], illegal := blockIllegal s.curBudget a 4 true, cls := PfxClass.predOnly, blocks := [(a, 4)] })
    (hn : n = (th.read32 b).toNat) (hdst : dst = th.blockPair a 0) (hsrc : src = th.blockPair a 2) (hcount : n ≤ 32)
    (hform : cpTForm dst src = none) (halign : cpTAlign dst src n = none) (hbounds : s.cpTBounds cr dst src n = none)
    (hfifo : th.fifo = []) : exec (.cpT a b k) s = .next (s.cpTLane tid k.toNat dst src n) := by
  subst hn hdst hsrc
  refine congrArg Host.Outcome.next ?_
  rw [State.guarded_of_clear _ _ _ hclear, h.curCrew]
  dsimp only
  rw [h.codeTrap _ (if_neg (Nat.not_lt.2 hcount))]
  dsimp only
  rw [h.codeTrap _ hform]
  dsimp only
  rw [h.codeTrap _ halign]
  dsimp only
  rw [h.codeTrap _ hbounds]
  dsimp only
  rw [h.lanewise, h.drained _ _ _ hfifo]

/-- A local destination that passes its bounds check lies in its window. -/
theorem State.inBounds_of_cpTBounds {o : Nat} (hbounds : s.cpTBounds cr dst src n = none) (hdst : addrForm dst = .die o) :
    s.inBounds cr .die o 32 = true := by
  unfold State.cpTBounds State.localBounds at hbounds
  by_contra hout
  simp [hdst, AddrForm.local?, hout] at hbounds

/-! ## Waits on tags (R199, R201) -/

/-- The forms of the wait, each with the tags that it waits for. -/
theorem exec_tagWait {k : BitVec 3} {i : Instr} {ks : List Nat}
    (hi : (i, ks) ∈ [(Instr.cpWait k, [k.toNat]), (.cpWaitAll, [0, 1, 2, 3, 4, 5, 6, 7])]) (s : State) :
    exec i s = .next (s.guarded (lx [] false) fun s => s.tagWait ks) ∧ ks.Pairwise (· < ·) := by
  simp only [List.mem_cons, Prod.mk.injEq, List.not_mem_nil, or_false] at hi
  rcases hi with ⟨rfl, rfl⟩ | ⟨rfl, rfl⟩
  · exact ⟨rfl, List.pairwise_singleton _ _⟩
  · exact ⟨rfl, by decide⟩

section
variable {ks : List Nat}

theorem State.Solo.tagWait_parks (h : s.Solo tid cr th) (hbusy : ∃ j ∈ ks, th.tag j ≠ 0) :
    s.tagWait ks = s.park s.cur.crew tid .copyTag := by
  unfold State.tagWait
  rw [h.lanewise]
  exact if_pos (by simpa using hbusy)

theorem State.Solo.tagWait_completes (h : s.Solo tid cr th) (hidle : ∀ j ∈ ks, th.tag j = 0)
    (herr : ∀ j ∈ ks, Table.get? th.tagErr j = none) : s.tagWait ks = s.finishLane tid .now [] [] := by
  have hnone : (ks.findSome? fun k => (Table.get? th.tagErr k).map fun e => (k, e)) = none :=
    List.findSome?_eq_none_iff.2 fun j hj => by rw [herr j hj, Option.map_none]
  unfold State.tagWait
  rw [h.lanewise]
  dsimp only
  rw [if_neg (by simpa using hidle), hnone]

/-- The lowest tag with an error is the one reported (notes/assumptions/89.md). -/
theorem findSome?_lowest {β : Type} (f : Nat → Option β) {ks : List Nat} (hks : ks.Pairwise (· < ·)) {j : Nat} {b : β}
    (hj : j ∈ ks) (hb : f j = some b) (hlow : ∀ l ∈ ks, l < j → f l = none) : ks.findSome? f = some b := by
  induction ks with
  | nil => simp at hj
  | cons a ks ih =>
    obtain ⟨hlt, hks⟩ := List.pairwise_cons.1 hks
    rw [List.findSome?_cons]
    rcases List.mem_cons.1 hj with rfl | hj
    · rw [hb]
    · rw [hlow a List.mem_cons_self (hlt j hj)]
      exact ih hks hj fun l hl => hlow l (List.mem_cons_of_mem _ hl)

theorem State.Solo.tagWait_traps (h : s.Solo tid cr th) (hks : ks.Pairwise (· < ·)) (hidle : ∀ j ∈ ks, th.tag j = 0)
    {j : Nat} {e : TagError} (hj : j ∈ ks) (he : Table.get? th.tagErr j = some e)
    (hlow : ∀ l ∈ ks, l < j → Table.get? th.tagErr l = none) :
    s.tagWait ks = (s.modThread s.cur.crew tid fun u => { u with tagErr := Table.drop u.tagErr j }).trapLane tid
      e.code e.addr := by
  have hfirst : (ks.findSome? fun k => (Table.get? th.tagErr k).map fun e => (k, e)) = some (j, e) :=
    findSome?_lowest _ hks hj (by rw [he, Option.map_some]) fun l hl hlt => by rw [hlow l hl hlt, Option.map_none]
  unfold State.tagWait
  rw [h.lanewise]
  dsimp only
  rw [if_neg (by simpa using hidle), hfirst]

end

end Sys2Proof.Machine

namespace Sys2Proof

open Machine

/-- Settles O27: a copy that passes its checks is the issue of its lane's element (`State.Solo.execCpT_issues`,
`State.Solo.cpTLane_eq`), whose record and line mark leave every byte (`State.Solo.issueElem_spec`); the waits report the
lowest tag that has an error. -/
theorem perThreadCopies : Obligations.PerThreadCopies := by
  unfold Obligations.PerThreadCopies
  intro s a b k la tid cr th dst src n h hn hdst hsrc
  refine ⟨fun hclear => ⟨fun hcount => ?_, fun hcount hform halign hbounds hfifo hwait hfirst htag hroom hline hpoison => ?_⟩,
    fun i ks hi hclear => ?_, fun hclear i ks hi hidle j e hj he hlow => ?_, fun hclear => ?_⟩
  · subst hn
    exact h.execCpT_count k hclear hcount
  · obtain ⟨helems, hid, hstate, ⟨cr', hcr', hshared, htiles, hbytes, hlines⟩, hothers, hth⟩ :=
      h.issueElem_spec (s.elemOf cr tid th k.toNat dst src n) (fun o => State.inBounds_of_cpTBounds hbounds) rfl
    refine ⟨_, s.elemOf cr tid th k.toNat dst src n, cr', ?_, helems, hid, rfl, hstate, hcr', hshared, htiles, hbytes,
      hlines, hothers, hth⟩
    rw [h.execCpT_issues k hclear hn hdst hsrc hcount hform halign hbounds hfifo,
      h.cpTLane_eq hfirst hwait htag hroom hline hpoison]
  · obtain ⟨hexec, -⟩ := exec_tagWait hi s
    rw [hexec, State.guarded_of_clear _ _ _ hclear]
    refine ⟨fun hbusy => ⟨_, rfl, ?_⟩, fun hidle herr => ⟨_, rfl, ?_⟩⟩
    · rw [h.tagWait_parks hbusy]
      exact State.park_parks h.thread .copyTag
    · rw [h.tagWait_completes hidle herr]
      exact h.finishLane .now [] []
  · obtain ⟨hexec, hks⟩ := exec_tagWait hi s
    rw [hexec, State.guarded_of_clear _ _ _ hclear, h.tagWait_traps hks hidle hj he hlow]
  · refine ⟨_, rfl, ?_⟩
    rw [State.guarded_of_clear _ _ _ hclear]
    exact h.complete (.after la.toNat) _

end Sys2Proof
end

section
/-! SUPPORT. Main memory under a far atomic (R31 to R34, R210): a translation that stays in a TLB changes no translation, and
so no fault, byte or home; a write changes memory alone. -/

namespace Sys2Proof.Machine

open Sys2Proof

variable {s t u : State} {ctx a n : Nat}

/-! ## Translations that stay in a TLB (R33) -/

/-- A host page's translation is the entry of its page. -/
theorem State.translate_host {p b : Nat} {w : Bool} (h : s.translate ctx a = .found (.host p b) w) :
    p = s.pasid ctx ∧ s.hostPage? p (a / pageBytes) = some { writable := w } := by
  unfold State.translate at h
  split at h
  · cases h
  · split at h
    · next pg _ =>
      rw [Xlated.found.injEq, Page.place] at h
      split at h <;> exact nomatch h.1
    · split at h
      · next page hpage =>
        cases h
        exact ⟨rfl, hpage⟩
      · split at h <;> cases h

/-- A used translation answers as the one that filled it. -/
theorem State.hostPage?_fillTlb (s : State) (ctx a q page : Nat) : (s.fillTlb ctx a).hostPage? q page = s.hostPage? q page := by
  unfold State.fillTlb
  split
  · next p b w hfound =>
    obtain ⟨-, hpage⟩ := State.translate_host hfound
    unfold State.hostPage? at *
    dsimp only
    rw [Table.get?_put]
    by_cases hq : q = p
    · subst hq
      rw [if_pos rfl, Option.getD_some, Table.get?_put]
      by_cases hp : page = a / pageBytes
      · subst hp
        rw [if_pos rfl]
        exact hpage.symm
      · rw [if_neg hp]
    · rw [if_neg hq]
  · rfl

/-- The same machine but for its TLBs, and the same translations. -/
def State.SameMain (s t : State) : Prop :=
  (∃ x, t = { s with tlb := x }) ∧ ∀ ctx a, t.translate ctx a = s.translate ctx a

namespace State.SameMain

theorem refl (s : State) : s.SameMain s := ⟨⟨s.tlb, rfl⟩, fun _ _ => rfl⟩

theorem trans (h : s.SameMain t) (g : t.SameMain u) : s.SameMain u := by
  obtain ⟨⟨x, rfl⟩, hx⟩ := h
  obtain ⟨⟨y, rfl⟩, hy⟩ := g
  exact ⟨⟨y, rfl⟩, fun ctx a => (hy ctx a).trans (hx ctx a)⟩

theorem fillTlb (s : State) (ctx a : Nat) : s.SameMain (s.fillTlb ctx a) := by
  have htlb : ∃ x, s.fillTlb ctx a = { s with tlb := x } := by
    unfold State.fillTlb
    split
    · exact ⟨_, rfl⟩
    · exact ⟨s.tlb, rfl⟩
  refine ⟨htlb, fun ctx' b => ?_⟩
  have hpage := s.hostPage?_fillTlb ctx a (s.pasid ctx') (b / pageBytes)
  obtain ⟨x, hx⟩ := htlb
  rw [hx] at hpage ⊢
  unfold State.translate
  rw [show State.pasid { s with tlb := x } ctx' = s.pasid ctx' from rfl, hpage]
  rfl

theorem byteFault (h : s.SameMain t) (ctx a : Nat) (write : Bool) : t.byteFault ctx a write = s.byteFault ctx a write := by
  obtain ⟨⟨x, rfl⟩, htr⟩ := h
  unfold State.byteFault
  rw [htr]
  rfl

theorem readMain (h : s.SameMain t) (ctx a n : Nat) : t.readMain ctx a n = s.readMain ctx a n := by
  obtain ⟨⟨x, rfl⟩, htr⟩ := h
  refine List.map_congr_left fun i _ => ?_
  unfold State.mainByte
  rw [htr]
  split
  · next p _ _ => cases p <;> rfl
  · rfl

theorem mainPoisoned (h : s.SameMain t) (ctx a n : Nat) : t.mainPoisoned ctx a n = s.mainPoisoned ctx a n := by
  obtain ⟨⟨x, rfl⟩, htr⟩ := h
  unfold State.mainPoisoned
  simp only [htr]

theorem byAtomicOp (h : s.SameMain t) (r : FarReq) : t.byAtomicOp r = s.byAtomicOp r := by
  obtain ⟨⟨x, rfl⟩, htr⟩ := h
  unfold State.byAtomicOp
  rw [htr]

theorem writePlace (h : s.SameMain t) (p : Place) (b : Byte) : (s.writePlace p b).SameMain (t.writePlace p b) := by
  obtain ⟨⟨x, rfl⟩, htr⟩ := h
  cases p <;> exact ⟨⟨x, rfl⟩, fun ctx a => htr ctx a⟩

theorem writeMain (h : s.SameMain t) (ctx a : Nat) (bs : List Byte) : (s.writeMain ctx a bs).SameMain (t.writeMain ctx a bs) := by
  unfold State.writeMain
  refine List.foldl_rel h fun b _ v w hvw => ?_
  rw [hvw.2]
  split
  · exact hvw.writePlace _ _
  · exact hvw

end State.SameMain

/-- An access that nothing stops is ready, and fills the TLB (R33). -/
theorem State.readyMain_ok {kind : Nat} (h : s.mainFault ctx a n (kind ≠ 0) = none) (who : Option (Nat × Nat)) :
    ∃ u, s.readyMain ctx a n kind who = (.ok, u) ∧ s.SameMain u := by
  unfold State.readyMain
  rw [h]
  exact ⟨_, rfl, List.foldlRecOn _ _ (motive := s.SameMain) (.refl s) fun t ht b _ => ht.trans (.fillTlb t ctx b)⟩

/-- A write changes memory and its errors alone. -/
theorem State.writeMain_memory (s : State) (ctx a : Nat) (bs : List Byte) :
    { s.writeMain ctx a bs with
      devMem := s.devMem, hostMem := s.hostMem, peerMem := s.peerMem, mainPoison := s.mainPoison } = s := by
  refine List.foldlRecOn _ _ (motive := fun t : State => { t with
    devMem := s.devMem, hostMem := s.hostMem, peerMem := s.peerMem, mainPoison := s.mainPoison } = s) rfl fun t ht b _ => ?_
  split
  · next p _ _ => cases p <;> exact ht
  · exact ht

/-! ## The modules that are asked (R335) -/

/-- An access of a width to an aligned address touches one page (R203). -/
theorem pagesOf_aligned (hn : n = 4 ∨ n = 8) (ha : a % n = 0) : pagesOf a n = [a] := by
  have hpage : (a + n - 1) / 65536 - a / 65536 = 0 := by
    rcases hn with rfl | rfl <;> omega
  have hpos : n ≠ 0 := by omega
  simp [pagesOf, pageBytes, hpos, hpage]

/-- The request that asks the peer module which homes a location. -/
def State.peerAsked (s : State) (ctx a n kind : Nat) : List Message :=
  match s.translate ctx a with
  | .found (.peer m p) _ => [.peerRequest m p n kind]
  | _ => []

theorem State.askPeers_aligned (hn : n = 4 ∨ n = 8) (ha : a % n = 0) (kind : Nat) :
    s.askPeers ctx a n kind = { s with sent := s.sent ++ s.peerAsked ctx a n kind } := by
  have hmin : Nat.min (a + n) ((a / 65536 + 1) * 65536) - a = n := by
    have hle : a + n ≤ (a / 65536 + 1) * 65536 := by rcases hn with rfl | rfl <;> omega
    rw [show Nat.min (a + n) ((a / 65536 + 1) * 65536) = a + n from Nat.min_eq_left hle, Nat.add_sub_cancel_left]
  unfold State.askPeers State.peerAsked
  rw [pagesOf_aligned hn ha, List.foldl_cons, List.foldl_nil]
  rcases s.translate ctx a with ⟨m | m | m, w⟩ | _ | _ <;> simp [pageBytes, hmin, State.send]

end Sys2Proof.Machine
end

section
/-! SUPPORT. Far atomics (R210, R211): the request of one thread, its response, and duty row 3 in hardware mode. -/

namespace Sys2Proof.Machine

open Sys2Proof

variable {s t u : State} {cr : Crew} {th : Thread} {tid id : Nat} {r : FarReq}

/-! ## The request goes to its home -/

theorem FarReq.width_cases (r : FarReq) : r.width = 4 ∨ r.width = 8 := by
  unfold FarReq.width
  split
  · exact .inr rfl
  · exact .inl rfl

/-- A request whose location has a home that takes its operation is sent, and asks the peer module that homes it. -/
theorem State.sendFar_sent (hmain : s.mainFault r.ctx r.addr r.width true = none) (halign : r.addr % r.width = 0)
    (hops : (s.byAtomicOp r && !r.op.hasAtomicOp) = false) :
    ∃ u, s.SameMain u ∧ s.sendFar id r = { u with
      sent := s.sent ++ s.peerAsked r.ctx r.addr r.width 2
      fars := Table.adjust s.fars id fun x => { x with stage := .sent, xlate := none } } := by
  obtain ⟨u, hready, hu⟩ := State.readyMain_ok (kind := 2) hmain (some (r.crew, r.tid))
  refine ⟨u, hu, ?_⟩
  unfold State.sendFar
  rw [hready]
  dsimp only
  rw [hu.byAtomicOp, if_neg (by simp [hops]), State.askPeers_aligned r.width_cases halign]
  obtain ⟨⟨x, rfl⟩, htr⟩ := hu
  unfold State.peerAsked
  rw [htr]
  rfl

/-- A host-memory atomic that PCIe does not carry goes to duty row 3, in hardware mode to its thread (R211). -/
theorem State.sendFar_unsupported (hmain : s.mainFault r.ctx r.addr r.width true = none)
    (hops : (s.byAtomicOp r && !r.op.hasAtomicOp) = true) (hrow : rowAssisted (s.dutyRow r.ctx 3) = false) :
    ∃ u, s.SameMain u ∧ s.sendFar id r = u.failFar id r Code.atomUnsup := by
  obtain ⟨u, hready, hu⟩ := State.readyMain_ok (kind := 2) hmain (some (r.crew, r.tid))
  refine ⟨u, hu, ?_⟩
  unfold State.sendFar
  rw [hready]
  dsimp only
  rw [hu.byAtomicOp, if_pos hops]
  obtain ⟨⟨x, rfl⟩, -⟩ := hu
  unfold State.farRow3
  rw [show State.dutyRow { s with tlb := x } r.ctx 3 = s.dutyRow r.ctx 3 from rfl, hrow]
  rfl

/-- A request that fails traps its waiting thread alone (R211). -/
theorem State.failFar_waiting {c v : Nat} (hcrew : r.crew = c) (htid : r.tid = v) (hth : s.thread? c v = some th)
    (hwait : th.wait = some (.far id)) (code : Code) :
    s.failFar id r code = ({ s with fars := Table.drop s.fars id }.trapWaiter c v code r.addr).reap c := by
  subst hcrew htid
  unfold State.failFar State.failFarAt
  dsimp only
  rw [show State.thread? { s with fars := Table.drop s.fars id } r.crew r.tid = some th from hth]
  dsimp only
  rw [if_pos hwait]

/-! ## The request of one thread -/

/-- The thread of a far atomic waits, its request recorded under a new identifier; the effect is outward (R352). -/
def State.farParked (s : State) (tid : Nat) (r : FarReq) : State :=
  { s.outward with nextId := s.nextId + 1, fars := Table.put s.fars s.nextId r }.park s.cur.crew tid (.far s.nextId)

/-- The request of a far atomic (R210), as it is sent. -/
def State.farRequest (s : State) (cr : Crew) (tid : Nat) (th : Thread) (op : AtomOp) (vd : BitVec 7) (addr la : Nat)
    (wide : Bool) : FarReq :=
  { crew := s.cur.crew, tid := tid, ctx := cr.ctx, die := cr.die, cluster := cr.homeCluster th, addr := addr, op := op
    wide := wide, x := th.blockValue vd 0 wide
    cmp := if op = .cas then th.blockValue vd (if wide then 2 else 1) wide else 0#64
    dest := th.farDest vd wide, la := la, stage := .sent, group := s.cur.seq, restart := false, xlate := none }

/-- What the crew's threads are once the request is recorded. -/
theorem State.Solo.farParked_spec (h : s.Solo tid cr th) (r : FarReq) :
    ((s.farParked tid r).crew? s.cur.crew).map Crew.bare = some cr.outward.bare ∧
      (∀ c, c ≠ s.cur.crew → (s.farParked tid r).crew? c = s.crew? c) ∧
      (∀ v, v ≠ tid → (s.farParked tid r).thread? s.cur.crew v = s.thread? s.cur.crew v) ∧
      ∃ th', (s.farParked tid r).thread? s.cur.crew tid = some th' ∧ th' = { th with
        wait := some (.far s.nextId), parkSeq := th'.parkSeq, parkLen := s.cur.length, parkWord := s.cur.word
        parkPfx := s.cur.pfxWord, parkIssue := s.cur.seq } := by
  have hthread : State.thread? { s.outward with nextId := s.nextId + 1, fars := Table.put s.fars s.nextId r }
      s.cur.crew tid = some th := h.outward.thread
  obtain ⟨th', ⟨⟨-, hcrews⟩, hbare, hth', hothers⟩, hparked⟩ := State.park_parks hthread (.far s.nextId)
  refine ⟨hbare.trans ?_, fun c hc => (hcrews c hc).trans ?_, fun v hv => (hothers v hv).trans ?_, th', hth', hparked⟩
  · exact congrArg (Option.map Crew.bare) h.outward.2.1
  · exact (State.crew?_modCrew s s.cur.crew c Crew.outward).trans (if_neg hc)
  · exact (s.outward.thread?_of_crew s.cur.crew v _ h.outward.2.1).trans (s.thread?_of_crew _ _ _ h.2.1).symm

section
variable {op : AtomOp} {vd : BitVec 7} {pr : BitVec 5} {la addr w n : Nat} {sz : BitVec 1}

theorem State.Solo.farForm_form (h : s.Solo tid cr th) (hw : w = if sz = 1#1 then 2 else 1)
    (hn : n = if op = .cas then 2 * w else w) (haddr : addr = (th.read64 (pr.setWidth 7 <<< 1)).toNat)
    (hclear : s.Clear { opnds := [lxSrc64 (pr.setWidth 7 <<< 1)], cls := PfxClass.predOnly, blocks := [(vd, n)]
                        illegal := blockIllegal s.curBudget vd n false || decide (vd.toNat % n ≠ 0) })
    (hmain : 2 ^ 57 ≤ addr) :
    s.farForm op vd pr la sz = s.trap Code.addrForm (s.maskOf fun e => s.cur.active e.1 e.2) addr := by
  subst hw hn haddr
  unfold State.farForm
  dsimp only
  rw [State.guarded_of_clear _ _ _ hclear, h.codeTrap_of_some (code := Code.addrForm)
    (info := (th.read64 (pr.setWidth 7 <<< 1)).toNat) (if_neg (by simpa [isMain] using hmain))]

theorem State.Solo.farForm_align (h : s.Solo tid cr th) (hw : w = if sz = 1#1 then 2 else 1)
    (hn : n = if op = .cas then 2 * w else w) (haddr : addr = (th.read64 (pr.setWidth 7 <<< 1)).toNat)
    (hclear : s.Clear { opnds := [lxSrc64 (pr.setWidth 7 <<< 1)], cls := PfxClass.predOnly, blocks := [(vd, n)]
                        illegal := blockIllegal s.curBudget vd n false || decide (vd.toNat % n ≠ 0) })
    (hmain : addr < 2 ^ 57) (halign : addr % (4 * w) ≠ 0) :
    s.farForm op vd pr la sz = s.trap Code.align (s.maskOf fun e => s.cur.active e.1 e.2) addr := by
  subst hw hn haddr
  unfold State.farForm
  dsimp only
  rw [State.guarded_of_clear _ _ _ hclear, h.codeTrap _ (if_pos (by simpa [isMain] using hmain))]
  dsimp only
  rw [h.codeTrap_of_some (code := Code.align) (info := (th.read64 (pr.setWidth 7 <<< 1)).toNat) (if_neg halign)]

/-- A far atomic that passes its checks parks its thread and sends its request. -/
theorem State.Solo.farForm_sends (h : s.Solo tid cr th) (hw : w = if sz = 1#1 then 2 else 1)
    (hn : n = if op = .cas then 2 * w else w) (haddr : addr = (th.read64 (pr.setWidth 7 <<< 1)).toNat)
    (hclear : s.Clear { opnds := [lxSrc64 (pr.setWidth 7 <<< 1)], cls := PfxClass.predOnly, blocks := [(vd, n)]
                        illegal := blockIllegal s.curBudget vd n false || decide (vd.toNat % n ≠ 0) })
    (hmain : addr < 2 ^ 57) (halign : addr % (4 * w) = 0) (hfifo : th.fifo = [])
    (hr : r = { s.farRequest cr tid th op vd addr la (sz = 1#1) with stage := .unsent }) :
    s.farForm op vd pr la sz = (s.farParked tid r).sendFar s.nextId r := by
  subst hw hn haddr hr
  have hactive : s.outwardActive = s.outward := if_neg (by simp [h.activeLanes])
  unfold State.farForm
  dsimp only
  rw [State.guarded_of_clear _ _ _ hclear, h.codeTrap _ (if_pos (by simpa [isMain] using hmain))]
  dsimp only
  rw [h.codeTrap _ (if_pos halign)]
  dsimp only
  rw [hactive, h.outward.lanewise, h.outward.drained _ _ _ hfifo, h.outward.curCrew]
  unfold State.farParked State.farRequest
  simp only [decide_eq_true_eq]
  rfl

end

/-- The forms of a far atomic, each with its operation (R210). -/
theorem exec_atomFar {d : BitVec 7} {o : BitVec 2} {pr : BitVec 5} {la : BitVec 4} {sz sc : BitVec 1} {i : Instr}
    {op : AtomOp} (hi : (i, op) ∈ [(Instr.atomFarAdd d o pr la sz sc, AtomOp.add), (.atomFarAnd d o pr la sz sc, .and),
      (.atomFarOr d o pr la sz sc, .or), (.atomFarXor d o pr la sz sc, .xor), (.atomFarMinI d o pr la sz sc, .minI),
      (.atomFarMaxI d o pr la sz sc, .maxI), (.atomFarMinN d o pr la sz sc, .minN), (.atomFarMaxN d o pr la sz sc, .maxN),
      (.atomFarExch d o pr la sz sc, .exch), (.atomFarCas d o pr la sz sc, .cas)]) (s : State) :
    exec i s = .next (s.farForm op d pr la.toNat sz) := by
  simp only [List.mem_cons, Prod.mk.injEq, List.not_mem_nil, or_false] at hi
  rcases hi with ⟨rfl, rfl⟩ | ⟨rfl, rfl⟩ | ⟨rfl, rfl⟩ | ⟨rfl, rfl⟩ | ⟨rfl, rfl⟩ | ⟨rfl, rfl⟩ | ⟨rfl, rfl⟩ | ⟨rfl, rfl⟩ |
    ⟨rfl, rfl⟩ | ⟨rfl, rfl⟩ <;> rfl

/-- The operations that PCIe carries (Table 10.3). -/
theorem AtomOp.hasAtomicOp_iff (op : AtomOp) : op.hasAtomicOp = true ↔ op = .add ∨ op = .exch ∨ op = .cas := by
  cases op <;> simp [AtomOp.hasAtomicOp]

/-- What stands after a request that is sent: the request, its message, and its thread, which waits. -/
theorem State.sendFar_farParked {r' : FarReq} (hr' : r' = { r with stage := .unsent })
    (hstage : r.stage = .sent) (hxlate : r.xlate = none) (hmain : s.mainFault r.ctx r.addr r.width true = none)
    (halign : r.addr % r.width = 0) (hops : (s.byAtomicOp r && !r.op.hasAtomicOp) = false)
    (ht : t = (s.farParked tid r').sendFar s.nextId r') :
    (∀ k, Table.get? t.fars k = if k = s.nextId then some r else Table.get? s.fars k) ∧
      { t with
        crews := s.crews, fars := s.fars, tlb := s.tlb, nextId := s.nextId, nextSeq := s.nextSeq, sent := s.sent } = s ∧
      t.sent = s.sent ++ s.peerAsked r.ctx r.addr r.width 2 ∧ t.nextId = s.nextId + 1 ∧
      t.crews = (s.farParked tid r').crews := by
  subst hr'
  obtain ⟨u, ⟨⟨x, rfl⟩, -⟩, hsend⟩ := State.sendFar_sent (s := s.farParked tid { r with stage := .unsent })
    (r := { r with stage := .unsent }) (id := s.nextId) hmain halign hops
  rw [ht, hsend]
  refine ⟨fun k => ?_, rfl, rfl, rfl, rfl⟩
  change Table.get? (Table.adjust (Table.put s.fars s.nextId { r with stage := .unsent }) s.nextId fun x =>
    { x with stage := .sent, xlate := none }) k = _
  rw [Table.get?_adjust, Table.get?_put]
  split
  · rw [Option.map_some, ← hstage, ← hxlate]
  · rfl

/-- A thread is that of its crew's table. -/
theorem State.thread?_of_crews (h : t.crews = s.crews) (c v : Nat) : t.thread? c v = s.thread? c v :=
  State.thread?_eq s t c v (by rw [State.crew?, State.crew?, h])

/-- What stands before the trap of a request that no AtomicOp carries: its thread waits, and the request is gone. -/
theorem State.Solo.sendFar_traps (h : s.Solo tid cr th) {r' : FarReq} (hr' : r' = { r with stage := .unsent })
    (hcrew : r.crew = s.cur.crew) (htid : r.tid = tid) (hmain : s.mainFault r.ctx r.addr r.width true = none)
    (hops : (s.byAtomicOp r && !r.op.hasAtomicOp) = true) (hrow : rowAssisted (s.dutyRow r.ctx 3) = false) :
    ∃ u : State, (s.farParked tid r').sendFar s.nextId r' =
        (u.trapWaiter s.cur.crew tid Code.atomUnsup r.addr).reap s.cur.crew ∧
      (∀ k, Table.get? u.fars k = if k = s.nextId then none else Table.get? s.fars k) ∧
      { u with crews := s.crews, fars := s.fars, tlb := s.tlb, nextId := s.nextId, nextSeq := s.nextSeq } = s ∧
      u.crews = (s.farParked tid r').crews := by
  subst hr'
  obtain ⟨u, ⟨⟨x, rfl⟩, -⟩, hsend⟩ := State.sendFar_unsupported (s := s.farParked tid { r with stage := .unsent })
    (r := { r with stage := .unsent }) (id := s.nextId) hmain hops hrow
  obtain ⟨-, -, -, th', hth', hparked⟩ := h.farParked_spec { r with stage := .unsent }
  have hwait : th'.wait = some (.far s.nextId) := by rw [hparked]
  have hfail := State.failFar_waiting (s := { s.farParked tid { r with stage := .unsent } with tlb := x }) (id := s.nextId)
    (r := { r with stage := .unsent }) hcrew htid ((State.thread?_of_crews rfl _ _).trans hth')
    hwait Code.atomUnsup
  refine ⟨_, hsend.trans hfail, fun k => ?_, rfl, rfl⟩
  · change Table.get? (Table.drop (Table.put s.fars s.nextId { r with stage := .unsent }) s.nextId) k = _
    rw [Table.get?_drop, Table.get?_put]
    split <;> rfl

/-! ## The response (R210) -/

/-- The registers that take the old value. -/
def FarReq.results (r : FarReq) (old : Nat) : Results :=
  match r.dest with
  | [x, y] => [(.reg x, lo32 (BitVec.ofNat 64 old)), (.reg y, hi32 (BitVec.ofNat 64 old))]
  | [x] => [(.reg x, lo32 (BitVec.ofNat 64 old))]
  | _ => []

/-- The old value comes back to a thread that waits for it: its instruction completes, and a region begins. -/
theorem State.returnFar_eq (hcr : s.crew? r.crew = some cr) (hrun : cr.killed = false)
    (hth : Table.get? cr.threads r.tid = some th) (hwait : th.wait = some (.far id)) (hrestart : r.restart = false)
    (old : Nat) : s.returnFar id r old =
      { s with fars := Table.drop s.fars id }.modThread r.crew r.tid fun x =>
        s.closed cr (x.commit x.parkLen (.after r.la) (r.results old)) := by
  obtain ⟨v, hv⟩ : ∃ v : State, v = { s with fars := Table.drop s.fars id } := ⟨_, rfl⟩
  have hvcr : v.crew? r.crew = some cr := by rw [hv]; exact hcr
  have hreleased : (v.release r.crew r.tid r.la (r.results old)).crew? r.crew =
      some (cr.modThread r.tid fun x => x.commit x.parkLen (.after r.la) (r.results old)) := by
    rw [State.release, State.modThread, State.crew?_modCrew, if_pos rfl, hvcr, Option.map_some]
  have hclosed : (v.release r.crew r.tid r.la (r.results old)).closed (cr.modThread r.tid fun x =>
      x.commit x.parkLen (.after r.la) (r.results old)) = s.closed cr :=
    funext fun x => State.closed_congr (by rw [hv]; rfl) rfl rfl x
  unfold State.returnFar
  rw [← hv]
  dsimp only
  rw [State.thread?_of_crew _ _ _ _ hvcr, hth]
  dsimp only
  rw [if_neg (not_not.2 hwait), if_neg (by simp [hrestart])]
  change ((v.release r.crew r.tid r.la (r.results old)).closeRegion r.crew r.tid).reap r.crew = _
  rw [State.closeRegion_eq hreleased, hclosed, State.release, State.modThread_modThread]
  refine State.reap_of_running (cr := cr.modThread r.tid fun x =>
    s.closed cr (x.commit x.parkLen (.after r.la) (r.results old))) ?_ hrun
  rw [State.modThread, State.crew?_modCrew, if_pos rfl, hvcr, Option.map_some]

/-- What an operation writes at the location of its request. -/
def State.farWritten (s : State) (r : FarReq) (old : Nat) : State :=
  match r.op.apply (8 * r.width) old r.x.toNat r.cmp.toNat with
  | some v => s.writeMain r.ctx r.addr (leBytes v r.width)
  | none => s

theorem State.farWritten_memory (s : State) (r : FarReq) (old : Nat) : { s.farWritten r old with
    devMem := s.devMem, hostMem := s.hostMem, peerMem := s.peerMem, mainPoison := s.mainPoison } = s := by
  unfold State.farWritten
  split
  · exact s.writeMain_memory _ _ _
  · rfl

theorem State.SameMain.farWritten (h : s.SameMain t) (r : FarReq) (old : Nat) :
    (s.farWritten r old).SameMain (t.farWritten r old) := by
  unfold State.farWritten
  split
  · exact h.writeMain _ _ _
  · exact h

/-- The response to a request: the home performs the operation once, and the old value returns. -/
theorem execFarAtomicResponse_eq (hr : Table.get? s.fars id = some r) (hstage : r.stage = .sent)
    (hfirst : s.farBehind r = false) (hops : s.byAtomicOp r = false ∨ s.hostAtomics = true)
    (hmain : s.mainFault r.ctx r.addr r.width true = none) (hgood : s.mainPoisoned r.ctx r.addr r.width = false) {old : Nat}
    (hold : old = leNat (s.readMain r.ctx r.addr r.width)) :
    ∃ v, (s.farWritten r old).SameMain v ∧ exec (.farAtomicResponse id) s = .next (v.returnFar id r old) := by
  obtain ⟨u, hready, hu⟩ := State.readyMain_ok (kind := 2) hmain (some (r.crew, r.tid))
  refine ⟨_, hu.farWritten r old, congrArg Host.Outcome.next ?_⟩
  rw [hr]
  dsimp only
  rw [if_neg (by rcases hops with hops | hops <;> simp [hstage, hfirst, hops]), hready]
  dsimp only
  rw [hu.mainPoisoned, hgood, hu.readMain, ← hold]
  rfl

/-- A host that answers Unsupported Request, in hardware mode of duty row 3 (R211). -/
theorem execAtomicopUrCompletion_eq (hr : Table.get? s.fars id = some r) (hstage : r.stage = .sent)
    (hfirst : s.farBehind r = false) (hops : s.byAtomicOp r = true) (hrow : rowAssisted (s.dutyRow r.ctx 3) = false)
    (hth : s.thread? r.crew r.tid = some th) (hwait : th.wait = some (.far id)) :
    exec (.atomicopUrCompletion id) s = .next
      (({ s with fars := Table.drop s.fars id }.trapWaiter r.crew r.tid Code.atomUnsup r.addr).reap r.crew) := by
  refine congrArg Host.Outcome.next ?_
  rw [hr]
  dsimp only
  rw [if_pos (by simp [hstage, hfirst, hops])]
  unfold State.farRow3
  rw [hrow]
  exact State.failFar_waiting rfl rfl hth hwait Code.atomUnsup

/-- The request's width and registers, written out by the size bit. -/
theorem State.farRequest_eq {op : AtomOp} {vd : BitVec 7} {sz : BitVec 1} {w addr la : Nat} (s : State) (cr : Crew)
    (tid : Nat) (th : Thread) (hw : w = if sz = 1#1 then 2 else 1) :
    s.farRequest cr tid th op vd addr la (sz = 1#1) =
      { crew := s.cur.crew, tid := tid, ctx := cr.ctx, die := cr.die, cluster := cr.homeCluster th, addr := addr
        op := op, wide := decide (sz = 1#1)
        x := if w = 2 then pairOf (th.readReg (th.blockReg vd 0)) (th.readReg (th.blockReg vd 1))
          else (th.readReg (th.blockReg vd 0)).setWidth 64
        cmp := if op ≠ .cas then 0#64
          else if w = 2 then pairOf (th.readReg (th.blockReg vd 2)) (th.readReg (th.blockReg vd 3))
          else (th.readReg (th.blockReg vd 1)).setWidth 64
        dest := if w = 2 then [th.blockReg vd 0, th.blockReg vd 1] else [th.blockReg vd 0]
        la := la, stage := .sent, group := s.cur.seq, restart := false, xlate := none } := by
  unfold State.farRequest Thread.blockValue Thread.farDest
  by_cases hsz : sz = 1#1 <;> by_cases hop : op = .cas <;> simp [hw, hsz, hop]

theorem FarReq.width_eq {sz : BitVec 1} {w : Nat} (hw : w = if sz = 1#1 then 2 else 1) (h : r.wide = decide (sz = 1#1)) :
    r.width = 4 * w := by
  unfold FarReq.width
  rw [h, hw]
  by_cases hsz : sz = 1#1 <;> simp [hsz]

/-- The registers that take the old value, as the words they take. -/
theorem FarReq.results_eq (r : FarReq) (old : Nat) : r.results old = match r.dest with
    | [x, y] => [(.reg x, lo32 (BitVec.ofNat 64 old)), (.reg y, hi32 (BitVec.ofNat 64 old))]
    | [x] => [(.reg x, BitVec.ofNat 32 old)]
    | _ => [] := by
  have hlow : lo32 (BitVec.ofNat 64 old) = BitVec.ofNat 32 old := by
    refine BitVec.eq_of_toNat_eq ?_
    simp [lo32, BitVec.extractLsb'_toNat, Nat.mod_mod_of_dvd]
  unfold FarReq.results
  rw [hlow]

/-- Where the response's state differs from the one before the request was performed: memory and TLB. -/
theorem State.SameMain.of_memory (h : s.SameMain t) : t.crews = s.crews ∧ t.contexts = s.contexts ∧ t.fars = s.fars ∧
    (t.devMem, t.hostMem, t.peerMem, t.mainPoison) = (s.devMem, s.hostMem, s.peerMem, s.mainPoison) := by
  obtain ⟨⟨x, rfl⟩, -⟩ := h
  exact ⟨rfl, rfl, rfl, rfl⟩

/-- The thread that waits for a response goes on with the old value; every other thread and all else of the crews stays. -/
theorem farAtomicResponse_spec (hr : Table.get? s.fars id = some r) (hstage : r.stage = .sent)
    (hfirst : s.farBehind r = false) (hcr : s.crew? r.crew = some cr) (hrun : cr.killed = false)
    (hth : Table.get? cr.threads r.tid = some th) (hwait : th.wait = some (.far id))
    (hops : s.byAtomicOp r = false ∨ s.hostAtomics = true) (hrestart : r.restart = false)
    (hmain : s.mainFault r.ctx r.addr r.width true = none) (hgood : s.mainPoisoned r.ctx r.addr r.width = false) {old : Nat}
    (hold : old = leNat (s.readMain r.ctx r.addr r.width)) :
    ∃ t, exec (.farAtomicResponse id) s = .next t ∧ Table.get? t.fars id = none ∧
      t.thread? r.crew r.tid = some (s.closed cr (th.commit th.parkLen (.after r.la) (r.results old))) ∧
      (∀ c v, ¬(c = r.crew ∧ v = r.tid) → t.thread? c v = s.thread? c v) ∧
      (∀ c, (t.crew? c).map Crew.bare = (s.crew? c).map Crew.bare) ∧
      (t.devMem, t.hostMem, t.peerMem, t.mainPoison) = ((s.farWritten r old).devMem, (s.farWritten r old).hostMem,
        (s.farWritten r old).peerMem, (s.farWritten r old).mainPoison) := by
  obtain ⟨v, hv, hexec⟩ := execFarAtomicResponse_eq hr hstage hfirst hops hmain hgood hold
  obtain ⟨hvcrews, hvcontexts, -, hvmem⟩ := hv.of_memory
  have hwritten := s.farWritten_memory r old
  have hcrews : v.crews = s.crews := hvcrews.trans (congrArg State.crews hwritten :)
  have hcontexts : v.contexts = s.contexts := hvcontexts.trans (congrArg State.contexts hwritten :)
  have hthread := fun c t => State.thread?_of_crews hcrews c t
  have hcrew : ∀ c, v.crew? c = s.crew? c := fun c => by rw [State.crew?, State.crew?, hcrews]
  rw [State.returnFar_eq ((hcrew _).trans hcr) hrun hth hwait hrestart old] at hexec
  refine ⟨_, hexec, ?_, ?_, fun c t hne => ?_, fun c => ?_, hvmem⟩
  · change Table.get? (Table.drop v.fars id) id = none
    rw [Table.get?_drop, if_pos rfl]
  · rw [State.thread?_modThread_self, State.thread?_of_crew { v with fars := Table.drop v.fars id } _ _ _
      ((hcrew _).trans hcr), hth, Option.map_some, State.closed_congr hcontexts rfl rfl]
  · rw [State.thread?_modThread, if_neg hne]
    exact hthread c t
  · rw [State.modThread, State.crew?_modCrew]
    have hc : State.crew? { v with fars := Table.drop v.fars id } c = s.crew? c := hcrew c
    rw [hc]
    split
    · rw [Option.map_map]
      rfl
    · rfl

end Sys2Proof.Machine

namespace Sys2Proof

open Machine

/-- Settles O30, by the request of the waiting thread (`sendFar_farParked`, `sendFar_traps`) and by the home's one access
(`farAtomicResponse_spec`): translations that stay in a TLB change nothing that the operation reads or writes. -/
theorem farAtomics : Obligations.FarAtomics := by
  unfold Obligations.FarAtomics
  refine ⟨fun s d o pr la sz sc i op hi tid cr th w n addr h hw hn haddr hclear => ⟨fun hform => ?_, fun hmain halign => ?_,
    fun hmain halign hfifo hfault r hr => ⟨fun hops => ?_, fun hby hadd hexch hcas hrow => ?_⟩⟩,
    fun s id n r cr th hr hn hstage hfirst hcr hrun hth hwait =>
      ⟨fun hops hrestart hmain hgood => ?_, fun hops hrow => ?_⟩⟩
  · rw [exec_atomFar hi, h.farForm_form hw hn haddr hclear hform]
  · rw [exec_atomFar hi, h.farForm_align hw hn haddr hclear hmain halign]
  · rw [← s.farRequest_eq cr tid th hw] at hr
    have hwidth : r.width = 4 * w := FarReq.width_eq hw (by rw [hr, State.farRequest])
    have hno : (s.byAtomicOp r && !r.op.hasAtomicOp) = false := by
      rcases hops with hops | hops
      · rw [hops, Bool.false_and]
      · rw [(AtomOp.hasAtomicOp_iff r.op).2 (by rw [hr]; exact hops), Bool.not_true, Bool.and_false]
    obtain ⟨hbare, hcrews, hothers, hparked⟩ := h.farParked_spec { r with stage := .unsent }
    obtain ⟨hfars, hrest, hsent, hnext, htcrews⟩ := State.sendFar_farParked (s := s) (tid := tid) (r := r) rfl
      (by rw [hr, State.farRequest]) (by rw [hr, State.farRequest])
      (by rw [hwidth, hr]; exact hfault) (by rw [hwidth, hr]; exact halign) hno rfl
    refine ⟨_, (exec_atomFar hi s).trans (congrArg Host.Outcome.next
      (h.farForm_sends hw hn haddr hclear hmain halign hfifo (by rw [hr]))), hfars, hrest, ?_, hnext, ?_, fun c hc => ?_,
      fun v hv => ?_, ?_⟩
    · rw [hsent, hwidth, hr]
      rfl
    · rw [State.crew?, htcrews]
      exact hbare
    · rw [State.crew?, htcrews]
      exact hcrews c hc
    · exact (State.thread?_of_crews htcrews _ _).trans (hothers v hv)
    · rw [State.thread?_of_crews htcrews]
      exact hparked
  · rw [← s.farRequest_eq cr tid th hw] at hr
    have hwidth : r.width = 4 * w := FarReq.width_eq hw (by rw [hr, State.farRequest])
    have hno : (s.byAtomicOp r && !r.op.hasAtomicOp) = true := by
      have hop : r.op.hasAtomicOp = false := by
        rw [← Bool.not_eq_true, AtomOp.hasAtomicOp_iff, hr]
        rintro (hop | hop | hop)
        exacts [hadd hop, hexch hop, hcas hop]
      rw [hby, hop]
      rfl
    obtain ⟨hbare, hcrews, hothers, th', hth', hparked⟩ := h.farParked_spec { r with stage := .unsent }
    obtain ⟨u, hsend, hfars, hrest, hucrews⟩ := h.sendFar_traps (r := r) rfl (by rw [hr, State.farRequest])
      (by rw [hr, State.farRequest]) (by rw [hwidth, hr]; exact hfault) hno (by rw [hr]; exact hrow)
    refine ⟨u, th', (exec_atomFar hi s).trans (congrArg Host.Outcome.next
      ((h.farForm_sends hw hn haddr hclear hmain halign hfifo (by rw [hr])).trans (hsend.trans (by rw [hr, State.farRequest])))),
      hfars, hrest, ?_, fun c hc => ?_, fun v hv => ?_, ?_, hparked⟩
    · rw [State.crew?, hucrews]
      exact hbare
    · rw [State.crew?, hucrews]
      exact hcrews c hc
    · exact (State.thread?_of_crews hucrews _ _).trans (hothers v hv)
    · exact (State.thread?_of_crews hucrews _ _).trans hth'
  · obtain rfl : r.width = n := hn.symm
    obtain ⟨t, hexec, hgone, hthread, hothers, hbare, hmem⟩ := farAtomicResponse_spec hr hstage hfirst hcr hrun hth hwait hops
      hrestart hmain hgood rfl
    refine ⟨t, hexec, hgone, ?_⟩
    rintro old u rfl hu
    obtain rfl : u = s.farWritten r _ := hu
    exact ⟨hthread.trans (congrArg (fun rs => some (s.closed cr (th.commit th.parkLen (.after r.la) rs))) (r.results_eq _)),
      hothers, hbare, hmem⟩
  · exact execAtomicopUrCompletion_eq hr hstage hfirst hops hrow ((State.thread?_of_crew _ _ _ _ hcr).trans hth) hwait

end Sys2Proof
end

section
/-! SUPPORT. Latches under the engines (R13 to R15): the view of a latch that was written, and what one update by an engine
does to it, to its waiters and to the rest of its crew. -/

namespace Sys2Proof.Machine

open Sys2Proof

variable {s t : State} {cr x y : Crew} {c off a e lo hi : Nat} {l l' : LatchView} {f : LatchView → Option LatchView}

/-! ## The view of a latch (Table 1.4) -/

/-- A latch whose fields fit Table 1.4. -/
structure LatchView.Fits (l : LatchView) : Prop where
  bytes : l.bytes < 2 ^ 48
  arrive : l.arrive ≤ 2048
  init : l.init ≤ 2048
  err : l.err < 2 ^ 16
  wellFormed : l.malformed = false

theorem bitsOf_lt (v hi lo : Nat) : bitsOf v hi lo < 2 ^ (hi + 1 - lo) := Nat.mod_lt _ (Nat.two_pow_pos _)

theorem viewLatch_fits {v : Nat} (h : (viewLatch v).malformed = false) : (viewLatch v).Fits := by
  have hform := h
  simp only [viewLatch, Bool.or_eq_false_iff, decide_eq_false_iff_not] at hform
  exact ⟨bitsOf_lt v 47 0, Nat.not_lt.1 hform.1.2, Nat.not_lt.1 hform.2, bitsOf_lt v 127 112, h⟩

theorem latchNat_lt (h : l.Fits) : latchNat l < 256 ^ 16 := by
  obtain ⟨hbytes, harrive, hinit, herr, -⟩ := h
  unfold latchNat
  split <;> omega

/-- The fields of a number that is a latch. -/
theorem viewLatch_latchNat (h : l.Fits) : viewLatch (latchNat l) = l := by
  obtain ⟨bytes, arrive, init, phase, err, malformed⟩ := l
  obtain ⟨hbytes, harrive, hinit, herr, rfl⟩ := h
  dsimp only at hbytes harrive hinit herr
  obtain ⟨p, hp, hpone, hple⟩ : ∃ p, (if phase then 1 else 0) = p ∧ ((p = 1) = phase) ∧ p ≤ 1 := by
    cases phase <;> simp
  obtain ⟨v, hv⟩ : ∃ v, v = latchNat ⟨bytes, arrive, init, phase, err, false⟩ := ⟨_, rfl⟩
  rw [← hv]
  unfold latchNat at hv
  dsimp only at hv
  rw [hp] at hv
  have hfields : bitsOf v 47 0 = bytes ∧ bitsOf v 75 64 = arrive ∧ bitsOf v 91 80 = init ∧ bitsOf v 96 96 = p ∧
      bitsOf v 127 112 = err := by
    simp only [bitsOf]
    omega
  have hzero : bitsOf v 63 48 = 0 ∧ bitsOf v 79 76 = 0 ∧ bitsOf v 95 92 = 0 ∧ bitsOf v 111 97 = 0 := by
    simp only [bitsOf]
    omega
  obtain ⟨hb, ha, hi, hph, he⟩ := hfields
  obtain ⟨h1, h2, h3, h4⟩ := hzero
  simp [viewLatch, hb, ha, hi, hph, he, h1, h2, h3, h4, hpone, harrive, hinit]

/-- The bits below a field do not rest on it. -/
theorem bitsOf_add_high {n : Nat} (hhi : hi < n) (hlo : lo ≤ hi) (a e : Nat) :
    bitsOf (a + 2 ^ n * e) hi lo = bitsOf a hi lo := by
  obtain ⟨k, rfl⟩ := Nat.exists_eq_add_of_le (Nat.succ_le_of_lt hhi)
  obtain ⟨m, rfl⟩ := Nat.exists_eq_add_of_le hlo
  have hpow : 2 ^ ((lo + m).succ + k) * e = 2 ^ lo * (2 ^ (m + 1) * (2 ^ k * e)) := by
    rw [← Nat.mul_assoc, ← Nat.mul_assoc, ← Nat.pow_add, ← Nat.pow_add]
    congr 2
  unfold bitsOf
  rw [hpow, Nat.add_mul_div_left _ _ (Nat.two_pow_pos lo), show lo + m + 1 - lo = m + 1 by omega, Nat.add_mul_mod_self_left]

/-- ERR is the top 16 bits of a latch. -/
theorem viewLatch_add_err (ha : a < 2 ^ 112) (he : e < 2 ^ 16) :
    viewLatch (a + 2 ^ 112 * e) = { viewLatch a with err := e } := by
  have herr : bitsOf (a + 2 ^ 112 * e) 127 112 = e := by
    simp only [bitsOf]
    omega
  simp only [viewLatch, herr, bitsOf_add_high (n := 112) (e := e) (a := a) (hi := 47) (lo := 0) (by omega) (by omega),
    bitsOf_add_high (n := 112) (e := e) (a := a) (hi := 63) (lo := 48) (by omega) (by omega),
    bitsOf_add_high (n := 112) (e := e) (a := a) (hi := 75) (lo := 64) (by omega) (by omega),
    bitsOf_add_high (n := 112) (e := e) (a := a) (hi := 79) (lo := 76) (by omega) (by omega),
    bitsOf_add_high (n := 112) (e := e) (a := a) (hi := 91) (lo := 80) (by omega) (by omega),
    bitsOf_add_high (n := 112) (e := e) (a := a) (hi := 95) (lo := 92) (by omega) (by omega),
    bitsOf_add_high (n := 112) (e := e) (a := a) (hi := 96) (lo := 96) (by omega) (by omega),
    bitsOf_add_high (n := 112) (e := e) (a := a) (hi := 111) (lo := 97) (by omega) (by omega)]

/-! ## Runs of bytes -/

theorem Mem.readBytes_congr {m m' : Sparse Byte} {n : Nat} (h : ∀ j, a ≤ j → j < a + n → Mem.read m j = Mem.read m' j) :
    Mem.readBytes m a n = Mem.readBytes m' a n := by
  induction n generalizing a with
  | zero => rfl
  | succ n ih =>
    rw [Mem.readBytes, Mem.readBytes, h a (by omega) (by omega), ih fun j hj hlt => h j (by omega) (by omega)]

theorem Mem.readBytes_add (m : Sparse Byte) (a n k : Nat) :
    Mem.readBytes m a (n + k) = Mem.readBytes m a n ++ Mem.readBytes m (a + n) k := by
  induction n generalizing a with
  | zero => rw [Nat.zero_add]; rfl
  | succ n ih =>
    rw [Nat.succ_add, Mem.readBytes, Mem.readBytes, ih, List.cons_append, show a + 1 + n = a + (n + 1) by omega]

theorem leNat_append (bs ds : List Byte) : leNat (bs ++ ds) = leNat bs + 256 ^ bs.length * leNat ds := by
  induction bs with
  | nil => simp [leNat]
  | cons b bs ih =>
    rw [List.cons_append, leNat, leNat, ih, List.length_cons, Nat.pow_succ]
    ring

theorem leNat_lt (bs : List Byte) : leNat bs < 256 ^ bs.length := by
  induction bs with
  | nil => exact Nat.one_pos
  | cons b bs ih =>
    rw [leNat, List.length_cons, Nat.pow_succ]
    have hb := b.isLt
    omega

/-- A byte of a crew's shared memory after a run was written. -/
theorem Crew.read_writeShared (cr : Crew) (a : Nat) (bs : List Byte) (j : Nat) :
    Mem.read (cr.writeShared a bs).shared j =
      if a ≤ j ∧ j < a + bs.length then bs.getD (j - a) 0#8 else Mem.read cr.shared j := by
  unfold Crew.writeShared
  split
  · next hnil => rw [hnil, if_neg (by simp)]
  · exact Mem.read_writeBytes _ _ _ _

theorem Crew.read_writeShared_outside (cr : Crew) {bs : List Byte} {j : Nat} (h : j < a ∨ a + bs.length ≤ j) :
    Mem.read (cr.writeShared a bs).shared j = Mem.read cr.shared j := by
  rw [cr.read_writeShared, if_neg (by omega)]

/-- An overwritten run holds no error that was not there. -/
theorem poisonHit_poisonAfter {poison : List Nat} {unit b n : Nat} (h : poisonHit poison unit b n = false) (a k : Nat) :
    poisonHit (poisonAfter poison a k) unit b n = false := by
  unfold poisonHit poisonAfter at *
  rw [List.any_eq_false] at *
  exact fun p hp => h p (List.mem_of_mem_filter hp)

theorem Crew.latchPoisoned_writeShared (h : cr.latchPoisoned off = false) (a : Nat) (bs : List Byte) :
    (cr.writeShared a bs).latchPoisoned off = false := by
  unfold Crew.writeShared
  split
  · exact h
  · exact poisonHit_poisonAfter h a _

/-! ## One latch of a crew -/

theorem Crew.latch_congr (h : ∀ j, off ≤ j → j < off + 16 → Mem.read x.shared j = Mem.read y.shared j) :
    x.latch off = y.latch off := by
  unfold Crew.latch Mem.readNat
  rw [Mem.readBytes_congr h]

theorem Crew.latch_writeShared_outside (cr : Crew) {bs : List Byte} (h : off + 16 ≤ a ∨ a + bs.length ≤ off) :
    (cr.writeShared a bs).latch off = cr.latch off :=
  Crew.latch_congr fun j hj hlt => cr.read_writeShared_outside (by omega)

/-- A crew with a latch written whole. -/
def Crew.withLatch (cr : Crew) (off : Nat) (l : LatchView) : Crew := cr.writeShared off (leBytes (latchNat l) 16)

theorem Crew.latch_withLatch (cr : Crew) (off : Nat) (h : l.Fits) : (cr.withLatch off l).latch off = l := by
  unfold Crew.withLatch Crew.writeShared
  rw [if_neg (fun hnil => by simpa using congrArg List.length hnil)]
  have hread := Mem.readNat_writeNat_same cr.shared off 16 (latchNat l)
  rw [Nat.mod_eq_of_lt (latchNat_lt h)] at hread
  exact (congrArg viewLatch hread).trans (viewLatch_latchNat h)

theorem Crew.read_withLatch_outside (cr : Crew) (l : LatchView) {j : Nat} (h : j < off ∨ off + 16 ≤ j) :
    Mem.read (cr.withLatch off l).shared j = Mem.read cr.shared j :=
  cr.read_writeShared_outside (by rw [leBytes_length]; exact h)

/-- A latch whose ERR takes a code if it is 0 (R15). -/
def LatchView.withErr (l : LatchView) (code : Code) : LatchView := { l with err := if l.err = 0 then code.toNat else l.err }

theorem Crew.latch_eq_split (cr : Crew) (off : Nat) :
    cr.latch off = { viewLatch (Mem.readNat cr.shared off 14) with err := Mem.readNat cr.shared (off + 14) 2 } := by
  have hlow := leNat_lt (Mem.readBytes cr.shared off 14)
  have hhigh := leNat_lt (Mem.readBytes cr.shared (off + 14) 2)
  rw [Mem.readBytes_length] at hlow hhigh
  unfold Crew.latch Mem.readNat
  rw [Mem.readBytes_add _ _ 14 2, leNat_append, Mem.readBytes_length]
  exact viewLatch_add_err hlow hhigh

/-- Only ERR changes, and only when it is 0 (R15). -/
theorem Crew.latch_latchErr (cr : Crew) (off : Nat) (code : Code) :
    (cr.latchErr off code).latch off = (cr.latch off).withErr code := by
  unfold Crew.latchErr LatchView.withErr
  split
  · have hlow : Mem.readNat (cr.writeShared (off + 14) (leBytes code.toNat 2)).shared off 14 = Mem.readNat cr.shared off 14 :=
      congrArg leNat (Mem.readBytes_congr fun j hj hlt => cr.read_writeShared_outside (by omega))
    have hhigh : Mem.readNat (cr.writeShared (off + 14) (leBytes code.toNat 2)).shared (off + 14) 2 = code.toNat := by
      unfold Crew.writeShared
      rw [if_neg (fun hnil => by simpa using congrArg List.length hnil)]
      exact (Mem.readNat_writeNat_same cr.shared (off + 14) 2 code.toNat).trans (Nat.mod_eq_of_lt code.isLt)
    rw [Crew.latch_eq_split, hlow, hhigh, cr.latch_eq_split]
  · rfl

theorem Crew.read_latchErr_outside (cr : Crew) {j : Nat} (code : Code) (h : j < off ∨ off + 16 ≤ j) :
    Mem.read (cr.latchErr off code).shared j = Mem.read cr.shared j := by
  unfold Crew.latchErr
  split
  · exact cr.read_writeShared_outside (by rw [leBytes_length]; omega)
  · rfl

/-! ## One update by an engine (R14, R15) -/

/-- A crew without its threads and its shared memory. -/
def Crew.offShared (cr : Crew) : Crew := { cr with threads := [], shared := [], shPoison := [], reserve := none }

@[simp] theorem Crew.offShared_writeShared (cr : Crew) (a : Nat) (bs : List Byte) :
    (cr.writeShared a bs).offShared = cr.offShared := by
  unfold Crew.writeShared
  split <;> rfl

@[simp] theorem Crew.offShared_latchErr (cr : Crew) (off : Nat) (code : Code) :
    (cr.latchErr off code).offShared = cr.offShared := by
  unfold Crew.latchErr
  split
  · exact cr.offShared_writeShared _ _
  · rfl

theorem Crew.threads_writeShared (cr : Crew) (a : Nat) (bs : List Byte) : (cr.writeShared a bs).threads = cr.threads := by
  unfold Crew.writeShared
  split <;> rfl

/-- The part of a crew that is determined by a larger part is kept with it. -/
theorem State.Leaves.mono {α β : Type} {K : Crew → α} {L : Crew → β} (h : State.Leaves K s t)
    (hL : ∀ x y, K x = K y → L x = L y) : State.Leaves L s t := by
  refine ⟨h.1, fun c => ?_⟩
  have hK := h.2 c
  cases hs : s.crew? c with
  | none => rw [hs, Option.map_none, Option.map_eq_none_iff] at hK; rw [hK]
  | some x =>
    obtain ⟨y, hy, hyx⟩ := h.crew hs
    rw [hy, Option.map_some, Option.map_some, hL y x hyx]

/-- Waiters without an error are let go; the rest of their crew stays. -/
theorem State.releaseLatch_leaves (hcr : s.crew? c = some cr) {phase : Bool}
    (h : (cr.latch off).err = 0 ∨ cr.latchWaiters off phase = []) : State.Leaves Crew.bare s (s.releaseLatch c off phase) := by
  unfold State.releaseLatch
  rw [hcr]
  dsimp only
  rcases h with h | h
  · simp only [h, if_true]
    exact (State.Leaves.refl _ s).foldl _ fun t b _ _ => State.Leaves.modCrew t c fun _ => rfl
  · rw [h]
    exact .refl _ s

theorem Crew.latchWaiters_writeShared (cr : Crew) (a : Nat) (bs : List Byte) (off : Nat) (phase : Bool) :
    (cr.writeShared a bs).latchWaiters off phase = cr.latchWaiters off phase := by
  unfold Crew.latchWaiters
  rw [cr.threads_writeShared]

/-- A latch whose phase has completed (R14). -/
def LatchView.turned (l : LatchView) : LatchView := { l with phase := !l.phase, arrive := l.init }

/-- A latch whose counts are as given: the phase completes when both are 0 (R14). -/
def LatchView.settled (l : LatchView) : LatchView := if l.bytes = 0 ∧ l.arrive = 0 then l.turned else l

theorem LatchView.Fits.turned (h : l.Fits) : l.turned.Fits := { h with arrive := h.init }

/-- A latch that is written whole changes its crew's shared memory alone. -/
theorem State.modCrew_withLatch (hcr : s.crew? c = some cr) (off : Nat) (l : LatchView) :
    (s.modCrew c fun x => x.withLatch off l).crew? c = some (cr.withLatch off l) ∧
      State.Leaves Crew.offShared s (s.modCrew c fun x => x.withLatch off l) :=
  ⟨by rw [State.crew?_modCrew, if_pos rfl, hcr, Option.map_some],
    State.Leaves.modCrew s c fun x => x.offShared_writeShared _ _⟩

/-- A phase that completes: the latch is written, and its waiters without an error go on. -/
theorem State.turnLatch_spec (hcr : s.crew? c = some cr) (h : l.Fits) (hwait : l.err = 0 ∨ cr.latchWaiters off l.phase = []) :
    ∃ t y, t = (s.modCrew c fun x => x.withLatch off l.turned).releaseLatch c off l.phase ∧ t.crew? c = some y ∧
      State.Leaves Crew.offShared s t ∧ y.latch off = l.turned ∧
      ∀ j, (j < off ∨ off + 16 ≤ j) → Mem.read y.shared j = Mem.read cr.shared j := by
  obtain ⟨hcrew, hleaves⟩ := State.modCrew_withLatch hcr off l.turned
  have hlatch := cr.latch_withLatch off h.turned
  have hrel := State.releaseLatch_leaves (off := off) (phase := l.phase) hcrew (by
    rw [hlatch, Crew.withLatch, Crew.latchWaiters_writeShared]
    exact hwait)
  obtain ⟨y, hy, hybare⟩ := hrel.crew hcrew
  have hshared : y.shared = (cr.withLatch off l.turned).shared := (congrArg Crew.shared hybare :)
  refine ⟨_, y, rfl, hy, hleaves.trans (hrel.mono fun u v huv => (congrArg Crew.offShared huv :)), ?_, fun j hj => ?_⟩
  · rw [← hlatch]
    exact Crew.latch_congr fun j _ _ => by rw [hshared]
  · rw [hshared]
    exact cr.read_withLatch_outside l.turned hj

/-- A latch that is put: its counts, and its waiters when the phase completes. -/
theorem State.putLatch_spec (hcr : s.crew? c = some cr) (h : l.Fits) (hwait : l.err = 0 ∨ cr.latchWaiters off l.phase = []) :
    ∃ y, (s.putLatch c off l).crew? c = some y ∧ State.Leaves Crew.offShared s (s.putLatch c off l) ∧
      y.latch off = l.settled ∧ ∀ j, (j < off ∨ off + 16 ≤ j) → Mem.read y.shared j = Mem.read cr.shared j := by
  unfold State.putLatch LatchView.settled
  by_cases hzero : l.bytes = 0 ∧ l.arrive = 0
  · rw [if_pos hzero, if_pos hzero]
    obtain ⟨t, y, rfl, hspec⟩ := State.turnLatch_spec hcr h hwait
    exact ⟨y, hspec⟩
  · rw [if_neg hzero, if_neg hzero]
    obtain ⟨hcrew, hleaves⟩ := State.modCrew_withLatch hcr off l
    exact ⟨_, hcrew, hleaves, cr.latch_withLatch off h, fun j hj => cr.read_withLatch_outside l hj⟩

/-- What an update makes of a latch: LATCH_FORM in a malformed one, LATCH_OVER where the counts are too small. -/
def LatchView.updated (f : LatchView → Option LatchView) (l : LatchView) : LatchView :=
  if l.malformed then l.withErr Code.latchForm
  else match f l with
    | some l' => l'.settled
    | none => l.withErr Code.latchOver

/-- An engine's update of a latch without an error in its bytes. -/
theorem State.engineLatch_spec (hcr : s.crew? c = some cr) (hgood : cr.latchPoisoned off = false)
    (hf : (cr.latch off).Fits → ∀ l', f (cr.latch off) = some l' →
      l'.Fits ∧ (l'.err = 0 ∨ cr.latchWaiters off l'.phase = [])) :
    ∃ y, (s.engineLatch c off f).crew? c = some y ∧ State.Leaves Crew.offShared s (s.engineLatch c off f) ∧
      y.latch off = (cr.latch off).updated f ∧
      ∀ j, (j < off ∨ off + 16 ≤ j) → Mem.read y.shared j = Mem.read cr.shared j := by
  have herr : ∀ code : Code, ∃ y, (s.modCrew c fun x => x.latchErr off code).crew? c = some y ∧
      State.Leaves Crew.offShared s (s.modCrew c fun x => x.latchErr off code) ∧
      y.latch off = (cr.latch off).withErr code ∧
      ∀ j, (j < off ∨ off + 16 ≤ j) → Mem.read y.shared j = Mem.read cr.shared j := fun code =>
    ⟨cr.latchErr off code, by rw [State.crew?_modCrew, if_pos rfl, hcr, Option.map_some],
      State.Leaves.modCrew s c fun x => x.offShared_latchErr off code, cr.latch_latchErr off code,
      fun j hj => cr.read_latchErr_outside code hj⟩
  unfold State.engineLatch LatchView.updated
  rw [hcr]
  dsimp only
  rw [hgood, if_neg Bool.false_ne_true]
  cases hform : (cr.latch off).malformed with
  | true => exact herr _
  | false =>
    rw [if_neg Bool.false_ne_true, if_neg Bool.false_ne_true]
    cases hl : f (cr.latch off) with
    | none => exact herr _
    | some l' =>
      obtain ⟨hfits, hwait⟩ := hf (viewLatch_fits hform) l' hl
      exact State.putLatch_spec hcr hfits hwait

end Sys2Proof.Machine
end

section
/-! SUPPORT. Elements of copies (R198, R200, R201, R205): timelines, one element of a bulk copy within its crew's shared
memory, and one element of a per-thread copy. -/

namespace Sys2Proof.Machine

open Sys2Proof

variable {s t : State} {cr : Crew} {th : Thread} {c : Copy} {e : TElem} {id i o : Nat} {bs : List Byte}

/-! ## Timelines (R11) -/

/-- The counter rises over the run of numbers that have completed. -/
theorem Timeline.advance_counter (k : Nat) (tl : Timeline) : (Timeline.advance k tl).counter =
    tl.counter + ((List.range k).takeWhile fun j => decide (tl.counter + 1 + j ∈ tl.done)).length := by
  induction k generalizing tl with
  | zero => rfl
  | succ k ih =>
    rw [Timeline.advance, List.range_succ_eq_map]
    by_cases hnext : tl.counter + 1 ∈ tl.done
    · have hrest : ((fun j => decide (tl.counter + 1 + j ∈ tl.done)) ∘ Nat.succ) =
          fun j => decide (tl.counter + 1 + 1 + j ∈ tl.done.filter (· ≠ tl.counter + 1)) := funext fun j => by
        have hne : tl.counter + 1 + 1 + j ≠ tl.counter + 1 := by omega
        simp [List.mem_filter, Nat.succ_eq_add_one, show tl.counter + 1 + (j + 1) = tl.counter + 1 + 1 + j by omega, hne]
      rw [if_pos (by simpa using hnext), ih, List.takeWhile_cons_of_pos (by simpa using hnext), List.takeWhile_map, hrest,
        List.length_cons, List.length_map]
      dsimp only
      omega
    · rw [if_neg (by simpa using hnext), List.takeWhile_cons_of_neg (by simpa using hnext)]
      rfl

/-- Among the numbers above a counter, a run that has completed is no longer than the list of those that have. -/
theorem takeWhile_range_succ {p : Nat → Bool} {ids : List Nat} (b : Nat) (h : ∀ j, p j = true → b + j ∈ ids) :
    (List.range (ids.length + 1)).takeWhile p = (List.range ids.length).takeWhile p := by
  rw [List.range_succ, List.takeWhile_append]
  split
  · next hall =>
    have htaken : ∀ j < ids.length, p j = true := fun j hj => by
      have hmem : j ∈ (List.range ids.length).takeWhile p := by
        rw [(List.takeWhile_prefix p).eq_of_length hall]
        exact List.mem_range.2 hj
      exact List.mem_takeWhile_imp hmem
    have hlast : p ids.length = false := by
      by_contra hlast
      have hsub : (List.range (ids.length + 1)).map (b + ·) ⊆ ids := fun v hv => by
        obtain ⟨j, hj, rfl⟩ := List.mem_map.1 hv
        rcases Nat.lt_succ_iff_lt_or_eq.1 (List.mem_range.1 hj) with hlt | rfl
        · exact h j (htaken j hlt)
        · exact h _ (by simpa using hlast)
      have hnodup : ((List.range (ids.length + 1)).map (b + ·)).Nodup :=
        List.nodup_range.map fun u v huv => Nat.add_left_cancel huv
      have hle := (List.subperm_of_subset hnodup hsub).length_le
      rw [List.length_map, List.length_range] at hle
      omega
    rw [List.takeWhile_cons_of_neg (by simp [hlast]), List.append_nil, (List.takeWhile_prefix p).eq_of_length hall]
  · rfl

/-- A completion lets the counter rise until the next number that has not completed (R11). -/
theorem Timeline.finish_counter (tl : Timeline) (n : Nat) : (Timeline.finish tl n).counter =
    tl.counter + ((List.range (tl.done.length + 2)).takeWhile fun j =>
      decide (tl.counter + 1 + j = n ∨ tl.counter + 1 + j ∈ tl.done)).length := by
  rw [Timeline.finish, Timeline.advance_counter]
  simp only [mem_insertId]
  have hrun := takeWhile_range_succ (p := fun j => decide (tl.counter + 1 + j = n ∨ tl.counter + 1 + j ∈ tl.done))
    (ids := n :: tl.done) (tl.counter + 1) fun j hj => by simpa using hj
  rw [List.length_cons] at hrun
  rw [hrun]

/-! ## One element of a bulk copy (R205) -/

/-- What a copy reads for an element. -/
def Copy.elementBytes (c : Copy) (cr : Crew) (b : Nat) : List Byte :=
  if c.fill then List.replicate c.shape.esize 0#8 else Mem.readBytes cr.shared b c.shape.esize

theorem Copy.elementBytes_length (c : Copy) (cr : Crew) (b : Nat) : (c.elementBytes cr b).length = c.shape.esize := by
  unfold Copy.elementBytes
  split
  · exact List.length_replicate
  · exact Mem.readBytes_length _ _ _

theorem Copy.elementBytes_getD (c : Copy) (cr : Crew) (b : Nat) {j : Nat} (hj : j < c.shape.esize) :
    (c.elementBytes cr b).getD j 0#8 = if c.fill then 0#8 else Mem.read cr.shared (b + j) := by
  unfold Copy.elementBytes
  split
  · simp [List.getD_eq_getElem?_getD, hj]
  · exact Mem.readBytes_getD _ _ _ _ hj

/-- An element whose source stands in shared memory, or that fills, goes to its destination. -/
theorem State.stepCopy_stores {a b : Nat} (hc : Table.get? s.copies id = some c) (hcr : s.crew? c.crew = some cr)
    (hdrain : s.drainOver c.crew = false) (hi : i < c.shape.count) (hnew : i ∉ c.written)
    (hstall : ∀ e ∈ s.copies, e.2.stalled = none) (hdests : c.dests = [c.crew])
    (hb : b = ((a : Int) + c.shape.srcOff i).toNat)
    (hsrc : c.fill = true ∨ (addrForm c.src = .sh a ∧ s.enginePoison cr .sh b c.shape.esize = false)) :
    s.stepCopy id i = s.storeElement id c i (c.elementBytes cr b) := by
  have hstalled : s.contextStalled c.crew = false := by
    unfold State.contextStalled
    rw [List.any_eq_false]
    intro e he
    simp [hstall e he]
  unfold State.stepCopy Copy.elementBytes
  rw [hc]
  dsimp only
  rw [if_neg (by simp [hi, hnew, hstalled, hdests, hdrain])]
  rcases hfill : c.fill with _ | _
  · obtain ⟨hform, hgood⟩ := hsrc.resolve_left (by simp [hfill])
    rw [if_neg Bool.false_ne_true, if_neg Bool.false_ne_true, hform, hcr]
    dsimp only [AddrForm.local?]
    rw [← hb, hgood]
    rfl
  · rw [if_pos rfl, if_pos rfl]

/-- The element as it stands at its destination, before its latch counts it. -/
def State.elementLanded (s : State) (id : Nat) (c : Copy) (i x : Nat) (bs : List Byte) : State :=
  { s.modCrew c.crew fun y => y.writeShared x bs with
    copies := Table.adjust s.copies id fun y => { y with written := insertId i y.written } }

/-- An element's bytes off the latch of its copy. -/
def State.elementCounted (s : State) (c : Copy) : State :=
  match c.latch with
  | some l => s.arriveBytes c.crew l c.shape.esize
  | none => s

theorem State.elementCounted_none (h : c.latch = none) : s.elementCounted c = s := by
  unfold State.elementCounted
  rw [h]

theorem State.elementCounted_some {l : Nat} (h : c.latch = some l) :
    s.elementCounted c = s.arriveBytes c.crew l c.shape.esize := by
  unfold State.elementCounted
  rw [h]

/-- The element is written, then counted, and the last one completes the operation. -/
theorem State.storeElement_sh (hc : Table.get? s.copies id = some c) (hdst : addrForm c.dst = .sh o)
    (hdests : c.dests = [c.crew]) (bs : List Byte) {x : Nat} (hx : x = ((o : Int) + c.shape.dstOff i).toNat) :
    s.storeElement id c i bs =
      if (insertId i c.written).length = c.shape.count then
        (((s.elementLanded id c i x bs).elementCounted c).endCopyOp c.crew c.op false).dropCopy id c
      else (s.elementLanded id c i x bs).elementCounted c := by
  have hwrite : s.writeElement id c i bs = s.modCrew c.crew fun y => y.writeShared x bs := by
    unfold State.writeElement
    rw [hdst, hdests, hx]
    dsimp only
    rw [List.foldl_cons, List.foldl_nil, if_pos rfl]
  have hline : c.lineOf i = none := by
    unfold Copy.lineOf
    rw [hdst]
  unfold State.storeElement
  rw [hdst]
  dsimp only
  rw [hwrite, show Table.get? (s.modCrew c.crew fun y => y.writeShared x bs).copies id = some c from hc]
  dsimp only
  unfold State.landElement State.elementCounted
  rw [hline, hdests]
  cases c.latch <;> rfl

/-- A latch's counts after bytes have arrived; none where BYTES is too small (R14, R15). -/
def LatchView.arrival (n : Nat) (v : LatchView) : Option LatchView :=
  if v.bytes < n then none else some { v with bytes := v.bytes - n }

/-- The counted latch, the written bytes, and all else of the crew. -/
theorem State.elementCounted_spec (hcr : s.crew? c.crew = some cr) {x : Nat} (hlen : bs.length = c.shape.esize)
    (hlatch : ∀ l, c.latch = some l → (l + 16 ≤ x ∨ x + c.shape.esize ≤ l) ∧ cr.latchPoisoned l = false ∧
      ((cr.latch l).err = 0 ∨ cr.latchWaiters l (cr.latch l).phase = [])) :
    ∃ y, ((s.elementLanded id c i x bs).elementCounted c).crew? c.crew = some y ∧ y.offShared = cr.offShared ∧
      ((s.elementLanded id c i x bs).elementCounted c).copies = (s.elementLanded id c i x bs).copies ∧
      (∀ l, c.latch = some l → y.latch l = (cr.latch l).updated (LatchView.arrival c.shape.esize)) ∧
      ∀ j, (∀ l, c.latch = some l → j < l ∨ l + 16 ≤ j) →
        Mem.read y.shared j = Mem.read (cr.writeShared x bs).shared j := by
  have hlanded : (s.elementLanded id c i x bs).crew? c.crew = some (cr.writeShared x bs) :=
    (State.crew?_modCrew s c.crew c.crew fun y => y.writeShared x bs).trans (by rw [if_pos rfl, hcr, Option.map_some])
  cases hl : c.latch with
  | none =>
    rw [State.elementCounted_none hl]
    exact ⟨_, hlanded, cr.offShared_writeShared _ _, rfl, fun l h => (Option.some_ne_none l h.symm).elim, fun j _ => rfl⟩
  | some l =>
    obtain ⟨hapart, hgood, hwait⟩ := hlatch l hl
    have hsame : (cr.writeShared x bs).latch l = cr.latch l := cr.latch_writeShared_outside (by rw [hlen]; exact hapart)
    obtain ⟨y, hy, hleaves, hylatch, hout⟩ := State.engineLatch_spec (f := LatchView.arrival c.shape.esize)
      hlanded (Crew.latchPoisoned_writeShared hgood x bs) fun hfits l' hl' => by
        rw [hsame] at hfits hl'
        unfold LatchView.arrival at hl'
        split at hl'
        · cases hl'
        · obtain rfl := Option.some.inj hl'
          exact ⟨{ hfits with bytes := Nat.lt_of_le_of_lt (Nat.sub_le _ _) hfits.bytes },
            hwait.imp_right (cr.latchWaiters_writeShared _ _ _ _).trans⟩
    obtain ⟨z, hz, hzoff⟩ := hleaves.crew hlanded
    obtain rfl : z = y := Option.some.inj (hz.symm.trans hy)
    rw [State.elementCounted_some hl]
    refine ⟨z, hy, hzoff.trans (cr.offShared_writeShared _ _), (congrArg State.copies hleaves.1 :), fun l' hl' => ?_,
      fun j hj => hout j (hj l rfl)⟩
    obtain rfl := Option.some.inj hl'
    rw [hylatch, hsame]

/-- A copy that leaves the engine releases no running crew. -/
theorem State.dropCopy_of_running (hdests : c.dests = [c.crew]) (hcr : s.crew? c.crew = some cr) (hrun : cr.killed = false)
    (id : Nat) : s.dropCopy id c = { s with copies := Table.drop s.copies id } := by
  have hreap : State.reap { s with copies := Table.drop s.copies id } c.crew = { s with copies := Table.drop s.copies id } :=
    State.reap_of_running (cr := cr) hcr hrun
  unfold State.dropCopy
  rw [hdests, List.foldl_cons, List.foldl_cons, List.foldl_nil, hreap, hreap]

/-- The copy, its timeline and its crew's memory once an element has been counted. -/
theorem State.storeElement_ends {u : State} {y : Crew} {x : Nat} (hc : Table.get? s.copies id = some c)
    (hdst : addrForm c.dst = .sh o) (hdests : c.dests = [c.crew]) (hx : x = ((o : Int) + c.shape.dstOff i).toNat)
    (hu : u = (s.elementLanded id c i x bs).elementCounted c) (hcopies : u.copies = (s.elementLanded id c i x bs).copies)
    (hy : u.crew? c.crew = some y) (hrun : y.killed = false) :
    ∃ t z, s.storeElement id c i bs = t ∧ t.crew? c.crew = some z ∧ z.shared = y.shared ∧
      if (insertId i c.written).length = c.shape.count then
        Table.get? t.copies id = none ∧ z.copyTl = y.copyTl.finish c.op ∧ z.copyFailed = y.copyFailed
      else Table.get? t.copies id = some { c with written := insertId i c.written } ∧ z.copyTl = y.copyTl := by
  rw [State.storeElement_sh hc hdst hdests bs hx, ← hu]
  by_cases hlast : (insertId i c.written).length = c.shape.count
  · have hended : (u.endCopyOp c.crew c.op false).crew? c.crew = some { y with copyTl := y.copyTl.finish c.op } := by
      rw [State.endCopyOp, State.crew?_modCrew, if_pos rfl, hy]
      rfl
    rw [if_pos hlast, State.dropCopy_of_running hdests hended hrun]
    refine ⟨_, _, rfl, hended, rfl, ?_⟩
    rw [if_pos hlast]
    exact ⟨(Table.get?_drop _ _ _).trans (if_pos rfl), rfl, rfl⟩
  · rw [if_neg hlast]
    refine ⟨u, y, rfl, hy, rfl, ?_⟩
    rw [if_neg hlast]
    refine ⟨?_, rfl⟩
    rw [hcopies, State.elementLanded, Table.get?_adjust, if_pos rfl]
    exact congrArg (Option.map _) hc

/-- What an arrival of bytes makes of a latch (R14, R15). -/
theorem LatchView.updated_arrival (v : LatchView) (n : Nat) :
    v.updated (LatchView.arrival n) =
      if v.malformed then { v with err := if v.err = 0 then 0x010D else v.err }
      else if v.bytes < n then { v with err := if v.err = 0 then 0x0106 else v.err }
      else if v.bytes = n ∧ v.arrive = 0 then { v with bytes := 0, arrive := v.init, phase := !v.phase }
      else { v with bytes := v.bytes - n } := by
  unfold LatchView.updated LatchView.arrival
  by_cases hform : v.malformed = true
  · rw [if_pos hform, if_pos hform]
    rfl
  · rw [if_neg hform, if_neg hform]
    by_cases hover : v.bytes < n
    · rw [if_pos hover, if_pos hover]
      rfl
    · have hzero : v.bytes - n = 0 ↔ v.bytes = n := by omega
      rw [if_neg hover, if_neg hover]
      simp only [LatchView.settled, LatchView.turned, hzero]
      split
      · next h => simp [h.1]
      · rfl

/-! ## One element of a per-thread copy (R198, R200, R201) -/

/-- A thread one of whose elements has ended. -/
def Thread.tagEnded (th : Thread) (e : TElem) (failed : Option (Code × Nat)) : Thread :=
  { th with
    tagCount := Sparse.set 0 th.tagCount e.tag (th.tag e.tag - 1)
    tagErr := match failed with
      | some f => if (Table.get? th.tagErr e.tag).isSome then th.tagErr
        else Table.put th.tagErr e.tag { code := f.1, addr := f.2 }
      | none => th.tagErr }

/-- A thread of a crew after a change of that thread. -/
theorem Crew.thread_modThread {tid : Nat} (hth : Table.get? cr.threads tid = some th) (f : Thread → Thread) :
    Table.get? (cr.modThread tid f).threads tid = some (f th) := by
  rw [Crew.modThread_threads, Table.get?_adjust, if_pos rfl, hth, Option.map_some]

/-- Bytes with zeros behind them. -/
theorem getD_append_zeros (bs : List Byte) (k j : Nat) : (bs ++ List.replicate k 0#8).getD j 0#8 = bs.getD j 0#8 := by
  by_cases hj : j < bs.length
  · rw [List.getD_append _ _ _ _ hj]
  · rw [List.getD_append_right _ _ _ _ (Nat.not_lt.1 hj), List.getD_eq_default bs _ (Nat.not_lt.1 hj)]
    exact List.getElem?_getD_replicate_default_eq 0#8 k _

/-- An element with a shared destination ends: its thread's tag alone. -/
theorem State.endElem_sh (hdst : addrForm e.dst = .sh o) (hcr : s.crew? e.crew = some cr) (hrun : cr.killed = false)
    (id : Nat) (failed : Option (Code × Nat)) : s.endElem id e failed =
      { s with elems := Table.drop s.elems id }.modThread e.crew e.tid fun th => th.tagEnded e failed := by
  unfold State.endElem
  rw [hdst]
  refine State.reap_of_running (cr := cr.modThread e.tid fun th => th.tagEnded e failed) ?_ hrun
  exact (State.crew?_modCrew _ e.crew e.crew _).trans
    (by rw [if_pos rfl, show State.crew? { s with elems := Table.drop s.elems id } e.crew = some cr from hcr]; rfl)

/-- An element may perform: it has its translations, and nothing stands before it. -/
theorem State.stepElem_ready (he : Table.get? s.elems id = some e) (hxlate : e.xlate = none)
    (hfirst : s.elemBehind id e = false) (hdrain : s.drainOver e.crew = false) :
    (∀ f, e.failed = some f → s.stepElem id = s.endElem id e (some f)) ∧
      ∀ bs, e.failed = none → e.data = some bs → s.stepElem id = s.writeElem id e bs := by
  unfold State.stepElem
  rw [he]
  dsimp only
  rw [if_neg (by simp [hxlate, hfirst, hdrain])]
  refine ⟨fun f hf => ?_, fun bs hf hd => ?_⟩
  · rw [hf]
  · rw [hf, hd]

/-- The 32 bytes at a shared destination, and the element's end. -/
theorem State.writeElem_sh (hdst : addrForm e.dst = .sh o) (hcr : s.crew? e.crew = some cr) (hrun : cr.killed = false)
    (id : Nat) (bs : List Byte) : ∃ t : State, s.writeElem id e bs = t ∧ t.elems = Table.drop s.elems id ∧
      t.crew? e.crew = some ((cr.writeShared o (bs ++ List.replicate (32 - bs.length) 0#8)).modThread e.tid fun th =>
        th.tagEnded e none) := by
  obtain ⟨w, hw⟩ : ∃ w, w = bs ++ List.replicate (32 - bs.length) 0#8 := ⟨_, rfl⟩
  have hwritten : (s.modCrew e.crew fun y => y.writeShared o w).crew? e.crew = some (cr.writeShared o w) := by
    rw [State.crew?_modCrew, if_pos rfl, hcr, Option.map_some]
  have hkilled : (cr.writeShared o w).killed = false := ((congrArg Crew.killed (cr.offShared_writeShared o w) :)).trans hrun
  unfold State.writeElem
  dsimp only
  rw [← hw, hdst]
  refine ⟨_, State.endElem_sh hdst hwritten hkilled id none, rfl, ?_⟩
  exact (State.crew?_modCrew _ e.crew e.crew _).trans (by
    rw [if_pos rfl]
    exact congrArg (Option.map _) hwritten)

end Sys2Proof.Machine

namespace Sys2Proof

open Machine

/-- Settles O29: an element of a bulk copy by the rule of its write (`storeElement_sh`) and of its latch
(`elementCounted_spec`), the timeline by the run of completed numbers (`finish_counter`), and a per-thread element by its
write and its end (`writeElem_sh`, `endElem_sh`). -/
theorem copiesPerform : Obligations.CopiesPerform := by
  unfold Obligations.CopiesPerform
  refine ⟨fun s id i c cr o a b x hc hcr hrun hdrain hi hnew hstall hdst hdests hx hb hsrc hlatch => ?_,
    fun tl n _ => tl.finish_counter n,
    fun s id e cr th he hcr hth hrun hxlate hfirst hdrain =>
      ⟨fun bs o hgood hdata hlen hdst => ?_, fun f o hfail hdst => ?_⟩⟩
  · have hlen := c.elementBytes_length cr b
    obtain ⟨y, hy, hoff, hcopies, hcounted, hbytes⟩ := State.elementCounted_spec (s := s) (id := id) (i := i) (x := x) hcr hlen
      fun l hl => (hlatch l hl).2
    obtain ⟨t, z, ht, hz, hshared, hend⟩ := State.storeElement_ends hc hdst hdests hx rfl hcopies hy
      ((congrArg Crew.killed hoff :).trans hrun)
    have hstep : exec (.copyElementWrite id i) s = .next t :=
      congrArg Host.Outcome.next ((State.stepCopy_stores hc hcr hdrain hi hnew hstall hdests hb hsrc).trans ht)
    have hcopyTl : y.copyTl = cr.copyTl := (congrArg Crew.copyTl hoff :)
    have hfailed : y.copyFailed = cr.copyFailed := (congrArg Crew.copyFailed hoff :)
    rw [hcopyTl, hfailed] at hend
    refine ⟨t, z, hstep, hz, fun j hj => ?_, fun j hj hapart => ?_, ?_, hend⟩
    · rw [hshared, hbytes (x + j) fun l hl => by have hapart := (hlatch l hl).2.1; omega, cr.read_writeShared, hlen,
        if_pos (by omega), Nat.add_sub_cancel_left, c.elementBytes_getD cr b hj]
    · rw [hshared, hbytes j hapart, cr.read_writeShared_outside (by rw [hlen]; exact hj)]
    · rintro l v hl rfl
      have hview : z.latch l = y.latch l := Crew.latch_congr fun j _ _ => by rw [hshared]
      exact (hview.trans (hcounted l hl)).trans (LatchView.updated_arrival _ _)
  · obtain ⟨t, ht, helems, hcrew⟩ := State.writeElem_sh hdst hcr hrun id bs
    have hsize : (bs ++ List.replicate (32 - bs.length) 0#8).length = 32 := by simp; omega
    refine ⟨t, _, th.tagEnded e none, congrArg Host.Outcome.next
      (((State.stepElem_ready he hxlate hfirst hdrain).2 bs hgood hdata).trans ht), helems, hcrew,
      Crew.thread_modThread ((congrArg (Table.get? · e.tid) (cr.threads_writeShared o _)).trans hth) _, rfl,
      fun j hj => ?_, fun j hj => ?_⟩
    · refine (cr.read_writeShared o _ (o + j)).trans ?_
      rw [hsize, if_pos (by omega), Nat.add_sub_cancel_left, getD_append_zeros]
    · exact cr.read_writeShared_outside (by rw [hsize]; exact hj)
  · refine ⟨_, cr.modThread e.tid fun th => th.tagEnded e (some f), _, congrArg Host.Outcome.next
      (((State.stepElem_ready he hxlate hfirst hdrain).1 f hfail).trans (State.endElem_sh hdst hcr hrun id _)), rfl, ?_,
      Crew.thread_modThread hth _, rfl, rfl⟩
    exact (State.crew?_modCrew _ e.crew e.crew _).trans (by rw [if_pos rfl]; exact congrArg (Option.map _) hcr)

end Sys2Proof
end

section
/-! SUPPORT. A kick of a thread that no longer stands at the bundle's instruction leaves the machine as it is (R54), and the
statement on kicks, which asks nothing of where the thread stands. -/

namespace Sys2Proof.Machine

open Sys2Proof

variable {s : State} {tid : Nat} {cr : Crew} {th : Thread}

/-- A thread whose record may be read, but that stands elsewhere, kicks nothing. -/
theorem State.Solo.kickForm_elsewhere (h : s.Solo tid cr th) {va : BitVec 7} {la : Nat}
    (hclear : s.Clear (lx [lxSrc32 va] false)) (hwait : th.wait = none)
    (hroom : s.engineRoom cr.die (cr.homeCluster th) = true) (halign : (th.read32 va).toNat % 64 = 0)
    (hin : (th.read32 va).toNat + 64 ≤ cr.sharedSize) (hfifo : th.fifo = []) (hhere : s.stillHere tid = false) :
    s.kickForm va none la = s := by
  have hkept : s.keptRecord = none := by
    unfold State.keptRecord
    rw [h.activeLanes]
    simp [hwait]
  have hbounds : s.inBounds cr .sh ((th.read32 va).toNat : Int) 64 = true := by
    rw [(s.inBounds_windows cr 64 _).2.1]
    exact decide_eq_true (by omega)
  have hdrained : s.drainLanes = s := by
    unfold State.drainLanes
    rw [h.activeLanes, List.foldl_cons, List.foldl_nil, State.drainFifo_of_empty h.thread hfifo]
  unfold State.kickForm
  dsimp only
  rw [State.guarded_of_clear _ _ _ hclear, h.curCrew, hkept]
  dsimp only
  rw [h.activeLanes, if_neg (by simp [hroom]), h.laneTrap _ _ _ (by simp only [decide_eq_false_iff_not]; omega)]
  dsimp only
  rw [h.laneTrap _ _ _ (by simp [hbounds])]
  dsimp only
  rw [hdrained, h.activeLanes, if_pos (by simp [hhere])]

/-- A record that fills one byte at 256 of shared memory, its timeline handle 0. -/
def fillRecord : Nat :=
  0x2000000000000000000000000000000000000000000000000000001000100010001f1000000000001000000000000000000

/-- `State.movedOn` with that record at 0 of shared memory, and the copy context bound to handle 0. -/
def State.movedOnKick : State :=
  State.movedOn.modCrew 0 fun x => { x with bind := [.copy], shared := Mem.writeBytes [] 0 (leBytes fillRecord 64) }

/-- The crew of that state. -/
def State.movedOnKickCrew : Crew :=
  (State.movedOnKick.crew? 0).getD (Crew.start loadedRecord loadedEntry 0 0 0#64 none 0 0 0 [] 0)

theorem State.movedOnKick_solo : State.movedOnKick.Solo 0 State.movedOnKickCrew State.movedOnThread :=
  ⟨rfl, rfl, by decide, by decide⟩

theorem State.movedOnKick_clear : State.movedOnKick.Clear (lx [lxSrc32 0] false) :=
  ⟨by decide, by decide, by decide, by decide, by decide⟩

/-- The record as its thread sees it. -/
theorem State.movedOnKick_record :
    leNat (forwardedBytes State.movedOnThread.fifo .sh 0 (Mem.readBytes State.movedOnKickCrew.shared 0 64)) = fillRecord := by
  decide

/-- The record passes every check of R204. -/
theorem State.movedOnKick_checks : ∀ chk ∈ State.movedOnKick.recordChecks State.movedOnKickCrew ++
    [State.movedOnKick.latchCheck 0 State.movedOnKickCrew, State.movedOnKick.mcastCheck 0 State.movedOnKickCrew],
    chk (State.movedOnKickCrew.homeCluster State.movedOnThread) fillRecord = none := by
  decide

/-- The thread's pc is 0, not 4: the kick does nothing. -/
theorem State.movedOnKick_stays : exec (.kick 0) State.movedOnKick = .next State.movedOnKick :=
  congrArg Host.Outcome.next (State.movedOnKick_solo.kickForm_elsewhere State.movedOnKick_clear (by decide) (by decide)
    (by decide) (by decide) (by decide) (State.movedOnKick_solo.stillHere.trans (by decide)))

end Sys2Proof.Machine

namespace Sys2Proof

open Machine

/-- Refutes O28: the statement does not ask that the thread stands at the bundle's instruction, which a kick asks once its
thread's stores have performed. In `State.movedOnKick` the bundle is at 4 and its thread at 0, and the record passes every
check; the kick leaves that state as it is, where the statement has a copy under the next identifier. -/
theorem not_kicksAreAccepted : ¬ Obligations.KicksAreAccepted := by
  unfold Obligations.KicksAreAccepted
  intro h
  obtain ⟨-, hkick⟩ := h State.movedOnKick 0 0 0 0 State.movedOnKickCrew State.movedOnThread 0 fillRecord _
    State.movedOnKick_solo (by decide) State.movedOnKick_record.symm rfl
  obtain ⟨-, haccept⟩ := hkick (.kick 0) none (by simp) State.movedOnKick_clear (by decide)
    (fun e he _ => (by decide : ∀ e ∈ State.movedOnKickCrew.threads, e.2.wait = none) e he) (by decide)
  obtain ⟨t, -, ht, -, hnext, -⟩ := haccept (by decide) (by decide) (by decide) (by decide)
    State.movedOnKick_checks (by decide) _ rfl (by decide) fun l x hl => nomatch hl
  obtain rfl : State.movedOnKick = t := Host.Outcome.next.inj (State.movedOnKick_stays.symm.trans ht)
  exact Nat.succ_ne_self _ hnext.symm

end Sys2Proof
end
